-- ==== Sys2Proof/Word.lean ====
section
/-!
DEFINITION. The words of the block and their plainest types: bit vectors for what the manual treats as
bits (R7: bit 0 is the least significant bit), a sparse table for what the manual numbers, and a counter
register that reads and clears (R9, R13).
-/
namespace Sys2Proof

abbrev Byte := BitVec 8
abbrev Half := BitVec 16
abbrev W32 := BitVec 32
abbrev W64 := BitVec 64

/-- A sparse table by number. Canonical form (`Machine.Table.wf`): numbers strictly rising, no entry
equal to what an unlisted number reads as. Byte memory is `Table Byte`, a list of `Host.Cell`. -/
abbrev Table (α : Type) := List (Nat × α)

/-- A read-and-clear (RC) counter. `base` counts what happened before the present hub cycle, `now` what
happened in it: a read in the same hub cycle as an event returns the value before the event, and the
event stays counted (R9, R13). `cap` is the value at which the field saturates, 0 while `now` is 0. -/
structure RcCount where
  base : Nat := 0
  now : Nat := 0
  cap : Nat := 0
  deriving DecidableEq, Repr

end Sys2Proof
end

