-- ==== Sys2Proof/Wire.lean ====
section
/-!
DEFINITION. The names and small records that a command carries as operands, or that State and Syntax share:
fault classes and records, host-access outcomes, memory names, cached forms, cryptographic facts about a message.
-/
namespace Sys2Proof.Machine

/-- Secret tags (R174). -/
inductive Tag where
  | pub | secret | share0 | share1 | share2 | cipher | pinf | pinblk | wrapped
  deriving DecidableEq, Repr

end Sys2Proof.Machine

namespace Sys2Proof

open Sys2Proof.Machine (Tag)

/-- Fault classes F0–F5 (R429). -/
inductive FaultClass where
  | f0 | f1 | f2 | f3 | f4 | f5
  deriving DecidableEq, Repr

/-- An event as a unit reports it to the fault collector: the fields of R431 that the reporting unit gives
(the collector adds SEQ, NT and FLAGS). `iid` 0xFFFF names no tenant page or table entry. -/
structure Event where
  cls : FaultClass
  source : Byte
  unit : Half := 0
  cause : Byte := 0
  act : Half := 0
  iid : Half := 0xFFFF
  tag : W64 := 0
  addr : W64 := 0
  detail0 : W64 := 0
  detail1 : W64 := 0
  deriving DecidableEq, Repr

/-- How a host read ends (R51, R59, R60, R433): data, or one of the four failures at an address. -/
inductive HostEnd where
  | ok
  | unsupported (iova : W64)
  | completerAbort (iova : W64)
  | poisoned (iova : W64)
  | timeout (iova : W64)
  deriving DecidableEq, Repr

/-- The even parity bit of a value of w bits: the one that makes the number of ones even (R24). -/
def evenParity {w : Nat} (x : BitVec w) : Bool := (List.range w).foldl (fun p k => xor p (x.getLsbD k)) false

/-- A 32-bit word as a read finds it, with its stored parity bit (R24). -/
structure StoredWord where
  word : W32
  parity : Bool
  deriving DecidableEq, Repr

/-- A word as its writer leaves it. -/
def StoredWord.of (w : W32) : StoredWord := { word := w, parity := evenParity w }
def StoredWord.intact (x : StoredWord) : Bool := x.parity == evenParity x.word

/-- The parity bits that the writer of so many bytes stores beside their 32-bit words (R24). -/
def wordsParity (b : List Byte) : List Bool :=
  (List.range ((b.length + 3) / 4)).map (fun k =>
    (((b.drop (4 * k)).take 4).map evenParity).foldl xor false)

/-- The parity bits of a value of n words. -/
def valueParity {w : Nat} (n : Nat) (x : BitVec w) : List Bool := (List.range n).map (fun k => evenParity (x.extractLsb' (32 * k) 32))

/-- A read that found a word: the core whose routine waits for it, the word, and the bytes of a write below 32 bits whose read of its word
this is (R27, R30, R160). -/
structure WordRead where
  core : Option Nat := none
  found : StoredWord
  narrow : Option (List Byte × Tag) := none
  deriving DecidableEq, Repr

/-- A frame as the PHY hands it over (R318, R330): whether its FCS is right, the FEC codewords corrected in it, and those that could not be. -/
structure FrameRead where
  fcs : Bool
  corrected : Nat := 0
  uncorrected : Nat := 0
  deriving DecidableEq, Repr

/-- Neither FCS nor FEC drops it (order 2 of R318). -/
def FrameRead.intact (x : FrameRead) : Bool := x.fcs && x.uncorrected == 0

/-- The request of a read that timed out, the last of it outstanding, and the completions of it that failed before (R59, R60). -/
structure TimedOut where
  failed : List HostEnd := []
  iova : W64
  deriving DecidableEq, Repr

/-- A 512-bit flit with 16 parity bits, one for each 32-bit slice, and its header with a parity bit of its own on the
sideband (R24). -/
structure Flit where
  data : BitVec 512
  parity : BitVec 16
  header : W64
  headerParity : Bool
  deriving DecidableEq, Repr

/-- The parity bits of the slices. -/
def sliceParity (d : BitVec 512) : BitVec 16 :=
  BitVec.ofNat 16 ((List.range 16).foldl (fun n k =>
    n + if evenParity (d.extractLsb' (32 * k) 32) then 2 ^ k else 0) 0)

/-- A flit as its sender makes it. -/
def Flit.of (data : BitVec 512) (header : W64) : Flit :=
  { data := data, parity := sliceParity data, header := header, headerParity := evenParity header }
def Flit.intact (f : Flit) : Bool := f.parity == sliceParity f.data && f.headerParity == evenParity f.header

/-- A flit as a port receives it, and the core whose access it serves where it is of no transfer of the fabric's (R25, R32). -/
structure FlitRead where
  flit : Flit
  core : Option Nat := none
  deriving DecidableEq, Repr

/-- A memory that holds lines of 64 bytes under parity (R16, R24, R27–R29, R154, R240). -/
inductive MemName where
  /-- local memory of core 16x + y -/
  | coreLocal (core : Nat)
  /-- ring memory of ring x -/
  | ring (ring : Nat)
  /-- the act store of ring x, reached by instruction fetch -/
  | actStore (ring : Nat)
  /-- central memory, by region -/
  | keyStore | netBuffers | auditStore | troubleLog | working
  /-- a core's control store (ROM or patch RAM), 0 the address of the word -/
  | controlStore (core : Nat)
  /-- scratch of Maelhoavo engine 16x + k -/
  | scratch (engine : Nat)
  /-- the state memory of hash engine `e` of ring x, numbered 16x + e -/
  | hashState (engine : Nat)
  /-- an accumulator limb of Maelhoavo engine 16x + k, which is not re-read (R240) -/
  | accumulator (engine : Nat)
  /-- a key register of block-cipher engine `e` of ring x, numbered 16x + e, which is not re-read (R261) -/
  | keyRegister (engine : Nat)
  deriving DecidableEq, Repr

/-- What a line that fails held, and so what its owner does (R29). -/
inductive LineHeld where
  /-- the working set of the ticket -/
  | workingSet (tid : Nat)
  /-- a cached copy of a form, and the ticket that was reading it, if any -/
  | copy (ring : Nat) (handle : W32) (kind : Nat) (reader : Option Nat)
  /-- the key store entry of the handle -/
  | keyEntry (handle : W32)
  /-- directory entries of the key store, in one twin or in both (R306) -/
  | directory (handles : List W32) (both : Bool)
  /-- the accumulator of the custodian ceremony (R306) -/
  | ceremony
  /-- the act store line a ticket was fetching -/
  | act (tid : Nat)
  /-- the frame of a port that stands at a place of its queue, received or outgoing -/
  | frame (port : Nat) (received : Bool) (at_ : Nat)
  /-- the audit store: both twins of this tenant's frontier, and so its tree; a lone twin is rebuilt from the other and is `unowned` (R378) -/
  | audit (iid : Nat)
  /-- the audit store: a staged seal record, and the tenants whose receipts the line held of it (R378) -/
  | record (epoch : W64) (iids : List Nat)
  /-- a Dolid session's key line (R339) -/
  | session (sid : Nat)
  /-- a line of trouble-log entries (R440) -/
  | log (entry : Nat)
  /-- the retained area of the working space: the device acts whose code the line held (R478) -/
  | retained (numbers : List Half)
  /-- working space that no operation owns -/
  | unowned
  deriving DecidableEq, Repr

/-- A host read in flight: which one a completion or a timeout concerns (R59, R60, R72). -/
inductive ReadRef where
  | ticketRead (iid : Nat)
  | dma (core : Nat)
  /-- an engine LOAD of the window k of a core's ring -/
  | engineLoad (core : Nat) (window : Nat)
  deriving DecidableEq, Repr

/-- What the boot ROM finds of an image that the model does not compute: whether the flash answered; whether a key of the image
matches the firmware root and its signature verifies; the same two for the patch; and whether each bundle's key and
signature hold (R171, R475, R476). -/
structure BootVerdicts where
  flashOk : Bool
  keyOk : Bool
  sigOk : Bool
  patchKeyOk : Bool
  patchSigOk : Bool
  vendorOk : Bool
  integratorOk : Bool
  deriving DecidableEq, Repr

/-- A unit that draws from the DRBG (R422). -/
inductive DrbgUser where
  /-- RANDOM of hash engine 0 or 1 of the core's ring, issued by the core -/
  | hash (core engine : Nat)
  /-- PINFMT of a block-cipher engine -/
  | pinfmt (core engine : Nat)
  | mrgSeed (ring stream : Nat)
  | cookie
  /-- blob nonce of the core's KEYGET -/
  | blob (core : Nat)
  /-- KS_CER_ID -/
  | ceremony
  | hatCheck (slot : Nat)
  | challenge
  | bootId
  deriving DecidableEq, Repr

/-- What a register number of the debug port's core space names (R457): the debug control, half of a g register, a 32-bit word of a vector
register, half of a CSR, or nothing. -/
inductive DapReg where
  | none
  | control
  | g (n : Nat) (hi : Bool)
  | vword (n k : Nat)
  | csr (n : Nat) (hi : Bool)
  deriving DecidableEq, Repr, Inhabited

/-- What a SRCA, SRCB or DST code of a control word names (R155): a g register by an instruction field, a micro-temporary, a constant, or,
as a destination, the memory address register. -/
inductive MicroOperand where
  | gD
  | gA
  | gB
  | temp (k : Nat)
  | const (v : BitVec 64)
  | mar
  deriving DecidableEq, Repr, Inhabited

/-- Which of its inputs a vector datapath code takes (R155). -/
structure VecUses where
  va : Bool
  vb : Bool
  vd : Bool
  pred : Bool
  scalar : Bool
  mem : Bool
  deriving DecidableEq, Repr, Inhabited

/-- The inputs of the vector datapath: the v registers of fields a, b and d, the governing predicate, source A, the memory data register,
and the randomness taken; 0 for one that the code does not take. -/
structure VecIn where
  va : BitVec 1024
  vb : BitVec 1024
  vd : BitVec 1024
  pred : BitVec 128
  scalar : BitVec 64
  mem : BitVec 64
  rand : List (BitVec 1024)
  deriving DecidableEq, Repr

/-- What a CNT code does to the micro-counter (R155). -/
inductive MicroCount where
  | hold
  | loadImm
  | loadSrc
  | decrement
  deriving DecidableEq, Repr, Inhabited

end Sys2Proof
end

