-- ==== Sys2Proof/Syntax.lean ====
section
/-!
DEFINITION. The commands of the block, one constructor for each row of spec/opcode_table.json. An operand is what the
row's rule makes the event carry. A core is numbered 16x + y (core x.y), the management pair 256; an engine 16x + k.
-/
namespace Sys2Proof

inductive Instr where
  /-- REGISTER_WRITE: a host write of the bytes `data` at offset `off` of BAR0 or BAR2 (R9, R11, R12, R46) -/
  | registerWrite (bar off : Nat) (data : List Byte)
  /-- RC_REGISTER_READ: a host read of `bytes` bytes; an RC register is cleared (R9, R11, R13) -/
  | rcRegisterRead (bar off bytes : Nat)
  /-- FLIT_RECEIVE: a hop-direction or port, by UNIT code, receives a flit of a transfer, `flit` its number in it (R24, R25) -/
  | flitReceive (unit : Half) (xfer : Nat) (flit : W64) (f : FlitRead)
  /-- CREDIT_RETURN: destination stop `dst` returns a credit to source stop `src` (R22) -/
  | creditReturn (src dst : Nat)
  /-- TRANSFER_DONE: the transfer's last flit was accepted (R23) -/
  | transferDone (xfer : Nat)
  /-- MEMORY_PARITY_ERROR: a read at the address `line` finds a word whose parity is wrong (R27, R30, R160) -/
  | memoryParityError (mem : MemName) (line : W64) (held : LineHeld) (read : WordRead)
  /-- REREAD_COMPLETE: one re-read at the address ends (R27) -/
  | rereadComplete (mem : MemName) (line : W64) (found : StoredWord)
  /-- ACT_STORE_LINE_REWRITE: firmware rewrites a retired act-store line from the retained copy, whose 64 bytes it carries (R29) -/
  | actStoreLineRewrite (ring : Nat) (line : W64) (bytes : List Byte)
  /-- D3HOT_ENTER: the function enters D3hot (R41) -/
  | d3hotEnter
  /-- D0_RETURN: the function returns to D0 without a reset (R41) -/
  | d0Return
  /-- INSTANCE_CONFIG_WRITE: a write of the entry register at `off` (0x08 IT_PASID, 0x0C IT_QCFG, 0x10–0x1C the queue bases) (R45) -/
  | instanceConfigWrite (iid off : Nat) (data : W32)
  /-- IT_SHARE_WRITE: R44, R79 -/
  | itShareWrite (iid : Nat) (data : W32)
  /-- IT_CEILING_WRITE: R44, R79 -/
  | itCeilingWrite (iid : Nat) (data : W32)
  /-- ACTIVATE: IT_CMD 0x1 (R45) -/
  | activate (iid : Nat)
  /-- STOP: IT_CMD 0x2 (R64) -/
  | stop (iid : Nat)
  /-- CANCEL: IT_CMD 0x3 (R64) -/
  | cancel (iid : Nat)
  /-- RESUME: IT_CMD 0x4 (R64) -/
  | resume (iid : Nat)
  /-- RESET: IT_CMD 0x5 (R66) -/
  | instReset (iid : Nat)
  /-- RESET_COMPLETE: step 5 of R66 -/
  | resetComplete (iid : Nat)
  /-- REMOVE: IT_CMD 0x6 (R68) -/
  | remove (iid : Nat)
  /-- REMOVE_COMPLETE: the key scrub of a removal ends (R68) -/
  | removeComplete (iid : Nat)
  /-- MB_SEND: IT_CMD 0x7 (R62) -/
  | mbSend (iid : Nat)
  /-- MB_ACK: IT_CMD 0x8 (R62) -/
  | mbAck (iid : Nat)
  /-- SEND: IT_PG_MB_CTRL.SEND (R62) -/
  | mbxSend (iid : Nat)
  /-- ACK: IT_PG_MB_CTRL.ACK (R61) -/
  | mbxAck (iid : Nat)
  /-- SQ_DOORBELL: IT_PG_SQ_TAIL (R50) -/
  | sqDoorbell (iid : Nat) (data : W32)
  /-- CQ_DOORBELL: IT_PG_CQ_HEAD (R57) -/
  | cqDoorbell (iid : Nat) (data : W32)
  /-- TICKET_FETCH: the Usher issues one ticket read request (R51) -/
  | ticketFetch (iid : Nat)
  /-- TICKET_READ_COMPLETION: the oldest read request in flight ends: the failed completions among its own, and its tickets if there are none (R51, R59) -/
  | ticketReadCompletion (iid : Nat) (failed : List HostEnd) (tickets : List (BitVec 512))
  /-- COMPLETION_TIMEOUT: a non-posted request of a read times out (R59, R60) -/
  | completionTimeout (ref : ReadRef) (late : TimedOut)
  /-- HOST_READ_COMPLETION: the last completion of a read has come: the failed ones among them, and the data if there are none (R59) -/
  | hostReadCompletion (ref : ReadRef) (failed : List HostEnd) (data : List Byte)
  /-- INLINE_GO: IT_PG_INLINE_GO (R52) -/
  | inlineGo (iid : Nat)
  /-- INLINE_COPY_DONE: R52 -/
  | inlineCopyDone (iid : Nat)
  /-- ABORT_START: a write of IT_PG_ABORT_TAG_HI (R69) -/
  | abortStart (iid : Nat) (tagHi : W32)
  /-- ABORT_DONE: R72 -/
  | abortDone (iid : Nat)
  /-- TICKET_ENTRY: the ticket meets checks 1–5 (R49) -/
  | ticketEntry (tid : Nat)
  /-- ENTITLEMENT_RECOMPUTE: R74 -/
  | entitlementRecompute
  /-- DEADLINE_EXPIRY: R81 -/
  | deadlineExpiry (tid : Nat)
  /-- DISPATCH_PASS: one pass; `base` is the ring memory offset the Usher would give the working set (R84, R85) -/
  | dispatchPass (base : Nat)
  /-- COPY_VALID: R87 -/
  | copyValid (ring : Nat) (handle : W32) (kind : Nat)
  /-- COPY_FREED: R87 -/
  | copyFreed (ring : Nat) (handle : W32) (kind : Nat)
  /-- SHARE_EPOCH_BOUNDARY: R79 -/
  | shareEpochBoundary
  /-- EPOCH_NOW: USH_CTRL.EPOCH_NOW (R79) -/
  | epochNow
  /-- COMMIT: the Usher accepts the core's commit signal (R55) -/
  | commit (core : Nat)
  /-- REG_ARITH: R105 -/
  | regArith (core : Nat) (word : W32)
  /-- DIVIDE: R105, R106 -/
  | divide (core : Nat) (word : W32)
  /-- IMM_ARITH: R106 -/
  | immArith (core : Nat) (word : W32)
  /-- SHI: R104 -/
  | shi (core : Nat) (word : W32)
  /-- LIZ: R106 -/
  | liz (core : Nat) (word : W32)
  /-- LIK: R106 -/
  | lik (core : Nat) (word : W32)
  /-- LOAD: R108 -/
  | load (core : Nat) (word : W32)
  /-- STORE: R108 -/
  | store (core : Nat) (word : W32)
  /-- LDM: R129 -/
  | ldm (core : Nat) (word : W32)
  /-- STM: R129 -/
  | stm (core : Nat) (word : W32)
  /-- BRANCH: R110 -/
  | branch (core : Nat) (word : W32)
  /-- JMPL: R110 -/
  | jmpl (core : Nat) (word : W32)
  /-- JMPLR: R110 -/
  | jmplr (core : Nat) (word : W32)
  /-- CSRR: R117 -/
  | csrr (core : Nat) (word : W32)
  /-- CSRW: R117 -/
  | csrw (core : Nat) (word : W32)
  /-- CSRS: R117 -/
  | csrs (core : Nat) (word : W32)
  /-- CSRC: R117 -/
  | csrc (core : Nat) (word : W32)
  /-- EXIT: R113 -/
  | exit (core : Nat) (word : W32)
  /-- WAIT: R111 -/
  | wait (core : Nat) (word : W32)
  /-- FENCE: R109, R111 -/
  | fence (core : Nat) (word : W32)
  /-- TRET: R111 -/
  | tret (core : Nat) (word : W32)
  /-- BRK: R111 -/
  | brk (core : Nat) (word : W32)
  /-- IRET: R111, R122 -/
  | iret (core : Nat) (word : W32)
  /-- KEYGET: R112 -/
  | keyget (core : Nat) (word : W32)
  /-- FORMGET: R111 -/
  | formget (core : Nat) (word : W32)
  /-- FORMPUT: R111 -/
  | formput (core : Nat) (word : W32)
  /-- MGMT_INTERRUPT: hub block `block` interrupts the management pair (R122) -/
  | mgmtInterrupt (block : Nat)
  /-- DMA_START: a store of `ctrl` to DMA_CTRL (R116) -/
  | dmaStart (core : Nat) (ctrl : W64)
  /-- DMA_DONE: the oldest transfer of the channel completes (R116) -/
  | dmaDone (core : Nat)
  /-- ACT_LOAD: GCTL_ACT_LOAD.GO (R125) -/
  | actLoad
  /-- UNLOAD: GCTL_ACT_LOAD.UNLOAD with ACT (R125) -/
  | unload (act : Half)
  /-- ACT_LOAD_DONE: firmware ends its work; whether the root is permitted and the signature verifies, and the act-store offset it gives the image (R125) -/
  | actLoadDone (rootPermitted verifies : Bool) (place : Nat)
  /-- VEC_ALU: R136 -/
  | vecAlu (core : Nat) (word : W32)
  /-- VEC_MOD: R137 -/
  | vecMod (core : Nat) (word : W32)
  /-- VEC_REDUCE: R138 -/
  | vecReduce (core : Nat) (word : W32)
  /-- VEC_GF: R139 -/
  | vecGf (core : Nat) (word : W32)
  /-- VSXOR: R183 -/
  | vsxor (core : Nat) (word : W32)
  /-- VSAND: R183 -/
  | vsand (core : Nat) (word : W32)
  /-- VSADD: R183 -/
  | vsadd (core : Nat) (word : W32)
  /-- VSMMUL: R183 -/
  | vsmmul (core : Nat) (word : W32)
  /-- VSREF: R183 -/
  | vsref (core : Nat) (word : W32)
  /-- VSA2B: R183 -/
  | vsa2b (core : Nat) (word : W32)
  /-- VSB2A: R183 -/
  | vsb2a (core : Nat) (word : W32)
  /-- VEC_PRED: R141 -/
  | vecPred (core : Nat) (word : W32)
  /-- VFENCE: R147, R148 -/
  | vfence (core : Nat) (word : W32)
  /-- VLD: R142 -/
  | vld (core : Nat) (word : W32)
  /-- VLDS: R142 -/
  | vlds (core : Nat) (word : W32)
  /-- VLDX: R142 -/
  | vldx (core : Nat) (word : W32)
  /-- VST: R142 -/
  | vst (core : Nat) (word : W32)
  /-- VSTS: R142 -/
  | vsts (core : Nat) (word : W32)
  /-- VSTX: R142 -/
  | vstx (core : Nat) (word : W32)
  /-- FIRST_FAULT_LOAD: R150 -/
  | firstFaultLoad (core : Nat) (word : W32)
  /-- VECTOR_ELEMENT_CHECK: the oldest outstanding checks end (R146) -/
  | vectorElementCheck (core : Nat)
  /-- PATCH_LOAD: GCTL_PATCH_LOAD.GO; whether a key of the boot key table matches the permitted root and the signature verifies (R171) -/
  | patchLoad (keyFound verifies : Bool)
  /-- REVERT: GCTL_PATCH_LOAD.REVERT (R171) -/
  | revert
  /-- PATCH_BROADCAST: R172 -/
  | patchBroadcast
  /-- MRG_SEED_REQUEST: R188 -/
  | mrgSeedRequest (ring stream : Nat)
  /-- MRG_SEED_ARRIVAL: R188 -/
  | mrgSeedArrival (ring stream : Nat)
  /-- MRG_INSTANCE_STOP: R188 -/
  | mrgInstanceStop (ring stream : Nat)
  /-- RANDOMNESS_WAIT_NOTICE: R188 -/
  | randomnessWaitNotice (core : Nat)
  /-- DCL_GO: a write of DCL_GO (R191, R193) -/
  | dclGo (core : Nat) (value : W64)
  /-- DCL_RELEASE_DONE: the routine's final word (R196) -/
  | dclReleaseDone (core : Nat)
  /-- HE_INIT: the store of `value` to HE_CMD of hash engine 0 or 1 (R226) -/
  | heInit (core engine : Nat) (value : W64)
  /-- HE_ABSORB: R226 -/
  | heAbsorb (core engine : Nat) (value : W64)
  /-- HE_FINAL: R226 -/
  | heFinal (core engine : Nat) (value : W64)
  /-- HE_SQUEEZE: R226 -/
  | heSqueeze (core engine : Nat) (value : W64)
  /-- HE_HASH: R226 -/
  | heHash (core engine : Nat) (value : W64)
  /-- HE_COPY: R226 -/
  | heCopy (core engine : Nat) (value : W64)
  /-- HE_RANDOM: R226 -/
  | heRandom (core engine : Nat) (value : W64)
  /-- HE_CMD_DONE: the oldest command of the core on the engine completes (R229) -/
  | heCmdDone (core engine : Nat)
  /-- ME_CLAIM: the store of `value`, PAGES non-zero, to ME_CLAIM (R232) -/
  | meClaim (core window : Nat) (value : W64)
  /-- ME_CLAIM_GRANT: the head claim of engine k of the ring is granted (R232) -/
  | meClaimGrant (ring engine : Nat)
  /-- ME_RELEASE: the store of `value`, PAGES 0, to ME_CLAIM (R233) -/
  | meRelease (core window : Nat) (value : W64)
  /-- ME_SCRUB_DONE: the oldest scrub of the engine ends (R233) -/
  | meScrubDone (ring engine : Nat)
  /-- ME_LOAD: the store of `value` to ME_CMD (R236) -/
  | meLoad (core window : Nat) (value : W64)
  /-- ME_STORE: R236 -/
  | meStore (core window : Nat) (value : W64)
  /-- ME_ZERO: R236 -/
  | meZero (core window : Nat) (value : W64)
  /-- ACLR: R236 -/
  | aclr (core window : Nat) (value : W64)
  /-- ALOAD: R236 -/
  | aload (core window : Nat) (value : W64)
  /-- ASTORE: R236 -/
  | astore (core window : Nat) (value : W64)
  /-- ASHR: R236 -/
  | ashr (core window : Nat) (value : W64)
  /-- ME_MAC: R236 -/
  | meMac (core window : Nat) (value : W64)
  /-- MACL: R236 -/
  | macl (core window : Nat) (value : W64)
  /-- MROW: R236 -/
  | mrow (core window : Nat) (value : W64)
  /-- ME_CMD_DONE: the oldest command of the core on the window completes (R238) -/
  | meCmdDone (core window : Nat)
  /-- LDKEY: the store of `value` to BC_CMD of block-cipher engine 0 or 1 (R263) -/
  | ldkey (core engine : Nat) (value : W64)
  /-- CLRKEY: R263 -/
  | clrkey (core engine : Nat) (value : W64)
  /-- DERIVE: R263 -/
  | derive (core engine : Nat) (value : W64)
  /-- ENC: R263 -/
  | enc (core engine : Nat) (value : W64)
  /-- DEC: R263 -/
  | dec (core engine : Nat) (value : W64)
  /-- BC_MAC: R263 -/
  | bcMac (core engine : Nat) (value : W64)
  /-- PINDEC: R263 -/
  | pindec (core engine : Nat) (value : W64)
  /-- PINFMT: R263 -/
  | pinfmt (core engine : Nat) (value : W64)
  /-- PINENC: R263 -/
  | pinenc (core engine : Nat) (value : W64)
  /-- WRAP: R263 -/
  | wrap (core engine : Nat) (value : W64)
  /-- UNWRAP: R263, R280 -/
  | unwrap (core engine : Nat) (value : W64)
  /-- BC_CMD_DONE: R264 -/
  | bcCmdDone (core engine : Nat)
  /-- KEY_REQUEST: the controller decides the stalled KEYGET of the core; the cores whose requests have reached it in the same hub cycle (R290, R295) -/
  | keyRequest (core : Nat) (others : List Nat)
  /-- KEY_DELIVERY_COMPLETE: R112 -/
  | keyDeliveryComplete (core : Nat)
  /-- KEY_FILL_DONE: R284 -/
  | keyFillDone (handle : W32)
  /-- KEY_SCRUB_DONE: R311 -/
  | keyScrubDone (handle : W32)
  /-- SWEEP: R294 -/
  | sweep
  /-- KS_DOMAIN_WRITE: a write of KS_I_DOMAINk (R313) -/
  | ksDomainWrite (iid k : Nat) (data : W32)
  /-- OPEN: KS_CER_CTRL.CMD 0x1 (R308) -/
  | cerOpen
  /-- COMPONENT: KS_CER_CTRL.CMD 0x2 (R308) -/
  | component
  /-- COMPONENT_DONE: the slot's profile exchange ends (R309) -/
  | componentDone
  /-- CER_CLOSE: KS_CER_CTRL.CMD 0x3 (R308) -/
  | cerClose
  /-- CER_CANCEL: KS_CER_CTRL.CMD 0x4 (R308) -/
  | cerCancel
  /-- CER_RESUME: KS_CER_CTRL.CMD 0x5 (R308) -/
  | cerResume
  /-- PORT_ENABLE: a write of NET_Pn_CTRL with EN 1 (R316, R317) -/
  | portEnable (port : Nat) (data : W32)
  /-- PORT_DISABLE: a write of NET_Pn_CTRL with EN 0 (R322) -/
  | portDisable (port : Nat) (data : W32)
  /-- LINK_RESTART: R316 -/
  | linkRestart (port : Nat)
  /-- LINK_UP: R316, R322 -/
  | linkUp (port : Nat)
  /-- LINK_DOWN: whether a frame was being received (R316) -/
  | linkDown (port : Nat) (receiving : Bool)
  /-- FRAME_RECEIVE: a frame from its destination address to its FCS; how the PHY found its FCS and its FEC codewords (R318, R330) -/
  | frameReceive (port : Nat) (frame : List Byte) (found : FrameRead)
  /-- DAD_TIMEOUT: R322 -/
  | dadTimeout (port : Nat)
  /-- NEIGHBOUR_RETRY: R321; an IPv4 address is written ::ffff:a.b.c.d -/
  | neighbourRetry (port : Nat) (addr : BitVec 128)
  /-- NEIGHBOUR_RESOLVE_FAIL: R321 -/
  | neighbourResolveFail (port : Nat) (addr : BitVec 128)
  /-- FRAME_TRANSMIT: one frame of the port's queue leaves; a PTP frame that firmware hands over first, if any, with the receive timestamp of its descriptor in 1/256 ns (R320, R326, R327) -/
  | frameTransmit (port : Nat) (firmware : Option (List Byte × Nat))
  /-- TXTS_POP: R328 -/
  | txtsPop (port : Nat)
  /-- DOLID_INIT: the oldest undecided message, received on this port, is an INIT (R335, R336) -/
  | dolidInit (port : Nat)
  /-- DOLID_REQUEST: the oldest undecided message, received on this port and naming this SID, is a REQUEST (R334, R344) -/
  | dolidRequest (port : Nat) (sid : W32)
  /-- DOLID_ABORT: R347 -/
  | dolidAbort (port : Nat) (sid : W32)
  /-- DOLID_CLOSE: R339 -/
  | dolidClose (port : Nat) (sid : W32)
  /-- SESSION_IDLE_TIMEOUT: R339 -/
  | sessionIdleTimeout (sid : W32)
  /-- COOKIE_EPOCH: R335 -/
  | cookieEpoch
  /-- COOKIE_DRAW_RETRY: R335 -/
  | cookieDrawRetry
  /-- TXID_HOLD_EXPIRY: R345 -/
  | txidHoldExpiry (iid : Nat) (txid : W64)
  /-- PEER_READ: a write of DOL_PEER_CMD with CMD 0b01 (R355) -/
  | peerRead (data : W32)
  /-- PEER_WRITE: CMD 0b10 -/
  | peerWrite (data : W32)
  /-- PEER_CLEAR: CMD 0b11 -/
  | peerClear (data : W32)
  /-- GLOVE_REFILL: R353 -/
  | gloveRefill
  /-- SOURCE_SELECT: a write of RM_CTRL (R359) -/
  | sourceSelect (data : W32)
  /-- SET: a write of RM_CTRL with SET 1 (R359, R360) -/
  | ntSet (data : W32)
  /-- APPLY: a management core writes APPLY (R362) -/
  | apply
  /-- SLEW_DONE: R360 -/
  | slewDone
  /-- PPS_EDGE: R361 -/
  | ppsEdge
  /-- HOLDOVER_TIMEOUT: R363 -/
  | holdoverTimeout
  /-- SCHEDULE_ENTRY_WRITE: a write of RM_Sk_CTRL (R365, R367) -/
  | scheduleEntryWrite (k : Nat) (data : W32)
  /-- SCHEDULE_FIRE: R366 -/
  | scheduleFire (k : Nat)
  /-- PULSE_END: R367 -/
  | pulseEnd (k : Nat)
  /-- SEAL_NOW: R373 -/
  | sealNow
  /-- RECEIPT_HASH: R370 -/
  | receiptHash
  /-- EPOCH_ROOTS_DONE: steps 2–4 of R374 for the oldest epoch that has not passed them -/
  | epochRootsDone
  /-- SEAL_TICKET_END: R374 -/
  | sealTicketEnd
  /-- SEAL_COSIGN_RETRY: R374 -/
  | sealCosignRetry
  /-- SEAL_RECORD_WRITE: R377 -/
  | sealRecordWrite
  /-- AUD_RING_TAIL_WRITE: R382 -/
  | audRingTailWrite (data : W32)
  /-- CLOCK_GATE_CLOSE: the gate of the block of this UNIT code (R385) -/
  | clockGateClose (unit : Half)
  /-- CLOCK_SWITCH: the next step of the domain's switch comes about (R386) -/
  | clockSwitch (domain : Nat)
  /-- FROZEN_DOMAIN_TRIP: R389 -/
  | frozenDomainTrip (domain : Nat)
  /-- PLL_TRIP: DETAIL0 of R433: 2 lock lost, 3 lock not reached, 4 frequency (R390) -/
  | pllTrip (pll : Nat) (why : Nat)
  /-- TIO_MONITOR_TRIP: 1 no edge, 4 frequency, 5 not stable in time (R388) -/
  | tioMonitorTrip (why : Nat)
  /-- AON_MONITOR_TRIP: 1 silent, 4 out of range (R388) -/
  | aonMonitorTrip (why : Nat)
  /-- REF10_LOSS: R388 -/
  | ref10Loss
  /-- REFCLK_LOSS: R388, R390 -/
  | refclkLoss
  /-- PLL_LOCK: R392, R391 -/
  | pllLock (pll : Nat)
  /-- RECOVERY_ATTEMPT: R391 -/
  | recoveryAttempt (domain : Nat)
  /-- RECOVERY_HOLD_DONE: R391 -/
  | recoveryHoldDone (domain : Nat)
  /-- CLK_RECOVER: R391, R395 -/
  | clkRecover (data : W32)
  /-- TIO_TRIM_WRITE: R393, R395 -/
  | tioTrimWrite (data : W32)
  /-- TRIM_GATE: TIO cycles counted over 10,000,000 REF10_IN cycles (R394) -/
  | trimGate (counted : Nat)
  /-- TRIM_PTP_STEP: R394 -/
  | trimPtpStep
  /-- CARD_INSERT: R407 -/
  | cardInsert (slot : Nat)
  /-- CARD_REMOVE: R407, R408 -/
  | cardRemove (slot : Nat)
  /-- HC_ACTIVATE: HC_Sn_CMD 0x1 (R409) -/
  | hcActivate (slot : Nat)
  /-- HC_DEACTIVATE: HC_Sn_CMD 0x2 -/
  | hcDeactivate (slot : Nat)
  /-- EXCHANGE: HC_Sn_CMD 0x3 -/
  | exchange (slot : Nat)
  /-- RESYNCH: HC_Sn_CMD 0x4 -/
  | resynch (slot : Nat)
  /-- ACTIVATION_TIMER: the delay in progress ends; whether VCC_CARDn is in range (R397, R493) -/
  | activationTimer (slot : Nat) (vccOk : Bool)
  /-- ATR_RECEIVE: the answer to reset as received, empty when none begins in time; whether parity, TS, TCK and the character times hold (R397, R398) -/
  | atrReceive (slot : Nat) (atr : List Byte) (intact : Bool)
  /-- T1_BLOCK_RECEIVE: a block; whether parity and EDC are right; whether the certificate or GCM tag it completes verifies, and the component deciphered (R401, R403) -/
  | t1BlockReceive (slot : Nat) (block : List Byte) (intact verified : Bool) (plain : List Byte)
  /-- T1_TIMEOUT: R399, R401 -/
  | t1Timeout (slot : Nat)
  /-- STATUS_POLL: R405 -/
  | statusPoll (slot : Nat)
  /-- BUSY_TIMEOUT: R405 -/
  | busyTimeout (slot : Nat)
  /-- CARD_CLOCK_STOP: R406 -/
  | cardClockStop (slot : Nat)
  /-- CARD_VCC_FAULT: R493 -/
  | cardVccFault (slot : Nat)
  /-- NOISE_WINDOW_END: the window's raw bits, bit 0 first (R413–R417) -/
  | noiseWindowEnd (source : Nat) (bits : BitVec 1024)
  /-- SRC_EN_WRITE: R413 -/
  | srcEnWrite (data : W32)
  /-- DRBG_KAT_DONE: R420 -/
  | drbgKatDone (passed : Bool)
  /-- DRBG_INSTANTIATE_DONE: pool windows, oldest first, whose parity fails at this use (R421, R427) -/
  | drbgInstantiateDone (bad : BitVec 16)
  /-- INSTANTIATE: R421 -/
  | instantiate
  /-- RESEED: R423 -/
  | reseed
  /-- RESEED_BLOCKING: R423 -/
  | reseedBlocking
  /-- DRBG_RESEED_DONE: R423, R427 -/
  | drbgReseedDone (bad : BitVec 16)
  /-- DRBG_REQUEST: R422 -/
  | drbgRequest (who : DrbgUser)
  /-- DRBG_REQUEST_SERVED: the request at the head; whether Key and V hold their parity (R422, R427) -/
  | drbgRequestServed (intact : Bool)
  /-- DRBG_HOLD_EXPIRY: R424 -/
  | drbgHoldExpiry (who : DrbgUser)
  /-- RNG_STAT_READ: R417 -/
  | rngStatRead (source : Nat)
  /-- RAW_CAPTURE: a write of RNG_RAW_CTRL with GO (R418) -/
  | rawCapture (data : W32)
  /-- RAW_CAPTURE_DONE: R418 -/
  | rawCaptureDone (bits : BitVec 16384)
  /-- FAULT_EVENT: R434 -/
  | faultEvent (ev : Event)
  /-- FAULT_RECORD_WRITE: R434 -/
  | faultRecordWrite
  /-- SNET_NOW: FC_CTRL.SNET_NOW (R441) -/
  | snetNow
  /-- FC_MODE_WRITE: R435 -/
  | fcModeWrite (data : W32)
  /-- FC_STICKY_CLEAR: a write of FC_STICKYk (R435) -/
  | fcStickyClear (k : Nat) (data : W32)
  /-- POP: FC_HQ_CTRL.POP (R435) -/
  | pop
  /-- CLEAR: FC_HQ_CTRL.CLEAR (R435) -/
  | clear
  /-- FC_RETIRE: FC_RETIRE.GO with UNIT (R438) -/
  | fcRetire (unit : Half)
  /-- RETIRE_WINDOW_RESET: R438 -/
  | retireWindowReset
  /-- FAULT_INJECT: FC_INJ.GO (R437) -/
  | faultInject
  /-- COLLECTOR_PARITY_ERROR: R436 -/
  | collectorParityError (off : W64) (shadowFails : Bool)
  /-- LOCKSTEP_MISMATCH: R435 -/
  | lockstepMismatch (pc0 pc1 : W64)
  /-- LC_TRANSITION: a write of LCS_NEXT; whether it came through the debug port; whether VDD_OTP is in range (R448) -/
  | lcTransition (target : Nat) (dap vddOtp : Bool)
  /-- OTP_ROW_PROGRAMMED: the row in progress ends; whether it reads back (R446, R449) -/
  | otpRowProgrammed (readsBack : Bool)
  /-- ROOT_PROGRAM: a write of LCS_ROOT_CMD with GO (R453) -/
  | rootProgram (data : W32) (vddOtp : Bool)
  /-- CHALLENGE: R460 -/
  | challenge
  /-- VERIFY: R460 -/
  | verify
  /-- VERIFY_DONE: whether the key's digest is the state's debug root and that root is locked; whether the signature verifies (R460) -/
  | verifyDone (keyOk verifies : Bool)
  /-- DBG_CLOSE: R460 -/
  | dbgClose
  /-- HOLD: R461 -/
  | hold
  /-- RELEASE: R461 -/
  | release
  /-- BYPASS: R456 -/
  | bypass
  /-- IDCODE: R456 -/
  | idcode
  /-- SAMPLE_PRELOAD: R456 -/
  | samplePreload
  /-- EXTEST: R456 -/
  | extest
  /-- CLAMP: R456 -/
  | clamp
  /-- HIGHZ: R456 -/
  | highz
  /-- DAP_READ: R457, R458 -/
  | dapRead (space : Nat) (addr : W32)
  /-- DAP_WRITE: R457, R458 -/
  | dapWrite (space : Nat) (addr data : W32)
  /-- JTAG_RESET: R499 -/
  | jtagReset
  /-- POWER_ON_RESET: VDD_AON has been in range for 50 µs (R464) -/
  | powerOnReset
  /-- POWER_GOOD_LOSS: R464, R471 -/
  | powerGoodLoss
  /-- PERST: 0 PERST_N low, 1 hot reset, 2 link-down reset (R464) -/
  | perst (kind : Nat)
  /-- WARM: GCTL_RST_CTRL.WARM (R467) -/
  | warm
  /-- WARM_RESET_ENTRIES_DONE: step 5 of R467 -/
  | warmResetEntriesDone
  /-- RING_GO: R469 -/
  | ringGo (ring : Nat)
  /-- RING_RELEASE: R479 -/
  | ringRelease (ring : Nat)
  /-- BOOT_SLOT_CHECK: the flash directory, the image of the slot tried, and what the ROM finds of it (R474–R476) -/
  | bootSlotCheck (dir image : List Byte) (found : BootVerdicts)
  /-- FLASH_READ_TIMEOUT: R473 -/
  | flashReadTimeout
  /-- TIMECMP_REACHED: R117 -/
  | timecmpReached (core : Nat)
  /-- PWRGOOD_RISE: R470 -/
  | pwrgoodRise
  /-- TIO_STABLE: R383 -/
  | tioStable
  /-- PERST_RELEASE: R468 -/
  | perstRelease
  /-- REF10_RESTORED: R388 -/
  | ref10Restored
  /-- REFCLK_RESTORED: R388 -/
  | refclkRestored
  /-- LINE_ERROR: R402 -/
  | lineError (slot : Nat)
  /-- DEACTIVATION_COMPLETE: R407 -/
  | deactivationComplete (slot : Nat)
  /-- SCRUB_COMPLETE: R72 -/
  | scrubComplete (tid : Nat)
  /-- BOOT_CMD_LOAD: GCTL_BOOT_CMD.LOAD (R476) -/
  | bootCmdLoad (found : BootVerdicts)
  deriving DecidableEq, Repr

end Sys2Proof
end

