-- ==== Sys2Proof/Config.lean ====
section
/-!
DEFINITION. What an implementation fixes or the manual leaves open: opaque constants, which no proof can see through.
A function of the operands where the cited standard or the part fixes the value; a function of the counter
`State.fresh` where each use may differ.
-/
namespace Sys2Proof.Config

open Sys2Proof

/-- Credits a source stop holds for each destination stop when nothing is in flight (R22 gives no number). -/
opaque credits : Nat
/-- The header of a flit by its transfer and its number there; R24 gives it parity and no rule its fields. -/
opaque flitHeader : Nat → Nat → BitVec 64

/-- Codes of the control word that the part fixes and R155 and R167 do not list: TAG codes that clear a secret tag, DST codes that
name the save area or a match register. -/
opaque tagClears : Nat → Bool
opaque dstForbidden : Nat → Bool

/-- The microcode ROM of the ring cores and that of the management cores, 4,096 control words each (R153, R173), and the decode map by
opcode and funct (R156). -/
opaque romWord : Nat → BitVec 160
opaque mgmtRomWord : Nat → BitVec 160
opaque decodeMap : Nat → Nat → Nat
/-- The codings of a control word's fields, which R155 leaves to the part: operands; the ALU by code, sources, IMM and memory data: none,
or result and carry; whether it takes the memory data; the code of the result's tag by TAG code and those of the
sources; CNT; MEM: none, or a store, its bytes and where its space begins; ENG: none, or a store; RAND: words asked for; VEC: the inputs
it takes, the v registers it writes, the value of each, the predicate; the CSR that COMMIT_C writes of an instruction that names none. -/
opaque microOperand : Nat → MicroOperand
opaque microAlu : Nat → BitVec 64 → BitVec 64 → BitVec 16 → BitVec 64 → Option (BitVec 64 × Bool)
opaque microAluMem : Nat → Bool
opaque microTag : Nat → List Nat → Nat
opaque microCount : Nat → MicroCount
opaque microMem : Nat → Option (Bool × Nat × BitVec 64)
opaque microEng : Nat → Option Bool
opaque microRand : Nat → Nat
opaque microVecUses : Nat → VecUses
opaque microVecDst : Nat → BitVec 32 → List Nat
opaque microVec : Nat → BitVec 32 → VecIn → Nat → BitVec 1024
opaque microPred : Nat → BitVec 32 → VecIn → BitVec 128
opaque microCsr : BitVec 32 → Nat
/-- An ALU code that raises an exception, and one that takes the result as the next instruction's address: R155 names no field for either. -/
opaque microRaises : Nat → Option (BitVec 8)
opaque microJumps : Nat → Bool
/-- Codings of the save area that R162 leaves open: the trap cause; word 29, by a pending fault and the checks outstanding, in all and with a
fault found; word 30, by a wait for randomness and the words in the buffer. -/
opaque saveCause : BitVec 4
opaque saveChecks : Bool → Nat → Nat → BitVec 64
opaque saveRand : Bool → Nat → BitVec 64

/-- JTAG port (R456–R458): the vendor's JEP106 identity, what a register number of the core space names, and whether a value written to a
core's debug control halts the core (otherwise it resumes it). -/
opaque vendorId : BitVec 11
opaque dapReg : Nat → DapReg
opaque dapHalts : BitVec 32 → Bool

/-- Contents of the management cores' boot ROM, 64 KiB (R122). -/
opaque bootRom : Nat → Byte

/-- A fresh value of w bits: a share, a random draw, an open value. -/
opaque freeBits : (w : Nat) → Nat → BitVec w

/-- Word n of a mask-randomness instance since a seed: ring, instance, seed (R187); what a triple instruction makes of the words it takes
for two of its fresh shares (R183, R184); the kind of shares that no triple instruction wrote, by the counter (assumption 9). -/
opaque mrgWord : Nat → Nat → BitVec 256 → Nat → BitVec 1024
opaque shareBits : List (BitVec 1024) → Nat → BitVec 1024
opaque shareKind : Nat → Nat

/-- What is found of an image, or of VDD_OTP, when a plain register write starts a check whose findings no row carries
(assumption 3); by the counter. -/
opaque verdict : Nat → Bool

/-! ### Functions that a cited standard fixes, byte k of the result -/

/-- SHA3-256 (FIPS 202). -/
opaque sha3 : List Byte → Nat → Byte

/-- A hash function by engine and ALG (R225): byte k of the digest, or of SHAKE output (FIPS 180-4, FIPS 202). -/
opaque hashOut : Nat → Nat → List Byte → Nat → Byte

/-- The P-256 scalar that 32 bytes of the DRBG give, and the x-coordinate of the ECDH with a card key that is no point of the curve: R403
leaves both open (assumption 25). -/
opaque ephemeralScalar : List Byte → Nat
opaque ecdhOffCurve : List Byte → List Byte → Nat

/-- CTR_DRBG (SP 800-90A, R420–R423): Key ‖ V after an instantiation from entropy input, nonce and personalisation
string; after a reseed; after a generate request of a length. -/
opaque drbgInstantiate : BitVec 2048 → BitVec 1024 → List Byte → BitVec 384
opaque drbgReseed : BitVec 384 → BitVec 2048 → BitVec 384
opaque drbgNext : BitVec 384 → Nat → BitVec 384
/-- Output byte of a generate request of a length. -/
opaque drbgOut : BitVec 384 → Nat → Nat → Byte

/-- The input of the PRF in the counter mode of SP 800-108, whose field widths and encodings R302 and R454 leave open: counter, label,
context, bits. -/
opaque kdfInput : Nat → List Byte → List Byte → Nat → List Byte

/-- ML-DSA-87 KeyGen_internal of ξ (FIPS 204): private and public key. -/
opaque attestPrivate : List Byte → Nat → Byte
opaque attestPublic : List Byte → Nat → Byte
/-- The co-signing private key by device secret and serial (R292). -/
opaque cosignPrivate : BitVec 256 → BitVec 128 → Nat → Byte


/-- Block ciphers (R260): encipher or decipher one block on engine 0 (AES) or 1 (TDES) under a key; single DES; CMAC; DUKPT working
keys by MODE, base key, KSN and usage (R263). -/
opaque cipher : Bool → Nat → List Byte → List Byte → Nat → Byte
opaque des : Bool → List Byte → List Byte → Nat → Byte
opaque cmac : Nat → List Byte → List Byte → Nat → Byte
opaque dukpt : Nat → List Byte → List Byte → Nat → Nat → Byte
/-- A key wrapped by MODE under a key: wrapped key, its algorithm, header, and what the standard draws (R263). -/
opaque wrapKey : Nat → List Byte → List Byte → Nat → List Byte → Nat → Nat → Byte
/-- The USAGE that a key register takes from a header that names several, or one that R278 does not list. -/
opaque blockUsage : List Byte → Nat
/-- A key block by MODE: whether under a key it authenticates and its key-length field is valid; the length of its key, and the key
(R280). -/
opaque blockKeyLen : Nat → List Byte → List Byte → Nat
opaque blockOk : Nat → List Byte → List Byte → Bool
opaque blockKey : Nat → List Byte → List Byte → Nat → Byte
/-- MAC algorithm 3 under a three-key TDES key, which R275 does not lay down. -/
opaque macOpen : List Byte → List Byte → Nat → Byte
/-- How a range is drawn from 16 bytes of DRBG output (R269, R270). -/
opaque pinDraw : Nat → List Byte → Nat → Nat
/-- PIN commands on a PAN or PIN record that R270 and R271 do not describe. -/
opaque pinOpen : Nat → List Byte → List Byte → List Byte → Nat → Byte


/-! ### What the acts compute by their standards (chapters 8–12) -/

/-- ML-KEM by set (FIPS 203): ciphertext ‖ shared secret from an encapsulation key and m; shared secret, implicit rejection included, from a
decapsulation key in either form and a ciphertext. -/
opaque mlkemEncaps : Nat → List Byte → List Byte → Nat → Byte
opaque mlkemDecaps : Nat → List Byte → List Byte → Nat → Byte
/-- ML-DSA by set (FIPS 204), from a private key in either form, M′ and rnd: whether the attempt of a global index passes its checks, and its
signature; verification by public key, M′ and signature. -/
opaque mldsaAccepts : Nat → List Byte → List Byte → List Byte → Nat → Bool
opaque mldsaAttempt : Nat → List Byte → List Byte → List Byte → Nat → Nat → Byte
opaque mldsaVerify : Nat → List Byte → List Byte → List Byte → Bool
/-- SLH-DSA by set (FIPS 205): the signature under a private key, M′ and opt_rand; verification. -/
opaque slhSign : Nat → List Byte → List Byte → List Byte → Nat → Byte
opaque slhVerify : Nat → List Byte → List Byte → List Byte → Bool
/-- Verification of HSS (RFC 8554), and of XMSS and XMSS^MT (RFC 8391): public key, signature, message. -/
opaque hssVerify : List Byte → List Byte → List Byte → Bool
opaque xmssVerify : Nat → List Byte → List Byte → List Byte → Bool
/-- Coefficient n of SampleNTT(ρ ‖ a ‖ b) (FIPS 203) and of RejNTTPoly (FIPS 204). -/
opaque sampleNtt : List Byte → Nat → Nat → Nat → Nat
opaque rejNtt : List Byte → Nat → Nat → Nat → Nat
/-- Key generation of the standards of R299 by family, set, form and random input: byte k of the private data; the public data of private
data, where the private data do not hold it. -/
opaque keyMake : Nat → Nat → Nat → Nat → Nat → Byte
opaque keyPublic : Nat → Nat → List Byte → Nat → Byte
/-- The strong Lucas test of a number (R243). -/
opaque strongLucas : Nat → Bool
/-- What R278 leaves open in the header of an exported block: by word, a choice by number. -/
opaque exportUsage : BitVec 64 → Nat → Nat
/-- A probable prime of so many bits from the act's randomness (FIPS 186-5), first and second (R299). -/
opaque rsaPrime : Nat → Nat → Nat → Nat

end Sys2Proof.Config
end

