-- ==== Sys2Proof/Machine/State.lean ====
section
/-!
DEFINITION. The state of the block as plain data, with the reset value of every field, and the reasons a step can
stop. Each structure's docstring names the rules that give its fields; a value the manual gives no reset for is
named in the assumption log.
-/
namespace Sys2Proof.Machine

open Sys2Proof

/-! ## Device, bus, PCIe (R1–R14, R38–R41, R60, R484) -/

/-- The two parts (R1, R3). -/
inductive Part where
  | kx512 | kx128
  deriving DecidableEq, Repr

/-- What is fixed at manufacture (R4). Reset: per part; the model's part is a KX512-I B1 (assumption 1, DESIGN CHOICE). -/
structure Device where
  part : Part := .kx512
  /-- GCTL_DEVICE_ID.GRADE -/
  grade : BitVec 4 := 1
  stepLetter : BitVec 4 := 2
  stepDigit : BitVec 4 := 1
  /-- TIO factory code of OTP (R393) -/
  tioCode : BitVec 20 := 0
  deriving DecidableEq, Repr

/-- A request the device originates on PCIe, in issue order (R38, R54, R55). -/
inductive HostReq where
  /-- a read: PASID if made for a tenant, address, bytes -/
  | read (pasid : Option (BitVec 20)) (addr : W64) (len : Nat)
  /-- a posted write of these bytes -/
  | write (pasid : Option (BitVec 20)) (addr : W64) (data : List Byte)
  /-- an MSI-X message of this vector -/
  | msix (vector : Nat)
  deriving DecidableEq, Repr

/-- One MSI-X table entry (R484): reset Mask 1, the rest 0. -/
structure MsixEntry where
  addr : W64 := 0
  data : W32 := 0
  /-- vector control word; bit 0 is Mask -/
  ctrl : W32 := 1
  deriving DecidableEq, Repr

/-- The PCIe block. -/
structure Pcie where
  /-- D3hot (R41) -/
  d3hot : Bool := false
  /-- Completion Timeout Value of Device Control 2 (R60); reset 0b0000 -/
  timeoutValue : BitVec 4 := 0
  /-- Max_Payload_Size and Max_Read_Request_Size of Device Control: 128 × 2^code bytes (R38); reset: PRESUMED, the PCI Express base
  specification's 0 and 2 (assumption 101) -/
  maxPayload : BitVec 3 := 0
  maxRead : BitVec 3 := 2
  /-- ASPM Control of Link Control: bit 1 is L1 (R38); ECRC Generation Enable and Check Enable of AER (R38); reset PRESUMED 0 -/
  aspm : BitVec 2 := 0
  ecrcGen : Bool := false
  ecrcCheck : Bool := false
  /-- AER reports a Completion Timeout (R60), and an Unsupported Request, as an access in D3hot makes one (R41) -/
  aerTimeout : Bool := false
  aerUnsupported : Bool := false
  /-- requests issued, in order; the model's own record of what left the device -/
  issued : List HostReq := []
  /-- requests waiting for D0 (R41) -/
  held : List HostReq := []
  /-- final entries among them: instance, ticket, and whether an abort ended it (R47, R72) -/
  heldEntries : List (Nat × Nat × Bool) := []
  msix : Table MsixEntry := []
  /-- pending-bit array, 514 bits (R484) -/
  msixPending : BitVec 514 := 0
  /-- PERST_N, hot reset or link-down reset holds the block in reset (R465, R468) -/
  inReset : Bool := false
  /-- what the last bus read returned to its reader (model's own; assumption 3) -/
  readData : W64 := 0
  deriving DecidableEq, Repr

/-- Time and the bookkeeping of one hub cycle (assumption 2). -/
structure Time where
  /-- time since power-on in sixths of a nanosecond; one hub cycle is 4 of them on the PLL, 15 on TIO -/
  ticks : Nat := 0
  /-- hub cycles since power-on -/
  cycle : Nat := 0
  /-- sixths of a nanosecond since the last TIO edge, below 15 -/
  tioPhase : Nat := 0
  /-- cycles that each ring's clock has begun (R15, R117) -/
  ringCyc : Table Nat := []
  /-- W1C bits that events set in the present hub cycle, by register number (R13) -/
  setNow : Table W64 := []
  /-- every RC counter of the register map, by `4 × register number + field` (R9, R13) -/
  rc : Table RcCount := []
  deriving DecidableEq, Repr

/-! ## Carousel, crossbar, stored words (R15–R32) -/

/-- The second leg of a relayed transfer, from the hub stop (R20). -/
structure Leg where
  dst : Nat
  dir : Nat
  /-- flits that have reached the hub stop and wait there for credit, and those injected and not yet accepted -/
  held : Nat := 0
  flying : Nat := 0
  deriving DecidableEq, Repr

/-- A transfer in progress: on the Carousel (R20, R22, R23), or inside one ring on its crossbar (R18). -/
structure Xfer where
  id : Nat
  src : Nat
  /-- the destination stop, of a relayed transfer the hub stop, where its second leg begins -/
  dst : Nat
  /-- 0 clockwise, 1 counter-clockwise, 2 on the ring's crossbar -/
  dir : Nat
  /-- flits still held at the source for credit -/
  held : Nat
  /-- flits injected and not yet accepted by the destination -/
  flying : Nat := 0
  relay : Option Leg := none
  /-- the ticket whose operation owns it -/
  owner : Option Nat := none
  /-- the bytes that its flits carry, as its sender has them at hand -/
  data : List Byte := []
  deriving DecidableEq, Repr

/-- The flit that a sender replays from its retry buffer, which holds up to 32 flits until they are acknowledged, and its failed attempts
on one hop or port (R25). -/
structure Retry where
  xfer : Nat
  flit : W64
  fails : Nat
  /-- the sender's flits of the transfer from that one on, up to 32, each with the parity that the sender generated (R24, R25) -/
  buffer : List Flit := []
  deriving DecidableEq, Repr

/-- A read that found a parity error and is being re-read (R27). -/
structure Reread where
  mem : MemName
  line : W64
  held : LineHeld
  /-- re-reads that failed so far, 0–1 -/
  fails : Nat := 0
  /-- the core whose routine waits in a resumable micro-trap (R160–R163) -/
  core : Option Nat := none
  /-- bytes and tag of a write below 32 bits that waits for the read of its word (R30, R180) -/
  narrow : Option (List Byte × Tag) := none
  /-- hub cycle of the read; a write of the word in that cycle comes first (R31) -/
  cycle : Nat := 0
  deriving DecidableEq, Repr

/-- A write of a crossbar port to one line of ring memory in the present hub cycle (R18): the line among those of all rings, and the
bytes of it. -/
structure BankWrite where
  line : Nat
  port : Nat
  off : Nat
  len : Nat
  tag : Tag
  deriving DecidableEq, Repr

structure Fabric where
  xfers : List Xfer := []
  nextXfer : Nat := 0
  /-- transfers reported done by a DMA agent (R23) -/
  done : List Nat := []
  /-- credits in use, by 32 × source stop + destination stop (R22); the number in all is `Config.credits` -/
  creditsUsed : Table Nat := []
  /-- by UNIT code of the hop-direction or port -/
  retry : Table Retry := []
  rereads : List Reread := []
  /-- spare lines used, by memory pool (R28); reset 0 -/
  sparesUsed : Table Nat := []
  /-- retired lines, as (pool, line address) (R27, R28) -/
  retiredLines : List (Nat × W64) := []
  /-- act-store lines of a ring that firmware must rewrite before the next fetch (R29) -/
  rewrite : List (Nat × W64) := []
  /-- retired hop-directions, bit 2s + d (R25) -/
  hopRet : BitVec 34 := 0
  /-- the round-robin pointer of each bank, by 16 × ring + bank: the port whose turn is first; at reset port 0 (R16, R18, assumption 110) -/
  bankTurn : Table Nat := []
  /-- the writes to ring memory of the present hub cycle (R18) -/
  bankNow : List BankWrite := []
  /-- what the present hub cycle has written in the regions of central memory that the model holds by their owners' data (R31) -/
  wroteHeld : List LineHeld := []
  deriving DecidableEq, Repr

/-! ## Tickets and tenants' entries (R43–R72) -/

/-- IT_STATUS.STATE (R44). -/
inductive InstState where
  | free | active | stopped | resetting
  deriving DecidableEq, Repr

/-- A ticket read request in flight (R51). -/
structure TicketRead where
  /-- first submission slot read -/
  slot : Nat
  count : Nat
  /-- how many of the buffer entries reserved for it lie in the shared pool (R78) -/
  pool : Nat
  /-- `Time.ticks` at its issue, for its timeout (R60); it waits for D0 and is not issued yet (R41) -/
  since : Nat := 0
  unsent : Bool := false
  /-- an earlier read failed: its reservations are released and its data will be discarded (R51) -/
  void : Bool := false
  /-- an abort arrived while it was in flight (R71) -/
  abort : Bool := false
  deriving DecidableEq, Repr

/-- One tenant's registers and what the Usher keeps for it. Reset values: R44, R46, R95. -/
structure Inst where
  st : InstState := .free
  err : Byte := 0
  pasidValid : Bool := false
  pasid : BitVec 20 := 0
  sqLog2 : BitVec 4 := 4
  cqLog2 : BitVec 4 := 4
  /-- queue bases, bits 11–0 zero -/
  sqBase : W64 := 0
  cqBase : W64 := 0
  /-- IT_SHARE and IT_CEILING as last written, and as in effect (R79) -/
  weight : Half := 1
  minCores : BitVec 9 := 0
  ceiling : BitVec 13 := 0x1000
  weightEff : Half := 1
  minCoresEff : BitVec 9 := 0
  ceilingEff : BitVec 13 := 0x1000
  /-- an IT_SHARE or IT_CEILING value waits for a boundary (R79, SHARE_PENDING of R95) -/
  sharePend : Bool := false
  irqEn : Bool := false
  irqVector : BitVec 10 := 0
  sqHead : Nat := 0
  sqTail : Nat := 0
  cqHead : Nat := 0
  cqTail : Nat := 0
  /-- completion slots written and not yet released (R57) -/
  unreleased : Nat := 0
  /-- completion slots reserved for final entries (R51, R52) -/
  reserved : Nat := 0
  /-- ticket reads in flight, oldest first -/
  reads : List TicketRead := []
  /-- RESETTING for a removal, not for a reset (R68) -/
  removing : Bool := false
  drained : Bool := false
  deriving DecidableEq, Repr

/-- The tenant page: mailbox, abort and inline registers (R46, R52, R61, R70). -/
structure Page where
  /-- tenant to manager words, and manager to tenant words -/
  mbOut : Table W32 := []
  mbIn : Table W32 := []
  outFull : Bool := false
  inFull : Bool := false
  dropped : Bool := false
  /-- hub cycle of the last acknowledgement in each direction (R63) -/
  outAck : Option Nat := none
  inAck : Option Nat := none
  abortTag : W64 := 0
  /-- the tag of the abort in progress (R70, R71) -/
  abortFor : W64 := 0
  abortBusy : Bool := false
  abortOverrun : Bool := false
  abortResult : Byte := 0
  /-- at least one ticket of the present abort was aborted -/
  abortAny : Bool := false
  inlineStatus : Byte := 0
  /-- inline window, page offsets 0x100–0x1FF -/
  window : Table Byte := []
  /-- an inline copy is in progress (R52) -/
  copying : Bool := false
  /-- writes held in the PCIe receive path: page offset and bytes -/
  heldWrites : List (Nat × List Byte) := []
  deriving DecidableEq, Repr

/-- Where a ticket came from. -/
inductive Origin where
  | queue
  | inline
  /-- WAKE of schedule entry k (R368) -/
  | wake (k : Nat)
  /-- a Dolid REQUEST of session and TXID (R344) -/
  | dolid (sid : W64) (txid : W64)
  /-- a Dolid handshake, by its pending number (R336) -/
  | handshake (n : Nat)
  /-- a device ticket of the audit chain, by its kind (R374) -/
  | seal (kind : Nat)
  deriving DecidableEq, Repr

/-- Where a ticket stands. -/
inductive Phase where
  /-- its inline copy is in progress (R52) -/
  | copying
  /-- in the buffer, the checks of R49 still to come -/
  | entering
  /-- admitted, not yet dispatched -/
  | queued
  | running (core : Nat)
  /-- stopped before its commit point; it completes with this status when its scrub ends (R66, R72, R441) -/
  | stopping (core : Nat) (status : Byte)
  deriving DecidableEq, Repr

/-- What a dispatch changed, so that a retirement of its core in the same hub cycle withdraws it (R92): the cycle, vt_i before, the
backlog and the pool entry it gave up. -/
structure Sent where
  cycle : Nat
  vt : Rat
  backlog : Rat
  pool : Bool
  deriving DecidableEq, Repr

/-- The commit signal that a core had given when a reset or an abort stopped its ticket: status, output length, hub cycle. In that cycle
the commit is ordered first (R66, R71, R72). -/
structure Signalled where
  status : Byte
  len : W32
  cycle : Nat
  deriving DecidableEq, Repr

structure Ticket where
  /-- order of entry into the buffer -/
  id : Nat
  iid : Nat
  origin : Origin
  /-- the 64 bytes, byte 0 lowest (R47) -/
  bytes : BitVec 512
  /-- inline or message input carried with it -/
  input : List Byte := []
  phase : Phase := .entering
  /-- its buffer entry is one of the shared pool (R78) -/
  pool : Bool := false
  /-- its cost figure when admitted, ns -/
  cost : Rat := 0
  /-- gravest class of the events that touched it (R429), 0 for none -/
  fault : Nat := 0
  /-- an interim entry was written in this share epoch (R56) -/
  deferred : Bool := false
  /-- time of dispatch, for the measured core time (R73) -/
  started : Nat := 0
  /-- the abort in progress applies to it -/
  aborting : Bool := false
  /-- working set granted, for the ring that runs it -/
  wsBase : Nat := 0
  wsSize : Nat := 0
  /-- the cached copies it was dispatched against: (ring, handle, ring memory address) -/
  uses : List (Nat × W32 × Nat) := []
  /-- act version it was admitted under (R125) -/
  version : W64 := 0
  /-- what its dispatch changed -/
  sent : Option Sent := none
  /-- it was dispatched so that its ring gains a further copy of a big form (R90) -/
  further : Bool := false
  /-- its commit signal, given when it was stopped -/
  signalled : Option Signalled := none
  /-- a terminating request held until the restore of a resumable micro-trap (R164) -/
  heldStop : Option Byte := none
  deriving DecidableEq, Repr

/-! ## Usher (R73–R95) -/

inductive CopyState where
  | filling | valid | draining
  deriving DecidableEq, Repr

/-- A cached copy of a form in a ring's memory (R86, R87). -/
structure Copy where
  ring : Nat
  handle : W32
  kind : Nat
  st : CopyState
  /-- ring memory address and size in bytes -/
  addr : Nat
  size : Nat
  secret : Bool
  uses : Nat := 0
  /-- order of the last dispatch against it -/
  last : Nat := 0
  /-- `Time.ticks` at which a copy under way would be VALID (R19, R90) -/
  ready : Nat := 0
  /-- the Carousel transfer that fills it (R23) -/
  xfer : Option Nat := none
  deriving DecidableEq, Repr

/-- What the Usher keeps per tenant beyond its entry. -/
structure Share where
  /-- W_i, in ns of core time (R73) -/
  backlog : Rat := 0
  /-- vt_i (R84) -/
  vt : Rat := 0
  /-- dispatches since ACTIVATE (R83) -/
  dispatched : Nat := 0
  passedOver : Bool := false
  /-- e_i in cores, and m_i (R74) -/
  ent : Rat := 0
  minEff : Nat := 0
  deriving DecidableEq, Repr

structure Usher where
  age : BitVec 4 := 4
  /-- NT at which a written EPOCH_NOW marks its boundary (R79) -/
  epochAt : Option W64 := none
  epochCount : Half := 0
  minOvercommit : Bool := false
  horizon : Half := 0x7D0
  horizonEff : Half := 0x7D0
  deferTh : BitVec 24 := 0x3E8
  cache : BitVec 6 := 0x20
  cacheEff : BitVec 6 := 0x20
  spreadUs : Half := 0xC8
  initRings : BitVec 4 := 2
  share : Table Share := []
  copies : List Copy := []
  /-- NT of the last further copy of a big form: (handle, kind, NT) (R90) -/
  spread : List (W32 × Nat × Nat) := []
  dispatches : Nat := 0
  /-- (ticket, handle) for each dispatched ticket that held a key or form of a key changed since (R89) -/
  changed : List (Nat × W32) := []
  /-- dispatch stopped for a patch (R172) -/
  paused : Bool := false
  /-- retired cores and rings (R95) -/
  coreRet : BitVec 256 := 0
  ringRet : BitVec 16 := 0
  deriving DecidableEq, Repr

/-! ## Cores (R96–R201) -/

/-- A grant of ring memory (R100): a KEYGET copy, a FORMGET copy, or a staging area (R296). -/
structure Grant where
  base : Nat
  size : Nat
  /-- true for a KEYGET grant, false for a FORMGET grant -/
  key : Bool
  handle : W32
  /-- the request code asked of KEYGET -/
  usage : Byte
  /-- attribute word of the key at the grant -/
  attr : W64
  /-- data length in bytes -/
  len : Nat
  /-- 0 working key, 1 DUKPT base, 2 export-only (R291) -/
  kind : Nat := 0
  secret : Bool
  /-- writable staging area -/
  staging : Bool := false
  /-- the copy is a cached one of this form kind, not the ticket's own -/
  cached : Option Nat := none
  deriving DecidableEq, Repr

/-- What a core does. -/
inductive Run where
  | idle
  | running
  /-- WAIT (R111) -/
  | waiting
  /-- KEYGET stalled for register d (R112) -/
  | keyget (d : Nat) (handle : W32) (usage : Byte)
  /-- KEYGET granted, the copy under way to ring memory with these bytes and line tags (R112) -/
  | deliver (d : Nat) (g : Grant) (data : List Byte) (tags : List Tag)
  /-- the act has ended with this status and output length; its commit signal is accepted once its transfers and commands
  have finished (R55, R113) -/
  | exiting (status : Byte) (len : W32)
  /-- in the scrub routine (R160) -/
  | scrubbing
  /-- management pair held in reset, or a ring core held in reset -/
  | inReset
  deriving DecidableEq, Repr

/-- A transfer of a core's DMA channel (R116). -/
structure DmaXfer where
  srcSpace : Nat
  dstSpace : Nat
  src : W64
  dst : W64
  len : Nat
  /-- host data that arrived for it (HOST_READ_COMPLETION) -/
  data : Option (List Byte) := none
  /-- its crossbar or Carousel transfers (R18, R23), and `Time.ticks` at the issue of its host read (R60), which may wait for D0 (R41) -/
  xfers : List Nat := []
  since : Nat := 0
  unsent : Bool := false
  deriving DecidableEq, Repr

structure Dma where
  src : W64 := 0
  dst : W64 := 0
  len : W64 := 0
  done : Nat := 0
  queue : List DmaXfer := []
  deriving DecidableEq, Repr

/-- Exception registers (R117, R120). -/
structure Trap where
  vec : W64 := 0
  cause : W64 := 0
  pc : W64 := 0
  val : W64 := 0
  scratch : W64 := 0
  scratchTag : Tag := .pub
  active : Bool := false
  deriving DecidableEq, Repr

/-- The outcome of the element checks of one vector memory access (R146). -/
structure VecCheck where
  addr : W64
  /-- cause of the lowest faulting element, its address and the faulting lanes; none when no element faults -/
  fault : Option (Byte × W64 × W32)
  deriving DecidableEq, Repr

/-- Vector unit (R130–R134, R151). -/
structure VecUnit where
  v : Table (BitVec 1024) := []
  vtag : Table Tag := []
  /-- p1–p7 -/
  p : Table (BitVec 128) := []
  /-- secret predicates -/
  ptag : Table Bool := []
  pending : Bool := false
  multi : Bool := false
  cause : Byte := 0
  mask : W32 := 0
  faddr : W64 := 0
  fval : W64 := 0
  checks : List VecCheck := []
  /-- how each triple shares its value, where a triple instruction or VMOV left it: 0 Boolean, 1 modulo 2^w, 2 modulo q; 3 where another
  instruction wrote a member, and nothing says which (the model's own, assumption 9) -/
  kind : Table Nat := []
  deriving DecidableEq, Repr

/-- Declassification and tag CSRs (R182, R191). -/
structure Dcl where
  tagAddr : W64 := 0
  src : W64 := 0
  dst : W64 := 0
  len : W64 := 0
  released : W32 := 0
  attempt : BitVec 4 := 0
  result : Byte := 0
  /-- uses counted in this ticket, by point -/
  used : Table Nat := []
  /-- a release in progress: the DCL_GO value -/
  going : Option W64 := none
  deriving DecidableEq, Repr

/-- Micro-state and save area (R158, R162). -/
structure Micro where
  /-- micro-temporaries t0–t15 with their tag bits, memory address and data registers, micro-PC, micro-stack, counter and flags Z, C, S
  (bits 2–0): as the last patched routine left them, or as the one that waits holds them (R158) -/
  temps : Table W64 := []
  tempTags : Table Bool := []
  mar : W64 := 0
  mdr : W64 := 0
  mdrTag : Tag := .pub
  pc : BitVec 13 := 0
  stack : List (BitVec 13) := []
  counter : W64 := 0
  flags : BitVec 3 := 0
  /-- consecutive HOLD boundaries (R161) -/
  hold : Nat := 0
  /-- a patched routine waits at a WAITC word, the instruction's next (R156): its instruction word -/
  waiting : Option W32 := none
  /-- the 32 saved words of the last resumable micro-trap; zero after a final entry and a terminating micro-trap -/
  save : Table W64 := []
  /-- a resumable trap routine runs -/
  trapped : Bool := false
  /-- the core stopped at a micro-fault, in the word at `pc`; its F3 record retires it (R168) -/
  faulted : Bool := false
  deriving DecidableEq, Repr

/-- Scalar state of a core, and of the management pair. -/
structure Core where
  g : Table W64 := []
  gtag : Table Tag := []
  pc : W64 := 0
  instret : Nat := 0
  /-- `Time.ticks` at act entry: CYCLE counts core cycles (3 sixths of a ns) from it (R117) -/
  entry : Nat := 0
  /-- cycles that CTCYCLE leaves out (R199), and the time since which such a stall lasts -/
  stalled : Nat := 0
  stallFrom : Option Nat := none
  trap : Trap := {}
  evMask : BitVec 10 := 0
  evPend : BitVec 10 := 0
  timecmp : W64 := 0xFFFFFFFFFFFFFFFF
  run : Run := .idle
  ticket : Option Nat := none
  wsBase : Nat := 0
  wsSize : Nat := 0
  compat : Bool := false
  /-- own image in the act store: address and size -/
  imgBase : Nat := 0
  imgSize : Nat := 0
  grants : List Grant := []
  /-- FORMPUT offer: address and bytes -/
  offer : Option (Nat × Nat) := none
  deriving DecidableEq, Repr

/-- The rest of a core: vector unit, DMA channel, randomness buffer, debug halt. -/
structure CoreX where
  vec : VecUnit := {}
  dcl : Dcl := {}
  dma : Dma := {}
  micro : Micro := {}
  /-- the randomness words in the buffer, at most 16, oldest first, and MRG_STALLS (R187, R189) -/
  rndBuf : List (BitVec 1024) := []
  rndStalls : Nat := 0
  /-- the Carousel transfer of a key that KEYGET delivers (R23, R112) -/
  keyXfer : Option Nat := none
  /-- the act's output still to leave, with its offset: it waits for the bucket of R353 or for D0 (R41) -/
  outPend : Option (Nat × List Byte) := none
  /-- a triple instruction waits for randomness since this time; whether its 100 µs notice was given (R186, R188) -/
  rndWait : Option (Nat × Bool) := none
  /-- what other cores, engines and DMA still see where stores of the core await a FENCE (R109): the old byte of a cell
  (`Place.cell`), the old tag of a line -/
  oldBytes : Table (Option Byte) := []
  oldTags : Table (Option Tag) := []
  /-- halted through the debug port; a ticket that runs goes on to its final entry first (R458) -/
  halted : Bool := false
  deriving DecidableEq, Repr

/-- The management pair's interrupt registers (R122). -/
structure Mgmt where
  intVec : W64 := 0
  intPend : W64 := 0
  intMask : W64 := 0
  intPc : W64 := 0
  intActive : Bool := false
  /-- both held in reset: until boot releases them (R472), and by an F4 event of their own (R122, R435), Lockdown or a
  debug HOLD -/
  held : Bool := true
  deriving DecidableEq, Repr

/-- One stream of a mask-randomness generator (R187, R188). -/
structure MrgStream where
  seeded : Bool := false
  /-- the 256 bits of the last seed; ring and instance number are the stream's own place (R187) -/
  seed : BitVec 256 := 0
  producing : Bool := false
  /-- words produced since the last seed -/
  words : Nat := 0
  requested : Bool := false
  deriving DecidableEq, Repr

/-- Addressed memories (R16, R17, R102). Byte and line-tag tables; an unlisted byte reads 0 and an unlisted
line is PUBLIC (R102 for act memory; DESIGN CHOICE elsewhere, assumption 5). -/
structure Memory where
  /-- core local memory, at 2^18 × core + address -/
  coreMem : Table Byte := []
  coreTag : Table Tag := []
  /-- ring memory, at 2^22 × ring + offset; the act store lies at offsets 0x380000–0x3FFFFF -/
  ringMem : Table Byte := []
  ringTag : Table Tag := []
  /-- central working space as the management cores address it (R122) -/
  workMem : Table Byte := []
  /-- tags of lines of central memory that take them with their data (R175): the working space -/
  workTag : Table Tag := []
  /-- the parity bit stored with each 32-bit word, by word number (R24) -/
  coreParity : Table Bool := []
  ringParity : Table Bool := []
  workParity : Table Bool := []
  /-- words written in the present hub cycle (R31): 3 × word number + 0, 1 or 2 for core, ring and working memory -/
  wrote : Table Bool := []
  /-- firmware and patch load window, 16 MiB (R42) -/
  loadWin : Table Byte := []
  deriving DecidableEq, Repr

/-! ## Acts and patches (R123–R128, R165, R171) -/

/-- A loaded act (R123). -/
structure Act where
  /-- act number; `iid` is the tenant of a tenant act, none for a device act -/
  number : Half
  iid : Option Nat
  hdrVersion : Half
  /-- place in the act store copy, bytes of code and read-only data -/
  offset : Nat
  codeSize : Nat
  roSize : Nat
  wsSize : Nat
  entryOff : Nat
  costNs : Nat
  expandNs : Nat
  form : Byte
  group : Byte
  signer : Byte
  version : W64
  /-- its code and read-only data, as the retained area holds them (R478) -/
  code : List Byte
  /-- open to admission (UNLOAD and a replacing load close it) -/
  enabled : Bool := true
  /-- c(a) in ns, at first the header's figure (R73) -/
  cost : Rat := costNs
  deriving DecidableEq, Repr

structure Acts where
  acts : List Act := []
  /-- highest VERSION accepted, plus 1, by act key (R125) -/
  floor : Table Nat := []
  loadAct : Half := 0
  busy : Bool := false
  /-- the load or unload that firmware is working on: none, or UNLOAD's act number -/
  unloading : Option Half := none
  result : Byte := 0
  /-- GCTL_ACT_GRPn (R126); reset 0x0001 -/
  grp : Table Half := []
  /-- GCTL_ACT_GRP of the instances written in the present hub cycle, as before it (R126) -/
  grpWas : List (Nat × Half) := []
  deriving DecidableEq, Repr

structure Patch where
  /-- patch RAM words and MATCH registers in effect, the same in every core (R165) -/
  ram : Table (BitVec 160) := []
  /-- the five parity bits of each patch RAM word (R154) -/
  ramParity : Table (BitVec 5) := []
  matchReg : Table W32 := []
  version : Half := 0
  highest : Half := 0
  result : Byte := 0
  busy : Bool := false
  /-- an accepted image waiting for the cores to go idle (R172): version, words, entries; none under REVERT -/
  waiting : Option (Half × Table (BitVec 160) × Table W32) := none
  reverting : Bool := false
  deriving DecidableEq, Repr

/-! ## Hash engines (R224–R230) -/

inductive HashPhase where
  | idle | absorbing | squeezing
  deriving DecidableEq, Repr

/-- A context: what it has absorbed stands for its hash state, which the cited standards fix by it. -/
structure HashCtx where
  alg : Nat := 0
  phase : HashPhase := .idle
  msg : List Byte := []
  squeezed : Nat := 0
  tag : Tag := .pub
  deriving DecidableEq, Repr

/-- A hash command issued, with the registers it took (R225, R226). -/
structure HashCmd where
  op : Nat
  ctx : Nat
  alg : Nat
  src : Nat
  dst : Nat
  len : Nat
  out : Nat
  pr : Bool := false
  deriving DecidableEq, Repr

/-- The units of an engine that a ring's cores share: whose commands they execute, and the core, 0–15, served last (R229, R238). Reset of
`last`: 15, so that core 0 is first (DESIGN CHOICE, assumption 106). -/
structure Turn where
  busy : List Nat := []
  last : Nat := 15
  deriving DecidableEq, Repr

/-- One core's side of one hash engine; number 2 × core + engine. -/
structure HashEng where
  src : W64 := 0
  dst : W64 := 0
  len : W64 := 0
  aux : W64 := 0
  ctx : Table HashCtx := []
  done : Nat := 0
  notReady : Bool := false
  /-- output of the last RANDOM command, and whether it asked for prediction resistance (R204, R226) -/
  drawn : List Byte := []
  drawnPr : Bool := false
  queue : List HashCmd := []
  deriving DecidableEq, Repr

/-! ## Maelhoavo engines (R231–R240) -/

/-- A Maelhoavo command issued, with the registers it took (R235, R236). -/
structure MeCmd where
  op : Nat
  /-- INSTRET of the core as it issued the command -/
  order : Nat := 0
  src : Nat := 0
  dst : Nat := 0
  len : Nat := 0
  opa : Nat := 0
  opb : Nat := 0
  opm : Nat := 0
  na : Nat := 0
  nb : Nat := 0
  sh : Nat := 0
  sub : Bool := false
  space : Nat := 0
  limb : W64 := 0
  limbTag : Tag := .pub
  nprime : W64 := 0
  nprimeTag : Tag := .pub
  /-- host data that arrived for a LOAD -/
  data : Option (List Byte) := none
  /-- its crossbar or Carousel transfers (R23), and the time its host read was issued (R60), which may wait for D0 (R41) -/
  xfers : List Nat := []
  since : Nat := 0
  unsent : Bool := false
  deriving DecidableEq, Repr

/-- One core's side of one window; number 4 × core + k. -/
structure MeWin where
  src : W64 := 0
  dst : W64 := 0
  len : W64 := 0
  ops : W64 := 0
  limb : W64 := 0
  limbTag : Tag := .pub
  nprime : W64 := 0
  nprimeTag : Tag := .pub
  done : Nat := 0
  queue : List MeCmd := []
  held : Bool := false
  /-- a claim is queued: pages and limbs asked for -/
  pending : Option (Nat × Nat) := none
  /-- `Time.ticks` at the write of the claim (R232) -/
  asked : Nat := 0
  /-- a written release waits for the outstanding commands -/
  releasing : Bool := false
  pages : Nat := 0
  limbs : Nat := 0
  acc : Nat := 0
  accTag : Tag := .pub
  ovf : Bool := false
  scratch : Table Byte := []
  scratchTag : Table Tag := []
  deriving DecidableEq, Repr

/-- One engine; number 16 × ring + k. -/
structure MeEngine where
  /-- the multiplier and the DMA unit; a command is named by 4 × core 0–15 + window -/
  mul : Turn := {}
  dma : Turn := {}
  /-- queued claims as (core, window), oldest first -/
  queue : List (Nat × Nat) := []
  pagesUsed : Nat := 0
  limbsUsed : Nat := 0
  /-- released claims being scrubbed: (core, pages, limbs), and the instance whose work they held (R65) -/
  scrubs : List (Nat × Nat × Nat × Option Nat) := []
  retired : Bool := false
  sparesUsed : Nat := 0
  deriving DecidableEq, Repr

/-! ## Block-cipher engines (R260–R266) -/

/-- A key register (R261). `alg`: 0 TDES-2, 1 TDES-3, 2 AES-128, 3 AES-256, 4 TDES and 5 AES of undisclosed length. -/
structure KeyReg where
  key : List Byte := []
  alg : Nat
  usage : Nat
  /-- 0 working key, 1 DUKPT base, 2 export-only -/
  kind : Nat := 0
  /-- loaded by UNWRAP from a header whose exportability is E or S (R265) -/
  exportable : Bool := false
  deriving DecidableEq, Repr

structure BcCmd where
  op : Nat
  kr : Nat
  ks : Nat
  mode : Nat
  param : Nat
  src : Nat
  dst : Nat
  len : Nat
  aux : Nat
  /-- LDKEY: the register as the grant gives it; DERIVE and UNWRAP: its algorithm, usage and kind -/
  load : Option KeyReg := none
  deriving DecidableEq, Repr

/-- One core's side of one block-cipher engine; number 2 × core + engine. -/
structure BcEng where
  src : W64 := 0
  dst : W64 := 0
  len : W64 := 0
  aux : W64 := 0
  /-- the registers, and the registers as the commands already issued leave them (R264) -/
  kr : Table (Option KeyReg) := []
  view : Table (Option KeyReg) := []
  done : Nat := 0
  notReady : Bool := false
  queue : List BcCmd := []
  deriving DecidableEq, Repr

/-! ## Key store (R282–R313) -/

inductive KeyState where
  | empty | reserved | filling | resident | evicted | destroying
  deriving DecidableEq, Repr

/-- An entry (R282–R289, R293). An unlisted handle is EMPTY. -/
structure KeyEntry where
  st : KeyState := .empty
  attr : W64 := 0
  notBefore : W64 := 0
  notAfter : W64 := 0xFFFFFFFFFFFFFFFF
  data : List Byte := []
  /-- the tags its lines were filled with; PUBLIC beyond the list (R291) -/
  tags : List Tag := []
  /-- lines allocated -/
  lines : Nat := 0
  /-- RESERVED for this ticket, and whether it came from EVICTED -/
  reserver : Option Nat := none
  wasEvicted : Bool := false
  /-- the Carousel transfer that fills it (R23) -/
  xfer : Option Nat := none
  /-- the parity bits of its data's words (R24) -/
  parity : List Bool := wordsParity data
  deriving DecidableEq, Repr

/-- A change that takes effect at a commit with status DONE (R296). -/
inductive KeyChange where
  /-- fill from the staging area at this ring memory offset of the ticket's ring; a RESTORE's data length is the blob's (R509) -/
  | install (staging : Nat) (size : Nat) (known : Option Nat)
  | destroy
  | evict
  | window (nb na : W64)
  | restrict (mask : W64)
  deriving DecidableEq, Repr

structure KeyPend where
  tid : Nat
  handle : W32
  change : KeyChange
  deriving DecidableEq, Repr

/-- Per tenant (R302, R307, R313). -/
structure KsInst where
  domain : BitVec 128 := 0
  quotaEntries : Half := 0x40
  quotaKib : BitVec 14 := 0x18
  lastCause : Byte := 0
  deriving DecidableEq, Repr

/-- The custodian ceremony (R308–R310, R313). -/
structure Ceremony where
  n : BitVec 4 := 2
  rstep : BitVec 4 := 0
  hc : Bool := false
  busy : Bool := false
  /-- OPEN waits for the DRBG output of KS_CER_ID -/
  opening : Bool := false
  isOpen : Bool := false
  step : Nat := 0
  result : Byte := 0
  target : W32 := 0
  attr : W64 := 0
  id : W32 := 0
  resume : W32 := 0
  /-- COMPONENT is refused until RESUME succeeds -/
  resumePending : Bool := false
  /-- accumulator, SECRET -/
  acc : List Byte := []
  /-- handle and attribute word taken at OPEN -/
  slot : W32 := 0
  word : W64 := 0
  /-- the card slot that the present step has taken (R308) -/
  reader : Bool := false
  /-- an OPEN has been accepted since power-on reset (R308, R310) -/
  hadOne : Bool := false
  deriving DecidableEq, Repr

structure KeyStore where
  entries : Table KeyEntry := []
  inst : Table KsInst := []
  pend : List KeyPend := []
  /-- a sweep has been started and its scan is to come (R294) -/
  sweeping : Bool := false
  timeBound : W32 := 0xF4240
  cer : Ceremony := {}
  /-- a request has been decided in this hub cycle (R295) -/
  decided : Bool := false
  deriving DecidableEq, Repr

/-! ## Network ports (R314–R330) -/

/-- An IP address; IPv4 a.b.c.d is written ::ffff:a.b.c.d (R335). -/
abbrev Ip := BitVec 128

/-- A transmit timestamp (R328). -/
structure TxTs where
  nt : W64
  frac : Byte
  stepped : Bool
  unsync : Bool
  ovf : Bool
  seq : Half
  msgType : BitVec 4
  domain : Byte
  /-- hub cycle of its timestamp point (R329) -/
  cycle : Nat
  deriving DecidableEq, Repr

/-- A received PTP message as it reaches firmware (R326). -/
structure PtpRx where
  port : Nat
  msg : List Byte
  nt : W64
  frac : Byte
  stepped : Bool
  unsync : Bool
  /-- hub cycle of its timestamp point (R329) -/
  cycle : Nat
  deriving DecidableEq, Repr

/-- What an outgoing frame's lines are charged to (R349, R350). -/
inductive FramePool where
  | none | refusal | shared
  deriving DecidableEq, Repr

/-- A frame built and not yet sent. -/
structure TxFrame where
  /-- destination MAC address; none while `hop` is to be resolved -/
  mac : Option (BitVec 48) := none
  /-- the address to resolve (R320) -/
  hop : Ip := 0
  ethertype : Half
  /-- bytes after the Ethertype, FCS not included -/
  body : List Byte
  /-- IPv4 and IPv6 destination and UDP port, and those that the Glove binds an instance's frame to (R351) -/
  dst : Option (Ip × Nat) := none
  bound : Option (Ip × Nat) := none
  /-- the instance whose frame it is; none for the device's own -/
  iid : Option Nat := none
  /-- every line it carries is PUBLIC -/
  isPublic : Bool := true
  /-- where its PTP message starts in `body`, if it is one; the receive timestamp of its descriptor (R327) -/
  ptp : Option Nat := none
  rxTime : Nat := 0
  lines : Nat := 0
  pool : FramePool := .none
  /-- its place in order of arrival among the frames of all transmit queues (R353) -/
  order : Nat := 0
  /-- the parity bits of its words in the network buffers (R24) -/
  parity : List Bool := wordsParity body
  deriving DecidableEq, Repr

/-- A neighbour cache entry (R321). Times are `Time.ticks`. -/
structure Neigh where
  addr : Ip
  /-- none while resolving -/
  mac : Option (BitVec 48) := none
  learned : Nat := 0
  refreshed : Bool := false
  used : Nat := 0
  tries : Nat := 0
  held : List TxFrame := []
  deriving DecidableEq, Repr

/-- One port's registers (R330) and what stands behind them. -/
structure Port where
  en : Bool := false
  an : Bool := true
  lt : Bool := true
  kr : Bool := false
  echo : Bool := false
  link : Bool := false
  anDone : Bool := false
  ltDone : Bool := false
  fecLock : Bool := false
  dadFail : Bool := false
  ip4Conflict : Bool := false
  mac : BitVec 48 := 0
  tagged : Bool := false
  pcp : BitVec 3 := 0
  vid : BitVec 12 := 0
  mtu : BitVec 14 := 0x5DC
  dscp : BitVec 6 := 0
  hops : Byte := 0x40
  prefix6 : BitVec 7 := 0x40
  prefix4 : BitVec 6 := 0x18
  ip4 : W32 := 0
  gw4 : W32 := 0
  ip6 : Ip := 0
  gw6 : Ip := 0
  ptpEn : Bool := false
  l2 : Bool := true
  udp4 : Bool := true
  udp6 : Bool := true
  onestep : Bool := false
  rxLat : W32 := 0
  txLat : W32 := 0
  txts : List TxTs := []
  /-- entries were lost since the last one stored (R328) -/
  txtsLost : Bool := false
  /-- the last entry that found the FIFO full -/
  txtsMissed : Option TxTs := none
  neigh : List Neigh := []
  tx : List TxFrame := []
  /-- duplicate address detection runs (R322) -/
  tentative : Bool := false
  /-- last gratuitous ARP in defence, and the echo replies of the present second -/
  defended : Option Nat := none
  echoFrom : Nat := 0
  echoes : Nat := 0
  deriving DecidableEq, Repr

structure Network where
  pair : Byte := 0
  port : Table Port := []
  /-- messages handed to firmware, and frames that left: (port, bytes from the destination address on, without FCS);
  the model's own record -/
  toFirmware : List PtpRx := []
  sent : List (Nat × List Byte) := []
  /-- frames that have entered a transmit queue (R353) -/
  frames : Nat := 0
  deriving DecidableEq, Repr

/-! ## Dolid and the Glove (R331–R355) -/

/-- A message received on the Dolid port and not yet decided. -/
structure DolMsg where
  port : Nat
  src : Ip
  udp : Nat
  bytes : List Byte
  /-- hub cycle of arrival, and the lines it holds: of the port's reserve and of the shared area (R349) -/
  cycle : Nat
  reserved : Nat
  shared : Nat
  /-- the parity bits of its words in the network buffers (R24) -/
  parity : List Bool := wordsParity bytes
  deriving DecidableEq, Repr

structure Peer where
  valid : Bool := false
  iid : BitVec 9 := 0
  id : W64 := 0
  slot : BitVec 23 := 0
  deriving DecidableEq, Repr

/-- Per instance (R353, R355). -/
structure DolInst where
  en : Bool := false
  v4 : Bool := true
  v6 : Bool := true
  maxSess : BitVec 13 := 0x40
  kemValid : Bool := false
  kemSlot : BitVec 23 := 0
  rateNet : Half := 0
  burstNet : Half := 0x40
  ratePcie : Half := 0
  burstPcie : Half := 0x40
  limit : BitVec 12 := 0x100
  /-- rates and bursts in effect since the last refill, and the levels in bytes -/
  rateNetEff : Half := 0
  burstNetEff : Half := 0x40
  ratePcieEff : Half := 0
  burstPcieEff : Half := 0x40
  levelNet : Int := 0
  levelPcie : Int := 0
  /-- cores whose host write waits for the PCIe bucket, in order of arrival -/
  held : List Nat := []
  deriving DecidableEq, Repr

/-- An open session (R338–R340). -/
structure Session where
  sid : W32
  /-- its entry, 0–4,095 -/
  entry : Nat
  iid : Nat
  peer : Nat
  peerId : W64
  cnonce : BitVec 128
  /-- K_c2d ‖ K_d2c; unusable once its line is retired -/
  keys : List Byte
  /-- the tag of the line of its keys, and the parity bits of its words (R24, R175, R349) -/
  keyTag : Tag := .secret
  keyParity : List Bool := wordsParity keys
  keyOk : Bool := true
  th : List Byte
  addr : Ip
  udp : Nat
  /-- port that last received a message of the session (R341) -/
  port : Nat
  /-- plaintext of the ACCEPT sent -/
  accept : List Byte
  /-- H, and bit k: H − k has been seen (R340) -/
  high : Nat := 0
  seen : BitVec 4096 := 0
  /-- next device SEQ -/
  seq : Nat := 1
  /-- `Time.ticks` of the last accepted message -/
  last : Nat := 0
  deriving DecidableEq, Repr

/-- A pending handshake (R336, R337). -/
structure Handshake where
  n : Nat
  iid : Nat
  peer : Nat
  peerId : W64
  cnonce : BitVec 128
  addr : Ip
  udp : Nat
  port : Nat
  init : List Byte
  reserved : Nat
  shared : Nat
  deriving DecidableEq, Repr

/-- A transaction record (R345), with the frame-area lines of its REQUEST and response buffer. -/
structure Txn where
  iid : Nat
  txid : W64
  sid : W32
  peer : Nat
  /-- port that received the REQUEST -/
  port : Nat
  reserved : Nat := 0
  shared : Nat := 0
  buffer : Nat := 0
  /-- bytes of the response buffer as DMA space 3 wrote them, and whether all were PUBLIC -/
  out : Table Byte := []
  /-- sessions and ports that an ABORT_ACK is owed to, behind the RESPONSE (R347) -/
  acks : List (W32 × Nat) := []
  /-- the final RESPONSE held, and its time (`Time.ticks`) -/
  final : Option (List Byte × Nat) := none
  deriving DecidableEq, Repr

structure Dolid where
  en : Bool := false
  udpPort : Half := 0x1CF6
  idleS : Byte := 0x3C
  cookieS : Byte := 0x1E
  holdMs : Half := 0x3E8
  /-- cookie epoch, the present and the previous key (SECRET), and the NT at which the present one was taken into use -/
  epoch : W32 := 0
  key : Option (List Byte) := none
  prevKey : Option (List Byte) := none
  epochFrom : Nat := 0
  /-- a draw is to be requested now, and a draw completed NOT_READY and waits for its 1 ms (R335) -/
  draw : Bool := true
  redraw : Bool := false
  peerErr : Bool := false
  peerIdx : BitVec 13 := 0
  /-- DOL_PEER_ATTR, ID and PSK -/
  peerReg : Peer := {}
  peers : Table Peer := []
  inst : Table DolInst := []
  sessions : List Session := []
  handshakes : List Handshake := []
  nextHandshake : Nat := 0
  txns : List Txn := []
  inbox : List DolMsg := []
  /-- frame-area lines in use: of each port's reserve, of the shared area, of the refusal pool (R349) -/
  rxUsed : Table Nat := []
  sharedUsed : Nat := 0
  refusalUsed : Nat := 0
  deriving DecidableEq, Repr

/-! ## Network time, the schedule table and the audit chain (R356–R382) -/

/-- A schedule entry (R365): live and staged values. -/
structure Sched where
  fire : W64 := 0
  period : W64 := 0
  fireStaged : W64 := 0
  periodStaged : W64 := 0
  en : Bool := false
  syncOnly : Bool := false
  action : BitVec 4 := 0
  arg : BitVec 24 := 0
  last : Byte := 0
  deriving DecidableEq, Repr

/-- A correction of NT by d, in 2^-32 ns, with its cause: a SET under SRC 0, the pulse that a SET armed, the pulse servo, firmware's APPLY
(R359, R361, R362). -/
inductive NtCorrection where
  | set (d : Int)
  | armed (d : Int)
  | servo (d : Int)
  | apply (d : Int)
  deriving DecidableEq, Repr

structure Ringmaster where
  /-- NT in ns and its fraction in 2^-32 ns (R356, R357) -/
  nt : W64 := 0
  ntFrac : W32 := 0
  established : Bool := false
  /-- NT changed in this hub cycle -/
  moved : Bool := false
  /-- corrections of this hub cycle, made at its end (R360) -/
  due : List NtCorrection := []
  /-- an action of the schedule's order has started in this hub cycle (R366) -/
  fired : Bool := false
  src : BitVec 2 := 0
  stepEn : Bool := true
  slew : BitVec 4 := 4
  holdover : Bool := false
  /-- NT at entry into holdover (R364) -/
  holdFrom : W64 := 0
  armed : Bool := false
  /-- correction still to be absorbed, in 2^-32 ns (R360) -/
  slewLeft : Int := 0
  freq : W32 := 0
  adj : W64 := 0
  uncBase : W32 := 0
  /-- term B under SRC 0: RM_UNC_BASE at the latest accepted SET -/
  uncSet : W32 := 0
  holdRate : W32 := 0x32
  stepTh : W32 := 0x186A0
  ppsLat : W32 := 0
  ppsAcc : W32 := 0x64
  setSec : W64 := 0
  /-- `Time.ticks` of the last accepted pulse and of the last APPLY, and |d| of the last 16 accepted pulses -/
  lastPps : Option Nat := none
  lastApply : Nat := 0
  ppsErr : List Nat := []
  /-- entries but entry 0, and entry 0 (R365) -/
  sched : Table Sched := []
  entry0 : Sched := {
    fire := 1000000000, period := 1000000000, fireStaged := 1000000000, periodStaged := 1000000000,
    en := true, action := 1 }
  /-- a PERIOD written for entry 0, which takes effect at its next firing (R365) -/
  entry0Next : Option W64 := none
  /-- words of the WAKE images, at 16 k + word -/
  image : Table W32 := []
  /-- PULSE entries that drive PPS_OUT, with the NT at which each falls (R367) -/
  pulses : Table Nat := []
  deriving DecidableEq, Repr

/-- A receipt waiting to be hashed (R369, R370): its epoch, instance, index and 81-byte string. -/
structure Receipt where
  epoch : W64
  iid : Nat
  index : Nat
  leaf : List Byte
  /-- the parity bits of its words in the audit store (R24) -/
  parity : List Bool := wordsParity leaf
  deriving DecidableEq, Repr

/-- An instance's tree in an epoch (R371, R378): receipts absorbed, the frontier as (height, hash) with the lowest
first, and whether it was lost. -/
structure Tree where
  count : Nat := 0
  frontier : List (Nat × BitVec 256) := []
  lost : Bool := false
  /-- the parity bits of the frontier's words (R24) -/
  parity : List (List Bool) := frontier.map (fun x => valueParity 8 x.2)
  deriving DecidableEq, Repr

/-- One seal ticket's outcome (R374). -/
structure SealSign where
  /-- submissions that ended other than DONE -/
  fails : Nat := 0
  /-- the ticket that signs now -/
  tid : Option Nat := none
  /-- an ended ticket whose end is not yet dealt with -/
  ended : Option Byte := none
  /-- resubmission waits for its 1 ms (SEAL_COSIGN after NOT_READY) -/
  retry : Bool := false
  /-- finished: the signature, none where it stays zero -/
  done : Bool := false
  sig : Option (List Byte) := none
  deriving DecidableEq, Repr

/-- An epoch that has closed and whose record is not yet written (R373–R377). -/
structure Sealing where
  epoch : W64
  ntStart : W64
  ntEnd : W64
  flags : Half
  uncMax : W32
  /-- receipts indexed per instance, and the frozen trees -/
  counts : Table Nat := []
  trees : Table Tree := []
  /-- step 3 done: the top leaves and TOP_ROOT -/
  tops : List (BitVec 256) := []
  topRoot : Option (BitVec 256) := none
  /-- the header as signed, once the seal tickets are submitted -/
  header : Option (List Byte) := none
  sign : SealSign := {}
  cosign : SealSign := {}
  /-- both have ended: the record waits in staging -/
  staged : Bool := false
  deriving DecidableEq, Repr

/-- A commit of the present hub cycle, for the order of R370 and R373. -/
structure NowCommit where
  iid : Nat
  core : Nat
  tid : Nat
  index : Nat
  /-- address of the completion entry written, if any -/
  entry : Option W64
  deriving DecidableEq, Repr

structure Audit where
  cosign : Bool := false
  irq : Bool := false
  ringLog2 : BitVec 4 := 0
  base : W64 := 0
  head : W32 := 0
  tail : W32 := 0
  /-- an epoch is open (R372); its number, NT_START, and what its header will say -/
  isOpen : Bool := false
  /-- some epoch has been opened since power-on reset -/
  begun : Bool := false
  epoch : W64 := 0
  ntStart : W64 := 0
  unsync : Bool := false
  holdover : Bool := false
  uncMax : W32 := 0
  counts : Table Nat := []
  trees : Table Tree := []
  queue : List Receipt := []
  now : List NowCommit := []
  sealings : List Sealing := []
  /-- hash of the last recorded header (R375) -/
  prev : BitVec 256 := 0
  bootId : List Byte := []
  bootReady : Bool := false
  isFinal : Bool := false
  /-- a boundary that waits for NT to change or for staging: entry 0's own, its early causes, FINAL (R373, R377) -/
  pendSeal : Bool := false
  pendEarly : List Nat := []
  pendFinal : Bool := false
  /-- the postponement has been counted -/
  delayed : Bool := false
  deriving DecidableEq, Repr

/-! ## Clocks (R383–R395) -/

/-- Where the recovery of a retired domain stands (R391). -/
inductive Recovery where
  | none
  /-- the PLL is enabled and not yet locked -/
  | locking
  /-- locked, the 100 µs hold runs -/
  | holding
  /-- the attempt failed; the next starts 1 ms later -/
  | waiting
  deriving DecidableEq, Repr

/-- A switched domain: 0–15 rings, 16 hub, 17 network (R384, R395). -/
structure Domain where
  /-- the multiplexer selects TIO -/
  tio : Bool := false
  /-- it has an input enabled -/
  clocked : Bool := false
  /-- a switch in progress, to TIO or to the PLL, and another requested behind it (R386) -/
  switching : Option Bool := none
  next : Option Bool := none
  /-- a switch held until TIO is STABLE (R390) -/
  heldForTio : Bool := false
  lock : Bool := false
  retired : Bool := false
  inReset : Bool := false
  recovery : Recovery := .none
  /-- attempts of the present sequence that have failed -/
  failed : Nat := 0
  deriving DecidableEq, Repr

structure Clocks where
  gateDis : Bool := false
  trim : BitVec 2 := 3
  retry : BitVec 4 := 3
  tioStable : Bool := false
  ref10Ok : Bool := false
  refclkOk : Bool := false
  trimLocked : Bool := false
  /-- CLK_TIO_TRIM.CODE; reset the factory code of OTP, per part (assumption 1) -/
  code : BitVec 20 := 0
  /-- CODE before its changes of this hub cycle (R393); NT since which |RM_FREQ| has exceeded 1 ppm (R394) -/
  codeWas : Option (BitVec 20) := none
  freqOver : Option Nat := none
  meas : W32 := 0
  dom : Table Domain := []
  /-- open clock gates by UNIT code (R385) -/
  gates : Table Bool := []
  /-- no gate has ended since REF10_OK became 1; gates in a row with |e| ≤ 25 (R394) -/
  firstGate : Bool := true
  goodGates : Nat := 0
  /-- the hub PLL tripped and is not relocked (R390) -/
  hubTripped : Bool := false
  deriving DecidableEq, Repr

/-! ## Hat-check slots (R396–R411) -/

/-- Where an activation stands (R397). -/
inductive ActStep where
  | none
  /-- supply on, 1 ms -/
  | supply
  /-- clock on, 40,000 cycles -/
  | clock
  /-- HCn_RST high, the ATR awaited -/
  | atr
  /-- the PPS answer awaited -/
  | pps
  /-- the answer to S(IFS request) awaited -/
  | ifs
  /-- deactivated; 10 ms before the other class is tried -/
  | again
  deriving DecidableEq, Repr

/-- What the slot awaits of the card in an exchange (R400, R401). -/
inductive T1Wait where
  | none
  /-- the acknowledgement of a chained block -/
  | ack
  /-- the response -/
  | response
  /-- the answer to S(RESYNCH request) -/
  | resynch
  deriving DecidableEq, Repr

/-- What a manager's EXCHANGE replaced, and the hub cycle of its acceptance (R410). -/
structure Begun where
  cycle : Nat
  outcome : BitVec 4
  rxLen : BitVec 9
  clkStopped : Bool
  lastBlock : List Byte
  deriving DecidableEq, Repr

/-- Phase of a WRITE_RECORD (R404). -/
inductive WrPhase where
  | none | data | gap | busy
  deriving DecidableEq, Repr

structure Slot where
  /-- a manager's EXCHANGE: the hub cycle of its acceptance, and what it replaced (R410) -/
  begun : Option Begun := none
  autoAct : Bool := false
  classA : Bool := true
  classB : Bool := true
  clkstopEn : Bool := false
  clkdiv : BitVec 9 := 0x64
  present : Bool := false
  vccOn : Bool := false
  /-- HCn_RST and HCn_CLK running (pins) -/
  rst : Bool := false
  clkOn : Bool := false
  clsA : Bool := false
  inverse : Bool := false
  clkStopped : Bool := false
  ownerKs : Bool := false
  xi : BitVec 2 := 0
  err : Byte := 0
  outcome : BitVec 4 := 0
  edc : Bool := false
  st : BitVec 4 := 0
  rxLen : BitVec 9 := 0
  txLen : BitVec 9 := 0
  fi : BitVec 4 := 1
  di : BitVec 4 := 1
  ifsc : Byte := 0x20
  bwi : BitVec 4 := 4
  cwi : BitVec 4 := 0xD
  guardN : Byte := 0
  busyMax : Half := 0x1F4
  pollUs : Half := 0x1F4
  atr : List Byte := []
  tx : Table Byte := []
  rx : Table Byte := []
  /-- activation: its step, classes tried, and whether the PPS has failed once -/
  act : ActStep := .none
  tried : List Bool := []
  ppsFailed : Bool := false
  /-- T=1: next N(S) of the slot and of the card, bytes of the command still to send, response so far, last block sent -/
  ns : Bool := false
  nr : Bool := false
  left : List Byte := []
  sending : List Byte := []
  got : List Byte := []
  lastBlock : List Byte := []
  wait : T1Wait := .none
  errors : Nat := 0
  resynchs : Nat := 0
  /-- multiplier of the last S(WTX request) acknowledged, for the next block -/
  wtx : Nat := 1
  /-- ceremony step: the profile command in progress, 1–5, 0 for none (R403) -/
  cmd : Nat := 0
  /-- a step waits for the slot, or for its activation (R410) -/
  stepWaits : Bool := false
  phase : WrPhase := .none
  /-- `Time.ticks` at which the data phase of WRITE_RECORD ends (R404) -/
  dataEnd : Nat := 0
  /-- STATE once the deactivation sequence ends; 2 for a further activation attempt, of class A or B -/
  after : BitVec 4 := 0
  nextA : Bool := false
  /-- the RESYNCH awaited is the manager's command, no exchange stands behind it -/
  resynchCmd : Bool := false
  poll : Bool := false
  cardId : List Byte := []
  /-- the card's public key; the session key, SECRET (R403) -/
  cardKey : List Byte := []
  key : List Byte := []
  certOk : Bool := false
  /-- ephemeral key drawn from the DRBG, card nonce, enciphered component and its tag (R403); session registers -/
  eph : Option (List Byte) := none
  nonce : List Byte := []
  cipher : List Byte := []
  component : List Byte := []
  /-- how the step ended, for COMPONENT_DONE: RESULT 0x00 done, 0x04 card error or removal, 0x05 unknown -/
  stepEnd : Option Byte := none
  /-- blocks and characters sent to the card, the model's own record -/
  sent : List (List Byte) := []
  deriving DecidableEq, Repr

/-! ## Entropy source and DRBG (R412–R428) -/

/-- One noise source: the run of identical bits, the next window's number, the last window's results. -/
structure Noise where
  runBit : Bool := false
  run : Nat := 0
  next : Nat := 0
  lastPass : Bool := false
  valid : Bool := false
  ones : Nat := 0
  rctTrip : Bool := false
  aptTrip : Bool := false
  window : Half := 0
  /-- AGREE_1 to AGREE_8 of the last window, and as a read of STAT latched them -/
  agree : List Nat := []
  latched : List Nat := []
  deriving DecidableEq, Repr

/-- A request that waits at the DRBG (R422). -/
structure DrbgReq where
  who : DrbgUser
  len : Nat
  pr : Bool
  /-- `Time.ticks` of its entry into the queue -/
  since : Nat
  /-- the reseed, by number, that a blocking trigger makes it wait for; 0 for none (R423) -/
  after : Nat := 0
  deriving DecidableEq, Repr

structure Entropy where
  srcEn : BitVec 4 := 0xF
  src : Table Noise := []
  /-- passed windows, oldest first, at most 16 (R419) -/
  pool : List (BitVec 1024) := []
  katPassed : Bool := false
  katRunning : Bool := false
  ready : Bool := false
  /-- Key ‖ V (R420); no access reads it -/
  keyV : BitVec 384 := 0
  /-- the state failed parity and must not be used (R427) -/
  faulty : Bool := false
  /-- RNG_RESEED_CNT -/
  count : Nat := 0
  starved : Bool := false
  instPending : Bool := false
  reseedPending : Bool := false
  /-- reseeds begun and completed, and the reseed that ends the last blocking trigger (R423) -/
  begun : Nat := 0
  completed : Nat := 0
  blockUntil : Nat := 0
  /-- an instantiation or a reseed runs; whether the reseed is that of the PR request at the head -/
  instRunning : Bool := false
  reseedRunning : Bool := false
  forPr : Bool := false
  /-- the request at the head has its own reseed behind it (R423) -/
  prReady : Bool := false
  holdUs : BitVec 24 := 0x3E8
  autoTh : BitVec 21 := 0x10000
  aptC : Half := 0x395
  rctC : BitVec 7 := 0x51
  pers : Table W32 := []
  queue : List DrbgReq := []
  /-- what units have been given and not yet taken: bytes, or none for NOT_READY -/
  answers : List (DrbgUser × Option (List Byte)) := []
  /-- a NOT_READY has been recorded since the last instantiation or reseed (R424) -/
  noticed : Bool := false
  rawSrc : BitVec 2 := 0
  rawDone : Bool := false
  rawRunning : Bool := false
  raw : BitVec 16384 := 0
  deriving DecidableEq, Repr

/-! ## Fault collector (R429–R444) -/

/-- An event waiting for its record (R434). -/
structure Waiting where
  ev : Event
  /-- the hub cycle and the NT at which it reached the collector -/
  cycle : Nat
  nt : W64
  /-- time established then? (FLAGS bit 4) -/
  unsync : Bool
  injected : Bool := false
  alsoInj : Bool := false
  /-- its class action is taken (false for an injection with ACT 0) -/
  acts : Bool := true
  deriving DecidableEq, Repr

/-- The fault collector and trouble log. Reset values: R444. -/
structure Collector where
  irqEn : Bool := false
  irqClass : BitVec 3 := 2
  logF0 : Bool := true
  snet : Bool := false
  snetSource : BitVec 6 := 0
  mode : Bool := false
  sticky : W64 := 0
  firstValid : Bool := false
  /-- records are 64 bytes, byte 0 lowest (R431) -/
  first : BitVec 512 := 0
  hq : List (BitVec 512) := []
  logHead : W32 := 0
  log : Table (BitVec 512) := []
  /-- the parity bits of each entry's words (R24) -/
  logParity : Table (List Bool) := []
  retireWindow : Half := 0x3E8
  retireCount : Byte := 0x10
  injAct : Bool := false
  injClass : BitVec 3 := 0
  injCause : Byte := 0
  injSource : BitVec 6 := 0
  injUnit : Half := 0
  lock : Bool := false
  lockRec : BitVec 512 := 0
  /-- the next record carries SELF (R436) -/
  selfMark : Bool := false
  deriving DecidableEq, Repr

/-- The last record captured or missed for the manager (R435): its hub cycle, source and bytes, and whether the history queue was full. -/
structure Captured where
  cycle : Nat
  source : Byte
  bytes : BitVec 512
  missed : Bool
  deriving DecidableEq, Repr

/-- The collector's queue and retirement bookkeeping (R434, R437–R439). -/
structure CollectorQ where
  waiting : List Waiting := []
  /-- events that found the queue full and are held at their source -/
  heldAtSource : List Waiting := []
  /-- hub cycle of the group of the last record (for COINCIDENT) -/
  lastGroup : Option Nat := none
  /-- an injection not yet taken: the event and ACT -/
  injection : Option (Event × Bool) := none
  /-- F1 events of this window, by UNIT code (R438) -/
  f1 : Table Nat := []
  /-- retired units by UNIT code; true for a retirement by a clock event (R391) -/
  retired : Table (Option Bool) := []
  captured : Option Captured := none
  /-- hub cycle in which vector 513 was last raised -/
  irqCycle : Option Nat := none
  /-- the last retirement left no usable ring: its F4 event comes in the next hub cycle (R439) -/
  noRing : Bool := false
  deriving DecidableEq, Repr

/-! ## Life cycle and debug (R445–R463) -/

/-- A row that the controller is programming (R446, R449, R453). -/
inductive OtpRow where
  | intent (k : Nat)
  /-- a row of the device secret, 0–3, to all ones -/
  | secret (k : Nat)
  /-- copy A, B or C -/
  | copy (k : Nat)
  | root (k : Nat)
  | rootLock (k : Nat)
  deriving DecidableEq, Repr

structure LifeCycle where
  /-- OTP: copies A, B, C; intent rows of INTEGRATOR, FIELDED, RETURNED, SCRAPPED; device secret; serial; roots.
  Reset per part: a FIELDED part with both field roots locked (assumption 1) -/
  copies : Table W64 := [(0, 0x0000C74A5B2D96E1), (1, 0x0000C74A5B2D96E1), (2, 0x0000C74A5B2D96E1)]
  intents : Table W64 := [(0, 0x000000005B2D96E1), (1, 0x0000C74A5B2D96E1)]
  secret : BitVec 256 := 0
  serial : BitVec 128 := 0
  roots : Table (BitVec 256) := []
  rootLocked : Table Bool := [(0, true), (1, true)]
  /-- STATE code 0–4 (R445) -/
  st : Nat := 2
  busy : Bool := false
  completedAtBoot : Bool := false
  target : Nat := 0
  result : Byte := 0
  /-- rows still to program, in order, and copies of this transition that did not read back -/
  rows : List OtpRow := []
  copyFails : Nat := 0
  /-- a transition completed at power-on runs (R447) -/
  atBoot : Bool := false
  rootBusy : Bool := false
  rootSel : Bool := false
  rootResult : Byte := 0
  rootData : Table W32 := []
  dbgBusy : Bool := false
  granted : Bool := false
  perm : BitVec 4 := 0
  dbgHeld : Bool := false
  dbgResult : Byte := 0
  chal : List Byte := []
  chalFresh : Bool := false
  /-- a CHALLENGE waits for the DRBG; a VERIFY runs, firmware suspended -/
  drawing : Bool := false
  verifying : Bool := false
  token : Table Byte := []
  /-- a WARM write held until step 7 (R468) -/
  warmHeld : Bool := false
  deriving DecidableEq, Repr

/-- The test access port (R456–R459): instruction in effect, the result of the last debug access. -/
structure Jtag where
  ir : Byte := 0x01
  outcome : BitVec 2 := 1
  data : W32 := 0
  /-- IDCODE or boundary register captured, and whether the pins are driven, held or high-impedance -/
  capture : W32 := 0
  deriving DecidableEq, Repr

/-! ## Reset and boot (R464–R481) -/

structure Boot where
  ring : BitVec 4 := 0
  warmCount : Half := 0
  cause : BitVec 4 := 1
  resultB : Byte := 0
  resultA : Byte := 0
  bundleFailI : Bool := false
  bundleFailV : Bool := false
  slot : BitVec 2 := 0
  /-- STAGE; reset 0 RESET -/
  stage : BitVec 4 := 0
  imgVersion : W64 := 0
  /-- power-on reset has ended; PWRGOOD is high -/
  powered : Bool := false
  pwrGood : Bool := false
  perstLow : Bool := false
  /-- steps 2–5 of a device warm reset run (R467) -/
  warm : Bool := false
  /-- a warm reset ended safety-net mode: the first ring release opens a new epoch (R372) -/
  reopen : Bool := false
  /-- slot tried last, if any, since boot last began; how many have failed -/
  trying : Option Nat := none
  fails : Nat := 0
  /-- the retained area holds a patch and acts (R478) -/
  retained : Bool := false
  /-- rings out of reset, and rings that a ring reset holds -/
  ringUp : BitVec 16 := 0
  ringHeld : BitVec 16 := 0
  deriving DecidableEq, Repr

/-! ## The machine -/

/-- Why the machine stops with a fault. No command of this block stops with one: the block has no access that
leads nowhere, since a read of an offset that holds no register returns 0 and a write to it is ignored (R12). -/
inductive Fault where
  /-- raised by no command (the type must be inhabited for the interface); safe -/
  | none
  deriving DecidableEq, Repr

/-- Why a command has no meaning. -/
inductive Refusal where
  /-- raised by `exec` for a command the model gives no meaning, by its mnemonic; safe: the machine stops -/
  | notModelled (mnemonic : String)
  deriving DecidableEq, Repr

/-- The machine: everything the manual gives the block, and the queue of the commands that wait. -/
structure State where
  dev : Device := {}
  time : Time := {}
  pcie : Pcie := {}
  inst : Table Inst := []
  page : Table Page := []
  attn : BitVec 512 := 0
  tickets : List Ticket := []
  nextTicket : Nat := 0
  ush : Usher := {}
  fabric : Fabric := {}
  cores : Table Core := []
  corex : Table CoreX := []
  mgmt : Mgmt := {}
  mrg : Table MrgStream := []
  /-- core, 0–15, served last by each ring's generator (R187); 15 at reset -/
  mrgLast : Table Nat := []
  mem : Memory := {}
  acts : Acts := {}
  patch : Patch := {}
  fc : Collector := {}
  fcq : CollectorQ := {}
  hash : Table HashEng := []
  /-- the permutation or compression units of hash engine e of ring r, numbered 16r + e; a unit is named by its core, 0–15 -/
  hashTurn : Table Turn := []
  mewin : Table MeWin := []
  meng : Table MeEngine := []
  bc : Table BcEng := []
  ks : KeyStore := {}
  net : Network := {}
  dol : Dolid := {}
  rm : Ringmaster := {}
  aud : Audit := {}
  clk : Clocks := {}
  hc : Table Slot := []
  rng : Entropy := {}
  lcs : LifeCycle := {}
  jtag : Jtag := {}
  boot : Boot := {}
  /-- plain counter that names the next free value (the model's own, assumption 4) -/
  fresh : Nat := 0
  /-- commands waiting, first in, first out -/
  pending : List Instr := []
  deriving DecidableEq, Repr

/-- The machine right after reset: every field at the value its declaration gives, the one the manual states or the
one an assumption names. The queue is empty. -/
def State.reset : State := {}

end Sys2Proof.Machine
end

