-- ==== Sys2Proof/Machine/Ops.lean ====
section
/-!
DEFINITION. The named operations over State that every family of commands shares: sparse tables, bit fields, the
shape of the part, one hub cycle, read-and-clear and write-1-to-clear registers, requests to the host, the report of
an event to the fault collector, the entries of tenants, tickets and cores, and the two act memories with their tags.
-/
namespace Sys2Proof

/-- Classes by gravity, F0 to F5 (R429). -/
def FaultClass.rank : FaultClass → Nat
  | .f0 => 0 | .f1 => 1 | .f2 => 2 | .f3 => 3 | .f4 => 4 | .f5 => 5

def FaultClass.ofCode : Nat → FaultClass
  | 0 => .f0 | 1 => .f1 | 2 => .f2 | 3 => .f3 | 4 => .f4 | _ => .f5

end Sys2Proof

namespace Sys2Proof.Machine

open Sys2Proof

abbrev Out := Host.Outcome State Fault Refusal

/-! ### Sparse tables -/

/-- What the table holds at `k`, or `d` where it lists nothing. -/
def Table.get {α : Type} (d : α) : Table α → Nat → α
  | [], _ => d
  | (a, v) :: r, k => if a = k then v else Table.get d r k

/-- Insert before the first larger number. -/
def Table.ins {α : Type} (k : Nat) (v : α) : Table α → Table α
  | [] => [(k, v)]
  | (a, w) :: r => if k < a then (k, v) :: (a, w) :: r else (a, w) :: Table.ins k v r

def Table.erase {α : Type} (k : Nat) (t : Table α) : Table α := t.filter (fun c => c.1 != k)

/-- Write `v` at `k`; a value equal to the default leaves no entry, so equal tables are equal data. -/
def Table.set {α : Type} [DecidableEq α] (d : α) (t : Table α) (k : Nat) (v : α) : Table α :=
  if v = d then Table.erase k t else Table.ins k v (Table.erase k t)

/-- Forget every number in [lo, lo + n). -/
def Table.clear {α : Type} (t : Table α) (lo n : Nat) : Table α :=
  t.filter (fun c => c.1 < lo || lo + n ≤ c.1)

/-- The numbers rise strictly from at least `lo`, and no entry equals the default. -/
def Table.wfFrom {α : Type} [DecidableEq α] (d : α) : Nat → Table α → Bool
  | _, [] => true
  | lo, (a, v) :: r => decide (lo ≤ a) && decide (v ≠ d) && Table.wfFrom d (a + 1) r

/-- The canonical form. -/
def Table.wf {α : Type} [DecidableEq α] (d : α) (t : Table α) : Bool := Table.wfFrom d 0 t

/-! ### Bits and bytes -/

/-- Bits lo + len − 1 to lo of a value, as a number. -/
def field (n lo len : Nat) : Nat := n / 2 ^ lo % 2 ^ len

/-- Bit k of a word. -/
def bit {w : Nat} (x : BitVec w) (k : Nat) : Bool := x.getLsbD k

/-- A flag as the number 0 or 1. -/
def b2n (b : Bool) : Nat := if b then 1 else 0

/-- A word assembled from (value, low bit) pairs. -/
def pack (fs : List (Nat × Nat)) : Nat := fs.foldl (fun a f => a + f.1 * 2 ^ f.2) 0

/-- Sign-extend the low `w` bits of `n` to 64 bits. -/
def sext64 (n w : Nat) : W64 := (BitVec.ofNat w n).signExtend 64

/-- Byte k of a number, little-endian (R8). -/
def byteOf (n k : Nat) : Byte := BitVec.ofNat 8 (n / 2 ^ (8 * k))

/-- The first n bytes of a number, little-endian. -/
def bytesOf (x n : Nat) : List Byte := (List.range n).map (byteOf x)

/-- The number that a list of bytes spells, little-endian. -/
def natOf : List Byte → Nat
  | [] => 0
  | b :: r => b.toNat + 256 * natOf r

/-- n bytes of a number, the most significant first. -/
def be (n x : Nat) : List Byte := (bytesOf x n).reverse
/-- The number that bytes spell, the most significant first. -/
def beNat (l : List Byte) : Nat := natOf l.reverse

/-- len bytes of a list from offset `o`; a list filled up with zeros; n bytes of a function; the bytewise exclusive or. -/
def slice (l : List Byte) (o len : Nat) : List Byte := (l.drop o).take len
def padTo (l : List Byte) (n : Nat) : List Byte := l ++ List.replicate (n - l.length) 0
def bytesFrom (f : Nat → Byte) (n : Nat) : List Byte := (List.range n).map f
def xorBytes (a b : List Byte) : List Byte := (List.range b.length).map (fun k => a.getD k 0 ^^^ b.getD k 0)

/-- Saturating count of `w` bits. -/
def sat (w n : Nat) : Nat := min n (2 ^ w - 1)

/-- Round up to a multiple of m. -/
def roundUp (n m : Nat) : Nat := (n + m - 1) / m * m

/-! ### The part (R1, R15) -/

def Part.rings : Part → Nat
  | .kx512 => 16
  | .kx128 => 4

def ringCount (s : State) : Nat := s.dev.part.rings
/-- Ring cores 16x + y of the present rings. -/
def coreCount (s : State) : Nat := 16 * ringCount s
/-- Tenants: IIDs 0 to this less one. -/
def iidCount (s : State) : Nat := 32 * ringCount s

/-- The number of the management pair among the cores (R122). -/
def mgmtCore : Nat := 256

/-- The core exists: a ring core of the part, or the management pair. -/
def corePresent (s : State) (c : Nat) : Bool := c < coreCount s || c == mgmtCore

/-! ### One hub cycle: counters and bits (R9, R13) -/

/-- Register numbers of the map: a BAR0 offset as it is, a BAR2 offset from 2^25 on (R42, R46). -/
def regNo (bar off : Nat) : Nat := if bar = 2 then 2 ^ 25 + off else off

/-- Count one event in field f (0–3) of RC register `reg`; `w` is the field's width. It saturates when the cycle ends, so that the
events of a cycle in which it is read stay counted (R13). -/
def bump (reg f w : Nat) (s : State) : State :=
  let c := Table.get {} s.time.rc (4 * reg + f)
  { s with time := { s.time with rc := Table.set {} s.time.rc (4 * reg + f) { c with now := min (c.now + 1) (2 ^ w - 1), cap := 2 ^ w - 1 } } }

/-- Count n events in an RC field at once. -/
def bumpN (reg f w n : Nat) (s : State) : State :=
  let c := Table.get {} s.time.rc (4 * reg + f)
  if n = 0 then s
  else { s with time := { s.time with rc := Table.set {} s.time.rc (4 * reg + f) { c with now := sat w (c.now + n), cap := 2 ^ w - 1 } } }

/-- An event that this hub cycle has counted did not take place after all. -/
def unbump (reg f : Nat) (s : State) : State :=
  let c := Table.get {} s.time.rc (4 * reg + f)
  { s with time := { s.time with rc := Table.set {} s.time.rc (4 * reg + f) { c with now := c.now - 1 } } }

/-- What a read in this hub cycle returns of an RC field: the count before the cycle's events. -/
def rcRead (reg f : Nat) (s : State) : Nat := (Table.get {} s.time.rc (4 * reg + f)).base

/-- The clear of an RC read: the events of this hub cycle stay. -/
def rcClear (reg f : Nat) (s : State) : State :=
  let c := Table.get {} s.time.rc (4 * reg + f)
  { s with time := { s.time with rc := Table.set {} s.time.rc (4 * reg + f) { c with base := 0 } } }

/-- Note that an event set these bits of a W1C register in this hub cycle. -/
def noteSet (reg : Nat) (bits : W64) (s : State) : State :=
  { s with time := { s.time with
      setNow := Table.set 0 s.time.setNow reg (Table.get 0 s.time.setNow reg ||| bits) } }

/-- A W1C write of `ones` over `old`: a written 1 clears, unless an event set that bit in this hub cycle (R13). -/
def w1c (reg : Nat) (old ones : W64) (s : State) : W64 :=
  old &&& ((~~~ ones) ||| (Table.get 0 s.time.setNow reg))

/-! ### Network time -/

def nt (s : State) : W64 := s.rm.nt
/-- NT in ns as a number. -/
def ntN (s : State) : Nat := s.rm.nt.toNat

/-- In Lockdown every register write is ignored and the device does nothing more (R443). -/
def unlessLocked (f : State → State) (s : State) : State := if s.fc.lock then s else f s

/-- A register write from outside: ignored in Lockdown and in SCRAPPED (R443, R455). -/
def hostWrite (f : State → State) (s : State) : State := if s.fc.lock || s.lcs.st == 4 then s else f s

/-! ### Requests to the host (R38, R41) -/

/-- The pieces, as (offset, length), in which n bytes at an address travel, each of at most m bytes and none across a multiple of m. -/
def tlps (m a n : Nat) : List (Nat × Nat) :=
  let f := min n (m - a % m)
  if n = 0 then [] else (0, f) :: (List.range ((n - f + m - 1) / m)).map (fun j => (f + m * j, min m (n - f - m * j)))

/-- Max_Payload_Size and Max_Read_Request_Size in bytes: up to 512 and up to 4,096; any other code counts as the least (R38,
assumption 101). -/
def maxPayload (s : State) : Nat := 128 * 2 ^ (if s.pcie.maxPayload.toNat ≤ 2 then s.pcie.maxPayload.toNat else 0)
def maxRead (s : State) : Nat := 128 * 2 ^ (if s.pcie.maxRead.toNat ≤ 5 then s.pcie.maxRead.toNat else 0)

/-- A request in the form in which it travels (R38). -/
def HostReq.split (s : State) (r : HostReq) : List HostReq :=
  match r with
  | .read p a n => (tlps (maxRead s) a.toNat n).map (fun x => .read p (a + BitVec.ofNat 64 x.1) x.2)
  | .write p a d => (tlps (maxPayload s) a.toNat d.length).map (fun x => .write p (a + BitVec.ofNat 64 x.1) ((d.drop x.1).take x.2))
  | .msix v => [.msix v]

/-- An MSI-X message or another request leaves, waits for D0, or is lost in Lockdown and under reset. -/
def emit (r : HostReq) (s : State) : State :=
  if s.fc.lock || s.pcie.inReset then s
  else if s.pcie.d3hot then { s with pcie := { s.pcie with held := s.pcie.held ++ r.split s } }
  else { s with pcie := { s.pcie with issued := s.pcie.issued ++ r.split s } }

/-- Raise an MSI-X vector (R39): masked or in D3hot its pending bit is set, otherwise the message leaves (R41, R484). -/
def msix (v : Nat) (s : State) : State :=
  if s.fc.lock || s.pcie.inReset then s
  else if s.pcie.d3hot || bit (Table.get {} s.pcie.msix v).ctrl 0 then
    { s with pcie := { s.pcie with msixPending := s.pcie.msixPending ||| BitVec.ofNat 514 (2 ^ v) } }
  else emit (.msix v) s

/-! ### Tenants' entries and pages -/

def inst (s : State) (i : Nat) : Inst := Table.get {} s.inst i
def setInst (i : Nat) (x : Inst) (s : State) : State := { s with inst := Table.set {} s.inst i x }
def page (s : State) (i : Nat) : Page := Table.get {} s.page i
def setPage (i : Nat) (x : Page) (s : State) : State := { s with page := Table.set {} s.page i x }
def share (s : State) (i : Nat) : Share := Table.get {} s.ush.share i
def setShare (i : Nat) (x : Share) (s : State) : State :=
  { s with ush := { s.ush with share := Table.set {} s.ush.share i x } }

/-- BAR0 offset of a tenant's entry register, and BAR2 offset of its page register. -/
def itReg (i off : Nat) : Nat := 0x100000 + 0x40 * i + off
def pgReg (i off : Nat) : Nat := regNo 2 (0x1000 * i + off)

/-- Set the tenant's attention bit and raise vector 512 (R39, R64). -/
def attention (i : Nat) (s : State) : State :=
  msix 512 (noteSet (0x110000 + 4 * (i / 32)) (BitVec.ofNat 64 (2 ^ (i % 32)))
    { s with attn := s.attn ||| BitVec.ofNat 512 (2 ^ i) })

/-! ### Tickets -/

def ticket? (s : State) (tid : Nat) : Option Ticket := s.tickets.find? (fun t => t.id == tid)

/-- Apply f to the ticket of this number. -/
def modTicket (tid : Nat) (f : Ticket → Ticket) (s : State) : State :=
  { s with tickets := s.tickets.map (fun t => if t.id = tid then f t else t) }

def dropTicket (tid : Nat) (s : State) : State :=
  { s with tickets := s.tickets.filter (fun t => t.id != tid) }

/-- n bytes of the ticket from byte `at`, little-endian (R47). -/
def Ticket.num (t : Ticket) (at_ n : Nat) : Nat := field t.bytes.toNat (8 * at_) (8 * n)
def Ticket.act (t : Ticket) : Half := BitVec.ofNat 16 (t.num 0 2)
def Ticket.flags (t : Ticket) : Nat := t.num 2 2
def Ticket.handle (t : Ticket) : W32 := BitVec.ofNat 32 (t.num 4 4)
def Ticket.inIova (t : Ticket) : W64 := BitVec.ofNat 64 (t.num 8 8)
def Ticket.inLen (t : Ticket) : Nat := t.num 16 4
def Ticket.outCap (t : Ticket) : Nat := t.num 20 4
def Ticket.outIova (t : Ticket) : W64 := BitVec.ofNat 64 (t.num 24 8)
def Ticket.deadline (t : Ticket) : Nat := t.num 32 8
def Ticket.tag (t : Ticket) : W64 := BitVec.ofNat 64 (t.num 40 8)
def Ticket.priority (t : Ticket) : Nat := t.num 48 2
def Ticket.inlineData (t : Ticket) : Bool := t.flags % 2 == 1
def Ticket.fence (t : Ticket) : Bool := t.flags / 2 % 2 == 1
def Ticket.irq (t : Ticket) : Bool := t.flags / 4 % 2 == 1
def Ticket.notifyDefer (t : Ticket) : Bool := t.flags / 8 % 2 == 1

/-- IID and slot of a key handle (R48). -/
def handleIid (h : W32) : Nat := field h.toNat 23 9
def handleSlot (h : W32) : Nat := field h.toNat 0 23
/-- The handle that names no key. -/
def noKey : W32 := 0xFFFFFFFF
def mkHandle (iid slot : Nat) : W32 := BitVec.ofNat 32 (iid * 2 ^ 23 + slot)

/-- A device ticket of the audit chain belongs to no tenant (R374). -/
def Ticket.device (t : Ticket) : Bool :=
  match t.origin with
  | .seal _ => true
  | _ => false

/-- In the buffer and not yet dispatched. -/
def Ticket.inBuffer (t : Ticket) : Bool :=
  match t.phase with
  | .copying | .entering | .queued => true
  | _ => false

/-- Dispatched and not yet completed. -/
def Ticket.dispatched (t : Ticket) : Bool := !t.inBuffer

def Ticket.core? (t : Ticket) : Option Nat :=
  match t.phase with
  | .running c => some c
  | .stopping c _ => some c
  | _ => none

/-- QUEUED of IT_INFLIGHT: in the buffer, its checks passed or under way. -/
def queuedCount (s : State) (i : Nat) : Nat :=
  (s.tickets.filter (fun t => !t.device && t.iid == i && (t.phase == .queued || t.phase == .entering))).length

/-- RUNNING of IT_INFLIGHT. -/
def runningCount (s : State) (i : Nat) : Nat :=
  (s.tickets.filter (fun t => !t.device && t.iid == i && t.dispatched)).length

/-! ### Events to the fault collector (R434) -/

/-- `a` is recorded before `b`: earlier hub cycle, then graver class, lower source, lower UNIT (R434). -/
def Waiting.before (a b : Waiting) : Bool :=
  if a.cycle ≠ b.cycle then a.cycle < b.cycle
  else if a.ev.cls ≠ b.ev.cls then b.ev.cls.rank < a.ev.cls.rank
  else if a.ev.source ≠ b.ev.source then a.ev.source.toNat < b.ev.source.toNat
  else a.ev.unit.toNat < b.ev.unit.toNat

/-- Place a waiting event after those recorded before it. -/
def insertWaiting (w : Waiting) : List Waiting → List Waiting
  | [] => [w]
  | x :: r => if w.before x then w :: x :: r else x :: insertWaiting w r

/-- Fault collector registers that count (R444). -/
def fcCnt (c : FaultClass) : Nat := 0x400140 + 4 * c.rank
def fcLogStat : Nat := 0x400104

/-- The event as it stands in the collector's queue, stamped with the hub cycle and NT of its arrival. -/
def stamped (ev : Event) (s : State) : Waiting :=
  { ev := ev, cycle := s.time.cycle, nt := nt s, unsync := !s.rm.established }

/-- An injected event of this hub cycle and the source of a real one, which share one record (R437). -/
def shadows (w x : Waiting) : Bool :=
  x.injected && !w.injected && x.cycle == w.cycle && x.ev.source == w.ev.source

/-- A queue of 64 places: a full one discards an F0 event and leaves any other at its source (R434). A real event takes the
record of an injected one of its source and hub cycle (R437). -/
def enqueueEvent (w : Waiting) (s : State) : State :=
  let q := s.fcq.waiting
  if q.any (shadows w) then
    { s with fcq := { s.fcq with waiting := insertWaiting { w with alsoInj := true } (q.filter (fun x => !shadows w x)) } }
  else if q.length < 64 then { s with fcq := { s.fcq with waiting := insertWaiting w q } }
  else if w.ev.cls = .f0 then bump fcLogStat 1 16 s
  else { s with fcq := { s.fcq with heldAtSource := s.fcq.heldAtSource ++ [w] } }

/-- The 64 bytes of a record (R431), as a number. -/
def recordOf (seq : W32) (w : Waiting) (coincident snet self : Bool) : BitVec 512 :=
  BitVec.ofNat 512 (pack [(seq.toNat, 0), (1, 32), (w.ev.cls.rank, 40), (w.ev.source.toNat, 48),
    (b2n coincident + 2 * b2n w.injected + 4 * b2n w.alsoInj + 8 * b2n self + 16 * b2n w.unsync
      + 32 * b2n snet, 56),
    (w.nt.toNat, 64), (w.ev.unit.toNat, 128), (w.ev.cause.toNat, 144), (w.ev.act.toNat, 160),
    (w.ev.iid.toNat, 176), (w.ev.tag.toNat, 192), (w.ev.addr.toNat, 256), (w.ev.detail0.toNat, 320),
    (w.ev.detail1.toNat, 384), (0x80, 504)])

/-! ### Cores -/

def core (s : State) (c : Nat) : Core := Table.get {} s.cores c
def setCore (c : Nat) (x : Core) (s : State) : State := { s with cores := Table.set {} s.cores c x }
def corex (s : State) (c : Nat) : CoreX := Table.get {} s.corex c
def setCorex (c : Nat) (x : CoreX) (s : State) : State := { s with corex := Table.set {} s.corex c x }

def ringOf (c : Nat) : Nat := c / 16

/-- The ticket a core runs. -/
def ticketOn (s : State) (c : Nat) : Option Ticket := (core s c).ticket.bind (ticket? s)

/-- The cycles that the clock of core c has begun: its ring's, or for the management pair the hub's (R15, R117). -/
def coreNow (s : State) (c : Nat) : Nat := if c = mgmtCore then s.time.cycle else Table.get 0 s.time.ringCyc (ringOf c)

/-- Core cycles since act entry (R117). -/
def cycles (s : State) (c : Nat) : Nat := coreNow s c - (core s c).entry

/-- Read g register r (R97): g0 reads 0. -/
def Core.rg (x : Core) (r : Nat) : W64 := if r = 0 then 0 else Table.get 0 x.g r
/-- Tag of g register r: g0 is always PUBLIC (R175). -/
def Core.tagG (x : Core) (r : Nat) : Tag := if r = 0 then .pub else Table.get .pub x.gtag r
/-- Write g register r and its tag: a write to g0 is discarded (R97). -/
def Core.wg (x : Core) (r : Nat) (v : W64) (t : Tag) : Core :=
  if r = 0 then x else { x with g := Table.set 0 x.g r v, gtag := Table.set .pub x.gtag r t }

def VecUnit.rv (u : VecUnit) (r : Nat) : BitVec 1024 := Table.get 0 u.v r
def VecUnit.tagV (u : VecUnit) (r : Nat) : Tag := Table.get .pub u.vtag r
/-- The kind of a triple that no triple instruction wrote last (assumption 9). -/
def kindUnknown : Nat := 3
def VecUnit.setKind (u : VecUnit) (k kind : Nat) : VecUnit := { u with kind := Table.set kindUnknown u.kind k kind }
def VecUnit.wv (u : VecUnit) (r : Nat) (x : BitVec 1024) (t : Tag) : VecUnit :=
  { u with v := Table.set 0 u.v r x, vtag := Table.set .pub u.vtag r t, kind := Table.set kindUnknown u.kind (r / 3) kindUnknown }
/-- Predicate r (R132): p0 reads all ones. -/
def VecUnit.rp (u : VecUnit) (r : Nat) : BitVec 128 :=
  if r = 0 then BitVec.allOnes 128 else Table.get 0 u.p r
def VecUnit.tagP (u : VecUnit) (r : Nat) : Bool := if r = 0 then false else Table.get false u.ptag r
/-- Write predicate r: a write to p0 is discarded. -/
def VecUnit.wp (u : VecUnit) (r : Nat) (x : BitVec 128) (t : Bool) : VecUnit :=
  if r = 0 then u else { u with p := Table.set 0 u.p r x, ptag := Table.set false u.ptag r t }

/-- Set EVPEND bits (R117). -/
def setEvent (c k : Nat) (s : State) : State :=
  let x := core s c
  noteSet (2 ^ 30 + c) (BitVec.ofNat 64 (2 ^ k))
    (setCore c { x with evPend := x.evPend ||| BitVec.ofNat 10 (2 ^ k) } s)

/-- A WAIT ends when a masked event is pending (R111). -/
def wake (c : Nat) (s : State) : State :=
  let x := core s c
  if x.run = .waiting ∧ x.evPend &&& x.evMask ≠ 0 then
    setCore c { x with
      run := .running,
      stalled := (x.stalled + (coreNow s c - x.stallFrom.getD (coreNow s c))), stallFrom := none } s
  else s

/-- An event of a unit reaches the core (R121). -/
def raiseEvent (c k : Nat) (s : State) : State := wake c (setEvent c k s)

/-! ### Stored lines: local memory, ring memory and the working space, with tags and parity (R16, R24, R99–R102, R122, R175, R180) -/

/-- A place in local memory of a core, in ring memory of a ring, or in the central working space. -/
inductive Place where
  | loc (core off : Nat)
  | ring (ring off : Nat)
  | work (off : Nat)
  deriving DecidableEq, Repr

def Place.add : Place → Nat → Place
  | .loc c o, n => .loc c (o + n)
  | .ring r o, n => .ring r (o + n)
  | .work o, n => .work (o + n)

def Place.key : Place → Nat
  | .loc c o => c * 2 ^ 18 + o
  | .ring r o => r * 2 ^ 22 + o
  | .work o => o

/-- The word that holds the place, among the words of all three memories. -/
def Place.wordKey (p : Place) : Nat :=
  3 * (p.key / 4) + match p with
    | .loc _ _ => 0
    | .ring _ _ => 1
    | .work _ => 2

/-- One byte of a memory. -/
def readByte (s : State) (p : Place) : Byte :=
  match p with
  | .loc _ _ => Table.get 0 s.mem.coreMem p.key
  | .ring _ _ => Table.get 0 s.mem.ringMem p.key
  | .work _ => Table.get 0 s.mem.workMem p.key

/-- The 32-bit word w of a byte memory. -/
def wordIn (t : Table Byte) (w : Nat) : W32 :=
  BitVec.ofNat 32 (natOf ((List.range 4).map (fun k => Table.get 0 t (4 * w + k))))

/-- The parity bits of a memory once its word w is written: the writer makes the bit even (R24). -/
def withParity (t : Table Byte) (par : Table Bool) (w : Nat) : Table Bool := Table.set false par w (evenParity (wordIn t w))

/-- The memory with one byte written and its word's parity bit made anew. -/
def Memory.put (p : Place) (b : Byte) (m : Memory) : Memory :=
  let m := { m with wrote := Table.set false m.wrote p.wordKey true }
  match p with
  | .loc _ _ =>
    let t := Table.set 0 m.coreMem p.key b
    { m with coreMem := t, coreParity := withParity t m.coreParity (p.key / 4) }
  | .ring _ _ =>
    let t := Table.set 0 m.ringMem p.key b
    { m with ringMem := t, ringParity := withParity t m.ringParity (p.key / 4) }
  | .work _ =>
    let t := Table.set 0 m.workMem p.key b
    { m with workMem := t, workParity := withParity t m.workParity (p.key / 4) }

def writeByte (p : Place) (b : Byte) (s : State) : State := { s with mem := s.mem.put p b }

def readBytes (s : State) (p : Place) (n : Nat) : List Byte := (List.range n).map (fun k => readByte s (p.add k))

def writeBytes (p : Place) : List Byte → State → State
  | [], s => s
  | b :: r, s => writeBytes (p.add 1) r (writeByte p b s)

/-- The word of the place as a read finds it, with the parity bit stored beside it (R24). -/
def storedWord (s : State) (p : Place) : StoredWord :=
  match p with
  | .loc _ _ => { word := wordIn s.mem.coreMem (p.key / 4), parity := Table.get false s.mem.coreParity (p.key / 4) }
  | .ring _ _ => { word := wordIn s.mem.ringMem (p.key / 4), parity := Table.get false s.mem.ringParity (p.key / 4) }
  | .work _ => { word := wordIn s.mem.workMem (p.key / 4), parity := Table.get false s.mem.workParity (p.key / 4) }

/-- The word was written in the present hub cycle (R31). -/
def wroteNow (s : State) (p : Place) : Bool := Table.get false s.mem.wrote p.wordKey

/-- The line of an owner's data in central memory is written in this hub cycle (R31). -/
def noteHeld (h : LineHeld) (s : State) : State := { s with fabric := { s.fabric with wroteHeld := s.fabric.wroteHeld ++ [h] } }

/-- Tag of the line that holds the place. -/
def lineTag (s : State) (p : Place) : Tag :=
  match p with
  | .loc _ _ => Table.get .pub s.mem.coreTag (p.key / 64)
  | .ring _ _ => Table.get .pub s.mem.ringTag (p.key / 64)
  | .work _ => Table.get .pub s.mem.workTag (p.key / 64)

def setLineTag (p : Place) (t : Tag) (s : State) : State :=
  match p with
  | .loc _ _ => { s with mem := { s.mem with coreTag := Table.set .pub s.mem.coreTag (p.key / 64) t } }
  | .ring _ _ => { s with mem := { s.mem with ringTag := Table.set .pub s.mem.ringTag (p.key / 64) t } }
  | .work _ => { s with mem := { s.mem with workTag := Table.set .pub s.mem.workTag (p.key / 64) t } }

def Tag.isShare : Tag → Bool
  | .share0 | .share1 | .share2 => true
  | _ => false

/-- The join of two tags (R177); none where no join exists. -/
def Tag.join (x y : Tag) : Option Tag :=
  if x = y then some x
  else if x = .pub then some y
  else if y = .pub then some x
  else if x.isShare || y.isShare then none
  else some .secret

/-- The join of a line's tag and the data's, for a write narrower than the line; a write that would join a share with
another class leaves the line SECRET (assumption 6). -/
def Tag.lineJoin (x y : Tag) : Tag := (x.join y).getD .secret

/-- The join as every unit but the block-cipher engines makes it: a class that only those may produce is SECRET in a result
(R177, R181). -/
def Tag.plain : Tag → Tag
  | .cipher | .pinf | .pinblk | .wrapped => .secret
  | t => t

/-- The lines that n bytes from a key on touch. -/
def lineNos (key n : Nat) : List Nat :=
  if n = 0 then [] else (List.range ((key % 64 + n + 63) / 64)).map (fun j => key / 64 + j)

/-- Write bytes with their tag: whole lines take the tag, narrower parts join it (R180). -/
def writeTagged (p : Place) (data : List Byte) (t : Tag) (s : State) : State :=
  writeBytes p data ((lineNos p.key data.length).foldl (fun s j =>
    let q : Place := p.add (64 * j - p.key)
    if p.key ≤ 64 * j ∧ 64 * j + 64 ≤ p.key + data.length then setLineTag q t s
    else setLineTag q ((lineTag s q).lineJoin t) s) s)

/-- The tags of the lines that [p, p + n) touches, in order. -/
def lineTags (s : State) (p : Place) (n : Nat) : List Tag :=
  (lineNos p.key n).map (fun j => lineTag s (p.add (64 * j - p.key)))

/-- The join over a range of lines; SECRET where no join exists. -/
def tagOver (s : State) (p : Place) (n : Nat) : Tag := (lineTags s p n).foldl Tag.lineJoin .pub

/-- Tag of a line after bytes with these tags are written over [off, off + n): a whole line takes their join, a part joins the old
tag (R180). -/
def lineAfter (old : Tag) (line off n : Nat) (tagAt : Nat → Tag) : Tag :=
  let lo := max off (64 * line)
  let hi := min (off + n) (64 * line + 64)
  let t := (List.range (hi - lo)).foldl (fun t k => t.lineJoin (tagAt (lo - off + k))) .pub
  if hi - lo = 64 then t else old.lineJoin t

/-! ### The banks of ring memory (R16, R18) -/

/-- The ports of a ring's crossbar in the order in which R18 lists them: cores 0–15, then the engines k as 16 + k, of which the last is the
DMA agent, then the Carousel stop. -/
def enginePort (k : Nat) : Nat := 16 + k % 16
def dmaPort : Nat := 25
def stopPort : Nat := 26
def crossbarPorts : Nat := 27

/-- The bank of a line, by 16 × ring + bank: address bits 9–6. -/
def bankOf (line : Nat) : Nat := line / 65536 * 16 + line % 16

/-- The place of a port in the order in which the round-robin pointer of the line's bank serves the ports. -/
def turnOf (s : State) (line port : Nat) : Nat := (port + crossbarPorts - Table.get 0 s.fabric.bankTurn (bankOf line)) % crossbarPorts

/-- The writes of this hub cycle to the line by ports whose turn comes after this port's. -/
def laterTurns (s : State) (line port : Nat) : List BankWrite :=
  s.fabric.bankNow.filter (fun w => w.line == line && turnOf s line port < turnOf s line w.port)

/-- The start of line j, at or after the place's own line. -/
def Place.lineStart (p : Place) (j : Nat) : Place :=
  let own : Place := match p with
    | .loc c o => .loc c (o / 64 * 64)
    | .ring r o => .ring r (o / 64 * 64)
    | .work o => .work (o / 64 * 64)
  own.add (64 * (j - p.key / 64))

/-- What a port has written to [p, p + n), where ports whose turn comes later wrote the same lines in this hub cycle before it did: their
data and tags remain (R18, R180). -/
def lineInTurn (port j : Nat) (p : Place) (n : Nat) (before s : State) : State :=
  let q := p.lineStart j
  let lo := max p.key (64 * j)
  let hi := min (p.key + n) (64 * j + 64)
  let kept := laterTurns before j port
  let s := kept.foldl (fun s w => (List.range w.len).foldl (fun s k => writeByte (q.add (w.off + k)) (readByte before (q.add (w.off + k))) s) s) s
  let s := if kept = [] then s
    else if kept.any (fun w => w.len == 64) then setLineTag q (lineTag before q) s
    else setLineTag q (kept.foldl (fun t w => t.lineJoin w.tag) (lineTag s q)) s
  { s with fabric := { s.fabric with
      bankNow := s.fabric.bankNow ++ [{ line := j, port := port, off := lo - 64 * j, len := hi - lo, tag := lineTag s q }] } }

/-- The state after a port's write to [p, p + n) of ring memory: the accesses of one cycle to one bank are served in the order of its
pointer, whatever the order of their commands. -/
def inTurn (port : Nat) (p : Place) (n : Nat) (before after : State) : State :=
  match p with
  | .ring _ _ => (lineNos p.key n).foldl (fun s j => lineInTurn port j p n before s) after
  | _ => after

/-- No port whose turn comes later has written a line of [p, p + n) in this hub cycle. -/
def lastInTurn (s : State) (port : Nat) (p : Place) (n : Nat) : Bool :=
  match p with
  | .ring _ _ => (lineNos p.key n).all (fun j => (laterTurns s j port).isEmpty)
  | _ => true

/-- At the end of the hub cycle each bank's pointer stands behind the port that was served last. -/
def turnsPass (s : State) : State :=
  let last (t : Table Nat) (w : BankWrite) : Table Nat :=
    let done := Table.get crossbarPorts t (bankOf w.line)
    if done = crossbarPorts ∨ turnOf s w.line done < turnOf s w.line w.port then Table.set crossbarPorts t (bankOf w.line) w.port else t
  { s with fabric := { s.fabric with
      bankNow := []
      wroteHeld := []
      bankTurn := (s.fabric.bankNow.foldl last []).foldl (fun t e => Table.set 0 t e.1 ((e.2 + 1) % crossbarPorts)) s.fabric.bankTurn } }

/-- Write bytes to a memory, byte k tagged `tagAt k` (R180). -/
def writeTaggedBy (p : Place) (b : List Byte) (tagAt : Nat → Tag) (s : State) : State :=
  let n := b.length
  (lineNos p.key n).foldl (fun s j =>
    let lo := max p.key (64 * j)
    let hi := min (p.key + n) (64 * j + 64)
    writeTagged (p.add (lo - p.key)) (slice b (lo - p.key) (hi - lo)) (lineAfter .pub j p.key n tagAt) s) s

/-- Writes of a port, all bytes with one tag or each with its own. -/
def bankWrite (port : Nat) (p : Place) (b : List Byte) (t : Tag) (s : State) : State := inTurn port p b.length s (writeTagged p b t s)
def bankWriteBy (port : Nat) (p : Place) (b : List Byte) (tagAt : Nat → Tag) (s : State) : State :=
  inTurn port p b.length s (writeTaggedBy p b tagAt s)

/-- A range of one ring moved to another's, each line's tag with it (R175). -/
def moveLines (q p : Place) (n : Nat) (s : State) : State :=
  bankWriteBy stopPort q (readBytes s p n) (fun k => lineTag s (p.add k)) s

/-! ### Stores that await a FENCE (R109, R143, R148) -/

/-- Number of a place among those of local and ring memory, and the place of a number. -/
def Place.cell (p : Place) : Nat :=
  2 * p.key + match p with
    | .ring _ _ => 1
    | _ => 0

def placeAt (cell : Nat) : Place :=
  if cell % 2 = 0 then .loc (cell / 2 / 2 ^ 18) (cell / 2 % 2 ^ 18) else .ring (cell / 2 / 2 ^ 22) (cell / 2 % 2 ^ 22)

/-- Number of the line that holds the place; the line's first byte is `placeAt (128 * (n / 2) + n % 2)`. -/
def Place.lineCell (p : Place) : Nat := 2 * (p.key / 64) + p.cell % 2

/-- What the others see at n bytes from p on is kept as it is, where no earlier store of core c has kept it. -/
def keepOld (c : Nat) (p : Place) (n : Nat) (s : State) : State :=
  let y := corex s c
  setCorex c { y with
    oldBytes := (List.range n).foldl (fun t k =>
      let q := p.add k
      if (Table.get none t q.cell).isSome then t else Table.set none t q.cell (some (readByte s q))) y.oldBytes
    oldTags := (lineNos p.key n).foldl (fun t j =>
      let q := p.add (64 * j - p.key)
      if (Table.get none t q.lineCell).isSome then t else Table.set none t q.lineCell (some (lineTag s q))) y.oldTags } s

/-- A write by another port at n bytes from p on is seen by all (R18): nothing older is kept there (assumption 107). -/
def dropOld (c : Nat) (p : Place) (n : Nat) (s : State) : State :=
  let y := corex s c
  setCorex c { y with
    oldBytes := (List.range n).foldl (fun t k => Table.erase (p.add k).cell t) y.oldBytes
    oldTags := (lineNos p.key n).foldl (fun t j => Table.erase (p.add (64 * j - p.key)).lineCell t) y.oldTags } s

/-- Every earlier store of core c is visible (R109). -/
def fenced (c : Nat) (s : State) : State := setCorex c { corex s c with oldBytes := [], oldTags := [] } s

/-- The memories as all but core c see them. -/
def seenBeside (s : State) (c : Nat) : State :=
  let y := corex s c
  y.oldTags.foldl (fun s e => setLineTag (placeAt (128 * (e.1 / 2) + e.1 % 2)) (e.2.getD .pub) s)
    (y.oldBytes.foldl (fun s e => writeByte (placeAt e.1) (e.2.getD 0) s) s)

/-- A store of core c: a ring core's becomes visible to the others at its next FENCE (R109). -/
def coreStore (c : Nat) (p : Place) (data : List Byte) (t : Tag) (s : State) : State :=
  bankWrite (c % 16) p data t (if c = mgmtCore then s else keepOld c p data.length s)

/-- Lines become unwritten, zero and PUBLIC (R102, R180). -/
def unwrite (p : Place) (n : Nat) (s : State) : State :=
  match p with
  | .loc _ _ => { s with mem := { s.mem with
      coreMem := Table.clear s.mem.coreMem p.key n, coreTag := Table.clear s.mem.coreTag (p.key / 64) (n / 64)
      coreParity := Table.clear s.mem.coreParity (p.key / 4) (n / 4) } }
  | .ring _ _ => { s with mem := { s.mem with
      ringMem := Table.clear s.mem.ringMem p.key n, ringTag := Table.clear s.mem.ringTag (p.key / 64) (n / 64)
      ringParity := Table.clear s.mem.ringParity (p.key / 4) (n / 4) } }
  | .work _ => { s with mem := { s.mem with
      workMem := Table.clear s.mem.workMem p.key n, workTag := Table.clear s.mem.workTag (p.key / 64) (n / 64)
      workParity := Table.clear s.mem.workParity (p.key / 4) (n / 4) } }

/-- The whole working space, zero. -/
def clearWork (s : State) : State := { s with mem := { s.mem with workMem := [], workTag := [], workParity := [] } }

/-- Byte memory of the load window. -/
def readWin (t : Table Byte) (off n : Nat) : List Byte := (List.range n).map (fun k => Table.get 0 t (off + k))
def writeWin (t : Table Byte) (off : Nat) : List Byte → Table Byte
  | [] => t
  | b :: r => writeWin (Table.set 0 t off b) (off + 1) r

/-- The canonical form of every byte, line-tag and parity memory. -/
def Memory.wf (m : Memory) : Bool :=
  Table.wf 0 m.coreMem && Table.wf .pub m.coreTag && Table.wf 0 m.ringMem && Table.wf .pub m.ringTag
    && Table.wf 0 m.workMem && Table.wf .pub m.workTag && Table.wf 0 m.loadWin
    && Table.wf false m.coreParity && Table.wf false m.ringParity && Table.wf false m.workParity

/-! ### Free values -/

/-- Take the next free value's number. -/
def nextFresh (s : State) : Nat × State := (s.fresh, { s with fresh := s.fresh + 1 })

/-- n free bytes. -/
def freeBytes (n k : Nat) : List Byte := bytesOf (Config.freeBits (8 * n) k).toNat n

end Sys2Proof.Machine
end

