-- ==== Sys2Proof/Machine/Aead.lean ====
section
/-!
DEFINITION. AES-256-GCM (SP 800-38D) over the block cipher of `Config.cipher`, and the SP 800-108 KDF in counter mode with CMAC-AES-256,
as Dolid messages (R332), cookies (R335) and saved blobs (R302, R303) use them.
-/
namespace Sys2Proof.Machine

open Sys2Proof

/-- One AES-256 block. -/
def aesBlock (key b : List Byte) : List Byte := bytesFrom (Config.cipher true 0 key b) 16

/-- Product in GF(2^128) of SP 800-38D; the first bit of a block is bit 127 of its number. -/
def gcmMul (x y : Nat) : Nat :=
  ((List.range 128).foldl (fun (r : Nat × Nat) i =>
    (if x.testBit (127 - i) then Nat.xor r.1 r.2 else r.1,
     if r.2.testBit 0 then Nat.xor (r.2 / 2) (0xE1 * 2 ^ 120) else r.2 / 2)) (0, y)).1

/-- GHASH of a whole number of blocks. -/
def ghash (h : Nat) (m : List Byte) : Nat :=
  (List.range (m.length / 16)).foldl (fun x j => gcmMul (Nat.xor x (beNat (slice m (16 * j) 16))) h) 0

/-- The key stream for n bytes behind a 96-bit nonce. -/
def gcmStream (key nonce : List Byte) (n : Nat) : List Byte :=
  (((List.range ((n + 15) / 16)).map (fun j => aesBlock key (nonce ++ be 4 (j + 2)))).flatten).take n

def gcmTag (key nonce aad ct : List Byte) : List Byte :=
  let whole (l : List Byte) : List Byte := padTo l (roundUp l.length 16)
  let h := beNat (aesBlock key (List.replicate 16 0))
  xorBytes (aesBlock key (nonce ++ be 4 1)) (be 16 (ghash h (whole aad ++ whole ct ++ be 8 (8 * aad.length) ++ be 8 (8 * ct.length))))

/-- Ciphertext and 16-byte tag. -/
def gcmSeal (key nonce aad plain : List Byte) : List Byte :=
  let ct := xorBytes (gcmStream key nonce plain.length) plain
  ct ++ gcmTag key nonce aad ct

/-- The plaintext of a ciphertext whose tag verifies. -/
def gcmOpen (key nonce aad m : List Byte) : Option (List Byte) :=
  let ct := m.take (m.length - 16)
  if 16 ≤ m.length ∧ gcmTag key nonce aad ct = m.drop (m.length - 16) then
    some (xorBytes (gcmStream key nonce ct.length) ct)
  else none

/-- 256 bits of the KDF from a key, a label and a context: two CMACs, over the counter and the fixed input (SP 800-108). -/
def kdf256 (key label context : List Byte) : List Byte :=
  bytesFrom (Config.cmac 0 key (Config.kdfInput 1 label context 256)) 16
    ++ bytesFrom (Config.cmac 0 key (Config.kdfInput 2 label context 256)) 16

/-- The field storage root from the device secret and serial, label KX-FSR (R454), and the domain storage key, label KX-DSK (R302). The order
of the bytes of secret, serial and domain is a DESIGN CHOICE (assumption 111). -/
def storageRoot (secret : BitVec 256) (serial : BitVec 128) : List Byte :=
  kdf256 (bytesOf secret.toNat 32) [0x4B, 0x58, 0x2D, 0x46, 0x53, 0x52] (bytesOf serial.toNat 16)
def domainKey (secret : BitVec 256) (serial domain : BitVec 128) : List Byte :=
  kdf256 (storageRoot secret serial) [0x4B, 0x58, 0x2D, 0x44, 0x53, 0x4B] (bytesOf domain.toNat 16)
/-- The seed ξ of the device attestation key, label KX-ATT (R454). -/
def attestSeed (secret : BitVec 256) (serial : BitVec 128) : List Byte :=
  kdf256 (bytesOf secret.toNat 32) [0x4B, 0x58, 0x2D, 0x41, 0x54, 0x54] (bytesOf serial.toNat 16)

/-- The nonce of a Dolid message (R332). -/
def dolidNonce (seq : Nat) : List Byte := List.replicate 4 0 ++ be 8 seq

/-- C of a cookie under an epoch's key (R335). -/
def cookieMac (key m : List Byte) : List Byte := bytesFrom (Config.cmac 0 key m) 12

end Sys2Proof.Machine
end

