-- ==== Sys2Proof/Machine/Operands.lean ====
section
/-!
DEFINITION. Operand forms of Ilina 2 and Ilina-V: the fields of each instruction format (R103, R135), the elements of
vector, pair and sliced registers (R130, R131, R139), and the places that a scalar or vector access may reach
(R99–R101, R122).
-/
namespace Sys2Proof.Machine

open Sys2Proof

/-! ### Fields (R103, R135) -/

def fld (w : W32) (lo len : Nat) : Nat := field w.toNat lo len
def opcode (w : W32) : Nat := fld w 26 6
/-- Fields of formats T, I, Y, VR, VM: d 25–21, a 20–16, b 15–11. -/
def fD (w : W32) : Nat := fld w 21 5
def fA (w : W32) : Nat := fld w 16 5
def fB (w : W32) : Nat := fld w 11 5
/-- funct of formats T and Y. -/
def fFunct (w : W32) : Nat := fld w 0 11
def fImm (w : W32) : Nat := fld w 0 16
/-- sext(imm16) and zext(imm16). -/
def sImm (w : W32) : W64 := sext64 (fImm w) 16
def zImm (w : W32) : W64 := BitVec.ofNat 64 (fImm w)
/-- Fields of formats VR and VM. -/
def vPg (w : W32) : Nat := fld w 8 3
def vEw (w : W32) : Nat := fld w 6 2
def vZ (w : W32) : Bool := bit w 5
def vFunct (w : W32) : Nat := fld w 0 5
def vMode (w : W32) : Nat := fld w 0 3
def vGroup (w : W32) : Nat := fld w 3 2

/-- Element width in bits, and elements per register (R130). -/
def ewBits (ew : Nat) : Nat := 8 * 2 ^ ew
def ewCount (ew : Nat) : Nat := 128 / 2 ^ ew

/-! ### Elements (R130–R132) -/

/-- Element e of width w of a register, as a number. -/
def elem {n : Nat} (x : BitVec n) (w e : Nat) : Nat := field x.toNat (w * e) w

/-- A register from its N elements of width w. -/
def ofElems (n w cnt : Nat) (f : Nat → Nat) : BitVec n :=
  BitVec.ofNat n ((List.range cnt).foldl (fun a e => a + f e % 2 ^ w * 2 ^ (w * e)) 0)

/-- An element read as a signed number. -/
def signed (w x : Nat) : Int := if x < 2 ^ (w - 1) then x else (x : Int) - 2 ^ w

/-- A signed number as an element of width w. -/
def unsigned (w : Nat) (x : Int) : Nat := (x % 2 ^ w).toNat

/-- Result register: active elements take f, inactive ones the old value, or 0 when Z is 1 (R133). -/
def merge (w cnt : Nat) (pg : BitVec 128) (z : Bool) (old : BitVec 1024) (f : Nat → Nat) : BitVec 1024 :=
  ofElems 1024 w cnt (fun e => if bit pg e then f e else if z then 0 else elem old w e)

/-- A predicate from its first N bits; the rest are 0 (R132). -/
def predOf (cnt : Nat) (f : Nat → Bool) : BitVec 128 :=
  BitVec.ofNat 128 ((List.range cnt).foldl (fun a e => a + b2n (f e) * 2 ^ e) 0)

/-- Every element of the width is active. -/
def allActive (pg : BitVec 128) (cnt : Nat) : Bool := (List.range cnt).all (fun e => bit pg e)

/-! ### Places (R99–R101, R122) -/

/-- What an address names. -/
inductive Where where
  | mem (p : Place)
  /-- a readable place that no store may write: a grant, or the act's own image -/
  | readOnly (p : Place)
  /-- engine window k (0–3 Maelhoavo, 4–5 hash, 6–7 block cipher, 8 randomness, 9 DMA), at an offset -/
  | window (k off : Nat)
  | csr (n : Nat)
  /-- management map: boot ROM, working space, hub block registers -/
  | rom (off : Nat)
  | work (off : Nat)
  | hub (off : Nat)
  | nowhere
  deriving DecidableEq, Repr

/-- The range [a, a + n) lies in [base, base + size). -/
def inside (a n base size : Nat) : Bool := base ≤ a && a + n ≤ base + size

/-- The map of level A (R99–R101), for an access of n bytes at a by core c. -/
def actPlace (s : State) (c a n : Nat) : Where :=
  let x := core s c
  let r := ringOf c
  if 2 ^ 28 ≤ a then .nowhere
  else if inside a n 0 0x40000 then .mem (.loc c a)
  else if inside a n 0x1000000 0x380000 then
    if inside a n x.wsBase x.wsSize || x.grants.any (fun g => g.staging && inside a n g.base g.size) then .mem (.ring r (a - 0x1000000))
    else if x.grants.any (fun g => inside a n g.base g.size) then .readOnly (.ring r (a - 0x1000000))
    else .nowhere
  else if inside a n 0x1380000 0x80000 then
    if inside a n x.imgBase x.imgSize then .readOnly (.ring r (a - 0x1000000)) else .nowhere
  else if inside a n 0x8000000 0xA0000 then .window ((a - 0x8000000) / 0x10000) (a % 0x10000)
  else if inside a n 0xF000000 0x8000 then
    if n = 8 ∧ a % 8 = 0 then .csr ((a - 0xF000000) / 8) else .nowhere
  else .nowhere

/-- The map of level F (R122). -/
def fwPlace (a n : Nat) : Where :=
  if inside a n 0 0x10000 then .rom a
  else if inside a n 0xF000000 0x8000 then
    if n = 8 ∧ a % 8 = 0 then .csr ((a - 0xF000000) / 8) else .nowhere
  else if inside a n 0x10000000 0x3C0000 then .work (a - 0x10000000)
  else if inside a n 0x20000000 0xC00000 then .hub (a - 0x20000000)
  else .nowhere

def place (s : State) (c a n : Nat) : Where := if c = mgmtCore then fwPlace a n else actPlace s c a n

/-- The act may read, or write, the byte at a core address (R99, R100). -/
def byteOk (s : State) (c : Nat) (write : Bool) (a : Nat) : Bool :=
  match actPlace s c a 1 with
  | .mem _ => true
  | .readOnly _ => !write
  | _ => false

/-- The place of a range, or the lowest address that fails. -/
def rangePlace (s : State) (c a n : Nat) (write : Bool) : Except W64 Place :=
  match actPlace s c a n with
  | .mem p => .ok p
  | .readOnly p => if write then .error (BitVec.ofNat 64 a) else .ok p
  | _ =>
    match (List.range n).find? (fun k => !byteOk s c write (a + k)) with
    | some k => .error (BitVec.ofNat 64 (a + k))
    | none =>
      match actPlace s c a 1 with
      | .mem p => .ok p
      | .readOnly p => .ok p
      | _ => .error (BitVec.ofNat 64 a)

/-- The place, in an act memory, of n bytes at an address that need not be aligned, or the lowest address that fails. -/
def memPlace (s : State) (c a n : Nat) (write : Bool) : Except W64 Place :=
  match place s c a n with
  | .mem p => .ok p
  | .readOnly p => if write then .error (BitVec.ofNat 64 a) else .ok p
  | _ => if c = mgmtCore then .error (BitVec.ofNat 64 a) else rangePlace s c a n write

/-- A source line is tagged as a share. -/
def anyShare (s : State) (p : Place) (n : Nat) : Bool := (lineTags s p n).any (fun t => t.isShare)

/-- A fetch lies in the act's own image, or in a management core's boot ROM or working space (R99, R110, R122). -/
def fetchable (s : State) (c a : Nat) : Bool :=
  if c = mgmtCore then inside a 4 0 0x10000 || inside a 4 0x10000000 0x3C0000
  else inside a 4 (core s c).imgBase (core s c).imgSize

end Sys2Proof.Machine
end

