-- ==== Sys2Proof/Machine/Flags.lean ====
section
/-!
DEFINITION. The computed marks of a result: carry and borrow (R105), comparison conditions (R110, R141), and the secret
tag that an instruction's result takes from its sources (R177–R179).
-/
namespace Sys2Proof.Machine

open Sys2Proof

/-- Carry out of the 64-bit sum (R105). -/
def carry (a b : W64) : W64 := if 2 ^ 64 ≤ a.toNat + b.toNat then 1 else 0
/-- Borrow of the 64-bit difference (R105). -/
def borrow (a b : W64) : W64 := if a.toNat < b.toNat then 1 else 0

/-- Branch conditions BEQ, BNE, BLT, BGE, BLTU, BGEU, by opcode less 0x20 (R104, R110). -/
def branchTaken (k : Nat) (a b : W64) : Bool :=
  match k with
  | 0 => a == b
  | 1 => a != b
  | 2 => a.slt b
  | 3 => !a.slt b
  | 4 => a.ult b
  | _ => !a.ult b

/-- VCMPEQ, NE, LTU, LT, GEU, GE, by funct, on elements of width w (R141). -/
def vcmp (k w a b : Nat) : Bool :=
  match k with
  | 0 => a == b
  | 1 => a != b
  | 2 => a < b
  | 3 => signed w a < signed w b
  | 4 => b ≤ a
  | _ => signed w b ≤ signed w a

/-- A predicate's tag as a tag code. -/
def predTag (t : Bool) : Tag := if t then .secret else .pub

/-- Join of all sources of a move; none where an instruction must raise TAGGED_OPERAND (R177). -/
def joinAll : List Tag → Option Tag
  | [] => some .pub
  | t :: r => (joinAll r).bind t.join

/-- Result tag of an instruction that is neither a move nor one of the special rows (R178). -/
def mixTag (ts : List Tag) : Tag := if ts.all (· == .pub) then .pub else .secret

/-- Result tag of XOR, XORI, VXOR: exactly one non-PUBLIC source, tagged PINF, gives PINF (R178). -/
def xorTag (ts : List Tag) : Tag :=
  if ts.filter (· != .pub) = [.pinf] then .pinf else mixTag ts

/-- Result tag of CMOVNZ (R178): a, b and the old destination. -/
def cmovTag (a b d : Tag) : Option Tag := if a = .pub then b.join d else some .secret

end Sys2Proof.Machine
end

