-- ==== Sys2Proof/Machine/Micro.lean ====
section
/-!
DEFINITION. Control words, match registers and the next address of a micro-word (R153–R157, R159, R165–R167). How a routine runs stands in
`Machine/MicroRun.lean`.
-/
namespace Sys2Proof.Machine

open Sys2Proof

/-! ### Match registers (R165) and control words (R155) -/

def matchEn (m : W32) : Bool := bit m 31
def matchRom (m : W32) : Nat := field m.toNat 8 12
def matchTarget (m : W32) : Nat := field m.toNat 0 7

def cwNext (w : BitVec 160) : Nat := field w.toNat 147 13
def cwSeq (w : BitVec 160) : Nat := field w.toNat 144 3
/-- Condition source k, 0–3. -/
def cwCond (w : BitVec 160) (k : Nat) : Nat := field w.toNat (128 + 4 * k) 4
def cwAlu (w : BitVec 160) : Nat := field w.toNat 120 8
def cwSrcA (w : BitVec 160) : Nat := field w.toNat 112 8
def cwSrcB (w : BitVec 160) : Nat := field w.toNat 104 8
def cwDst (w : BitVec 160) : Nat := field w.toNat 96 8
def cwImm (w : BitVec 160) : Nat := field w.toNat 80 16
def cwMem (w : BitVec 160) : Nat := field w.toNat 72 8
def cwVec (w : BitVec 160) : Nat := field w.toNat 64 8
def cwEng (w : BitVec 160) : Nat := field w.toNat 56 8
def cwTag (w : BitVec 160) : Nat := field w.toNat 48 8
def cwCnt (w : BitVec 160) : Nat := field w.toNat 40 8
def cwCommitG (w : BitVec 160) : Bool := field w.toNat 39 1 == 1
def cwCommitC (w : BitVec 160) : Bool := field w.toNat 38 1 == 1
def cwCommitV (w : BitVec 160) : Bool := field w.toNat 37 1 == 1
def cwCommitM (w : BitVec 160) : Bool := field w.toNat 36 1 == 1
def cwHold (w : BitVec 160) : Bool := field w.toNat 35 1 == 1
def cwRand (w : BitVec 160) : Nat := field w.toNat 16 16
def cwReserved (w : BitVec 160) : Nat := field w.toNat 0 16 + field w.toNat 32 3

/-- Some match register redirects. Without one, the cores run from ROM alone. -/
def patched (s : State) : Bool := s.patch.matchReg.any (fun m => matchEn m.2)

/-- The word of core c at a micro-address (R153, R173): ROM below 0x1000, patch RAM from there, which a management core has not. -/
def microWord (s : State) (c a : Nat) : BitVec 160 :=
  if c = mgmtCore then Config.mgmtRomWord a
  else if a < 0x1000 then Config.romWord a
  else Table.get 0 s.patch.ram (a - 0x1000)

/-- The protected region of the ROM (R167). -/
def isProtected (a : Nat) : Bool := 0xF00 ≤ a && a ≤ 0xFFF

/-- The match registers on a next address formed by the word at `at_` (R166). -/
def redirect (s : State) (at_ a : Nat) : Nat :=
  if 0x1000 ≤ at_ ∨ 0xEFF < a then a
  else match s.patch.matchReg.find? (fun m => matchEn m.2 && matchRom m.2 == a) with
    | some m => 0x1000 + matchTarget m.2
    | none => a

/-- What sequencing a word gives: a next address and the micro-stack, the end of the instruction, or a micro-fault. -/
inductive MicroNext where
  | go (a : Nat) (stack : List (BitVec 13))
  | done
  | fault

/-- The next address by SEQ (R156), with the values of the sources that C0 to C3 select. A WAITC word is sequenced once its source is 1. -/
def microNext (r : W32) (cond : Nat → Bool) (at_ : Nat) (stack : List (BitVec 13)) (w : BitVec 160) : MicroNext :=
  let next := cwNext w
  let or (k : Nat) : Nat := if cond k then 2 ^ k else 0
  match cwSeq w with
  | 0 => .go next stack
  | 1 => .go (next ||| or 0 ||| or 1 ||| or 2 ||| or 3) stack
  | 2 => if stack.length < 4 then .go next (BitVec.ofNat 13 (at_ + 1) :: stack) else .fault
  | 3 => match stack with
    | [] => .fault
    | a :: rest => .go a.toNat rest
  | 4 => .go (Config.decodeMap (opcode r) (fFunct r) % 2 ^ 13) stack
  | 5 => .go next stack
  | 6 => .done
  | _ => .fault

/-- A patch RAM word that a micro-fault forbids (R167). -/
def patchWordBad (w : BitVec 160) : Bool :=
  (0xD0 ≤ cwTag w && cwTag w ≤ 0xDF) || Config.tagClears (cwTag w) || Config.dstForbidden (cwDst w)

end Sys2Proof.Machine
end

