-- ==== Sys2Proof/Machine/Issue.lean ====
section
/-!
DEFINITION. Reporting an event, the end of an act, and how a core issues one instruction: the fetch check, the order of
causes (R119), the delivery of a pending vector fault (R147), and TAKING AN EXCEPTION (R120, R122).
-/
namespace Sys2Proof.Machine

open Sys2Proof

/-! ### Cause codes (R119, R151) -/
def cIllegal : Byte := 0x01
def cMisaligned : Byte := 0x02
def cAccess : Byte := 0x03
def cTagged : Byte := 0x04
def cBreak : Byte := 0x05
def cBadExit : Byte := 0x06
def cVAccess : Byte := 0x10
def cVMisaligned : Byte := 0x11

/-! ### Status codes (R58) -/
def stDone : Byte := 0x00
def stSigInvalid : Byte := 0x01
def stDeferred : Byte := 0x10
def stQuota : Byte := 0x11
def stOverload : Byte := 0x12
def stNotReady : Byte := 0x13
def stUnreachable : Byte := 0x14
def stPassed : Byte := 0x15
def stInvalid : Byte := 0x20
def stNotOnCurve : Byte := 0x21
def stParams : Byte := 0x22
def stDecode : Byte := 0x23
def stAborted : Byte := 0x30
def stNothing : Byte := 0x31
def stNotValidNow : Byte := 0x40
def stUsage : Byte := 0x41
def stNotResident : Byte := 0x42
def stIntegrity : Byte := 0x50
def stInstReset : Byte := 0x51
def stBlocked : Byte := 0x52
def stSafetyNet : Byte := 0x60
def stUnitRetired : Byte := 0x61

/-! ### UNIT codes (R432) -/
def unitCore (c : Nat) : Half := BitVec.ofNat 16 (if c = mgmtCore then 0x1100 else 0x1000 + c)
def unitRing (r : Nat) : Half := BitVec.ofNat 16 (0x2000 + r)
def unitEngine (r e : Nat) : Half := BitVec.ofNat 16 (0x3000 + 16 * r + e)
def unitHop (h : Nat) : Half := BitVec.ofNat 16 (0x4000 + h)
def unitKind (u : Half) : Nat := field u.toNat 12 4
def unitIdx (u : Half) : Nat := field u.toNat 0 12

/-- The event names the ticket: its gravest class is kept for byte 9 (R429). F0 is not reported there. -/
def touch (tid : Nat) (cls : FaultClass) (s : State) : State :=
  modTicket tid (fun t => { t with fault := max t.fault cls.rank }) s

/-- Fill an event's ticket fields (R431). -/
def Event.naming (ev : Event) (t : Ticket) : Event :=
  { ev with act := t.act, iid := if t.device then 0xFFFF else BitVec.ofNat 16 t.iid, tag := t.tag }

/-- A unit's event reaches the collector outside Lockdown, in a class below F5 (R434). In Lockdown it only counts
(R443). The F5 path is `lockdown`. -/
def report (ev : Event) (s : State) : State :=
  if s.fc.lock then
    (if ev.cls = .f5 then bump 0x400240 0 8 s else bump (fcCnt ev.cls) 0 32 s)
  else enqueueEvent (stamped ev s) s

/-- An F0 Notice of a register access that is ignored or refused (R508): source, BAR offset, value, tenant or none. -/
def ignoredWrite (source : Byte) (off : Nat) (v : W64) (iid : Option Nat) (s : State) : State :=
  report { cls := .f0, source := source, cause := 0x0A, addr := BitVec.ofNat 64 off, detail0 := v,
           iid := (iid.map (BitVec.ofNat 16)).getD 0xFFFF } s

/-- A state notice (CAUSE 0x0B): the status register whose field changed, and its new value. -/
def stateNotice (source : Byte) (unit : Half) (reg : Nat) (v : W64) (s : State) : State :=
  report { cls := .f0, source := source, unit := unit, cause := 0x0B, detail0 := BitVec.ofNat 64 reg, detail1 := v } s

/-- A block's clock gate opens on work for it (R385). -/
def openGate (u : Half) (s : State) : State :=
  { s with clk := { s.clk with gates := Table.set false s.clk.gates u.toNat true } }

/-- The act on core c ends with this status and output length; its commit signal follows when its transfers and
commands have finished (R55, R113). A ticket that is being stopped keeps its status. Where two read transfers of a ticket fail, the later
one decides the status; the fault class stays the gravest (DESIGN CHOICE, assumption 104). -/
def endAct (c : Nat) (status : Byte) (len : W32) (s : State) : State :=
  let x := core s c
  if (ticketOn s c).any (fun t => t.phase == .running c) then
    setCore c { x with run := .exiting status len, stallFrom := some (coreNow s c) } s
  else s

/-- The act ends for an F2 fault of the ticket's own operation: fault class 0x02 and the event (R27, R59, R120). -/
def endActFault (c : Nat) (status : Byte) (ev : Event) (s : State) : State :=
  match ticketOn s c with
  | some t => endAct c status 0 (report (Event.naming ev t) (touch t.id .f2 s))
  | none => s

/-- A routine that waited is left: an exception is taken in its place. -/
def endWaiting (c : Nat) (s : State) : State :=
  let y := corex s c
  if y.micro.waiting.isSome then setCorex c { y with micro := { y.micro with waiting := none } } s else s

/-- TAKING AN EXCEPTION. Level A (R120): with a handler and none running, TRAPPC, TRAPCAUSE and TRAPVAL are set,
TRAPACTIVE becomes 1 and execution continues at TRAPVEC; otherwise the act ends, the ticket commits INVALID_INPUT with
fault class 0x02, and an F2 event names it. Level F (R122, R435): without a handler, or in one, it is an F4 event and
both management cores are held in reset. A delivered vector fault puts VFADDR and VFMASK into the event (R147). -/
def takeTrap (c : Nat) (cause : Byte) (val : W64) (vector : Bool) (s : State) : State :=
  let s := endWaiting c s
  let x := core s c
  let u := (corex s c).vec
  if x.trap.vec ≠ 0 ∧ x.trap.active = false then
    setCore c { x with
      trap := { x.trap with cause := cause.setWidth 64, pc := x.pc, val := val, active := true },
      pc := x.trap.vec } s
  else
    let ev : Event :=
      { cls := .f2, source := 0x08, unit := unitCore c, cause := 0x06, addr := val,
        detail0 := if vector then u.faddr else x.pc,
        detail1 := BitVec.ofNat 64 (cause.toNat + (if vector then u.mask.toNat * 2 ^ 32 else 0)) }
    if c = mgmtCore then
      report { ev with cls := .f4, source := 0x1E } { s with mgmt := { s.mgmt with held := true } }
    else endActFault c stInvalid ev s

/-- Deliver the pending vector fault as a precise exception of the present instruction (R147). -/
def deliverVector (c : Nat) (s : State) : State :=
  let y := corex s c
  takeTrap c y.vec.cause y.vec.fval true (setCorex c { y with vec := { y.vec with pending := false } } s)

/-- What one instruction does. -/
inductive IRes where
  /-- it completes, and the next instruction lies at pc -/
  | ok (s : State) (pc : W64)
  /-- it raises an exception, having changed nothing (R119) -/
  | exc (cause : Byte) (val : W64)
  /-- it does not issue yet; whether CTCYCLE leaves the wait out (R199) -/
  | stall (excluded : Bool)
  /-- its routine ends in a micro-fault at this micro-address, the words before it executed (R158) -/
  | micro (addr : Nat) (s : State)
  /-- a word of its routine raises an exception, the words before it executed (R158) -/
  | trapped (s : State) (cause : Byte) (val : W64)
  /-- its routine has come to a word that waits, with this state (R156) -/
  | held (s : State)

/-- The core may issue. In Lockdown none does (R443). A ring core runs an act and is neither in a trap routine nor in a release; the
management pair is neither held, nor suspended by a VERIFY (R460), nor in WAIT, nor in its one
micro-trap (R173). -/
def mayIssue (s : State) (c : Nat) : Bool :=
  if s.fc.lock then false
  else if c = mgmtCore then !s.mgmt.held && !s.lcs.verifying && decide ((core s c).run ≠ .waiting) && !(corex s c).micro.trapped
  else corePresent s c && decide ((core s c).run = .running) && (ticketOn s c).isSome
    && !(corex s c).micro.trapped && !(corex s c).micro.faulted && (corex s c).dcl.going.isNone

/-- A counted stall begins or goes on (R199). -/
def stallBegin (c : Nat) (s : State) : State :=
  let x := core s c
  setCore c { x with stallFrom := some (x.stallFrom.getD (coreNow s c)) } s

/-- A stall that CTCYCLE leaves out ends here. -/
def Core.stallEnd (x : Core) (now : Nat) : Core :=
  { x with stalled := (x.stalled + (now - x.stallFrom.getD now)), stallFrom := none }

/-- An exception of cause and value at core c: a pending vector fault is delivered in its place; while checks are
outstanding the instruction waits (R147). -/
def raise (c : Nat) (cause : Byte) (val : W64) (s : State) : State :=
  let u := (corex s c).vec
  if u.checks ≠ [] then s
  else if u.pending then deliverVector c s
  else takeTrap c cause val false s

/-- A control word of the core is being re-read (R154). -/
def controlReread (s : State) (c : Nat) : Bool := s.fabric.rereads.any (fun q => q.mem == .controlStore c)

/-- The core's fetch waits for a re-read of its line or of a control word, a delay of R27 that no operation's cycles count (R32). -/
def fetchReread (s : State) (c : Nat) : Bool :=
  controlReread s c || s.fabric.rereads.any (fun q => q.core == some c && (match q.mem with
    | .actStore _ => true
    | _ => false))

/-- The line that holds the instruction waits for firmware to rewrite it (R29). -/
def fetchHeld (s : State) (c pc : Nat) : Bool :=
  c != mgmtCore && s.fabric.rewrite.any (fun q => q.1 == ringOf c && q.2.toNat == (pc - 0x1000000) / 64 * 64)

/-- An interrupt of the management pair, between instructions: INTPC takes the next instruction's address, INTACTIVE becomes 1, and
execution continues at INTVEC (R122). -/
def deliverInt (s : State) : State :=
  let m := s.mgmt
  let x := core s mgmtCore
  if m.intPend &&& m.intMask ≠ 0 ∧ m.intActive = false ∧ m.held = false ∧ x.run ≠ .waiting then
    setCore mgmtCore { x with pc := m.intVec } { s with mgmt := { m with intPc := x.pc, intActive := true } }
  else s

/-- What follows an instruction of core c: on the management pair a pending interrupt. An exception has gone first (R122). -/
def afterInstr (c : Nat) (s : State) : State := if c = mgmtCore then deliverInt s else s

/-- A micro-fault (R168): an F3 event names the core, the micro-address and the patch; the core stops, and the record of the event
retires it. -/
def takeMicroFault (c addr : Nat) (s : State) : State :=
  let y := corex s c
  report { cls := .f3, source := 0x07, unit := unitCore c, cause := 0x07, addr := BitVec.ofNat 64 addr,
           detail0 := s.patch.version.setWidth 64 }
    (setCorex c { y with micro := { y.micro with pc := BitVec.ofNat 13 addr, faulted := true, waiting := none } } s)

/-- The instruction has completed: a stall ends, the next instruction lies at pc, INSTRET counts. A management pair that its own
instruction has put into reset stays as it is. -/
def completed (c now : Nat) (pc : W64) (s : State) : State :=
  let x := core s c
  let x := if x.run = .running ∨ c = mgmtCore then x.stallEnd now else x
  if c = mgmtCore ∧ s.mgmt.held then s else setCore c { x with pc := pc, instret := x.instret + 1 } s

/-- Issue one instruction on core c: fetch check first (R119), then the waiting and the delivery that a block end or
VFENCE asks for (R147), then the instruction. -/
def issue (c : Nat) (blockEnd : Bool) (body : Core → IRes) (s : State) : State :=
  if mayIssue s c = false then s
  else afterInstr c (
    let x := core s c
    let u := (corex s c).vec
    if x.pc.toNat % 4 ≠ 0 then raise c cMisaligned x.pc s
    else if fetchable s c x.pc.toNat = false then raise c cAccess x.pc s
    else if fetchReread s c then stallBegin c s
    else if fetchHeld s c x.pc.toNat then s
    else if blockEnd ∧ u.checks ≠ [] then s
    else if blockEnd ∧ u.pending then deliverVector c s
    else
      match body x with
      | .exc cause val => raise c cause val s
      | .micro addr s' => takeMicroFault c addr s'
      | .trapped s' cause val => raise c cause val s'
      | .stall excluded => if excluded then stallBegin c s else s
      | .held s' => s'
      | .ok s' pc' => completed c (coreNow s c) pc' s')

/-! ### Which command an instruction word belongs to (R104, R111, R135, R140–R142) -/

/-- The instruction rows of the opcode table. -/
inductive Klass where
  | regArith | divide | immArith | shi | liz | lik | load | store | ldm | stm | branch | jmpl | jmplr
  | csrr | csrw | csrs | csrc | exit | wait | fence | tret | brk | iret | keyget | formget | formput
  | vecAlu | vecMod | vecReduce | vecGf | vsxor | vsand | vsadd | vsmmul | vsref | vsa2b | vsb2a
  | vecPred | vfence | vld | vlds | vldx | vst | vsts | vstx | firstFault
  | illegal
  deriving DecidableEq, Repr

def klass (w : W32) : Klass :=
  let op := opcode w
  if op = 0x01 then (if 0x030 ≤ fFunct w ∧ fFunct w ≤ 0x033 then .divide else .regArith)
  else if 0x02 ≤ op ∧ op ≤ 0x07 then .immArith
  else if op = 0x08 then .shi
  else if op = 0x09 then .liz
  else if op = 0x0A then .lik
  else if 0x10 ≤ op ∧ op ≤ 0x16 then .load
  else if 0x18 ≤ op ∧ op ≤ 0x1B then .store
  else if op = 0x1E then .ldm
  else if op = 0x1F then .stm
  else if 0x20 ≤ op ∧ op ≤ 0x25 then .branch
  else if op = 0x28 then .jmpl
  else if op = 0x29 then .jmplr
  else if op = 0x2C then .csrr
  else if op = 0x2D then .csrw
  else if op = 0x2E then .csrs
  else if op = 0x2F then .csrc
  else if op = 0x30 then
    match fFunct w with
    | 1 => .exit | 2 => .wait | 3 => .fence | 4 => .tret | 5 => .brk | 6 => .iret
    | 8 => .keyget | 9 => .formget | 10 => .formput | _ => .illegal
  else if op = 0x38 ∨ op = 0x39 then .vecAlu
  else if op = 0x3A then .vecMod
  else if op = 0x3B then .vecReduce
  else if op = 0x3C then .vecGf
  else if op = 0x3D then
    match vFunct w with
    | 0 => .vsxor | 1 => .vsand | 2 => .vsadd | 3 => .vsmmul | 4 => .vsref | 5 => .vsa2b | 6 => .vsb2a | _ => .illegal
  else if op = 0x3E then
    match vMode w with
    | 0 => if bit w 5 then .firstFault else .vld
    | 1 => if bit w 5 then .firstFault else .vlds
    | 2 => if bit w 5 then .firstFault else .vldx
    | 4 => .vst | 5 => .vsts | 6 => .vstx | _ => .illegal
  else if op = 0x3F then (if vFunct w = 0x1F then .vfence else .vecPred)
  else .illegal

/-- Opcodes 0x38–0x3F, which a management core does not have (R104). -/
def isVector (w : W32) : Bool := 0x38 ≤ opcode w

/-- Block ends: opcodes 0x20–0x29 and 0x30 (R147). -/
def isBlockEnd (w : W32) : Bool := (0x20 ≤ opcode w && opcode w ≤ 0x29) || opcode w == 0x30 || klass w == .vfence

/-- The instruction only writes g register d. -/
def retG (c : Nat) (x : Core) (s : State) (d : Nat) (v : W64) (t : Tag) : IRes :=
  .ok (setCore c (x.wg d v t) s) (x.pc + 4)

/-- A scalar source register tagged as a share may not be read outside opcode 0x3D (R179). -/
def shareRead (x : Core) (rs : List Nat) : Bool := rs.any (fun r => (x.tagG r).isShare)

end Sys2Proof.Machine
end

