-- ==== Sys2Proof/Machine/Frames.lean ====
section
/-!
DEFINITION. Frames of the network ports: addresses, headers and checksums that a port builds (R320), the neighbour cache
(R321), the transmit queue, hardware timestamps (R324, R327–R329), and the lines that frames hold (R323, R349).
-/
namespace Sys2Proof.Machine

open Sys2Proof

/-! ### Bytes -/

/-- Replace the bytes from offset `o`. -/
def splice (l : List Byte) (o : Nat) (b : List Byte) : List Byte := l.take o ++ b ++ l.drop (o + b.length)

/-- Sum of the big-endian 16-bit words of a list. -/
def wordSum : List Byte → Nat
  | [] => 0
  | [a] => a.toNat * 256
  | a :: b :: r => a.toNat * 256 + b.toNat + wordSum r

def foldSum (n : Nat) : Nat :=
  let a := n / 65536 + n % 65536
  let b := a / 65536 + a % 65536
  b / 65536 + b % 65536

/-- The Internet checksum of a list with its checksum field zero. -/
def inetSum (l : List Byte) : Nat := 65535 - foldSum (wordSum l)

/-! ### Addresses and headers (R320, R330) -/

def ipAt (l : List Byte) (o : Nat) : Ip := BitVec.ofNat 128 (beNat (slice l o 16))
def ip4Of (a : W32) : Ip := BitVec.ofNat 128 (0xFFFF * 2 ^ 32 + a.toNat)
def isV4 (a : Ip) : Bool := a.toNat / 2 ^ 32 == 0xFFFF
def v4Bytes (a : Ip) : List Byte := be 4 (a.toNat % 2 ^ 32)

/-- The link-local address of a port: fe80::/64 with the modified EUI-64 of its MAC address. -/
def linkLocal (mac : BitVec 48) : Ip :=
  let m := mac.toNat
  BitVec.ofNat 128 (0xFE80 * 2 ^ 112
    + Nat.xor (m / 2 ^ 24) (2 ^ 17) * 2 ^ 40 + 0xFFFE * 2 ^ 24 + m % 2 ^ 24)

/-- The solicited-node multicast address of an IPv6 address, and the MAC address 33-33-xx-xx-xx-xx of a multicast one. -/
def solicited (a : Ip) : Ip := BitVec.ofNat 128 (0xFF02 * 2 ^ 112 + 0x1FF * 2 ^ 24 + a.toNat % 2 ^ 24)
def multicastMac (a : Ip) : BitVec 48 := BitVec.ofNat 48 (0x3333 * 2 ^ 32 + a.toNat % 2 ^ 32)

def netReg (p off : Nat) : Nat := 0x601000 + 0x200 * p + off
def netPort (s : State) (p : Nat) : Port := Table.get {} s.net.port p
def setPort (p : Nat) (x : Port) (s : State) : State :=
  { s with net := { s.net with port := Table.set {} s.net.port p x } }
/-- Count in a counter of the port (all 32 bits wide, R330). -/
def portCount (p off : Nat) (s : State) : State := bump (netReg p off) 0 32 s
/-- Codewords that FEC corrected in a frame, and those that it could not (R330). -/
def fecCount (p : Nat) (r : FrameRead) (s : State) : State :=
  bumpN (netReg p 0xA8) 0 32 r.uncorrected (bumpN (netReg p 0xA4) 0 32 r.corrected s)

/-- The port is present in its pair's mode (R314). -/
def portPresent (s : State) (p : Nat) : Bool :=
  let m := field s.net.pair.toNat (2 * (p / 2)) 2
  p < 8 && (m == 2 || (m == 1 && p % 2 == 0))

/-- The IPv6 addresses may be used: duplicate address detection is over and found nothing (R322). -/
def Port.v6Usable (x : Port) : Bool := !x.dadFail && !x.tentative

/-- An IPv4 header for `len` bytes that follow: IHL 5, DSCP, ECN 0, identification 0, DF, TTL HOPS (R320). -/
def ip4Header (x : Port) (proto len : Nat) (dst : Ip) : List Byte :=
  let h (sum : Nat) : List Byte :=
    [0x45, BitVec.ofNat 8 (4 * x.dscp.toNat)] ++ be 2 (20 + len) ++ be 2 0 ++ be 2 0x4000
      ++ [x.hops, BitVec.ofNat 8 proto] ++ be 2 sum ++ be 4 x.ip4.toNat ++ v4Bytes dst
  h (inetSum (h 0))

/-- An IPv6 header: traffic class DSCP << 2, flow label 0, hop limit (R320). -/
def ip6Header (x : Port) (next len hop : Nat) (src dst : Ip) : List Byte :=
  be 4 (6 * 2 ^ 28 + 4 * x.dscp.toNat * 2 ^ 20) ++ be 2 len ++ [BitVec.ofNat 8 next, BitVec.ofNat 8 hop]
    ++ be 16 src.toNat ++ be 16 dst.toNat

/-- The pseudo-header of a checksum over IPv4 or IPv6. -/
def pseudo (v6 : Bool) (src dst : Ip) (proto len : Nat) : List Byte :=
  if v6 then be 16 src.toNat ++ be 16 dst.toNat ++ be 4 len ++ be 4 proto
  else v4Bytes src ++ v4Bytes dst ++ [0, BitVec.ofNat 8 proto] ++ be 2 len

/-- The source address a port uses toward a destination. -/
def Port.srcFor (x : Port) (dst : Ip) : Ip :=
  if isV4 dst then ip4Of x.ip4
  else if x.ip6 = 0 ∨ dst.toNat / 2 ^ 118 = 0x3FA then linkLocal x.mac else x.ip6

/-- Ethertype and bytes of a UDP datagram. Every UDP checksum is computed; a computed 0 is sent as 0xFFFF. -/
def udpBody (x : Port) (srcPort : Nat) (dst : Ip) (dstPort : Nat) (payload : List Byte) : Half × List Byte :=
  let src := x.srcFor dst
  let len := 8 + payload.length
  let u (sum : Nat) : List Byte := be 2 srcPort ++ be 2 dstPort ++ be 2 len ++ be 2 sum ++ payload
  let sum := inetSum (pseudo (!isV4 dst) src dst 17 len ++ u 0)
  let u := u (if sum = 0 then 0xFFFF else sum)
  if isV4 dst then (0x0800, ip4Header x 17 len dst ++ u)
  else (0x86DD, ip6Header x 17 len x.hops.toNat src dst ++ u)

/-- Ethertype and bytes of an ICMPv6 message; its hop limit is HOPS, as that of every frame the port builds (R320). -/
def icmp6Body (x : Port) (src dst : Ip) (msg : List Byte) : Half × List Byte :=
  let sum := inetSum (pseudo true src dst 58 msg.length ++ msg)
  (0x86DD, ip6Header x 58 msg.length x.hops.toNat src dst ++ splice msg 2 (be 2 sum))

/-- The hop a frame to `dst` is resolved through (R320); none when it needs a gateway and there is none. -/
def nextHop (x : Port) (dst : Ip) : Option Ip :=
  let len := if isV4 dst then x.prefix4.toNat + 96 else x.prefix6.toNat
  let own := if isV4 dst then ip4Of x.ip4 else x.ip6
  if dst.toNat / 2 ^ (128 - len) = own.toNat / 2 ^ (128 - len) then some dst
  else if isV4 dst then (if x.gw4 = 0 then none else some (ip4Of x.gw4))
  else if x.gw6 = 0 then none else some x.gw6

/-- Bytes of the frame on the wire from the destination address to the FCS, padded to 64 (R353). -/
def wireLen (x : Port) (f : TxFrame) : Nat := max 64 (18 + (if x.tagged then 4 else 0) + f.body.length)

/-- The frame as it leaves, without its FCS: source address the port's, tag when TAGGED (R320). -/
def wireBytes (x : Port) (f : TxFrame) : List Byte :=
  be 6 (f.mac.getD 0).toNat ++ be 6 x.mac.toNat
    ++ (if x.tagged then be 2 0x8100 ++ be 2 (x.pcp.toNat * 2 ^ 13 + x.vid.toNat) else [])
    ++ be 2 f.ethertype.toNat ++ f.body

/-! ### Frame-area lines (R349) -/

def enabledPorts (s : State) : Nat := ((List.range 8).filter (fun p => (netPort s p).en)).length
/-- Lines of the refusal pool, of a port's reserve, and of the shared area. -/
def refusalLines : Nat := 1024
def reserveLines : Nat := 2048
def sharedLines (s : State) : Nat := 65536 - refusalLines - reserveLines * enabledPorts s
def linesFor (bytes : Nat) : Nat := (bytes + 63) / 64

/-- The lines of a frame that leaves or is dropped are free again. -/
def freeFrame (f : TxFrame) (s : State) : State :=
  match f.pool with
  | .none => s
  | .refusal => { s with dol := { s.dol with refusalUsed := s.dol.refusalUsed - f.lines } }
  | .shared => { s with dol := { s.dol with sharedUsed := s.dol.sharedUsed - f.lines } }

/-- The lines a received message holds are free again. -/
def freeLines (p reserved shared : Nat) (s : State) : State :=
  { s with dol := { s.dol with
      rxUsed := Table.set 0 s.dol.rxUsed p (Table.get 0 s.dol.rxUsed p - reserved),
      sharedUsed := s.dol.sharedUsed - shared } }

/-! ### The neighbour cache and the transmit queue (R321, R323) -/

def dolCnt (k : Nat) : Nat := 0x700040 + 4 * k
/-- DOL_CNT_LOST. -/
def dolLost (s : State) : State := bump (dolCnt 7) 0 32 s

/-- TX_NORESOLVE. -/
def noResolve (p : Nat) (f : TxFrame) (s : State) : State := freeFrame f (portCount p 0x98 s)

/-- A frame dropped for want of a link: counted in TX_DROP, one of the Dolid block in DOL_CNT_LOST too (R316, R341). -/
def dropUnlinked (p : Nat) (f : TxFrame) (s : State) : State :=
  let s := freeFrame f (portCount p 0x9C s)
  if f.bound.isSome then dolLost s else s

/-- A frame from an IPv6 address that the port may not use: duplicate detection failed, or is still running (R322, assumption 112). -/
def fromUnusable (x : Port) (f : TxFrame) : Bool :=
  f.ethertype == 0x86DD && !x.v6Usable && (ipAt f.body 8 == x.ip6 || ipAt f.body 8 == linkLocal x.mac)

/-- A frame joins its port's transmit queue, after those of every port that came before it (R353); with the link down, or from an
address that may not be used, it is dropped (R316, R322). -/
def enqueueTx (p : Nat) (f : TxFrame) (s : State) : State :=
  let x := netPort s p
  if fromUnusable x f then noResolve p f s
  else if x.link then
    let s := noteHeld (.frame p false x.tx.length) (setPort p { x with tx := x.tx ++ [{ f with order := s.net.frames }] } s)
    { s with net := { s.net with frames := s.net.frames + 1 } }
  else dropUnlinked p f s

/-- An ARP message of the port: 1 request, 2 reply. -/
def arpFrame (x : Port) (op : Nat) (dstMac : BitVec 48) (tMac : BitVec 48) (target : W32) : TxFrame :=
  { mac := some dstMac, ethertype := 0x0806,
    body := be 2 1 ++ be 2 0x0800 ++ [6, 4] ++ be 2 op ++ be 6 x.mac.toNat ++ be 4 x.ip4.toNat
      ++ be 6 tMac.toNat ++ be 4 target.toNat }

/-- A neighbour solicitation for `target`, to `dst` at `mac`, from `src` (0 in duplicate address detection). -/
def solicitFrame (x : Port) (mac : BitVec 48) (src dst target : Ip) : TxFrame :=
  let opt := if src = 0 then [] else ([1, 1] : List Byte) ++ be 6 x.mac.toNat
  let m := icmp6Body x src dst (([135, 0, 0, 0] : List Byte) ++ be 4 0 ++ be 16 target.toNat ++ opt)
  { mac := some mac, ethertype := m.1, body := m.2 }

/-- The request for an unknown or ageing address: broadcast or to the solicited-node address, or unicast (R321). -/
def askFrame (x : Port) (a : Ip) (unicast : Option (BitVec 48)) : TxFrame :=
  if isV4 a then arpFrame x 1 (unicast.getD 0xFFFFFFFFFFFF) 0 (BitVec.ofNat 32 a.toNat)
  else
    match unicast with
    | some m => solicitFrame x m (x.srcFor a) a a
    | none => solicitFrame x (multicastMac (solicited a)) (x.srcFor a) (solicited a) a

def secondTicks : Nat := 6000000000

/-- The least recently used entry that is not resolving. -/
def lruNeigh (l : List Neigh) : Option Neigh :=
  (l.filter (fun n => n.mac.isSome)).foldl
    (fun b n => match b with
      | none => some n
      | some m => if n.used < m.used then some n else some m) none

def modNeigh (a : Ip) (f : Neigh → Neigh) (l : List Neigh) : List Neigh :=
  l.map (fun n => if n.addr = a then f n else n)

/-- A frame whose hop is known by address only meets the neighbour cache (R321). Up to four are held per address; a fifth
is dropped and counted (assumption 20). -/
def resolveTx (p : Nat) (f : TxFrame) (s : State) : State :=
  let x := netPort s p
  let now := s.time.ticks
  if f.hop.toNat / 2 ^ 120 = 0xFF then enqueueTx p { f with mac := some (multicastMac f.hop) } s
  else if isV4 f.hop = false ∧ x.v6Usable = false then noResolve p f s
  else
  match x.neigh.find? (fun n => n.addr == f.hop) with
  | some n =>
    match n.mac with
    | some m =>
      let old : Bool := n.learned + 60 * secondTicks ≤ now && !n.refreshed
      let s := setPort p { x with
        neigh := modNeigh f.hop (fun n => { n with used := now, refreshed := n.refreshed || old }) x.neigh } s
      let s := if old then enqueueTx p (askFrame x f.hop (some m)) s else s
      enqueueTx p { f with mac := some m } s
    | none =>
      if n.held.length < 4 then
        setPort p { x with neigh := modNeigh f.hop (fun n => { n with held := n.held ++ [f] }) x.neigh } s
      else noResolve p f s
  | none =>
    let room : Option (List Neigh) :=
      if x.neigh.length < 1024 then some x.neigh
      else (lruNeigh x.neigh).map (fun v => x.neigh.filter (fun n => n.addr != v.addr))
    match room with
    | none => noResolve p f s
    | some l =>
      enqueueTx p (askFrame x f.hop none)
        (setPort p { x with neigh := l ++ [{ addr := f.hop, used := now, tries := 1, held := [f] }] } s)

/-- Send a frame to an IP destination: through the neighbour cache, or dropped for want of a gateway (R321). -/
def sendIp (p : Nat) (dst : Ip) (f : TxFrame) (s : State) : State :=
  match nextHop (netPort s p) dst with
  | none => noResolve p f s
  | some h => resolveTx p { f with hop := h } s

/-- An entry is learned or refreshed; frames held for it go out (R321). -/
def learn (p : Nat) (a : Ip) (m : BitVec 48) (s : State) : State :=
  let x := netPort s p
  let now := s.time.ticks
  match x.neigh.find? (fun n => n.addr == a) with
  | some n =>
    let s := setPort p { x with
      neigh := modNeigh a (fun n => { n with mac := some m, learned := now, refreshed := false, held := [], tries := 0 }) x.neigh } s
    n.held.foldl (fun s f => enqueueTx p { f with mac := some m } s) s
  | none =>
    let room : Option (List Neigh) :=
      if x.neigh.length < 1024 then some x.neigh
      else (lruNeigh x.neigh).map (fun v => x.neigh.filter (fun n => n.addr != v.addr))
    match room with
    | none => s
    | some l => setPort p { x with neigh := l ++ [{ addr := a, mac := some m, learned := now, used := now }] } s

/-! ### Timestamps (R324, R329) -/

/-- NT in 1/256 ns as it stands in this hub cycle, at whose end a step of it takes effect (R329, R360). -/
def stampNow (s : State) : Nat := s.rm.nt.toNat * 256 + s.rm.ntFrac.toNat / 2 ^ 24

/-- The timestamp at the reference plane: the pins, less the delay set (R324). -/
def stampAt (s : State) (lat : W32) : Nat := ((stampNow s : Int) - lat.toInt).toNat

end Sys2Proof.Machine
end

