-- ==== Sys2Proof/Machine/Points.lean ====
section
/-!
DEFINITION. Numbers modulo a prime, the points of short-Weierstrass curves (SP 800-186) and ECDSA (FIPS 186-5), as the acts of chapter 9 (R241,
R247), the custodian-card sessions (R403) and the co-signature of a seal record (R374) use them.
-/
namespace Sys2Proof.Machine

open Sys2Proof

def byteAt (l : List Byte) (o : Nat) : Nat := (l.getD o 0).toNat

/-! ### Numbers -/

/-- Big-endian number of a list of bytes, and the n big-endian bytes of a number. -/
def bigEndian (l : List Byte) : Nat := natOf l.reverse
def beBytes (n v : Nat) : List Byte := (bytesOf v n).reverse

/-- Bits of a number; bytes that hold it. -/
def bitLen (n : Nat) : Nat := if n = 0 then 0 else n.log2 + 1
def byteLen (n : Nat) : Nat := (bitLen n + 7) / 8

/-- The low n bits of v, from the top. -/
def bitsDown (n v : Nat) : List Bool := (List.range n).reverse.map (fun k => v.testBit k)

/-- b^e mod m. -/
def powMod (m b e : Nat) : Nat :=
  (bitsDown (bitLen e) e).foldl (fun x t => if t then x * x % m * b % m else x * x % m) (1 % m)
/-- a − b mod p, and 1/a mod a prime p. -/
def subMod (p a b : Nat) : Nat := (a + (p - b % p)) % p
def invMod (p a : Nat) : Nat := powMod p a (p - 2)

/-- A square root modulo a prime p that is 3 modulo 4 or 5 modulo 8. -/
def sqrtMod (p a : Nat) : Option Nat :=
  let x := if p % 4 = 3 then powMod p a ((p + 1) / 4) else powMod p a ((p + 3) / 8)
  let x := if x * x % p = a % p then x else x * powMod p 2 ((p - 1) / 4) % p
  if x * x % p = a % p then some x else none

/-- One Miller–Rabin round of n with a base: n − 1 = 2^z × odd. -/
def millerRabin (n base : Nat) : Bool :=
  let z := ((List.range (bitLen n)).find? (fun k => (n - 1).testBit k)).getD 0
  let x := powMod n base ((n - 1) / 2 ^ z)
  x == 1 || (List.range z).any (fun k => powMod n x (2 ^ k) == n - 1)

/-- Check 1 of R243: 64 Miller–Rabin rounds with the bases, and a strong Lucas test. -/
def primePasses (n : Nat) (base : Nat → Nat) : Bool :=
  decide (2 < n) && n % 2 == 1 && (List.range 64).all (fun k => millerRabin n (2 + base k % (n - 3))) && Config.strongLucas n

/-! ### Short-Weierstrass curves -/

/-- y² = x³ + ax + b over GF(p), generator, its order n, cofactor h. -/
structure WCurve where
  p : Nat
  a : Nat
  b : Nat
  gx : Nat
  gy : Nat
  n : Nat
  h : Nat := 1
  deriving DecidableEq, Repr

/-- P-256, P-384 and P-521 (SP 800-186). -/
def p256 : WCurve :=
  let p := 2 ^ 256 - 2 ^ 224 + 2 ^ 192 + 2 ^ 96 - 1
  { p := p, a := p - 3, b := 0x5AC635D8AA3A93E7B3EBBD55769886BC651D06B0CC53B0F63BCE3C3E27D2604B,
    gx := 0x6B17D1F2E12C4247F8BCE6E563A440F277037D812DEB33A0F4A13945D898C296,
    gy := 0x4FE342E2FE1A7F9B8EE7EB4A7C0F9E162BCE33576B315ECECBB6406837BF51F5,
    n := 0xFFFFFFFF00000000FFFFFFFFFFFFFFFFBCE6FAADA7179E84F3B9CAC2FC632551 }
def p384 : WCurve :=
  let p := 2 ^ 384 - 2 ^ 128 - 2 ^ 96 + 2 ^ 32 - 1
  { p := p, a := p - 3,
    b := 0xB3312FA7E23EE7E4988E056BE3F82D19181D9C6EFE8141120314088F5013875AC656398D8A2ED19D2A85C8EDD3EC2AEF,
    gx := 0xAA87CA22BE8B05378EB1C71EF320AD746E1D3B628BA79B9859F741E082542A385502F25DBF55296C3A545E3872760AB7,
    gy := 0x3617DE4A96262C6F5D9E98BF9292DC29F8F41DBD289A147CE9DA3113B5F0B8C00A60B1CE1D7E819D7A431D7C90EA0E5F,
    n := 0xFFFFFFFFFFFFFFFFFFFFFFFFFFFFFFFFFFFFFFFFFFFFFFFFC7634D81F4372DDF581A0DB248B0A77AECEC196ACCC52973 }
def p521 : WCurve :=
  let p := 2 ^ 521 - 1
  { p := p, a := p - 3,
    b := 0x51953EB9618E1C9A1F929A21A0B68540EEA2DA725B99B315F3B8B489918EF109E156193951EC7E937B1652C0BD3BB1BF073573DF883D2C34F1EF451FD46B503F00,
    gx := 0xC6858E06B70404E9CD9E3ECB662395B4429C648139053FB521F828AF606B4D3DBAA14B5E77EFE75928FE1DC127A2FFA8DE3348B3C1856A429BF97E7E31C2E5BD66,
    gy := 0x11839296A789A3BC0045C8A5FB42C7D1BD998F54449579B446817AFBD17273E662C97EE72995EF42640C550B9013FAD0761353C7086A272C24088BE94769FD16650,
    n := 2 ^ 521 - 0x5AE79787C40D069948033FEB708F65A2FC44A36477663B851449048E16EC79BF7 }

/-- A point; none is the point at infinity. -/
abbrev WPoint := Option (Nat × Nat)

def WCurve.add (c : WCurve) (u v : WPoint) : WPoint :=
  match u, v with
  | none, v => v
  | u, none => u
  | some (x₁, y₁), some (x₂, y₂) =>
    if x₁ = x₂ ∧ (y₁ + y₂) % c.p = 0 then none
    else
      let m := if x₁ = x₂ then (3 * x₁ * x₁ + c.a) % c.p * invMod c.p (2 * y₁ % c.p) % c.p
        else subMod c.p y₂ y₁ * invMod c.p (subMod c.p x₂ x₁) % c.p
      let x := subMod c.p (m * m) (x₁ + x₂)
      some (x, subMod c.p (m * subMod c.p x₁ x) y₁)
def WCurve.mul (c : WCurve) (k : Nat) (u : WPoint) : WPoint :=
  (bitsDown (bitLen k) k).foldl (fun r t => let d := c.add r r; if t then c.add d u else d) none
def WCurve.gen (c : WCurve) : WPoint := some (c.gx, c.gy)

def WCurve.on (c : WCurve) (x y : Nat) : Bool := y * y % c.p == (x * x * x + c.a * x + c.b) % c.p

/-- A SEC 1 uncompressed point: of its length, its first byte 0x04, coordinates below p, on the curve (R246, R247). -/
def WCurve.decode (c : WCurve) (l : List Byte) : WPoint :=
  let lp := byteLen c.p
  let x := bigEndian (slice l 1 lp)
  let y := bigEndian (slice l (1 + lp) lp)
  if l.length = 1 + 2 * lp ∧ byteAt l 0 = 4 ∧ x < c.p ∧ y < c.p ∧ c.on x y then some (x, y) else none
def WCurve.encode (c : WCurve) : WPoint → List Byte
  | none => [0]
  | some (x, y) => 0x04 :: beBytes (byteLen c.p) x ++ beBytes (byteLen c.p) y

/-! ### ECDSA -/

/-- The digest as an integer of bits(n) bits (FIPS 186-5). -/
def WCurve.digest (c : WCurve) (l : List Byte) : Nat := bigEndian l / 2 ^ (8 * l.length - bitLen c.n)

/-- A scalar from bits(n) + 64 random bits (FIPS 186-5, extra random bits). -/
def WCurve.scalar (c : WCurve) (random : Nat) : Nat := random % 2 ^ (bitLen c.n + 64) % (c.n - 1) + 1

/-- ECDSA under a nonce k: r, s. -/
def WCurve.sign (c : WCurve) (d z k : Nat) : Nat × Nat :=
  let r := match c.mul k c.gen with
    | some (x, _) => x % c.n
    | none => 0
  (r, invMod c.n k * ((z + r * d) % c.n) % c.n)
def WCurve.verify (c : WCurve) (q : WPoint) (r v z : Nat) : Bool :=
  let w := invMod c.n v
  match c.add (c.mul (z * w % c.n) c.gen) (c.mul (r * w % c.n) q) with
  | some (x, _) => x % c.n == r
  | none => false

end Sys2Proof.Machine
end

