-- ==== Sys2Proof/Machine/Network.lean ====
section
/-!
DEFINITION. The network block: ports and links (R314–R317), the decision of a received frame (R318, R319), address
resolution, duplicate detection and echo (R321, R322), and transmission through the Glove with PTP timestamps (R325–R329,
R351–R353).
-/
namespace Sys2Proof.Machine

open Sys2Proof

def unitPort (p : Nat) : Half := BitVec.ofNat 16 (0x6000 + p)

/-- NET_Pn_STATUS and NET_Pn_CTRL as read. -/
def Port.status (x : Port) : Nat :=
  pack [(b2n x.link, 31), (b2n x.anDone, 30), (b2n x.ltDone, 29), (b2n x.fecLock, 28), (b2n x.dadFail, 27),
    (b2n x.ip4Conflict, 26)]
def Port.ctrl (x : Port) : Nat :=
  pack [(b2n x.en, 31), (b2n x.an, 30), (b2n x.lt, 29), (b2n x.kr, 28), (b2n x.echo, 16)]

/-- The F0 Notice of a status change that names the port (R316, R322). -/
def portNotice (p : Nat) (s : State) : State := stateNotice 0x12 (unitPort p) (netReg p 4) (netPort s p).status s

/-! ### Enabling, links (R316, R317, R322) -/

def Port.withCtrl (x : Port) (d : W32) : Port := { x with an := bit d 30, lt := bit d 29, kr := bit d 28, echo := bit d 16 }

/-- A write of EN as 1 that R317 ignores. -/
def Port.enableBad (x : Port) : Bool :=
  x.mac == 0 || bit x.mac 40 || (x.tagged && (x.vid == 0 || x.vid == 0xFFF)) || (x.ip4 == 0 && x.ip6 == 0)

/-- PORT_ENABLE (R316, R317). The registers of an absent port ignore writes (R314). -/
def execPortEnable (p : Nat) (data : W32) (s : State) : Out :=
  .next (hostWrite (fun s =>
    let x := netPort s p
    if 8 ≤ p then ignoredWrite 0x13 (netReg p 0) (data.setWidth 64) none s
    else if portPresent s p = false then s
    else if x.en then setPort p (x.withCtrl data) s
    else if x.enableBad then ignoredWrite 0x12 (netReg p 0) (data.setWidth 64) none s
    else setPort p { x.withCtrl data with en := true, dadFail := false, ip4Conflict := false } s) s)

/-- Loss of link: queued frames and one being received are dropped and counted, entries kept, a Notice recorded (R316). -/
def linkLost (p : Nat) (receiving : Bool) (s : State) : State :=
  let x := netPort s p
  if x.link = false then s
  else
    let s := x.tx.foldl (fun s f => dropUnlinked p f s) (if receiving then portCount p 0x90 s else s)
    portNotice p (setPort p { netPort s p with
      link := false, anDone := false, ltDone := false, fecLock := false, tentative := false, tx := [] } s)

/-- Loss of link by a cause inside the device: whether a frame was being received is a free value, since no row says so
(assumption 112). -/
def linkCut (p : Nat) (s : State) : State :=
  if (netPort s p).link then
    let f := nextFresh s
    linkLost p (Config.freeBits 1 f.1 == 1) f.2
  else s

/-- The next stage of bring-up that is not complete: Clause 73 with AN, Clause 136 with AN or LT, FEC alignment (R316). -/
def Port.bringUp (x : Port) : Port :=
  if x.an ∧ x.anDone = false then { x with anDone := true }
  else if (x.an ∨ x.lt) ∧ x.ltDone = false then { x with ltDone := true }
  else { x with fecLock := true }

/-- PORT_DISABLE (R316, R322). -/
def execPortDisable (p : Nat) (data : W32) (s : State) : Out :=
  .next (hostWrite (fun s =>
    if 8 ≤ p then ignoredWrite 0x13 (netReg p 0) (data.setWidth 64) none s
    else if portPresent s p = false then s
    else
      let s := linkCut p s
      setPort p { (netPort s p).withCtrl data with
        en := false, anDone := false, ltDone := false, fecLock := false, dadFail := false, ip4Conflict := false } s) s)

/-- LINK_RESTART: bring-up starts again from the beginning (R316). -/
def execLinkRestart (p : Nat) (s : State) : Out :=
  .next (hostWrite (fun s =>
    let x := netPort s p
    if x.en ∧ x.link = false then setPort p { x with anDone := false, ltDone := false, fecLock := false } s else s) s)

/-- The solicitation of duplicate address detection for an own address (R322). -/
def dadFrame (x : Port) (a : Ip) : TxFrame := solicitFrame x (multicastMac (solicited a)) 0 (solicited a) a

/-- The network domain runs: neither retired nor held in reset (R389, R461). -/
def netRuns (s : State) : Bool :=
  let d := Table.get {} s.clk.dom 17
  !d.retired && !s.lcs.dbgHeld && !s.fc.lock

/-- A hub cycle of bring-up on an enabled port without a link: whether a stage ends in it is a free value, since IEEE 802.3, the partner
and the channel give the stages their times (R316, assumption 112). -/
def portStage (p : Nat) (s : State) : State :=
  let x := netPort s p
  if x.en ∧ x.link = false ∧ x.fecLock = false ∧ netRuns s then
    let f := nextFresh s
    if Config.freeBits 1 f.1 = 1 then setPort p x.bringUp f.2 else f.2
  else s

/-- LINK_UP (R316, R322): the port announces its IPv4 address and starts duplicate address detection. -/
def execLinkUp (p : Nat) (s : State) : Out :=
  .next (
    let x := netPort s p
    if x.en = false ∨ x.link ∨ netRuns s = false then s
    else
      let v6 : Bool := x.ip6 != 0
      let s := portNotice p (setPort p { x with
        link := true, anDone := x.an, ltDone := x.an || x.lt, fecLock := true, tentative := v6 && !x.dadFail } s)
      let s := if x.ip4 ≠ 0 then enqueueTx p (arpFrame x 1 0xFFFFFFFFFFFF 0 x.ip4) s else s
      if v6 ∧ x.dadFail = false then
        enqueueTx p (dadFrame x x.ip6) (enqueueTx p (dadFrame x (linkLocal x.mac)) s)
      else s)

/-- LINK_DOWN (R316). -/
def execLinkDown (p : Nat) (receiving : Bool) (s : State) : Out :=
  .next (linkLost p receiving s)

/-- DAD_TIMEOUT: the 1 s wait ends (R322). -/
def execDadTimeout (p : Nat) (s : State) : Out := .next (setPort p { netPort s p with tentative := false } s)

/-- NEIGHBOUR_RETRY: the requests at 1 s and 2 s (R321). -/
def execNeighbourRetry (p : Nat) (a : Ip) (s : State) : Out :=
  .next (
    let x := netPort s p
    match x.neigh.find? (fun n => n.addr == a && n.mac.isNone) with
    | some n =>
      if n.tries < 3 then
        enqueueTx p (askFrame x a none)
          (setPort p { x with neigh := modNeigh a (fun n => { n with tries := n.tries + 1 }) x.neigh } s)
      else s
    | none => s)

/-- NEIGHBOUR_RESOLVE_FAIL at 3 s (R321). -/
def execNeighbourResolveFail (p : Nat) (a : Ip) (s : State) : Out :=
  .next (
    let x := netPort s p
    match x.neigh.find? (fun n => n.addr == a && n.mac.isNone) with
    | some n => n.held.foldl (fun s f => noResolve p f s)
        (setPort p { x with neigh := x.neigh.filter (fun n => n.addr != a) } s)
    | none => s)

/-! ### Receiving (R318, R319) -/

def macOf (l : List Byte) (o : Nat) : BitVec 48 := BitVec.ofNat 48 (beNat (slice l o 6))
def ip4At (l : List Byte) (o : Nat) : Ip := ip4Of (BitVec.ofNat 32 (beNat (slice l o 4)))
def halfAt (l : List Byte) (o : Nat) : Nat := beNat (slice l o 2)

/-- ff02::1. -/
def allNodes : Ip := 0xFF020000000000000000000000000001
/-- The PTP groups ff0e::181 and ff02::6b, 224.0.1.129 and 224.0.0.107. -/
def ptpGroups6 : List Ip := [0xFF0E0000000000000000000000000181, 0xFF02000000000000000000000000006B]
def ptpGroups4 : List Ip := [ip4Of 0xE0000181, ip4Of 0xE000006B]

/-- The IPv6 multicast addresses accepted (R319). -/
def groups6 (x : Port) : List Ip :=
  (if x.ip6 = 0 then [] else [allNodes, solicited x.ip6, solicited (linkLocal x.mac)])
    ++ (if x.ptpEn ∧ x.udp6 then ptpGroups6 else [])

/-- The destination MAC addresses accepted (order 4 of R318, R319). -/
def macAccepted (x : Port) (m : BitVec 48) : Bool :=
  m == x.mac || m == 0xFFFFFFFFFFFF || (groups6 x).any (fun g => multicastMac g == m)
    || (x.ptpEn && x.l2 && (m == 0x011B19000000 || m == 0x0180C200000E))
    || (x.ptpEn && x.udp4 && (m == 0x01005E000181 || m == 0x01005E00006B))

/-- An IPv6 address of the port's own: the global one it was given, or with it the link-local one. -/
def Port.own6 (x : Port) (a : Ip) : Bool := x.ip6 != 0 && (a == x.ip6 || a == linkLocal x.mac)

/-- The destination IP addresses accepted (order 10 of R318). -/
def ipAccepted (x : Port) (v6 : Bool) (a : Ip) : Bool :=
  if v6 then (x.own6 a && x.v6Usable) || (groups6 x).contains a
  else (x.ip4 != 0 && a == ip4Of x.ip4) || (x.ptpEn && x.udp4 && ptpGroups4.contains a)

/-- A solicitation or advertisement for a tentative address: it is taken to whichever address of the port it comes (R322). -/
def dadHit (x : Port) (dst : Ip) (m : List Byte) : Bool :=
  x.tentative && (x.own6 dst || (groups6 x).contains dst) && (byteAt m 0 == 135 || byteAt m 0 == 136) && x.own6 (ipAt m 8)

/-- A PTP header this port takes: versionPTP 2, minorVersionPTP 0 or 1 (R325). -/
def ptpVersionOk (m : List Byte) : Bool := byteAt m 1 % 16 == 2 && byteAt m 1 / 16 ≤ 1

/-- A PTP message goes to firmware with its timestamp (R326), or is dropped for its version (R325). -/
def ptpReceive (p : Nat) (m : List Byte) (s : State) : State :=
  if ptpVersionOk m then
    let t := stampAt s (netPort s p).rxLat
    let r : PtpRx := { port := p, msg := m, nt := BitVec.ofNat 64 (t / 256), frac := BitVec.ofNat 8 t,
                       stepped := false, unsync := !s.rm.established, cycle := s.time.cycle }
    portCount p 0x80 { s with net := { s.net with toFirmware := s.net.toFirmware ++ [r] } }
  else portCount p 0x88 s

/-- An ARP message: a claim of the port's address is defended at most once in 10 s; a request or reply addressed to the port is
learned, a request answered (R321, R322). -/
def arpReceive (p : Nat) (m : List Byte) (s : State) : State :=
  let x := netPort s p
  let sMac := macOf m 8
  let sIp := ip4At m 14
  let own := x.ip4 ≠ 0
  let s :=
    if own ∧ sIp = ip4Of x.ip4 ∧ sMac ≠ x.mac then
      let s := portNotice p (setPort p { x with ip4Conflict := true } s)
      let ok : Bool := match x.defended with
        | none => true
        | some t => t + 10 * secondTicks ≤ s.time.ticks
      if ok then
        enqueueTx p (arpFrame x 1 0xFFFFFFFFFFFF 0 x.ip4)
          (setPort p { netPort s p with defended := some s.time.ticks } s)
      else s
    else s
  if own ∧ ip4At m 24 = ip4Of x.ip4 ∧ (halfAt m 6 = 1 ∨ halfAt m 6 = 2) then
    let s := learn p sIp sMac s
    if halfAt m 6 = 1 then enqueueTx p (arpFrame x 2 sMac sMac (BitVec.ofNat 32 sIp.toNat)) s else s
  else s

/-- One echo reply more is within 1,000 a second (R322). -/
def echoRoom (x : Port) (now : Nat) : Bool := x.echoFrom + secondTicks ≤ now || x.echoes < 1000

def echoCounted (x : Port) (now : Nat) : Port :=
  if x.echoFrom + secondTicks ≤ now then { x with echoFrom := now, echoes := 1 } else { x with echoes := x.echoes + 1 }

/-- An echo request is answered when ECHO is 1, within the rate; beyond it the frame counts in RX_FILTER in place of RX_OK. -/
def echoReceive (p : Nat) (v6 : Bool) (src dst : Ip) (m : List Byte) (s : State) : State :=
  let x := netPort s p
  if x.echo = false then portCount p 0x80 s
  else if echoRoom x s.time.ticks then
    let s := portCount p 0x80 (setPort p (echoCounted x s.time.ticks) s)
    let own := if (groups6 x).contains dst then x.srcFor src else dst
    let b : Half × List Byte :=
      if v6 = false then
        let r := splice (splice m 0 [0]) 2 [0, 0]
        (0x0800, ip4Header x 1 m.length src ++ splice r 2 (be 2 (inetSum r)))
      else icmp6Body x own src (splice (splice m 0 [129]) 2 [0, 0])
    sendIp p src { ethertype := b.1, body := b.2 } s
  else portCount p 0x88 s

/-- The link-layer address option of type t in neighbour discovery options. -/
def ndOption (t : Nat) : Nat → List Byte → Option (BitVec 48)
  | 0, _ => none
  | n + 1, l =>
    if l.length < 8 then none
    else if byteAt l 0 = t then some (macOf l 2)
    else ndOption t n (l.drop (8 * max 1 (byteAt l 1)))

/-- A neighbour solicitation or advertisement. It is learned from where it is addressed to the port: to one of its addresses or their
solicited-node addresses, not to all nodes (R321, R322). -/
def ndReceive (p : Nat) (src dst : Ip) (m : List Byte) (s : State) : State :=
  let x := netPort s p
  let target := ipAt m 8
  let own : Bool := x.own6 target
  let addressed : Bool := x.own6 dst || dst == solicited x.ip6 || dst == solicited (linkLocal x.mac)
  let s := portCount p 0x80 s
  if own ∧ x.tentative then
    setPort p { netPort s p with dadFail := true, tentative := false } s
  else if byteAt m 0 = 135 then
    if own ∧ x.dadFail = false then
      let s := match ndOption 1 8 (m.drop 24) with
        | some mac => if src = 0 ∨ addressed = false then s else learn p src mac s
        | none => s
      let dest := if src = 0 then allNodes else src
      let adv := icmp6Body x target dest
        (([136, 0, 0, 0] : List Byte) ++ be 4 (if src = 0 then 0x20000000 else 0x60000000) ++ be 16 target.toNat
          ++ [2, 1] ++ be 6 x.mac.toNat)
      resolveTx p { ethertype := adv.1, body := adv.2, hop := dest } s
    else s
  else
    match ndOption 2 8 (m.drop 24) with
    | some mac => if addressed then learn p target mac s else s
    | none => s

/-- Order 1 of R334: the message is malformed. -/
def dolidMalformed (m : List Byte) : Bool :=
  let len := m.length - 16
  let ty := byteAt m 1
  m.length < 16 || byteAt m 0 != 1 || halfAt m 2 != len
    || !(ty == 0x01 || ty == 0x10 || ty == 0x12 || ty == 0x20)
    || (ty == 0x01 && len != 1132) || (ty == 0x12 && len != 24) || (ty == 0x20 && len != 20)
    || (ty == 0x10 && len < 64) || 2 ^ 32 ≤ beNat (slice m 8 8) || (ty == 0x01 && halfAt m 18 != 0)

/-- Lines a received frame takes: of the port's reserve first, then of the shared area (R349). -/
def takeLines (s : State) (p need : Nat) : Option (Nat × Nat) :=
  let free := reserveLines - Table.get 0 s.dol.rxUsed p
  let shared := sharedLines s - s.dol.sharedUsed
  if need ≤ free then some (need, 0)
  else if need ≤ free + shared then some (free, need - free) else none

/-- Messages are decided in order of arrival, in one hub cycle in ascending port order (R340). -/
def insertMsg (m : DolMsg) : List DolMsg → List DolMsg
  | [] => [m]
  | x :: r => if m.cycle = x.cycle ∧ m.port < x.port then m :: x :: r else x :: insertMsg m r

/-- A message for the Dolid block waits for its decision, or is malformed (R331, R334). -/
def dolidReceive (p : Nat) (src : Ip) (udp : Nat) (m : List Byte) (lines : Nat × Nat) (s : State) : State :=
  if s.dol.en = false then portCount p 0x88 s
  else
    let s := portCount p 0x80 s
    if dolidMalformed m then bump (dolCnt 3) 0 32 s
    else
      let d : DolMsg := { port := p, src := src, udp := udp, bytes := m, cycle := s.time.cycle,
                          reserved := lines.1, shared := lines.2 }
      let s := noteHeld (.frame p true (s.dol.inbox.filter (fun d => d.port == p)).length) s
      { s with dol := { s.dol with
          inbox := insertMsg d s.dol.inbox,
          rxUsed := Table.set 0 s.dol.rxUsed p (Table.get 0 s.dol.rxUsed p + lines.1),
          sharedUsed := s.dol.sharedUsed + lines.2 } }

/-- Orders 12–16 of R318, for a UDP datagram. -/
def udpReceive (p : Nat) (v6 : Bool) (src dst : Ip) (proto : Nat) (u : List Byte) (lines : Nat × Nat) (s : State) : State :=
  let x := netPort s p
  if proto ≠ 17 then portCount p 0x88 s
  else if u.length < 8 ∨ halfAt u 4 ≠ u.length then portCount p 0x90 s
  else
    let sumOk : Bool :=
      if halfAt u 6 = 0 then !v6
      else foldSum (wordSum (pseudo v6 src dst 17 u.length ++ u)) == 65535
    if sumOk = false then portCount p 0x90 s
    else
      let port := halfAt u 2
      if port = s.dol.udpPort.toNat then dolidReceive p src (halfAt u 0) (u.drop 8) lines s
      else if (port = 319 ∨ port = 320) ∧ x.ptpEn ∧ (if v6 then x.udp6 else x.udp4) then ptpReceive p (u.drop 8) s
      else portCount p 0x88 s

/-- Orders 9–16 of R318, for an IP packet; order 10 drops one sent to the broadcast MAC address (R319). -/
def ipReceive (p : Nat) (v6 broadcast : Bool) (b : List Byte) (lines : Nat × Nat) (s : State) : State :=
  let x := netPort s p
  let total := if v6 then 40 + halfAt b 4 else halfAt b 2
  let hdr := if v6 then 40 else 20
  let bad : Bool :=
    if v6 then byteAt b 0 / 16 != 6 || b.length < 40 || b.length < total || !(byteAt b 6 == 17 || byteAt b 6 == 58)
    else byteAt b 0 != 0x45 || b.length < 20 || total < 20 || b.length < total
      || foldSum (wordSum (b.take 20)) != 65535 || halfAt b 6 % 0x4000 != 0
  if bad then portCount p 0x90 s
  else
    let src := if v6 then ipAt b 8 else ip4At b 12
    let dst := if v6 then ipAt b 24 else ip4At b 16
    let proto := if v6 then byteAt b 6 else byteAt b 9
    let m := slice b hdr (total - hdr)
    if broadcast ∨ (ipAccepted x v6 dst = false ∧ (v6 && proto == 58 && dadHit x dst m) = false) then portCount p 0x88 s
    else if v6 ∧ proto = 58 then
      if byteAt m 0 = 135 ∨ byteAt m 0 = 136 then ndReceive p src dst m s
      else if byteAt m 0 = 128 then echoReceive p true src dst m s
      else portCount p 0x80 s
    else if v6 = false ∧ proto = 1 then
      if byteAt m 0 = 8 then echoReceive p false src dst m s else portCount p 0x80 s
    else udpReceive p v6 src dst proto m lines s

/-- Rows 2–16 of R318 for a frame that has its lines, the first that applies. -/
def frameDecided (p : Nat) (x : Port) (frame : List Byte) (intact : Bool) (lines : Nat × Nat) (s : State) : State :=
  let tagged : Bool := halfAt frame 12 == 0x8100
  let vid := halfAt frame 14 % 4096
  let broadcast : Bool := macOf frame 0 == 0xFFFFFFFFFFFF
  let off := if tagged then 16 else 12
  let ety := halfAt frame off
  let body := slice frame (off + 2) (frame.length - off - 6)
  if intact = false then portCount p 0x84 s
  else if frame.length < 64 ∨ x.mtu.toNat + (if tagged then 22 else 18) < frame.length then portCount p 0x90 s
  else if macAccepted x (macOf frame 0) = false then portCount p 0x88 s
  else if (if x.tagged then tagged && vid == x.vid.toNat else !tagged || vid == 0) = false then portCount p 0x88 s
  else if ety = 0x0806 then arpReceive p body (portCount p 0x80 s)
  else if ety = 0x88F7 ∧ x.ptpEn ∧ x.l2 ∧ broadcast = false then ptpReceive p body s
  else if ety = 0x0800 then ipReceive p false broadcast body lines s
  else if ety = 0x86DD then ipReceive p true broadcast body lines s
  else portCount p 0x88 s

/-- FRAME_RECEIVE: the table of R318. -/
def execFrameReceive (p : Nat) (frame : List Byte) (found : FrameRead) (s : State) : Out :=
  .next (
    let x := netPort s p
    if (x.en && x.link && netRuns s) = false then s
    else
      match takeLines s p (linesFor frame.length) with
      | none => portCount p 0x8C (fecCount p found s)
      | some lines => frameDecided p x frame found.intact lines (fecCount p found s))

/-! ### The Glove on frames, transmission (R320, R327, R328, R351–R353) -/

def dolInst (s : State) (i : Nat) : DolInst := Table.get {} s.dol.inst i
def setDolInst (i : Nat) (x : DolInst) (s : State) : State :=
  { s with dol := { s.dol with inst := Table.set {} s.dol.inst i x } }
def dolIReg (i off : Nat) : Nat := 0x701000 + 0x20 * i + off

/-- A bucket lets b bytes pass (R353): no ceiling, or the level at least the lesser of b and the bucket's size. -/
def bucketPasses (rate burst : Half) (level : Int) (b : Nat) : Bool :=
  rate == 0 || decide ((min b (burst.toNat * 1024) : Nat) ≤ level)

/-- What the Glove says of a frame: passes, is held, or is refused by check 1 or 2. -/
inductive GloveSays where
  | passes | held | refused (check : Nat)
  deriving DecidableEq, Repr

def gloveFrame (s : State) (x : Port) (f : TxFrame) : GloveSays :=
  if f.isPublic = false then .refused 1
  else
    match f.iid with
    | none => .passes
    | some i =>
      let d := dolInst s i
      if f.dst ≠ f.bound then .refused 2
      else if bucketPasses d.rateNetEff d.burstNetEff d.levelNet (wireLen x f) then .passes else .held

/-- A refused frame is dropped and counted, and an F2 event names the check (R352). -/
def gloveDrop (f : TxFrame) (check : Nat) (s : State) : State :=
  let s := match f.iid with
    | some i => bump (dolIReg i 0x18) (if check = 1 then 1 else 0) 16 s
    | none => dolLost s
  freeFrame f (report
    { cls := .f2, source := 0x0E, cause := 0x09, detail0 := BitVec.ofNat 64 check,
      iid := (f.iid.map (BitVec.ofNat 16)).getD 0xFFFF } s)

/-- The frame completed in flight (R327), where its PTP message m starts at offset o of the body: originTimestamp, the
correction, and the UDP checksum. -/
def onestepBody (f : TxFrame) (o t : Nat) : List Byte :=
  let b := f.body
  let ns := t / 256
  let pdelay : Bool := byteAt b o % 16 == 3
  let corr : Int := (BitVec.ofNat 64 (beNat (slice b (o + 8) 8))).toInt + ((t % 256) * 256 : Nat)
    + (if pdelay then ((t : Int) - f.rxTime) * 256 else 0)
  let b := splice b (o + 34) (be 6 (ns / 10 ^ 9) ++ be 4 (ns % 10 ^ 9))
  let b := splice b (o + 8) (be 8 (BitVec.ofInt 64 corr).toNat)
  if f.ethertype = 0x88F7 then b
  else
    let v6 : Bool := f.ethertype == 0x86DD
    let h := o - 8
    let u := splice (b.drop h) 6 [0, 0]
    let src := if v6 then ipAt b 8 else ip4At b 12
    let dst := if v6 then ipAt b 24 else ip4At b 16
    let sum := inetSum (pseudo v6 src dst 17 u.length ++ u)
    splice b (h + 6) (be 2 (if sum = 0 then 0xFFFF else sum))

/-- A transmit timestamp joins the FIFO of 64 entries (R328). -/
def storeTxTs (p : Nat) (m : List Byte) (t : Nat) (s : State) : State :=
  let x := netPort s p
  let e : TxTs := { nt := BitVec.ofNat 64 (t / 256), frac := BitVec.ofNat 8 t, stepped := false,
                    unsync := !s.rm.established, ovf := x.txtsLost, seq := BitVec.ofNat 16 (halfAt m 30),
                    msgType := BitVec.ofNat 4 (byteAt m 0), domain := BitVec.ofNat 8 (byteAt m 4), cycle := s.time.cycle }
  if 64 ≤ x.txts.length then setPort p { x with txtsLost := true, txtsMissed := some e } s
  else setPort p { x with txts := x.txts ++ [e], txtsLost := false } s

/-- The frame leaves: bucket, counter, timestamp. -/
def frameLeaves (p : Nat) (f : TxFrame) (s : State) : State :=
  let x := netPort s p
  let s := match f.iid with
    | some i =>
      let d := dolInst s i
      if d.rateNetEff = 0 then s else setDolInst i { d with levelNet := d.levelNet - (wireLen x f : Nat) } s
    | none => s
  let t := stampAt s x.txLat
  let m := f.body.drop (f.ptp.getD 0)
  let event : Bool := f.ptp.isSome && x.ptpEn && ptpVersionOk m && byteAt m 0 % 16 ≤ 3
  let one : Bool := event && x.onestep && (byteAt m 0 % 16 == 0 || byteAt m 0 % 16 == 3) && byteAt m 6 / 2 % 2 == 0
  let f := if one then { f with body := onestepBody f (f.ptp.getD 0) t } else f
  let s := if event ∧ one = false then storeTxTs p m t s else s
  freeFrame f (portCount p 0x94 { s with net := { s.net with sent := s.net.sent ++ [(p, wireBytes x f)] } })

/-- A held frame of the same instance, on whichever port, came before this one (R353). -/
def heldBefore (s : State) (f : TxFrame) : Bool :=
  f.iid.isSome && (List.range 8).any (fun p =>
    (netPort s p).tx.any (fun g => g.iid == f.iid && g.order < f.order && gloveFrame s (netPort s p) g == .held))

/-- The first frame of a queue that is not held, and the others; a held frame holds the later ones of its instance only (R353). -/
def firstReady (s : State) (x : Port) : List TxFrame → List TxFrame → Option (TxFrame × List TxFrame)
  | _, [] => none
  | seen, f :: r =>
    if heldBefore s f = false ∧ gloveFrame s x f ≠ .held then some (f, seen.reverse ++ r) else firstReady s x (f :: seen) r

/-- Where the PTP message of a frame starts in its body: Ethertype 0x88F7, or UDP to port 319 or 320 (R325). -/
def ptpStart (ety : Nat) (body : List Byte) : Option Nat :=
  let udp (h proto : Nat) : Option Nat :=
    if byteAt body proto = 17 ∧ (halfAt body (h + 2) = 319 ∨ halfAt body (h + 2) = 320) then some (h + 8) else none
  if ety = 0x88F7 then some 0 else if ety = 0x0800 then udp 20 9 else if ety = 0x86DD then udp 40 6 else none

/-- A frame that firmware built: destination address, Ethertype, body. -/
def firmwareFrame (b : List Byte) (rx : Nat) : TxFrame :=
  { mac := some (macOf b 0), ethertype := BitVec.ofNat 16 (halfAt b 6), body := b.drop 8,
    ptp := ptpStart (halfAt b 6) (b.drop 8), rxTime := rx }

/-- FRAME_TRANSMIT (R320, R323, R326–R328, R351): one frame leaves the port or is refused by the Glove. -/
def execFrameTransmit (p : Nat) (firmware : Option (List Byte × Nat)) (s : State) : Out :=
  .next (
    if netRuns s = false then s
    else
      let s := match firmware with
        | some (b, rx) =>
          if b.length ≤ 8 + (netPort s p).mtu.toNat then enqueueTx p (firmwareFrame b rx) s else portCount p 0xA0 s
        | none => s
      let x := netPort s p
      match firstReady s x [] x.tx with
      | none => s
      | some (f, rest) =>
        let s := setPort p { x with tx := rest } s
        match gloveFrame s x f with
        | .refused k => gloveDrop f k s
        | _ => frameLeaves p f s)

/-- The oldest entry is removed, if it is older than this hub cycle. An entry of this hub cycle that found the FIFO full is stored behind
it (R328). -/
def Port.txtsPop (x : Port) (cycle : Nat) : Port :=
  let rest := if x.txts.head?.any (fun e => e.cycle == cycle) then x.txts else x.txts.drop 1
  match x.txtsMissed.filter (fun e => e.cycle == cycle) with
  | some e => { x with txts := rest ++ [e], txtsLost := false, txtsMissed := none }
  | none => { x with txts := rest }

/-- TXTS_POP: a firmware read of NET_Pn_TXTS3 removes the oldest entry (R328). -/
def execTxtsPop (p : Nat) (s : State) : Out :=
  .next (hostWrite (fun s => setPort p ((netPort s p).txtsPop s.time.cycle) s) s)

end Sys2Proof.Machine
end

