-- ==== Sys2Proof/Machine/HatCheck.lean ====
section
/-!
DEFINITION. The hat-check slots (R396–R411, R493): activation and the answer to reset, T=1 blocks, the custodian-card
profile of a ceremony step, presence and removal, and the manager's exchanges.
-/
namespace Sys2Proof.Machine

open Sys2Proof

def sha3Bytes (m : List Byte) : List Byte := bytesFrom (Config.sha3 m) 32

def hcReg (n off : Nat) : Nat := 0x900000 + 0x100 * n + off
def slotOf (s : State) (n : Nat) : Slot := Table.get {} s.hc n
def setSlot (n : Nat) (x : Slot) (s : State) : State := { s with hc := Table.set {} s.hc n x }
/-- Count in field f of HC_Sn_EVENTS: 0 UNKNOWN_OUTCOMES, 1 RESYNCHS, 2 RETRANSMITS, 3 REMOVALS. -/
def hcCount (n f : Nat) (s : State) : State := bump (hcReg n 0x18) f 8 s

/-- STATE codes (R411). -/
def hcEmpty : BitVec 4 := 0
def hcInserted : BitVec 4 := 1
def hcActivating : BitVec 4 := 2
def hcReady : BitVec 4 := 3
def hcExchange : BitVec 4 := 4
def hcBusy : BitVec 4 := 5
def hcDeact : BitVec 4 := 6
def hcFault : BitVec 4 := 7

/-- HC_Sn_STATUS as read. -/
def Slot.status (x : Slot) : Nat :=
  pack [(b2n x.present, 31), (b2n x.vccOn, 30), (b2n x.clsA, 29), (b2n x.inverse, 28), (b2n x.clkStopped, 27),
    (b2n x.ownerKs, 26), (x.xi.toNat, 24), (x.err.toNat, 16), (x.outcome.toNat, 12), (b2n x.edc, 4), (x.st.toNat, 0)]

/-- The slots operate in every life-cycle state except SCRAPPED (R410). -/
def hcOperates (s : State) (n : Nat) : Bool := n < 2 && s.lcs.st != 4 && !s.fc.lock

/-! ### Deactivation and outcomes (R407, R408) -/

/-- An UNKNOWN outcome is counted and noticed, naming slot, KS_CER_ID and STEP (R408, R433). -/
def unknownOutcome (n : Nat) (s : State) : State :=
  report { cls := .f0, source := 0x17, unit := BitVec.ofNat 16 (0x7000 + n), cause := 0x0B,
           detail0 := BitVec.ofNat 64 (hcReg n 4),
           detail1 := BitVec.ofNat 64 (s.ks.cer.id.toNat * 2 ^ 32 + s.ks.cer.step % 16) } (hcCount n 0 s)

/-- An exchange is in progress. -/
def Slot.busy (x : Slot) : Bool := x.st == hcExchange || x.st == hcBusy

/-- The point an interrupted exchange has reached (R404, R408): UNKNOWN in the gap or the busy phase of WRITE_RECORD,
otherwise ABANDONED; a character that ends the data phase in this hub cycle has ended it. -/
def Slot.outcomeCut (x : Slot) (now : Nat) : BitVec 4 :=
  if x.phase = .busy ∨ x.phase = .gap ∨ (x.phase = .data ∧ x.left = [] ∧ x.dataEnd ≤ now) then 3 else 2

/-- The session registers are zero once a step ends (R403). -/
def Slot.endSession (x : Slot) : Slot :=
  { x with cmd := 0, phase := .none, eph := none, nonce := [], cipher := [], cardId := [], cardKey := [], key := [], certOk := false,
           poll := false, left := [], wait := .none, got := [], errors := 0, resynchs := 0 }

/-- Drive HCn_RST, HCn_CLK and HCn_IO low; HCn_VEN follows at DEACTIVATION_COMPLETE. STATE then becomes `after`. -/
def Slot.deactivate (x : Slot) (after : BitVec 4) : Slot :=
  { x.endSession with rst := false, clkOn := false, clkStopped := false, act := .none, st := hcDeact, after := after }

/-- A ceremony step ends with a result; the slot is the manager's again (R410). -/
def Slot.stepOver (x : Slot) (r : Byte) : Slot :=
  if x.ownerKs then { x with ownerKs := false, stepWaits := false, stepEnd := some r } else x

/-- Cut an exchange, or nothing, at the present point and deactivate (R408). -/
def hcCut (n : Nat) (after : BitVec 4) (err : Option Byte) (s : State) : State :=
  let x := slotOf s n
  let o := x.outcomeCut s.time.ticks
  let s := if x.busy ∧ o = 3 then unknownOutcome n s else s
  let x := if x.busy then { x with outcome := o } else x
  let x := x.stepOver (if x.busy ∧ o = 3 then 0x05 else 0x04)
  let x := if x.stepWaits then { x with stepWaits := false, stepEnd := some 0x04 } else x
  let x := match err with
    | some e => { x with err := e }
    | none => x
  if x.st = hcEmpty then setSlot n x s else setSlot n (x.deactivate after) s

/-! ### Blocks (R400) -/

/-- CRC of ISO/IEC 13239, one bit at a time. -/
def crcStep (c : Nat) : Nat → Nat
  | 0 => c
  | k + 1 => crcStep (if c % 2 = 1 then Nat.xor (c / 2) 0x8408 else c / 2) k
def crc16 (l : List Byte) : Nat := Nat.xor (l.foldl (fun c b => crcStep (Nat.xor c b.toNat) 8) 0xFFFF) 0xFFFF
def lrc (l : List Byte) : Byte := l.foldl (fun a b => a ^^^ b) 0

/-- A block with NAD 0x00 and its LRC or CRC. -/
def t1Block (edc : Bool) (pcb : Nat) (inf : List Byte) : List Byte :=
  let b : List Byte := [0, BitVec.ofNat 8 pcb, BitVec.ofNat 8 inf.length] ++ inf
  b ++ (if edc then bytesOf (crc16 b) 2 else [lrc b])

/-- Fi and Di by index, Di in eighths left out: Di values of ISO/IEC 7816-3. -/
def fiOf (k : Nat) : Nat := ([372, 372, 558, 744, 1116, 1488, 1860, 0, 0, 512, 768, 1024, 1536, 2048, 0, 0]).getD k 0
def diOf (k : Nat) : Nat := ([0, 1, 2, 4, 8, 16, 32, 64, 12, 20, 0, 0, 0, 0, 0, 0]).getD k 0
/-- fmax by index in tenths of a MHz. -/
def fmaxOf (k : Nat) : Nat := ([40, 50, 60, 80, 120, 160, 200, 0, 0, 50, 75, 100, 150, 200, 0, 0]).getD k 0

/-- One character in sixths of a ns: 12 etu + N etu, 11 etu when N is 255, etu = (F/D)/f, f = 400 MHz / CLKDIV (R399). -/
def charTicks (x : Slot) : Nat :=
  (if x.guardN = 255 then 11 else 12 + x.guardN.toNat) * fiOf x.fi.toNat * x.clkdiv.toNat * 15 / max 1 (diOf x.di.toNat)

/-- Characters go to the card; a stopped clock restarts (R406). -/
def Slot.send (x : Slot) (b : List Byte) : Slot :=
  { x with lastBlock := b, sent := x.sent ++ [b], clkStopped := false }

/-- The next I-block of the command, chained when longer than IFSC (R400). -/
def Slot.sendNext (x : Slot) (now : Nat) : Slot :=
  let n := max 1 x.ifsc.toNat
  let more : Bool := n < x.left.length
  let b := t1Block x.edc (b2n x.ns * 64 + b2n more * 32) (x.left.take n)
  let x : Slot := { x.send b with sending := x.left.take n, left := x.left.drop n, wait := if more then .ack else .response }
  if x.phase = .data then { x with dataEnd := now + b.length * charTicks x } else x

/-- Start a command APDU. -/
def Slot.apdu (x : Slot) (cmd : List Byte) (now : Nat) : Slot :=
  { x with left := cmd, got := [], errors := 0, resynchs := 0, st := hcExchange }.sendNext now

/-! ### The ceremony step (R403–R405, R410) -/

def cerBytes (s : State) : List Byte := be 4 s.ks.cer.id.toNat ++ be 1 s.ks.cer.step

/-- The uncompressed public key of the slot's ephemeral private key, and the session key (R403). -/
def ephemeralPublic (eph : List Byte) : List Byte := p256.encode (p256.mul (Config.ephemeralScalar eph) p256.gen)
def sessionKey (eph cardKey nonce cardId cer : List Byte) : List Byte :=
  let x := match p256.mul (Config.ephemeralScalar eph) (p256.decode cardKey) with
    | some (x, _) => x
    | none => Config.ecdhOffCurve eph cardKey
  bytesFrom (Config.hashOut 0 5
    ([0x4B, 0x58, 0x2D, 0x48, 0x41, 0x54, 0x43, 0x48, 0x45, 0x43, 0x4B, 0x2D, 0x31] ++ beBytes 32 x ++ nonce ++ cardId ++ cer)) 32
/-- The component of READ_COMPONENT's data, none where its tag does not verify; the tag of a WRITE_RECORD (R403). -/
def componentOf (key cardId d : List Byte) : Option (List Byte) := gcmOpen key (List.replicate 12 0) (0x01 :: cardId) d
def recordTag (key d : List Byte) : List Byte := gcmTag key (List.replicate 11 0 ++ [0x01]) (0x02 :: d) []

/-- The profile's command APDU; a command with response data carries Le 0x00 (assumption 25). -/
def profileApdu (s : State) (x : Slot) (k : Nat) : List Byte :=
  let id := cerBytes s
  match k with
  | 1 => [0x00, 0xA4, 0x04, 0x00, 0x06, 0xF0, 0x4B, 0x58, 0x43, 0x43, 0x01, 0x00]
  | 2 => [0x80, 0x10, 0x00, 0x00, 0x46] ++ ephemeralPublic (x.eph.getD []) ++ id ++ [0x00]
  | 3 => [0x80, 0xB2, 0x00, 0x00, 0x00]
  | 4 =>
    let d := id ++ sha3Bytes x.cipher
    [0x80, 0xD2, 0x00, 0x00, 0x35] ++ d ++ recordTag x.key d
  | _ => [0x80, 0xC2, 0x00, 0x00]

/-- Send the profile's command k. OPEN_SESSION waits for the ephemeral key of the DRBG. -/
def profileSend (n k : Nat) (s : State) : State :=
  let x := slotOf s n
  if k = 2 ∧ x.eph.isNone then setSlot n { x with cmd := 2, st := hcExchange, wait := .none } s
  else
    let x := { x with cmd := k, phase := if k = 4 then .data else x.phase }
    setSlot n (x.apdu (profileApdu s x k) s.time.ticks) s

/-- A ceremony step takes the slot (R410): at once when READY, after activation when INSERTED; without a card, or from
FAULT, it ends as a card error. -/
def hcBegin (n : Nat) (s : State) : State :=
  let x := { slotOf s n with ownerKs := true, stepWaits := false, stepEnd := none, component := [], err := 0 }
  if x.st = hcReady then profileSend n 1 (setSlot n { x with outcome := 0 } s)
  else setSlot n { x with ownerKs := false, stepEnd := some 0x04, err := if x.present then 0x0B else 0x01 } s

/-- Supply on, the class's level (step 1 of R397). -/
def Slot.start (x : Slot) (clsA : Bool) : Slot :=
  { x with
    st := hcActivating, act := .supply, clsA := clsA, vccOn := true, rst := false, clkOn := false, inverse := false,
    tried := x.tried ++ [clsA], fi := 1, di := 1, ifsc := 0x20, bwi := 4, cwi := 0xD, guardN := 0, edc := false, xi := 0,
    atr := [], ns := false, nr := false, wtx := 1 }

/-- Begin an activation: class B first when enabled, else class A; with neither the card is deactivated with CLASS. -/
def hcActivate (n : Nat) (s : State) : State :=
  let x := { slotOf s n with tried := [], ppsFailed := false }
  if x.classB then setSlot n (x.start false) s
  else if x.classA then setSlot n (x.start true) s
  else setSlot n ((({ x with err := 0x04 } : Slot).stepOver 0x04).deactivate hcInserted) s

/-- No usable answer from the class tried: class A after class B, or the card is deactivated with ERR (R397). -/
def hcNoAtr (n : Nat) (err : Byte) (s : State) : State :=
  let x := slotOf s n
  if x.clsA = false ∧ x.classA ∧ x.tried.contains true = false then
    setSlot n { x.deactivate hcActivating with nextA := true } s
  else setSlot n ((({ x with err := err } : Slot).stepOver 0x04).deactivate hcInserted) s

/-- The slot is READY: a waiting step begins. -/
def hcReadyNow (n : Nat) (s : State) : State :=
  let x := { slotOf s n with st := hcReady, act := .none, wait := .none, ns := false, nr := false }
  let s := setSlot n x s
  if x.ownerKs then profileSend n 1 (setSlot n { x with outcome := 0 } s) else s

/-- S(IFS request) with 254 (R398). -/
def Slot.askIfs (x : Slot) : Slot := { x.send (t1Block x.edc 0xC1 [0xFE]) with act := .ifs }

/-! ### Commands of the manager (R409) -/

/-- A refusal sets ERR and changes nothing else; OWNED records an F0 Notice. -/
def hcRefuse (n : Nat) (err : Byte) (cmd : Nat) (s : State) : State :=
  let s := setSlot n { slotOf s n with err := err } s
  if err = 0x08 then
    report { cls := .f0, source := 0x17, unit := BitVec.ofNat 16 (0x7000 + n), cause := 0x0A,
             addr := BitVec.ofNat 64 (hcReg n 8), detail0 := BitVec.ofNat 64 cmd } s
  else s

/-- HC_ACTIVATE (R397, R409). -/
def execHcActivate (n : Nat) (s : State) : Out :=
  .next (
    let x := slotOf s n
    if hcOperates s n = false then s
    else if x.ownerKs then hcRefuse n 0x08 1 s
    else if x.present = false then hcRefuse n 0x01 1 s
    else if x.st ≠ hcInserted then hcRefuse n 0x0B 1 s
    else hcActivate n (setSlot n { x with err := 0 } s))

/-- HC_DEACTIVATE (R407, R411): READY and FAULT become INSERTED; an exchange is cut at its point. -/
def execHcDeactivate (n : Nat) (s : State) : Out :=
  .next (
    let x := slotOf s n
    if hcOperates s n = false then s
    else if x.ownerKs then hcRefuse n 0x08 2 s
    else if x.st = hcEmpty ∨ x.st = hcDeact then setSlot n { x with err := 0 } s
    else hcCut n hcInserted (some 0) s)

/-- The command buffered: TX_LEN bytes. -/
def Slot.command (x : Slot) : List Byte := (List.range x.txLen.toNat).map (fun k => Table.get 0 x.tx k)

/-- The filter of R409. -/
def filtered (c : List Byte) : Bool :=
  byteAtN c 0 == 0x80 && (byteAtN c 1 == 0x10 || byteAtN c 1 == 0xB2 || byteAtN c 1 == 0xD2)
where byteAtN (l : List Byte) (o : Nat) : Byte := l.getD o 0

/-- EXCHANGE (R400, R409). -/
def execExchange (n : Nat) (s : State) : Out :=
  .next (
    let x := slotOf s n
    if hcOperates s n = false then s
    else if x.ownerKs then hcRefuse n 0x08 3 s
    else if x.txLen.toNat < 4 ∨ 261 < x.txLen.toNat then hcRefuse n 0x09 3 s
    else if x.st ≠ hcReady then hcRefuse n (if x.present then 0x0B else 0x01) 3 s
    else if filtered x.command then hcRefuse n 0x07 3 s
    else
      let b : Begun := { cycle := s.time.cycle, outcome := x.outcome, rxLen := x.rxLen, clkStopped := x.clkStopped, lastBlock := x.lastBlock }
      setSlot n (({ x with err := 0, outcome := 0, rxLen := 0, cmd := 0, phase := .none, begun := some b } : Slot).apdu
        x.command s.time.ticks) s)

/-- Send S(RESYNCH request) (R401). -/
def hcResynch (n : Nat) (s : State) : State :=
  let x := slotOf s n
  hcCount n 1 (setSlot n { x.send (t1Block x.edc 0xC0 []) with
    wait := .resynch, resynchs := x.resynchs + 1, errors := 0, st := hcExchange } s)

/-- RESYNCH (R409). -/
def execResynch (n : Nat) (s : State) : Out :=
  .next (
    let x := slotOf s n
    if hcOperates s n = false then s
    else if x.ownerKs then hcRefuse n 0x08 4 s
    else if x.st ≠ hcReady then hcRefuse n (if x.present then 0x0B else 0x01) 4 s
    else hcResynch n (setSlot n { x with err := 0, resynchCmd := true, resynchs := 0 } s))

/-! ### Presence (R407, R408, R493) -/

/-- CARD_INSERT: HCn_PRES has been high for 50 ms (R407). -/
def execCardInsert (n : Nat) (s : State) : Out :=
  .next (
    let x := slotOf s n
    if hcOperates s n = false ∨ x.present ∨ x.st ≠ hcEmpty then s
    else
      let s := setSlot n { x with present := true, st := hcInserted } s
      if x.autoAct then hcActivate n s else s)

/-- CARD_REMOVE: three low samples (R407, R408). -/
def execCardRemove (n : Nat) (s : State) : Out :=
  .next (
    let x := slotOf s n
    if hcOperates s n = false ∨ x.present = false then s
    else hcCut n hcEmpty (some 0x0A) (hcCount n 3 (setSlot n { x with present := false } s)))

/-- DEACTIVATION_COMPLETE: HCn_VEN low (R407). -/
def execDeactivationComplete (n : Nat) (s : State) : Out :=
  .next (
    let x := slotOf s n
    if x.st ≠ hcDeact then s
    else if x.present = false then setSlot n { x with vccOn := false, st := hcEmpty } s
    else if x.after = hcActivating then setSlot n { x with vccOn := false, st := hcActivating, act := .again } s
    else setSlot n { x with vccOn := false, st := x.after } s)

/-- CARD_VCC_FAULT: the supply left its range for 5 µs while the card is active (R493). -/
def execCardVccFault (n : Nat) (s : State) : Out :=
  .next (
    let x := slotOf s n
    if hcOperates s n = false ∨ x.vccOn = false ∨ x.st = hcDeact then s
    else hcCut n hcFault (some 0x04) s)

/-- ACTIVATION_TIMER: a delay of R397 ends. -/
def execActivationTimer (n : Nat) (vccOk : Bool) (s : State) : Out :=
  .next (
    let x := slotOf s n
    match x.act with
    | .supply => if vccOk then setSlot n { x with act := .clock, clkOn := true } s else hcNoAtr n 0x04 s
    | .clock => setSlot n { x with act := .atr, rst := true } s
    | .atr => hcNoAtr n 0x02 s
    | .again => setSlot n (x.start x.nextA) s
    | _ => s)

/-! ### The answer to reset (R396–R398) -/

/-- Interface bytes of one group: the protocol T that announced it, and TA, TB, TC, TD. -/
structure AtrGroup where
  t : Nat
  ta : Option Byte
  tb : Option Byte
  tc : Option Byte
  td : Option Byte
  deriving DecidableEq, Repr

/-- Read groups of interface bytes as the indicator Y announces them. -/
def atrGroups : Nat → Nat → Nat → List Byte → List AtrGroup × List Byte
  | 0, _, _, l => ([], l)
  | n + 1, t, y, l =>
    let one (b : Nat) (l : List Byte) : Option Byte × List Byte := if y / 2 ^ b % 2 = 1 then (l.head?, l.drop 1) else (none, l)
    let a := one 0 l
    let b := one 1 a.2
    let c := one 2 b.2
    let d := one 3 c.2
    let g : AtrGroup := { t := t, ta := a.1, tb := b.1, tc := c.1, td := d.1 }
    match d.1 with
    | some x =>
      let r := atrGroups n (x.toNat % 16) (x.toNat / 16) d.2
      (g :: r.1, r.2)
    | none => ([g], d.2)

/-- The answer's parts: groups, whether its length fits (historical bytes and TCK). -/
def atrParse (l : List Byte) : Option (List AtrGroup) :=
  match l with
  | _ :: t0 :: r =>
    let g := atrGroups 8 0 (t0.toNat / 16) r
    let offers := (g.1.filterMap (fun x => x.td)).map (fun b => b.toNat % 16)
    let tck := if offers.any (· != 0) then 1 else 0
    if g.2.length = t0.toNat % 16 + tck ∧ l.length ≤ 33 ∧ (tck = 1 → lrc (t0 :: r) = 0) then some g.1 else none
  | _ => none

/-- ATR_RECEIVE (R397, R398). -/
def execAtrReceive (n : Nat) (atr : List Byte) (intact : Bool) (s : State) : Out :=
  .next (
    let x := slotOf s n
    if x.act ≠ .atr then s
    else
      match (if intact ∧ (atr.head? = some 0x3B ∨ atr.head? = some 0x3F) then atrParse atr else none) with
      | none => hcNoAtr n 0x02 s
      | some gs =>
        let offers := (gs.filterMap (fun g => g.td)).map (fun b => b.toNat % 16)
        let g1 := gs.head?
        let ta1 := g1.bind (fun g => g.ta)
        let ta2 := (gs.drop 1).head?.bind (fun g => g.ta)
        let spec := (gs.drop 2).find? (fun g => g.t == 1)
        let t15 := (gs.find? (fun g => g.t == 15)).bind (fun g => g.ta)
        let xi := match t15 with
          | some b => b.toNat / 64
          | none => 0
        let barred : Bool := match t15 with
          | some b => if x.clsA then b.toNat % 2 == 0 else b.toNat / 2 % 2 == 0
          | none => false
        let x := { x with atr := atr, inverse := atr.head? == some 0x3F, xi := BitVec.ofNat 2 xi }
        if barred then hcNoAtr n 0x04 (setSlot n x s)
        else if offers.contains 1 = false then
          setSlot n ((({ x with err := 0x03 } : Slot).stepOver 0x04).deactivate hcInserted) s
        else if (match ta2 with | some b => b.toNat / 16 % 2 == 1 || b.toNat % 16 != 1 | none => false) then
          hcNoAtr n 0x02 (setSlot n x s)
        else
          let b3 := (spec.bind (fun g => g.tb)).getD 0x4D
          let fi := ((ta1.getD 0x11).toNat / 16)
          let di := ((ta1.getD 0x11).toNat % 16)
          let usable : Bool := ta1.isSome && !x.ppsFailed && 4000 ≤ fmaxOf fi * x.clkdiv.toNat && fiOf fi != 0 && diOf di != 0
          let x := { x with
            guardN := (g1.bind (fun g => g.tc)).getD 0, ifsc := (spec.bind (fun g => g.ta)).getD 0x20,
            bwi := BitVec.ofNat 4 (b3.toNat / 16), cwi := BitVec.ofNat 4 b3.toNat,
            edc := ((spec.bind (fun g => g.tc)).getD 0).toNat % 2 == 1 }
          let withTa : Slot := { x with fi := BitVec.ofNat 4 fi, di := BitVec.ofNat 4 di }
          if ta2.isSome then setSlot n (if usable then withTa else x).askIfs s
          else if usable then
            let p : List Byte := [0xFF, 0x11, ta1.getD 0x11]
            setSlot n { x.send (p ++ [lrc p]) with act := .pps } s
          else setSlot n x.askIfs s)

/-! ### Received blocks (R400–R405) -/

/-- Length of the key that the ceremony's word names: TDES-2, TDES-3, AES-128, AES-256 by SET (R286, R308). -/
def cerKeyLen (s : State) : Nat := ([16, 24, 16, 32]).getD (field s.ks.cer.word.toNat 16 8) 32

/-- An exchange ends FAILED; a ceremony step with it, as a card error or with another RESULT (R309). -/
def hcFailed (n : Nat) (err : Option Byte) (s : State) (result : Byte := 0x04) : State :=
  let x := slotOf s n
  let x := { x with st := hcReady, outcome := 4, wait := .none, phase := .none, err := err.getD x.err }
  let x := x.stepOver result
  let s := setSlot n (x.endSession) s
  if x.stepWaits then hcBegin n s else s

/-- An erroneous block (R401): an R-block that names the error, 1 of parity or EDC, 2 any other (ISO/IEC 7816-3); after three attempts
S(RESYNCH request), after three of those FAULT. -/
def hcBlockError (n code : Nat) (s : State) : State :=
  let x := slotOf s n
  if x.wait = .none then s
  else if x.wait = .resynch then
    if 3 ≤ x.resynchs then hcCut n hcFault (some 0x05) s
    else hcResynch n s
  else if 2 ≤ x.errors then hcResynch n (setSlot n { x with errors := x.errors + 1 } s)
  else
    hcCount n 2 (setSlot n { x.send (t1Block x.edc (0x80 + code + b2n x.nr * 16) []) with errors := x.errors + 1 } s)

/-- A manager's exchange is complete: the response, SW included, in the buffer (R409). -/
def hcAnswered (n : Nat) (s : State) : State :=
  let x := slotOf s n
  let rx := (List.range x.got.length).foldl (fun t k => Table.set 0 t k (x.got.getD k 0)) ([] : Table Byte)
  let x := { x with st := hcReady, outcome := 1, wait := .none, rxLen := BitVec.ofNat 9 x.got.length, rx := rx }
  let s := setSlot n x s
  if x.stepWaits then hcBegin n s else s

/-- The custodian-card root is usable: FIELDED, and locked (R452). -/
def cardRootUsable (s : State) : Bool := s.lcs.st == 2 && Table.get false s.lcs.rootLocked 1

/-- A profile response (R403–R405): what it carries, and the next command or the end of the step. `verified`: the certificate's signature
over CARD_ID ‖ public key holds under a key whose digest is the custodian-card root. -/
def profileAnswer (n : Nat) (verified : Bool) (s : State) : State :=
  let x := slotOf s n
  let sw := beNat (x.got.drop (x.got.length - 2))
  let d := x.got.take (x.got.length - 2)
  let x := { x with wait := .none }
  match x.cmd with
  | 1 =>
    if sw = 0x9000 ∧ d.length = 171 ∧ verified ∧ cardRootUsable s then
      profileSend n 2 (setSlot n { x with
        poll := bit (d.getD 1 0) 0, cardId := slice d 2 8, cardKey := slice d 10 65, certOk := true } s)
    else hcFailed n none s
  | 2 =>
    if sw = 0x9000 ∧ d.length = 16 then 
      profileSend n 3 (setSlot n { x with nonce := d, key := sessionKey (x.eph.getD []) x.cardKey d x.cardId (cerBytes s) } s)
    else hcFailed n none s
  | 3 =>
    match (if sw = 0x9000 then componentOf x.key x.cardId d else none) with
    | some c =>
      if c.length = cerKeyLen s then profileSend n 4 (setSlot n { x with cipher := d.take (d.length - 16), component := c } s)
      else hcFailed n none s 0x06
    | none => hcFailed n none s
  | _ =>
    if sw = 0x9000 then
      setSlot n (({ x with st := hcReady, outcome := 1 } : Slot).stepOver 0).endSession s
    else if sw = 0x9100 then setSlot n { x with st := hcBusy, phase := .busy } s
    else hcFailed n none s

/-- The PPS or S(IFS request) is not answered as R398 and R401 ask: another activation without PPS; the request repeated, then FAULT. -/
def hcNegotiationError (n : Nat) (s : State) : State :=
  let x := slotOf s n
  if x.act = .pps then setSlot n { x.deactivate hcActivating with ppsFailed := true, nextA := x.clsA } s
  else if 2 ≤ x.errors then setSlot n ((({ x with err := 0x05 } : Slot).stepOver 0x04).deactivate hcFault) s
  else hcCount n 2 (setSlot n { x.askIfs with errors := x.errors + 1 } s)

/-- A timeout or a line error: of a negotiation, or of a block awaited (R401, R402). -/
def hcErred (n : Nat) (s : State) : State :=
  let x := slotOf s n
  if x.act = .pps ∨ x.act = .ifs then hcNegotiationError n s else hcBlockError n 2 s

/-- T1_BLOCK_RECEIVE (R398, R400, R401). -/
def execT1BlockReceive (n : Nat) (block : List Byte) (intact verified : Bool) (_plain : List Byte) (s : State) : Out :=
  .next (
    let x := slotOf s n
    if hcOperates s n = false then s
    else if x.act = .pps then
      if intact ∧ block = x.lastBlock then
        let ta := (block.getD 2 0x11).toNat
        setSlot n ({ x with fi := BitVec.ofNat 4 (ta / 16), di := BitVec.ofNat 4 ta } : Slot).askIfs s
      else hcNegotiationError n s
    else if x.act = .ifs then
      if intact ∧ block = t1Block x.edc 0xE1 [0xFE] then hcReadyNow n s else hcNegotiationError n s
    else if x.wait = .none then s
    else
      let pcb := (block.getD 1 0).toNat
      let len := (block.getD 2 0).toNat
      let inf := slice block 3 len
      let whole : Bool := block.length == 3 + len + (if x.edc then 2 else 1)
      let x := { x with wtx := 1, phase := if x.phase = .data ∧ x.left = [] then .gap else x.phase }
      let s := setSlot n x s
      if intact = false then hcBlockError n 1 s
      else if whole = false ∨ 254 < len then hcBlockError n 2 s
      else if pcb < 128 then
        if x.wait ≠ .response ∨ (pcb / 64 % 2 == 1) ≠ x.nr then hcBlockError n 2 s
        else
          let x := { x with got := x.got ++ inf, nr := !x.nr, errors := 0, ns := if x.got = [] then !x.ns else x.ns }
          if pcb / 32 % 2 = 1 then setSlot n (x.send (t1Block x.edc (0x80 + b2n x.nr * 16) [])) s
          else if x.cmd = 0 then hcAnswered n (setSlot n x s)
          else profileAnswer n verified (setSlot n x s)
      else if pcb < 192 then
        if (pcb / 16 % 2 == 1) ≠ x.ns ∧ x.wait = .ack then
          setSlot n (({ x with ns := !x.ns, errors := 0 } : Slot).sendNext s.time.ticks) s
        else if (pcb / 16 % 2 == 1) = x.ns then
          if 2 ≤ x.errors then hcResynch n s
          else hcCount n 2 (setSlot n { x.send x.lastBlock with errors := x.errors + 1 } s)
        else hcBlockError n 2 s
      else if pcb = 0xC3 then
        setSlot n { x.send (t1Block x.edc 0xE3 inf) with wtx := (inf.getD 0 1).toNat, errors := 0 } s
      else if pcb = 0xC1 then setSlot n { x.send (t1Block x.edc 0xE1 inf) with ifsc := inf.getD 0 x.ifsc, errors := 0 } s
      else if pcb = 0xC2 then hcFailed n (some 0x05) (setSlot n (x.send (t1Block x.edc 0xE2 [])) s)
      else if pcb = 0xE0 ∧ x.wait = .resynch then
        let x := { x with ns := false, nr := false, errors := 0, resynchs := 0 }
        if x.resynchCmd then setSlot n { x with st := hcReady, wait := .none, resynchCmd := false } s
        else hcFailed n none (setSlot n x s)
      else hcBlockError n 2 s)

/-- T1_TIMEOUT: CWT or BWT has run out (R399, R401). -/
def execT1Timeout (n : Nat) (s : State) : Out :=
  .next (if hcOperates s n then hcErred n s else s)

/-- LINE_ERROR: HCn_IO low longer than 12 etu: the busy hold of a card without polling in the gap of WRITE_RECORD (R405),
otherwise an erroneous block (R402). -/
def execLineError (n : Nat) (s : State) : Out :=
  .next (
    let x := slotOf s n
    if hcOperates s n = false then s
    else if x.cmd = 4 ∧ x.poll = false ∧ x.left = [] ∧ x.dataEnd ≤ s.time.ticks ∧ (x.phase = .data ∨ x.phase = .gap ∨ x.phase = .busy)
    then setSlot n { x with phase := .busy, st := hcBusy } s
    else hcErred n s)

/-- STATUS_POLL (R405). -/
def execStatusPoll (n : Nat) (s : State) : Out :=
  .next (
    let x := slotOf s n
    if hcOperates s n ∧ x.phase = .busy ∧ x.poll ∧ x.wait = .none then
      let x := { x with cmd := 5 }
      setSlot n { x.apdu (profileApdu s x 5) s.time.ticks with st := hcBusy } s
    else s)

/-- BUSY_TIMEOUT: OUTCOME UNKNOWN, ERR TIMEOUT, the card deactivated (R405). -/
def execBusyTimeout (n : Nat) (s : State) : Out :=
  .next (
    let x := slotOf s n
    if hcOperates s n ∧ x.phase = .busy then hcCut n hcInserted (some 0x06) s else s)

/-- CARD_CLOCK_STOP (R406). -/
def execCardClockStop (n : Nat) (s : State) : Out :=
  .next (
    let x := slotOf s n
    if hcOperates s n ∧ x.clkstopEn ∧ x.xi ≠ 0 ∧ x.st = hcReady ∧ x.wait = .none ∧ x.stepWaits = false then
      setSlot n { x with clkStopped := true } s
    else s)

/-- An EXCHANGE of this hub cycle that no block has answered is refused after all: what it sent and set is as before (R409, R410). -/
def hcRecall (n : Nat) (s : State) : State :=
  let x := slotOf s n
  match x.begun.filter (fun b => b.cycle == s.time.cycle && x.busy && !x.ownerKs) with
  | none => s
  | some b =>
    hcRefuse n 0x08 3 (setSlot n { x with
      st := hcReady, wait := .none, left := [], sending := [], begun := none, outcome := b.outcome, rxLen := b.rxLen,
      clkStopped := b.clkStopped, lastBlock := b.lastBlock, sent := x.sent.dropLast } s)

/-- A ceremony step asks for the slot (R410): after a manager exchange in progress, but not one of its own hub cycle; after activation;
or now. -/
def hcTakeStep (n : Nat) (s : State) : State :=
  let s := hcRecall n s
  let x := { slotOf s n with stepEnd := none }
  if x.busy then setSlot n { x with stepWaits := true } s
  else if x.st = hcInserted ∧ hcOperates s n then hcActivate n (setSlot n { x with ownerKs := true, component := [] } s)
  else if x.st = hcActivating then setSlot n { x with ownerKs := true, component := [] } s
  else hcBegin n (setSlot n x s)

/-- The ephemeral key arrives from the DRBG, or does not: the latter ends the step as a card error (R403, R422). -/
def hcEphemeral (n : Nat) (key : Option (List Byte)) (s : State) : State :=
  let x := slotOf s n
  match key with
  | none => if x.ownerKs then hcFailed n none s else s
  | some k =>
    let s := setSlot n { x with eph := some k } s
    if x.cmd = 2 ∧ x.wait = .none then profileSend n 2 s else s

/-- A reset of the hat-check block: both slots are deactivated, every register but HC_Sn_CTRL and HC_Sn_TIMING returns to its
reset value (R407, R466). -/
def hcReset (n : Nat) (s : State) : State :=
  let x := slotOf s n
  let o := x.outcomeCut s.time.ticks
  let s := if x.busy ∧ o = 3 then unknownOutcome n s else s
  let ended : Option Byte := if x.ownerKs ∨ x.stepWaits then some (if x.busy ∧ o = 3 then 0x05 else 0x04) else x.stepEnd
  let y : Slot := { autoAct := x.autoAct, classA := x.classA, classB := x.classB, clkstopEn := x.clkstopEn,
                    clkdiv := x.clkdiv, busyMax := x.busyMax, pollUs := x.pollUs, stepEnd := ended, sent := x.sent
                    component := if ended = some 0 then x.component else [] }
  setSlot n y s

end Sys2Proof.Machine
end

