-- ==== Sys2Proof/Machine/Record.lean ====
section
/-!
DEFINITION. Writing a record: the trouble log (R431, R440), the two capture modes and vector 513 (R435), the counters of
R444, and markers (R367).
-/
namespace Sys2Proof.Machine

open Sys2Proof

/-- Store a record in the log entry of its SEQ and advance FC_LOG_HEAD (R440). -/
def logRecord (r : BitVec 512) (s : State) : State :=
  noteHeld (.log (s.fc.logHead.toNat % 4096)) { s with fc := { s.fc with
      log := Table.set 0 s.fc.log (s.fc.logHead.toNat % 4096) r, logHead := s.fc.logHead + 1
      logParity := Table.set [] s.fc.logParity (s.fc.logHead.toNat % 4096) (valueParity 16 r) } }

/-- FC_STICKY0 or FC_STICKY1 as a register number. -/
def stickyReg (k : Nat) : Nat := 0x400010 + 4 * k

/-- Capture for the manager (R435): sticky bits and FC_FIRST, or the history queue of 16 records. -/
def capture (src : Byte) (r : BitVec 512) (s : State) : State :=
  let full : Bool := s.fc.mode && 16 ≤ s.fc.hq.length
  let s := { s with fcq := { s.fcq with captured := some { cycle := s.time.cycle, source := src, bytes := r, missed := full } } }
  if full then bump 0x400080 0 16 s
  else if s.fc.mode then { s with fc := { s.fc with hq := s.fc.hq ++ [r] } }
  else
    let b : W64 := BitVec.ofNat 64 (2 ^ (src.toNat % 64))
    let s := noteSet (stickyReg (src.toNat / 32)) (BitVec.ofNat 64 (2 ^ (src.toNat % 32))) s
    if s.fc.sticky = 0 then
      { s with fc := { s.fc with sticky := b, first := r, firstValid := true } }
    else { s with fc := { s.fc with sticky := s.fc.sticky ||| b } }

/-- FC_CTRL.IRQ_CLASS: 6 and 7 are taken as 5 (R444). -/
def irqFrom (s : State) : Nat := min 5 s.fc.irqClass.toNat

/-- Vector 513 for an event of this class, once per hub cycle (R435). -/
def faultIrq (cls : FaultClass) (s : State) : State :=
  if s.fc.irqEn ∧ irqFrom s ≤ cls.rank ∧ s.fcq.irqCycle ≠ some s.time.cycle then
    msix 513 { s with fcq := { s.fcq with irqCycle := some s.time.cycle } }
  else s

/-- Record one event: count, capture, log, vector (R434, R435, R440). The record itself carries the SEQ of the next
logged record; SELF once (R436). -/
def writeRecord (w : Waiting) (s : State) : State :=
  let r := recordOf s.fc.logHead w (s.fcq.lastGroup == some w.cycle) s.fc.snet s.fc.selfMark
  let s := { s with
    fc := { s.fc with selfMark := false }
    fcq := { s.fcq with lastGroup := some w.cycle } }
  let s := capture w.ev.source r (bump (fcCnt w.ev.cls) 0 32 s)
  let s := if w.ev.cls = .f0 ∧ s.fc.logF0 = false then s else logRecord r s
  faultIrq w.ev.cls s

/-- A marker: KIND 0x02, source 0x16, UNIT the schedule entry, ARG in DETAIL0; logged only (R367, R431). -/
def writeMarker (k arg : Nat) (s : State) : State :=
  let r := pack [(s.fc.logHead.toNat, 0), (2, 32), (0x16, 48),
    (b2n s.fc.selfMark * 8 + b2n (!s.rm.established) * 16 + b2n s.fc.snet * 32, 56), ((nt s).toNat, 64),
    (0xB000 + k, 128), (0xFFFF, 176), (arg, 320), (0x80, 504)]
  logRecord (BitVec.ofNat 512 r) { s with fc := { s.fc with selfMark := false } }

end Sys2Proof.Machine
end

