-- ==== Sys2Proof/Machine/Lockdown.lean ====
section
/-!
DEFINITION. Lockdown (R443), and the report of an event of any class.
-/
namespace Sys2Proof.Machine

open Sys2Proof

/-- Every event still waiting or held at its source counts, and no more (R434, R443). -/
def drainWaiting (s : State) : State :=
  (s.fcq.waiting ++ s.fcq.heldAtSource).foldl (fun s w => bump (fcCnt w.ev.cls) 0 32 s)
    { s with fcq := { s.fcq with waiting := [], heldAtSource := [] } }

/-- The memories that Lockdown scrubs: key store, network buffers, audit store, working space (R17, R443). -/
def scrubCentral (s : State) : State :=
  { clearWork s with
    ks := { s.ks with entries := [], pend := [], cer := { s.ks.cer with acc := [] } }
    dol := { s.dol with
      peers := [], sessions := [], handshakes := [], txns := [], inbox := [], rxUsed := [], sharedUsed := 0,
      refusalUsed := 0, key := none, prevKey := none }
    aud := { s.aud with trees := [], queue := [], sealings := [] } }

/-- Cores held in reset. -/
def holdCores (s : State) : State :=
  { s with cores := s.cores.map (fun c => (c.1, { c.2 with run := .inReset })), mgmt := { s.mgmt with held := true } }

/-- An F5 event (R443): it is recorded ahead of every waiting event, copied to FC_LOCK, and the device locks down.
`whole`: the hub domain has restarted, and central memory is scrubbed whole, the trouble log included. -/
def lockdownAs (w : Waiting) (whole : Bool) (s : State) : State :=
  if s.fc.lock then bump 0x400240 0 8 s
  else
    let r := recordOf s.fc.logHead w (s.fcq.lastGroup == some w.cycle) s.fc.snet s.fc.selfMark
    let irq := s.fc.irqEn
    let s := drainWaiting (writeRecord w s)
    let s := if irq && s.fcq.irqCycle != some s.time.cycle then msix 513 s else s
    let s := scrubCentral (holdCores s)
    hcReset 1 (hcReset 0 { s with
      fc := { s.fc with lock := true, lockRec := r, log := if whole then [] else s.fc.log,
                               logParity := if whole then [] else s.fc.logParity }
      rng := { s.rng with pool := [], keyV := 0 }
      boot := { s.boot with ringUp := 0 }
      net := { s.net with port := s.net.port.map (fun p => (p.1, { p.2 with link := false, tx := [] })) } })

def lockdown (ev : Event) (whole : Bool) (s : State) : State := lockdownAs (stamped ev s) whole s

/-- An event of any class from a unit. -/
def raiseEv (ev : Event) (s : State) : State := if ev.cls = .f5 then lockdown ev false s else report ev s

end Sys2Proof.Machine
end

