-- ==== Sys2Proof/Machine/Audit.lean ====
section
/-!
DEFINITION. The audit chain: receipts and their indices (R369–R371), epochs and boundaries (R372, R373), sealing and the seal
ring (R374–R379), and the uncertainty figure of NT that the header carries (R364).
-/
namespace Sys2Proof.Machine

open Sys2Proof

/-! ### Uncertainty (R364) -/

/-- U in ns, saturating; 0xFFFF_FFFF until NT is established (R358). -/
def uncertainty (s : State) : Nat :=
  let r := s.rm
  if r.established = false then 0xFFFFFFFF
  else
    let b := if r.src = 0 then r.uncSet.toNat else if r.src = 1 then r.uncBase.toNat
      else r.ppsErr.foldl max 0 + r.ppsAcc.toNat
    let h := if r.holdover then r.holdRate.toNat * (r.nt.toNat - r.holdFrom.toNat) / 10 ^ 9 else 0
    sat 32 (b + r.slewLeft.natAbs / 2 ^ 32 + h)

/-- The open epoch remembers an unestablished NT, holdover and the largest U (R375). -/
def auditTrack (s : State) : State :=
  { s with aud := { s.aud with
      unsync := s.aud.unsync || !s.rm.established, holdover := s.aud.holdover || s.rm.holdover,
      uncMax := BitVec.ofNat 32 (max s.aud.uncMax.toNat (uncertainty s)) } }

/-! ### Hashes and trees (R369, R371) -/

abbrev Digest := BitVec 256

def sha3Of (m : List Byte) : Digest := BitVec.ofNat 256 (natOf (sha3Bytes m))
def digestBytes (d : Digest) : List Byte := bytesOf d.toNat 32

def nodeHash (l r : Digest) : Digest := sha3Of (1 :: (digestBytes l ++ digestBytes r))

/-- One leaf more: equal heights combine. -/
def frontierAdd (h : Nat) (x : Digest) : List (Nat × Digest) → List (Nat × Digest)
  | [] => [(h, x)]
  | (k, y) :: r => if k = h then frontierAdd (h + 1) (nodeHash y x) r else (h, x) :: (k, y) :: r

/-- The root of a frontier, lowest first; of an empty tree SHA3-256 of the empty string. -/
def frontierRoot : List (Nat × Digest) → Digest
  | [] => sha3Of []
  | (_, x) :: r => r.foldl (fun a y => nodeHash y.2 a) x

def treeRoot (leaves : List Digest) : Digest := frontierRoot (leaves.foldl (fun f x => frontierAdd 0 x f) [])

/-- The 81 bytes of a receipt (R369). -/
def receiptLeaf (iid : Nat) (t : BitVec 512) (status fault : Byte) (outLen : W32) (ctime : W64) : List Byte :=
  ([0] : List Byte) ++ bytesOf iid 2 ++ bytesOf t.toNat 64 ++ [status, fault] ++ bytesOf outLen.toNat 4
    ++ bytesOf ctime.toNat 8

/-- A receipt is absorbed; a lost tree absorbs nothing (R378). -/
def absorb (r : Receipt) (t : Tree) : Tree :=
  if t.lost then t
  else { count := t.count + 1, frontier := frontierAdd 0 (sha3Of r.leaf) t.frontier }

def absorbInto (r : Receipt) (t : Table Tree) : Table Tree := Table.set {} t r.iid (absorb r (Table.get {} t r.iid))

/-! ### Receipt indices (R370) -/

/-- Overwrite the receipt field of the completion entry last written at an address, wherever the write now is. -/
def patchEntry (addr : W64) (index : Nat) (l : List HostReq) : List HostReq :=
  let fix (r : HostReq) : HostReq := match r with
    | .write p a d => if a = addr ∧ d.length = 31 then .write p a (d.take 24 ++ bytesOf index 4 ++ d.drop 28) else .write p a d
    | x => x
  let isIt (r : HostReq) : Bool := match r with
    | .write _ a d => a == addr && d.length == 31
    | _ => false
  match l.reverse.findIdx? isIt with
  | some k => l.modify (l.length - 1 - k) fix
  | none => l

/-- A commit of this hub cycle takes another index, in another epoch if a boundary moved it. -/
def renumber (c : NowCommit) (epoch : W64) (index : Nat) (s : State) : State :=
  let q := s.aud.queue.map (fun (r : Receipt) =>
    if r.iid = c.iid ∧ r.index = c.index ∧ r.epoch = s.aud.epoch then { r with epoch := epoch, index := index } else r)
  let s := { s with aud := { s.aud with queue := q } }
  match c.entry with
  | some a => { s with pcie := { s.pcie with issued := patchEntry a index s.pcie.issued,
                                             held := patchEntry a index s.pcie.held } }
  | none => s

/-- Commits of the hub cycle in ascending core order. -/
def insertNow (c : NowCommit) : List NowCommit → List NowCommit
  | [] => [c]
  | x :: r => if c.iid = x.iid ∧ c.core < x.core then c :: x :: r else x :: insertNow c r

/-- A commit takes its index: commits of one instance in one hub cycle in ascending order of core (R370 step 2), so later
cores of this cycle move up by one. The receipt itself is queued by `queueReceipt`. -/
def assignIndex (iid coreNo tid : Nat) (s : State) : Nat × State :=
  let count := Table.get 0 s.aud.counts iid
  let behind := s.aud.now.filter (fun c => c.iid == iid && coreNo < c.core)
  let index := count - behind.length
  let s := behind.reverse.foldl (fun s c => renumber c s.aud.epoch (c.index + 1) s) s
  let now := s.aud.now.map (fun (c : NowCommit) =>
    if c.iid = iid ∧ coreNo < c.core then { c with index := c.index + 1 } else c)
  (index, { s with aud := { s.aud with
    counts := Table.set 0 s.aud.counts iid (count + 1),
    now := insertNow { iid := iid, core := coreNo, tid := tid, index := index, entry := none } now } })

/-- The completion entry of a commit of this hub cycle lies at an address. -/
def noteEntry (tid : Nat) (addr : W64) (s : State) : State :=
  { s with aud := { s.aud with now := s.aud.now.map (fun (c : NowCommit) => if c.tid = tid then { c with entry := some addr } else c) } }

def queueReceipt (iid index : Nat) (leaf : List Byte) (s : State) : State :=
  { s with aud := { s.aud with queue := s.aud.queue ++ [{ epoch := s.aud.epoch, iid := iid, index := index, leaf := leaf }] } }

/-- The Usher holds an instance's commit signals: the receipt queue is full, or the count has reached its end (R370, R373). -/
def commitHeld (s : State) (iid : Nat) : Bool :=
  4096 ≤ s.aud.queue.length || 0xFFFFFFFE ≤ Table.get 0 s.aud.counts iid

/-! ### Epochs and boundaries (R372, R373, R377) -/

def audStatusReg : Nat := 0xB00018
def stagedCount (s : State) : Nat := (s.aud.sealings.filter (fun x => x.staged)).length

/-- Begin an epoch in this hub cycle. -/
def startEpoch (n : W64) (s : State) : State :=
  { s with aud := { s.aud with
      isOpen := true, begun := true, epoch := n, ntStart := s.rm.nt, unsync := !s.rm.established,
      holdover := s.rm.holdover, uncMax := BitVec.ofNat 32 (uncertainty s), counts := [], trees := [] } }

/-- Header flags of a closing epoch but COSIGNED, UNSIGNED and LOST (R375): entry 0's own boundary carries neither EARLY
nor a cause; otherwise the lowest early cause. -/
def closingFlags (s : State) : Nat :=
  let a := s.aud
  let early : Bool := !a.pendSeal && a.pendEarly != []
  pack [(b2n early, 1), (if early then a.pendEarly.foldl min 3 else 0, 2), (b2n a.pendFinal, 4), (b2n a.unsync, 6),
    (b2n a.holdover, 7)]

/-- The boundary takes effect in this hub cycle: the epoch closes, frontiers freeze, the next one opens with the commits of
this cycle (R373, R374 step 1). After the FINAL boundary none opens (R379). -/
def takeBoundary (s : State) : State :=
  let a := s.aud
  let count (i : Nat) : Nat := Table.get 0 a.counts i - (a.now.filter (fun c => c.iid == i)).length
  let ids := a.counts.map (fun c => c.1)
  let closing : Sealing := {
    epoch := a.epoch, ntStart := a.ntStart, ntEnd := s.rm.nt, flags := BitVec.ofNat 16 (closingFlags s),
    uncMax := a.uncMax, counts := ids.foldl (fun t i => Table.set 0 t i (count i)) [], trees := a.trees }
  let isFinal := a.pendFinal
  let moved := a.now
  let s := moved.foldl (fun s c =>
    renumber c (a.epoch + 1) ((moved.filter (fun d => d.iid == c.iid && d.core < c.core)).length) s) s
  let s := { s with aud := { s.aud with
    sealings := s.aud.sealings ++ [closing], pendSeal := false, pendEarly := [], pendFinal := false, delayed := false } }
  if isFinal then { s with aud := { s.aud with isOpen := false, counts := [], trees := [] } }
  else
    let s := startEpoch (a.epoch + 1) s
    moved.foldl (fun s c =>
      let k := Table.get 0 s.aud.counts c.iid
      { s with aud := { s.aud with
          counts := Table.set 0 s.aud.counts c.iid (k + 1),
          now := s.aud.now.map (fun (d : NowCommit) => if d.tid = c.tid then { d with
            index := (moved.filter (fun e => e.iid == c.iid && e.core < c.core)).length } else d) } }) s

/-- A boundary waits and NT has changed: it takes effect, unless staging is full, which counts once and is noticed (R377). -/
def tryBoundary (s : State) : State :=
  let a := s.aud
  if a.isOpen = false ∨ (a.pendSeal = false ∧ a.pendEarly = [] ∧ a.pendFinal = false) then s
  else if 8 ≤ stagedCount s then
    if a.delayed then s
    else stateNotice 0x10 0 audStatusReg (BitVec.ofNat 64 (stagedCount s * 2 ^ 8))
      (bump audStatusReg 0 8 { s with aud := { a with delayed := true } })
  else takeBoundary s

/-- A cause arises in this hub cycle c: the boundary falls in the first cycle from c on in which NT changes (R373). -/
def boundaryNow (s : State) : State := if s.rm.moved then tryBoundary s else s

/-- Entry 0 fires. -/
def causeSeal (s : State) : State :=
  if s.aud.isOpen ∧ s.fc.snet = false then boundaryNow { s with aud := { s.aud with pendSeal := true } } else s

/-- An early cause: 0 receipt count, 2 REMOVE, 3 SEAL_NOW. -/
def causeEarly (k : Nat) (s : State) : State :=
  if s.aud.isOpen then boundaryNow { s with aud := { s.aud with pendEarly := s.aud.pendEarly ++ [k] } } else s

/-- A step of NT: c is the cycle after the step. -/
def causeStep (s : State) : State :=
  if s.aud.isOpen then { s with aud := { s.aud with pendEarly := s.aud.pendEarly ++ [1] } } else s

/-- The last instance ticket in flight of safety-net mode has its final entry. -/
def causeFinal (s : State) : State :=
  if s.aud.isOpen then boundaryNow { s with aud := { s.aud with pendFinal := true } } else s

/-- SEAL_NOW (R373). -/
def execSealNow (s : State) : Out := .next (hostWrite (causeEarly 3) s)

/-! ### Sealing (R374–R376) -/

/-- RECEIPT_HASH: the oldest queued receipt joins its tree (R370). -/
def execReceiptHash (s : State) : Out :=
  .next (
    match s.aud.queue with
    | [] => s
    | r :: rest =>
      let s := noteHeld (.audit r.iid) { s with aud := { s.aud with queue := rest } }
      if s.aud.isOpen ∧ r.epoch = s.aud.epoch then { s with aud := { s.aud with trees := absorbInto r s.aud.trees } }
      else { s with aud := { s.aud with sealings := s.aud.sealings.map (fun (x : Sealing) =>
        if x.epoch = r.epoch then { x with trees := absorbInto r x.trees } else x) } })

/-- The header, with FLAGS bits 0 and 5 as given (R375). -/
def sealHeader (s : State) (x : Sealing) (cosigned unsigned : Bool) : List Byte :=
  [0x4B, 0x58, 0x53, 0x31] ++ bytesOf 1 2 ++ bytesOf (x.flags.toNat + b2n cosigned + 32 * b2n unsigned) 2
    ++ bytesOf (iidCount s) 2 ++ bytesOf 0 6 ++ bytesOf x.epoch.toNat 8 ++ bytesOf x.ntStart.toNat 8
    ++ bytesOf x.ntEnd.toNat 8 ++ bytesOf x.uncMax.toNat 4 ++ bytesOf 0 4 ++ slice (s.aud.bootId ++ bytesOf 0 32) 0 32
    ++ digestBytes s.aud.prev ++ digestBytes (x.topRoot.getD 0)

def modSealing (e : W64) (f : Sealing → Sealing) (s : State) : State :=
  { s with aud := { s.aud with sealings := s.aud.sealings.map (fun x => if x.epoch = e then f x else x) } }

/-- Both seal tickets have ended: the record stands in staging, and the next header's PREV is its hash (R374, R375). -/
def sealStaged (e : W64) (s : State) : State :=
  match s.aud.sealings.find? (fun x => x.epoch == e) with
  | none => s
  | some x =>
    if x.sign.done ∧ x.cosign.done ∧ x.staged = false then
      let h := sealHeader s x x.cosign.sig.isSome x.sign.sig.isNone
      let s := modSealing e (fun x => { x with staged := true, header := some h }) s
      { s with aud := { s.aud with prev := sha3Of h, isFinal := s.aud.isFinal || bit x.flags 4 } }
    else s

/-- Submit a device ticket of act 0x0701 or 0x0702 (R374). -/
def submitSeal (e : W64) (kind : Nat) (s : State) : State :=
  let tid := s.nextTicket
  let t : Ticket := {
    id := tid, iid := 0xFFFF, origin := .seal kind,
    bytes := BitVec.ofNat 512 (pack [(if kind = 0 then 0x701 else 0x702, 0), (0xFFFFFFFF, 32)]), phase := .queued }
  let set (g : SealSign) : SealSign := { g with tid := some tid, ended := none, retry := false }
  modSealing e (fun x => if kind = 0 then { x with sign := set x.sign } else { x with cosign := set x.cosign })
    { s with tickets := s.tickets ++ [t], nextTicket := tid + 1 }

/-- No core is usable: no ring is up, or safety-net mode holds with every ring retired. -/
def noUsableCore (s : State) : Bool :=
  !(List.range (coreCount s)).any (fun c => bit s.boot.ringUp (ringOf c) && !bit s.ush.ringRet (ringOf c) && !bit s.ush.coreRet c)

/-- Step 4 for the oldest epoch not yet staged, once its roots are computed and BOOT_ID exists (R374, R376): the seal
tickets are submitted; in MAKER, RETURNED and SCRAPPED none is (R454), nor for a FINAL epoch without a usable core (R379). -/
def sealStart (s : State) : State :=
  match s.aud.sealings.find? (fun x => !x.staged) with
  | none => s
  | some x =>
    if x.topRoot.isNone ∨ x.header.isSome ∨ s.aud.bootReady = false then s
    else
      let s := modSealing x.epoch (fun y => { y with header := some (sealHeader s x false false) }) s
      let skip : Bool := !(s.lcs.st == 1 || s.lcs.st == 2) || (bit x.flags 4 && noUsableCore s)
      if skip then
        sealStaged x.epoch (modSealing x.epoch (fun y => { y with
          sign := { y.sign with done := true }, cosign := { y.cosign with done := true } }) s)
      else
        let s := submitSeal x.epoch 0 s
        if s.aud.cosign then submitSeal x.epoch 1 s
        else modSealing x.epoch (fun y => { y with cosign := { y.cosign with done := true } }) s

/-- EPOCH_ROOTS_DONE: steps 2–4 of R374 for the oldest epoch that has not passed step 3. -/
def execEpochRootsDone (s : State) : Out :=
  .next (
    match s.aud.sealings.find? (fun x => x.topRoot.isNone) with
    | none => s
    | some x =>
      let mine := s.aud.queue.filter (fun r => r.epoch == x.epoch)
      let trees := mine.foldl (fun t r => absorbInto r t) x.trees
      let top (n : Nat) : Digest :=
        let t := Table.get {} trees n
        sha3Of (([2] : List Byte) ++ bytesOf x.epoch.toNat 8 ++ bytesOf n 2
          ++ bytesOf (if t.lost then 0xFFFFFFFF else Table.get 0 x.counts n) 4
          ++ digestBytes (if t.lost then 0 else frontierRoot t.frontier))
      let tops := (List.range (iidCount s)).map top
      let lost : Bool := trees.any (fun t => t.2.lost)
      let s := modSealing x.epoch (fun y => { y with
        trees := trees, tops := tops, topRoot := some (treeRoot tops),
        flags := if lost then y.flags ||| 0x100 else y.flags }) s
      sealStart { s with aud := { s.aud with queue := s.aud.queue.filter (fun r => r.epoch != x.epoch) } })

/-- A device ticket has ended with a status (at its commit, or when it is stopped). -/
def sealTicketEnded (tid : Nat) (status : Byte) (s : State) : State :=
  let f (g : SealSign) : SealSign := if g.tid = some tid then { g with tid := none, ended := some status } else g
  { s with aud := { s.aud with sealings := s.aud.sealings.map (fun x => { x with sign := f x.sign, cosign := f x.cosign }) } }

/-- Deterministic ML-DSA-87 of a header under the attestation key, in pure mode with the context KX-SEAL-1 (R374, R454): the first attempt
that passes, of the 1,024 that R215 searches. -/
def sealSignature (s : State) (header : List Byte) : List Byte :=
  let sk := bytesFrom (Config.attestPrivate (attestSeed s.lcs.secret s.lcs.serial)) 4896
  let m := [0x00, 0x09, 0x4B, 0x58, 0x2D, 0x53, 0x45, 0x41, 0x4C, 0x2D, 0x31] ++ header
  let rnd := List.replicate 32 0
  let g := ((List.range 1024).find? (Config.mldsaAccepts 3 sk m rnd)).getD 0
  bytesFrom (Config.mldsaAttempt 3 sk m rnd g) 4627

/-- ECDSA P-384 over SHA-384 of a header under the co-signing key, with 448 random bits for its nonce: r ‖ s (R374, R375). -/
def sealCosignature (s : State) (header : List Byte) (random : Nat) : List Byte :=
  let d := bigEndian (bytesFrom (Config.cosignPrivate s.lcs.secret s.lcs.serial) 48)
  let r := p384.sign d (p384.digest (bytesFrom (Config.hashOut 1 2 header) 48)) (p384.scalar random)
  beBytes 48 r.1 ++ beBytes 48 r.2

/-- The end of one seal ticket (R374): DONE gives the signature; SEAL_COSIGN NOT_READY waits; a third failure leaves the field
zero with an F2 event naming the epoch; otherwise it is submitted again. -/
def sealEnd (x : Sealing) (kind : Nat) (s : State) : State :=
  let g := if kind = 0 then x.sign else x.cosign
  let put (h : SealSign) (s : State) : State :=
    modSealing x.epoch (fun y => if kind = 0 then { y with sign := h } else { y with cosign := h }) s
  match g.ended with
  | none => s
  | some st =>
    let g := { g with ended := none }
    if st = 0 then
      let r := nextFresh s
      let h := x.header.getD []
      let sig := if kind = 0 then sealSignature s h else sealCosignature s h (Config.freeBits 448 r.1).toNat
      sealStaged x.epoch (put { g with done := true, sig := some sig } r.2)
    else if kind = 1 ∧ st = 0x13 then put { g with retry := true } s
    else if 2 ≤ g.fails then
      sealStaged x.epoch (put { g with fails := g.fails + 1, done := true }
        (report { cls := .f2, source := 0x10, cause := 0x08, detail0 := x.epoch } s))
    else submitSeal x.epoch kind (put { g with fails := g.fails + 1 } s)

/-- SEAL_TICKET_END (R374). -/
def execSealTicketEnd (s : State) : Out :=
  .next (
    match s.aud.sealings.find? (fun x => x.sign.ended.isSome || x.cosign.ended.isSome) with
    | none => s
    | some x => sealStart (if x.sign.ended.isSome then sealEnd x 0 s else sealEnd x 1 s))

/-- SEAL_COSIGN_RETRY: 1 ms after a NOT_READY (R374). -/
def execSealCosignRetry (s : State) : Out :=
  .next (
    match s.aud.sealings.find? (fun x => x.cosign.retry) with
    | none => s
    | some x => submitSeal x.epoch 1 s)

/-- A staged record is lost: its epoch is sealed again from its saved top leaves, with LOST (R378), and with it the later epochs whose
headers hold the hash of its header (DEDUCED, assumption 109). -/
def resealRecord (e : W64) (s : State) : State :=
  match s.aud.sealings.find? (fun x => x.epoch == e && x.staged) with
  | none => s
  | some x =>
    let again (y : Sealing) : Sealing :=
      if y.epoch.ult e then y
      else { y with staged := false, header := none, sign := {}, cosign := {}, flags := if y.epoch = e then y.flags ||| 0x100 else y.flags }
    sealStart { s with aud := { s.aud with
      sealings := s.aud.sealings.map again, prev := BitVec.ofNat 256 (natOf (slice (x.header.getD []) 0x50 32)) } }

/-! ### The seal ring (R375, R377) -/

def ringSize (s : State) : Nat := if s.aud.ringLog2 = 0 then 0 else 2 ^ (min 12 s.aud.ringLog2.toNat)

/-- The 24 KiB slot of a record (R375). -/
def sealRecord (x : Sealing) : List Byte :=
  let a := padTo ((x.header.getD []) ++ (x.sign.sig.getD [])) 0x12C0
  let b := padTo (a ++ x.cosign.sig.getD []) 0x1400
  padTo (b ++ (x.tops.map digestBytes).flatten) 0x6000

/-- SEAL_RECORD_WRITE: the oldest staged record goes to its slot, then HEAD, then vector 512 (R377); in D3hot it stays in staging (R41). -/
def execSealRecordWrite (s : State) : Out :=
  .next (
    match s.aud.sealings with
    | [] => s
    | x :: rest =>
      if x.staged = false ∨ s.pcie.d3hot ∨ ringSize s ≤ (s.aud.head - s.aud.tail).toNat then s
      else
        let slot := s.aud.head.toNat % ringSize s
        let s := emit (.write none (s.aud.base + BitVec.ofNat 64 (slot * 0x6000)) (sealRecord x)) s
        let s := { s with aud := { s.aud with sealings := rest, head := s.aud.head + 1 } }
        let s := if s.aud.irq then msix 512 s else s
        boundaryNow s)

/-- AUD_RING_TAIL_WRITE (R382). -/
def execAudRingTailWrite (data : W32) (s : State) : Out :=
  .next (hostWrite (fun s =>
    if (s.aud.head - data).toNat ≤ ringSize s then { s with aud := { s.aud with tail := data } }
    else ignoredWrite 0x10 0xB00014 (data.setWidth 64) none s) s)

end Sys2Proof.Machine
end

