-- ==== Sys2Proof/Machine/Entropy.lean ====
section
/-!
DEFINITION. Noise sources, health tests and the pool (R412–R419), the DRBG with its queue, reseeds and holds (R420–R427).
-/
namespace Sys2Proof.Machine

open Sys2Proof

def rngReg (off : Nat) : Nat := 0x800000 + off
def noiseReg (src off : Nat) : Nat := 0x800100 + 0x40 * src + off

/-- A DRBG request's place in time: `count` at 2^20 holds non-PR requests (R424). -/
def drbgLimit : Nat := 2 ^ 20

/-- RNG_STATUS as read (R428). -/
def rngStatus (s : State) : Nat :=
  let g := s.rng
  pack [(b2n g.ready, 31), (b2n g.starved, 30), (b2n g.reseedPending, 29), (b2n g.instPending, 28), (g.queue.length, 16),
    (g.pool.length, 8)]
  + ((List.range 4).filter (fun k => (Table.get {} g.src k).lastPass)).foldl (fun a k => a + 2 ^ k) 0

/-! ### Who draws what (R422) -/

/-- Length and PR flag of the request a unit has to make now; none when it has none. -/
def drbgWants (s : State) : DrbgUser → Option (Nat × Bool)
  | .hash c e =>
    match (Table.get {} s.hash (2 * c + e)).queue with
    | q :: _ => if q.op = 7 then some (q.out, q.pr) else none
    | [] => none
  | .pinfmt c e =>
    match (Table.get {} s.bc (2 * c + e)).queue with
    | q :: _ => if q.op = 8 then some (16, false) else none
    | [] => none
  | .mrgSeed r k => if (Table.get {} s.mrg (8 * r + k)).requested then some (32, false) else none
  | .cookie => if s.dol.draw then some (32, false) else none
  | .blob c =>
    match (core s c).run with
    | .keyget _ _ u => if u = 0x20 then some (12, false) else none
    | _ => none
  | .ceremony => if s.ks.cer.opening then some (4, false) else none
  | .hatCheck n => if (slotOf s n).ownerKs ∧ (slotOf s n).cmd ≠ 0 ∧ (slotOf s n).eph.isNone then some (32, false) else none
  | .challenge => if s.lcs.drawing then some (32, false) else none
  | .bootId => none

/-- A mask-generator seed waits without limit and never completes NOT_READY (R422). -/
def isSeed : DrbgUser → Bool
  | .mrgSeed _ _ => true
  | _ => false

/-- What a unit has received and not yet taken. -/
def drbgAnswer (s : State) (who : DrbgUser) : Option (Option (List Byte)) :=
  (s.rng.answers.find? (fun a => a.1 == who)).map (fun a => a.2)

/-- The unit takes its answer, or withdraws its request (R425). -/
def drbgCancel (who : DrbgUser) (s : State) : State :=
  { s with rng := { s.rng with
      queue := s.rng.queue.filter (fun r => r.who != who), answers := s.rng.answers.filter (fun a => a.1 != who) } }

/-- Output or NOT_READY reaches the unit. A cookie key opens an epoch (R335), KS_CER_ID the ceremony (R308), the challenge
and BOOT_ID their registers (R376, R460); the other units take it in their own steps. -/
def drbgDeliver (who : DrbgUser) (out : Option (List Byte)) (s : State) : State :=
  match who with
  | .cookie =>
    match out with
    | some k =>
      let d := s.dol
      { s with dol := { d with
          epoch := if d.key.isSome then d.epoch + 1 else d.epoch, prevKey := d.key, key := some k,
          epochFrom := ntN s, draw := false } }
    | none => { s with dol := { s.dol with draw := false, redraw := true } }
  | .ceremony =>
    let c := { s.ks.cer with opening := false, busy := false }
    match out with
    | some k => { s with ks := { s.ks with cer := { c with
        isOpen := true, step := 0, id := BitVec.ofNat 32 (natOf k), result := 0, acc := [], resumePending := false } } }
    | none => { s with ks := { s.ks with
        entries := Table.set {} s.ks.entries c.slot.toNat {},
        cer := { c with result := 0x08 } } }
  | .challenge =>
    match out with
    | some k => { s with lcs := { s.lcs with
        chal := k, chalFresh := true, drawing := false, dbgBusy := false, dbgResult := 0 } }
    | none => { s with lcs := { s.lcs with drawing := false, dbgBusy := false, dbgResult := 0x07 } }
  | .bootId => { s with aud := { s.aud with bootId := out.getD [], bootReady := true } }
  | .hatCheck n => hcEphemeral n out s
  | _ => { s with rng := { s.rng with answers := s.rng.answers ++ [(who, out)] } }

/-- A request completes NOT_READY (R424): counted, and the first since power-on, an instantiation or a reseed is noticed. -/
def drbgNotReady (who : DrbgUser) (s : State) : State :=
  let s := bump (rngReg 0x18) 0 16 s
  let s := if s.rng.noticed then s
    else stateNotice 0x15 0 (rngReg 4) (BitVec.ofNat 64 (rngStatus s)) { s with rng := { s.rng with noticed := true } }
  drbgDeliver who none s

/-- A request at the head must wait for a reseed or an instantiation (R424). -/
def drbgMustWait (s : State) (r : DrbgReq) : Bool :=
  let g := s.rng
  g.faulty || (r.pr && !g.prReady) || g.completed < r.after || (!r.pr && drbgLimit ≤ g.count)

/-- A request waits for itself or behind the head of the queue, which waits (R423, R424). -/
def drbgWaits (s : State) (r : DrbgReq) : Bool :=
  drbgMustWait s r || (match s.rng.queue with
    | h :: _ => drbgMustWait s h
    | [] => false)

/-- STARVED: a request waits because the counter is at 2^20. -/
def drbgStarved (s : State) : State :=
  { s with rng := { s.rng with starved := drbgLimit ≤ s.rng.count && s.rng.queue.any (fun r => !r.pr) } }

/-- Begin what credit allows: an instantiation with three windows, a reseed with two (R421, R423). -/
def drbgStart (s : State) : State :=
  let g := s.rng
  let n := g.pool.length
  let headPr : Bool := match g.queue with
    | r :: _ => r.pr && !g.prReady && !g.faulty
    | [] => false
  if g.instRunning ∨ g.reseedRunning ∨ g.katPassed = false then s
  else if (g.ready = false ∨ g.instPending ∨ g.faulty) ∧ 3 ≤ n then { s with rng := { g with instRunning := true } }
  else if g.ready ∧ g.faulty = false ∧ 2 ≤ n ∧ (headPr ∨ g.reseedPending) then
    { s with rng := { g with reseedRunning := true, reseedPending := false, begun := g.begun + 1, forPr := headPr } }
  else s

/-! ### Noise sources (R412–R418) -/

/-- A window's walk through the repetition-count test: bits left, run so far, whether a run reached the cutoff (R414). -/
def rctWalk (bits : BitVec 1024) (cut : Nat) : Nat → Bool → Nat → Bool → Bool × Nat × Bool
  | 0, b, run, trip => (b, run, trip)
  | k + 1, b, run, trip =>
    let x := bit bits (1023 - k)
    let run' := if x = b ∧ run ≠ 0 then run + 1 else 1
    rctWalk bits cut k x run' (trip || run' == max 1 cut)

/-- Positions of the window that hold 1; positions i with b_i = b_(i+k) (R417). -/
def onesOf (b : BitVec 1024) : Nat := ((List.range 1024).filter (fun i => bit b i)).length
def agreeOf (b : BitVec 1024) (k : Nat) : Nat := ((List.range (1024 - k)).filter (fun i => bit b i == bit b (i + k))).length

/-- NOISE_WINDOW_END (R413–R419). A source samples while its bit is set and TIO is stable. -/
def execNoiseWindowEnd (src : Nat) (bits : BitVec 1024) (s : State) : Out :=
  .next (
    if 4 ≤ src ∨ bit s.rng.srcEn src = false ∨ s.clk.tioStable = false ∨ s.fc.lock then s
    else
      let g := s.rng
      let x := Table.get {} g.src src
      let r := rctWalk bits g.rctC.toNat 1024 x.runBit x.run false
      let ones := onesOf bits
      let same := if bit bits 0 then ones else 1024 - ones
      let apt : Bool := g.aptC.toNat ≤ same
      let pass : Bool := !r.2.2 && !apt
      let credit : Bool := pass && !(g.rawRunning && g.rawSrc.toNat == src)
      let x := { x with
        runBit := r.1, run := r.2.1, next := x.next + 1, lastPass := pass, valid := true, ones := ones,
        rctTrip := r.2.2, aptTrip := apt, window := BitVec.ofNat 16 x.next,
        agree := (List.range 8).map (fun k => agreeOf bits (k + 1)) }
      let s := { s with rng := { g with
        src := Table.set {} g.src src x, pool := if credit ∧ g.pool.length < 16 then g.pool ++ [bits] else g.pool } }
      let s := bump (noiseReg src 4) (if pass then 0 else 1) 16 s
      let s := if r.2.2 then bump (noiseReg src 8) 1 16 s else s
      let s := if apt then bump (noiseReg src 8) 0 16 s else s
      drbgStart s)

/-- MAKER or INTEGRATOR (R428, R455). -/
def rngWritable (s : State) : Bool := s.lcs.st == 0 || s.lcs.st == 1

/-- SRC_EN_WRITE: a source stopped loses its window and its repetition run (R413). -/
def execSrcEnWrite (data : W32) (s : State) : Out :=
  .next (hostWrite (fun s =>
    if rngWritable s = false then ignoredWrite 0x15 (rngReg 0) (data.setWidth 64) none s
    else
      let en : BitVec 4 := data.setWidth 4
      let src := (List.range 4).foldl (fun t k =>
        if bit s.rng.srcEn k ∧ bit en k = false then Table.set {} t k { Table.get {} t k with run := 0 } else t) s.rng.src
      { s with rng := { s.rng with srcEn := en, src := src } }) s)

/-- RNG_STAT_READ: the read latches LAG1–8 and returns the window's results (R417). -/
def execRngStatRead (src : Nat) (s : State) : Out :=
  .next (
    let x := Table.get {} s.rng.src src
    let v := pack [(x.ones, 21), (b2n x.rctTrip, 18), (b2n x.aptTrip, 17), (b2n x.valid, 16), (x.window.toNat, 0)]
    if 4 ≤ src ∨ s.fc.lock ∨ s.lcs.st = 4 then { s with pcie := { s.pcie with readData := 0 } }
    else { s with
      rng := { s.rng with src := Table.set {} s.rng.src src { x with latched := x.agree } }
      pcie := { s.pcie with readData := BitVec.ofNat 64 v } })

/-- RAW_CAPTURE: GO in MAKER; elsewhere ignored with a Notice (R418). -/
def execRawCapture (data : W32) (s : State) : Out :=
  .next (hostWrite (fun s =>
    if s.lcs.st = 0 then
      { s with rng := { s.rng with rawSrc := data.setWidth 2, rawRunning := true, rawDone := false } }
    else ignoredWrite 0x15 (rngReg 0x400) (data.setWidth 64) none s) s)

/-- RAW_CAPTURE_DONE: 16,384 raw bits (R418). -/
def execRawCaptureDone (bits : BitVec 16384) (s : State) : Out :=
  .next (
    if s.rng.rawRunning then { s with rng := { s.rng with raw := bits, rawRunning := false, rawDone := true } } else s)

/-! ### The DRBG (R420–R427) -/

/-- DRBG_KAT_DONE: the known-answer test passes, or its failure is Lockdown (R420). -/
def execDrbgKatDone (passed : Bool) (s : State) : Out :=
  .next (
    if s.rng.katRunning = false then s
    else
      let s := { s with rng := { s.rng with katRunning := false, katPassed := passed } }
      if passed then drbgStart s else raiseEv { cls := .f5, source := 0x15, cause := 0x0F } s)

/-- Pool windows whose parity fails at a use are discarded, an F1 event each (R427). -/
def poolDiscard (bad : BitVec 16) (n : Nat) (s : State) : State :=
  let hit := (List.range (min n s.rng.pool.length)).filter (fun k => bit bad k)
  hit.foldl (fun s _ => report { cls := .f1, source := 0x15, cause := 0x01 } s)
    { s with rng := { s.rng with
        pool := ((List.range s.rng.pool.length).filter (fun k => !hit.contains k)).map (fun k => s.rng.pool.getD k 0) } }

def anyBad (bad : BitVec 16) (n : Nat) : Bool := (List.range n).any (fun k => bit bad k)

/-- The personalisation string: KX-DRBG-1, the serial, RNG_PERS0–7 (R421). -/
def drbgPers (s : State) : List Byte :=
  [0x4B, 0x58, 0x2D, 0x44, 0x52, 0x42, 0x47, 0x2D, 0x31] ++ bytesOf s.lcs.serial.toNat 16
    ++ ((List.range 8).map (fun k => bytesOf (Table.get 0 s.rng.pers k).toNat 4)).flatten

/-- Entropy input: the two oldest windows. -/
def twoWindows (s : State) : BitVec 2048 :=
  BitVec.ofNat 2048 ((s.rng.pool.getD 0 0).toNat + 2 ^ 1024 * (s.rng.pool.getD 1 0).toNat)

/-- DRBG_INSTANTIATE_DONE (R421, R427): the new state, the counter 0; the first makes READY and draws BOOT_ID ahead of
every waiting request (R376, R422). -/
def execDrbgInstantiateDone (bad : BitVec 16) (s : State) : Out :=
  .next (
    if s.rng.instRunning = false ∨ s.rng.pool.length < 3 then s
    else if anyBad bad 3 then
      let s := poolDiscard bad 3 s
      drbgStart { s with rng := { s.rng with instRunning := false } }
    else
      let g := s.rng
      let kv := Config.drbgInstantiate (twoWindows s) (g.pool.getD 2 0) (drbgPers s)
      let boot : List DrbgReq :=
        if s.aud.bootReady ∨ g.queue.any (fun r => r.who == .bootId) then []
        else [{ who := .bootId, len := 32, pr := false, since := s.time.ticks }]
      drbgStart (drbgStarved { s with rng := { g with
        keyV := kv, count := 0, ready := true, faulty := false, noticed := false, instRunning := false,
        instPending := false, pool := g.pool.drop 3, queue := boot ++ g.queue } }))

/-- INSTANTIATE (R421). -/
def execInstantiate (s : State) : Out := .next (hostWrite (fun s => drbgStart { s with rng := { s.rng with instPending := true } }) s)

/-- A reseed trigger: RNG_CMD, or the Ringmaster's RESEED (R367, R423). A blocking one holds later requests until the first
reseed that begins after it has completed. -/
def reseedTrigger (blocking : Bool) (s : State) : State :=
  drbgStart { s with rng := { s.rng with
    reseedPending := true, blockUntil := if blocking then s.rng.begun + 1 else s.rng.blockUntil } }

/-- RESEED (R423). -/
def execReseed (s : State) : Out := .next (hostWrite (reseedTrigger false) s)

/-- RESEED_BLOCKING (R423). -/
def execReseedBlocking (s : State) : Out := .next (hostWrite (reseedTrigger true) s)

/-- DRBG_RESEED_DONE (R423, R427). -/
def execDrbgReseedDone (bad : BitVec 16) (s : State) : Out :=
  .next (
    let g := s.rng
    if g.reseedRunning = false ∨ g.pool.length < 2 then s
    else if anyBad bad 2 then
      let s := poolDiscard bad 2 s
      drbgStart { s with rng := { s.rng with
        reseedRunning := false, begun := g.begun - 1, reseedPending := g.reseedPending || !g.forPr } }
    else
      let s := bump (rngReg 0x18) 1 16 { s with rng := { g with
        keyV := Config.drbgReseed g.keyV (twoWindows s), count := 0, pool := g.pool.drop 2, reseedRunning := false,
        completed := g.begun, prReady := g.forPr, forPr := false, noticed := false } }
      drbgStart (drbgStarved s))

/-- Carousel stop of a unit, then the hub's units in their order at stop 16 (R422). -/
def drbgRank : DrbgUser → Nat
  | .hash c _ | .pinfmt c _ => c / 16
  | .mrgSeed r _ => r
  | .blob _ | .ceremony => 16
  | .cookie => 17
  | .hatCheck _ => 18
  | .challenge => 19
  | .bootId => 20

/-- Requests wait in order of arrival, those of one instant in ascending order of their stops; BOOT_ID's stays in front (R422). -/
def insertReq (r : DrbgReq) : List DrbgReq → List DrbgReq
  | [] => [r]
  | x :: q => if x.since = r.since ∧ x.who ≠ .bootId ∧ drbgRank r.who < drbgRank x.who then r :: x :: q else x :: insertReq r q

/-- DRBG_REQUEST (R422–R424): a unit's request arrives. A full queue holds it at its source. -/
def execDrbgRequest (who : DrbgUser) (s : State) : Out :=
  .next (
    match drbgWants s who with
    | none => s
    | some (len, pr) =>
      let g := s.rng
      if g.queue.any (fun r => r.who == who) ∨ (drbgAnswer s who).isSome ∨ 1024 ≤ g.queue.length then s
      else if (g.ready = false ∨ g.katPassed = false) ∧ isSeed who = false then drbgNotReady who s
      else
        let r : DrbgReq := { who := who, len := len, pr := pr, since := s.time.ticks,
                             after := if g.completed < g.blockUntil then g.blockUntil else 0 }
        if g.holdUs = 0 ∧ isSeed who = false ∧ drbgWaits s r then drbgNotReady who s
        else drbgStart (drbgStarved { s with rng := { g with queue := insertReq r g.queue } }))

/-- DRBG_REQUEST_SERVED (R422, R427): the request at the head, in order of arrival; output is SECRET and goes to its unit.
A state that fails parity gives nothing, and a new instantiation is due. -/
def execDrbgRequestServed (intact : Bool) (s : State) : Out :=
  .next (
    let g := s.rng
    match g.queue with
    | [] => s
    | r :: rest =>
      if g.ready = false ∨ g.katPassed = false ∨ g.reseedRunning ∨ drbgMustWait s r then s
      else if intact = false then
        drbgStart (report { cls := .f1, source := 0x15, cause := 0x01 }
          { s with rng := { g with faulty := true, instPending := true } })
      else
        let out := bytesFrom (Config.drbgOut g.keyV r.len) r.len
        let n := g.count + 1
        let s := { s with rng := { g with
          keyV := Config.drbgNext g.keyV r.len, count := n, queue := rest, prReady := if r.pr then false else g.prReady,
          reseedPending := g.reseedPending || max 1 (min (2 ^ 20) g.autoTh.toNat) ≤ n } }
        drbgStart (drbgStarved (drbgDeliver r.who (some out) s)))

/-- DRBG_HOLD_EXPIRY: a waiting request's hold ends (R424, R425). -/
def execDrbgHoldExpiry (who : DrbgUser) (s : State) : Out :=
  .next (
    match s.rng.queue.find? (fun r => r.who == who) with
    | none => s
    | some r =>
      if isSeed who ∨ who = .bootId then s
      else
        if drbgWaits s r then
          drbgStart (drbgNotReady who (drbgStarved
            { s with rng := { s.rng with queue := s.rng.queue.filter (fun r => r.who != who) } }))
        else s)

end Sys2Proof.Machine
end

