-- ==== Sys2Proof/Machine/Messages.lean ====
section
/-!
DEFINITION. Messages that the Dolid block sends: headers and enciphering (R332), clear replies (R333, R335, R336), messages of a
session (R338–R341), and the frame-area lines that they take (R349).
-/
namespace Sys2Proof.Machine

open Sys2Proof

def dolSession? (s : State) (sid : W32) : Option Session := s.dol.sessions.find? (fun x => x.sid == sid)

def modSession (sid : W32) (f : Session → Session) (s : State) : State :=
  { s with dol := { s.dol with sessions := s.dol.sessions.map (fun x => if x.sid = sid then f x else x) } }

/-- Sessions open or pending on the device, and of one instance (R336, R339). -/
def dolOpen (s : State) : Nat := s.dol.sessions.length + s.dol.handshakes.length
def dolOpenOf (s : State) (i : Nat) : Nat :=
  (s.dol.sessions.filter (fun x => x.iid == i)).length + (s.dol.handshakes.filter (fun x => x.iid == i)).length

/-- The 16-byte header (R332). -/
def dolHeader (ty len : Nat) (sid : W32) (seq : Nat) : List Byte :=
  be 1 1 ++ be 1 ty ++ be 2 len ++ be 4 sid.toNat ++ be 8 seq

/-- Send one message from a port to an address. A refusal RESPONSE, COOKIE or REJECT takes lines of the refusal pool, and is
dropped and counted in DOL_CNT_NOBUF when the pool is full (R349, R350). Without a link it is lost (R316, R341). -/
def dolSend (p : Nat) (dst : Ip) (udp : Nat) (iid : Option Nat) (refusal : Bool) (m : List Byte) (s : State) : State :=
  let x := netPort s p
  let b := udpBody x s.dol.udpPort.toNat dst udp m
  let n := linesFor (18 + b.2.length)
  if x.link = false then dolLost (portCount p 0x9C s)
  else if refusal ∧ refusalLines < s.dol.refusalUsed + n then bump (dolCnt 6) 0 32 s
  else
    let f : TxFrame := {
      ethertype := b.1, body := b.2, dst := some (dst, udp), bound := some (dst, udp), iid := iid,
      lines := if refusal then n else 0, pool := if refusal then .refusal else .none }
    sendIp p dst f (if refusal then { s with dol := { s.dol with refusalUsed := s.dol.refusalUsed + n } } else s)

/-- An authenticated message of an open session from a port: enciphered under K_d2c with its next SEQ (R332, R338). -/
def sessionFrame (x : Session) (p ty : Nat) (refusal : Bool) (plain : List Byte) (s : State) : State :=
  let h := dolHeader ty (plain.length + 16) x.sid x.seq
  let m := h ++ gcmSeal (x.keys.drop 32) (dolidNonce x.seq) h plain
  dolSend p x.addr x.udp (some x.iid) refusal m (modSession x.sid (fun y => { y with seq := y.seq + 1 }) s)

/-- A session closes: CLOSE with the reason, if any, on the port given, then its entry and key line are gone (R339, R341). -/
def closeSession (sid : W32) (reason : Option Nat) (s : State) : State :=
  match dolSession? s sid with
  | none => s
  | some x =>
    let s := match reason with
      | some r => sessionFrame x x.port 0x20 false ([BitVec.ofNat 8 r, 0, 0, 0] : List Byte) s
      | none => s
    { s with dol := { s.dol with sessions := s.dol.sessions.filter (fun y => y.sid != sid) } }

/-- A message of a session; once the next SEQ is 2^32 − 1 the session closes with it (R339). With no such session it is
discarded and counted in DOL_CNT_LOST. -/
def sessionSend (sid : W32) (p ty : Nat) (refusal : Bool) (plain : List Byte) (s : State) : State :=
  match dolSession? s sid with
  | none => dolLost s
  | some x =>
    let s := sessionFrame x p ty refusal plain s
    if x.seq + 1 = 2 ^ 32 - 1 then closeSession sid (some 3) s else s

/-- REJECT to the source of an INIT (R333, R336). -/
def dolReject (p : Nat) (dst : Ip) (udp : Nat) (iid : Nat) (cnonce : BitVec 128) (reason : Nat) (status : Byte) (hint : Nat)
    (s : State) : State :=
  dolSend p dst udp (some iid) true
    (dolHeader 4 24 0 0 ++ be 16 cnonce.toNat ++ be 1 reason ++ [status, 0, 0] ++ be 4 hint) s

/-- The plaintext of a RESPONSE (R346). -/
def responsePlain (txid : W64) (status fault : Byte) (act : Half) (outLen : W32) (time : W64) (receipt hint : Nat)
    (interim : Bool) (out : List Byte) : List Byte :=
  be 8 txid.toNat ++ [status, fault] ++ be 2 act.toNat ++ be 4 outLen.toNat ++ be 8 time.toNat ++ be 4 receipt
    ++ be 3 (sat 24 hint) ++ be 1 (b2n interim) ++ out

/-- MAXIN and MAXOUT of a port for an IP version (R343, R346). -/
def maxIn (x : Port) (a : Ip) : Nat := x.mtu.toNat - (if isV4 a then 108 else 128)
def maxOut (x : Port) (a : Ip) : Nat := x.mtu.toNat - (if isV4 a then 92 else 112)

def txn? (s : State) (iid : Nat) (txid : W64) : Option Txn := s.dol.txns.find? (fun t => t.iid == iid && t.txid == txid)
def modTxn (iid : Nat) (txid : W64) (f : Txn → Txn) (s : State) : State :=
  { s with dol := { s.dol with txns := s.dol.txns.map (fun t => if t.iid = iid ∧ t.txid = txid then f t else t) } }

/-- A record is released with its response buffer, and its REQUEST's lines if it still holds them (R345, R349). -/
def dropTxn (t : Txn) (s : State) : State :=
  let s := freeLines t.port t.reserved (t.shared + t.buffer) s
  { s with dol := { s.dol with txns := s.dol.txns.filter (fun u => !(u.iid == t.iid && u.txid == t.txid)) } }

end Sys2Proof.Machine
end

