-- ==== Sys2Proof/Machine/Shares.lean ====
section
/-!
DEFINITION. What the Usher computes before it decides: usable cores and rings (R73, R92), effective minimums and entitlements
(R74), acts and their cost figures (R73, R125, R126), projected waits and hints (R76).
-/
namespace Sys2Proof.Machine

open Sys2Proof

/-! ### Units (R73, R95) -/

/-- Present and not retired. -/
def ringPresent (s : State) (r : Nat) : Bool := r < ringCount s && !bit s.ush.ringRet r
/-- Released and not retired (R472). -/
def ringUsable (s : State) (r : Nat) : Bool := ringPresent s r && bit s.boot.ringUp r
/-- A core neither retired nor halted for debug (R458), in a usable ring. -/
def coreUsable (s : State) (c : Nat) : Bool :=
  c < coreCount s && !bit s.ush.coreRet c && ringUsable s (ringOf c) && !(corex s c).halted
def usableCores (s : State) : Nat := ((List.range (coreCount s)).filter (coreUsable s)).length
def usableRings (s : State) : Nat := ((List.range (ringCount s)).filter (ringUsable s)).length

/-! ### Entitlements (R74) -/

def backlogged (s : State) (i : Nat) : Bool :=
  ((inst s i).st == .active || (inst s i).st == .stopped) && 0 < queuedCount s i + runningCount s i

/-- M: the sum of MIN_CORES over all instances that are not FREE. -/
def minSum (s : State) : Nat :=
  ((s.inst.filter (fun e => e.2.st != .free)).map (fun e => e.2.minCoresEff.toNat)).sum

def minOf (s : State) (i : Nat) : Nat :=
  let m := (inst s i).minCoresEff.toNat
  let u := usableCores s
  if minSum s ≤ u then m else m * u / minSum s

def ushStatusReg : Nat := 0x200004

/-- USH_STATUS as read (R95). -/
def ushStatus (s : State) : Nat :=
  pack [(s.ush.epochCount.toNat, 16), (b2n s.ush.minOvercommit, 1), (b2n (s.inst.any (fun e => e.2.sharePend)), 0)]

/-- Every entitlement and effective minimum anew, from the backlogged set of now (R73, R74). The first recomputation that
finds the minimums overcommitted records a notice. -/
def recompute (s : State) : State :=
  let u := usableCores s
  let tooMany := decide (u < minSum s)
  let b := (s.inst.map (fun e => e.1)).filter (backlogged s)
  let sumM := (b.map (minOf s)).sum
  let sumW := (b.map (fun i => (inst s i).weightEff.toNat)).sum
  let entOf (i : Nat) : Rat :=
    let m := minOf s i
    let w := (inst s i).weightEff.toNat
    let inB := b.contains i
    let m' := if inB then sumM else sumM + m
    let w' := if inB then sumW else sumW + w
    (m : Rat) + ((u - m' : Nat) : Rat) * (w : Rat) / (w' : Rat)
  let shares : Table Share := (List.range (iidCount s)).filterMap (fun i =>
    let x : Share := { share s i with ent := entOf i, minEff := minOf s i }
    if x = {} then none else some (i, x))
  let was := s.ush.minOvercommit
  let s := { s with ush := { s.ush with share := shares, minOvercommit := tooMany } }
  if tooMany ∧ was = false then stateNotice 0x14 0 ushStatusReg (BitVec.ofNat 64 (ushStatus s)) s else s

/-! ### Acts (R73, R124–R127) -/

/-- Acts of different tenants differ (R124). -/
def actKey (number : Half) (iid : Option Nat) : Nat :=
  match iid with
  | none => number.toNat
  | some i => (i + 1) * 65536 + number.toNat

def Act.key (a : Act) : Nat := actKey a.number a.iid

/-- The instance whose name space an act number of instance i belongs to (R124). -/
def actSpace (number : Half) (i : Nat) : Option Nat := if 0x4000 ≤ number.toNat then some i else none

/-- GCTL_ACT_GRP of instance i as it holds for tickets that enter now: a write counts from the next hub cycle on (R126). -/
def actGroups (s : State) (i : Nat) : Half :=
  ((s.acts.grpWas.find? (fun e => e.1 == i)).map (fun e => e.2)).getD (Table.get 1 s.acts.grp i)

/-- The act loaded and open to admission under a number for instance i, and enabled for it (R49, R126, R127). Every instance may run
DOL_HANDSHAKE (R337). -/
def actEnabled (s : State) (i : Nat) (number : Half) : Option Act :=
  (s.acts.acts.find? (fun a => a.number == number && a.iid == actSpace number i && a.enabled)).filter (fun a =>
    a.iid.isSome || number == 0x0601 || bit (actGroups s i) (field a.group.toNat 0 4))

/-- The act a ticket was admitted under. -/
def actOf (s : State) (t : Ticket) : Option Act :=
  let sp := if t.device then none else actSpace t.act t.iid
  s.acts.acts.find? (fun a => a.number == t.act && a.iid == sp && a.version == t.version)

/-- Code closed to admission leaves the store when its last admitted ticket has ended (R125). -/
def sweepActs (s : State) : State :=
  let needed (a : Act) : Bool := s.tickets.any (fun t =>
    (t.phase == .queued || t.dispatched) && (actOf s t).map (fun b => (b.key, b.version)) == some (a.key, a.version))
  let keep (a : Act) : Bool := a.enabled || needed a
  let gone := s.acts.acts.filter (fun a => !keep a)
  let s := gone.foldl (fun s a => (List.range (ringCount s)).foldl
    (fun s r => unwrite (.ring r (0x380000 + a.offset)) (roundUp a.code.length 64) s) s) s
  { s with acts := { s.acts with acts := s.acts.acts.filter keep } }

/-- c(a) in ns. -/
def costOf (_s : State) (a : Act) : Rat := a.cost

/-! ### The cache of a ring (R87, R91) -/

def cacheLimit (s : State) : Nat := s.ush.cacheEff.toNat * 65536

def cacheUsed (s : State) (r : Nat) : Nat := ((s.ush.copies.filter (fun k => k.ring == r)).map (fun k => k.size)).sum

/-- A copy is scrubbed and its space is free. -/
def dropCopy (k : Copy) (s : State) : State :=
  unwrite (.ring k.ring k.addr) (roundUp k.size 64)
    { s with ush := { s.ush with copies := s.ush.copies.filter (fun c =>
        !(c.ring == k.ring && c.handle == k.handle && c.kind == k.kind && c.addr == k.addr)) } }

/-- The copy to evict next: VALID, not in use, least recently dispatched against (R91). The form that a ticket itself
needs stays, where room is made for that ticket (DESIGN CHOICE, assumption 105). -/
def evictable (s : State) (r : Nat) (keep : Option (W32 × Nat)) : Option Copy :=
  (s.ush.copies.filter (fun k => k.ring == r && k.st == .valid && k.uses == 0 && keep != some (k.handle, k.kind))).foldl
    (fun b k => match b with
      | none => some k
      | some m => if k.last < m.last then some k else some m) none

/-- Evict while the ring's cache, with so many bytes more, exceeds its limit; at most n copies (R91). -/
def evictFor (r extra : Nat) : Nat → State → State
  | 0, s => s
  | n + 1, s =>
    if cacheUsed s r + extra ≤ cacheLimit s then s
    else match evictable s r none with
      | none => s
      | some k => evictFor r extra n (dropCopy k s)

/-- Evict while the ring's cache exceeds its limit. -/
def evictOver (r n : Nat) (s : State) : State := evictFor r 0 n s

/-- So many bytes more stay within the limit, once every copy that may be evicted is (R87). -/
def cacheHas (s : State) (r size : Nat) : Bool :=
  size + ((s.ush.copies.filter (fun k => k.ring == r && !(k.st == .valid && k.uses == 0))).map (fun k => k.size)).sum ≤ cacheLimit s

/-! ### Hints (R76) -/

/-- The largest value of a hint. -/
def hintMax : Nat := 0xFFFFFF

/-- core-ns over cores, rounded up to whole µs and saturated; a dividend of 0 gives 0, a divisor of 0 the largest value. -/
def quotientUs (work e : Rat) : Nat :=
  if work ≤ 0 then 0
  else if e ≤ 0 then hintMax
  else min hintMax (work / (e * 1000)).ceil.toNat

/-- Projected wait W_i / e_i, as USH_I_WAIT shows it. -/
def waitUs (s : State) (i : Nat) : Nat := quotientUs (share s i).backlog (share s i).ent

end Sys2Proof.Machine
end

