-- ==== Sys2Proof/Machine/Tickets.lean ====
section
/-!
DEFINITION. The end of a ticket: completion entries (R54–R56), the RESPONSE of a Dolid ticket (R346), the answer to a handshake
(R336), the last of an instance's work (R65, R373), and what a core and its engines hold no longer after a final entry
(R102, R162, R230, R233, R261).
-/
namespace Sys2Proof.Machine

open Sys2Proof

/-- What a final entry says. -/
structure Final where
  status : Byte
  outLen : W32 := 0
  receipt : Option Nat := none
  hint : Nat := 0
  fault : Nat := 0
  /-- refused on entry, before admission (R49, R75) -/
  refused : Bool := false
  /-- refused for want of a buffer entry (R78) -/
  full : Bool := false
  /-- a handshake's session has been opened (R338) -/
  opened : Bool := false
  deriving DecidableEq, Repr

/-! ### Completion entries (R51, R54–R57) -/

def cqSize (x : Inst) : Nat := 2 ^ x.cqLog2.toNat
def sqSize (x : Inst) : Nat := 2 ^ x.sqLog2.toNat
/-- Completion slots neither written and unreleased nor reserved. -/
def freeSlots (x : Inst) : Nat := cqSize x - x.unreleased - x.reserved

/-- Bytes 0–30 of an entry (R54). -/
def entryBytes (t : Ticket) (f : Final) (time : W64) : List Byte :=
  bytesOf t.tag.toNat 8 ++ [f.status, BitVec.ofNat 8 f.fault] ++ bytesOf t.act.toNat 2 ++ bytesOf f.outLen.toNat 4
    ++ bytesOf time.toNat 8 ++ bytesOf (f.receipt.getD 0xFFFFFFFF) 4 ++ bytesOf (sat 24 f.hint) 3

/-- Write an entry into the next slot: bytes 0–30, then byte 31, then the MSI-X message if asked for (R55). -/
def writeEntry (t : Ticket) (f : Final) (interim : Bool) (s : State) : State :=
  let x := inst s t.iid
  let addr := x.cqBase + BitVec.ofNat 64 (32 * x.cqTail)
  let s := emit (.write (some x.pasid) addr (entryBytes t f (nt s))) s
  let s := emit (.write (some x.pasid) (addr + 31) [if interim then 0xC0 else 0x80]) s
  let s := setInst t.iid { x with cqTail := (x.cqTail + 1) % cqSize x, unreleased := x.unreleased + 1 } s
  let s := if s.pcie.d3hot && !interim then
      { s with pcie := { s.pcie with heldEntries := s.pcie.heldEntries ++ [(t.iid, t.id, t.aborting && f.status == stAborted)] } }
    else s
  let s := if f.receipt.isSome then noteEntry t.id addr s else s
  if !interim && t.irq && x.irqEn then msix x.irqVector.toNat s else s

/-- USH_I_REF0 and USH_I_REF1 (R95): a refusal's outcome counts. -/
def countRefusal (i : Nat) (status : Byte) (s : State) : State :=
  let r := 0x201000 + 0x10 * i
  if status = stQuota then bump (r + 8) 1 16 s
  else if status = stOverload then bump (r + 8) 0 16 s
  else if status = stUnreachable then bump (r + 12) 1 16 s
  else if status = stPassed then bump (r + 12) 0 16 s
  else s

/-! ### The last of an instance's work -/

/-- Work of the instance: tickets without a final entry, ticket reads, claims that an engine still scrubs (R65), entries that wait for
D0 (R41). -/
def hasWork (s : State) (i : Nat) : Bool :=
  s.tickets.any (fun t => !t.device && t.iid == i) || !(inst s i).reads.isEmpty
    || s.meng.any (fun g => g.2.scrubs.any (fun q => q.2.2.2 == some i)) || s.pcie.held.any (fun r => match r with
      | .write (some p) _ _ => p == (inst s i).pasid
      | _ => false)

/-- DRAINED becomes 1 when a STOPPED instance holds no work (R65). -/
def checkDrained (i : Nat) (s : State) : State :=
  let x := inst s i
  if x.st = .stopped ∧ x.drained = false ∧ hasWork s i = false then attention i (setInst i { x with drained := true } s)
  else s

/-- In safety-net mode the last instance ticket's final entry ends the audit chain (R373, R379, R442). -/
def checkFinal (s : State) : State :=
  if s.fc.snet ∧ s.aud.pendFinal = false ∧ s.tickets.all (fun t => t.device) then causeFinal s else s

/-! ### What a core holds no longer -/

/-- The Maelhoavo engine that serves window k of a ring's cores (R234): the next usable one. -/
def engineOf (s : State) (r k : Nat) : Nat :=
  (((List.range 4).map (fun j => (k + j) % 4)).find? (fun e => !(Table.get {} s.meng (16 * r + e)).retired)).getD k

def meWin (s : State) (c k : Nat) : MeWin := Table.get {} s.mewin (4 * c + k)
def setMeWin (c k : Nat) (w : MeWin) (s : State) : State := { s with mewin := Table.set {} s.mewin (4 * c + k) w }
def meEng (s : State) (r e : Nat) : MeEngine := Table.get {} s.meng (16 * r + e)
def setMeEng (r e : Nat) (g : MeEngine) (s : State) : State := { s with meng := Table.set {} s.meng (16 * r + e) g }

/-- The claim of window k ends, held or queued: its pages and limbs are scrubbed, a queued claim is withdrawn (R233). -/
def endClaim (c k : Nat) (s : State) : State :=
  let w := meWin s c k
  let r := ringOf c
  let e := engineOf s r k
  let g := meEng s r e
  let g := { g with queue := g.queue.filter (fun q => !(q.1 == c && q.2 == k)) }
  let owner := (ticketOn s c).bind (fun t => if t.device then none else some t.iid)
  let g := if w.held then { g with scrubs := g.scrubs ++ [(c, w.pages, w.limbs, owner)] } else g
  setMeWin c k { w with
    held := false, pending := none, releasing := false, pages := 0, limbs := 0, acc := 0, accTag := .pub, ovf := false,
    scratch := [], scratchTag := [] } (setMeEng r e g s)

/-- At a ticket's final entry its core becomes idle: registers, local memory, working set, grants, engine contexts, key
registers and claims hold nothing of it (R98, R102, R162, R230, R233, R261). Randomness already in the core's buffer stays
(R187). A core held in reset stays so. -/
def clearCore (c : Nat) (s : State) : State :=
  let x := core s c
  let y := corex s c
  let r := ringOf c
  let s := (List.range 4).foldl (fun s k => endClaim c k s) s
  let s := (List.range 2).foldl (fun s e => drbgCancel (.hash c e) (drbgCancel (.pinfmt c e) s)) s
  let s := drbgCancel (.blob c) s
  let s := unwrite (.ring r (x.wsBase - 0x1000000)) x.wsSize (unwrite (.loc c 0) 0x40000 s)
  let s := (x.grants.filter (fun g => g.cached.isNone)).foldl
    (fun s g => unwrite (.ring r (g.base - 0x1000000)) (roundUp g.size 64) s) s
  let s := { s with
    mewin := Table.clear s.mewin (4 * c) 4, hash := Table.clear s.hash (2 * c) 2, bc := Table.clear s.bc (2 * c) 2 }
  setCorex c { rndBuf := y.rndBuf, halted := y.halted }
    (setCore c { run := if x.run = .inReset then .inReset else .idle } s)

/-- Nothing of this core waits for a bucket any longer. -/
def dropHeld (i c : Nat) (s : State) : State :=
  let d := dolInst s i
  if d.held.any (fun w => w % 1024 == c) then setDolInst i { d with held := d.held.filter (fun w => w % 1024 != c) } s else s

/-- The use counts of the copies a ticket was dispatched against (R87). A limit that a boundary could not meet evicts a copy as its
count reaches 0 (R91). -/
def releaseUses (t : Ticket) (s : State) : State :=
  t.uses.foldl (fun s u => evictOver u.1 s.ush.copies.length { s with ush := { s.ush with
    copies := s.ush.copies.map (fun (k : Copy) =>
      if k.ring = u.1 ∧ k.handle = u.2.1 ∧ k.addr = u.2.2 then { k with uses := k.uses - 1 } else k) } }) s

/-- Nothing more is kept of what changed under a ticket (R89). -/
def forgetChanges (t : Ticket) (s : State) : State :=
  { s with ush := { s.ush with changed := s.ush.changed.filter (fun q => q.1 != t.id) } }

/-- Instances passed over may be picked again (R84). -/
def clearPassed (s : State) : State :=
  { s with ush := { s.ush with share := s.ush.share.filterMap (fun (e : Nat × Share) =>
      let x : Share := { e.2 with passedOver := false }
      if x = {} then none else some (e.1, x)) } }

/-- Entries reserved by these tickets are free again: EMPTY, or EVICTED where they came from it (R296). -/
def unreserve (p : Nat → Bool) (t : Table KeyEntry) : Table KeyEntry :=
  t.filterMap (fun e =>
    if e.2.st = .reserved ∧ (e.2.reserver.map p).getD false then
      (if e.2.wasEvicted then some (e.1, { e.2 with st := .evicted, lines := 0, reserver := none, wasEvicted := false }) else none)
    else some e)

/-- A ticket ends: its reservations that no commit has filled, and its changes that no commit has made, are void (R296). -/
def dropKeyChanges (tid : Nat) (s : State) : State :=
  { s with ks := { s.ks with
      entries := unreserve (fun t => t == tid) s.ks.entries, pend := s.ks.pend.filter (fun p => p.tid != tid) } }

/-! ### The final entry -/

/-- The answer of a handshake that does not open a session: REJECT under rows 10 and 11 of R336. -/
def endHandshake (n : Nat) (f : Final) (s : State) : State :=
  match s.dol.handshakes.find? (fun h => h.n == n) with
  | none => s
  | some h =>
    let s := freeLines h.port h.reserved h.shared { s with dol := { s.dol with
      handshakes := s.dol.handshakes.filter (fun g => g.n != n) } }
    if f.opened then s
    else
      let row10 : Bool := f.refused && !f.full
      dolReject h.port h.addr h.udp h.iid h.cnonce (if row10 then 3 else 4) f.status (if row10 then f.hint else 0) s

/-- ABORT_ACK (R347). -/
def abortAck (sid : W32) (p : Nat) (txid : W64) (result : Byte) (s : State) : State :=
  sessionSend sid p 0x13 false (be 8 txid.toNat ++ [result, 0, 0, 0]) s

/-- The final RESPONSE of a Dolid ticket: held under its record, and sent on the port that received the REQUEST; the REQUEST's
lines are free (R341, R345–R347, R349). -/
def endRequest (t : Ticket) (txid : W64) (f : Final) (s : State) : State :=
  match txn? s t.iid txid with
  | none => s
  | some r =>
    let out := if f.status = stDone ∨ f.status = stSigInvalid then readWin r.out 0 f.outLen.toNat else []
    let plain := responsePlain txid f.status (BitVec.ofNat 8 f.fault) t.act f.outLen (nt s) (f.receipt.getD 0xFFFFFFFF)
      f.hint false out
    let s := freeLines r.port r.reserved r.shared s
    let s := modTxn t.iid txid (fun r => { r with
      reserved := 0, shared := 0, acks := [], final := some (plain, s.time.ticks) }) s
    r.acks.foldl (fun s a => abortAck a.1 a.2 txid (if f.status = stAborted then 0x30 else 0x31) s)
      (sessionSend r.sid r.port 0x11 false plain s)

/-- THE FINAL ENTRY of a ticket, in the form its origin gives it. Its buffer entry or its core is free, an abort of it is
accounted for, and the instance may have drained. -/
def finish (tid : Nat) (f : Final) (s : State) : State :=
  match ticket? s tid with
  | none => s
  | some t =>
    let s := match t.core? with
      | some c => clearPassed (forgetChanges t (releaseUses t (dropHeld t.iid c (clearCore c s))))
      | none => s
    let s := dropKeyChanges tid (dropTicket tid s)
    let s := match t.origin with
      | .seal _ => sealTicketEnded tid f.status s
      | .handshake n => endHandshake n f s
      | .dolid _ txid => endRequest t txid f s
      | _ =>
        let x := inst s t.iid
        writeEntry t f false (setInst t.iid { x with reserved := x.reserved - 1 } s)
    if t.device then s
    else
      let s := if f.refused ∨ f.status = stPassed then countRefusal t.iid f.status s else s
      let s := if t.aborting ∧ f.status = stAborted then setPage t.iid { page s t.iid with abortAny := true } s else s
      sweepActs (checkFinal (checkDrained t.iid s))

/-- A ticket leaves the buffer undispatched with this status: its backlog shrinks by its cost figure if it was admitted
(R66, R71, R81, R441). -/
def finishQueued (tid : Nat) (f : Final) (s : State) : State :=
  match ticket? s tid with
  | none => s
  | some t =>
    let x := share s t.iid
    let s := if t.phase = .queued ∧ t.device = false then setShare t.iid { x with backlog := max 0 (x.backlog - t.cost) } s else s
    finish tid f s

/-- An interim DEFERRED entry (R56, R82): a RESPONSE for a Dolid ticket, otherwise a slot beyond all reserved ones or
DEFER_SKIPPED. At most one per share epoch. -/
def deferEntry (t : Ticket) (hint : Nat) (s : State) : State :=
  if t.deferred ∨ t.notifyDefer = false ∨ t.device then s
  else
    let f : Final := { status := stDeferred, hint := hint }
    match t.origin with
    | .dolid sid txid =>
      let port := ((txn? s t.iid txid).map (fun r => r.port)).getD 0
      sessionSend (sid.setWidth 32) port 0x11 false
        (responsePlain txid stDeferred 0 t.act 0 (nt s) 0xFFFFFFFF hint true [])
        (modTicket t.id (fun t => { t with deferred := true }) s)
    | _ =>
      if freeSlots (inst s t.iid) = 0 then bump (itReg t.iid 0x38) 1 16 s
      else writeEntry t f true (modTicket t.id (fun t => { t with deferred := true }) s)

/-- R82: the projected wait exceeds the threshold. -/
def deferIfLong (tid : Nat) (s : State) : State :=
  match ticket? s tid with
  | none => s
  | some t =>
    let w := waitUs s t.iid
    if t.phase = .queued ∧ s.ush.deferTh.toNat < w then deferEntry t w s else s

/-! ### Commits and stops (R55, R66, R72, R92, R164, R441) -/

/-- A committed ticket takes its receipt and its final entry (R34, R55, R370). A device ticket has neither (R374). A
receipt count at its end closes the epoch early (R373). -/
def commitFinal (tid : Nat) (status : Byte) (outLen : W32) (opened : Bool) (s : State) : State :=
  match ticket? s tid with
  | none => s
  | some t =>
    let f : Final := { status := status, outLen := outLen, fault := t.fault, opened := opened }
    if t.device then finish tid f s
    else
      let r := assignIndex t.iid ((t.core?).getD 0) tid s
      let s := queueReceipt t.iid r.1 (receiptLeaf t.iid t.bytes status (BitVec.ofNat 8 t.fault) outLen (nt s)) r.2
      let s := finish tid { f with receipt := some r.1 } s
      if Table.get 0 s.aud.counts t.iid = 0xFFFFFFFE then causeEarly 0 s else s

/-- Order among terminating requests (R164). -/
def stopRank (status : Byte) : Nat :=
  if status = stInstReset then 3 else if status = stAborted then 2 else if status = stSafetyNet then 1 else 0

/-- The final entry of a ticket stopped before its commit point. -/
def stopFinal (t : Ticket) (status : Byte) (s : State) : Final :=
  if status = stUnitRetired then { status := status, hint := max 1 (waitUs s t.iid), fault := max t.fault 3 }
  else if status = stSafetyNet then { status := status, fault := 4 }
  else if status = stIntegrity then { status := status, fault := t.fault }
  else { status := status }

/-- The input lies in the device: inline data, a Dolid message, or a device ticket's. -/
def inputInside (t : Ticket) : Bool :=
  match t.origin with
  | .dolid _ _ | .handshake _ | .seal _ => true
  | _ => t.inlineData

/-- A host read of the ticket's input that is still awaited. -/
def DmaXfer.awaits (t : Ticket) (x : DmaXfer) : Bool := x.srcSpace == 2 && x.data.isNone && !inputInside t
def MeCmd.awaits (t : Ticket) (q : MeCmd) : Bool := q.op == 1 && q.space == 2 && q.data.isNone && !inputInside t

/-- The core waits for a host read (R66). -/
def readsAwaited (s : State) (c : Nat) (t : Ticket) : Bool :=
  (corex s c).dma.queue.any (DmaXfer.awaits t) || (List.range 4).any (fun k => (meWin s c k).queue.any (MeCmd.awaits t))

/-- The units of hash engine e of ring r. -/
def hashTurn (s : State) (r e : Nat) : Turn := Table.get {} s.hashTurn (16 * r + e)
def setHashTurn (r e : Nat) (t : Turn) (s : State) : State := { s with hashTurn := Table.set {} s.hashTurn (16 * r + e) t }

/-- The command that a core's next one is, for the core after `last` in round-robin order that has one. -/
def nextInTurn (last : Nat) (next : Nat → Option Nat) : Option Nat :=
  ((List.range 16).map (fun j => (last + 1 + j) % 16)).findSome? next

/-- Free units, of n, take the next cores' commands (R229, R238); `core` names the core of a command. -/
def Turn.serve (n : Nat) (next : Nat → Option Nat) (core : Nat → Nat) (t : Turn) : Turn :=
  (List.range n).foldl (fun t _ =>
    if n ≤ t.busy.length then t
    else match nextInTurn t.last (fun y => (next y).filter (fun k => !t.busy.contains k)) with
      | none => t
      | some k => { busy := t.busy ++ [k], last := core k }) t

/-- The unit of a Maelhoavo engine that executes a command: 1 its DMA unit for LOAD and STORE, 0 its multiplier (R231). -/
def meUnit (q : MeCmd) : Nat := if q.op = 1 ∨ q.op = 2 then 1 else 0

/-- The engines finish what they execute and take no further command of the core; reads under way are awaited; claims that wait are
withdrawn, and writes that wait for the bucket of R353 with them (R66, R230, R233, R250, R266). -/
def stopEngines (c : Nat) (t : Ticket) (s : State) : State :=
  let s := (List.range 2).foldl (fun s e =>
    let h := Table.get {} s.hash (2 * c + e)
    let b := Table.get {} s.bc (2 * c + e)
    let busy : Bool := (hashTurn s (ringOf c) e).busy.contains (c % 16)
    { s with
      hash := Table.set {} s.hash (2 * c + e) { h with queue := if busy then (h.queue.take 1).filter (fun q => q.op != 7) else [] }
      bc := Table.set {} s.bc (2 * c + e) { b with queue := (b.queue.take 1).filter (fun q => q.op != 8) } }) s
  let s := (List.range 4).foldl (fun s k =>
    let w := meWin s c k
    let r := ringOf c
    let e := engineOf s r k
    let s := setMeEng r e { meEng s r e with queue := (meEng s r e).queue.filter (fun q => !(q.1 == c && q.2 == k)) } s
    let busy : Bool := ((meEng s r e).mul.busy ++ (meEng s r e).dma.busy).contains (4 * (c % 16) + k)
    setMeWin c k { w with
      pending := none
      queue := (w.queue.take 1).filter (fun q => busy || q.awaits t) ++ (w.queue.drop 1).filter (MeCmd.awaits t) } s) s
  let s := dropHeld t.iid c s
  setCorex c { corex s c with
    outPend := none
    dma := { (corex s c).dma with queue := (corex s c).dma.queue.filter (DmaXfer.awaits t) } } s

/-- Step 1 of R113: no transfer and no engine command of the ticket is outstanding. -/
def workDone (s : State) (c : Nat) : Bool :=
  (corex s c).outPend.isNone && (corex s c).dma.queue.isEmpty && (List.range 4).all (fun k => (meWin s c k).queue.isEmpty)
    && (List.range 2).all (fun e => (Table.get {} s.hash (2 * c + e)).queue.isEmpty && (Table.get {} s.bc (2 * c + e)).queue.isEmpty)

/-- The commit signal that core c gives as a reset or an abort stops its ticket (R66, R71). -/
def signalOf (s : State) (c : Nat) (status : Byte) : Option Signalled :=
  match (core s c).run with
  | .exiting st len =>
    if (status = stInstReset ∨ status = stAborted) ∧ workDone s c ∧ (corex s c).micro.trapped = false ∧ (corex s c).micro.faulted = false
    then some { status := st, len := len, cycle := s.time.cycle } else none
  | _ => none

/-- A terminating request reaches a dispatched ticket: its core leaves the act for the scrub routine, engines take no further
command of it, and draws that wait end; the gravest request decides the status. A core in reset has no scrub: the ticket ends
at once. One that arrives in a resumable micro-trap is held until the restore (R66, R160, R164, R230, R233, R266). -/
def stopTicket (tid : Nat) (status : Byte) (s : State) : State :=
  match ticket? s tid with
  | none => s
  | some t =>
    match t.phase with
    | .running c =>
      if (core s c).run = .inReset then finish tid (stopFinal t status s) s
      else if (corex s c).micro.trapped then
        if (t.heldStop.map stopRank).getD 0 < stopRank status ∨ t.heldStop = none then
          modTicket tid (fun t => { t with heldStop := some status }) s
        else s
      else
        let s := modTicket tid (fun t => { t with
          phase := .stopping c status, heldStop := none, signalled := signalOf s c status }) s
        let s := (List.range 2).foldl (fun s e => drbgCancel (.hash c e) (drbgCancel (.pinfmt c e) s)) s
        let s := stopEngines c t (drbgCancel (.blob c) s)
        setCorex c { corex s c with dcl := {}, rndWait := none, micro := {} } (setCore c { core s c with run := .scrubbing } s)
    | .stopping c old =>
      if stopRank old < stopRank status then modTicket tid (fun t => { t with phase := .stopping c status }) s else s
    | _ => s

/-- SCRUB_COMPLETE: the ticket's memories and scratch are zero, its host reads have ended, and the engines have finished what they
executed for it (R66, R72). -/
def execScrubComplete (tid : Nat) (s : State) : Out :=
  .next (
    match ticket? s tid with
    | none => s
    | some t =>
      match t.phase with
      | .stopping c status => if readsAwaited s c t ∨ workDone s c = false then s else finish tid (stopFinal t status s) s
      | _ => s)

end Sys2Proof.Machine
end

