-- ==== Sys2Proof/Machine/Units.lean ====
section
/-!
DEFINITION. Units and their retirement: the two directions of the Carousel (R19, R20, R26), what a retired core, ring, ring engine
or hop-direction takes with it (R92, R234, R438, R439), and the state of a ring held in reset.
-/
namespace Sys2Proof.Machine

open Sys2Proof

/-! ### The Carousel (R19, R20, R26) -/

/-- Stop 16 is the hub's; ring k is stop k. -/
def hubStop : Nat := 16

/-- Hops from stop a to stop b, clockwise (d 0) or counter-clockwise. -/
def hops (d a b : Nat) : Nat := if d = 0 then (b + 17 - a) % 17 else (a + 17 - b) % 17

/-- No hop-direction between the stops in that direction is retired. -/
def pathUsable (s : State) (d a b : Nat) : Bool :=
  (List.range (hops d a b)).all (fun j =>
    !bit s.fabric.hopRet (2 * (if d = 0 then (a + j) % 17 else (a + 17 - j) % 17) + d))

/-- The direction with fewer hops. -/
def shorter (a b : Nat) : Nat := if hops 0 a b < hops 1 a b then 0 else 1

/-- The direction a transfer takes: the shorter one, the other if it crosses a retired hop-direction, 2 for a relay through
the hub stop (R20). -/
def route (s : State) (a b : Nat) : Nat :=
  let d := shorter a b
  if pathUsable s d a b then d else if pathUsable s (1 - d) a b then 1 - d else 2

/-- Time of one leg in half nanoseconds: entry, hops, exit, one flit per cycle; 4 ns more where it crosses into the hub
(R19). -/
def legTime (d a b flits : Nat) : Nat :=
  8 + 2 * hops d a b + (flits - 1) + (if a = hubStop ∨ b = hubStop then 8 else 0)

/-- Time of a transfer of so many bytes, in half nanoseconds; a relay is the sum of its legs. -/
def transferTime (s : State) (a b bytes : Nat) : Nat :=
  let n := (bytes + 63) / 64
  let one (a b : Nat) : Nat := legTime (route s a b) a b n + 1
  if route s a b = 2 then one a hubStop + one hubStop b else one a b

/-- Credits in use between two stops. -/
def creditKey (a b : Nat) : Nat := 32 * a + b
def creditsUsed (s : State) (a b : Nat) : Nat := Table.get 0 s.fabric.creditsUsed (creditKey a b)

/-- A held transfer injects while its source holds a credit for the destination (R22). -/
def inject (id : Nat) (s : State) : State :=
  match s.fabric.xfers.find? (fun x => x.id == id) with
  | none => s
  | some x =>
    let n := min x.held (Config.credits - creditsUsed s x.src x.dst)
    { s with fabric := { s.fabric with
        xfers := s.fabric.xfers.map (fun (y : Xfer) => if y.id = id then { y with held := y.held - n, flying := y.flying + n } else y)
        creditsUsed := Table.set 0 s.fabric.creditsUsed (creditKey x.src x.dst) (creditsUsed s x.src x.dst + n) } }

/-- A relayed transfer's flits at the hub stop go on while the hub stop holds credits for the destination (R20, R22). -/
def forward (id : Nat) (s : State) : State :=
  match (s.fabric.xfers.find? (fun x => x.id == id)).bind (fun x => x.relay) with
  | none => s
  | some l =>
    let n := min l.held (Config.credits - creditsUsed s hubStop l.dst)
    { s with fabric := { s.fabric with
        xfers := s.fabric.xfers.map (fun (y : Xfer) =>
          if y.id = id then { y with relay := some { l with held := l.held - n, flying := l.flying + n } } else y)
        creditsUsed := Table.set 0 s.fabric.creditsUsed (creditKey hubStop l.dst) (creditsUsed s hubStop l.dst + n) } }

/-- A transfer as it begins: on the ring's crossbar where both ends lie in one ring, relayed in two legs where both directions are shut
(R18, R20). -/
def newXfer (s : State) (a b bytes : Nat) (owner : Option Nat) (data : List Byte) : Xfer :=
  let x : Xfer := { id := s.fabric.nextXfer, src := a, dst := b, dir := route s a b, held := (bytes + 63) / 64, owner := owner, data := data }
  if a = b then { x with dir := 2, held := 0 }
  else if route s a b = 2 then
    { x with dst := hubStop, dir := route s a hubStop, relay := some { dst := b, dir := route s hubStop b } }
  else x

/-- A transfer of so many bytes begins, for a ticket or for none, with what its sender has of them at hand. -/
def beginXfer (a b bytes : Nat) (owner : Option Nat) (data : List Byte) (s : State) : State :=
  if bytes = 0 then s
  else
    inject s.fabric.nextXfer { s with fabric := { s.fabric with
      nextXfer := s.fabric.nextXfer + 1, xfers := s.fabric.xfers ++ [newXfer s a b bytes owner data] } }

/-- Flit k of a transfer as its sender makes it (R24). -/
def Xfer.flit (x : Xfer) (k : Nat) : Flit :=
  Flit.of (BitVec.ofNat 512 (natOf (slice x.data (64 * k) 64))) (Config.flitHeader x.id k)

/-- The host's data have come: the flits of the transfers that bring them carry them. -/
def xferLoaded (ids : List Nat) (data : List Byte) (s : State) : State :=
  { s with fabric := { s.fabric with
      xfers := s.fabric.xfers.map (fun (x : Xfer) => if ids.contains x.id then { x with data := data } else x) } }

/-- The number that the transfer begun next has. -/
def xferIds (s : State) (bytes : Nat) : List Nat := if bytes = 0 then [] else [s.fabric.nextXfer]

/-- None of these transfers is under way: the destination has accepted the last flit of each (R23). -/
def xfersDone (s : State) (l : List Nat) : Bool := l.all (fun id => s.fabric.xfers.all (fun x => x.id != id))

/-- A path from a to b exists (R26). -/
def reaches (s : State) (a b : Nat) : Bool := pathUsable s 0 a b || pathUsable s 1 a b

/-! ### Retired or not (R437, R438) -/

def unitPresent (s : State) (u : Half) : Bool :=
  match unitKind u with
  | 1 => unitIdx u < coreCount s
  | 2 => unitIdx u < ringCount s
  | 3 => unitIdx u / 16 < ringCount s && unitIdx u % 16 ≤ 9
  | 4 => unitIdx u < 34
  | _ => false

/-- Already retired: itself, or a core or engine whose ring is (R438). -/
def unitRetired (s : State) (u : Half) : Bool :=
  (Table.get none s.fcq.retired u.toNat).isSome
    || ((unitKind u == 1 || unitKind u == 3) && bit s.ush.ringRet (unitIdx u / 16))

def markRetired (u : Half) (byClock : Bool) (s : State) : State :=
  { s with fcq := { s.fcq with retired := Table.set none s.fcq.retired u.toNat (some byClock) } }

/-! ### What runs on a retired unit (R92, R164, R441) -/

/-- An F4 event of this hub cycle has reached the collector, so that safety-net mode begins in it (R434, R441). -/
def snetNow (s : State) : Bool :=
  !s.fc.snet && s.fcq.waiting.any (fun w => w.ev.cls == .f4 && w.acts && w.cycle == s.time.cycle)

/-- The dispatch of this hub cycle is withdrawn: the ticket is back at its place in the buffer, vt_i and W_i are restored (R92). -/
def withdraw (t : Ticket) (s : State) : State :=
  match t.sent with
  | none => s
  | some d =>
    let h := share s t.iid
    let restored (s : State) : State :=
      if t.device then s else setShare t.iid { h with backlog := h.backlog + d.backlog, vt := d.vt, dispatched := h.dispatched - 1 } s
    restored (forgetChanges t (releaseUses t (modTicket t.id (fun u => { u with
        phase := .queued, pool := d.pool, sent := none, further := false, uses := [], wsBase := 0, wsSize := 0 }) s)))

/-- The ticket on a core that its retirement holds in reset, unless its dispatch of this hub cycle is withdrawn: DATA_INTEGRITY where its own read or transfer was the cause,
the status of a terminating request that reached it before, SAFETY_NET where that mode begins in this cycle, otherwise
UNIT_RETIRED_RETRY. -/
def endRetired (c : Nat) (s : State) : State :=
  match ticketOn s c with
  | none => s
  | some t =>
    let unit : Byte := if snetNow s ∧ t.device = false then stSafetyNet else stUnitRetired
    match t.phase, t.heldStop with
    | .stopping _ st, _ => finish t.id (stopFinal t st s) s
    | _, some st => finish t.id (stopFinal t st s) s
    | _, none =>
      if unit = stUnitRetired ∧ t.sent.any (fun d => d.cycle == s.time.cycle) ∧ (core s c).run = .running then withdraw t s
      else
        match (core s c).run with
        | .exiting st len => if st = stIntegrity then commitFinal t.id st len false s else finish t.id (stopFinal t unit s) s
        | _ => finish t.id (stopFinal t unit s) s

/-- A core in reset: nothing in it lives on. -/
def coreToReset (c : Nat) (s : State) : State :=
  let y := corex s c
  setCorex c { halted := y.halted } (setCore c { run := .inReset } (unwrite (.loc c 0) 0x40000 s))

/-- With no usable core left, every ring being retired or each of its cores, the F4 event of R26 and R439 follows in the next hub cycle
(R92). -/
def noteNoRing (s : State) : State :=
  if (List.range (coreCount s)).all (fun c => bit s.ush.coreRet c || bit s.ush.ringRet (ringOf c)) then
    { s with fcq := { s.fcq with noRing := true } }
  else s

/-- The Usher places nothing more on the core (R92). -/
def retireCore (c : Nat) (s : State) : State :=
  let s := markRetired (unitCore c) false { s with ush := { s.ush with coreRet := s.ush.coreRet ||| BitVec.ofNat 256 (2 ^ c) } }
  recompute (noteNoRing (coreToReset c (endRetired c s)))

/-- State of a ring's engines, memories and generator as a reset of the ring leaves it (R188, R465). -/
def ringCleared (r : Nat) (s : State) : State :=
  let s := (List.range 16).foldl (fun s y => coreToReset (16 * r + y) s) s
  { unwrite (.ring r 0) 0x380000 s with
    mrg := Table.clear s.mrg (8 * r) 8, mrgLast := Table.set 15 s.mrgLast r 15
    hash := Table.clear s.hash (32 * r) 32, hashTurn := Table.clear s.hashTurn (16 * r) 2, bc := Table.clear s.bc (32 * r) 32, mewin := Table.clear s.mewin (64 * r) 64
    meng := s.meng.filterMap (fun g =>
      if g.1 / 16 = r then (if g.2.retired then some (g.1, { retired := true, sparesUsed := g.2.sparesUsed }) else none)
      else some g)
    ush := { s.ush with copies := s.ush.copies.filter (fun k => k.ring != r) } }

/-- The tickets that run on a ring's cores end with the ring (R439). -/
def ringTicketsEnd (r : Nat) (s : State) : State := (List.range 16).foldl (fun s y => endRetired (16 * r + y) s) s

def ringDown (r : Nat) (s : State) : State :=
  { s with boot := { s.boot with ringUp := s.boot.ringUp &&& ~~~ BitVec.ofNat 16 (2 ^ r) } }

/-- A ring is retired: its tickets end, its copies are lost, it is held in reset. -/
def retireRing (r : Nat) (byClock : Bool) (s : State) : State :=
  recompute (noteNoRing (ringDown r (ringCleared r (ringTicketsEnd r (markRetired (unitRing r) byClock
    { s with ush := { s.ush with ringRet := s.ush.ringRet ||| BitVec.ofNat 16 (2 ^ r) } })))))

/-- An event that follows from another reaches the collector in the same hub cycle and is recorded behind it. -/
def reportBehind (w : Waiting) (ev : Event) (s : State) : State :=
  enqueueEvent { w with ev := ev, injected := false, alsoInj := false, acts := true } s

/-- The ring goes with a unit it needs (R439). -/
def ringGoesWith (w : Waiting) (r : Nat) (u : Half) (s : State) : State :=
  if bit s.ush.ringRet r then s
  else reportBehind w { cls := .f3, source := 0x21, unit := unitRing r, cause := 0x14, detail0 := u.setWidth 64 } s

/-- The claim of a core and window ends with its engine, and the ticket with it by terminating micro-trap: nothing is committed, also
where its own read or transfer was the cause (R234); host reads outstanding are awaited (R250). -/
def claimLost (s : State) (q : Nat × Nat) : State :=
  let x := core s q.1
  let awaited (m : MeCmd) : Bool := (ticketOn s q.1).any (fun t => m.awaits t)
  let s := setMeWin q.1 q.2 { meWin s q.1 q.2 with
    held := false, releasing := false, pages := 0, limbs := 0, acc := 0, accTag := .pub, ovf := false, scratch := [],
    scratchTag := [], queue := (meWin s q.1 q.2).queue.filter awaited } s
  match ticketOn s q.1 with
  | none => s
  | some t =>
    match x.run with
    | .exiting st _ => stopTicket t.id (if st = stIntegrity then stIntegrity else stUnitRetired) s
    | _ => stopTicket t.id stUnitRetired s

/-- The claims held on engine e of ring r, as (core, window). -/
def claimsOn (s : State) (r e : Nat) : List (Nat × Nat) :=
  ((List.range 16).map (fun y => (List.range 4).map (fun k => (16 * r + y, k)))).flatten.filter
    (fun q => engineOf s r q.2 == e && (meWin s q.1 q.2).held)

/-- The queued claims of a retired engine move to the tail of the next usable engine's queue; with the fourth engine the ring
goes (R234, R439). -/
def engineGone (w : Waiting) (r e : Nat) (queue : List (Nat × Nat)) (s : State) : State :=
  if (List.range 4).all (fun k => (meEng s r k).retired) then ringGoesWith w r (unitEngine r e) s
  else setMeEng r (engineOf s r e) { meEng s r (engineOf s r e) with queue := (meEng s r (engineOf s r e)).queue ++ queue } s

/-- A Maelhoavo engine is retired (R234). -/
def retireMaelhoavo (w : Waiting) (r e : Nat) (s : State) : State :=
  engineGone w r e (meEng s r e).queue ((claimsOn s r e).foldl claimLost
    (markRetired (unitEngine r e) false (setMeEng r e { retired := true, sparesUsed := (meEng s r e).sparesUsed } s)))

/-- A hop-direction is retired; rings left without a path to or from the hub follow (R25, R26). -/
def retireHop (w : Waiting) (h : Nat) (s : State) : State :=
  let s := markRetired (unitHop h) false { s with fabric := { s.fabric with
    hopRet := s.fabric.hopRet ||| BitVec.ofNat 34 (2 ^ h) } }
  (List.range (ringCount s)).foldl (fun s r =>
    let lost := b2n (!reaches s r hubStop) + 2 * b2n (!reaches s hubStop r)
    if lost = 0 ∨ bit s.ush.ringRet r then s
    else reportBehind w
      { cls := .f3, source := 0x21, unit := unitRing r, cause := 0x13, detail0 := BitVec.ofNat 64 lost } s) s

/-- The class action of an F3 event: the unit it names is retired (R438, R439). A unit already retired stays as it is. -/
def retireUnit (w : Waiting) (s : State) : State :=
  let u := w.ev.unit
  let i := unitIdx u
  if unitPresent s u = false ∨ unitRetired s u then s
  else
    match unitKind u with
    | 1 => retireCore i s
    | 2 => retireRing i false s
    | 3 => if i % 16 < 4 then retireMaelhoavo w (i / 16) (i % 16) s else ringGoesWith w (i / 16) u (markRetired u false s)
    | _ => retireHop w i s

end Sys2Proof.Machine
end

