-- ==== Sys2Proof/Machine/Rings.lean ====
section
/-!
DEFINITION. Rings out of reset: the act store copy (R125, R478), the release of a ring (R188, R479), the return of a retired one (R391)
and a manager's ring reset (R469).
-/
namespace Sys2Proof.Machine

open Sys2Proof

/-! ### The act store (R124, R125) -/

/-- Ring memory offset of the act store, and its size. -/
def storeBase : Nat := 0x380000
def storeSize : Nat := 0x80000

/-- An act's code and read-only data are written into ring r's store. -/
def storeAct (a : Act) (r : Nat) (s : State) : State := writeTagged (.ring r (storeBase + a.offset)) a.code .pub s

/-- The whole store of ring r is filled from the retained copy. -/
def fillStore (r : Nat) (s : State) : State :=
  s.acts.acts.foldl (fun s a => storeAct a r s) (unwrite (.ring r storeBase) storeSize s)

/-! ### Release and reset -/

/-- A ring leaves reset with its act store filled; its cores join U but for those retired themselves; its mask-randomness
instances wait for their seeds (R188, R479); an instance passed over may be picked again, as its cores are free (R84). The patch in effect is the same in every core (R172). -/
def releaseRing (r : Nat) (s : State) : State :=
  let s := fillStore r { s with
    mrg := Table.clear s.mrg (8 * r) 8, mrgLast := Table.set 15 s.mrgLast r 15
    cores := s.cores.filter (fun c => !(c.1 / 16 == r && c.1 < 256 && !bit s.ush.coreRet c.1))
    boot := { s.boot with
      ringUp := s.boot.ringUp ||| BitVec.ofNat 16 (2 ^ r), ringHeld := s.boot.ringHeld &&& ~~~ BitVec.ofNat 16 (2 ^ r) } }
  clearPassed (recompute s)

/-- The ring is no longer retired (R391). -/
def unretireRing (r : Nat) (s : State) : State :=
  { s with
    ush := { s.ush with ringRet := s.ush.ringRet &&& ~~~ BitVec.ofNat 16 (2 ^ r) }
    fcq := { s.fcq with retired := Table.set none s.fcq.retired (unitRing r).toNat none } }

/-- A ring goes into reset without being retired: running tickets complete UNIT_RETIRED_RETRY, U shrinks (R469). -/
def holdRing (r : Nat) (s : State) : State :=
  let s := (List.range 16).foldl (fun s y => endRetired (16 * r + y) s) s
  let s := ringCleared r s
  recompute { s with boot := { s.boot with
    ringUp := s.boot.ringUp &&& ~~~ BitVec.ofNat 16 (2 ^ r), ringHeld := s.boot.ringHeld ||| BitVec.ofNat 16 (2 ^ r) } }

/-- RING_GO: GCTL_RST_CTRL with RING_GO and RING (R469, R481). A ring already in reset stays so. -/
def execRingGo (r : Nat) (s : State) : Out :=
  .next (hostWrite (fun s =>
    let ring := r % 16
    let s := { s with boot := { s.boot with ring := BitVec.ofNat 4 ring } }
    if ringPresent s ring = false ∨ bit s.ush.ringRet ring then
      ignoredWrite 0x14 0x100 (BitVec.ofNat 64 (0x40000000 + ring)) none s
    else if bit s.boot.ringUp ring then holdRing ring s
    else s) s)

end Sys2Proof.Machine
end

