-- ==== Sys2Proof/Machine/VendorActs.lean ====
section
/-!
DEFINITION. The acts of the manual's tables (R202, R244, R252, R267, R297): key handle, usage requested, cached form, working set, release
point, act group, and the Maelhoavo claim of chapter 9.
-/
namespace Sys2Proof.Machine

open Sys2Proof

/-- Key handle column: none, optional, required. -/
inductive KeyUse where
  | none | optional | required
  deriving DecidableEq, Repr

structure VendorAct where
  number : Nat
  key : KeyUse
  /-- usage requested (R287); 0 where the ticket chooses it or the act asks for none -/
  usage : Nat
  /-- form code (assumption 27), 0 for none; working set in bytes, 0 where its chapter gives none -/
  form : Nat := 0
  ws : Nat := 0
  /-- release point (R190); none where the act releases nothing -/
  point : Option Nat := none
  deriving DecidableEq, Repr

def vendorActs : List VendorAct :=
  [ { number := 0x0101, key := .optional, usage := 0x12, form := 2, ws := 0x10000, point := some 2 },
    { number := 0x0102, key := .required, usage := 0x13, form := 2, ws := 0x10000 },
    { number := 0x0111, key := .required, usage := 0x10, form := 1, ws := 0x40000, point := some 0 },
    { number := 0x0112, key := .optional, usage := 0x11, form := 1, ws := 0x20000 },
    { number := 0x0121, key := .required, usage := 0x10, ws := 0x20000, point := some 0 },
    { number := 0x0122, key := .optional, usage := 0x11, ws := 0x10000 },
    { number := 0x0131, key := .optional, usage := 0x11, ws := 0x10000 },
    { number := 0x0132, key := .optional, usage := 0x11, ws := 0x10000 },
    { number := 0x0140, key := .none, usage := 0, ws := 0x4000 } ]
  ++ [ { number := 0x0201, key := .none, usage := 0 },
    { number := 0x0211, key := .required, usage := 0x10, point := some 0 },
    { number := 0x0212, key := .optional, usage := 0x11 },
    { number := 0x0213, key := .required, usage := 0x14 },
    { number := 0x0221, key := .required, usage := 0x10, point := some 0 },
    { number := 0x0222, key := .optional, usage := 0x11 },
    { number := 0x0231, key := .required, usage := 0, point := some 0 },
    { number := 0x0232, key := .optional, usage := 0x11 },
    { number := 0x0301, key := .optional, usage := 0x12, form := 3, ws := 0x10000, point := some 2 },
    { number := 0x0302, key := .required, usage := 0x13, ws := 0x10000 } ]
  ++ [ { number := 0x0401, key := .required, usage := 0x01, point := some 3 },
    { number := 0x0411, key := .required, usage := 0x02, point := some 1 },
    { number := 0x0412, key := .required, usage := 0x03, point := some 1 },
    { number := 0x0421, key := .required, usage := 0, point := some 1 },
    { number := 0x0431, key := .required, usage := 0x06 },
    { number := 0x0432, key := .required, usage := 0x06, point := some 4 },
    { number := 0x0433, key := .required, usage := 0x06, point := some 4 },
    { number := 0x0501, key := .required, usage := 0 },
    { number := 0x0511, key := .none, usage := 0, point := some 0 },
    { number := 0x0512, key := .none, usage := 0 },
    { number := 0x0513, key := .required, usage := 0x20, point := some 4 },
    { number := 0x0514, key := .none, usage := 0 },
    { number := 0x0802, key := .none, usage := 0 } ]

def vendorAct (n : Nat) : Option VendorAct := vendorActs.find? (fun a => a.number == n)

/-- The form that an act's image declares: of an act of R202 or R252 the one in its table's column, else its header's (R123, R128). -/
def actForm (number form : Nat) : Nat :=
  if number / 256 = 1 ∨ number / 256 = 3 then (vendorAct number).elim form (fun a => a.form) else form
/-- The working set: that of the table's column, where it has one, else the header's. -/
def actWs (number ws : Nat) : Nat := (vendorAct number).elim ws (fun a => if a.ws = 0 then ws else a.ws)
/-- The act group: the acts of R202, R244, R252, R267 and R297 belong to group 0; another's is its header's (R126). -/
def actGroup (number group : Nat) : Nat := if number < 0x0600 ∧ (vendorAct number).isSome then 0 else group

/-- Pages and accumulator limbs that an act of R244 claims of a Maelhoavo engine, for operands of `na` limbs and a modulus of k bits. -/
def actClaim (number na k : Nat) : Option (Nat × Nat) :=
  match number with
  | 0x0201 => some (2, na + 2)
  | 0x0211 | 0x0212 | 0x0213 | 0x0221 | 0x0222 => some (4, na + 2)
  | 0x0231 => some (2, k / 128 + 3)
  | 0x0232 => some ((5 * 8 * na + 1023) / 1024, if k = 8192 then 130 else na + 2)
  | _ => none

end Sys2Proof.Machine
end

