-- ==== Sys2Proof/Machine/ActStore.lean ====
section
/-!
DEFINITION. Loaded acts (R123–R128) and microcode patches (R165, R169–R172): the images, their checks and what an accepted one
changes.
-/
namespace Sys2Proof.Machine

open Sys2Proof

def gctlActLoad : Nat := 0x1000
def gctlPatchLoad : Nat := 0x1010

/-- n bytes of an image from an offset, as a number; bytes beyond its end read 0. -/
def leAt (l : List Byte) (off n : Nat) : Nat := natOf ((List.range n).map (fun k => l.getD (off + k) 0))

/-- STEP_LETTER of the device (R4). -/
def stepLetter (s : State) : Nat := s.dev.stepLetter.toNat

/-! ### Act images (R123, R124, R128) -/

/-- Length of a signature of a SIG_ALG: ML-DSA-65 and ML-DSA-87 (FIPS 204); 0 for any other. -/
def sigBytes (alg : Nat) : Nat := if alg = 1 then 3309 else if alg = 2 then 4627 else 0

/-- The header of an act image, as far as it does not depend on the device. -/
structure ActHeader where
  hdrVersion : Nat
  number : Nat
  code : Nat
  ro : Nat
  ws : Nat
  entry : Nat
  cost : Nat
  expand : Nat
  form : Nat
  step : Nat
  group : Nat
  signer : Nat
  version : Nat
  sigAlg : Nat
  deriving DecidableEq, Repr

def actHeader (l : List Byte) : ActHeader :=
  let code := leAt l 8 4
  let ro := leAt l 12 4
  { hdrVersion := leAt l 4 2, number := leAt l 6 2, code := code, ro := ro, ws := leAt l 16 4, entry := leAt l 20 4,
    cost := leAt l 24 4, expand := leAt l 28 4, form := leAt l 32 1, step := leAt l 33 1, group := leAt l 34 1,
    signer := leAt l 35 1, version := leAt l 36 8, sigAlg := leAt l (64 + code + ro) 2 }

/-- Bytes of the image with its signature block. -/
def ActHeader.imageSize (h : ActHeader) : Nat := 64 + h.code + h.ro + 4 + sigBytes h.sigAlg

/-- The signer that the act number's range names (R124). -/
def rangeSigner (number : Nat) : Nat := if number < 0x1000 then 0 else if number < 0x4000 then 1 else 2

/-- The rules of R123 and R128 on the header and the two fixed parts of the signature block. -/
def ActHeader.valid (h : ActHeader) (l : List Byte) : Bool :=
  leAt l 0 4 == 0x414E4C49 && (h.hdrVersion == 1 || h.hdrVersion == 2)
    && h.code % 4 == 0 && h.code + h.ro ≤ 0x20000 && h.ws % 64 == 0 && h.ws ≤ 0x200000 && h.entry < h.code
    && h.form ≤ 3 && (h.form != 0 || h.expand == 0) && h.group < 16 && h.signer < 3 && leAt l 44 20 == 0
    && (h.sigAlg == 1 || h.sigAlg == 2) && leAt l (64 + h.code + h.ro + 2) 2 == 0

/-- STEP_LETTER 0 is any stepping. -/
def ActHeader.stepOk (h : ActHeader) (s : State) : Bool := h.step == 0 || h.step == stepLetter s

/-- Code and read-only data of the image. -/
def actCode (l : List Byte) (h : ActHeader) : List Byte := (List.range (h.code + h.ro)).map (fun k => l.getD (64 + k) 0)

/-! ### The store (R124, R125) -/

/-- Bytes of the store in use. -/
def storeUsed (s : State) : Nat := (s.acts.acts.map (fun a => a.code.length)).sum

/-- n bytes at an offset lie free of every loaded act. -/
def storeFits (s : State) (n off : Nat) : Bool :=
  off % 64 == 0 && off + n ≤ storeSize
    && s.acts.acts.all (fun a => off + n ≤ a.offset || a.offset + roundUp a.code.length 64 ≤ off)

/-- Where n bytes go: at the place wished for, else at the lowest that is free. -/
def storePlace (s : State) (n wish : Nat) : Option Nat :=
  if storeFits s n wish then some wish
  else ((0 :: s.acts.acts.map (fun a => a.offset + roundUp a.code.length 64)).filter (storeFits s n)).foldl
    (fun b a => match b with
      | none => some a
      | some m => some (min m a)) none

/-- A VERSION is higher than every one accepted since power-on reset under the key (R125). -/
def versionHigher (s : State) (key version : Nat) : Bool := Table.get 0 s.acts.floor key < version + 1

/-- Install an act; none where the store is full: an act closed to admission, the replaced one included, counts as long as its code is in
the store (DESIGN CHOICE, assumption 107: R124 does not say). The act it replaces takes no further ticket and stays until its last one has
ended; the cost figure is the header's (R73, R125). -/
def installAct (h : ActHeader) (iid : Option Nat) (code : List Byte) (wish : Nat) (s : State) : Option State :=
  if 2048 ≤ s.acts.acts.length ∨ 0x80000 < storeUsed s + code.length then none
  else
    (storePlace s code.length wish).map (fun off =>
      let number : Half := BitVec.ofNat 16 h.number
      let key := actKey number iid
      let a : Act := {
        number := number, iid := iid, hdrVersion := BitVec.ofNat 16 h.hdrVersion, offset := off, codeSize := h.code,
        roSize := h.ro, wsSize := actWs h.number h.ws, entryOff := h.entry, costNs := h.cost, expandNs := h.expand,
        form := BitVec.ofNat 8 (actForm h.number h.form), group := BitVec.ofNat 8 (actGroup h.number h.group), signer := BitVec.ofNat 8 h.signer,
        version := BitVec.ofNat 64 h.version, code := code }
      let s := { s with
        acts := { s.acts with
          acts := s.acts.acts.map (fun (b : Act) => if b.key = key then { b with enabled := false } else b) ++ [a]
          floor := Table.set 0 s.acts.floor key (h.version + 1) } }
      let s := (List.range (ringCount s)).foldl (fun s r => if bit s.boot.ringUp r then storeAct a r s else s) s
      sweepActs s)

/-! ### Roots (R170, R452) -/

/-- Life-cycle state codes (R445). -/
def lcMaker : Nat := 0
def lcIntegrator : Nat := 1
def lcFielded : Nat := 2
def lcReturned : Nat := 3
def lcScrapped : Nat := 4

/-- The integrator firmware root is locked. -/
def integratorLocked (s : State) : Bool := Table.get false s.lcs.rootLocked 0

/-- The root of the state that signs firmware is locked (R452, R476): the maker's roots are locked at wafer test, and none is usable in
SCRAPPED. -/
def firmwareRootLocked (s : State) : Bool :=
  if s.lcs.st = lcIntegrator ∨ s.lcs.st = lcFielded then integratorLocked s else s.lcs.st != lcScrapped

/-- A root that may sign patches in the state is locked: in FIELDED that of the vendor, in boot ROM, among them (R170, R452). -/
def patchRootLocked (s : State) : Bool := s.lcs.st == lcFielded || firmwareRootLocked s

/-- A root that may sign acts of the signer in the state is locked: the vendor's lies in boot ROM (R452). -/
def actRootLocked (s : State) (signer : Nat) : Bool :=
  if signer = 0 ∧ (s.lcs.st = lcIntegrator ∨ s.lcs.st = lcFielded) then true else firmwareRootLocked s

/-! ### Loading by the manager (R125, R171, R442) -/

/-- A GO or UNLOAD while a load is under way, or an act load without management cores, is ignored with a Notice. -/
def loadBusy (s : State) : Bool := s.acts.busy || s.patch.busy

/-- ACT_LOAD: GCTL_ACT_LOAD.GO. -/
def actLoadGo (v : W64) (s : State) : State :=
  if loadBusy s ∨ s.mgmt.held then ignoredWrite 0x14 gctlActLoad v none s
  else { s with acts := { s.acts with busy := true, unloading := none } }

def execActLoad (s : State) : Out :=
  .next (hostWrite (actLoadGo (BitVec.ofNat 64 (0x80000000 + s.acts.loadAct.toNat))) s)

/-- The act loaded under a device number and open to admission. -/
def deviceAct (s : State) (n : Half) : Option Act := s.acts.acts.find? (fun a => a.number == n && a.iid.isNone && a.enabled)

/-- UNLOAD: the act leaves check 2 of R49 at once. -/
def unloadGo (n : Half) (s : State) : State :=
  let v : W64 := BitVec.ofNat 64 (0x40000000 + n.toNat)
  if s.acts.busy then ignoredWrite 0x14 gctlActLoad v none { s with acts := { s.acts with loadAct := n } }
  else
    let found := (deviceAct s n).isSome
    { s with acts := { s.acts with
        loadAct := n, busy := true, unloading := some n, result := if found then 0 else 6
        acts := s.acts.acts.map (fun (a : Act) => if a.number = n ∧ a.iid = none then { a with enabled := false } else a) } }

def execUnload (n : Half) (s : State) : Out := .next (hostWrite (unloadGo n) s)

/-- What firmware finds of the image in the load window, whose signature a key of the boot key table may match (`rootPermitted`, under a
root that the state permits) and verify: a RESULT, or the state with the act installed. The order of the
checks is that of a patch image (R171), since R125 gives none. -/
def actLoadOutcome (rootPermitted verifies : Bool) (place : Nat) (s : State) : Byte × State :=
  let l := readWin s.mem.loadWin 0 64
  let h := actHeader l
  let size := 64 + h.code + h.ro + 4
  let l := if h.code + h.ro ≤ 0x20000 then readWin s.mem.loadWin 0 size else l
  let h := actHeader l
  if h.valid l = false ∨ h.number = 0 ∨ 0x4000 ≤ h.number ∨ h.signer ≠ rangeSigner h.number ∨ h.sigAlg ≠ 2 then (2, s)
  else if h.stepOk s = false then (7, s)
  else if (actRootLocked s h.signer && rootPermitted) = false then (5, s)
  else if verifies = false then (1, s)
  else if versionHigher s (actKey (BitVec.ofNat 16 h.number) none) h.version = false then (4, s)
  else
    match installAct h none (actCode l h) place s with
    | none => (3, s)
    | some s' => (0, s')

/-- ACT_LOAD_DONE: firmware ends a load or an unload (R125). -/
def execActLoadDone (rootPermitted verifies : Bool) (place : Nat) (s : State) : Out :=
  .next (unlessLocked (fun s =>
    if s.acts.busy = false ∨ s.mgmt.held then s
    else
      match s.acts.unloading with
      | some _ => sweepActs { s with acts := { s.acts with busy := false, unloading := none } }
      | none =>
        let r := actLoadOutcome rootPermitted verifies place s
        { r.2 with acts := { r.2.acts with busy := false, result := r.1 } }) s)

/-! ### Patch images (R155, R165, R167, R169, R171) -/

/-- A patch image's header. -/
structure PatchHeader where
  version : Nat
  step : Nat
  words : Nat
  entries : Nat
  deriving DecidableEq, Repr

def patchHeader (l : List Byte) : PatchHeader :=
  { version := leAt l 6 2, step := leAt l 8 1, words := leAt l 9 1, entries := leAt l 10 1 }

/-- Bytes before the signature block. -/
def PatchHeader.size (h : PatchHeader) : Nat := 16 + 20 * h.words + 4 * h.entries

/-- Check 2 of R171: magic, header version, counts, zero bytes, and the signature block that the header's length places. -/
def PatchHeader.valid (h : PatchHeader) (l : List Byte) : Bool :=
  leAt l 0 4 == 0x504D4C49 && leAt l 4 2 == 1 && 1 ≤ h.words && h.words ≤ 128 && h.entries ≤ 32
    && leAt l 11 5 == 0 && leAt l h.size 2 == 2 && leAt l (h.size + 2) 2 == 0

/-- Word k, and match entry k, of the image. -/
def patchWord (l : List Byte) (k : Nat) : BitVec 160 := BitVec.ofNat 160 (leAt l (16 + 20 * k) 20)
def patchEntry_ (l : List Byte) (h : PatchHeader) (k : Nat) : W32 := BitVec.ofNat 32 (leAt l (16 + 20 * h.words + 4 * k) 4)

/-- Check 7: every entry's ROM address and target in range, no two enabled entries with one address. -/
def matchOk (words : Nat) (ms : List W32) : Bool :=
  ms.all (fun m => matchRom m ≤ 0xEFF && matchTarget m < words)
    && (ms.filter matchEn).Pairwise (fun a b => matchRom a ≠ matchRom b)

/-- Check 8 on one word (R167, R171). Which TAG codes clear a tag and which DST codes name the save area or a match register is
the part's own coding. -/
def patchWordOk (w : BitVec 160) : Bool :=
  cwSeq w != 7 && cwReserved w == 0 && !(0xD0 ≤ cwTag w && cwTag w ≤ 0xDF) && !Config.tagClears (cwTag w)
    && !Config.dstForbidden (cwDst w) && !(0xF00 ≤ cwNext w && cwNext w ≤ 0xFFF) && cwNext w ≤ 0x107F

/-- Checks 2–8 of R171: a RESULT, or the accepted image. -/
def patchCheck (l : List Byte) (keyFound verifies : Bool) (s : State) : Byte ⊕ (Half × Table (BitVec 160) × Table W32) :=
  let h := patchHeader l
  let words := (List.range h.words).map (patchWord l)
  let entries := (List.range h.entries).map (patchEntry_ l h)
  if h.valid l = false then .inl 2
  else if h.step ≠ stepLetter s then .inl 4
  else if (patchRootLocked s && keyFound) = false then .inl 3
  else if verifies = false then .inl 1
  else if h.version ≤ s.patch.highest.toNat then .inl 5
  else if matchOk h.words entries = false then .inl 6
  else if words.all patchWordOk = false then .inl 7
  else
    .inr (BitVec.ofNat 16 h.version,
      (List.range h.words).foldl (fun t k => Table.set 0 t k (patchWord l k)) [],
      (List.range h.entries).foldl (fun t k => Table.set 0 t k (patchEntry_ l h k)) [])

/-- The parity bits of a control word, one to each 32-bit slice (R154). -/
def wordParity (w : BitVec 160) : BitVec 5 :=
  BitVec.ofNat 5 (pack ((List.range 5).map (fun k => (b2n (evenParity (w.extractLsb' (32 * k) 32)), k))))

/-- The patch takes effect in every core (R172 step 4). -/
def Patch.take (p : Patch) (v : Half) (ram : Table (BitVec 160)) (entries : Table W32) : Patch :=
  { p with
    version := v, highest := (if v.toNat ≤ p.highest.toNat then p.highest else v), ram := ram,
    ramParity := ram.foldl (fun t e => Table.set 0 t e.1 (wordParity e.2)) [], matchReg := entries }

/-- PATCH_LOAD: GCTL_PATCH_LOAD.GO (R171). An accepted image stops dispatch until it is written (R172). -/
def patchLoadGo (keyFound verifies : Bool) (s : State) : State :=
  if loadBusy s then ignoredWrite 0x14 gctlPatchLoad 0x80000000 none s
  else
    let fail (r : Byte) : State := { s with patch := { s.patch with result := r } }
    if s.fc.snet then fail 8
    else
      match patchCheck (readWin s.mem.loadWin 0 (16 + 20 * 128 + 4 * 32 + 4)) keyFound verifies s with
      | .inl r => fail r
      | .inr (v, ram, entries) =>
        { s with
          patch := { s.patch with busy := true, waiting := some (v, ram, entries), reverting := false }
          ush := { s.ush with paused := true } }

def execPatchLoad (keyFound verifies : Bool) (s : State) : Out := .next (hostWrite (patchLoadGo keyFound verifies) s)

/-- REVERT: the same steps without an image (R171, R172). -/
def revertGo (s : State) : State :=
  if s.patch.busy then ignoredWrite 0x14 gctlPatchLoad 0x40000000 none s
  else { s with
    patch := { s.patch with busy := true, waiting := none, reverting := true }
    ush := { s.ush with paused := true } }

def execRevert (s : State) : Out := .next (hostWrite revertGo s)

/-- PATCH_BROADCAST: with every usable core idle the words and match registers are written and dispatch resumes (R172). -/
def execPatchBroadcast (s : State) : Out :=
  .next (unlessLocked (fun s =>
    if s.patch.busy = false ∨ !((List.range (coreCount s)).all (fun c => !coreUsable s c || (core s c).run == .idle)) then s
    else
      let p := match s.patch.waiting with
        | some (v, ram, entries) => s.patch.take v ram entries
        | none => { s.patch with version := 0, ram := [], ramParity := [], matchReg := [] }
      { s with
        patch := { p with busy := false, waiting := none, reverting := false, result := 0 }
        ush := { s.ush with paused := false } }) s)

end Sys2Proof.Machine
end

