-- ==== Sys2Proof/Machine/KeyEntries.lean ====
section
/-!
DEFINITION. Key store entries (R282, R284, R307, R311) and the cached copies of their forms (R86, R87, R89): what other blocks do to
them.
-/
namespace Sys2Proof.Machine

open Sys2Proof

def keyEntry (s : State) (h : W32) : KeyEntry := Table.get {} s.ks.entries h.toNat
def setKey (h : W32) (e : KeyEntry) (s : State) : State :=
  { s with ks := { s.ks with entries := Table.set {} s.ks.entries h.toNat e } }

/-! ### The attribute word (R285) and cached forms (R86) -/

def attrFamily (a : W64) : Nat := field a.toNat 8 8
def attrSet (a : W64) : Nat := field a.toNat 16 8
def attrForm (a : W64) : Nat := field a.toNat 28 4
def attrPart (a : W64) : Nat := field a.toNat 32 2
def attrExport (a : W64) : Bool := bit a 34
def attrSave (a : W64) : Bool := bit a 35
def attrUsage (a : W64) : Nat := field a.toNat 40 24

/-- Secret key or value, or private key. -/
def attrSecret (a : W64) : Bool := attrPart a == 1 || attrPart a == 2

/-- The form an act of FORM 1 (ML-DSA matrix), 2 (ML-KEM matrix) or 3 (Classic McEliece public key) expands for a key: kinds 1–3, 4–6
and 7–10 by the key's set (assumption 27). -/
def formKind (form : Nat) (a : W64) : Option Nat :=
  let k := attrSet a
  match form, attrFamily a with
  | 1, 2 => if 1 ≤ k ∧ k ≤ 3 then some k else none
  | 2, 1 => if 1 ≤ k ∧ k ≤ 3 then some (3 + k) else none
  | 3, 4 => if 1 ≤ k ∧ k ≤ 4 then some (6 + k) else none
  | _, _ => none

/-- The expansion cost of a ticket's form: the header's, or for Classic McEliece that of the key's set (R123, R252). -/
def expandCost (kind headerNs : Nat) : Nat :=
  match kind with
  | 7 => 3500 | 8 => 6500 | 9 => 12000 | 10 => 15500
  | _ => headerNs

/-- KS_STATUS, KS_I registers. -/
def ksReg (off : Nat) : Nat := 0x300000 + off
def ksIReg (i off : Nat) : Nat := 0x301000 + 0x20 * i + off
def ksInst (s : State) (i : Nat) : KsInst := Table.get {} s.ks.inst i
def setKsInst (i : Nat) (x : KsInst) (s : State) : State := { s with ks := { s.ks with inst := Table.set {} s.ks.inst i x } }

/-- Entries of an instance in any state but EMPTY, and its KiB in use, rounded up (R307). -/
def keysOf (s : State) (i : Nat) : List (Nat × KeyEntry) :=
  s.ks.entries.filter (fun e => e.1 / 2 ^ 23 == i && e.2.st != .empty)
def linesOf (s : State) (i : Nat) : Nat := ((keysOf s i).map (fun e => e.2.lines)).sum

/-- The keys that a dispatched ticket holds a copy of, or works for. -/
def heldKeys (s : State) (t : Ticket) : List W32 :=
  match t.core? with
  | none => []
  | some c => t.handle :: (core s c).grants.map (fun g => g.handle) ++ (match (core s c).run with
      | .deliver _ g _ _ => [g.handle]
      | _ => [])

/-- Every copy of the forms of these keys becomes DRAINING in this hub cycle. A ticket dispatched before goes on with what it holds,
but nothing of it is kept for others (R89). -/
def drainCopies (p : W32 → Bool) (s : State) : State :=
  { s with ush := { s.ush with
      copies := s.ush.copies.map (fun (k : Copy) => if p k.handle then { k with st := .draining } else k)
      changed := s.ush.changed ++ (s.tickets.map (fun t => ((heldKeys s t).filter p).map (fun h => (t.id, h)))).flatten } }

/-- An entry's destruction begins: its copies drain, its data are gone, its lines stay counted until the scrub ends (R311). -/
def destroyKey (h : W32) (s : State) : State :=
  let e := keyEntry s h
  if e.st = .empty then s
  else drainCopies (fun k => k == h) (setKey h { st := .destroying, lines := e.lines } s)

/-- The ceremony in progress ends with a RESULT (R309, R310). -/
def endCeremony (r : Byte) (s : State) : State :=
  let c := s.ks.cer
  let s := drbgCancel .ceremony s
  if c.isOpen ∨ c.opening then
    let s := if (keyEntry s c.slot).st = .reserved then setKey c.slot {} s else s
    { s with ks := { s.ks with cer := { c with
        busy := false, opening := false, isOpen := false, step := 0, acc := [], result := r, resumePending := false } } }
  else s

/-- REMOVE destroys every key of the instance, clears its domain and cancels its ceremony (R310, R311). -/
def destroyKeysOf (i : Nat) (s : State) : State :=
  let s := if (s.ks.cer.isOpen || s.ks.cer.opening) && handleIid s.ks.cer.slot == i then endCeremony 7 s else s
  let s := (keysOf s i).foldl (fun s e => destroyKey (BitVec.ofNat 32 e.1) s) s
  setKsInst i { ksInst s i with domain := 0 } s

end Sys2Proof.Machine
end

