-- ==== Sys2Proof/Machine/Instances.lean ====
section
/-!
DEFINITION. Tickets, instances and the manager: the instance table and pages (R43–R46), submission and release (R50–R52, R57), the
mailbox (R61–R63), instance states and commands (R64–R68), abort (R69–R72), and the power states of the function (R41).
-/
namespace Sys2Proof.Machine

open Sys2Proof

def errNotPermitted : Byte := 1
def errPasidInUse : Byte := 2
def errQueueConfig : Byte := 3
def errBadDoorbell : Byte := 4
def errSqFetch : Byte := 5
def errBadShare : Byte := 6
def errPasidInvalid : Byte := 7

def setErr (i : Nat) (e : Byte) (s : State) : State := setInst i { inst s i with err := e } s

/-- The instance exists on the part (R43, R46). -/
def iidPresent (s : State) (i : Nat) : Bool := i < iidCount s

/-- A write of an instance-table register or a page register: that of an absent IID holds none and is noticed (R12, R43). -/
def onInstance (i off : Nat) (v : W64) (f : State → State) (s : State) : State :=
  hostWrite (fun s => if iidPresent s i then f s else ignoredWrite 0x13 off v none s) s

/-- IT_STATUS as read (R44). -/
def itStatus (s : State) (i : Nat) : Nat :=
  let x := inst s i
  let p := page s i
  pack [(x.err.toNat, 24), (b2n p.inFull, 19), (b2n p.outFull, 18), (b2n (x.st == .resetting), 17), (b2n x.drained, 16),
    (match x.st with | .free => 0 | .active => 1 | .stopped => 2 | .resetting => 3, 0)]

/-- IT_PG_MB_CTRL, IT_PG_ABORT_STATUS as read (R61, R70). -/
def mbCtrl (p : Page) : Nat := pack [(b2n p.inFull, 31), (b2n p.outFull, 30), (b2n p.dropped, 29)]
def abortStatus (p : Page) : Nat := pack [(b2n p.abortBusy, 31), (b2n p.abortOverrun, 30), (p.abortResult.toNat, 0)]

/-- An instance command is accepted in these states, and then clears ERR; in any other it is ignored (R64). -/
def instCommand (i cmd : Nat) (ok : Inst → Bool) (f : State → State) (s : State) : Out :=
  .next (onInstance i (itReg i 0) (BitVec.ofNat 64 cmd) (fun s =>
    if ok (inst s i) then f (setErr i 0 s) else setErr i errNotPermitted s) s)

/-! ### Configuration (R44, R45) -/

/-- Registers 0x08–0x1C of the entry. -/
def Inst.configured (x : Inst) (off : Nat) (d : W32) : Inst :=
  let lo (b : W64) : W64 := BitVec.ofNat 64 (b.toNat / 2 ^ 32 * 2 ^ 32 + d.toNat / 4096 * 4096)
  let hi (b : W64) : W64 := BitVec.ofNat 64 (d.toNat * 2 ^ 32 + b.toNat % 2 ^ 32)
  match off with
  | 0x08 => { x with pasidValid := bit d 31, pasid := d.setWidth 20 }
  | 0x0C => { x with sqLog2 := d.setWidth 4, cqLog2 := BitVec.ofNat 4 (d.toNat / 256) }
  | 0x10 => { x with sqBase := lo x.sqBase }
  | 0x14 => { x with sqBase := hi x.sqBase }
  | 0x18 => { x with cqBase := lo x.cqBase }
  | 0x1C => { x with cqBase := hi x.cqBase }
  | _ => x

/-- INSTANCE_CONFIG_WRITE (R45): in FREE, and in STOPPED while DRAINED. -/
def execInstanceConfigWrite (i off : Nat) (data : W32) (s : State) : Out :=
  .next (onInstance i (itReg i off) (data.setWidth 64) (fun s =>
    let x := inst s i
    if x.st = .free ∨ (x.st = .stopped ∧ x.drained) then setInst i (x.configured off data) s
    else setErr i errNotPermitted s) s)

/-- IT_SHARE_WRITE (R44, R79): each field on its own; held until a boundary. -/
def execItShareWrite (i : Nat) (data : W32) (s : State) : Out :=
  .next (onInstance i (itReg i 0x20) (data.setWidth 64) (fun s =>
    let x := inst s i
    let w := data.toNat / 65536
    let m := data.toNat % 512
    let bad : Bool := w == 0 || 256 < m
    setInst i { x with
      weight := if w = 0 then x.weight else BitVec.ofNat 16 w
      minCores := if 256 < m then x.minCores else BitVec.ofNat 9 m
      sharePend := x.sharePend || w != 0 || m ≤ 256
      err := if bad then errBadShare else x.err } s) s)

/-- IT_CEILING_WRITE (R44, R79). -/
def execItCeilingWrite (i : Nat) (data : W32) (s : State) : Out :=
  .next (onInstance i (itReg i 0x24) (data.setWidth 64) (fun s =>
    let x := inst s i
    let n := data.toNat % 8192
    if n = 0 ∨ 4096 < n then setErr i errBadShare s
    else setInst i { x with ceiling := BitVec.ofNat 13 n, sharePend := true } s) s)

/-- Pending values take effect (R79). -/
def Inst.takeShare (x : Inst) : Inst :=
  { x with weightEff := x.weight, minCoresEff := x.minCores, ceilingEff := x.ceiling, sharePend := false }

/-- ACTIVATE (R45, R64): the first condition that fails sets ERR and leaves the state FREE; refused before STAGE is RUNNING
(R472). Another instance that is not FREE holds the PASID that its register names, whatever VALID is (DESIGN CHOICE, assumption 105). -/
def execActivate (i : Nat) (s : State) : Out :=
  .next (onInstance i (itReg i 0) 1 (fun s =>
    let x := inst s i
    let sq := x.sqLog2.toNat
    let cq := x.cqLog2.toNat
    if x.st ≠ .free ∨ s.boot.stage ≠ 5 then setErr i errNotPermitted s
    else if x.pasidValid = false then setErr i errPasidInvalid s
    else if s.inst.any (fun e => e.1 != i && e.2.st != .free && e.2.pasid == x.pasid) then setErr i errPasidInUse s
    else if sq < 4 ∨ 12 < sq ∨ cq < 4 ∨ 12 < cq ∨ cq < sq then setErr i errQueueConfig s
    else
      setShare i { share s i with vt := 0, dispatched := 0, passedOver := false }
        (setInst i { x.takeShare with st := .active, err := 0, drained := false } s)) s)

/-! ### Stop, cancel, resume, reset, remove (R64–R68) -/

/-- STOP: admission ends in this hub cycle. -/
def execStop (i : Nat) (s : State) : Out :=
  instCommand i 2 (fun x => x.st == .active) (fun s =>
    checkDrained i (setInst i { inst s i with st := .stopped, drained := false } s)) s

/-- Numbers of the instance's tickets in the buffer, and of those dispatched. -/
def undispatched (s : State) (i : Nat) : List Nat :=
  (s.tickets.filter (fun t => !t.device && t.iid == i && t.inBuffer)).map (fun t => t.id)
def onCores (s : State) (i : Nat) : List Nat :=
  (s.tickets.filter (fun t => !t.device && t.iid == i && t.dispatched)).map (fun t => t.id)

/-- CANCEL: undispatched tickets complete ABORTED. -/
def execCancel (i : Nat) (s : State) : Out :=
  instCommand i 3 (fun x => x.st == .stopped) (fun s =>
    (undispatched s i).foldl (fun s tid => finishQueued tid { status := stAborted } s) s) s

def execResume (i : Nat) (s : State) : Out :=
  instCommand i 4 (fun x => x.st == .stopped && s.boot.stage == 5) (fun s =>
    setInst i { inst s i with st := .active, drained := false } s) s

/-- The mailbox is empty (R63). -/
def Page.mailboxCleared (p : Page) : Page := { p with mbOut := [], mbIn := [], outFull := false, inFull := false }

/-- RESET steps 1–3 (R66, R67): undispatched tickets complete INSTANCE_RESET, dispatched ones leave their acts; an abort in
progress is taken over. -/
def execInstReset (i : Nat) (s : State) : Out :=
  instCommand i 5 (fun x => x.st == .active || x.st == .stopped) (fun s =>
    let p := page s i
    let s := setInst i { inst s i with
      st := .resetting, drained := false, reads := (inst s i).reads.map (fun r => { r with abort := false }) } s
    let s := setPage i { p with abortResult := if p.abortBusy then stNothing else p.abortResult, abortAny := false } s
    let s := { s with tickets := s.tickets.map (fun (t : Ticket) =>
      if t.iid = i ∧ t.device = false then { t with aborting := false } else t) }
    let s := (undispatched s i).foldl (fun s tid => finishQueued tid { status := stInstReset } s) s
    (onCores s i).foldl (fun s tid => stopTicket tid stInstReset s) s) s

/-- RESET_COMPLETE: step 5 of R66, once no ticket and no ticket read is left. Every completion slot is released, and the TXID
records go (R348). -/
def execResetComplete (i : Nat) (s : State) : Out :=
  .next (unlessLocked (fun s =>
    let x := inst s i
    if x.st ≠ .resetting ∨ x.removing ∨ hasWork s i then s
    else
      let p := (page s i).mailboxCleared
      let s := (s.dol.txns.filter (fun t => t.iid == i)).foldl (fun s t => dropTxn t s) s
      attention i (setPage i { p with abortTag := 0, abortFor := 0, abortBusy := false, abortOverrun := false }
        (setInst i { x with
          sqHead := 0, cqTail := 0, cqHead := 0, unreleased := 0, reserved := 0, st := .stopped, drained := true } s))) s)

/-- REMOVE (R68, R127, R348): sessions close, keys are destroyed, copies drain, tenant acts are unloaded, the mailbox empties. -/
def execRemove (i : Nat) (s : State) : Out :=
  instCommand i 6 (fun x => x.st == .stopped && x.drained) (fun s =>
    let s := (s.dol.sessions.filter (fun z => z.iid == i)).foldl (fun s z => closeSession z.sid (some 5) s) s
    let s := drainCopies (fun h => handleIid h == i) (destroyKeysOf i s)
    let s := { s with acts := { s.acts with acts := s.acts.acts.filter (fun a => a.iid != some i) } }
    setPage i (page s i).mailboxCleared
      (setInst i { inst s i with st := .resetting, removing := true, drained := false } s)) s

/-- REMOVE_COMPLETE: the key scrub has ended; FREE, with the configuration at its reset values, which ends the audit epoch
(R68, R373). -/
def execRemoveComplete (i : Nat) (s : State) : Out :=
  .next (unlessLocked (fun s =>
    let x := inst s i
    if x.removing = false then s
    else
      let s := { s with ks := { s.ks with entries := s.ks.entries.filter (fun e => e.1 / 2 ^ 23 != i) } }
      causeEarly 2 (setInst i {
        sqHead := x.sqHead, sqTail := x.sqTail, cqHead := x.cqHead, cqTail := x.cqTail, unreleased := x.unreleased,
        reserved := x.reserved, err := x.err } s)) s)

/-! ### The mailbox (R61–R63) -/

def mailboxOpen (x : Inst) : Bool := x.st == .active || x.st == .stopped

/-- SEND (R62, R63): ignored with DROPPED while OUT_FULL is 1, also where its acknowledgement falls in this hub cycle. -/
def execSend (i : Nat) (s : State) : Out :=
  .next (onInstance i (0x1000 * i + 0x20) 1 (fun s =>
    let p := page s i
    if mailboxOpen (inst s i) = false then s
    else if p.outFull ∨ p.outAck = some s.time.cycle then
      noteSet (pgReg i 0x20) 0x20000000 (setPage i { p with dropped := true } s)
    else attention i (setPage i { p with outFull := true } s)) s)

/-- ACK: the tenant acknowledges the manager's message. -/
def execAck (i : Nat) (s : State) : Out :=
  .next (onInstance i (0x1000 * i + 0x20) 2 (fun s =>
    if mailboxOpen (inst s i) then setPage i { page s i with inFull := false, inAck := if (page s i).inFull then some s.time.cycle else (page s i).inAck } s
    else s) s)

/-- MB_SEND: the mirror of SEND; a completion vector is raised for the tenant. -/
def execMbSend (i : Nat) (s : State) : Out :=
  instCommand i 7 mailboxOpen (fun s =>
    let x := inst s i
    let p := page s i
    if p.inFull ∨ p.inAck = some s.time.cycle then s
    else
      let s := setPage i { p with inFull := true } s
      if x.irqEn then msix x.irqVector.toNat s else s) s

/-- MB_ACK: both full indications of the tenant's message clear. -/
def execMbAck (i : Nat) (s : State) : Out :=
  instCommand i 8 mailboxOpen (fun s =>
    let p := page s i
    setPage i { p with outFull := false, outAck := if p.outFull then some s.time.cycle else p.outAck } s) s

/-! ### Doorbells (R50, R57) -/

/-- An ignored doorbell: BAD_DOORBELL, ERR, an F0 Notice. -/
def badDoorbell (i off : Nat) (data : W32) (s : State) : State :=
  ignoredWrite 0x14 (0x1000 * i + off) (data.setWidth 64) (some i) (bump (itReg i 0x38) 0 16 (setErr i errBadDoorbell s))

/-- SQ_DOORBELL (R50). -/
def execSqDoorbell (i : Nat) (data : W32) (s : State) : Out :=
  .next (onInstance i (0x1000 * i) (data.setWidth 64) (fun s =>
    let x := inst s i
    let v := data.toNat % 4096
    if sqSize x ≤ v then badDoorbell i 0 data s else setInst i { x with sqTail := v } s) s)

/-- CQ_DOORBELL (R57): it releases written slots only, as many as lie between the head and the written value. Whether those are written is
judged by the number of slots written and not released, since the distance from head to tail is 0 both for an empty and for a full queue; the
present head releases none (DESIGN CHOICE, assumption 105). -/
def execCqDoorbell (i : Nat) (data : W32) (s : State) : Out :=
  .next (onInstance i (0x1000 * i + 4) (data.setWidth 64) (fun s =>
    let x := inst s i
    let v := data.toNat % 4096
    let d := (v + cqSize x - x.cqHead % cqSize x) % cqSize x
    if cqSize x ≤ v ∨ x.unreleased < d then badDoorbell i 4 data s
    else setInst i { x with cqHead := v, unreleased := x.unreleased - d } s) s)

/-! ### Ticket reads (R51, R59, R60, R78) -/

/-- Tickets that the reads in flight have reserved entries for; those of a void read are released. -/
def Inst.coming (x : Inst) (f : TicketRead → Nat) : Nat := ((x.reads.filter (fun r => !r.void)).map f).sum

/-- Buffer entries of an instance's own 32 in use, those that reads in flight hold included, and entries of the pool. -/
def ownUsed (s : State) (i : Nat) : Nat :=
  (s.tickets.filter (fun t => !t.device && t.iid == i && t.inBuffer && !t.pool)).length + (inst s i).coming (fun r => r.count - r.pool)
def poolUsed (s : State) : Nat :=
  (s.tickets.filter (fun t => !t.device && t.inBuffer && t.pool)).length
    + (s.inst.map (fun e => e.2.coming (fun r => r.pool))).sum
/-- 65,536 entries less 32 for each instance of the part (R78). -/
def poolSize (s : State) : Nat := 65536 - 32 * iidCount s
def ownFree (s : State) (i : Nat) : Nat := 32 - ownUsed s i
def poolFree (s : State) : Nat := poolSize s - poolUsed s

/-- The first slot that no read in flight covers. -/
def fetchHead (x : Inst) : Nat :=
  (match (x.reads.filter (fun r => !r.void)).getLast? with
    | some r => r.slot + r.count
    | none => x.sqHead) % sqSize x

/-- Tickets one read may ask for: at most 64, to the tail, to the wrap, with a slot and an entry each. -/
def fetchCount (s : State) (i : Nat) : Nat :=
  let x := inst s i
  let n := sqSize x
  let head := fetchHead x
  let avail := (x.sqTail + n - head) % n
  min 64 (min avail (min (n - head) (min (freeSlots x) (ownFree s i + poolFree s))))

/-- TICKET_FETCH: one read request (R51); several may be in flight. -/
def execTicketFetch (i : Nat) (s : State) : Out :=
  .next (unlessLocked (fun s =>
    let x := inst s i
    let n := fetchCount s i
    if iidPresent s i = false ∨ s.boot.warm ∨ x.st ≠ .active ∨ n = 0 then s
    else
      let s := emit (.read (some x.pasid) (x.sqBase + BitVec.ofNat 64 (64 * fetchHead x)) (64 * n)) s
      setInst i { x with
        reserved := x.reserved + n
        reads := x.reads ++ [{ slot := fetchHead x, count := n, pool := n - min n (ownFree s i), since := s.time.ticks, unsent := s.pcie.d3hot }] } s) s)

/-- DETAIL0 of a host error, and the address that failed (R433). -/
def hostDetail : HostEnd → Nat
  | .ok => 0
  | .unsupported _ => 1
  | .completerAbort _ => 2
  | .poisoned _ => 3
  | .timeout _ => 4
def hostIova : HostEnd → W64
  | .ok => 0
  | .unsupported a | .completerAbort a | .poisoned a | .timeout a => a

/-- The address is the lower. -/
def lowerEnd (a b : HostEnd) : Bool := (hostIova a).toNat < (hostIova b).toNat

def isPoisoned : HostEnd → Bool
  | .poisoned _ => true
  | _ => false

/-- The one outcome of a read transfer with these failed completions: poisoned data first, then the lowest address (R59). -/
def outcomeOf (failed : List HostEnd) : HostEnd :=
  let l := failed.filter (fun e => e != .ok)
  let worst := if l.any isPoisoned then l.filter isPoisoned else l
  match worst with
  | [] => .ok
  | e :: r => r.foldl (fun a b => if lowerEnd b a then b else a) e

/-- AER reports every request of the transfer that has timed out (R60). -/
def noteTimeouts (failed : List HostEnd) (s : State) : State :=
  if failed.any (fun e => match e with
    | .timeout _ => true
    | _ => false) then { s with pcie := { s.pcie with aerTimeout := true } } else s

/-- A ticket read fails: no ticket enters, and the instance stops with SQ_FETCH_FAULT at the first slot not fetched. The later reads in
flight release their reservations too, and their data will be discarded; one of them that fails is recorded as well (R51, R59; assumption
104). -/
def ticketReadFailed (i : Nat) (e : HostEnd) (s : State) : State :=
  let x := inst s i
  match x.reads with
  | [] => s
  | r :: rest =>
    let notice : Event := { cls := .f0, source := 0x13, cause := 0x0D, iid := BitVec.ofNat 16 i, addr := hostIova e,
                            detail0 := BitVec.ofNat 64 (hostDetail e) }
    if r.void then checkDrained i (report notice (setInst i { x with reads := rest } s))
    else
      let s := setInst i { x with
        reserved := x.reserved - x.coming (fun r => r.count), reads := rest.map (fun r => { r with void := true }), err := errSqFetch
        st := if x.st = .active then .stopped else x.st } s
      checkDrained i (attention i (report notice s))

/-- Tickets enter the buffer, the first n of them in the instance's own entries. -/
def enterTickets (i n : Nat) : List (BitVec 512) → State → State
  | [], s => s
  | b :: r, s =>
    enterTickets i (n - 1) r { s with
      nextTicket := s.nextTicket + 1
      tickets := s.tickets ++ [{ id := s.nextTicket, iid := i, origin := .queue, bytes := b, pool := n == 0 }] }

/-- Tickets from number n on that the abort in progress names are aborted as they arrive: its abort found them in a queue read (R71). -/
def abortArrived (i n : Nat) (s : State) : State :=
  let p := page s i
  let hit (t : Ticket) : Bool := n ≤ t.id && t.iid == i && !t.device && t.tag == p.abortFor
  let ids := (s.tickets.filter hit).map (fun t => t.id)
  let s := { s with tickets := s.tickets.map (fun (t : Ticket) => if hit t then { t with aborting := true } else t) }
  ids.foldl (fun s tid => finishQueued tid { status := stAborted } s) s

/-- The data of the oldest ticket read arrive: its tickets are in the buffer, in queue order (R51). A void read brings nothing; a RESET
discards the tickets, and the reservations are released (R66). -/
def ticketsArrive (i : Nat) (l : List (BitVec 512)) (s : State) : State :=
  let x := inst s i
  match x.reads with
  | [] => s
  | r :: rest =>
    if r.void then checkDrained i (setInst i { x with reads := rest } s)
    else if x.st = .resetting then setInst i { x with reserved := x.reserved - r.count, reads := rest } s
    else
      let first := s.nextTicket
      let s := enterTickets i (r.count - r.pool) ((List.range r.count).map (fun k => l.getD k 0))
        (setInst i { x with reads := rest, sqHead := (r.slot + r.count) % sqSize x } s)
      if r.abort ∧ (page s i).abortBusy then abortArrived i first s else s

/-- TICKET_READ_COMPLETION (R51, R59, R66): the oldest read ends well, or fails. -/
def execTicketReadCompletion (i : Nat) (failed : List HostEnd) (tickets : List (BitVec 512)) (s : State) : Out :=
  .next (unlessLocked (fun s =>
    let s := noteTimeouts failed s
    if outcomeOf failed ≠ .ok then ticketReadFailed i (outcomeOf failed) s else ticketsArrive i tickets s) s)

/-! ### Inline tickets (R52, R78, R442) -/

/-- A ticket of this instance takes a buffer entry and a completion slot, an inline one as IT_PG_INLINE_GO is written and not as its copy ends
(DESIGN CHOICE, assumption 105), or has no entry and completes REFUSED_OVERLOAD with
hint 1 (R78). Its slot is reserved already. -/
def enterOne (i : Nat) (origin : Origin) (bytes : BitVec 512) (input : List Byte) (phase : Phase) (s : State) : State :=
  let own := decide (0 < ownFree s i)
  let room := own || decide (0 < poolFree s)
  let tid := s.nextTicket
  let s := { s with
    nextTicket := tid + 1
    tickets := s.tickets ++ [{ id := tid, iid := i, origin := origin, bytes := bytes, input := input,
                               phase := if room then phase else .entering, pool := !own && room }] }
  if room then s else finish tid { status := stOverload, hint := 1, refused := true, full := true } s

/-- The window as a ticket, and its inline input. -/
def windowTicket (p : Page) : BitVec 512 := BitVec.ofNat 512 (natOf (readWin p.window 0 64))
def windowInput (p : Page) : List Byte := readWin p.window 64 192

/-- A write of IT_PG_INLINE_GO while no copy is in progress. -/
def inlineGo (i : Nat) (s : State) : State :=
  let x := inst s i
  let p := page s i
  if x.st ≠ .active ∨ freeSlots x = 0 ∨ s.boot.warm then
    setPage i { p with inlineStatus := if s.fc.snet then stSafetyNet else stQuota } s
  else
    let s := setInst i { x with reserved := x.reserved + 1 } s
    let s := enterOne i .inline (windowTicket p) (windowInput p) .copying s
    setPage i { page s i with inlineStatus := 0, copying := s.tickets.any (fun t => t.iid == i && t.phase == .copying) } s

/-- A write that reaches the inline part of a page: held back while a copy is in progress. -/
def pageInlineWrite (i off : Nat) (data : List Byte) (s : State) : State :=
  let p := page s i
  if p.copying then setPage i { p with heldWrites := p.heldWrites ++ [(off, data)] } s
  else if off = 0x18 then inlineGo i s
  else setPage i { p with window := writeWin p.window (off - 0x100) data } s

/-- INLINE_GO (R52). -/
def execInlineGo (i : Nat) (s : State) : Out :=
  .next (onInstance i (0x1000 * i + 0x18) 0 (pageInlineWrite i 0x18 [0, 0, 0, 0]) s)

/-- INLINE_COPY_DONE: the ticket is in the buffer; the writes held back follow in their order. -/
def execInlineCopyDone (i : Nat) (s : State) : Out :=
  .next (unlessLocked (fun s =>
    let p := page s i
    if p.copying = false then s
    else
      let s := { s with tickets := s.tickets.map (fun (t : Ticket) =>
        if t.iid = i ∧ t.phase = .copying then { t with phase := .entering } else t) }
      let s := setPage i { p with copying := false, heldWrites := [] } s
      p.heldWrites.foldl (fun s w => pageInlineWrite i w.1 w.2 s) s) s)

/-! ### Abort (R69–R72) -/

/-- One ticket that an abort names: taken back from the buffer, or stopped on its core (R71, R72). -/
def abortTicket (s : State) (tid : Nat) : State :=
  match ticket? s tid with
  | none => s
  | some t => if t.inBuffer then finishQueued tid { status := stAborted } s else stopTicket tid stAborted s

/-- ABORT_START: every ticket of the instance with the tag and without a final entry, those that a queue read in flight will bring included;
OVERRUN while one is in progress. -/
def execAbortStart (i : Nat) (tagHi : W32) (s : State) : Out :=
  .next (onInstance i (0x1000 * i + 0xC) (tagHi.setWidth 64) (fun s =>
    let p := page s i
    if p.abortBusy then
      noteSet (pgReg i 0x10) 0x40000000 (setPage i { p with abortOverrun := true } s)
    else
      let tag : W64 := BitVec.ofNat 64 (tagHi.toNat * 2 ^ 32 + p.abortTag.toNat % 2 ^ 32)
      let hit (t : Ticket) : Bool := !t.device && t.iid == i && t.tag == tag
      let ids := (s.tickets.filter hit).map (fun t => t.id)
      let s := setPage i { p with abortTag := tag, abortFor := tag, abortBusy := true, abortAny := false } s
      let s := setInst i { inst s i with reads := (inst s i).reads.map (fun r => { r with abort := !r.void }) } s
      let s := { s with tickets := s.tickets.map (fun (t : Ticket) => if hit t then { t with aborting := true } else t) }
      ids.foldl abortTicket s) s)

/-- ABORT_DONE: every aborted ticket's entry has been issued (R72). -/
def execAbortDone (i : Nat) (s : State) : Out :=
  .next (unlessLocked (fun s =>
    let p := page s i
    if p.abortBusy = false ∨ s.tickets.any (fun t => t.iid == i && t.aborting) ∨ (inst s i).reads.any (fun r => r.abort) ∨
        s.pcie.heldEntries.any (fun e => e.1 == i && e.2.2) then s
    else setPage i { p with abortBusy := false, abortResult := if p.abortAny then stAborted else stNothing } s) s)

/-! ### Power states (R41, R484) -/

/-- Pending vectors that are not masked leave (R484). -/
def msixFlush (s : State) : State :=
  (List.range 514).foldl (fun s v =>
    if bit s.pcie.msixPending v && !bit (Table.get {} s.pcie.msix v).ctrl 0 && !s.pcie.d3hot && !s.pcie.inReset && !s.fc.lock then
      emit (.msix v) { s with pcie := { s.pcie with msixPending := s.pcie.msixPending &&& ~~~ BitVec.ofNat 514 (2 ^ v) } }
    else s) s

def execD3hotEnter (s : State) : Out := .next { s with pcie := { s.pcie with d3hot := true } }

/-- The host reads that waited are issued now, and their timeouts begin (R41, R60). -/
def readsIssued (s : State) : State :=
  let now := s.time.ticks
  { s with
    inst := s.inst.map (fun e => (e.1, { e.2 with
      reads := e.2.reads.map (fun r => if r.unsent then { r with unsent := false, since := now } else r) }))
    corex := s.corex.map (fun e => (e.1, { e.2 with
      dma := { e.2.dma with queue := e.2.dma.queue.map (fun x => if x.unsent then { x with unsent := false, since := now } else x) } }))
    mewin := s.mewin.map (fun e => (e.1, { e.2 with
      queue := e.2.queue.map (fun q => if q.unsent then { q with unsent := false, since := now } else q) })) }

/-- D0_RETURN: the requests that waited are issued first, in their order, then the pending vectors. -/
def execD0Return (s : State) : Out :=
  .next (
    if s.pcie.d3hot = false then s
    else
      let s := readsIssued { s with pcie := { s.pcie with
        d3hot := false, issued := s.pcie.issued ++ s.pcie.held, held := [], heldEntries := [] } }
      (s.inst.map (fun e => e.1)).foldl (fun s i => checkDrained i s) (msixFlush s))

end Sys2Proof.Machine
end

