-- ==== Sys2Proof/Machine/Usher.lean ====
section
/-!
DEFINITION. The Usher: entry checks and admission (R49, R75–R78, R442), deadlines (R81), share epochs (R79, R80, R82), order within an
instance (R83), dispatch and placement (R84, R85, R98), and the cached copies of forms (R86–R91).
-/
namespace Sys2Proof.Machine

open Sys2Proof

/-! ### Entry (R49, R75) -/

/-- Order 1 of R49. -/
def badTicket (t : Ticket) : Bool :=
  let inline : Bool := match t.origin with
    | .inline => true
    | _ => false
  16 ≤ t.flags || 3 < t.priority || (t.inlineData && !inline) || (t.inlineData && 192 < t.inLen)

/-- Tickets of the instance admitted and in flight: QUEUED + RUNNING of test 2. Neither the ticket at the test nor others that wait for their
own tests are among them, though IT_INFLIGHT.QUEUED counts these (DESIGN CHOICE, assumption 105). -/
def inFlight (s : State) (i : Nat) : List Ticket :=
  s.tickets.filter (fun t => !t.device && t.iid == i && (t.phase == .queued || t.dispatched))

/-- The tests of R75: a refusal with its status and hint, or none. -/
def admission (s : State) (t : Ticket) (cost : Rat) : Option (Byte × Nat) :=
  let x := inst s t.iid
  let h := share s t.iid
  let fl := inFlight s t.iid
  let n := fl.length
  let cap := x.ceilingEff.toNat
  let lim := h.ent * (s.ush.horizonEff.toNat : Rat) * 1000
  let p := (if h.backlog = 0 then 0 else h.backlog / h.ent) + cost
  let late := (ntN s : Rat) + p - (t.deadline : Rat)
  if x.st ≠ .active then some (stQuota, 0)
  else if cap ≤ n then
    some (stQuota, max 1 (quotientUs (((n - cap + 1 : Nat) : Rat) * ((fl.map (fun t => t.cost)).sum / (n : Rat))) h.ent))
  else if 0 < h.backlog ∧ lim < h.backlog + cost then some (stOverload, max 1 (quotientUs (h.backlog + cost - lim) h.ent))
  else if t.deadline ≠ 0 ∧ 0 < late then some (stUnreachable, quotientUs late 1)
  else none

/-- TICKET_ENTRY: checks 1–5 (R49). In safety-net mode every instance ticket completes SAFETY_NET (R442). The projected wait of R82 is taken
with the ticket's own c(a) in W_i (DESIGN CHOICE, assumption 105). -/
def execTicketEntry (tid : Nat) (s : State) : Out :=
  .next (unlessLocked (fun s =>
    match ticket? s tid with
    | none => s
    | some t =>
      if t.phase ≠ .entering ∨ t.device then s
      else
        let refuse (status : Byte) (hint : Nat) : State :=
          finish tid { status := status, hint := hint, refused := true } s
        if s.fc.snet then refuse stSafetyNet 0
        else if badTicket t then refuse stInvalid 0
        else
          match actEnabled s t.iid t.act with
          | none => refuse stInvalid 0
          | some a =>
            if t.handle ≠ noKey ∧ handleIid t.handle ≠ t.iid then refuse stUsage 0
            else if t.deadline ≠ 0 ∧ t.deadline ≤ ntN s then refuse stPassed 0
            else
              let c := costOf s a
              match admission s t c with
              | some r => refuse r.1 r.2
              | none =>
                let s := modTicket tid (fun t => { t with phase := .queued, cost := c, version := a.version }) s
                let h := share s t.iid
                deferIfLong tid (setShare t.iid { h with backlog := h.backlog + c } s)) s)

/-- ENTITLEMENT_RECOMPUTE (R73, R74). -/
def execEntitlementRecompute (s : State) : Out := .next (unlessLocked recompute s)

/-- DEADLINE_EXPIRY: an admitted ticket whose deadline is not later than NT (R81). -/
def execDeadlineExpiry (tid : Nat) (s : State) : Out :=
  .next (unlessLocked (fun s =>
    match ticket? s tid with
    | none => s
    | some t =>
      if t.phase = .queued ∧ t.deadline ≠ 0 ∧ t.deadline ≤ ntN s then finishQueued tid { status := stPassed } s else s) s)

/-! ### Cached copies (R86–R91) -/

/-- Size of a form by kind; a secret key copy has its stored size, its length rounded up to 64 bytes (R86, R282). -/
def formSize (s : State) (kind : Nat) (h : W32) : Nat :=
  match kind with
  | 0 => roundUp (keyEntry s h).data.length 64
  | 1 => 16384 | 2 => 30720 | 3 => 57344
  | 4 => 2048 | 5 => 4608 | 6 => 8192
  | 7 => 261120 | 8 => 524160 | 9 => 1044992 | 10 => 1357824
  | _ => 0

/-- 192 KiB or more (R86). -/
def isBig (size : Nat) : Bool := 196608 ≤ size

def copyAt? (s : State) (r : Nat) (h : W32) (kind : Nat) : Option Copy :=
  s.ush.copies.find? (fun k => k.ring == r && k.handle == h && k.kind == kind && k.st != .draining)

/-- Ring memory in use, as (offset, size): working sets, the tickets' own copies, cached copies. -/
def ringUse (s : State) (r : Nat) : List (Nat × Nat) :=
  let ofCore (c : Nat) : List (Nat × Nat) :=
    let x := core s c
    (if x.wsSize = 0 then [] else [(x.wsBase - 0x1000000, x.wsSize)])
      ++ (x.grants.filter (fun g => g.cached.isNone)).map (fun g => (g.base - 0x1000000, roundUp g.size 64))
      ++ (match x.run with
          | .deliver _ g _ _ => [(g.base - 0x1000000, roundUp g.size 64)]
          | _ => [])
  ((List.range 16).map (fun y => ofCore (16 * r + y))).flatten
    ++ (s.ush.copies.filter (fun k => k.ring == r)).map (fun k => (k.addr, roundUp k.size 64))

/-- The working-set area holds n bytes at an offset free of every use. -/
def fitsAt (use : List (Nat × Nat)) (n a : Nat) : Bool :=
  a % 64 == 0 && a + n ≤ 0x380000 && use.all (fun u => a + n ≤ u.1 || u.1 + u.2 ≤ a)

/-- Where n bytes go: at the offset wished for, or at the lowest that is free. -/
def findRoom (s : State) (r n wish : Nat) : Option Nat :=
  let use := ringUse s r
  if fitsAt use n wish then some wish
  else ((0 :: use.map (fun u => u.1 + u.2)).filter (fitsAt use n)).foldl
    (fun b a => match b with
      | none => some a
      | some m => some (min m a)) none

/-- Room for n bytes, after evicting at most `fuel` copies. -/
def makeRoom (r n wish : Nat) (keep : Option (W32 × Nat)) : Nat → State → Option (Nat × State)
  | 0, s => (findRoom s r n wish).map (fun a => (a, s))
  | fuel + 1, s =>
    match findRoom s r n wish with
    | some a => some (a, s)
    | none => (evictable s r keep).bind (fun k => makeRoom r n wish keep fuel (dropCopy k s))

def roomFor (s : State) (r n wish : Nat) (keep : Option (W32 × Nat)) : Option (Nat × State) :=
  makeRoom r n wish keep s.ush.copies.length s

/-- The form a ticket needs (R85, R86): the form its act expands, or the copy of a secret key; none without a key. -/
def neededForm (s : State) (t : Ticket) (a : Act) : Option (W32 × Nat) :=
  if t.handle = noKey ∨ t.device then none
  else
    let w := (keyEntry s t.handle).attr
    match formKind a.form.toNat w with
    | some k => some (t.handle, k)
    | none => if attrSecret w then some (t.handle, 0) else none

/-- Hops from stop a to stop b by the directions in use, over the hub stop for a relay (R20). -/
def hopsTo (s : State) (a b : Nat) : Nat :=
  let d := route s a b
  if d = 2 then hops (route s a hubStop) a hubStop + hops (route s hubStop b) hubStop b else hops d a b

/-- A Carousel copy of form K to ring r from the VALID copy with the fewest hops, of several the one earliest in the list of copies (DESIGN
CHOICE, assumption 105), begins, if that is cheaper than the act's expansion and there is room within the cache
limit beside the copies in use (R87, R88). A secret key copy is never made so. -/
def startCopy (r : Nat) (h : W32) (kind expandNs : Nat) (s : State) : State :=
  let size := formSize s kind h
  let src := (s.ush.copies.filter (fun k => k.handle == h && k.kind == kind && k.st == .valid)).foldl
    (fun b k => match b with
      | none => some k
      | some m => if hopsTo s k.ring r < hopsTo s m.ring r then some k else some m) none
  match src with
  | none => s
  | some v =>
    let half := transferTime s v.ring r size
    if kind = 0 ∨ (copyAt? s r h kind).isSome ∨ 2 * expandNs ≤ half ∨ cacheHas s r size = false then s
    else
      let s0 := evictFor r size s.ush.copies.length s
      match roomFor s0 r (roundUp size 64) 0 (some (h, kind)) with
      | none => s
      | some (a, s') =>
        let k : Copy := { ring := r, handle := h, kind := kind, st := .filling, addr := a, size := size, secret := false,
                          ready := s'.time.ticks + 3 * half, xfer := some s'.fabric.nextXfer }
        moveLines (.ring r a) (.ring v.ring v.addr) size
          (beginXfer v.ring r size none (readBytes s' (.ring v.ring v.addr) size) { s' with ush := { s'.ush with copies := s'.ush.copies ++ [k] } })

/-- COPY_VALID: the last byte of a copy under way is written, its transfer done (R23, R87); a limit lowered meanwhile evicts it or
another (R91). -/
def execCopyValid (r : Nat) (h : W32) (kind : Nat) (s : State) : Out :=
  .next (unlessLocked (fun s =>
    evictOver r s.ush.copies.length (clearPassed { s with ush := { s.ush with copies := s.ush.copies.map (fun (k : Copy) =>
      if k.ring = r ∧ k.handle = h ∧ k.kind = kind ∧ k.st = .filling ∧ xfersDone s k.xfer.toList then { k with st := .valid }
      else k) } })) s)

/-- COPY_FREED: a DRAINING copy without use is scrubbed and freed; a limit still exceeded evicts further (R87, R91). -/
def execCopyFreed (r : Nat) (h : W32) (kind : Nat) (s : State) : Out :=
  .next (unlessLocked (fun s =>
    match s.ush.copies.find? (fun k => k.ring == r && k.handle == h && k.kind == kind && k.st == .draining && k.uses == 0) with
    | none => s
    | some k => evictOver r s.ush.copies.length (dropCopy k s)) s)

/-! ### Order within an instance (R83) -/

/-- Ready: admitted; a FENCE ticket waits for every earlier ticket's final entry, which may still wait for D0 (R41), one that came over the Dolid included, as R83 says, though
R47 counts queue-fetched and inline tickets only (DESIGN CHOICE, assumption 105); nothing passes an undispatched FENCE. -/
def ready (s : State) (t : Ticket) : Bool :=
  t.phase == .queued && !t.device
    && (!t.fence || (!s.tickets.any (fun u => !u.device && u.iid == t.iid && u.id < t.id)
      && !s.pcie.heldEntries.any (fun e => e.1 == t.iid && e.2.1 < t.id)))
    && !s.tickets.any (fun u => !u.device && u.iid == t.iid && u.id < t.id && u.fence && u.inBuffer)

/-- Insert by (class, order of entry), or by order of entry alone. -/
def insertReady (aged : Bool) (t : Ticket) : List Ticket → List Ticket
  | [] => [t]
  | u :: r =>
    if (if aged then t.id < u.id else t.priority < u.priority ∨ (t.priority = u.priority ∧ t.id < u.id)) then t :: u :: r
    else u :: insertReady aged t r

/-- The ready tickets of an instance in the order of R83. -/
def readyList (s : State) (i : Nat) : List Ticket :=
  let age := s.ush.age.toNat
  let aged : Bool := age != 0 && ((share s i).dispatched + 1) % 2 ^ age == 0
  (s.tickets.filter (fun t => t.iid == i && ready s t)).foldl (fun l t => insertReady aged t l) []

/-! ### Placement (R85, R90) -/

def coreIdle (s : State) (c : Nat) : Bool :=
  coreUsable s c && (core s c).run == .idle

def idleIn (s : State) (r : Nat) : List Nat := ((List.range 16).map (fun y => 16 * r + y)).filter (coreIdle s)

/-- Hops from the hub stop to ring r by the direction in use. -/
def hubHops (s : State) (r : Nat) : Nat :=
  let d := route s hubStop r
  if d = 2 then 17 else hops d hubStop r

/-- Projected ns until a core frees on a ring that holds or will hold the form. -/
def waitForCopy (s : State) (h : W32) (kind : Nat) : Rat :=
  let one (k : Copy) : Rat :=
    let busy := s.tickets.filter (fun t => match t.core? with
      | some c => ringOf c == k.ring && coreUsable s c
      | none => false)
    let left := busy.map (fun t => max 0 (t.cost - ((s.time.ticks - t.started : Nat) : Rat) / 6))
    let m := match left with
      | [] => 0
      | x :: l => l.foldl min x
    if k.st = .filling then max m (((k.ready - s.time.ticks : Nat) : Rat) / 6) else m
  match (s.ush.copies.filter (fun k => k.handle == h && k.kind == kind && k.st != .draining && ringUsable s k.ring)).map one with
  | [] => 0
  | x :: l => l.foldl min x

/-- No further copy of the form in the last 2 × SPREAD_US (R90). -/
def spreadAllowed (s : State) (h : W32) (kind : Nat) : Bool :=
  !s.ush.spread.any (fun e => e.1 == h && e.2.1 == kind && ntN s < e.2.2 + 2000 * s.ush.spreadUs.toNat)

/-- A further copy of the form is created now (R90). -/
def noteSpread (h : W32) (kind : Nat) (s : State) : State :=
  { s with ush := { s.ush with
      spread := (h, kind, ntN s) :: s.ush.spread.filter (fun e => !(e.1 == h && e.2.1 == kind)) } }

/-- The ring and core for a ticket (R85), and whether the ring gains a further copy under R90. -/
def pickCore (s : State) (t : Ticket) (a : Act) (wish : Nat) : Option (Nat × Nat × Bool) :=
  let k := neededForm s t a
  let rings := (List.range (ringCount s)).filter (fun r =>
    ringUsable s r && idleIn s r != [] && (roomFor s r a.wsSize wish k).isSome)
  let best (l : List Nat) : Option Nat :=
    l.foldl (fun b r => match b with
      | none => some r
      | some m =>
        let ir := (idleIn s r).length
        let im := (idleIn s m).length
        if im < ir ∨ (ir = im ∧ hubHops s r < hubHops s m) then some r else some m) none
  let choose (l : List Nat) (further : Bool) : Option (Nat × Nat × Bool) :=
    (best l).bind (fun r => (idleIn s r).head?.map (fun c => (r, c, further)))
  match k with
  | none => choose rings false
  | some (h, kind) =>
    let held := s.ush.copies.filter (fun c => c.handle == h && c.kind == kind && c.st != .draining && ringUsable s c.ring)
    let valid := rings.filter (fun r => held.any (fun c => c.ring == r && c.st == .valid))
    let size := formSize s kind h
    if valid ≠ [] then choose valid false
    else if isBig size ∧ size ≤ cacheLimit s ∧ s.ush.initRings.toNat ≤ held.length then
      if waitForCopy s h kind ≤ (s.ush.spreadUs.toNat : Rat) * 1000 ∨ spreadAllowed s h kind = false then none
      else choose rings true
    else choose rings false

/-! ### Dispatch (R33, R84, R98, R176) -/

/-- Send a ticket to a core: the working set is allocated, the core's state is that of R98, the clock gate opens (R385). -/
def dispatch (t : Ticket) (a : Act) (r c : Nat) (further : Bool) (wish : Nat) (s : State) : State :=
  let k := neededForm s t a
  match roomFor s r a.wsSize wish k with
  | none => s
  | some (off, s) =>
    let base := 0x1000000 + off
    let used := k.filter (fun f => ((copyAt? s r f.1 f.2).map (fun c => c.st)) == some .valid)
    let n := s.ush.dispatches + 1
    let s := { s with ush := { s.ush with
      dispatches := n,
      copies := s.ush.copies.map (fun (c : Copy) =>
        if used = some (c.handle, c.kind) ∧ c.ring = r ∧ c.st = .valid then { c with uses := c.uses + 1, last := n } else c)
      } }
    let s := modTicket t.id (fun t => { t with
      phase := .running c, pool := false, started := s.time.ticks, wsBase := base, wsSize := a.wsSize, further := further,
      uses := match used with
        | some f => [(r, f.1, ((copyAt? s r f.1 f.2).map (fun c => c.addr)).getD 0)]
        | none => [] }) s
    let img := 0x1380000 + a.offset
    let x : Core := {
      g := Table.set 0 (Table.set 0 [] 1 (BitVec.ofNat 64 base)) 30 0x40000, pc := BitVec.ofNat 64 (img + a.entryOff),
      entry := coreNow s c, run := .running, ticket := some t.id, wsBase := base, wsSize := a.wsSize,
      compat := a.hdrVersion == 1, imgBase := img, imgSize := a.codeSize + a.roSize }
    let y := corex s c
    let s := setCorex c { rndBuf := y.rndBuf, halted := y.halted } (setCore c x s)
    let s := openGate (unitCore c) s
    match k with
    | some f =>
      if used.isNone then
        let u := startCopy r f.1 f.2 (expandCost f.2 a.expandNs) s
        if further ∧ copyAt? s r f.1 f.2 = none ∧ copyAt? u r f.1 f.2 ≠ none then noteSpread f.1 f.2 u else u
      else s
    | none => s

/-- Instances that hold ready tickets. -/
def readyInstances (s : State) : List Nat :=
  ((s.inst.map (fun e => e.1)).filter (fun i => (readyList s i) != []))

/-- pick_instance of R84. -/
def pickInstance (s : State) : Option Nat :=
  let l := (readyInstances s).filter (fun i => !(share s i).passedOver)
  let below := l.filter (fun i => runningCount s i < (share s i).minEff)
  let ratio (i : Nat) : Rat := ((runningCount s i * 65536 : Nat) : Rat) / (((share s i).minEff : Nat) : Rat)
  let least (better : Nat → Nat → Bool) (l : List Nat) : Option Nat :=
    l.foldl (fun b i => match b with
      | none => some i
      | some m => if better i m then some i else some m) none
  if below ≠ [] then
    least (fun i m => ratio i < ratio m || (ratio i == ratio m && (share s i).vt < (share s m).vt)) below
  else least (fun i m => (share s i).vt < (share s m).vt) l

/-- The tickets of the picked instance, in order: the first that is past its deadline completes, the first that can be placed is
sent; otherwise the instance is passed over. -/
def tryTickets (i wish : Nat) (vmin : Rat) : List Ticket → State → State
  | [], s => setShare i { share s i with passedOver := true } s
  | t :: l, s =>
    if t.deadline ≠ 0 ∧ t.deadline ≤ ntN s then finishQueued t.id { status := stPassed } s
    else
      match actOf s t with
      | none => tryTickets i wish vmin l s
      | some a =>
        match pickCore s t a wish with
        | none => tryTickets i wish vmin l s
        | some (r, c, further) =>
          let h := share s i
          let w := (inst s i).weightEff.toNat
          let left := max 0 (h.backlog - t.cost)
          let s := modTicket t.id (fun u => { u with
            sent := some { cycle := s.time.cycle, vt := h.vt, backlog := h.backlog - left, pool := t.pool } })
            (dispatch t a r c further wish s)
          setShare i { share s i with
            backlog := left, dispatched := h.dispatched + 1, vt := max h.vt vmin + costOf s a * 65536 / (w : Rat) } s

/-- The first device ticket that waits and can be placed (R374). -/
def placeDevice (s : State) (wish : Nat) : Option (Ticket × Act × Nat × Nat) :=
  (s.tickets.filter (fun t => t.device && t.phase == .queued)).findSome? (fun t =>
    (actOf s t).bind (fun a => (pickCore s t a wish).map (fun p => (t, a, p.1, p.2.1))))

/-- DISPATCH_PASS, while a usable core is idle: device tickets first (R374), then one instance (R84). Dispatch is paused for a patch
(R172). -/
def execDispatchPass (base : Nat) (s : State) : Out :=
  .next (unlessLocked (fun s =>
    if s.ush.paused ∨ s.boot.warm ∨ (List.range (coreCount s)).any (coreIdle s) = false then s
    else
      match placeDevice s base with
      | some (t, a, r, c) =>
        modTicket t.id (fun u => { u with sent := some { cycle := s.time.cycle, vt := 0, backlog := 0, pool := t.pool } })
          (dispatch t a r c false base s)
      | none =>
        match pickInstance s with
        | none => s
        | some i =>
          let vmin := match (readyInstances s).map (fun j => (share s j).vt) with
            | [] => 0
            | x :: l => l.foldl min x
          tryTickets i base vmin ((readyList s i).take 8) s) s)

/-! ### Share epochs (R79, R80, R82, R91) -/

/-- A boundary: every pending value takes effect in this hub cycle, entitlements follow, a lowered cache limit evicts, and
DEFERRED entries are due again. -/
def shareBoundary (s : State) : State :=
  let s := { s with
    inst := s.inst.map (fun e => (e.1, if e.2.sharePend ∧ e.2.st ≠ .free then e.2.takeShare else e.2))
    ush := { s.ush with
      epochCount := s.ush.epochCount + 1, horizonEff := s.ush.horizon, cacheEff := s.ush.cache }
    tickets := s.tickets.map (fun (t : Ticket) => { t with deferred := false }) }
  let s := recompute s
  let s := (List.range (ringCount s)).foldl (fun s r => evictOver r s.ush.copies.length s) s
  (s.tickets.map (fun t => t.id)).foldl (fun s tid => deferIfLong tid s) s

/-- SHARE_EPOCH_BOUNDARY: the boundary that a written EPOCH_NOW marks, not before its NT (R79). -/
def execShareEpochBoundary (s : State) : Out :=
  .next (unlessLocked (fun s =>
    match s.ush.epochAt with
    | some t => if ntN s < t.toNat then s else shareBoundary { s with ush := { s.ush with epochAt := none } }
    | none => s) s)

/-- EPOCH_NOW: the first whole µs of NT strictly later than now (R79). -/
def execEpochNow (s : State) : Out :=
  .next (hostWrite (fun s =>
    { s with ush := { s.ush with epochAt := some (BitVec.ofNat 64 ((ntN s / 1000 + 1) * 1000)) } }) s)

end Sys2Proof.Machine
end

