-- ==== Sys2Proof/Machine/Dolid.lean ====
section
/-!
DEFINITION. Dolid: the decision of received messages (R334, R340), the handshake (R335–R338), requests and their tickets (R343–R345,
R350), aborts (R347), the closing of sessions (R339), the safety-net responder (R354), the peer table (R355) and the refill of the
Glove's buckets (R353).
-/
namespace Sys2Proof.Machine

open Sys2Proof

/-! ### Deciding a message (R334, R340) -/

/-- The replay window of a session after SEQ q, or none where q is refused (R340). -/
def replayed (x : Session) (q : Nat) : Option Session :=
  if x.high < q then some { x with high := q, seen := (x.seen <<< (q - x.high)) ||| 1 }
  else if x.high - q < 4096 ∧ bit x.seen (x.high - q) = false then
    some { x with seen := x.seen ||| BitVec.ofNat 4096 (2 ^ (x.high - q)) }
  else none

/-- The SID that a message names (R332). -/
def DolMsg.sid (m : DolMsg) : W32 := BitVec.ofNat 32 (beNat (slice m.bytes 4 4))

/-- The oldest undecided message leaves the inbox and its lines, if it is of this type, came in on this port and the block runs. -/
def takeMsg (ty port : Nat) (s : State) : Option (DolMsg × State) :=
  match s.dol.inbox with
  | [] => none
  | m :: r =>
    if s.fc.lock ∨ s.boot.warm ∨ byteAt m.bytes 1 ≠ ty ∨ m.port ≠ port then none
    else some (m, { s with dol := { s.dol with inbox := r } })

def freeMsg (m : DolMsg) (s : State) : State := freeLines m.port m.reserved m.shared s

/-- The plaintext of a message whose GCM tag verifies under its session's K_c2d, its SEQ as nonce and its header as additional data
(R332, R338). -/
def opened (x : Session) (m : DolMsg) : Option (List Byte) :=
  gcmOpen (x.keys.take 32) (dolidNonce (beNat (slice m.bytes 8 8))) (m.bytes.take 16) (m.bytes.drop 16)

/-- Orders 3–6 of R334: the session that accepts the message, its idle timer restarted, with the plaintext, or the counter of the drop. -/
def acceptMsg (m : DolMsg) (s : State) : Sum Nat (Session × List Byte) :=
  match dolSession? s m.sid with
  | none => .inl 4
  | some x =>
    if m.src ≠ x.addr ∨ m.udp ≠ x.udp ∨ x.keyOk = false then .inl 4
    else
      match opened x m, replayed x (beNat (slice m.bytes 8 8)) with
      | none, _ => .inl 4
      | some _, none => .inl 5
      | some p, some y => .inr ({ y with last := s.time.ticks, port := m.port }, p)

/-- Decide the oldest message if it is an authenticated one of this type, from this port and naming this SID. -/
def decideMsg (ty port : Nat) (sid : W32) (f : List Byte → DolMsg → Session → State → State) (s : State) : State :=
  match (takeMsg ty port s).filter (fun q => q.1.sid == sid) with
  | none => s
  | some (m, s) =>
    match acceptMsg m s with
    | .inl k => freeMsg m (bump (dolCnt k) 0 32 s)
    | .inr x => f x.2 m x.1 (modSession x.1.sid (fun _ => x.1) s)

/-! ### Handshake (R335–R338) -/

def cookieReady (s : State) : Bool := s.dol.key.isSome

/-- The string that a cookie's C covers (R335). -/
def cookieString (m : DolMsg) : List Byte := slice m.bytes 16 2 ++ be 16 m.src.toNat ++ be 2 m.udp ++ slice m.bytes 28 16

/-- The key of an epoch that is kept: the current or the previous one's. -/
def epochKey (s : State) (e : Nat) : Option (List Byte) :=
  if e = s.dol.epoch.toNat then s.dol.key else if (e + 1) % 2 ^ 32 = s.dol.epoch.toNat then s.dol.prevKey else none

/-- The cookie names the current or the previous epoch, and C matches under its key (R335). An all-zero cookie is not valid (R336). -/
def cookieValid (s : State) (m : DolMsg) : Bool :=
  let e := beNat (slice m.bytes 44 4)
  beNat (slice m.bytes 44 16) != 0
    && (epochKey s e).any (fun k => cookieMac k (cookieString m) == slice m.bytes 48 12)

/-- The cookie of the current epoch for an INIT from an address. -/
def cookieFor (s : State) (m : DolMsg) : List Byte := be 4 s.dol.epoch.toNat ++ cookieMac (s.dol.key.getD []) (cookieString m)

/-- The valid peer entry with this IID and PEER_ID. -/
def peerOf (s : State) (iid : Nat) (id : W64) : Option (Nat × Peer) :=
  s.dol.peers.find? (fun p => p.2.valid && p.2.iid.toNat == iid && p.2.id == id)

/-- ACCEPT of a session (R332, R333, R338): SEQ 0. -/
def sendAccept (x : Session) (p : Nat) (s : State) : State :=
  let h := dolHeader 3 (x.accept.length + 16) x.sid 0
  dolSend p x.addr x.udp (some x.iid) false
    (h ++ gcmSeal (x.keys.drop 32) (dolidNonce 0) h x.accept) s

/-- The handshake ticket (R337). -/
def handshakeTicket (s : State) (iid : Nat) (p : Peer) : BitVec 512 :=
  BitVec.ofNat 512 (pack [(0x0601, 0), ((mkHandle iid (dolInst s iid).kemSlot.toNat).toNat, 32), (1148, 128), (2 ^ 64 - 1, 320),
    ((mkHandle iid p.slot.toNat).toNat, 416)])

/-- Rows 5–9 of R336, and the handshake ticket of row 10. -/
def initAdmitted (m : DolMsg) (iid : Nat) (pe : Nat × Peer) (s : State) : State :=
  let b := m.bytes
  let cn : BitVec 128 := BitVec.ofNat 128 (beNat (slice b 28 16))
  let id : W64 := BitVec.ofNat 64 (beNat (slice b 20 8))
  let d := dolInst s iid
  let reject (reason : Nat) (status : Byte) : State := freeMsg m (dolReject m.port m.src m.udp iid cn reason status 0 s)
  if s.dol.handshakes.any (fun h => h.iid == iid && h.peerId == id && h.cnonce == cn) then freeMsg m s
  else if s.fc.snet then reject 5 stSafetyNet
  else if (inst s iid).st ≠ .active then reject 3 stQuota
  else if d.kemValid = false then reject 2 0
  else if 4096 ≤ dolOpen s ∨ d.maxSess.toNat ≤ dolOpenOf s iid then reject 1 0
  else
    let n := s.dol.nextHandshake
    let h : Handshake := { n := n, iid := iid, peer := pe.1, peerId := id, cnonce := cn, addr := m.src, udp := m.udp, port := m.port,
                           init := b, reserved := m.reserved, shared := m.shared }
    enterOne iid (.handshake n) (handshakeTicket s iid pe.2) b .entering
      { s with dol := { s.dol with handshakes := s.dol.handshakes ++ [h], nextHandshake := n + 1 } }

/-- DOLID_INIT (R336). -/
def dolidInit (port : Nat) (s : State) : State :=
  match takeMsg 1 port s with
  | none => s
  | some (m, s) =>
    let b := m.bytes
    let iid := halfAt b 16
    let id : W64 := BitVec.ofNat 64 (beNat (slice b 20 8))
    let d := dolInst s iid
    let v4 := isV4 m.src
    if cookieReady s = false then freeMsg m (bump (dolCnt 1) 0 32 s)
    else if cookieValid s m = false then
      freeMsg m (bump (dolCnt 0) 0 32
        (dolSend m.port m.src m.udp (if iid < iidCount s then some iid else none) true
          (dolHeader 2 32 0 0 ++ slice b 28 16 ++ cookieFor s m) s))
    else
      let barred : Bool := if v4 then !d.v4 else !d.v6
      match (if iid < iidCount s ∧ d.en ∧ (inst s iid).st ≠ .free ∧ barred = false then peerOf s iid id else none) with
      | none => freeMsg m (bump (dolCnt 2) 0 32 s)
      | some pe =>
        match s.dol.sessions.find? (fun x => x.iid == iid && x.peerId == id && x.cnonce.toNat == beNat (slice b 28 16)) with
        | some x => freeMsg m (sendAccept x m.port s)
        | none => initAdmitted m iid pe s

def execDolidInit (port : Nat) (s : State) : Out := .next (dolidInit port s)

/-- The commit of a handshake ticket with DONE (R338): the two lines at WSBASE travel to the hub (R23), the session is opened from them and
ACCEPT is sent, or the OKM line is not SECRET. Answers whether it was opened. -/
def sessionOpen (t : Ticket) (n : Nat) (s : State) : Bool × State :=
  match s.dol.handshakes.find? (fun h => h.n == n), t.core? with
  | some h, some c =>
    let p : Place := .ring (ringOf c) (t.wsBase - 0x1000000)
    let x := netPort s h.port
    if lineTag s p ≠ .secret then
      (false, report (Event.naming { cls := .f2, source := 0x11, unit := unitCore c, cause := 0x08 } t) (touch t.id .f2 s))
    else
      let entry := ((List.range 4096).find? (fun k => !s.dol.sessions.any (fun y => y.entry == k))).getD 0
      let f := nextFresh s
      let sid : W32 := BitVec.ofNat 32 ((Config.freeBits 32 f.1).toNat / 4096 * 4096 + entry)
      let th := readBytes s (p.add 64) 32
      let y : Session := {
        sid := sid, entry := entry, iid := h.iid, peer := h.peer, peerId := h.peerId, cnonce := h.cnonce,
        keys := readBytes s p 64, th := th, addr := h.addr, udp := h.udp, port := h.port,
        accept := th ++ be 2 (maxIn x h.addr) ++ be 2 (maxOut x h.addr) ++ [s.dol.idleS, 0, 0, 0],
        seen := 1, last := s.time.ticks }
      let s := beginXfer (ringOf c) hubStop 128 none (readBytes s p 128) f.2
      (true, sendAccept y h.port { s with dol := { s.dol with sessions := s.dol.sessions ++ [y] } })
  | _, _ => (false, s)

/-! ### Requests (R342–R346, R350, R354) -/

/-- A RESPONSE that no ticket gives, on the port of the REQUEST. -/
def answerNow (m : DolMsg) (x : Session) (txid : W64) (act : Half) (status : Byte) (outLen : W32) (hint : Nat) (interim : Bool)
    (s : State) : State :=
  sessionSend x.sid m.port 0x11 (!interim) (responsePlain txid status 0 act outLen (nt s) 0xFFFFFFFF hint interim []) s

/-- Frame-area lines that an instance holds (R350). -/
def linesHeld (s : State) (i : Nat) : Nat :=
  ((s.dol.txns.filter (fun t => t.iid == i)).map (fun t => t.reserved + t.shared + t.buffer)).sum

/-- The held record whose RESPONSE is oldest. -/
def oldestHeld (s : State) : Option Txn :=
  s.dol.txns.foldl (fun b t => match t.final, b.bind (fun u => u.final) with
    | some f, some g => if f.2 < g.2 then some t else b
    | some _, none => some t
    | none, _ => b) none

/-- The ticket of a REQUEST (R344). -/
def requestTicket (m : DolMsg) (p : List Byte) (cap : Nat) : BitVec 512 :=
  let flags := byteAt p 11
  let bad : Bool := 4 ≤ flags || beNat (slice p 42 6) != 0
  BitVec.ofNat 512 (pack [(halfAt p 8, 0), (flags % 2 * 2 + flags / 2 % 2 * 8 + b2n bad * 16, 16), (beNat (slice p 12 4), 32),
    (m.bytes.length - 16 - 64, 128), (cap, 160), (beNat (slice p 20 8), 256), (beNat (slice p 0 8), 320), (byteAt p 10, 384),
    (natOf (slice p 28 14), 400)])

/-- A REQUEST whose TXID is not recorded: converted, or refused for want of room (R345, R350). -/
def convertRequest (m : DolMsg) (x : Session) (p : List Byte) (s : State) : State :=
  let txid : W64 := BitVec.ofNat 64 (beNat (slice p 0 8))
  let act : Half := BitVec.ofNat 16 (halfAt p 8)
  let cap := min (beNat (slice p 16 4)) (maxOut (netPort s m.port) m.src)
  let buffer := linesFor (64 + cap)
  let full : Bool := 16384 ≤ s.dol.txns.length
  let refuse (hint : Nat) : State := freeMsg m (answerNow m x txid act stOverload 0 hint false s)
  if full ∧ (oldestHeld s).isNone then refuse 1
  else if sharedLines s < s.dol.sharedUsed + buffer
      ∨ (dolInst s x.iid).limit.toNat * 16 < linesHeld s x.iid + m.reserved + m.shared + buffer then
    refuse (max 1 (waitUs s x.iid))
  else
    let s := match (if full then oldestHeld s else none) with
      | some t => dropTxn t s
      | none => s
    let r : Txn := { iid := x.iid, txid := txid, sid := x.sid, peer := x.peer, port := m.port,
                     reserved := m.reserved, shared := m.shared, buffer := buffer }
    enterOne x.iid (.dolid (x.sid.setWidth 64) txid) (requestTicket m p cap) (p.drop 48) .entering
      { s with dol := { s.dol with txns := s.dol.txns ++ [r], sharedUsed := s.dol.sharedUsed + buffer } }

/-- The ticket of a recorded TXID. -/
def dolTicket? (s : State) (iid : Nat) (txid : W64) : Option Ticket :=
  s.tickets.find? (fun t => !t.device && t.iid == iid && (match t.origin with
    | .dolid _ k => k == txid
    | _ => false))

/-- An accepted REQUEST (R344, R345, R354). -/
def dolidRequest (p : List Byte) (m : DolMsg) (x : Session) (s : State) : State :=
  let txid : W64 := BitVec.ofNat 64 (beNat (slice p 0 8))
  let act : Half := BitVec.ofNat 16 (halfAt p 8)
  if s.fc.snet then freeMsg m (answerNow m x txid act stSafetyNet 0 0 false s)
  else
    match txn? s x.iid txid with
    | none => convertRequest m x p s
    | some r =>
      if r.peer ≠ x.peer then freeMsg m (answerNow m x txid act stInvalid 0xFFFFFF0C 0 false s)
      else
        match r.final with
        | some f => freeMsg m (sessionSend x.sid m.port 0x11 false f.1 s)
        | none =>
          let a := ((dolTicket? s x.iid txid).map Ticket.act).getD act
          freeMsg m (answerNow m x txid a stDeferred 0 (max 1 (waitUs s x.iid)) true s)

def execDolidRequest (port : Nat) (sid : W32) (s : State) : Out := .next (decideMsg 0x10 port sid dolidRequest s)

/-- DOLID_ABORT (R347, R354): the ABORT_ACK follows the RESPONSE of a ticket that is aborted. -/
def dolidAbort (plain : List Byte) (m : DolMsg) (x : Session) (s : State) : State :=
  let txid : W64 := BitVec.ofNat 64 (beNat (plain.take 8))
  match (if s.fc.snet then none else dolTicket? s x.iid txid) with
  | none => freeMsg m (abortAck x.sid m.port txid 0x31 s)
  | some t =>
    let s := modTxn x.iid txid (fun r => { r with acks := r.acks ++ [(x.sid, m.port)] }) (freeMsg m s)
    if t.inBuffer then finishQueued t.id { status := stAborted } s else stopTicket t.id stAborted s

def execDolidAbort (port : Nat) (sid : W32) (s : State) : Out := .next (decideMsg 0x12 port sid dolidAbort s)

/-- DOLID_CLOSE (R339): no CLOSE answers it. -/
def execDolidClose (port : Nat) (sid : W32) (s : State) : Out :=
  .next (decideMsg 0x20 port sid (fun _ m x s => closeSession x.sid none (freeMsg m s)) s)

/-! ### Timers (R335, R339, R345) -/

/-- SESSION_IDLE_TIMEOUT: no message for IDLE_S seconds and no ticket of the session in flight. -/
def execSessionIdleTimeout (sid : W32) (s : State) : Out :=
  .next (unlessLocked (fun s =>
    match dolSession? s sid with
    | none => s
    | some x =>
      let busy := s.tickets.any (fun t => match t.origin with
        | .dolid k _ => k == sid.setWidth 64
        | _ => false)
      if x.last + (max 1 s.dol.idleS.toNat) * secondTicks ≤ s.time.ticks ∧ busy = false then closeSession sid (some 2) s else s) s)

/-- COOKIE_EPOCH: COOKIE_S seconds of NT have passed since the key was taken into use; the draw of the next begins. -/
def execCookieEpoch (s : State) : Out :=
  .next (unlessLocked (fun s =>
    let d := s.dol
    if d.key.isSome ∧ d.draw = false ∧ d.redraw = false ∧ s.boot.warm = false ∧ d.epochFrom + (max 1 d.cookieS.toNat) * 10 ^ 9 ≤ ntN s then
      { s with dol := { d with draw := true } }
    else s) s)

/-- COOKIE_DRAW_RETRY: 1 ms after a NOT_READY. -/
def execCookieDrawRetry (s : State) : Out :=
  .next (unlessLocked (fun s =>
    if s.dol.redraw then { s with dol := { s.dol with redraw := false, draw := true } } else s) s)

/-- TXID_HOLD_EXPIRY: a held RESPONSE is released HOLD_MS after it was sent. -/
def execTxidHoldExpiry (iid : Nat) (txid : W64) (s : State) : Out :=
  .next (unlessLocked (fun s =>
    match txn? s iid txid with
    | none => s
    | some t =>
      match t.final with
      | some f => if f.2 + s.dol.holdMs.toNat * 6000000 ≤ s.time.ticks then dropTxn t s else s
      | none => s) s)

/-! ### The peer table (R355) -/

def peerAt (s : State) (k : Nat) : Peer := Table.get {} s.dol.peers k

/-- A peer entry is cleared or rewritten: its sessions close (R339). -/
def setPeer (k : Nat) (p : Peer) (s : State) : State :=
  (s.dol.sessions.filter (fun x => x.peer == k)).foldl (fun s x => closeSession x.sid (some 4) s)
    { s with dol := { s.dol with peers := Table.set {} s.dol.peers k p, peerErr := false, peerIdx := BitVec.ofNat 13 k } }

def peerRead (data : W32) (s : State) : State :=
  let k := data.toNat % 8192
  { s with dol := { s.dol with peerReg := peerAt s k, peerErr := false, peerIdx := BitVec.ofNat 13 k } }
def execPeerRead (data : W32) (s : State) : Out := .next (hostWrite (peerRead data) s)

/-- CMD 0b10: refused where the pair is valid in another entry, or the IID is absent. -/
def peerWrite (data : W32) (s : State) : State :=
  let k := data.toNat % 8192
  let p := s.dol.peerReg
  if iidCount s ≤ p.iid.toNat ∨ s.dol.peers.any (fun e => e.1 != k && e.2.valid && e.2.iid == p.iid && e.2.id == p.id) then
    { s with dol := { s.dol with peerErr := true, peerIdx := BitVec.ofNat 13 k } }
  else setPeer k p s
def execPeerWrite (data : W32) (s : State) : Out := .next (hostWrite (peerWrite data) s)

def peerClear (data : W32) (s : State) : State := setPeer (data.toNat % 8192) {} s
def execPeerClear (data : W32) (s : State) : Out := .next (hostWrite (peerClear data) s)

/-! ### The Glove's buckets (R353) -/

/-- One refill of a bucket. -/
def refilled (rate burst : Half) (level : Int) : Int := min (burst.toNat * 1024 : Nat) (level + (rate.toNat : Nat))

def DolInst.refill (d : DolInst) : DolInst :=
  { d with
    rateNetEff := d.rateNet, burstNetEff := d.burstNet, ratePcieEff := d.ratePcie, burstPcieEff := d.burstPcie
    levelNet := refilled d.rateNet d.burstNet d.levelNet, levelPcie := refilled d.ratePcie d.burstPcie d.levelPcie }

/-- GLOVE_REFILL: every instance's buckets, each µs; changed rates and bursts take effect. -/
def execGloveRefill (s : State) : Out :=
  .next (unlessLocked (fun s =>
    { s with dol := { s.dol with inst := s.dol.inst.map (fun e => (e.1, e.2.refill)) } }) s)

end Sys2Proof.Machine
end

