-- ==== Sys2Proof/Machine/KeyStore.lean ====
section
/-!
DEFINITION. The key store: attribute words and data lengths (R285–R289, R509), the decision of a request (R290–R297) and its delivery
(R112), sweeps (R294), storage domains (R302), saved copies (R303, R304) and the custodian ceremony (R308–R310).
-/
namespace Sys2Proof.Machine

open Sys2Proof

/-! ### Attribute words (R286–R289, R509) -/

/-- Usage mask bits that R287 grants for a word's family, set and part. -/
def usageAllowed (a : W64) : Nat :=
  let f := attrFamily a
  let k := attrSet a
  let priv : Bool := attrPart a == 1
  let sign : Bool := f == 2 || f == 3 || f == 0x10 || f == 0x12 || (f == 0x11 && (k == 0x10 || k == 0x11))
  let agree : Bool := f == 0x10 || (f == 0x11 && (k == 0x20 || k == 0x21))
  if f = 0x20 ∨ f = 0x21 then (if f = 0x20 ∧ k = 1 then 0x3F else 0x7F)
  else if f = 0x30 then 0x20000
  else if f = 0x40 then 0x10000
  else if f = 1 ∨ f = 4 then (if priv then 0x800 else 0x400)
  else if priv then
    b2n sign * 0x100 + b2n agree * 0x1000 + (if f = 0x12 then 0x6000 else 0)
  else b2n sign * 0x200 + (if f = 2 ∧ 2 ≤ k then 0x8000 else 0)

/-- PART and SET permitted by FAMILY (R286). -/
def partSetOk (a : W64) : Bool :=
  let k := attrSet a
  let p := attrPart a
  match attrFamily a with
  | 0x01 => p ≤ 1 && 1 ≤ k && k ≤ 3
  | 0x02 => p ≤ 1 && 1 ≤ k && k ≤ 3
  | 0x03 => p ≤ 1 && 1 ≤ k && k ≤ 0x0C
  | 0x04 => p ≤ 1 && 1 ≤ k && k ≤ 4
  | 0x10 => p ≤ 1 && ((1 ≤ k && k ≤ 3) || k == 0x80)
  | 0x11 => p ≤ 1 && (k == 0x10 || k == 0x11 || k == 0x20 || k == 0x21)
  | 0x12 => p ≤ 1 && 0x20 ≤ k && k ≤ 0x80
  | 0x20 => p == 2 && k ≤ 1
  | 0x21 => p == 2 && (k == 2 || k == 3)
  | 0x30 => p == 2 && 1 ≤ k && k ≤ 66
  | 0x40 => p == 3 && k == 0x80
  | _ => false

/-- The attribute word is valid (R288). -/
def attrValid (a : W64) : Bool :=
  let u := attrUsage a
  let f := attrFamily a
  decide (field a.toNat 0 8 = 0) && decide (field a.toNat 24 4 = 0) && decide (field a.toNat 36 4 = 0)
    && partSetOk a
    && decide (attrForm a ≤ 1) && (attrForm a == 0 || (attrPart a == 1 && (f == 1 || f == 2)))
    && decide (u ≠ 0) && decide (Nat.land u (usageAllowed a) = u)
    && (!(u / 64 % 2 == 1) || (decide (u % 32 ≠ 0) && u / 32 % 2 == 0))
    && (!attrExport a || attrPart a == 2) && (!attrSave a || attrSecret a)

/-- Length in bytes of the key data (R289, R203, R241, R251); none where it depends on a loaded curve (R509). -/
def dataLen (a : W64) : Option Nat :=
  let k := attrSet a
  let priv : Bool := attrPart a == 1
  let coord : Nat := if k = 1 then 32 else if k = 2 then 48 else 66
  match attrFamily a with
  | 0x01 => some (if priv then (if attrForm a = 1 then 64 else 864 * k - 96 * (k - 1) + 768) else 384 * (k + 1) + 32)
  | 0x02 => some (
      if priv then (if attrForm a = 1 then 32 else if k = 1 then 2560 else if k = 2 then 4032 else 4896)
      else if k = 1 then 1312 else if k = 2 then 1952 else 2592)
  | 0x03 => some ((if priv then 4 else 2) * (if k ≤ 4 then 16 else if k ≤ 8 then 24 else 32))
  | 0x04 => some (
      if priv then (if k = 1 then 6492 else if k = 2 then 13608 else if k = 3 then 13932 else 14120)
      else if k = 1 then 261120 else if k = 2 then 524160 else if k = 3 then 1044992 else 1357824)
  | 0x10 => if k = 0x80 then none else some (if priv then coord else 1 + 2 * coord)
  | 0x11 => some (if k = 0x11 then 57 else if k = 0x21 then 56 else 32)
  | 0x12 => some (if priv then 8 * k + 4 + 20 * k else 8 * k + 4)
  | 0x20 => some (if k = 0 then 16 else 24)
  | 0x21 => some (if k = 2 then 16 else 32)
  | 0x30 => some k
  | _ => none

/-- The data length that a reservation allocates for: the largest object of its kind where the length is open (R509). -/
def reserveLen (a : W64) : Nat :=
  (dataLen a).getD (if attrFamily a = 0x40 then 399 else if attrPart a = 1 then 71 else 137)

/-- L, bytes of p and of n of a curve object (R242, R246). -/
def curveL (o : List Byte) : Nat := byteAt o 0
def curveLp (o : List Byte) : Nat := ((slice o 1 (curveL o)).dropWhile (fun b => b == 0)).length
def curveLn (o : List Byte) : Nat := ((slice o (1 + 5 * curveL o) (curveL o + 1)).dropWhile (fun b => b == 0)).length

/-- The curve object that a CURVE 0x80 key names in its first 4 bytes. -/
def curveOf (s : State) (data : List Byte) : KeyEntry := keyEntry s (BitVec.ofNat 32 (natOf (data.take 4)))

/-- The data length of what the staging area holds at the commit (R509). -/
def actualLen (s : State) (a : W64) (staging : List Byte) : Nat :=
  match dataLen a with
  | some n => n
  | none =>
    if attrFamily a = 0x40 then 6 * curveL staging + 3
    else
      let o := (curveOf s staging).data
      4 + (if attrPart a = 1 then curveLn o else 1 + 2 * curveLp o)

/-- The public word of a private word (R299). -/
def publicWord (a : W64) : W64 :=
  let u := attrUsage a
  BitVec.ofNat 64 (pack [(attrFamily a, 8), (attrSet a, 16), (u / 256 % 2, 49), (u / 2048 % 2, 50)])

/-! ### The decision (R290) -/

/-- Mask bit of a request code 0x01–0x19 (R287). -/
def codeBit (u : Nat) : Option Nat :=
  if 1 ≤ u ∧ u ≤ 6 then some (u - 1) else if 0x10 ≤ u ∧ u ≤ 0x19 then some (u - 8) else none

def codeDefined (u : Nat) : Bool := (codeBit u).isSome || u == 8 || u == 0x20 || (0x30 ≤ u && u ≤ 0x38)

/-- The usage is granted by the word (R287). -/
def usageGranted (a : W64) (u : Nat) : Bool :=
  match codeBit u with
  | some j => bit a (40 + j)
  | none =>
    if u = 8 then attrExport a && (attrFamily a == 0x20 || attrFamily a == 0x21)
    else if u = 0x20 then attrSave a && attrSecret a
    else true

/-- A word after RESTRICT (R298). -/
def restricted (a m : W64) : W64 := a &&& ~~~ (m &&& 0xFFFFFF0C00000000)

/-- A WINDOW operand, in ms (R298). -/
def windowOf (t : Ticket) : Nat × Nat :=
  let na := t.num 58 6
  (t.num 52 6 * 1000000, if na = 2 ^ 48 - 1 then 2 ^ 64 - 1 else na * 1000000)

/-- The window check fails (R293). -/
def windowFails (s : State) (e : KeyEntry) : Bool :=
  let windowed : Bool := e.notBefore != 0 || e.notAfter != 0xFFFFFFFFFFFFFFFF
  (nt s).ult e.notBefore || e.notAfter.ult (nt s)
    || (windowed && (!s.rm.established || decide (s.ks.timeBound.toNat < uncertainty s)))

/-- The blob at WSBASE, and the fields of its first 68 bytes (R303, R304). -/
def blobBytes (s : State) (t : Ticket) (n : Nat) : List Byte := readBytes s (.ring ((t.core?.getD 0) / 16) (t.wsBase - 0x1000000)) n
def blobNum (b : List Byte) (o n : Nat) : Nat := natOf (slice b o n)

/-- The key data of a blob that authenticates under the domain of an instance (R303). -/
def blobOpened (s : State) (i : Nat) (b : List Byte) : Option (List Byte) :=
  gcmOpen (domainKey s.lcs.secret s.lcs.serial (ksInst s i).domain) (slice b 56 12) (b.take 68) (b.drop 68)

/-- Lines that a request allocates. -/
def linesAsked (s : State) (t : Ticket) (u : Nat) : Nat :=
  linesFor (
    if u = 0x30 then reserveLen (BitVec.ofNat 64 (t.num 56 8))
    else if u = 0x36 then reserveLen (publicWord (BitVec.ofNat 64 (t.num 56 8)))
    else blobNum (blobBytes s t 68) 4 4)

/-- The word that a request gives the entry. -/
def wordAsked (s : State) (t : Ticket) (u : Nat) : W64 :=
  if u = 0x30 then BitVec.ofNat 64 (t.num 56 8)
  else if u = 0x36 then publicWord (BitVec.ofNat 64 (t.num 56 8))
  else BitVec.ofNat 64 (blobNum (blobBytes s t 68) 16 8)

/-- Entries in use on the device, and lines. -/
def entriesUsed (s : State) : Nat := (s.ks.entries.filter (fun e => e.2.st != .empty)).length
def linesUsed (s : State) : Nat := (s.ks.entries.map (fun e => e.2.lines)).sum

/-- The quota or the store has no place for so many lines in an entry (R282, R307). -/
def noPlace (s : State) (h : W32) (n : Nat) : Bool :=
  let i := handleIid h
  let q := ksInst s i
  let more := if (keyEntry s h).st = .empty then 1 else 0
  decide (q.quotaEntries.toNat < (keysOf s i).length + more)
    || decide (q.quotaKib.toNat < (linesOf s i + n + 15) / 16)
    || decide (32768 < entriesUsed s + more) || decide (196608 < linesUsed s + n)

inductive KeyVerdict where
  | wait
  /-- order number in R290 and the status -/
  | refuse (order : Nat) (status : Byte)
  | accept
  deriving DecidableEq, Repr

/-- Checks 6–13 for an entry that is not FILLING. -/
def keyChecks (s : State) (t : Ticket) (c : Nat) (h : W32) (u : Nat) : KeyVerdict :=
  let e := keyEntry s h
  let usage : Bool := (codeBit u).isSome || u == 8
  let b := blobBytes s t 68
  let word := wordAsked s t u
  let makes : Bool := u == 0x30 || u == 0x36 || u == 0x37
  let w := windowOf t
  let outside (x : Nat) : Bool := decide (x < e.notBefore.toNat) || decide (e.notAfter.toNat < x)
  if e.st = .evicted ∧ u ≠ 0x31 ∧ u ≠ 0x32 ∧ u ≠ 0x37 then .refuse 6 stNotResident
  else if makes ∧ (attrValid word = false ∨ noPlace s h (linesAsked s t u)) then .refuse 7 stUsage
  else if u = 0x35 ∧ attrUsage (restricted e.attr (BitVec.ofNat 64 (t.num 56 8))) = 0 then .refuse 7 stUsage
  else if (usage ∨ u = 0x20) ∧ usageGranted e.attr u = false then .refuse 8 stUsage
  else if u = 0x34 ∧ (outside w.1 ∨ outside w.2) then .refuse 8 stUsage
  else if usage ∧ windowFails s e then .refuse 9 stNotValidNow
  else if usage ∧ attrFamily e.attr = 0x10 ∧ attrSet e.attr = 0x80
      ∧ ((curveOf s e.data).st ≠ .resident ∨ attrFamily (curveOf s e.data).attr ≠ 0x40) then
    .refuse 10 stNotResident
  else if (u = 0x20 ∨ u = 0x37) ∧ (ksInst s (handleIid h)).domain = 0 then .refuse 11 stUsage
  else if u = 0x37 ∧ blobNum b 40 16 ≠ (ksInst s (handleIid h)).domain.toNat then .refuse 11 stUsage
  else if u = 0x37 ∧ (blobOpened s (handleIid h) (blobBytes s t (blobNum b 4 4 + 84))).isNone then .refuse 12 stDecode
  else if u = 0x20 then
    match drbgAnswer s (.blob c) with
    | none => .wait
    | some none => .refuse 13 stNotReady
    | some (some _) => .accept
  else .accept

/-- The checks of R290 in order, with the exceptions of R292 for the device attestation key. -/
def keyVerdict (s : State) (t : Ticket) (c : Nat) (h : W32) (u : Nat) : KeyVerdict :=
  let vendor : Bool := 1 ≤ t.act.toNat && t.act.toNat ≤ 0x0FFF
  let attest : Bool := s.lcs.st == 1 || s.lcs.st == 2
  let e := keyEntry s h
  let reserve : Bool := u == 0x30 || u == 0x36
  let b := blobBytes s t 68
  let same : Bool := e.attr.toNat == blobNum b 16 8 && e.notBefore.toNat == blobNum b 24 8 && e.notAfter.toNat == blobNum b 32 8
  if t.device then
    if u ≠ 0x10 then .refuse 1 stUsage else if attest then .accept else .refuse 2 stUsage
  else if codeDefined u = false ∨ (0x30 ≤ u ∧ vendor = false) ∨ (u = 0x38 ∧ h ≠ noKey) then .refuse 1 stUsage
  else if u = 0x38 then (if attest then .accept else .refuse 2 stUsage)
  else if s.lcs.st ≠ 2 ∨ s.lcs.busy then .refuse 2 stUsage
  else if handleIid h ≠ t.iid then .refuse 3 stUsage
  else if reserve ∧ (e.st ≠ .empty ∨ handleSlot h = 0x7FFFFF) then .refuse 4 stUsage
  else if u = 0x37 ∧ (handleSlot h = 0x7FFFFF ∨ ¬(e.st = .empty ∨ (e.st = .evicted ∧ same))) then .refuse 4 stUsage
  else if reserve = false ∧ u ≠ 0x37 ∧ (e.st = .empty ∨ e.st = .reserved ∨ e.st = .destroying) then .refuse 4 stUsage
  else if e.st = .filling then .wait
  else keyChecks s t c h u

/-! ### The grant (R112, R291, R292, R296) -/

/-- Kind of form under which a ring may hold a copy of the key itself: a secret key copy, or a Classic McEliece public key. -/
def ownForm (a : W64) : Option Nat :=
  if attrSecret a then some 0
  else if attrFamily a = 4 ∧ attrPart a = 0 then some (6 + attrSet a)
  else none

def grantKindOf (a : W64) (u : Nat) : Nat :=
  if u = 8 then 2 else if 1 ≤ u ∧ u ≤ 5 ∧ bit a 46 then 1 else 0

/-- The blob of a Save (R303). -/
def blobOf (s : State) (h : W32) (e : KeyEntry) (nonce : List Byte) : List Byte :=
  let d := (ksInst s (handleIid h)).domain
  let hd := [0x4B, 0x53, 0x42, 0x31] ++ bytesOf e.data.length 4 ++ bytesOf (handleSlot h) 4 ++ bytesOf 0 4 ++ bytesOf e.attr.toNat 8
    ++ bytesOf e.notBefore.toNat 8 ++ bytesOf e.notAfter.toNat 8 ++ bytesOf d.toNat 16 ++ nonce
  hd ++ gcmSeal (domainKey s.lcs.secret s.lcs.serial d) nonce hd e.data

/-- STATE code of an entry for INFO (R284, R298). -/
def keyStateCode : KeyState → Nat
  | .empty => 0 | .reserved => 1 | .filling => 2 | .resident => 3 | .evicted => 4 | .destroying => 5

/-- What INFO answers (R298). -/
def infoOf (e : KeyEntry) : List Byte :=
  bytesOf (keyStateCode e.st) 8 ++ bytesOf e.attr.toNat 8 ++ bytesOf e.notBefore.toNat 8 ++ bytesOf e.notAfter.toNat 8

/-- KEYGET completes: d ← v, PUBLIC, and execution goes on behind it. -/
def keygetDone (c d : Nat) (v : W64) (s : State) : State :=
  let x := (core s c).wg d v .pub
  setCore c { x.stallEnd (coreNow s c) with run := .running, pc := x.pc + 4 } s

/-- A ninth grant raises ACCESS with TRAPVAL 0 (R112): the KEYGET has not completed. -/
def ninthGrant (c : Nat) (s : State) : State :=
  let x := core s c
  takeTrap c cAccess 0 false (setCore c { x.stallEnd (coreNow s c) with run := .running, instret := x.instret - 1 } s)

/-- Grants of KEYGET and FORMGET that the ticket on core c holds. -/
def grantCount (s : State) (c : Nat) : Nat := (core s c).grants.length

/-- A copy is under way: room in the ticket's ring memory, then KEY_DELIVERY_COMPLETE. Without room the request waits. -/
def deliver (c d : Nat) (g : Grant) (data : List Byte) (tags : List Tag) (s : State) : State :=
  match roomFor s (ringOf c) (roundUp g.size 64) 0 none with
  | none => s
  | some (a, s) =>
    beginXfer hubStop (ringOf c) data.length (core s c).ticket data
      (setCorex c { corex s c with keyXfer := (xferIds s data.length).head? }
        (setCore c { core s c with run := .deliver d { g with base := 0x1000000 + a } data tags } s))

/-- A copy of an entry for a usage: the ring's cached copy, or a delivery. -/
def grantCopy (c d : Nat) (h : W32) (u : Nat) (tid : Nat) (s : State) : State :=
  let e := keyEntry s h
  let r := ringOf c
  let g : Grant := {
    base := 0, size := roundUp e.data.length 64, key := true, handle := h, usage := BitVec.ofNat 8 u, attr := e.attr,
    len := e.data.length, kind := grantKindOf e.attr u,
    secret := attrSecret e.attr || e.tags.any (fun t => t != .pub) }
  let tags := if attrSecret e.attr then List.replicate (linesFor e.data.length) .secret else e.tags
  let mine (k : Copy) : Bool := k.ring == r && k.handle == h && some k.kind == ownForm e.attr && k.st == .valid
  match s.ush.copies.find? mine with
  | some k =>
    let s := setCore c { core s c with
      grants := (core s c).grants ++ [{ g with base := 0x1000000 + k.addr, cached := some k.kind }] } s
    let held : Bool := (ticket? s tid).any (fun t => t.uses.any (fun u => u == (r, h, k.addr)))
    let s := if held then s
      else modTicket tid (fun t => { t with uses := t.uses ++ [(r, h, k.addr)] })
        { s with ush := { s.ush with copies := s.ush.copies.map (fun (q : Copy) =>
            if q.ring = r ∧ q.handle = h ∧ q.addr = k.addr then { q with uses := q.uses + 1 } else q) } }
    keygetDone c d (BitVec.ofNat 64 (0x1000000 + k.addr)) s
  | none => deliver c d g e.data tags s

/-- RESERVE, RESERVE_PUBLIC and RESTORE make the entry RESERVED and grant its staging area, which reads zero and PUBLIC, or holds
the deciphered key (R296, R304, R509). -/
def grantStaging (c d : Nat) (h : W32) (u : Nat) (t : Ticket) (s : State) : State :=
  let word := wordAsked s t u
  let n := linesAsked s t u
  let b := blobBytes s t (blobNum (blobBytes s t 68) 4 4 + 84)
  let len := if u = 0x37 then blobNum b 4 4 else reserveLen word
  match roomFor s (ringOf c) (64 * n) 0 none with
  | none => s
  | some (a, s) =>
    let e := keyEntry s h
    let e' : KeyEntry := {
      st := .reserved, attr := word, lines := n, reserver := some t.id, wasEvicted := e.st == .evicted,
      notBefore := if u = 0x37 then BitVec.ofNat 64 (blobNum b 24 8) else 0,
      notAfter := if u = 0x37 then BitVec.ofNat 64 (blobNum b 32 8) else 0xFFFFFFFFFFFFFFFF }
    let g : Grant := {
      base := 0x1000000 + a, size := 64 * n, key := true, handle := h, usage := BitVec.ofNat 8 u, attr := word, len := len,
      secret := u == 0x37, staging := true }
    let s := unwrite (.ring (ringOf c) a) (64 * n) (setKey h e' s)
    let s := if u = 0x37 then
        writeTagged (.ring (ringOf c) a)
          (padTo ((blobOpened s (handleIid h) b).getD []) (64 * n)) .secret s
      else s
    let s := setCore c { core s c with grants := (core s c).grants ++ [g] } s
    let s := { s with ks := { s.ks with pend := s.ks.pend ++ [{ tid := t.id, handle := h, change := .install a (64 * n) (if u = 0x37 then some len else none) }] } }
    keygetDone c d (BitVec.ofNat 64 g.base) s

/-- A change of the entry for the commit (R296, R298). The manual does not say what d holds afterwards: a free value. -/
def grantChange (c d : Nat) (h : W32) (change : KeyChange) (tid : Nat) (s : State) : State :=
  let s := { s with ks := { s.ks with pend := s.ks.pend ++ [{ tid := tid, handle := h, change := change }] } }
  let f := nextFresh s
  keygetDone c d (Config.freeBits 64 f.1) f.2

/-- An accepted request. -/
def keyAccept (c d : Nat) (h : W32) (u : Nat) (t : Ticket) (s : State) : State :=
  let e := keyEntry s h
  let pubGrant (data : List Byte) : Grant :=
    { base := 0, size := roundUp data.length 64, key := true, handle := h, usage := BitVec.ofNat 8 u, attr := e.attr,
      len := data.length, secret := false }
  let w := windowOf t
  if 0x32 ≤ u ∧ u ≤ 0x35 then
    grantChange c d h
      (match u with
        | 0x32 => .destroy
        | 0x33 => .evict
        | 0x34 => .window (BitVec.ofNat 64 w.1) (BitVec.ofNat 64 w.2)
        | _ => .restrict (BitVec.ofNat 64 (t.num 56 8))) t.id s
  else if 8 ≤ grantCount s c then ninthGrant c s
  else if t.device then
    let data :=
      if t.act = 0x0702 then bytesFrom (Config.cosignPrivate s.lcs.secret s.lcs.serial) 48
      else bytesFrom (Config.attestPrivate (attestSeed s.lcs.secret s.lcs.serial)) 4896
    deliver c d { pubGrant data with secret := true } data (List.replicate (linesFor data.length) .secret) s
  else if u = 0x38 then
    let data := bytesFrom (Config.attestPublic (attestSeed s.lcs.secret s.lcs.serial)) 2592
    deliver c d (pubGrant data) data [] s
  else if u = 0x31 then deliver c d (pubGrant (infoOf e)) (infoOf e) [] s
  else if u = 0x20 then
    let nonce := match drbgAnswer s (.blob c) with
      | some (some b) => b
      | _ => []
    let data := blobOf s h e nonce
    deliver c d { pubGrant data with secret := true } data (List.replicate (linesFor data.length) .wrapped)
      s
  else if u = 0x30 ∨ u = 0x36 ∨ u = 0x37 then grantStaging c d h u t s
  else grantCopy c d h u t.id s

/-- The answer for a blob nonce is taken when its request has been decided. -/
def nonceTaken (c u : Nat) (s : State) : State :=
  match (core s c).run with
  | .keyget _ _ _ => s
  | _ => if u = 0x20 then drbgCancel (.blob c) s else s

/-- A refusal ends the act (R112) and is kept in KS_I_LASTREF (R290). -/
def keyRefused (c order : Nat) (status : Byte) (t : Ticket) (s : State) : State :=
  let s := if t.device then s
    else bump (ksIReg t.iid 0x18) 1 16 (setKsInst t.iid { ksInst s t.iid with lastCause := BitVec.ofNat 8 order } s)
  endAct c status 0 s

/-- The request of a core waits for a decision that can be made. -/
def keyAsks (s : State) (c : Nat) : Bool :=
  match (core s c).run, ticketOn s c with
  | .keyget _ h u, some t => keyVerdict s t c h u.toNat != .wait
  | _, _ => false

/-- The controller decides one request per hub cycle; of those that arrived in the same cycle the one of the lowest Carousel stop, which is
the ring's number (R295). Two cores of one ring go by their numbers (DESIGN CHOICE, assumption 108). -/
def keyTurn (s : State) (c : Nat) (others : List Nat) : Bool := !s.ks.decided && others.all (fun d => !keyAsks s d || c ≤ d)

/-- The controller's decision of a hub cycle is made. -/
def decided (s : State) : State := { s with ks := { s.ks with decided := true } }

/-- KEY_REQUEST: the controller decides the stalled KEYGET of a core (R290); `others` are the cores whose requests have reached it in the
same hub cycle. -/
def execKeyRequest (c : Nat) (others : List Nat) (s : State) : Out :=
  .next (unlessLocked (fun s =>
    match (core s c).run, ticketOn s c with
    | .keyget d h u, some t =>
      if keyTurn s c others = false then s
      else
        nonceTaken c u.toNat (
          match keyVerdict s t c h u.toNat with
          | .wait => s
          | .refuse order status => keyRefused c order status t (decided s)
          | .accept => keyAccept c d h u.toNat t (decided s))
    | _, _ => s) s)

/-- KEY_DELIVERY_COMPLETE: the transfer is done, the copy is in ring memory, and KEYGET completes (R23, R112). -/
def execKeyDeliveryComplete (c : Nat) (s : State) : Out :=
  .next (unlessLocked (fun s =>
    match (core s c).run with
    | .deliver d g data tags =>
      if xfersDone s (corex s c).keyXfer.toList = false then s
      else
      let p : Place := .ring (ringOf c) (g.base - 0x1000000)
      let s := unwrite p (roundUp g.size 64) s
      let s := (List.range (linesFor data.length)).foldl (fun s j =>
        bankWrite stopPort (p.add (64 * j)) (slice data (64 * j) 64) (tags.getD j .pub) s) s
      keygetDone c d (BitVec.ofNat 64 g.base) (setCore c { core s c with grants := (core s c).grants ++ [g] } s)
    | _ => s) s)

/-! ### Commits (R296, R305, R311, R509) -/

/-- One change takes effect at its ticket's commit with status DONE; `r` is the ticket's ring. -/
def applyChange (r : Nat) (p : KeyPend) (s : State) : State :=
  let h := p.handle
  let e := keyEntry s h
  match p.change with
  | .install a n known =>
    if e.st = .reserved ∧ e.reserver = some p.tid then
      let all := readBytes s (.ring r a) n
      let len := min n (known.getD (actualLen s e.attr all))
      let lines := linesFor len
      drainCopies (fun k => k == h) (noteHeld (.keyEntry h) (beginXfer r hubStop len none (all.take len) (setKey h { e with
        st := .filling, data := all.take len, parity := wordsParity (all.take len), tags := (lineTags s (.ring r a) (64 * lines)), lines := lines,
        reserver := none, wasEvicted := false, xfer := (xferIds s len).head? } s)))
    else s
  | .destroy => if e.st = .resident ∨ e.st = .evicted then destroyKey h s else s
  | .evict =>
    if e.st = .resident then drainCopies (fun k => k == h) (setKey h { e with st := .evicted, data := [], parity := [], tags := [], lines := 0 } s)
    else s
  | .window nb na =>
    if e.st = .resident then drainCopies (fun k => k == h) (setKey h { e with notBefore := nb, notAfter := na } s) else s
  | .restrict m =>
    if e.st = .resident then drainCopies (fun k => k == h) (setKey h { e with attr := restricted e.attr m } s) else s

/-- Every change of a ticket, in the order of its requests. -/
def applyChanges (t : Ticket) (r : Nat) (s : State) : State :=
  let mine := s.ks.pend.filter (fun p => p.tid == t.id)
  mine.foldl (fun s p => applyChange r p s) { s with ks := { s.ks with pend := s.ks.pend.filter (fun p => p.tid != t.id) } }

/-- KEY_FILL_DONE: the last line is written, the transfer from the ring done (R23, R284). -/
def execKeyFillDone (h : W32) (s : State) : Out :=
  .next (unlessLocked (fun s =>
    let e := keyEntry s h
    if e.st = .filling ∧ xfersDone s e.xfer.toList then setKey h { e with st := .resident, xfer := none } s else s) s)

/-- KEY_SCRUB_DONE: the entry is EMPTY and its quota is released (R311). -/
def execKeyScrubDone (h : W32) (s : State) : Out :=
  .next (unlessLocked (fun s => if (keyEntry s h).st = .destroying then setKey h {} s else s) s)

/-! ### Sweeps and domains (R294, R302, R313) -/

/-- SWEEP: the scan of a sweep that has been started. -/
def execSweep (s : State) : Out :=
  .next (unlessLocked (fun s =>
    if s.ks.sweeping = false then s
    else
      let gone := s.ks.entries.filter (fun e =>
        e.2.st != .empty && e.2.st != .destroying && e.2.notAfter.ult (nt s))
      let s := { s with ks := { s.ks with sweeping := false } }
      let s := gone.foldl (fun s e => bump (ksReg 0xC) 1 16 (drainCopies (fun h => h.toNat == e.1) s)) s
      bump (ksReg 0xC) 0 16 s) s)

/-- KS_I_DOMAINk (R313). -/
def domainWrite (i k : Nat) (data : W32) (s : State) : State :=
  let x := ksInst s i
  if i < iidCount s ∧ k < 4 then
    if keysOf s i ≠ [] then ignoredWrite 0x0F (ksIReg i (4 * k)) (data.setWidth 64) none s
    else
      let d := x.domain.toNat
      setKsInst i { x with domain := BitVec.ofNat 128 (d - field d (32 * k) 32 * 2 ^ (32 * k) + data.toNat * 2 ^ (32 * k)) } s
  else ignoredWrite 0x13 (ksIReg i (4 * k)) (data.setWidth 64) none s

def execKsDomainWrite (i k : Nat) (data : W32) (s : State) : Out := .next (hostWrite (domainWrite i k data) s)

/-! ### The custodian ceremony (R308–R310, R313) -/

def setCer (c : Ceremony) (s : State) : State := { s with ks := { s.ks with cer := c } }

/-- A ceremony command: ignored with a notice while one runs; refused in safety-net mode but for CANCEL (R313, R442). -/
def cerCommand (cmd : Nat) (ok : State → Bool) (f : State → State) (s : State) : State :=
  let c := s.ks.cer
  if c.busy then
    ignoredWrite 0x0F (ksReg 0x100)
      (BitVec.ofNat 64 (pack [(c.n.toNat, 24), (c.rstep.toNat, 20), (b2n c.hc, 16), (cmd, 0)])) none s
  else if (s.fc.snet ∧ cmd ≠ 4) ∨ ok s = false then setCer { c with result := 1 } s
  else f s

/-- OPEN: the target and the word are checked, the slot is reserved, KS_CER_ID is asked of the DRBG (R308). -/
def cerOpen (s : State) : State :=
  cerCommand 1 (fun s =>
      let x := inst s (handleIid s.ks.cer.target)
      !s.ks.cer.isOpen && s.lcs.st == 2 && !s.lcs.busy && (x.st == .active || x.st == .stopped)
        && decide (2 ≤ s.ks.cer.n.toNat ∧ s.ks.cer.n.toNat ≤ 4))
    (fun s =>
      let c := s.ks.cer
      let h := c.target
      let n := linesFor (reserveLen c.attr)
      if (keyEntry s h).st ≠ .empty ∨ handleSlot h = 0x7FFFFF ∨ noPlace s h n then setCer { c with result := 2 } s
      else if attrValid c.attr = false ∨ (attrFamily c.attr ≠ 0x20 ∧ attrFamily c.attr ≠ 0x21) then setCer { c with result := 3 } s
      else setCer { c with busy := true, opening := true, hadOne := true, slot := h, word := c.attr }
        (setKey h { st := .reserved, attr := c.attr, lines := n } s)) s
def execCerOpen (s : State) : Out := .next (hostWrite cerOpen s)

/-- COMPONENT: the card slot takes the step (R308, R410). -/
def cerComponent (s : State) : State :=
  cerCommand 2 (fun s => s.ks.cer.isOpen && decide (s.ks.cer.step < s.ks.cer.n.toNat) && !s.ks.cer.resumePending)
    (fun s => hcTakeStep (b2n s.ks.cer.hc) (setCer { s.ks.cer with busy := true, reader := s.ks.cer.hc } s)) s
def execComponent (s : State) : Out := .next (hostWrite cerComponent s)

/-- COMPONENT_DONE: the slot's step has ended (R309). -/
def execComponentDone (s : State) : Out :=
  .next (unlessLocked (fun s =>
    let c := s.ks.cer
    let n := b2n c.reader
    let x := slotOf s n
    match x.stepEnd with
    | none => s
    | some r =>
      if c.isOpen = false ∨ c.busy = false then s
      else
        let s := setSlot n { x with stepEnd := none, component := [] } s
        if r ≠ 0 then setCer { c with busy := false, result := r } s
        else if some x.component.length ≠ dataLen c.word then setCer { c with busy := false, result := 6 } s
        else setCer { c with busy := false, result := 0, step := c.step + 1, acc := xorBytes c.acc x.component } s) s)

/-- CLOSE: the accumulator becomes the slot's key (R308). -/
def cerClose (s : State) : State :=
  cerCommand 3 (fun s => s.ks.cer.isOpen && s.ks.cer.step == s.ks.cer.n.toNat)
    (fun s =>
      let c := s.ks.cer
      let len := (dataLen c.word).getD 0
      setCer { c with isOpen := false, step := 0, acc := [], result := 0 }
        (setKey c.slot { keyEntry s c.slot with st := .resident, data := padTo c.acc len, parity := wordsParity (padTo c.acc len) }
          (noteHeld (.keyEntry c.slot) s))) s
def execCerClose (s : State) : Out := .next (hostWrite cerClose s)

/-- CANCEL: the accumulator is scrubbed and the slot is free (R308). -/
def cerCancel (s : State) : State := cerCommand 4 (fun s => s.ks.cer.isOpen) (endCeremony 0) s
def execCerCancel (s : State) : Out := .next (hostWrite cerCancel s)

/-- RESUME is accepted where STATE is OPEN (R308), and after a power-on reset, which lost any ceremony: RESULT 0x07 there (R310). With STATE
IDLE and an OPEN since, it is not accepted. -/
def resumeTaken (c : Ceremony) : Bool := c.isOpen || !c.hadOne

/-- RESUME: COMPONENT is accepted again where ID and RSTEP agree, otherwise RESULT 0x07 (R308, R310). -/
def cerResume (s : State) : State :=
  cerCommand 5 (fun s => resumeTaken s.ks.cer)
    (fun s =>
      let c := s.ks.cer
      if c.isOpen ∧ c.resume = c.id ∧ c.rstep.toNat = c.step then setCer { c with resumePending := false, result := 0 } s
      else setCer { c with result := 7 } s) s
def execCerResume (s : State) : Out := .next (hostWrite cerResume s)

end Sys2Proof.Machine
end

