-- ==== Sys2Proof/Machine/Fabric.lean ====
section
/-!
DEFINITION. Transfers and stored words (R18–R31): flits and their replays (R25), credits (R22), transfers that end (R23), parity errors of
stored words with the re-reads, spare lines and owners of R27–R29, and the micro-traps that go with them (R160–R163).
-/
namespace Sys2Proof.Machine

open Sys2Proof

/-- The operation of a ticket fails: it completes DATA_INTEGRITY at its core's commit signal, unless a terminating request has
reached it; one held until the restore decides the status (R25, R27, R164). -/
def opFails (tid : Nat) (cls : FaultClass) (s : State) : State :=
  match ticket? s tid with
  | none => s
  | some t =>
    match t.phase with
    | .running c =>
      if (core s c).run = .inReset then s
      else if t.heldStop.isSome then touch tid cls s
      else endAct c stIntegrity 0 (touch tid cls s)
    | _ => s

/-- The operation fails on a Maelhoavo engine that retires for it: the ticket leaves its act by terminating micro-trap, DATA_INTEGRITY, and
nothing is committed (R234). -/
def opDies (tid : Nat) (cls : FaultClass) (s : State) : State := stopTicket tid stIntegrity (touch tid cls s)

def namedBy (s : State) (ev : Event) : Option Nat → Event
  | none => ev
  | some tid => match ticket? s tid with
    | some t => Event.naming ev t
    | none => ev

/-! ### Transfers (R22, R23, R25) -/

/-- Where a flit failed: the source code, and the unit that the fourth failure retires. -/
def flitUnit (u : Half) : Option (Byte × Half) :=
  let i := unitIdx u
  match unitKind u with
  | 1 => some (0x04, u)
  | 2 => some (0x04, u)
  | 3 => some (0x04, if i % 16 < 4 then u else unitRing (i / 16))
  | 4 => some (0x05, u)
  | 5 => some (0x04, unitRing (i / 16))
  | _ => none

def ownerOf (s : State) (xfer : Nat) : Option Nat := (s.fabric.xfers.find? (fun x => x.id == xfer)).bind (fun x => x.owner)

def setRetry (u : Half) (r : Option Retry) (s : State) : State :=
  { s with fabric := { s.fabric with retry := match r with
      | some x => Table.ins u.toNat x (Table.erase u.toNat s.fabric.retry)
      | none => Table.erase u.toNat s.fabric.retry } }

/-- Consecutive failures of this flit at this unit. -/
def failsOf (s : State) (u : Half) (xfer : Nat) (flit : W64) : Nat :=
  match s.fabric.retry.find? (fun e => e.1 == u.toNat && e.2.xfer == xfer && e.2.flit == flit) with
  | some e => e.2.fails
  | none => 0

/-- The core whose access a flit of no transfer serves: the one that is named, or the one whose port it passes. -/
def accessCore (u : Half) (c : Option Nat) : Option Nat :=
  match c with
  | some c => some c
  | none => if unitKind u = 1 then some (unitIdx u) else none

/-- The ticket that owns a transfer; of an access that is none, of a core, an engine or a bank, the ticket of its core. -/
def ownerAt (s : State) (u : Half) (xfer : Nat) (c : Option Nat) : Option Nat :=
  match ownerOf s xfer with
  | some tid => some tid
  | none => if s.fabric.xfers.all (fun x => x.id != xfer) then (accessCore u c).bind (fun c => (core s c).ticket) else none

/-- The 32 flits of the sender's retry buffer from flit k of a transfer on (R25). -/
def retryBuffer (s : State) (xfer k : Nat) : List Flit :=
  match s.fabric.xfers.find? (fun x => x.id == xfer) with
  | some x => (List.range (min 32 ((x.data.length + 63) / 64 - k))).map (fun j => x.flit (k + j))
  | none => []

/-- A transfer is abandoned, and with it the DMA transfer, the command, the delivery or the copy that waits for it (R25). A cached copy under
way becomes DRAINING, and the entry of a key install is scrubbed as at its destruction (R25 says neither: DESIGN CHOICE, assumption 102). -/
def dropXfer (xfer : Nat) (s : State) : State :=
  { s with
    fabric := { s.fabric with xfers := s.fabric.xfers.filter (fun x => x.id != xfer) }
    corex := s.corex.map (fun e => (e.1, { e.2 with
      dma := { e.2.dma with queue := e.2.dma.queue.filter (fun x => !x.xfers.contains xfer) } }))
    mewin := s.mewin.map (fun e => (e.1, { e.2 with queue := e.2.queue.filter (fun q => !q.xfers.contains xfer) }))
    ush := { s.ush with copies := s.ush.copies.map (fun (k : Copy) =>
      if k.xfer = some xfer ∧ k.st = .filling then { k with st := .draining } else k) }
    ks := { s.ks with entries := s.ks.entries.map (fun e =>
      if e.2.xfer = some xfer ∧ e.2.st = .filling then (e.1, { st := .destroying, lines := e.2.lines }) else e) } }

/-- An access of a ring core is replayed, at its own port or at that of the bank or engine that answers: 8 cycles that no operation's
cycles count (R25, R32, R199). -/
def replayDelay (u : Half) (xfer : Nat) (c : Option Nat) (s : State) : State :=
  match accessCore u c with
  | some c => if s.fabric.xfers.all (fun x => x.id != xfer) then setCore c { core s c with stalled := (core s c).stalled + 8 } s else s
  | none => s

/-- FLIT_RECEIVE (R25). -/
def flitReceive (u : Half) (xfer : Nat) (flit : W64) (intact : Bool) (c : Option Nat) (s : State) : State :=
  match flitUnit u with
  | none => s
  | some (source, lost) =>
    let n := failsOf s u xfer flit
    let own := ownerAt s u xfer c
    if unitPresent s lost = false ∨ unitRetired s lost then s
    else if intact then
      if n = 0 then s
      else
        let s := setRetry u none s
        let ev := namedBy s { cls := .f1, source := source, unit := u, cause := 0x01, addr := flit,
                              detail0 := BitVec.ofNat 64 n } own
        report ev (match own with
          | some tid => touch tid .f1 s
          | none => s)
    else if n < 3 then
      replayDelay u xfer c
        (setRetry u (some { xfer := xfer, flit := flit, fails := n + 1, buffer := retryBuffer s xfer flit.toNat }) s)
    else
      let ev := namedBy s { cls := .f3, source := source, unit := lost, cause := 0x02, addr := flit } own
      let engine : Bool := unitKind lost == 3 && unitIdx lost % 16 < 4
      let s := dropXfer xfer (setRetry u none s)
      report ev (match own with
        | some tid => if engine then opDies tid .f3 s else opFails tid .f3 s
        | none => s)

/-- The receiver checks every slice and the header (R24, R25). -/
def execFlitReceive (u : Half) (xfer : Nat) (flit : W64) (f : FlitRead) (s : State) : Out :=
  .next (unlessLocked (flitReceive u xfer flit f.flit.intact f.core) s)

/-- One flit of a leg has been consumed at its destination; at the hub stop of a relayed transfer it waits for the second leg (R20). -/
def Xfer.consumed (x : Xfer) (src dst : Nat) : Xfer :=
  if x.src = src ∧ x.dst = dst ∧ x.flying ≠ 0 then
    { x with flying := x.flying - 1, relay := x.relay.map (fun l => { l with held := l.held + 1 }) }
  else { x with relay := x.relay.map (fun l => { l with flying := l.flying - 1 }) }

/-- The transfer has a flit under way between the two stops. -/
def Xfer.flies (x : Xfer) (src dst : Nat) : Bool :=
  (x.src == src && x.dst == dst && x.flying != 0) || (src == hubStop && x.relay.any (fun l => l.dst == dst && l.flying != 0))

/-- CREDIT_RETURN: the destination has consumed a flit; what is held for those two stops injects (R20, R22). -/
def execCreditReturn (src dst : Nat) (s : State) : Out :=
  .next (unlessLocked (fun s =>
    if creditsUsed s src dst = 0 then s
    else
      let first := (s.fabric.xfers.find? (fun x => x.flies src dst)).map (fun x => x.id)
      let s := { s with fabric := { s.fabric with
        creditsUsed := Table.set 0 s.fabric.creditsUsed (creditKey src dst) (creditsUsed s src dst - 1)
        xfers := s.fabric.xfers.map (fun (x : Xfer) => if first = some x.id then x.consumed src dst else x) } }
      (s.fabric.xfers.map (fun (x : Xfer) => x.id)).foldl (fun s id => forward id (inject id s)) s) s)

/-- Every flit has left the source, and the hub stop of a relay. -/
def Xfer.injected (x : Xfer) : Bool := x.held == 0 && x.relay.all (fun l => l.held == 0 && x.flying == 0)

/-- TRANSFER_DONE: the destination has accepted the last flit of a transfer that is wholly injected (R23). -/
def execTransferDone (xfer : Nat) (s : State) : Out :=
  .next (unlessLocked (fun s =>
    if s.fabric.xfers.any (fun x => x.id == xfer && x.injected) then
      { s with fabric := { s.fabric with
          xfers := s.fabric.xfers.filter (fun x => x.id != xfer), done := s.fabric.done ++ [xfer] } }
    else s) s)

/-! ### Stored words (R27–R31) -/

/-- Source code and UNIT of a memory (R430, R432). -/
def memSource : MemName → Byte × Half
  | .coreLocal c => (0x01, unitCore c)
  | .ring r | .actStore r => (0x02, unitRing r)
  | .keyStore | .netBuffers | .auditStore | .troubleLog | .working => (0x03, 0)
  | .controlStore c => (0x06, unitCore c)
  | .scratch e => (0x09, BitVec.ofNat 16 (0x3000 + e))
  | .hashState e => (0x0A, BitVec.ofNat 16 (0x3000 + e))
  | .accumulator e => (0x09, BitVec.ofNat 16 (0x3000 + e))
  | .keyRegister e => (0x0B, BitVec.ofNat 16 (0x3000 + e))

/-- The spare pool of a memory and its size (R28, R154, R240). -/
def memPool : MemName → Nat × Nat
  | .coreLocal c => (c, 32)
  | .ring r | .actStore r => (256 + r, 256)
  | .hashState e => (256 + e / 16, 256)
  | .keyStore | .netBuffers | .auditStore | .troubleLog | .working => (272, 1024)
  | .scratch e => (300 + e, 8)
  | .controlStore c => (1000 + c, 0)
  | .accumulator e | .keyRegister e => (2000 + e, 0)

/-- The ticket whose operation reads the line; of an engine's memory, the one that runs on the core. -/
def readerOf (s : State) (held : LineHeld) (c : Option Nat) : Option Nat :=
  match held with
  | .workingSet tid | .act tid => some tid
  | .copy _ _ _ reader => reader
  | _ => c.bind (fun c => (core s c).ticket)

/-- The stored bytes that a memory's address names, for the memories that the model holds by byte. -/
def memAt (m : MemName) (a : Nat) : Option Place :=
  match m with
  | .coreLocal c => some (.loc c a)
  | .ring r | .actStore r => some (.ring r a)
  | .working => some (.work a)
  | _ => none

/-- A write below 32 bits is merged into its word, as the word now reads, with its tag (R30, R180). -/
def mergeNarrow (m : MemName) (a : W64) (narrow : Option (List Byte × Tag)) (s : State) : State :=
  match memAt m a.toNat, narrow with
  | some p, some b => writeTagged p b.1 b.2 s
  | _, _ => s

/-- The instruction word at the core's PC. -/
def wordAtPc (s : State) (c : Nat) : Nat :=
  let a := (core s c).pc.toNat
  match place s c a 4 with
  | .mem p => natOf (readBytes s p 4)
  | .readOnly p => natOf (readBytes s p 4)
  | .work off => natOf (readBytes s (.work off) 4)
  | .rom off => natOf ((List.range 4).map (fun j => Config.bootRom (off + j)))
  | _ => 0

/-- The save area of a resumable micro-trap (R149, R162); words 25–30 of a management core are 0 (R173). The micro-state of an instruction
whose routine stays in ROM, which the model runs whole, is free in the fields that R162 gives it. -/
def saveArea (s : State) (c : Nat) : Table W64 :=
  let y := corex s c
  let u := y.vec
  let m := y.micro
  let own := m.waiting.isSome
  let free (k w : Nat) : Nat := (Config.freeBits 64 (s.fresh + k)).toNat % 2 ^ w
  let pick (k w v : Nat) : Nat := if own then v else free k w
  let entry (k : Nat) : Nat := match m.stack.reverse[k]? with
    | some a => a.toNat + 2 ^ 16
    | none => 0
  let word (k : Nat) : W64 :=
    if k = 0 then BitVec.ofNat 64 (pack [(Config.saveCause.toNat, 28), (pick 32 4 m.hold, 20), (pick 33 3 m.flags.toNat, 16), (pick 0 13 m.pc.toNat, 0)])
    else if k ≤ 16 then BitVec.ofNat 64 (pick k 64 (Table.get 0 m.temps (k - 1)).toNat)
    else if k = 17 then BitVec.ofNat 64 (pick k 16 (pack ((List.range 16).map (fun j => (b2n (Table.get false m.tempTags j), j)))))
    else if k = 18 then BitVec.ofNat 64 (pick k 64 m.counter.toNat)
    else if k ≤ 22 then BitVec.ofNat 64 (if own then entry (k - 19) else free k 13 + 2 ^ 16 * free (k + 16) 1)
    else if k = 23 then BitVec.ofNat 64 (if own then m.stack.length else free k 64 % 5)
    else if k = 24 then BitVec.ofNat 64 ((m.waiting.elim (wordAtPc s c) (fun r => r.toNat)) * 2 ^ 32 + (core s c).pc.toNat % 2 ^ 32)
    else if c = mgmtCore then 0
    else if k = 25 then BitVec.ofNat 64 (b2n u.pending + 2 * b2n u.multi + u.cause.toNat * 256)
    else if k = 26 then u.mask.setWidth 64
    else if k = 27 then u.faddr
    else if k = 28 then u.fval
    else if k = 29 then Config.saveChecks u.pending u.checks.length (u.checks.filter (fun q => q.fault.isSome)).length
    else if k = 30 then Config.saveRand y.rndWait.isSome y.rndBuf.length
    else 0
  (List.range 32).foldl (fun t k => Table.set 0 t k (word k)) []

/-- The micro-state that the restore routine brings back to a routine that waits (R162, R163). -/
def Micro.restored (m : Micro) : Micro :=
  let w (k : Nat) : Nat := (Table.get 0 m.save k).toNat
  if m.waiting = none then m
  else
    { m with
      pc := BitVec.ofNat 13 (w 0)
      flags := BitVec.ofNat 3 (field (w 0) 16 3)
      hold := field (w 0) 20 4
      temps := (List.range 16).foldl (fun t k => Table.set 0 t k (Table.get 0 m.save (k + 1))) []
      tempTags := (List.range 16).foldl (fun t k => Table.set false t k ((w 17).testBit k)) []
      counter := Table.get 0 m.save 18
      stack := ((List.range (w 23)).map (fun k => BitVec.ofNat 13 (w (19 + k)))).reverse }

/-- VFSTAT, VFMASK, VFADDR and VFVAL as words 25–28 hold them. What words 29 and 30 hold has not moved during the trap. -/
def VecUnit.restored (u : VecUnit) (save : Table W64) : VecUnit :=
  let w (k : Nat) : W64 := Table.get 0 save k
  { u with
    pending := bit (w 25) 0
    multi := bit (w 25) 1
    cause := BitVec.ofNat 8 (field (w 25).toNat 8 8)
    mask := (w 26).setWidth 32
    faddr := w 27
    fval := w 28 }

/-- The core's routine waits in a resumable micro-trap. -/
def trapCore (c : Nat) (s : State) : State :=
  let y := corex s c
  if (core s c).ticket.isNone ∧ c ≠ mgmtCore then s
  else
    stallBegin c { setCorex c { y with micro := { y.micro with trapped := true, save := saveArea s c } } s with
      fresh := s.fresh + 39 }

/-- The word, or the owner's data, was written in the present hub cycle. -/
def writtenNow (m : MemName) (line : W64) (held : LineHeld) (s : State) : Bool :=
  match memAt m line.toNat with
  | some p => wroteNow s p
  | none => s.fabric.wroteHeld.contains held

/-- The core that waits for a re-read: a control store has its own. -/
def waitingCore (m : MemName) (c : Option Nat) : Option Nat :=
  match m with
  | .controlStore k => some k
  | _ => c

/-- MEMORY_PARITY_ERROR (R24, R27, R160): a re-read begins. A word that was written in the same cycle reads as written (R31). -/
def memoryParityError (m : MemName) (line : W64) (held : LineHeld) (c : Option Nat) (found : StoredWord) (narrow : Option (List Byte × Tag))
    (s : State) : State :=
  if found.intact then s
  else if writtenNow m line held s then mergeNarrow m line narrow s
  else
    match m with
    | .accumulator _ | .keyRegister _ =>
      let reader := readerOf s held c
      let s := report (namedBy s { cls := .f2, source := (memSource m).1, unit := (memSource m).2, cause := 0x02, addr := line } reader) s
      match reader with
      | some tid => opFails tid .f2 s
      | none => s
    | _ =>
      let s := { s with fabric := { s.fabric with
        rereads := s.fabric.rereads ++ [{ mem := m, line := line, held := held, core := waitingCore m c, narrow := narrow, cycle := s.time.cycle }] } }
      match m, c with
      | .coreLocal _, some k | .ring _, some k => trapCore k s
      | .actStore _, some k => stallBegin k s
      | .controlStore k, _ => stallBegin k s
      | .working, some k => if k = mgmtCore then trapCore k s else s
      | _, _ => s

def execMemoryParityError (m : MemName) (line : W64) (held : LineHeld) (r : WordRead) (s : State) : Out :=
  .next (unlessLocked (memoryParityError m line held r.core r.found r.narrow) s)

/-- The re-read has ended: the instruction's routine resumes (R163), and a terminating request that was held is taken (R164); a fetch goes
on. -/
def resumeCore (s : State) (c : Nat) : State :=
  let y := corex s c
  let s := if (core s c).run = .exiting stIntegrity 0 then s else setCore c ((core s c).stallEnd (coreNow s c)) s
  let s := if y.micro.trapped then
      setCorex c { y with
        vec := if c = mgmtCore then y.vec else y.vec.restored y.micro.save
        micro := { y.micro.restored with trapped := false } } s
    else s
  match ticketOn s c with
  | some t => match t.heldStop with
    | some st => stopTicket t.id st s
    | none => s
  | none => s

/-- The data of a retired line are lost: the spare line reads zero (R28). A scratch line lies in one claim, that of the reader's core on the
window that the engine serves. -/
def lineLost (m : MemName) (line : W64) (reader : Option Nat) (s : State) : State :=
  let a := line.toNat / 64 * 64
  match m with
  | .scratch e =>
    match (reader.bind (ticket? s)).bind (fun t => t.core?) with
    | none => s
    | some c =>
      match (List.range 4).find? (fun k => engineOf s (e / 16) k == e % 16 && (meWin s c k).held) with
      | none => s
      | some k =>
        let w := meWin s c k
        setMeWin c k { w with scratch := Table.clear w.scratch a 64, scratchTag := Table.clear w.scratchTag (a / 64) 1 } s
  | m => match memAt m a with
    | some p => unwrite p 64 s
    | none => s

/-- The tickets whose INIT or REQUEST came in on a port, in order: their messages' lines come after those of the inbox (R337, R349). -/
def messageTickets (s : State) (p : Nat) : List Nat :=
  s.tickets.filterMap (fun t =>
    let here : Bool := match t.origin with
      | .handshake n => s.dol.handshakes.any (fun h => h.n == n && h.port == p)
      | .dolid _ txid => (txn? s t.iid txid).any (fun r => r.port == p)
      | _ => false
    if here then some t.id else none)

/-- A ticket that has lost its message: one that waits leaves the buffer undispatched. -/
def messageLost (tid : Nat) (cls : FaultClass) (s : State) : State :=
  match ticket? s tid with
  | some t => if t.inBuffer then finishQueued tid { status := stIntegrity, fault := cls.rank } s else opFails tid cls s
  | none => s

/-- What the owner of the line does (R29, R306, R339, R378, R440, R478). -/
def ownerActs (m : MemName) (line : W64) (held : LineHeld) (cls : FaultClass) (reader : Option Nat) (s : State) : State :=
  let fails (s : State) : State := match reader with
    | some tid => opFails tid cls s
    | none => s
  let ofEngine : Bool := match m with
    | .hashState _ | .scratch _ => true
    | _ => false
  if ofEngine then fails s
  else match held with
  | .workingSet _ => fails s
  | .copy r h kind _ =>
    fails { s with ush := { s.ush with copies := s.ush.copies.map (fun (k : Copy) =>
      if k.ring = r ∧ k.handle = h ∧ k.kind = kind then { k with st := .draining } else k) } }
  | .keyEntry h =>
    let e := keyEntry s h
    fails (if e.st = .resident then setKey h { e with st := .evicted, data := [], parity := [], tags := [], lines := 0 } s else s)
  | .directory hs both =>
    fails (if both then
        drainCopies hs.contains { s with ks := { s.ks with entries := s.ks.entries.filter (fun e => !hs.any (fun h => h.toNat == e.1)) } }
      else s)
  | .ceremony => endCeremony 7 s
  | .act _ =>
    match m with
    | .actStore r => fails { s with fabric := { s.fabric with rewrite := s.fabric.rewrite ++ [(r, BitVec.ofNat 64 (line.toNat / 64 * 64))] } }
    | _ => fails s
  | .frame p received i =>
    if received then
      match (s.dol.inbox.filter (fun d => d.port == p))[i]? with
      | some d => portCount p 0x90 (freeMsg d { s with dol := { s.dol with inbox := s.dol.inbox.erase d } })
      | none =>
        match (messageTickets s p)[i - (s.dol.inbox.filter (fun d => d.port == p)).length]? with
        | some tid => messageLost tid cls (portCount p 0x90 s)
        | none => portCount p 0x90 s
    else
      let x := netPort s p
      match x.tx[i]? with
      | some f => portCount p 0xA0 (freeFrame f (setPort p { x with tx := x.tx.eraseIdx i } s))
      | none =>
        match (x.neigh.flatMap (fun n => n.held))[i - x.tx.length]? with
        | some f => portCount p 0xA0 (freeFrame f (setPort p { x with
            neigh := x.neigh.map (fun n => { n with held := n.held.erase f }) } s))
        | none => portCount p 0xA0 s
  | .audit i =>
    bump audStatusReg 2 8 (report { cls := .f2, source := 0x10, cause := 0x02, iid := BitVec.ofNat 16 i, addr := line }
      { s with aud := { s.aud with trees := Table.set {} s.aud.trees i { Table.get {} s.aud.trees i with lost := true } } })
  | .record e iids =>
    resealRecord e (iids.foldl (fun s i => bump audStatusReg 2 8
      (report { cls := .f2, source := 0x10, cause := 0x02, iid := BitVec.ofNat 16 i, addr := line } s)) s)
  | .session sid => closeSession (BitVec.ofNat 32 sid) none s
  | .log k => bump fcLogStat 0 16 { s with fc := { s.fc with
      log := Table.erase (k % 4096) s.fc.log, logParity := Table.erase (k % 4096) s.fc.logParity } }
  | .retained numbers =>
    { s with acts := { s.acts with
        result := 6
        acts := s.acts.acts.map (fun (a : Act) => if a.iid = none ∧ numbers.contains a.number then { a with enabled := false } else a) } }
  | .unowned => s

/-- Both re-reads have failed: the line is retired to a spare; without one its core, ring, engine or the device is escalated, and the
record is that of the escalation (R27, R28). A core without its control word goes no further, so that its ticket commits nothing (R154). -/
def retireLine (q : Reread) (s : State) : State :=
  let p := memPool q.mem
  let src := memSource q.mem
  let reader := readerOf s q.held q.core
  let used := Table.get 0 s.fabric.sparesUsed p.1
  let central : Bool := p.1 == 272
  if used < p.2 then
    let s := { s with fabric := { s.fabric with
      sparesUsed := Table.set 0 s.fabric.sparesUsed p.1 (used + 1), retiredLines := s.fabric.retiredLines ++ [(p.1, q.line)] } }
    let ev := namedBy s { cls := .f2, source := src.1, unit := src.2, cause := 0x02, addr := q.line } reader
    report ev (ownerActs q.mem q.line q.held .f2 reader (lineLost q.mem q.line reader s))
  else
    let unit : Half := match q.mem with
      | .hashState e => unitRing (e / 16)
      | _ => src.2
    let ev := namedBy s { cls := if central then .f4 else .f3, source := src.1, unit := unit, cause := 0x03, addr := q.line } reader
    report ev (
      match q.mem with
      | .controlStore c => setCorex c { corex s c with micro := { (corex s c).micro with faulted := true } } s
      | .scratch _ =>
        let s := lineLost q.mem q.line reader s
        match reader with
        | some tid => opDies tid .f3 s
        | none => s
      | _ => ownerActs q.mem q.line q.held (if central then .f4 else .f3) reader (lineLost q.mem q.line reader s))

/-- The same line: one retirement serves every read that waits for it (R31). -/
def sameLine (m : MemName) (line : W64) (q : Reread) : Bool := q.mem == m && q.line.toNat / 64 == line.toNat / 64

/-- REREAD_COMPLETE (R27): correct parity recovers as F1; a second failure retires the line as F2. A narrow write that waited is then
applied (R30). -/
def rereadComplete (m : MemName) (line : W64) (intact : Bool) (s : State) : State :=
  match s.fabric.rereads.filter (sameLine m line) with
  | [] => s
  | q :: more =>
    let src := memSource m
    let gone (s : State) : State :=
      { s with fabric := { s.fabric with rereads := s.fabric.rereads.filter (fun r => !sameLine m line r) } }
    let wakeAll (s : State) : State :=
      ((q :: more).filterMap (fun r => r.core)).foldl resumeCore ((q :: more).foldl (fun s r => mergeNarrow m r.line r.narrow s) s)
    if intact then
      let reader := readerOf s q.held q.core
      let ev := namedBy s { cls := .f1, source := src.1, unit := src.2, cause := 0x01, addr := line,
                            detail0 := BitVec.ofNat 64 (q.fails + 1) } reader
      wakeAll (report ev (match reader with
        | some tid => touch tid .f1 (gone s)
        | none => gone s))
    else if q.fails = 0 then
      { s with fabric := { s.fabric with rereads := s.fabric.rereads.map (fun (r : Reread) =>
          if sameLine m line r then { r with fails := 1 } else r) } }
    else
      let s := retireLine q (gone s)
      let others := (more.filterMap (fun r => readerOf s r.held r.core)).filter (fun t => readerOf s q.held q.core != some t)
      wakeAll (others.foldl (fun s tid => opFails tid .f2 s) s)

def execRereadComplete (m : MemName) (line : W64) (found : StoredWord) (s : State) : Out :=
  .next (unlessLocked (rereadComplete m line found.intact) s)

/-- A word that the present hub cycle has written after a failing read of it: the write comes first, so that the read sees the written word
and no fault arises (R31). -/
def rereadsWritten (s : State) : State :=
  let undone := s.fabric.rereads.filter (fun q => q.cycle == s.time.cycle && writtenNow q.mem q.line q.held s)
  let s := { s with fabric := { s.fabric with rereads := s.fabric.rereads.filter (fun q => !undone.contains q) } }
  (undone.filterMap (fun r => r.core)).foldl resumeCore (undone.foldl (fun s r => mergeNarrow r.mem r.line r.narrow s) s)

/-- ACT_STORE_LINE_REWRITE: firmware writes the spare line from the retained copy, and fetches from it go on (R29). -/
def execActStoreLineRewrite (r : Nat) (line : W64) (bytes : List Byte) (s : State) : Out :=
  .next (unlessLocked (fun s =>
    let a := line.toNat / 64 * 64
    if s.fabric.rewrite.any (fun q => q.1 == r && q.2.toNat == a) then
      writeBytes (.ring r a) (padTo (bytes.take 64) 64)
        { s with fabric := { s.fabric with rewrite := s.fabric.rewrite.filter (fun q => !(q.1 == r && q.2.toNat == a)) } }
    else s) s)

end Sys2Proof.Machine
end

