-- ==== Sys2Proof/Machine/Engines.lean ====
section
/-!
DEFINITION. What the engine windows and the DMA channel share: how a store to a window ends, the ranges a command may reach (R116,
R227, R237), what the ticket's input and output spaces are, and the Glove on host writes (R198, R351–R353).
-/
namespace Sys2Proof.Machine

open Sys2Proof

/-- How a store to an engine window ends. -/
inductive WRes where
  | ok (s : State)
  | exc (cause : Byte) (val : W64)
  /-- four commands are outstanding (R116, R227, R237, R264) -/
  | stall

def WRes.toIRes (x : Core) : WRes → IRes
  | .ok s => .ok s (x.pc + 4)
  | .exc cause val => .exc cause val
  | .stall => .stall true

/-- A command row is the STD to the engine's command register, as a ring core's present instruction. -/
def windowRow (c : Nat) (f : State → WRes) (s : State) : State :=
  if c < mgmtCore ∧ (corex s c).micro.waiting = none then issue c false (fun x => (f s).toIRes x) s else s

/-! ### Ranges -/

def Place.isLocal : Place → Bool
  | .loc _ _ => true
  | _ => false

/-- A readable source range lies over a line tagged as a share: TAGGED_OPERAND, before any ACCESS (R119, R179). -/
def shareRange (s : State) (c a n : Nat) : Bool :=
  n != 0 && (match rangePlace s c a n false with
    | .ok p => anyShare s p n
    | .error _ => false)

/-- The address that a range of space 0 or 1 fails at (R116). -/
def coreSpace (s : State) (c space a n : Nat) (write : Bool) : Except W64 Place :=
  match rangePlace s c a n write with
  | .error e => .error e
  | .ok p =>
    if p.isLocal = (space == 0) ∧ (p.isLocal ∨ p.key % 2 ^ 22 < 0x380000) then .ok p else .error (BitVec.ofNat 64 a)

/-- The first offset of [off, off + n) at or past the limit. -/
def pastLimit (off n limit : Nat) : Option W64 := if off + n ≤ limit then none else some (BitVec.ofNat 64 (max off limit))

/-- A source or destination of a DMA transfer or of a LOAD or STORE: the failing address or offset, if any (R116, R237). -/
def spaceFails (s : State) (c : Nat) (t : Ticket) (space a n : Nat) (write : Bool) : Option W64 :=
  match space with
  | 2 => pastLimit a n t.inLen
  | 3 => pastLimit a n t.outCap
  | k => match coreSpace s c k a n write with
    | .ok _ => none
    | .error e => some e

/-! ### Input and output of the ticket (R47, R116, R337, R344) -/

def pasidOf (s : State) (t : Ticket) : Option (BitVec 20) := if t.device then none else some (inst s t.iid).pasid

/-- The request for n bytes of the input from an offset, where it lies in host memory. -/
def askInput (t : Ticket) (off n : Nat) (s : State) : State :=
  if inputInside t ∨ n = 0 then s else emit (.read (pasidOf s t) (t.inIova + BitVec.ofNat 64 off) n) s

/-- The input bytes, where they are at hand: inside the device, or as the host has delivered them. -/
def inputBytes (t : Ticket) (off n : Nat) (data : Option (List Byte)) : Option (List Byte) :=
  if n = 0 then some []
  else if inputInside t then some (padTo (slice t.input off n) n)
  else data.map (fun d => padTo (d.take n) n)

/-- The whole input of a ticket: bytes that the device has not read from host memory are whatever lies there, free values (assumption 35). -/
def Ticket.whole (t : Ticket) (k : Nat) : List Byte := t.input ++ freeBytes (t.inLen - t.input.length) k

/-- What the act reads of its input is kept with the ticket; bytes before it that it has not read are free. -/
def keepInput (tid off : Nat) (b : List Byte) (s : State) : State :=
  if (ticket? s tid).any (fun t => !inputInside t) then
    let f := nextFresh s
    modTicket tid (fun t => { t with input := splice (t.input ++ freeBytes (off - t.input.length) f.1) off b }) f.2
  else s

/-! ### The Glove on writes (R198, R351–R353) -/

/-- A write is refused for a tag: the act ends EGRESS_BLOCKED (R116, R352). -/
def egressBlocked (c : Nat) (addr : W64) (s : State) : State :=
  match ticketOn s c with
  | none => s
  | some t =>
    let s := if t.device then s else bump (dolIReg t.iid 0x18) 1 16 s
    endActFault c stBlocked { cls := .f2, source := 0x0E, unit := unitCore c, cause := 0x09, addr := addr, detail0 := 1 } s

/-- The PCIe bucket of the instance for a write of n bytes that the unit `who` asks for: passed, with the bucket charged, or held in
order of arrival (R353). -/
def pcieBucket (i who n : Nat) (s : State) : Bool × State :=
  let d := dolInst s i
  let first : Bool := match d.held with
    | [] => true
    | w :: _ => w == who
  if first && bucketPasses d.ratePcieEff d.burstPcieEff d.levelPcie n then
    (true, setDolInst i { d with
      held := d.held.filter (fun w => w != who),
      levelPcie := if d.ratePcieEff = 0 then d.levelPcie else d.levelPcie - (n : Nat) } s)
  else (false, if d.held.contains who then s else setDolInst i { d with held := d.held ++ [who] } s)

/-- Output bytes leave: to host memory under the instance's PASID, into a Dolid ticket's response buffer, or to the Ringmaster. Whether
they have left, or wait for the bucket or for D0 (R41). -/
def outputBytes (t : Ticket) (who off : Nat) (b : List Byte) (s : State) : Bool × State :=
  match t.origin with
  | .dolid _ txid => (true, modTxn t.iid txid (fun r => { r with out := writeWin r.out off b }) s)
  | .handshake _ | .seal _ => (true, s)
  | _ =>
    if b = [] then (true, s)
    else if s.pcie.d3hot then (false, s)
    else
      let r := pcieBucket t.iid who b.length s
      if r.1 then (true, emit (.write (pasidOf s t) (t.outIova + BitVec.ofNat 64 off) b) r.2) else r

end Sys2Proof.Machine
end

