-- ==== Sys2Proof/Machine/Hash.lean ====
section
/-!
DEFINITION. The hash engines (R224–R230).
-/
namespace Sys2Proof.Machine

open Sys2Proof

def hashEng (s : State) (c e : Nat) : HashEng := Table.get {} s.hash (2 * c + e)
def setHashEng (c e : Nat) (g : HashEng) (s : State) : State := { s with hash := Table.set {} s.hash (2 * c + e) g }
def HashEng.at (g : HashEng) (k : Nat) : HashCtx := Table.get {} g.ctx k
def HashEng.setCtx (g : HashEng) (k : Nat) (x : HashCtx) : HashEng := { g with ctx := Table.set {} g.ctx k x }

/-- SHAKE128 and SHAKE256 of engine 0. -/
def isShake (e alg : Nat) : Bool := e == 0 && 4 ≤ alg

/-- Digest length in bytes; 0 for SHAKE (R223, R225). -/
def digestLen (e alg : Nat) : Nat := if isShake e alg then 0 else ([28, 32, 48, 64, 28, 32]).getD alg 0

/-- Output byte of a hash function: the digest, or SHAKE output. -/
def hashByte (e alg : Nat) (m : List Byte) (k : Nat) : Byte :=
  if e = 0 ∧ alg = 1 then Config.sha3 m k else Config.hashOut e alg m k

/-- The phase that a command asks for (R226). -/
def phaseAllows (e op : Nat) (x : HashCtx) : Bool :=
  match op with
  | 2 | 3 => x.phase == .absorbing
  | 4 => x.phase == .squeezing && isShake e x.alg
  | _ => true

/-- What a command leaves of phases and algorithms (R226). -/
def phaseAfter (e : Nat) (q : HashCmd) (t : Table HashCtx) : Table HashCtx :=
  let x := Table.get {} t q.ctx
  match q.op with
  | 1 => Table.set {} t q.ctx { alg := q.alg, phase := .absorbing }
  | 3 => Table.set {} t q.ctx { x with phase := if isShake e x.alg then .squeezing else .idle }
  | 5 => Table.set {} t q.ctx {}
  | 6 => Table.set {} t (q.out % 4) x
  | _ => t

/-- The contexts as the core's outstanding commands will leave them, as far as the checks go. -/
def ctxView (e : Nat) (g : HashEng) : Table HashCtx := g.queue.foldl (fun t q => phaseAfter e q t) g.ctx

/-- Bytes a command writes to HE_DST. -/
def hashOutLen (e : Nat) (q : HashCmd) (x : HashCtx) : Nat :=
  match q.op with
  | 3 => digestLen e x.alg
  | 4 | 7 => q.out
  | 5 => if isShake e q.alg then q.out else digestLen e q.alg
  | _ => 0

/-- OUT is out of range for the command: RANDOM takes 1–256, COPY a context number. -/
def outBad (e : Nat) (q : HashCmd) : Bool :=
  (q.op == 7 && (q.out == 0 || 256 < q.out)) || (q.op == 6 && 4 ≤ q.out)
    || ((q.op == 4 || (q.op == 5 && isShake e q.alg)) && 4194304 < q.out)

/-- Permutation units of engine 0, compression units of engine 1 (R224). -/
def hashUnits (e : Nat) : Nat := if e = 0 then 2 else 4

/-- The free units of hash engine e of ring r take the next cores' oldest commands (R229). A RANDOM command needs a unit only once its
DRBG output is there (assumption 106). -/
def heServe (r e : Nat) (s : State) : State :=
  let t := hashTurn s r e
  let head (y : Nat) : Option HashCmd := (hashEng s (16 * r + y) e).queue.head?
  let next (y : Nat) : Option Nat := (head y).bind (fun q =>
    if q.op = 7 ∧ (drbgAnswer s (.hash (16 * r + y) e)).isNone then none else some y)
  let u := { t with busy := t.busy.filter (fun y => (head y).isSome) }.serve (hashUnits e) next (fun y => y)
  if u = t then s else setHashTurn r e u s

/-- A store to HE_CMD (R226, R227). Where both ranges fail, TRAPVAL is the source's failing address, which R227 names first (DESIGN CHOICE,
assumption 107). -/
def heCommand (c e : Nat) (v : W64) (s : State) : WRes :=
  let g := hashEng s c e
  let m := v.toNat
  let q : HashCmd := { op := field m 0 4, ctx := field m 12 2, alg := field m 8 4, src := g.src.toNat, dst := g.dst.toNat,
                       len := g.len.toNat, out := field g.aux.toNat 0 32, pr := bit g.aux 32 }
  let x := Table.get {} (ctxView e g) q.ctx
  let reads : Bool := q.op == 2 || q.op == 5
  let out := hashOutLen e q x
  let bad : Bool := field m 14 50 != 0 || field m 4 4 != 0 || q.op == 0 || 7 < q.op || 5 < q.alg
    || (q.alg != 0 && q.op != 1 && q.op != 5) || (q.op == 7 && e == 1) || outBad e q || !phaseAllows e q.op x
  -- no range above 4 MiB is readable: it fails within its first bytes above that
  let n := min q.len 4194305
  let share : Bool := reads && shareRange s c q.src n
  if share then .exc cTagged 0
  else if bad then .exc cAccess 0
  else
    -- an empty range has no failing address
    match (if reads ∧ n ≠ 0 then rangePlace s c q.src n false else .ok (.loc c 0)), rangePlace s c q.dst out true with
    | .error a, _ => .exc cAccess a
    | .ok _, d =>
      match (if out = 0 then none else match d with
        | .error a => some a
        | .ok _ => none) with
      | some a => .exc cAccess a
      | none =>
        if 4 ≤ g.queue.length then .stall
        else .ok (heServe (ringOf c) e (openGate (unitEngine (ringOf c) (4 + e)) (setHashEng c e { g with queue := g.queue ++ [q] } s)))

/-- A store to a register of the window; `t` is the data register's tag (R225). -/
def heWrite (c e off : Nat) (v : W64) (t : Tag) (s : State) : WRes :=
  let g := hashEng s c e
  if t ≠ .pub then .exc cTagged 0
  else
    match off with
    | 0x00 => .ok (setHashEng c e { g with src := v } s)
    | 0x08 => .ok (setHashEng c e { g with dst := v } s)
    | 0x10 => .ok (setHashEng c e { g with len := v } s)
    | 0x18 => .ok (setHashEng c e { g with aux := v &&& 0x1FFFFFFFF } s)
    | 0x20 => heCommand c e v s
    | 0x28 => .ok s
    | _ => .exc cAccess (BitVec.ofNat 64 (0x8040000 + 0x10000 * e + off))

/-- HE_STAT as read. -/
def HashEng.stat (g : HashEng) : Nat := pack [(g.done % 2 ^ 32, 32), (g.queue.length, 8), (b2n g.notReady, 0)]

/-- A load from the window; none where no register lies. -/
def heRead (c e off : Nat) (s : State) : Option W64 :=
  let g := hashEng s c e
  match off with
  | 0x00 => some g.src
  | 0x08 => some g.dst
  | 0x10 => some g.len
  | 0x18 => some g.aux
  | 0x20 => some 0
  | 0x28 => some (BitVec.ofNat 64 g.stat)
  | _ => none

/-- The row of one OP: a word of another OP is not this row's (assumption 7). -/
def heRow (op c e : Nat) (v : W64) (s : State) : State :=
  if e < 2 ∧ field v.toNat 0 4 = op then windowRow c (heCommand c e v) s else s

def execHeInit (c e : Nat) (v : W64) (s : State) : Out := .next (heRow 1 c e v s)
def execHeAbsorb (c e : Nat) (v : W64) (s : State) : Out := .next (heRow 2 c e v s)
def execHeFinal (c e : Nat) (v : W64) (s : State) : Out := .next (heRow 3 c e v s)
def execHeSqueeze (c e : Nat) (v : W64) (s : State) : Out := .next (heRow 4 c e v s)
def execHeHash (c e : Nat) (v : W64) (s : State) : Out := .next (heRow 5 c e v s)
def execHeCopy (c e : Nat) (v : W64) (s : State) : Out := .next (heRow 6 c e v s)
def execHeRandom (c e : Nat) (v : W64) (s : State) : Out := .next (heRow 7 c e v s)

/-- Bytes of engine k of the ring to a destination that the command's checks have passed. -/
def engineWrite (c k dst : Nat) (b : List Byte) (t : Tag) (s : State) : State :=
  match rangePlace s c dst b.length true with
  | .ok p => bankWrite (enginePort k) p b t (dropOld c p b.length s)
  | .error _ => s

/-- The bytes of a source and the join of its lines' tags, as the engine sees them (R109). -/
def engineRead (s : State) (c src n : Nat) : List Byte × Tag :=
  match rangePlace s c src n false with
  | .ok p => (readBytes (seenBeside s c) p n, tagOver (seenBeside s c) p n)
  | .error _ => ([], .pub)

/-- The command at the head of the queue is performed (R226, R228); none while RANDOM waits for DRBG output. -/
def hePerform (c e : Nat) (q : HashCmd) (s : State) : Option State :=
  let g := hashEng s c e
  let x := g.at q.ctx
  let put (y : HashCtx) (s : State) : State := setHashEng c e ((hashEng s c e).setCtx q.ctx y) s
  match q.op with
  | 1 => some (put { alg := q.alg, phase := .absorbing } s)
  | 2 =>
    let r := engineRead s c q.src q.len
    some (put { x with msg := x.msg ++ r.1, tag := (x.tag.lineJoin r.2).plain } s)
  | 3 =>
    if isShake e x.alg then some (put { x with phase := .squeezing, squeezed := 0 } s)
    else some (engineWrite c (4 + e) q.dst (bytesFrom (hashByte e x.alg x.msg) (digestLen e x.alg)) x.tag (put { tag := x.tag } s))
  | 4 =>
    some (engineWrite c (4 + e) q.dst (bytesFrom (fun k => hashByte e x.alg x.msg (x.squeezed + k)) q.out) x.tag
      (put { x with squeezed := x.squeezed + q.out } s))
  | 5 =>
    let r := engineRead s c q.src q.len
    some (engineWrite c (4 + e) q.dst (bytesFrom (hashByte e q.alg r.1) (hashOutLen e q x)) r.2.plain (put { tag := r.2.plain } s))
  | 6 => some (setHashEng c e (g.setCtx (q.out % 4) x) s)
  | _ =>
    match drbgAnswer s (.hash c e) with
    | none => none
    | some a =>
      let s := drbgCancel (.hash c e) s
      match a with
      | some b =>
        let b := padTo (b.take q.out) q.out
        some (engineWrite c (4 + e) q.dst b .secret (setHashEng c e { g with notReady := false, drawn := b, drawnPr := q.pr } s))
      | none => some (setHashEng c e { g with notReady := true, drawn := [] } s)

/-- HE_CMD_DONE: the command of the core that a unit of the engine executes completes (R229). -/
def execHeCmdDone (c e : Nat) (s : State) : Out :=
  .next (unlessLocked (fun s =>
    let s := heServe (ringOf c) e s
    match (hashEng s c e).queue with
    | [] => s
    | q :: r =>
      if (hashTurn s (ringOf c) e).busy.contains (c % 16) = false then s
      else
        match (if e < 2 then hePerform c e q s else none) with
        | none => s
        | some s =>
          let g := hashEng s c e
          let t := hashTurn s (ringOf c) e
          let s := setHashTurn (ringOf c) e { t with busy := t.busy.filter (fun y => y != c % 16) } s
          raiseEvent c (5 + e) (heServe (ringOf c) e (setHashEng c e { g with queue := r, done := g.done + 1 } s))) s)

end Sys2Proof.Machine
end

