-- ==== Sys2Proof/Machine/Curves.lean ====
section
/-!
DEFINITION. The curves of R241 and the arithmetic that the acts of chapter 9 run on them (R243, R246, R247, R249): modular powers, short-
Weierstrass points (SP 800-186, FIPS 186-5), Edwards points and EdDSA (RFC 8032), the Montgomery functions (RFC 7748).
-/
namespace Sys2Proof.Machine

open Sys2Proof

/-! ### Domain-parameter objects -/

/-- The curve of a domain-parameter object (R242). -/
def objectCurve (o : List Byte) : WCurve :=
  let l := byteAt o 0
  let f (k : Nat) : Nat := bigEndian (slice o (1 + l * k) l)
  { p := f 0, a := f 1, b := f 2, gx := f 3, gy := f 4, n := bigEndian (slice o (1 + 5 * l) (l + 1)), h := byteAt o (2 + 6 * l) }

/-- A CURVE code's curve; 0x80 has a loaded one. -/
def curveByCode (k : Nat) (object : List Byte) : Option WCurve :=
  match k with
  | 1 => some p256
  | 2 => some p384
  | 3 => some p521
  | 0x80 => if object = [] then none else some (objectCurve object)
  | _ => none

/-- Checks 1–8 of a loaded curve, in order: the first that fails (R243). -/
def WCurve.fails (c : WCurve) (base : Nat → Nat) : Option Nat :=
  let p := c.p
  if primePasses p base = false then some 1
  else if (4 * c.a * c.a * c.a + 27 * c.b * c.b) % p = 0 then some 2
  else if c.on c.gx c.gy = false then some 3
  else if primePasses c.n (fun k => base (64 + k)) = false then some 4
  else if c.mul c.n c.gen ≠ none then some 5
  else if c.h = 0 ∨ 8 < c.h ∨ 4 * p < (c.h * c.n - (p + 1)) ^ 2 ∨ 4 * p < ((p + 1) - c.h * c.n) ^ 2 then some 6
  else if c.n = p then some 7
  else if (List.range 20).any (fun k => powMod c.n p (k + 1) == 1) then some 8
  else none

/-! ### Edwards curves -/

/-- ax² + y² = 1 + dx²y², base point, its order, bytes of an encoding. -/
structure ECurve where
  p : Nat
  a : Nat
  d : Nat
  bx : Nat
  bY : Nat
  order : Nat
  len : Nat
  deriving DecidableEq, Repr

def ed25519 : ECurve :=
  let p := 2 ^ 255 - 19
  { p := p, a := p - 1, d := subMod p 0 (121665 * invMod p 121666)
    bx := 15112221349535400772501151409588531511454012693041857206046113283949847762202
    bY := 4 * invMod p 5 % p
    order := 2 ^ 252 + 27742317777372353535851937790883648493
    len := 32 }
def ed448 : ECurve :=
  let p := 2 ^ 448 - 2 ^ 224 - 1
  { p := p, a := 1, d := p - 39081
    bx := 224580040295924300187604334099896036246789641632564134246125461686950415467406032909029192869357953282578032075146446173674602635247710
    bY := 298819210078481492676017930443930673437544040154080242095928241372331506189835876003536878655418784733982303233503462500531545062832660
    order := 2 ^ 446 - 13818066809895115352007386748515426880336692474882178609894547503885
    len := 57 }

def ECurve.add (c : ECurve) (u v : Nat × Nat) : Nat × Nat :=
  let t := c.d * (u.1 * v.1 % c.p) % c.p * (u.2 * v.2 % c.p) % c.p
  ((u.1 * v.2 + u.2 * v.1) % c.p * invMod c.p ((1 + t) % c.p) % c.p,
   subMod c.p (u.2 * v.2) (c.a * (u.1 * v.1 % c.p)) * invMod c.p (subMod c.p 1 t) % c.p)
def ECurve.mul (c : ECurve) (k : Nat) (u : Nat × Nat) : Nat × Nat :=
  (bitsDown (bitLen k) k).foldl (fun r t => let d := c.add r r; if t then c.add d u else d) (0, 1)
def ECurve.base (c : ECurve) : Nat × Nat := (c.bx, c.bY)

def ECurve.encode (c : ECurve) (u : Nat × Nat) : List Byte := bytesOf (u.2 + u.1 % 2 * 2 ^ (8 * c.len - 1)) c.len
/-- A point's decoding: y below p, x a root of the curve equation with the sign bit's parity. -/
def ECurve.decode (c : ECurve) (l : List Byte) : Option (Nat × Nat) :=
  let v := natOf l
  let y := v % 2 ^ (8 * c.len - 1)
  let sign := v / 2 ^ (8 * c.len - 1) % 2
  if l.length ≠ c.len ∨ c.p ≤ y then none
  else
    match sqrtMod c.p (subMod c.p 1 (y * y) * invMod c.p (subMod c.p c.a (c.d * (y * y % c.p)))) with
    | none => none
    | some x => if x = 0 ∧ sign = 1 then none else some (if x % 2 = sign then x else c.p - x, y)

/-- "SigEd25519 no Ed25519 collisions" and "SigEd448". -/
def domLabel (len : Nat) : List Byte :=
  if len = 32 then
    [0x53, 0x69, 0x67, 0x45, 0x64, 0x32, 0x35, 0x35, 0x31, 0x39, 0x20, 0x6E, 0x6F, 0x20, 0x45, 0x64]
    ++ [0x32, 0x35, 0x35, 0x31, 0x39, 0x20, 0x63, 0x6F, 0x6C, 0x6C, 0x69, 0x73, 0x69, 0x6F, 0x6E, 0x73]
  else [0x53, 0x69, 0x67, 0x45, 0x64, 0x34, 0x34, 0x38]
/-- dom2 and dom4 of RFC 8032 by MODE: pure (Ed25519 has none), with a context, of a prehash. -/
def ECurve.dom (c : ECurve) (mode : Nat) (ctx : List Byte) : List Byte :=
  if c.len = 32 ∧ mode = 0 then [] else domLabel c.len ++ [BitVec.ofNat 8 (mode / 2), BitVec.ofNat 8 ctx.length] ++ ctx

/-- SHA-512 of Ed25519, SHAKE256 with 114 bytes of Ed448. -/
def ECurve.hash (c : ECurve) (m : List Byte) : List Byte :=
  if c.len = 32 then bytesFrom (hashByte 1 3 m) 64 else bytesFrom (hashByte 0 5 m) 114

/-- The clamped scalar of RFC 7748 and RFC 8032: 32 bytes, or 56 and 57. -/
def clamp (small : Bool) (v : Nat) : Nat :=
  if small then v % 2 ^ 254 / 8 * 8 + 2 ^ 254 else v % 2 ^ 447 / 4 * 4 + 2 ^ 447

def ECurve.secret (c : ECurve) (key : List Byte) : Nat := clamp (c.len == 32) (natOf ((c.hash key).take c.len))
def ECurve.publicKey (c : ECurve) (key : List Byte) : List Byte := c.encode (c.mul (c.secret key) c.base)

def ECurve.sign (c : ECurve) (mode : Nat) (key ctx m : List Byte) : List Byte :=
  let a := c.secret key
  let pub := c.publicKey key
  let dom := c.dom mode ctx
  let r := natOf (c.hash (dom ++ (c.hash key).drop c.len ++ m)) % c.order
  let big := c.encode (c.mul r c.base)
  let k := natOf (c.hash (dom ++ big ++ pub ++ m)) % c.order
  big ++ bytesOf ((r + k * a) % c.order) c.len
/-- The cofactored equation [8][S]B = [8]R + [8][k]A (R246); R not decodable or S ≥ L fails. -/
def ECurve.verify (c : ECurve) (mode : Nat) (pub : List Byte) (ctx m sig : List Byte) : Bool :=
  let k := natOf (c.hash (c.dom mode ctx ++ sig.take c.len ++ pub ++ m)) % c.order
  let v := natOf (sig.drop c.len)
  match c.decode pub, c.decode (sig.take c.len) with
  | some a, some r =>
    decide (v < c.order) && c.mul (8 * v) c.base == c.add (c.mul 8 r) (c.mul (8 * k) a)
  | _, _ => false

/-! ### Montgomery functions -/

/-- One step of the ladder of RFC 7748. -/
def ladderStep (p a24 u : Nat) (x₂ z₂ x₃ z₃ : Nat) : Nat × Nat × Nat × Nat :=
  let a := (x₂ + z₂) % p
  let b := subMod p x₂ z₂
  let aa := a * a % p
  let bb := b * b % p
  let e := subMod p aa bb
  let da := subMod p x₃ z₃ * a % p
  let cb := (x₃ + z₃) % p * b % p
  (aa * bb % p, e * ((aa + a24 * e) % p) % p, (da + cb) % p * ((da + cb) % p) % p, u * (subMod p da cb * subMod p da cb % p) % p)

/-- X25519 of 32-byte operands, X448 of 56-byte operands. -/
def montgomery (small : Bool) (key peer : List Byte) : List Byte :=
  let p := if small then 2 ^ 255 - 19 else 2 ^ 448 - 2 ^ 224 - 1
  let a24 := if small then 121665 else 39081
  let u := natOf peer % (if small then 2 ^ 255 else 2 ^ 448) % p
  let k := clamp small (natOf key)
  let r := (bitsDown (if small then 255 else 448) k).foldl (fun q t =>
    if t then let w := ladderStep p a24 u q.2.2.1 q.2.2.2 q.1 q.2.1; (w.2.2.1, w.2.2.2, w.1, w.2.1)
    else ladderStep p a24 u q.1 q.2.1 q.2.2.1 q.2.2.2) ((1 % p, 0, u, 1 % p) : Nat × Nat × Nat × Nat)
  bytesOf (r.1 * invMod p r.2.1 % p) (if small then 32 else 56)

/-- The public key of a private key on the curve of a code: Edwards, else Montgomery from the base point 9 or 5. -/
def rawPublic (code : Nat) (key : List Byte) : List Byte :=
  match code with
  | 0x10 => ed25519.publicKey key
  | 0x11 => ed448.publicKey key
  | 0x20 => montgomery true key (bytesOf 9 32)
  | _ => montgomery false key (bytesOf 5 56)

end Sys2Proof.Machine
end

