-- ==== Sys2Proof/Machine/BlockCipher.lean ====
section
/-!
DEFINITION. The block-cipher engines (R260–R266), PIN blocks (R269–R271), MACs (R275), key wrapping and unwrapping (R277, R280).
-/
namespace Sys2Proof.Machine

open Sys2Proof

def bcEng (s : State) (c e : Nat) : BcEng := Table.get {} s.bc (2 * c + e)
def setBcEng (c e : Nat) (g : BcEng) (s : State) : State := { s with bc := Table.set {} s.bc (2 * c + e) g }
def krAt (t : Table (Option KeyReg)) (k : Nat) : Option KeyReg := Table.get none t k

/-- The engine has the key's algorithm: 0 AES, 1 TDES (R260, R262). -/
def engineHas (e alg : Nat) : Bool := if e = 0 then alg == 2 || alg == 3 || alg == 5 else alg == 0 || alg == 1 || alg == 4

def blockBytes (e : Nat) : Nat := if e = 0 then 16 else 8

/-- Key length by ALG; an undisclosed length is the longest of its algorithm (R277). -/
def algLen (alg : Nat) : Nat := ([16, 24, 16, 32, 24, 32]).getD alg 32

def isTdes (alg : Nat) : Bool := alg == 0 || alg == 1 || alg == 4

/-- ALG of a key store word of family 0x20 or 0x21 (R286). -/
def algOfAttr (a : W64) : Option Nat :=
  if attrFamily a = 0x20 then (if attrSet a ≤ 1 then some (attrSet a) else none)
  else if attrFamily a = 0x21 then (if attrSet a = 2 ∨ attrSet a = 3 then some (attrSet a) else none)
  else none

/-- TDES or AES of a key word; its strength in bits, an undisclosed length as the longest (R277). -/
def keyIsTdes (a : W64) : Bool := attrFamily a == 0x20
def keyIsAes (a : W64) : Bool := attrFamily a == 0x21
def keyStrength (a : W64) : Nat :=
  if keyIsTdes a then (if attrSet a = 0 then 80 else 112) else if attrSet a = 2 then 128 else 256

/-! ### Key-block headers (R278) -/

def ascii (n : Nat) (l : List Byte) (k : Nat) : Bool := (l.getD k 0).toNat == n
def digits (l : List Byte) : Option Nat :=
  if l.all (fun d => 0x30 ≤ d.toNat && d.toNat ≤ 0x39) then some (l.foldl (fun n d => 10 * n + (d.toNat - 0x30)) 0) else none

/-- A hexadecimal digit of an optional block's length (upper case). -/
def hexDigit (d : Byte) : Option Nat :=
  let n := d.toNat
  if 0x30 ≤ n ∧ n ≤ 0x39 then some (n - 0x30) else if 0x41 ≤ n ∧ n ≤ 0x46 then some (n - 0x37) else none

/-- Optional blocks: `left` of them from a place on, each an ID of two printable characters and a length; the place after them. -/
def optionalEnd (l : List Byte) : Nat → Nat → Option Nat
  | 0, at_ => some at_
  | left + 1, at_ =>
    let printable (k : Nat) : Bool := 0x21 ≤ (l.getD (at_ + k) 0).toNat && (l.getD (at_ + k) 0).toNat ≤ 0x7E
    match hexDigit (l.getD (at_ + 2) 0), hexDigit (l.getD (at_ + 3) 0) with
    | some a, some b =>
      let n := 16 * a + b
      if printable 0 && printable 1 && decide (4 ≤ n) && decide (at_ + n ≤ l.length) then optionalEnd l left (at_ + n) else none
    | _, _ => none

/-- The usage and mode of use are accepted (R278). -/
def headerUsage (l : List Byte) : Bool :=
  let u0 := (l.getD 5 0).toNat
  let u1 := (l.getD 6 0).toNat
  let mode := (l.getD 8 0).toNat
  let edb : Bool := mode == 0x45 || mode == 0x44 || mode == 0x42
  (u0 == 0x50 && u1 == 0x30 && edb)
    || (u0 == 0x4D && (u1 == 0x31 || u1 == 0x33 || u1 == 0x36) && (mode == 0x47 || mode == 0x56 || mode == 0x43))
    || (u0 == 0x44 && u1 == 0x30 && edb)
    || (u0 == 0x4B && (u1 == 0x30 || u1 == 0x31) && edb)
    || (u0 == 0x42 && u1 == 0x30 && mode == 0x58)

/-- The 16-byte header and the optional blocks are present and correct. -/
def headerOk (format : Nat) (l : List Byte) : Bool :=
  decide (16 ≤ l.length) && ascii (if format = 1 then 0x42 else if format = 2 then 0x43 else 0x44) l 0
    && digits (slice l 1 4) == some l.length
    && headerUsage l && (ascii 0x54 l 7 || ascii 0x41 l 7)
    && ascii 0x30 l 14 && ascii 0x30 l 15
    && (match digits (slice l 12 2) with
      | some n => decide (n ≤ 9) && (optionalEnd l n 16).isSome
      | none => false)

/-- The header's key is AES; strength of the wrapped key, its length undisclosed. -/
def headerAes (l : List Byte) : Bool := ascii 0x41 l 7
def headerStrength (l : List Byte) : Nat := if headerAes l then 256 else 112

/-! ### What a key block declares (R278, R280) -/

/-- USAGE codes of a key register that a header's usage and mode of use name; 7 is DUKPT base (R262, R278). -/
def headerCodes (l : List Byte) : List Nat :=
  let mode := (l.getD 8 0).toNat
  match (l.getD 5 0).toNat with
  | 0x50 => [1]
  | 0x4D => if mode = 0x47 then [2] else if mode = 0x56 then [3] else [2, 3]
  | 0x44 => if mode = 0x45 then [4] else if mode = 0x44 then [5] else [4, 5]
  | 0x4B => [6]
  | 0x42 => [7]
  | _ => []
/-- Those that an attribute word's permissions name. -/
def wordCodes (a : W64) : List Nat := if bit a 46 then [7] else (List.range 6).filter (fun j => bit a (40 + j)) |>.map (fun j => j + 1)

/-- One of the codes; a register has a single USAGE, and the manual does not say which of several it takes (assumption 56). -/
def pickCode (codes : List Nat) (b : List Byte) : Nat :=
  if codes = [] then Config.blockUsage b % 7 else codes.getD (Config.blockUsage b % codes.length) 0

/-- What KS takes from UNWRAP besides the key: by the header, its length undisclosed and its exportability E or S, or under KWP by the
attribute word (R262, R265, R279). -/
def unwrapLoad (mode : Nat) (b : List Byte) (word : W64) : KeyReg :=
  let u := pickCode (if mode = 8 then wordCodes word else headerCodes b) b
  { alg := if mode = 8 then (algOfAttr word).getD (Config.blockUsage b % 6) else if headerAes b then 5 else 4
    usage := u, kind := if u = 7 then 1 else 0
    exportable := mode != 8 && (ascii 0x45 b 11 || ascii 0x53 b 11) }

/-- The length of a block's key is one that the header, or under KWP the attribute word, declares (R280). -/
def declaredLen (mode alg n : Nat) : Bool :=
  if mode = 8 then n == algLen alg else if isTdes alg then n == 16 || n == 24 else n == 16 || n == 32

/-! ### Issue checks (R264) -/

/-- OP, MODE and PARAM are defined for the engine (R262, R263). -/
def bcDefined (e op mode param : Nat) : Bool :=
  let fmt : Bool := if e = 1 then param == 0 || param == 1 || param == 3 else param == 4
  match op with
  | 1 | 2 => mode == 0 && param == 0
  | 3 => (if e = 1 then mode == 0 else mode == 1 || mode == 2) && 1 ≤ param && param ≤ 5
  | 4 | 5 => mode ≤ 1 && param == 0
  | 6 => (mode ≤ 1 || mode == 4 || (e == 1 && mode ≤ 3)) && param < blockBytes e
  | 7 | 9 => mode == 0 && fmt
  | 8 => mode ≤ 1 && fmt
  | 10 => param == 0 && (if e = 1 then mode == 1 else mode == 3 || mode == 8)
  | 11 => param == 0 && (if e = 1 then mode == 1 || mode == 2 else mode == 3 || mode == 8)
  | _ => false

/-- KR and KS are fit for the command. -/
def bcKeysOk (e op param : Nat) (kr ks : Option KeyReg) : Bool :=
  let usesKr : Bool := 4 ≤ op
  let usesKs : Bool := op == 3 || op == 10
  let fits : Bool := match kr with
    | none => !usesKr
    | some k => op == 3 || op == 10 || (engineHas e k.alg && k.kind == 0)
  let source : Bool := match ks with
    | none => !usesKs
    | some k => op != 3 || (k.kind == 1 && k.usage == param)
  fits && source

/-- Bytes read at BC_SRC and BC_AUX and written to BC_DST. -/
def bcSrcLen (e : Nat) (q : BcCmd) : Nat :=
  match q.op with
  | 4 | 5 | 6 | 10 | 11 => q.len
  | 7 | 9 => blockBytes e
  | 8 => if q.mode = 0 then blockBytes e else 16
  | _ => 0
def bcAuxLen (e : Nat) (q : BcCmd) : Nat :=
  match q.op with
  | 3 => if q.mode = 0 then 10 else 12
  | 4 | 5 => if q.mode = 1 then blockBytes e else 0
  | 7 | 9 => if q.param = 4 then 32 else 0
  | 8 => 32
  | _ => 0

/-- Length of the wrapped key (R277). -/
def wrapLen (mode alg header : Nat) : Nat :=
  match mode with
  | 1 => header + (if isTdes alg then 80 else 96)
  | 3 => header + (if isTdes alg then 96 else 128)
  | _ => algLen alg + 8

def bcDstLen (e : Nat) (q : BcCmd) (ks : Option KeyReg) : Nat :=
  match q.op with
  | 4 | 5 => q.len
  | 6 => q.param + 1
  | 7 | 9 => blockBytes e
  | 8 => if q.mode = 0 then 16 else blockBytes e
  | 10 => wrapLen q.mode ((ks.map (fun k => k.alg)).getD 0) q.len
  | 11 => 32
  | _ => 0

/-- The grant of a key copy that starts at the address. -/
def keyGrantAt (s : State) (c a : Nat) : Option Grant :=
  (core s c).grants.find? (fun g => g.key && !g.staging && g.base == a && (1 ≤ g.usage.toNat && g.usage.toNat ≤ 8))

/-- A range of n bytes at a fails at this address. -/
def rangeFails (s : State) (c a n : Nat) (write : Bool) : Option W64 :=
  if n = 0 then none
  else match rangePlace s c a n write with
    | .ok _ => none
    | .error x => some x

/-- What the register that LDKEY, DERIVE or UNWRAP loads takes besides its key. -/
def bcLoad (s : State) (c : Nat) (q : BcCmd) : Option KeyReg :=
  match q.op with
  | 1 => (keyGrantAt s c q.src).bind (fun g => (algOfAttr g.attr).map (fun a =>
      { alg := a, usage := if g.usage.toNat = 8 then 0 else g.usage.toNat, kind := g.kind }))
  | 3 => some { alg := ([0, 2, 3]).getD q.mode 0, usage := q.param }
  | 11 =>
    let word : W64 := match ticketOn s c with
      | some t => BitVec.ofNat 64 (t.num 56 8)
      | none => 0
    some (unwrapLoad q.mode (engineRead s c q.src q.len).1 word)
  | _ => none

/-- The registers after a command, as far as the checks go. -/
def bcView (q : BcCmd) (t : Table (Option KeyReg)) : Table (Option KeyReg) :=
  match q.op with
  | 1 | 3 => Table.set none t q.kr q.load
  | 2 => Table.set none t q.kr none
  | 11 => Table.set none t q.ks q.load
  | _ => t

/-- A store to BC_CMD (R264). -/
def bcCommand (c e : Nat) (v : W64) (s : State) : WRes :=
  let g := bcEng s c e
  let n := v.toNat
  let q : BcCmd := { op := field n 0 4, kr := field n 8 2, ks := field n 12 2, mode := field n 16 4, param := field n 20 4,
                     src := g.src.toNat, dst := g.dst.toNat, len := g.len.toNat, aux := g.aux.toNat }
  let kr := krAt g.view q.kr
  let ks := krAt g.view q.ks
  let lenBad : Bool := match q.op with
    | 4 | 5 => q.len % blockBytes e != 0 || 4194304 < q.len
    | 7 | 8 | 9 => q.len != 0
    | 6 | 10 | 11 => decide (4194304 < q.len)
    | _ => false
  if bcSrcLen e q ≤ 4194304 ∧ shareRange s c q.src (bcSrcLen e q) then .exc cTagged 0
  else if field n 4 4 ≠ 0 ∨ field n 10 2 ≠ 0 ∨ field n 14 2 ≠ 0 ∨ field n 24 40 ≠ 0 ∨ bcDefined e q.op q.mode q.param = false
      ∨ bcKeysOk e q.op q.param kr ks = false ∨ lenBad then .exc cAccess 0
  else
    let source := if q.op = 1 then (if (keyGrantAt s c q.src).isSome then none else some g.src)
      else rangeFails s c q.src (bcSrcLen e q) false
    match source, rangeFails s c q.aux (bcAuxLen e q) false, rangeFails s c q.dst (bcDstLen e q ks) true with
    | some a, _, _ => .exc cAccess a
    | none, some a, _ => .exc cAccess a
    | none, none, some a => .exc cAccess a
    | none, none, none =>
      let load := bcLoad s c q
      let foreign : Bool := q.op == 1 && (match load with
        | none => true
        | some k => !engineHas e k.alg && k.kind != 2)
      if foreign then .exc cAccess 0
      else if 4 ≤ g.queue.length then .stall
      else
        let q := { q with load := load }
        .ok (openGate (unitEngine (ringOf c) (6 + e)) (setBcEng c e { g with queue := g.queue ++ [q], view := bcView q g.view } s))

/-- A store to a register of the window: none is tag-accepting (R262). -/
def bcWrite (c e off : Nat) (v : W64) (t : Tag) (s : State) : WRes :=
  let g := bcEng s c e
  if t ≠ .pub then .exc cTagged 0
  else
    match off with
    | 0x00 => .ok (setBcEng c e { g with src := v } s)
    | 0x08 => .ok (setBcEng c e { g with dst := v } s)
    | 0x10 => .ok (setBcEng c e { g with len := v } s)
    | 0x18 => .ok (setBcEng c e { g with aux := v } s)
    | 0x20 => bcCommand c e v s
    | 0x28 | 0x30 => .ok s
    | _ => .exc cAccess (BitVec.ofNat 64 (0x8060000 + 0x10000 * e + off))

/-- BC_STAT and BC_KEYINFO as read. -/
def BcEng.stat (g : BcEng) : Nat := pack [(g.done % 2 ^ 32, 32), (g.queue.length, 8), (b2n g.notReady, 0)]
def keyInfo : Option KeyReg → Nat
  | none => 0
  | some k => pack [(1, 7), (k.alg, 4), (if k.kind = 1 then 7 else if k.kind = 2 then 8 else k.usage % 16, 0)]
def BcEng.keyInfo (g : BcEng) : Nat := (List.range 4).foldl (fun a k => a + Machine.keyInfo (krAt g.kr k) * 2 ^ (8 * k)) 0

/-- A load from the window; none where no register lies. -/
def bcRead (c e off : Nat) (s : State) : Option W64 :=
  let g := bcEng s c e
  match off with
  | 0x00 => some g.src
  | 0x08 => some g.dst
  | 0x10 => some g.len
  | 0x18 => some g.aux
  | 0x20 => some 0
  | 0x28 => some (BitVec.ofNat 64 g.stat)
  | 0x30 => some (BitVec.ofNat 64 g.keyInfo)
  | _ => none

/-- The row of one OP. -/
def bcRow (op c e : Nat) (v : W64) (s : State) : State :=
  if e < 2 ∧ field v.toNat 0 4 = op then windowRow c (bcCommand c e v) s else s

def execLdkey (c e : Nat) (v : W64) (s : State) : Out := .next (bcRow 1 c e v s)
def execClrkey (c e : Nat) (v : W64) (s : State) : Out := .next (bcRow 2 c e v s)
def execDerive (c e : Nat) (v : W64) (s : State) : Out := .next (bcRow 3 c e v s)
def execEnc (c e : Nat) (v : W64) (s : State) : Out := .next (bcRow 4 c e v s)
def execDec (c e : Nat) (v : W64) (s : State) : Out := .next (bcRow 5 c e v s)
def execBcMac (c e : Nat) (v : W64) (s : State) : Out := .next (bcRow 6 c e v s)
def execPindec (c e : Nat) (v : W64) (s : State) : Out := .next (bcRow 7 c e v s)
def execPinfmt (c e : Nat) (v : W64) (s : State) : Out := .next (bcRow 8 c e v s)
def execPinenc (c e : Nat) (v : W64) (s : State) : Out := .next (bcRow 9 c e v s)
def execWrap (c e : Nat) (v : W64) (s : State) : Out := .next (bcRow 10 c e v s)
def execUnwrap (c e : Nat) (v : W64) (s : State) : Out := .next (bcRow 11 c e v s)

/-! ### Modes of operation (R262, R263, R275) -/

def blockOp (enc : Bool) (e : Nat) (key b : List Byte) : List Byte := bytesFrom (Config.cipher enc e key b) (blockBytes e)

/-- The pieces of n bytes. -/
def chunks (n : Nat) (l : List Byte) : List (List Byte) := (List.range (l.length / n)).map (fun j => slice l (n * j) n)

def ecb (enc : Bool) (e : Nat) (key data : List Byte) : List Byte := ((chunks (blockBytes e) data).map (blockOp enc e key)).flatten

def cbcEnc (e : Nat) (key : List Byte) : List Byte → List (List Byte) → List Byte
  | _, [] => []
  | iv, b :: r =>
    let x := blockOp true e key (xorBytes iv b)
    x ++ cbcEnc e key x r
def cbcDec (e : Nat) (key : List Byte) : List Byte → List (List Byte) → List Byte
  | _, [] => []
  | iv, b :: r => xorBytes iv (blockOp false e key b) ++ cbcDec e key b r

/-- ISO 9797-1 padding method 1 or 2; under method 1 an empty message is one block of zeros. -/
def macPad (two : Bool) (n : Nat) (m : List Byte) : List Byte :=
  if two then padTo (m ++ [0x80]) (roundUp (m.length + 1) n) else padTo m (max n (roundUp m.length n))

/-- The chaining of a MAC under a block function. -/
def macChain (f : List Byte → List Byte) (n : Nat) (m : List Byte) : List Byte :=
  (chunks n m).foldl (fun h b => f (xorBytes h b)) (List.replicate n 0)

/-- MAC of a message by MODE, before it is cut to its length. -/
def bcMacOf (e mode : Nat) (key m : List Byte) : List Byte :=
  let n := blockBytes e
  let one (enc : Bool) (k b : List Byte) : List Byte := bytesFrom (Config.des enc k b) 8
  match mode with
  | 0 => macChain (blockOp true e key) n (macPad false n m)
  | 1 => macChain (blockOp true e key) n (macPad true n m)
  | 2 | 3 =>
    if key.length = 16 then
      one true (key.take 8) (one false (key.drop 8) (macChain (one true (key.take 8)) 8 (macPad (mode == 3) 8 m)))
    else bytesFrom (Config.macOpen key (macPad (mode == 3) 8 m)) 8
  | _ => bytesFrom (Config.cmac e key m) n

/-! ### PIN blocks (R269–R271) -/

def nibbles (l : List Byte) : List Nat := (l.map (fun b => [b.toNat / 16, b.toNat % 16])).flatten
def ofNibbles : List Nat → List Byte
  | a :: b :: r => BitVec.ofNat 8 (16 * a + b) :: ofNibbles r
  | _ => []

/-- The digits of a PAN record (R271); none of a record it does not describe. -/
def panDigits (l : List Byte) : Option (List Nat) :=
  match l with
  | n :: r =>
    let d := (r.take n.toNat).map (fun b => b.toNat)
    if 13 ≤ n.toNat ∧ n.toNat ≤ 19 ∧ d.all (fun x => decide (x ≤ 9)) then some d else none
  | [] => none

/-- PAN field of formats 0 and 3: the rightmost 12 digits but the check digit. -/
def panField0 (d : List Nat) : List Byte := ofNibbles ([0, 0, 0, 0] ++ (d.drop (d.length - 13)).take 12)
/-- PAN field of format 4. -/
def panField4 (d : List Nat) : List Byte := ofNibbles ((d.length - 12) :: d ++ List.replicate (31 - d.length) 0)

/-- PIN digits of a PIN record (R270). -/
def pinDigits (l : List Byte) : Option (List Nat) :=
  match l with
  | n :: r =>
    let d := (r.take n.toNat).map (fun b => b.toNat)
    if 4 ≤ n.toNat ∧ n.toNat ≤ 12 ∧ d.all (fun x => decide (x ≤ 9)) then some d else none
  | [] => none
def pinRecord (d : List Nat) : List Byte := padTo (BitVec.ofNat 8 d.length :: d.map (BitVec.ofNat 8)) 16

/-- A fill nibble that the format accepts. -/
def fillOk (fmt x : Nat) : Bool :=
  match fmt with
  | 0 => x == 15
  | 3 => decide (10 ≤ x)
  | 4 => x == 10
  | _ => true

/-- The digits of a well-formed clear PIN field (R269); of format 4 the first 16 nibbles count. -/
def parsePin (fmt : Nat) (x : List Byte) : Option (List Nat) :=
  match (nibbles x).take 16 with
  | ctl :: n :: r =>
    if ctl = fmt ∧ 4 ≤ n ∧ n ≤ 12 ∧ (r.take n).all (fun d => decide (d ≤ 9)) ∧ (r.drop n).all (fillOk fmt) then some (r.take n)
    else none
  | _ => none

/-- The clear PIN field of the digits, the PAN field not yet joined. -/
def buildPin (fmt : Nat) (d : List Nat) (drbg : List Byte) : List Byte :=
  let fill := (List.range (14 - d.length)).map (fun k =>
    match fmt with
    | 0 => 15
    | 4 => 10
    | 3 => 10 + Config.pinDraw 6 drbg k % 6
    | _ => Config.pinDraw 16 drbg k % 16)
  ofNibbles (fmt :: d.length :: d ++ fill)
    ++ (if fmt = 4 then (List.range 8).map (fun k => BitVec.ofNat 8 (Config.pinDraw 256 drbg k)) else [])

/-- Join with the PAN field, where the format has one in its clear form. -/
def withPan (fmt : Nat) (pan : List Nat) (x : List Byte) : List Byte := if fmt = 0 ∨ fmt = 3 then xorBytes x (panField0 pan) else x

/-- PINFMT (R270): parse or build. -/
def pinFormat (mode fmt : Nat) (src pan drbg : List Byte) : List Byte :=
  let bad : List Byte := bytesFrom (Config.pinOpen (16 * mode + fmt) src pan drbg) (if mode = 0 ∨ fmt = 4 then 16 else 8)
  match panDigits pan with
  | none => if fmt = 1 ∨ fmt = 4 then pinNoPan bad else bad
  | some d =>
    if mode = 0 then
      match parsePin fmt (withPan fmt d src) with
      | some x => pinRecord x
      | none => pinRecord ((List.range 4).map (fun k => Config.pinDraw 10 drbg k % 10))
    else
      match pinDigits src with
      | some x => withPan fmt d (buildPin fmt x drbg)
      | none => bad
where
  /-- Formats 1 and 4 do not use the PAN in their clear forms. -/
  pinNoPan (bad : List Byte) : List Byte :=
    if mode = 0 then
      match parsePin fmt src with
      | some x => pinRecord x
      | none => pinRecord ((List.range 4).map (fun k => Config.pinDraw 10 drbg k % 10))
    else
      match pinDigits src with
      | some x => buildPin fmt x drbg
      | none => bad

/-- PINDEC and PINENC: format 4 in two steps around the PAN field. -/
def pinCipher (enc : Bool) (e fmt : Nat) (key b pan : List Byte) : List Byte :=
  if fmt = 4 then
    match panDigits pan with
    | some d => blockOp enc e key (xorBytes (panField4 d) (blockOp enc e key b))
    | none => bytesFrom (Config.pinOpen (if enc then 9 else 7) key b pan) 16
  else blockOp enc e key b

/-! ### Completion (R263–R266, R280) -/

/-- The class of a result (R181, R265). -/
def bcClass (q : BcCmd) (kr ks : KeyReg) (src aux : Tag) : Tag :=
  let usage := kr.usage
  match q.op with
  | 4 => if usage = 4 ∧ src = .pub ∧ aux = .pub then .cipher else .secret
  | 5 => if usage = 5 ∧ src = .pub ∧ aux = .pub then .cipher else .secret
  | 6 => if (usage = 2 ∨ usage = 3) ∧ src = .pub then .cipher else .secret
  | 7 | 8 => if usage = 1 ∧ (src = .pub ∨ src = .pinf) ∧ aux = .pub then .pinf else .secret
  | 9 => if usage = 1 ∧ src = .pinf ∧ aux = .pub then .pinblk else .secret
  | 10 => if usage = 6 ∧ (ks.kind = 2 ∨ ks.exportable) ∧ src = .pub then .wrapped else .secret
  | _ => .secret

/-- The command at the head is performed; none while PINFMT waits for DRBG output. -/
def bcPerform (c e : Nat) (q : BcCmd) (s : State) : Option State :=
  let g := bcEng s c e
  let none' : KeyReg := { alg := 0, usage := 0 }
  let kr := (krAt g.kr q.kr).getD none'
  let ks := (krAt g.kr q.ks).getD none'
  let src := engineRead s c q.src (bcSrcLen e q)
  let aux := engineRead s c q.aux (bcAuxLen e q)
  let tag := bcClass q kr ks src.2 aux.2
  let put (k : Nat) (x : Option KeyReg) (s : State) : State :=
    let g := bcEng s c e
    setBcEng c e { g with kr := Table.set none g.kr k x } s
  let out (b : List Byte) (s : State) : State := engineWrite c (6 + e) q.dst b tag s
  match q.op with
  | 1 => some (put q.kr (q.load.map (fun k => { k with key := (engineRead s c q.src (algLen k.alg)).1 })) s)
  | 2 => some (put q.kr none s)
  | 3 => some (put q.kr (q.load.map (fun k => { k with
      key := bytesFrom (Config.dukpt q.mode ks.key aux.1 q.param) (algLen k.alg) })) s)
  | 4 => some (out (if q.mode = 0 then ecb true e kr.key src.1 else cbcEnc e kr.key aux.1 (chunks (blockBytes e) src.1)) s)
  | 5 => some (out (if q.mode = 0 then ecb false e kr.key src.1 else cbcDec e kr.key aux.1 (chunks (blockBytes e) src.1)) s)
  | 6 => some (out ((bcMacOf e q.mode kr.key src.1).take (q.param + 1)) s)
  | 7 => some (out (pinCipher false e q.param kr.key src.1 aux.1) s)
  | 8 =>
    match drbgAnswer s (.pinfmt c e) with
    | none => none
    | some a =>
      let s := drbgCancel (.pinfmt c e) s
      let s := setBcEng c e { g with notReady := a.isNone } s
      match a with
      | some b => some (out (pinFormat q.mode q.param src.1 aux.1 b) s)
      | none => some s
  | 9 => some (out (pinCipher true e q.param kr.key src.1 aux.1) s)
  | 10 =>
    let r := nextFresh s
    some (out (bytesFrom (Config.wrapKey q.mode kr.key ks.key ks.alg src.1 r.1) (bcDstLen e q (some ks))) r.2)
  | _ =>
    let r := nextFresh s
    let alg := (q.load.map (fun k => k.alg)).getD 0
    let n := Config.blockKeyLen q.mode kr.key src.1
    let key := if Config.blockOk q.mode kr.key src.1 && declaredLen q.mode alg n then bytesFrom (Config.blockKey q.mode kr.key src.1) n
      else bytesOf (Config.freeBits 256 r.1).toNat (if isTdes alg then 24 else 32)
    some (out (padTo key 32) (put q.ks (q.load.map (fun k => { k with key := key })) r.2))

/-- BC_CMD_DONE: the oldest command of the core on the engine completes (R264). -/
def execBcCmdDone (c e : Nat) (s : State) : Out :=
  .next (unlessLocked (fun s =>
    match (bcEng s c e).queue with
    | [] => s
    | q :: r =>
      match (if e < 2 then bcPerform c e q s else none) with
      | none => s
      | some s =>
        let g := bcEng s c e
        raiseEvent c (7 + e) (setBcEng c e { g with queue := r, done := g.done + 1 } s)) s)

end Sys2Proof.Machine
end

