-- ==== Sys2Proof/Machine/Vector.lean ====
section
/-!
DEFINITION. The vector instructions of Ilina-V outside memory and triples (R135–R139, R141, R148): arithmetic, modular
arithmetic, reductions, bit-sliced GF(2^m), and the predicate and move instructions.
-/
namespace Sys2Proof.Machine

open Sys2Proof

/-- The vector unit of core c. -/
def vec (s : State) (c : Nat) : VecUnit := (corex s c).vec
def setVec (c : Nat) (u : VecUnit) (s : State) : State := setCorex c { corex s c with vec := u } s

/-- The instruction writes vector and predicate registers only. -/
def retV (c : Nat) (x : Core) (s : State) (u : VecUnit) : IRes := .ok (setVec c u s) (x.pc + 4)

/-- Some element of the destination keeps its old value, so the old destination is a source (R178). -/
def keepsOld (pg : BitVec 128) (z : Bool) (cnt : Nat) : Bool := !z && !allActive pg cnt

/-! ### Opcodes 0x38 and 0x39 (R136) -/

/-- One element of funct f at width w; `none` for a funct that is not an element-wise one. -/
def vecElem (f w a b : Nat) : Option Nat :=
  let n := b % w
  match f with
  | 0x00 => some ((a + b) % 2 ^ w)
  | 0x01 => some ((a + 2 ^ w - b) % 2 ^ w)
  | 0x02 => some (a &&& b)
  | 0x03 => some (a ||| b)
  | 0x04 => some (a ^^^ b)
  | 0x05 => some (a &&& (2 ^ w - 1 - b))
  | 0x06 => some (a * 2 ^ n % 2 ^ w)
  | 0x07 => some (a / 2 ^ n)
  | 0x08 => some (unsigned w (signed w a / 2 ^ n))
  | 0x09 => some (a / 2 ^ n + a * 2 ^ (w - n) % 2 ^ w)
  | 0x0A => some (a * b % 2 ^ w)
  | 0x0B => some (a * b / 2 ^ w)
  | 0x0C => some (unsigned w (signed w a * signed w b / 2 ^ w))
  | 0x0E => some (min a b)
  | 0x0F => some (max a b)
  | 0x10 => some (if signed w a ≤ signed w b then a else b)
  | 0x11 => some (if signed w a ≤ signed w b then b else a)
  | 0x12 => some (if a ≤ b then b - a else a - b)
  | _ => none

def bodyVecAlu (c : Nat) (w : W32) (x : Core) (s : State) : IRes :=
  let u := vec s c
  let f := vFunct w
  let wd := ewBits (vEw w)
  let cnt := ewCount (vEw w)
  let pg := u.rp (vPg w)
  let tp := predTag (u.tagP (vPg w))
  let d := fD w
  let ra := u.rv (fA w)
  let ta := u.tagV (fA w)
  let scalarB := opcode w = 0x39
  let eb : Nat → Nat := fun e => if scalarB then (x.rg (fB w)).toNat % 2 ^ wd else elem (u.rv (fB w)) wd e
  let tb := if scalarB then x.tagG (fB w) else u.tagV (fB w)
  let old := if keepsOld pg (vZ w) cnt then [u.tagV d] else []
  let write (f : Nat → Nat) (t : Tag) : IRes := retV c x s (u.wv d (merge wd cnt pg (vZ w) (u.rv d) f) t)
  if f = 0x0D then
    -- VMULW: element e of pair d at width 2w
    if vEw w = 3 ∨ d % 2 ≠ 0 then .exc cIllegal 0
    else if ta.isShare ∨ tb.isShare then .exc cTagged 0
    else
      let half := cnt / 2
      let part (j : Nat) (o : BitVec 1024) : BitVec 1024 :=
        ofElems 1024 (2 * wd) half (fun e =>
          let k := e + j * half
          if bit pg k then elem ra wd k * eb k else if vZ w then 0 else elem o (2 * wd) e)
      let tg (r : Nat) := mixTag ([ta, tb, tp] ++ if keepsOld pg (vZ w) cnt then [u.tagV r] else [])
      if keepsOld pg (vZ w) cnt ∧ ((u.tagV d).isShare ∨ (u.tagV (d + 1)).isShare) then .exc cTagged 0
      else retV c x s ((u.wv d (part 0 (u.rv d)) (tg d)).wv (d + 1) (part 1 (u.rv (d + 1))) (tg (d + 1)))
  else if f = 0x13 then
    -- VMOV, VBCAST: moves
    if scalarB ∧ fA w ≠ 0 then .exc cIllegal 0
    else
      let src := if scalarB then tb else ta
      if scalarB ∧ (tb.isShare ∨ old.any Tag.isShare) then .exc cTagged 0
      else match joinAll ([src, tp] ++ old) with
      | none => .exc cTagged 0
      | some t =>
        let u' := u.wv d (merge wd cnt pg (vZ w) (u.rv d) (fun e => if scalarB then eb e else elem ra wd e)) t
        -- a share that moves keeps its triple's kind
        retV c x s (if scalarB then u' else u'.setKind (d / 3) (Table.get kindUnknown u.kind (fA w / 3)))
  else if f = 0x14 then
    -- VSEL
    if scalarB ∨ vZ w then .exc cIllegal 0
    else if ta.isShare ∨ tb.isShare then .exc cTagged 0
    else retV c x s (u.wv d (ofElems 1024 wd cnt (fun e => if bit pg e then elem ra wd e else eb e)) (mixTag [ta, tb, tp]))
  else if f = 0x15 then
    -- VPERM
    if scalarB then .exc cIllegal 0
    else if ta.isShare ∨ tb.isShare ∨ old.any Tag.isShare then .exc cTagged 0
    else write (fun e => elem ra wd (eb e % cnt)) (mixTag ([ta, tb, tp] ++ old))
  else match vecElem f wd 0 0 with
    | none => .exc cIllegal 0
    | some _ =>
      if ta.isShare ∨ tb.isShare ∨ old.any Tag.isShare then .exc cTagged 0
      else write (fun e => (vecElem f wd (elem ra wd e) (eb e)).getD 0)
        (if f = 0x04 then xorTag ([ta, tb, tp] ++ old) else mixTag ([ta, tb, tp] ++ old))

/-! ### Opcode 0x3A: arithmetic modulo q (R137) -/

/-- The built-in modulus by ew. -/
def modulus (ew : Nat) : Option Nat :=
  match ew with
  | 1 => some 3329
  | 2 => some 8380417
  | _ => none

def bodyVecMod (c : Nat) (w : W32) (x : Core) (s : State) : IRes :=
  let u := vec s c
  let f := vFunct w
  let d := fD w
  let a := fA w
  let b := fB w
  match modulus (vEw w) with
  | none => .exc cIllegal 0
  | some q =>
    let wd := ewBits (vEw w)
    let cnt := ewCount (vEw w)
    let pg := u.rp (vPg w)
    let tp := predTag (u.tagP (vPg w))
    let keep := keepsOld pg (vZ w) cnt
    let e (r k : Nat) : Nat := elem (u.rv r) wd k % q
    let srcs := if f = 0x03 ∨ f = 0x04 then [d, a, b] else if f = 0x05 then [a] else [a, b]
    let tags := srcs.map u.tagV ++ [tp]
    let put (r : Nat) (g : Nat → Nat) (u' : VecUnit) : VecUnit :=
      u'.wv r (merge wd cnt pg (vZ w) (u.rv r) g) (mixTag (tags ++ if keep then [u.tagV r] else []))
    let shared := tags.any Tag.isShare || (keep && (u.tagV d).isShare)
    if 0x05 < f ∨ ((f = 0x03 ∨ f = 0x04) ∧ d = a) ∨ (f = 0x05 ∧ b ≠ 0) then .exc cIllegal 0
    else if shared then .exc cTagged 0
    else match f with
      | 0x00 => retV c x s (put d (fun k => (e a k + e b k) % q) u)
      | 0x01 => retV c x s (put d (fun k => (e a k + q - e b k) % q) u)
      | 0x02 => retV c x s (put d (fun k => e a k * e b k % q) u)
      | 0x03 => retV c x s (put a (fun k => (e d k + q - e b k * e a k % q) % q)
                  (put d (fun k => (e d k + e b k * e a k) % q) u))
      | 0x04 => retV c x s (put a (fun k => e b k * ((e d k + q - e a k) % q) % q)
                  (put d (fun k => (e d k + e a k) % q) u))
      | _ => retV c x s (put d (fun k => if e a k ≤ (q - 1) / 2 then e a k else e a k + 2 ^ wd - q) u)

/-! ### Opcode 0x3B: reductions (R138) -/

def absDiff (a b : Int) : Nat := (a - b).natAbs

def bodyVecReduce (c : Nat) (w : W32) (x : Core) (s : State) : IRes :=
  let u := vec s c
  let f := vFunct w
  let wd := ewBits (vEw w)
  let cnt := ewCount (vEw w)
  let pg := u.rp (vPg w)
  let sg := vZ w
  let val (r e : Nat) : Int := if sg then signed wd (elem (u.rv r) wd e) else elem (u.rv r) wd e
  let act := (List.range cnt).filter (fun e => bit pg e)
  let usesB := f = 0x01 ∨ f = 0x02 ∨ f = 0x04
  let tags := [u.tagV (fA w), predTag (u.tagP (vPg w))] ++ if usesB then [u.tagV (fB w)] else []
  let a := fA w
  let b := fB w
  let r : W64 :=
    match f with
    | 0x00 => BitVec.ofInt 64 (act.foldl (fun n e => n + val a e) 0)
    | 0x01 => BitVec.ofNat 64 (act.foldl (fun n e => n + absDiff (val a e) (val b e)) 0)
    | 0x02 => BitVec.ofNat 64 (act.foldl (fun n e => max n (absDiff (val a e) (val b e))) 0)
    | 0x03 => BitVec.ofNat 64 (act.foldl (fun n e => n ^^^ elem (u.rv a) wd e) 0)
    | _ => popcSum act
  if 0x04 < f ∨ (f = 0x04 ∧ sg) then .exc cIllegal 0
  else if tags.any Tag.isShare then .exc cTagged 0
  else retG c x s (fD w) r (mixTag tags)
where
  /-- differing bits over the active elements (VSADB) -/
  popcSum (act : List Nat) : W64 :=
    let u := vec s c
    let wd := ewBits (vEw w)
    BitVec.ofNat 64 (act.foldl (fun n e =>
      n + ((List.range wd).filter (fun k =>
        bit (u.rv (fA w)) (wd * e + k) != bit (u.rv (fB w)) (wd * e + k))).length) 0)

/-! ### Opcode 0x3C: bit-sliced GF(2^m) (R139) -/

/-- (m, field polynomial) by ew. -/
def gfField (ew : Nat) : Option (Nat × Nat) :=
  match ew with
  | 0 => some (12, 0x1009)
  | 1 => some (13, 0x201B)
  | _ => none

/-- Product in GF(2^m): bits of b from the highest, each step doubling and reducing. -/
def gfMul (m poly a b : Nat) : Nat :=
  (List.range m).foldl (fun r k =>
    let r2 := 2 * r
    let r3 := if 2 ^ m ≤ r2 then r2 ^^^ poly else r2
    if b / 2 ^ (m - 1 - k) % 2 = 1 then r3 ^^^ a else r3) 0

/-- a^(2^m − 2): squares times products, m − 1 factors. -/
def gfInv (m poly a : Nat) : Nat :=
  ((List.range (m - 1)).foldl (fun (p : Nat × Nat) _ =>
    let sq := gfMul m poly p.1 p.1
    (sq, gfMul m poly p.2 sq)) (a, 1)).2

/-- Element j of a sliced register: bit i is bit j of 64-bit word i. -/
def sliced (m : Nat) (v : BitVec 1024) (j : Nat) : Nat :=
  (List.range m).foldl (fun n i => n + b2n (bit v (64 * i + j)) * 2 ^ i) 0

/-- The sliced register of 64 elements; words m to 15 are 0. -/
def toSlices (m : Nat) (f : Nat → Nat) : BitVec 1024 :=
  BitVec.ofNat 1024 ((List.range 64).foldl (fun n j =>
    (List.range m).foldl (fun n i => n + f j / 2 ^ i % 2 * 2 ^ (64 * i + j)) n) 0)

def bodyVecGf (c : Nat) (w : W32) (x : Core) (s : State) : IRes :=
  let u := vec s c
  let f := vFunct w
  let a := u.rv (fA w)
  let b := u.rv (fB w)
  match gfField (vEw w) with
  | none => .exc cIllegal 0
  | some (m, poly) =>
    let tags := if f ≤ 1 then [u.tagV (fA w), u.tagV (fB w)] else [u.tagV (fA w)]
    if 0x05 < f ∨ vZ w ∨ vPg w ≠ 0 ∨ ((f = 2 ∨ f = 3) ∧ fB w ≠ 0) then .exc cIllegal 0
    else if tags.any Tag.isShare then .exc cTagged 0
    else
      let r : BitVec 1024 :=
        match f with
        | 0 => toSlices m (fun j => sliced m a j ^^^ sliced m b j)
        | 1 => toSlices m (fun j => gfMul m poly (sliced m a j) (sliced m b j))
        | 2 => toSlices m (fun j => gfMul m poly (sliced m a j) (sliced m a j))
        | 3 => toSlices m (fun j => gfInv m poly (sliced m a j))
        | 4 => toSlices m (fun j => elem a 16 j)
        | _ => ofElems 1024 16 64 (fun j => sliced m a j)
      retV c x s (u.wv (fD w) r (mixTag tags))

/-! ### Opcode 0x3F: predicates and moves (R141) -/

/-- DESIGN CHOICES (assumption 107): PWHILE compares the sum g[a] + e unwrapped; PTOG and GTOP with a b field above 1 are no encoding of the
table; GTOP writes one half whatever ew says, and keeps the other. -/
def bodyVecPred (c : Nat) (w : W32) (x : Core) (s : State) : IRes :=
  let u := vec s c
  let f := vFunct w
  let wd := ewBits (vEw w)
  let cnt := ewCount (vEw w)
  let pg := u.rp (vPg w)
  let tp := predTag (u.tagP (vPg w))
  let d := fD w
  let a := fA w
  let b := fB w
  let putP (v : BitVec 128) (ts : List Tag) : IRes :=
    if ts.any Tag.isShare then .exc cTagged 0 else retV c x s (u.wp d v (mixTag ts != .pub))
  if f ≤ 0x05 then
    if 8 ≤ d then .exc cIllegal 0
    else putP (predOf cnt (fun e => bit pg e && vcmp f wd (elem (u.rv a) wd e) (elem (u.rv b) wd e)))
      [u.tagV a, u.tagV b, tp]
  else if 0x08 ≤ f ∧ f ≤ 0x0B then
    if 8 ≤ d ∨ 8 ≤ a ∨ 8 ≤ b ∨ vEw w ≠ 0 ∨ vPg w ≠ 0 then .exc cIllegal 0
    else
      let pa := u.rp a
      let pb := u.rp b
      putP (if f = 0x08 then pa &&& pb else if f = 0x09 then pa ||| pb else if f = 0x0A then pa ^^^ pb else pa &&& ~~~pb)
        [predTag (u.tagP a), predTag (u.tagP b)]
  else if f = 0x0C then
    if 8 ≤ d then .exc cIllegal 0
    else putP (predOf cnt (fun e => (x.rg a).toNat + e < (x.rg b).toNat)) [x.tagG a, x.tagG b, tp]
  else if f = 0x0D then
    if 8 ≤ d then .exc cIllegal 0
    else putP (predOf cnt (fun e => b / 2 ^ (e * wd / 256) % 2 = 1)) [tp]
  else if f = 0x0E then
    if 8 ≤ a ∨ 2 ≤ b then .exc cIllegal 0
    else retG c x s d (BitVec.ofNat 64 (field (u.rp a).toNat (64 * b) 64)) (mixTag [predTag (u.tagP a), tp])
  else if f = 0x0F then
    if 8 ≤ d ∨ 2 ≤ b then .exc cIllegal 0
    else
      let o := u.rp d
      let g := (x.rg a).setWidth 128
      putP (if b = 0 then (o &&& (BitVec.allOnes 128 <<< 64)) ||| g else (o &&& BitVec.ofNat 128 (2 ^ 64 - 1)) ||| (g <<< 64))
        [x.tagG a, predTag (u.tagP d), tp]
  else if f = 0x10 then
    if x.tagG b ≠ .pub ∨ (u.tagV a).isShare then .exc cTagged 0
    else retG c x s d (BitVec.ofNat 64 (elem (u.rv a) wd ((x.rg b).toNat % cnt))) ((u.tagV a).lineJoin tp)
  else if f = 0x11 then
    if x.tagG b ≠ .pub ∨ (u.tagV d).isShare ∨ (x.tagG a).isShare then .exc cTagged 0
    else match joinAll [x.tagG a, u.tagV d, tp] with
      | none => .exc cTagged 0
      | some t =>
        let k := (x.rg b).toNat % cnt
        retV c x s (u.wv d (merge wd cnt pg (vZ w) (u.rv d) (fun e => if e = k then (x.rg a).toNat else elem (u.rv d) wd e)) t)
  else if f = 0x12 then
    if 8 ≤ a then .exc cIllegal 0
    else retG c x s d (BitVec.ofNat 64 ((List.range cnt).filter (fun e => bit (u.rp a) e)).length) (mixTag [predTag (u.tagP a), tp])
  else .exc cIllegal 0

/-- VFENCE: all other fields zero. Its waiting and the delivery of a pending fault are the block end's (R147, R148). -/
def bodyVfence (w : W32) (x : Core) (s : State) : IRes :=
  if fld w 5 21 ≠ 0 then .exc cIllegal 0 else .ok s (x.pc + 4)

end Sys2Proof.Machine
end

