-- ==== Sys2Proof/Machine/Triples.lean ====
section
/-!
DEFINITION. The share-triple instructions of opcode 0x3D (R140, R183–R186). Fresh shares: two of the three come from the randomness words
taken (`Config.shareBits`), the third is fixed by the value they recover.
-/
namespace Sys2Proof.Machine

open Sys2Proof

/-- Randomness words consumed (R183). -/
def rndWords : Klass → Nat
  | .vsand | .vsmmul | .vsref => 3
  | .vsa2b => 6
  | .vsb2a => 4
  | _ => 0

/-- Share j of triple k is v(3k + j) (R131). -/
def shareReg (k j : Nat) : Nat := 3 * k + j

def shareTag : Nat → Tag
  | 0 => .share0
  | 1 => .share1
  | _ => .share2

/-- A source member in position j must be PUBLIC, SECRET or SHARE j (R185). -/
def memberOk (u : VecUnit) (k j : Nat) : Bool :=
  let t := u.tagV (shareReg k j)
  t == .pub || t == .secret || t == shareTag j

def tripleOk (u : VecUnit) (k : Nat) : Bool := memberOk u k 0 && memberOk u k 1 && memberOk u k 2

/-- Element e of share j of triple k. -/
def shareElem (u : VecUnit) (wd k j e : Nat) : Nat := elem (u.rv (shareReg k j)) wd e

/-- The Boolean value of triple k at element e. -/
def boolVal (u : VecUnit) (wd k e : Nat) : Nat :=
  shareElem u wd k 0 e ^^^ shareElem u wd k 1 e ^^^ shareElem u wd k 2 e

/-- The arithmetic value modulo m: each share first reduced. -/
def arithVal (u : VecUnit) (wd m k e : Nat) : Nat :=
  (shareElem u wd k 0 e % m + shareElem u wd k 1 e % m + shareElem u wd k 2 e % m) % m

/-- Write the three members with their tags; inactive elements follow R133 in all three (R183, R185). -/
def putTriple (u : VecUnit) (w : W32) (k kind : Nat) (f : Nat → Nat → Nat) : VecUnit :=
  let wd := ewBits (vEw w)
  let cnt := ewCount (vEw w)
  let pg := u.rp (vPg w)
  let one (j : Nat) (u' : VecUnit) : VecUnit :=
    u'.wv (shareReg k j) (merge wd cnt pg (vZ w) (u.rv (shareReg k j)) (f j)) (shareTag j)
  let u' := one 2 (one 1 (one 0 u))
  u'.setKind k kind

/-- Fresh shares modulo m (m = 2^w or q) or Boolean (m = 0) of the values `val`, from two free registers. -/
def freshShares (wd m : Nat) (r0 r1 : BitVec 1024) (val : Nat → Nat) (j e : Nat) : Nat :=
  let a := elem r0 wd e
  let b := elem r1 wd e
  if m = 0 then
    match j with
    | 0 => a
    | 1 => b
    | _ => val e ^^^ a ^^^ b
  else
    match j with
    | 0 => a % m
    | 1 => b % m
    | _ => (val e + 2 * m - a % m - b % m) % m

/-- Checks, randomness and result of one triple instruction. `twoSources` says whether b names a triple. -/
def bodyTriple (k : Klass) (c : Nat) (w : W32) (x : Core) (s : State) : IRes :=
  let u := vec s c
  let wd := ewBits (vEw w)
  let d := fD w
  let a := fA w
  let b := fB w
  let two := k = .vsxor ∨ k = .vsand ∨ k = .vsadd ∨ k = .vsmmul
  let q := modulus (vEw w)
  if 10 ≤ d ∨ 10 ≤ a ∨ 10 ≤ b ∨ (¬ two ∧ b ≠ 0) ∨ (k = .vsmmul ∧ q = none) then .exc cIllegal 0
  else if tripleOk u a = false ∨ (two ∧ tripleOk u b = false) then .exc cTagged 0
  else if (corex s c).rndBuf.length < rndWords k then .stall true
  else
    let m2 := 2 ^ wd
    let known := Table.get kindUnknown u.kind a
    let kindA := if known = kindUnknown then Config.shareKind s.fresh % (if k = .vsref then 3 else 2) + (if k = .vsref then 0 else 1) else known
    let modA := if kindA = 0 then 0 else if kindA = 2 then q.getD m2 else m2
    let y := corex s c
    let taken := y.rndBuf.take (rndWords k)
    let r0 := Config.shareBits taken 0
    let r1 := Config.shareBits taken 1
    let fresh := freshShares wd
    let (kind, f) : Nat × (Nat → Nat → Nat) :=
      match k with
      | .vsxor => (0, fun j e => shareElem u wd a j e ^^^ shareElem u wd b j e)
      | .vsadd => (1, fun j e => (shareElem u wd a j e + shareElem u wd b j e) % m2)
      | .vsand => (0, fresh 0 r0 r1 (fun e => boolVal u wd a e &&& boolVal u wd b e))
      | .vsmmul => (2, fresh (q.getD 1) r0 r1 (fun e =>
          arithVal u wd (q.getD 1) a e * arithVal u wd (q.getD 1) b e % q.getD 1))
      | .vsref => (kindA, fresh modA r0 r1 (fun e => if modA = 0 then boolVal u wd a e else arithVal u wd modA a e))
      | .vsa2b => (0, fresh 0 r0 r1 (fun e => arithVal u wd (if modA = 0 then m2 else modA) a e))
      | _ => (1, fresh m2 r0 r1 (fun e => boolVal u wd a e))
    .ok { setCorex c { y with vec := putTriple u w d kind f, rndBuf := y.rndBuf.drop (rndWords k), rndWait := none } s with
          fresh := s.fresh + 1 } (x.pc + 4)

end Sys2Proof.Machine
end

