-- ==== Sys2Proof/Machine/Masking.lean ====
section
/-!
DEFINITION. Declassification (R190–R197) and the mask-randomness generator (R186–R189).
-/
namespace Sys2Proof.Machine

open Sys2Proof

/-! ### What a release may be (R194) -/

/-- A vendor act (R191). -/
def isVendor (a : Half) : Bool := 1 ≤ a.toNat && a.toNat ≤ 0x0FFF

def dcl (s : State) (c : Nat) : Dcl := (corex s c).dcl
def setDcl (c : Nat) (d : Dcl) (s : State) : State := setCorex c { corex s c with dcl := d } s

/-- A grant's place in ring memory. -/
def Grant.place (g : Grant) (c : Nat) : Place := .ring (ringOf c) (g.base - 0x1000000)

/-- The grant counts as secret: its copy is, or a staging area with a secret-tagged line, or the RESERVE of a PART 01 entry (R291). -/
def grantSecret (s : State) (c : Nat) (g : Grant) : Bool :=
  if g.staging then
    (g.usage == 0x30 && attrPart g.attr == 1) || (lineTags s (g.place c) g.size).any (fun t => t != .pub)
  else g.secret

def secretGrants (s : State) (c : Nat) : List Grant := (core s c).grants.filter (grantSecret s c)

/-- The signature or result length of a grant's parameter set (R203, R245, R246, R291). -/
def resultLen (s : State) (c : Nat) (t : Ticket) (g : Grant) : Nat :=
  let k := attrSet g.attr
  let data := readBytes s (g.place c) g.size
  if t.device then (if t.act = 0x0702 then 96 else 4627)
  else if g.usage = 0x30 then
    (dataLen (publicWord g.attr)).getD (1 + 2 * curveLp (curveOf s data).data)
  else
    match attrFamily g.attr with
    | 0x02 => ([2420, 3309, 4627]).getD (k - 1) 0
    | 0x03 => ([7856, 7856, 17088, 17088, 16224, 16224, 35664, 35664, 29792, 29792, 49856, 49856]).getD (k - 1) 0
    | 0x10 => 2 * (if k = 0x80 then curveLn (curveOf s data).data else if k = 1 then 32 else if k = 2 then 48 else 66)
    | 0x11 => if k = 0x11 then 114 else 64
    | _ => 8 * k

/-- Ciphertext lengths of the supported KEM parameter sets (R203, R251). -/
def kemLens : List Nat := [768, 1088, 1568, 96, 156, 208]

/-- Input bytes [off, off + n), where the device has them. -/
def inputKnown (t : Ticket) (off n : Nat) : Option (List Byte) :=
  if off + n ≤ t.inLen ∧ off + n ≤ t.input.length then some (slice t.input off n) else none

/-- Length of a translated block: the figure of R277 and the optional blocks, which it carries; none where the header is not at hand. -/
def translatedLen (t : Ticket) : Option Nat :=
  match inputKnown t 0 t.inLen with
  | none => none
  | some l =>
    if headerOk (t.num 50 1) l = false then none
    else
      ((digits (slice l 12 2)).bind (fun n => optionalEnd l n 16)).map (fun e =>
        (if t.num 51 1 = 1 then 96 else if headerAes l then 144 else 112) + (e - 16))

/-- Length of a key block or wrapped key of a word (R277). -/
def blockLen (format : Nat) (a : W64) : Nat :=
  if format = 1 then 96 else if format = 3 then (if keyIsTdes a then 112 else 144)
  else 8 + (if keyIsTdes a then (if attrSet a = 0 then 16 else 24) else if attrSet a = 2 then 16 else 32)

/-- Wrapped lengths (R277, R291): that of a saved blob; of an export, the one of its format for the key; of a translation, the figure of
its header, which the device must have got. -/
def wrappedLenOk (s : State) (c : Nat) (t : Ticket) (n : Nat) : Bool :=
  let gs := (core s c).grants
  match t.act.toNat with
  | 0x0432 => gs.any (fun g => g.usage == 8 && n == blockLen (t.num 50 1) g.attr)
  | 0x0433 =>
    translatedLen t == some n
  | _ => gs.any (fun g => g.usage == 0x20 && g.len == n)

def lenOk (s : State) (c : Nat) (t : Ticket) (point n : Nat) : Bool :=
  match point with
  | 0 => (secretGrants s c).any (fun g => resultLen s c t g == n)
  | 1 => true
  | 2 => kemLens.contains n
  | 3 => n == 8 || n == 16
  | _ => wrappedLenOk s c t n

def grantsOk (s : State) (c point : Nat) : Bool :=
  let gs := secretGrants s c
  match point with
  | 0 =>
    match gs with
    | [g] => g.usage == 0x10 || g.usage == 0x15 || g.usage == 0x16 || (g.usage == 0x30 && attrPart g.attr == 1)
    | _ => false
  | 1 => gs.all (fun g => 2 ≤ g.usage.toNat && g.usage.toNat ≤ 5)
  | 2 => gs == []
  | 3 => gs.all (fun g => g.usage == 1)
  | _ => (core s c).grants.any (fun g => g.usage == 6 || g.usage == 0x20)

/-- The tag that a point releases besides PUBLIC, COMBINE 0. -/
def pointTag : Nat → Tag
  | 1 => .cipher
  | 3 => .pinblk
  | 4 => .wrapped
  | _ => .secret

/-! ### One release (R191–R197) -/

/-- A DCL_GO value and the registers it takes, with the figures of R192. -/
structure Release where
  point : Nat
  combine : Nat
  attempts : Nat
  acc : Nat
  src : Nat
  dst : Nat
  len : Nat
  reserved : Bool
  deriving DecidableEq, Repr

def releaseOf (d : Dcl) (v : W64) : Release :=
  let n := v.toNat
  let point := field n 0 3
  { point := point, combine := field n 4 3, attempts := field n 8 2 + 1, acc := if point = 0 then field n 12 4 else
      (if field n 12 4 = 0 then 15 else field n 12 4)
    src := d.src.toNat, dst := d.dst.toNat, len := d.len.toNat
    reserved := n.testBit 3 || n.testBit 7 || field n 10 2 != 0 || field n 16 48 != 0 }

def Release.size (r : Release) : Nat := roundUp r.len 128
def Release.shares (r : Release) : Nat := if r.combine = 0 then 1 else 3
/-- Address of share j of attempt a. -/
def Release.at (r : Release) (a j : Nat) : Nat := r.src + a * r.shares * r.size + r.size * j
def Release.total (r : Release) : Nat := r.shares * r.size * r.attempts

/-- A range of local memory or of the working set. -/
def workPlace (s : State) (c a n : Nat) : Option Place :=
  let x := core s c
  if inside a n 0 0x40000 then some (.loc c a)
  else if inside a n x.wsBase x.wsSize then some (.ring (ringOf c) (a - 0x1000000))
  else none

/-- Every source line carries an accepted tag. -/
def sourceTagsOk (s : State) (c : Nat) (r : Release) : Bool :=
  (List.range r.attempts).all (fun a => (List.range r.shares).all (fun j =>
    match workPlace s c (r.at a j) r.size with
    | none => true
    | some p => (lineTags s p r.size).all (fun t =>
        t == .pub || (if r.combine = 0 then t == pointTag r.point else t == shareTag j))))

/-- Checks 1–6 (R193): the RESULT of the first that fails. -/
def releaseFails (s : State) (c : Nat) (t : Ticket) (r : Release) : Option Byte :=
  let d := dcl s c
  let pointOk : Bool := r.combine == 0 || r.point == 0 || r.point == 2
  if r.reserved ∨ 5 ≤ r.point ∨ 5 ≤ r.combine ∨ pointOk = false ∨ (r.point ≠ 0 ∧ (r.attempts ≠ 1 ∨ r.acc ≠ 15))
      ∨ (10 ≤ r.acc ∧ r.acc ≠ 15) then some 7
  else if r.src % 64 ≠ 0 ∨ r.dst % 64 ≠ 0 ∨ (workPlace s c r.src r.total).isNone ∨ (workPlace s c r.dst r.size).isNone
      ∨ (r.src < r.dst + r.size ∧ r.dst < r.src + r.total) then some 3
  else if lenOk s c t r.point r.len = false then some 2
  else if grantsOk s c r.point = false then some 4
  else if (if r.point = 1 then decide (t.inLen + 64 < d.released.toNat + r.len) else Table.get 0 d.used r.point != 0) then some 6
  else if sourceTagsOk s c r = false then some 5
  else none

/-- Attempt a is accepted (R195). -/
def accepted (s : State) (c : Nat) (r : Release) (a : Nat) : Bool :=
  let u := (corex s c).vec
  let w (j : Nat) : Nat := elem (u.rv (shareReg r.acc j)) 32 0
  (w 0 ^^^ w 1 ^^^ w 2).testBit a

/-- The attempt released: the lowest accepted one; attempt 0 with ACC 0xF. -/
def attemptOf (s : State) (c : Nat) (r : Release) : Option Nat :=
  if r.acc = 15 then some 0 else (List.range r.attempts).find? (accepted s c r)

/-- Words of n bytes added modulo m. -/
def addWords (n m : Nat) (ls : List (List Byte)) (size : Nat) : List Byte :=
  ((List.range (size / n)).map (fun k => bytesOf ((ls.map (fun l => natOf (slice l (n * k) n))).sum % m) n)).flatten

/-- The value that the shares recover (R191, COMBINE). -/
def combined (r : Release) (ls : List (List Byte)) : List Byte :=
  match r.combine with
  | 0 => ls.headD []
  | 1 => ls.foldl xorBytes (List.replicate r.size 0)
  | 2 => addWords 4 (2 ^ 32) ls r.size
  | 3 => addWords 2 3329 ls r.size
  | _ => addWords 4 8380417 ls r.size

/-- The bytes released: DCL_LEN of them, the rest of S zero. -/
def releasedBytes (s : State) (c : Nat) (r : Release) (a : Nat) : List Byte :=
  let shares := (List.range r.shares).map (fun j => match workPlace s c (r.at a j) r.size with
    | some p => readBytes s p r.size
    | none => [])
  padTo ((combined r shares).take r.len) r.size

/-- A failed check writes only RESULT and leaves a notice (R196). -/
def releaseRefused (c : Nat) (t : Ticket) (r : Release) (result : Byte) (s : State) : State :=
  let ev : Event := { cls := .f0, source := 0x0D, unit := unitCore c, cause := 0x09, addr := BitVec.ofNat 64 r.src,
                      detail0 := result.setWidth 64, detail1 := BitVec.ofNat 64 r.point }
  report (Event.naming ev t)
    (setDcl c { dcl s c with result := result, going := none } s)

/-- The final word of a release of attempt a: DCL_STAT and the point's use (R191, R196). -/
def releaseCounted (c : Nat) (r : Release) (a : Nat) (s : State) : State :=
  let d := dcl s c
  setDcl c { d with
    attempt := BitVec.ofNat 4 a
    result := 0
    going := none
    released := if r.point = 1 then d.released + BitVec.ofNat 32 r.len else d.released
    used := if r.point = 1 then d.used else Table.set 0 d.used r.point (Table.get 0 d.used r.point + 1) } s

/-- The routine's outcome: checks, recombination and the final word. -/
def releaseDone (c : Nat) (t : Ticket) (v : W64) (s : State) : State :=
  let d := dcl s c
  let r := releaseOf d v
  match releaseFails s c t r, workPlace s c r.dst r.size with
  | some e, _ => releaseRefused c t r e s
  | none, none => releaseRefused c t r 3 s
  | none, some p =>
    match attemptOf s c r with
    | none =>
      let f := nextFresh s
      setDcl c { d with attempt := 15, result := 1, going := none }
        (bankWrite (c % 16) p (bytesOf (Config.freeBits (8 * r.size) f.1).toNat r.size) .secret f.2)
    | some a => releaseCounted c r a (bankWrite (c % 16) p (releasedBytes s c r a) .pub s)

/-- DCL_RELEASE_DONE: the final word of the routine that runs (R196). -/
def execDclReleaseDone (c : Nat) (s : State) : Out :=
  .next (unlessLocked (fun s =>
    match (dcl s c).going, ticketOn s c with
    | some v, some t => if controlReread s c ∨ (corex s c).micro.trapped ∨ (corex s c).micro.faulted then s else releaseDone c t v s
    | _, _ => s) s)

/-- A release that passes its checks writes its destination while it runs: SECRET lines, of no value laid down before its final word
(R196). -/
def releaseBegins (c : Nat) (v : W64) (s : State) : State :=
  let r := releaseOf (dcl s c) v
  match ticketOn s c, workPlace s c r.dst r.size with
  | some t, some p =>
    if (releaseFails s c t r).isNone then
      let f := nextFresh s
      bankWrite (c % 16) p (bytesOf (Config.freeBits (8 * r.size) f.1).toNat r.size) .secret f.2
    else s
  | _, _ => s

/-- A write to DCL_GO: it waits for outstanding element checks; a pending vector fault is delivered in its place (R191, R196). -/
def dclGoWrite (c : Nat) (v : W64) (x : Core) (s : State) : IRes :=
  let u := (corex s c).vec
  if (ticketOn s c).any (fun t => isVendor t.act) = false then .exc cIllegal 0
  else if u.checks ≠ [] then .stall false
  else if u.pending then .exc cIllegal 0
  else .ok (setDcl c { dcl s c with going := some v } (releaseBegins c v s)) (x.pc + 4)

/-- DCL_GO: the CSR write, as a ring core's present instruction. -/
def execDclGo (c : Nat) (v : W64) (s : State) : Out :=
  .next (if c < mgmtCore ∧ (corex s c).micro.waiting = none then issue c false (fun x => dclGoWrite c v x s) s else s)

/-- DCL_STAT as read. -/
def Dcl.stat (d : Dcl) : Nat := pack [(d.released.toNat, 32), (d.attempt.toNat, 12), (d.result.toNat, 0)]

/-! ### The mask-randomness generator (R187–R189) -/

def stream (s : State) (r k : Nat) : MrgStream := Table.get {} s.mrg (8 * r + k)
def setStream (r k : Nat) (x : MrgStream) (s : State) : State := { s with mrg := Table.set {} s.mrg (8 * r + k) x }

/-- The ring is out of reset, and k is one of its eight instances. -/
def streamUp (s : State) (r k : Nat) : Bool := decide (r < ringCount s) && decide (k < 8) && bit s.boot.ringUp r

/-- MRG_SEED_REQUEST: unseeded, or 2^28 words after the last seed. -/
def execMrgSeedRequest (r k : Nat) (s : State) : Out :=
  .next (unlessLocked (fun s =>
    let x := stream s r k
    if streamUp s r k ∧ x.requested = false ∧ (x.seeded = false ∨ 2 ^ 28 ≤ x.words) then setStream r k { x with requested := true } s
    else s) s)

/-- MRG_SEED_ARRIVAL: the DRBG has answered the request. -/
def execMrgSeedArrival (r k : Nat) (s : State) : Out :=
  .next (unlessLocked (fun s =>
    match drbgAnswer s (.mrgSeed r k) with
    | some (some seed) =>
      if streamUp s r k then
        setStream r k { seeded := true, seed := BitVec.ofNat 256 (natOf seed), producing := true, words := 0, requested := false } (drbgCancel (.mrgSeed r k) s)
      else s
    | _ => s) s)

/-- MRG_INSTANCE_STOP: 2^30 words since the last seed. -/
def execMrgInstanceStop (r k : Nat) (s : State) : Out :=
  .next (unlessLocked (fun s =>
    let x := stream s r k
    if streamUp s r k ∧ x.producing ∧ 2 ^ 30 ≤ x.words then
      report { cls := .f0, source := 0x0C, unit := unitEngine r 8, cause := 0x15, detail0 := BitVec.ofNat 64 k }
        (setStream r k { x with producing := false } s)
    else s) s)

/-- RANDOMNESS_WAIT_NOTICE: 100 µs of waiting, once per wait. -/
def execRandomnessWaitNotice (c : Nat) (s : State) : Out :=
  .next (unlessLocked (fun s =>
    match (corex s c).rndWait, ticketOn s c with
    | some (since, false), some t =>
      if 600000 ≤ s.time.ticks - since then
        report (Event.naming { cls := .f0, source := 0x0C, unit := unitCore c, cause := 0x12, detail0 := 100 } t)
          (setCorex c { corex s c with rndWait := some (since, true) } s)
      else s
    | _, _ => s) s)

/-- MRG_STATUS and MRG_STALLS as read (R189). -/
def mrgRead (c off : Nat) (s : State) : Option W64 :=
  let up (k : Nat) : Nat := b2n (stream s (ringOf c) k).producing * 2 ^ (8 + k)
  let all := ((List.range 8).map up).sum
  match off with
  | 0x00 => some (BitVec.ofNat 64 (pack [(b2n (all == 0), 16), ((corex s c).rndBuf.length, 0)] + all))
  | 0x08 => some (BitVec.ofNat 64 (corex s c).rndStalls)
  | _ => none

end Sys2Proof.Machine
end

