-- ==== Sys2Proof/Machine/Acts.lean ====
section
/-!
DEFINITION. The checks of the vendor acts, as far as the ticket, the granted keys and the input at hand decide them (R204–R206, R212, R214,
R220, R221, R223, R242, R245–R247, R252, R258, R267–R279, R297–R300, R127 and R454). The code of the vendor bundle is not part of the manual;
that it ends as these chapters say is assumption 35.
-/
namespace Sys2Proof.Machine

open Sys2Proof

/-! ### Reasons of INVALID_INPUT (R206, R244, R268) -/

def rsParam : Nat := 0xFFFFFF01
def rsSet : Nat := 0xFFFFFF02
def rsLength : Nat := 0xFFFFFF03
def rsSize : Nat := 0xFFFFFF06
def rsKsn : Nat := 0xFFFFFF07
def rsKeyAlg : Nat := 0xFFFFFF08
def rsPan : Nat := 0xFFFFFF09
def rsNotPermitted : Nat := 0xFFFFFF0A
def rsHeader : Nat := 0xFFFFFF0B

def rsTypecode : Nat := 0xFFFFFF04
def rsRounds : Nat := 0xFFFFFF05

/-- How an act ends by one check: a status and an output length. -/
structure ActEnd where
  status : Byte
  len : Nat
  deriving DecidableEq, Repr

def invalid (reason : Nat) : ActEnd := { status := stInvalid, len := reason }

/-- Some end if the condition fails. -/
def orEnd (ok : Bool) (e : ActEnd) : Option ActEnd := if ok then none else some e

/-! ### The ticket as the acts read it (R204, R245) -/

def noHandle : W32 := 0xFFFFFFFF
def hasKey (t : Ticket) : Bool := t.handle != noHandle
/-- Bytes at_ to 63 are 0. -/
def zeroFrom (t : Ticket) (at_ : Nat) : Bool := t.num at_ (64 - at_) == 0

/-- The grant of a key handle for a usage that the core's act holds. -/
def grantOf (s : State) (c : Nat) (h : W32) (u : Nat) : Option Grant :=
  (core s c).grants.find? (fun g => g.key && g.handle == h && g.usage.toNat == u)

/-- Ticket bytes 52–55 as a handle, bytes 56–63 as an attribute word. -/
def destOf (t : Ticket) : W32 := BitVec.ofNat 32 (t.num 52 4)
def newWord (t : Ticket) : W64 := BitVec.ofNat 64 (t.num 56 8)

/-- The usage that the act requests of its key (R202, R244, R249, R252, R267, R297, R298). -/
def keyUsage (t : Ticket) : Nat :=
  match t.act.toNat with
  | 0x0231 => if t.num 51 1 = 0 then 0x16 else 0x15
  | 0x0421 => 4 + t.num 50 1
  | 0x0501 => 0x30 + t.num 50 1
  | n => ((vendorAct n).map (fun a => a.usage)).getD 0

/-- The key that the act's ticket names, as granted. -/
def ownGrant (s : State) (c : Nat) (t : Ticket) : Option Grant := if hasKey t then grantOf s c t.handle (keyUsage t) else none

/-- The usage for which the act also asks for the key of bytes 52–55: PIN, export or wrapping (R267), domain parameters (R245). -/
def secondUsage (t : Ticket) : Option Nat :=
  match t.act.toNat with
  | 0x0401 => some 1
  | 0x0432 => some 8
  | 0x0433 => some 6
  | 0x0212 => if t.num 50 1 = 0x80 ∧ hasKey t = false then some 0x18 else none
  | _ => none
def secondGrant (s : State) (c : Nat) (t : Ticket) : Option Grant := (secondUsage t).bind (grantOf s c (destOf t))

/-- The act fills the slot of bytes 52–55 (R211, R242, R246, R252, R279, R299, R300). -/
def hasSlot (t : Ticket) : Bool :=
  [0x0101, 0x0102, 0x0201, 0x0213, 0x0301, 0x0302, 0x0431, 0x0511, 0x0512].contains t.act.toNat

/-! ### Check 1: parameter bytes -/

def curveCode (k : Nat) : Bool := k ≤ 3 || k == 0x80
def hashAlgOk (a : Nat) : Bool := (0x10 ≤ a && a ≤ 0x15) || (0x20 ≤ a && a ≤ 0x25)
def pinFmtOk (f : Nat) : Bool := f == 0 || f == 1 || f == 3 || f == 4

/-- SET or CURVE 0 takes the key's, so it needs one. -/
def setOrKey (t : Ticket) : Bool := t.num 50 1 != 0 || hasKey t

/-- RESERVE of a key pair (R299). -/
def pairOk (t : Ticket) : Bool :=
  let a : W64 := BitVec.ofNat 64 (t.num 56 8)
  (bit a 48 || bit a 51) && t.num 52 4 % 2 ^ 23 != 0x7FFFFE

/-- A shared secret of n bytes fills an entry of its length (R211, R246, R251, R289; DEDUCED, assumption 108). A word that is invalid is
refused at the reservation. -/
def secretFits (t : Ticket) (n : Nat) : Bool := !attrValid (newWord t) || dataLen (newWord t) == some n

/-- The parameter bytes of the listed acts; none where they hold. A CURVE code that R241 does not give the act is the curve not supported of
R244 (DEDUCED, assumption 108). -/
def paramCheck (t : Ticket) : Option ActEnd :=
  let b (k : Nat) : Nat := t.num k 1
  let ok (c : Bool) : Option ActEnd := orEnd c (invalid rsParam)
  let sized (known c : Bool) : Option ActEnd := if known = false then some (invalid rsSize) else ok c
  let sizeOk : Bool := b 50 == 0 || (32 ≤ b 50 && b 50 ≤ 128)
  let bare : Option ActEnd := ok (!((vendorAct t.act.toNat).any (fun a => a.key == .none) && hasKey t))
  bare.or (
  match t.act.toNat with
  | 0x0101 | 0x0102 => ok (b 50 ≤ 3 && b 51 == 0 && setOrKey t && secretFits t 32)
  | 0x0301 | 0x0302 => ok (b 50 ≤ 4 && b 51 == 0 && setOrKey t && secretFits t 32)
  | 0x0111 => ok (b 50 ≤ 3 && b 51 ≤ 4 && b 52 / 16 == 0 && b 52 / 2 % 4 != 3 && zeroFrom t 53 && setOrKey t)
  | 0x0121 => ok (b 50 ≤ 12 && b 51 ≤ 4 && b 52 / 16 == 0 && b 52 / 2 % 4 == 0 && zeroFrom t 53 && setOrKey t)
  | 0x0112 => ok (b 50 ≤ 3 && b 51 ≤ 4 && zeroFrom t 52 && setOrKey t)
  | 0x0122 => ok (b 50 ≤ 12 && b 51 ≤ 4 && zeroFrom t 52 && setOrKey t)
  | 0x0131 => ok (zeroFrom t 50)
  | 0x0132 => ok (b 50 ≤ 1 && zeroFrom t 51)
  | 0x0140 =>
    let shake : Bool := b 50 == 0x14 || b 50 == 0x15
    ok (hashAlgOk (b 50) && b 51 == 0 && zeroFrom t 56
      && (if shake then 1 ≤ t.num 52 4 && t.num 52 4 ≤ 65536 else t.num 52 4 == 0))
  | 0x0201 => ok (b 50 == 0 && b 51 == 0)
  | 0x0211 => sized (curveCode (b 50)) (b 51 == 0 && (b 52 == 0 || b 52 == 8) && zeroFrom t 53 && setOrKey t)
  | 0x0212 => sized (curveCode (b 50)) (b 51 == 0 && zeroFrom t 56 && setOrKey t
      && (t.num 52 4 == 0 || (b 50 == 0x80 && !hasKey t)))
  | 0x0213 => sized (curveCode (b 50) || b 50 == 0x20 || b 50 == 0x21) (b 51 == 0 && setOrKey t && (b 50 != 0x80 || hasKey t))
  | 0x0221 | 0x0222 =>
    sized (b 50 == 0 || b 50 == 0x10 || b 50 == 0x11) (b 51 ≤ 2 && !(b 50 == 0x11 && b 51 == 1) && zeroFrom t 52 && setOrKey t)
  | 0x0231 => sized sizeOk (b 51 ≤ 2 && (if b 51 == 2 then 1 ≤ b 52 && b 52 ≤ 3 else b 52 == 0) && zeroFrom t 53 && setOrKey t)
  | 0x0232 => sized sizeOk (zeroFrom t 51 && setOrKey t)
  | 0x0401 =>
    if !(pinFmtOk (b 50) && pinFmtOk (b 51) && b 56 ≤ 3 && zeroFrom t 57) then some (invalid rsParam)
    else orEnd (b 51 != 1 || b 50 == 1) (invalid rsNotPermitted)
  | 0x0411 | 0x0412 =>
    let iso : Bool := b 50 == 1 || b 50 == 3
    ok ((iso || b 50 == 0x10) && (if iso then b 51 == 1 || b 51 == 2 else b 51 == 0) && 4 ≤ b 52 && b 52 ≤ 16
      && !(b 50 == 3 && 8 < b 52) && b 53 ≤ 3 && zeroFrom t 54)
  | 0x0421 => ok (b 50 ≤ 1 && b 51 ≤ 1 && b 52 ≤ 3 && zeroFrom t 53)
  | 0x0431 => ok ((b 50 == 1 || b 50 == 2 || b 50 == 3 || b 50 == 0x10) && b 51 == 0)
  | 0x0432 =>
    if b 50 = 2 then some (invalid rsNotPermitted)
    else ok ((b 50 == 1 || b 50 == 3 || b 50 == 0x10) && b 51 == 0 && zeroFrom t 56)
  | 0x0433 =>
    if !((b 50 == 1 || b 50 == 2 || b 50 == 3 || b 50 == 0x10) && (b 51 == 1 || b 51 == 2 || b 51 == 3 || b 51 == 0x10)
        && zeroFrom t 56) then some (invalid rsParam)
    else orEnd (b 50 != 0x10 && (b 51 == 1 || b 51 == 3)) (invalid rsNotPermitted)
  | 0x0501 => ok (1 ≤ b 50 && b 50 ≤ 5 && b 51 == 0
      && (b 50 == 4 || (t.num 52 4 == 0 && (b 50 == 5 || t.num 56 8 == 0))))
  | 0x0511 =>
    let a := newWord t
    ok (b 50 ≤ 1 && b 51 == 0 && (attrPart a == 1 || attrPart a == 2) && attrFamily a != 0x30 && attrFamily a != 0x40
      && (b 50 == 0 || pairOk t))
  | 0x0512 => ok (b 50 == 0 && b 51 == 0 && attrPart (newWord t) == 0)
  | 0x0513 | 0x0514 | 0x0802 => ok (zeroFrom t 50)
  | _ => none)

/-! ### Check 2: the grants that the act has asked for -/

/-- The end of an act that lacks the grant of a request: the key store's refusal of it, with output length 0 (R112). An act that has not
made a request which would be granted has no key to work on (DEDUCED, assumption 108). -/
def ungranted (s : State) (c : Nat) (t : Ticket) (h : W32) (u : Nat) : ActEnd :=
  match keyVerdict s t c h u with
  | .refuse _ status => { status := status, len := 0 }
  | _ => { status := stUsage, len := 0 }

/-- The change of an entry that OP of KEY_MANAGE asks for (R298). -/
def isChange (op : Nat) : KeyChange → Bool
  | .destroy => op == 2
  | .evict => op == 3
  | .window _ _ => op == 4
  | .restrict _ => op == 5
  | .install _ _ _ => false

/-- The act's requests of keys were granted: its own, where it must have or was given a handle, and that of bytes 52–55. KEY_MANAGE makes
the request that OP names (R298); ATTEST_PUBLIC names no handle (R292). -/
def keysGranted (s : State) (c : Nat) (t : Ticket) : Option ActEnd :=
  let n := t.act.toNat
  let own : Option ActEnd :=
    if n = 0x0501 ∧ t.num 50 1 ≠ 1 then
      orEnd (s.ks.pend.any (fun p => p.tid == t.id && p.handle == t.handle && isChange (t.num 50 1) p.change)) (ungranted s c t t.handle (keyUsage t))
    else if n = 0x0802 then orEnd (grantOf s c noHandle 0x38).isSome (ungranted s c t noHandle 0x38)
    else if hasKey t ∨ (vendorAct n).any (fun a => a.key == .required) then
      orEnd (grantOf s c t.handle (keyUsage t)).isSome (ungranted s c t t.handle (keyUsage t))
    else none
  own.or ((secondUsage t).bind (fun u => orEnd (secondGrant s c t).isSome (ungranted s c t (destOf t) u)))

/-! ### Check 3: the key against the parameters -/

/-- The DUKPT code fits the granted key (R272, R274): a base key of its algorithm, or none. -/
def dukptOk (code : Nat) (g : Grant) : Bool :=
  match code with
  | 0 => g.kind != 1
  | 1 => g.kind == 1 && keyIsTdes g.attr && attrSet g.attr == 0
  | 2 => g.kind == 1 && keyIsAes g.attr
  | _ => g.kind == 1 && keyIsAes g.attr && attrSet g.attr == 3

/-- The working key is TDES: of the base key's algorithm under DUKPT. -/
def workIsTdes (code : Nat) (g : Grant) : Bool := if code = 0 then keyIsTdes g.attr else code == 1

/-- The protecting key of a wrapping format (R277). -/
def protectOk (format : Nat) (a : W64) : Bool := if format = 1 ∨ format = 2 then keyIsTdes a else keyIsAes a

/-- FAMILY of the keys that an act takes (R202, R244, R252); none where the act's own checks of the key's data decide. -/
def keyFamilies (n : Nat) : Option (List Nat) :=
  match n with
  | 0x0101 | 0x0102 => some [1]
  | 0x0111 | 0x0112 => some [2]
  | 0x0121 | 0x0122 => some [3]
  | 0x0301 | 0x0302 => some [4]
  | 0x0211 | 0x0212 => some [0x10]
  | 0x0213 => some [0x10, 0x11]
  | 0x0221 | 0x0222 => some [0x11]
  | 0x0231 | 0x0232 => some [0x12]
  | _ => none

/-- A key of another family does not match the parameter set (DEDUCED, assumption 108); MODE 1 is for Ed25519 only (R246). -/
def schemeCheck (t : Ticket) (a : W64) : Option ActEnd :=
  let n := t.act.toNat
  match keyFamilies n with
  | none => none
  | some fs =>
    if fs.contains (attrFamily a) = false then some (invalid rsSet)
    else if t.num 50 1 ≠ 0 ∧ t.num 50 1 ≠ attrSet a then some (invalid rsSet)
    else orEnd (!((n == 0x0221 || n == 0x0222) && t.num 51 1 == 1 && attrSet a == 0x11)) (invalid rsParam)

def keyCheck (s : State) (c : Nat) (t : Ticket) (g : Grant) : Option ActEnd :=
  let b (k : Nat) : Nat := t.num k 1
  let second := secondGrant s c t
  let sym : Bool := keyIsTdes g.attr || keyIsAes g.attr
  match t.act.toNat with
  | 0x0401 =>
    let out : Bool := match second with
      | some h => h.kind != 1 && (if b 51 = 4 then keyIsAes h.attr else keyIsTdes h.attr)
      | none => true
    orEnd (sym && dukptOk (b 56) g && workIsTdes (b 56) g == (b 50 != 4) && out) (invalid rsKeyAlg)
  | 0x0411 | 0x0412 =>
    let tdes := workIsTdes (b 53) g
    if !(sym && dukptOk (b 53) g) then some (invalid rsKeyAlg)
    else if b 50 = 3 ∧ (tdes = false ∨ (b 53 = 0 ∧ attrSet g.attr ≠ 0)) then some (invalid rsKeyAlg)
    else orEnd (!(tdes && 8 < b 52)) (invalid rsParam)
  | 0x0421 => orEnd (sym && dukptOk (b 52) g) (invalid rsKeyAlg)
  | 0x0431 => orEnd (protectOk (b 50) g.attr) (invalid rsKeyAlg)
  | 0x0432 =>
    if protectOk (b 50) g.attr = false then some (invalid rsKeyAlg)
    else match second with
      | some h => orEnd (!(keyStrength g.attr < keyStrength h.attr) && !(b 50 == 1 && keyIsAes h.attr)) (invalid rsNotPermitted)
      | none => none
  | 0x0433 =>
    let out : Bool := match second with
      | some h => protectOk (b 51) h.attr
      | none => true
    orEnd (protectOk (b 50) g.attr && out) (invalid rsKeyAlg)
  | _ => schemeCheck t g.attr

/-! ### Check 4: the input's layout -/

/-- SET, CURVE or SIZE in effect. -/
def setUsed (t : Ticket) (g : Option Grant) : Nat :=
  let n := t.num 50 1
  if n ≠ 0 then n else (g.map (fun g => attrSet g.attr)).getD 0

def mldsaSig (k : Nat) : Nat := ([2420, 3309, 4627]).getD (k - 1) 0
def mldsaPk (k : Nat) : Nat := ([1312, 1952, 2592]).getD (k - 1) 0
def slhSig (k : Nat) : Nat := ([7856, 7856, 17088, 17088, 16224, 16224, 35664, 35664, 29792, 29792, 49856, 49856]).getD (k - 1) 0
def slhPk (k : Nat) : Nat := if k ≤ 4 then 32 else if k ≤ 8 then 48 else 64
def mlkemPk (k : Nat) : Nat := 384 * (k + 1) + 32
def mlkemCt (k : Nat) : Nat := ([768, 1088, 1568]).getD (k - 1) 0
def cmPk (k : Nat) : Nat := ([261120, 524160, 1044992, 1357824]).getD (k - 1) 0
def cmCt (k : Nat) : Nat := ([96, 156, 208, 208]).getD (k - 1) 0

def messageMax : Nat := 16777216

/-- The message field of a signature scheme by MODE (R214): any length, or that of the prehash. -/
def messageOk (mode n : Nat) : Bool :=
  match mode with
  | 0 => n ≤ messageMax
  | 1 | 3 => n == 32
  | _ => n == 64

/-- ctx_len, ctx, `fixed` bytes, then a message field; open where the first byte is not at hand. -/
def ctxLayout (t : Ticket) (fixed : Nat) (message : Nat → Bool) : Option ActEnd :=
  if t.inLen = 0 then some (invalid rsLength)
  else match inputKnown t 0 1 with
    | none => none
    | some l =>
      let head := 1 + natOf l + fixed
      orEnd (head ≤ t.inLen && message (t.inLen - head)) (invalid rsLength)

/-- MODE 0 with Ed25519 takes ctx_len 0, and MODE 1 a ctx_len from 1 (R246). -/
def eddsaContext (t : Ticket) (k : Nat) : Option ActEnd :=
  match inputKnown t 0 1 with
  | none => none
  | some l =>
    let bad : Bool := (t.num 51 1 == 0 && k == 0x10 && natOf l != 0) || (t.num 51 1 == 1 && natOf l == 0)
    orEnd (!bad) (invalid rsLength)

/-- A key on a loaded curve. -/
def loadedWord (a : W64) : Bool := attrFamily a == 0x10 && attrSet a == 0x80

/-- The granted copy of a key, without the curve object's handle that precedes a CURVE 0x80 key (R289). -/
def keyBytes (s : State) (c : Nat) (g : Grant) : List Byte := readBytes s (g.place c) g.len
def keyBody (s : State) (c : Nat) (g : Grant) : List Byte :=
  if loadedWord g.attr then (keyBytes s c g).drop 4 else keyBytes s c g

/-- The curve in use (R241, R245): of CURVE 0x80 the one that the key names, or the granted copy of the object that the ticket names; none
of a loaded curve that is not at hand. -/
def actCurve (s : State) (c : Nat) (t : Ticket) (g : Option Grant) : Option WCurve :=
  curveByCode (setUsed t g) (match g with
    | some g => (curveOf s (keyBytes s c g)).data
    | none => ((secondGrant s c t).map (keyBytes s c)).getD [])

/-- A loaded curve that is not at hand: the act ends as the key store's refusal of its object would (R290; DEDUCED, assumption 108). -/
def noCurve (s : State) (c : Nat) (t : Ticket) (handle : List Byte) : ActEnd := ungranted s c t (BitVec.ofNat 32 (natOf (handle.take 4))) 0x18
def curveCheck (s : State) (c : Nat) (t : Ticket) (g : Option Grant) : Option ActEnd :=
  match t.act.toNat, g with
  | 0x0211, some k | 0x0212, some k | 0x0213, some k =>
    if setUsed t g = 0x80 ∧ (actCurve s c t g).isNone then some (noCurve s c t (keyBytes s c k)) else none
  | _, _ => none

/-- The curve that a word names, with the input's first 4 bytes as the handle of a loaded one (R289, R299, R300). -/
def wordCurve (s : State) (t : Ticket) : Option WCurve :=
  match inputKnown t 0 4, attrSet (newWord t) with
  | some h, 0x80 => curveByCode 0x80 (curveOf s h).data
  | _, k => if k = 0x80 then none else curveByCode k []

/-- Working NA of a curve's operands (R241), for a loaded curve by the bits of its p. -/
def workingNa (code bits : Nat) : Nat :=
  match code with
  | 1 => 5
  | 2 => 7
  | 3 => 9
  | 0x10 | 0x20 => 5
  | 0x11 | 0x21 => 8
  | _ => (bits + 2 + 63) / 64

/-- Pages and accumulator limbs that the act claims of a Maelhoavo engine (R244): by its curve, or by its modulus of SIZE limbs. -/
def claimOf (s : State) (c : Nat) (t : Ticket) (g : Option Grant) : Option (Nat × Nat) :=
  let k := setUsed t g
  let p : Nat := if t.act = 0x0201 then (objectCurve t.input).p else ((actCurve s c t g).map (fun w => w.p)).getD 0
  let rsa : Bool := t.act == 0x0231 || t.act == 0x0232
  actClaim t.act.toNat (if rsa then k else workingNa (if t.act = 0x0201 then 0x80 else k) (bitLen p)) (64 * k)

/-- Bytes of a shared secret of ECDH (R246). -/
def sharedLen (k : Nat) (c : Option WCurve) : Option Nat :=
  if k = 0x20 then some 32 else if k = 0x21 then some 56 else c.map (fun c => byteLen c.p)

def ksnBytes (code : Nat) : Nat := if code = 0 then 0 else if code = 1 then 10 else 12

/-- The public key of a stateful scheme (R220, R221): a supported typecode or OID, then the length it gives. HSS (RFC 8554): L, LMS type,
LM-OTS type, I, root. XMSS and XMSS^MT (RFC 8391): OID, root, seed; the OIDs that SP 800-208 approves. -/
def statefulKey (hss : Bool) (mt : Nat) (l : List Byte) : Option ActEnd :=
  let w (k : Nat) : Nat := bigEndian (slice l (4 * k) 4)
  let fits (ok : Bool) (n : Nat) : Option ActEnd :=
    if ok = false then some (invalid rsTypecode) else orEnd (l.length == n) (invalid rsLength)
  if hss then
    if l.length < 12 then some (invalid rsLength)
    else
      let lms := w 1
      let small : Bool := (0x0A ≤ lms && lms ≤ 0x0E) || (0x14 ≤ lms && lms ≤ 0x18)
      fits (1 ≤ w 0 && w 0 ≤ 8 && 5 ≤ lms && lms ≤ 0x18 && 1 ≤ w 2 && w 2 ≤ 0x10) (28 + (if small then 24 else 32))
  else if l.length < 4 then some (invalid rsLength)
  else
    let oid := w 0
    if mt = 0 then
      let small : Bool := (0x0D ≤ oid && oid ≤ 0x0F) || (0x13 ≤ oid && oid ≤ 0x15)
      fits ((1 ≤ oid && oid ≤ 3) || (0x0D ≤ oid && oid ≤ 0x15)) (4 + 2 * (if small then 24 else 32))
    else
      let small : Bool := (0x21 ≤ oid && oid ≤ 0x28) || (0x31 ≤ oid && oid ≤ 0x38)
      fits ((1 ≤ oid && oid ≤ 8) || (0x21 ≤ oid && oid ≤ 0x38)) (4 + 2 * (if small then 24 else 32))

/-- Input length of the act, against its layout. -/
def lengthCheck (s : State) (c : Nat) (t : Ticket) (g : Option Grant) : Option ActEnd :=
  let b (k : Nat) : Nat := t.num k 1
  let k := setUsed t g
  let n := t.inLen
  let own (m : Nat) : Nat := if hasKey t then 0 else m
  let exact (m : Nat) : Option ActEnd := orEnd (n == m) (invalid rsLength)
  let atMost (m : Nat) : Option ActEnd := orEnd (n ≤ m) (invalid rsLength)
  match t.act.toNat with
  | 0x0101 => exact (own (mlkemPk k))
  | 0x0102 => exact (mlkemCt k)
  | 0x0301 => exact (own (cmPk k))
  | 0x0302 => exact (cmCt k)
  | 0x0111 => ctxLayout t 0 (messageOk (b 51))
  | 0x0112 => ctxLayout t (mldsaSig k + own (mldsaPk k)) (messageOk (b 51))
  | 0x0121 => ctxLayout t 0 (messageOk (b 51))
  | 0x0122 => ctxLayout t (slhSig k + own (slhPk k)) (messageOk (b 51))
  | 0x0131 | 0x0132 =>
    if n < 6 then some (invalid rsLength)
    else match inputKnown t 0 2 with
      | none => none
      | some l =>
        let pk := natOf l
        if n < 6 + pk ∨ (hasKey t ∧ pk ≠ 0) then some (invalid rsLength)
        else match inputKnown t (2 + pk) 4 with
          | none => none
          | some l =>
            if !(decide (6 + pk + natOf l ≤ n) && decide (n - (6 + pk + natOf l) ≤ messageMax)) then some (invalid rsLength)
            else
              let key := match g with
                | some g => some (keyBytes s c g)
                | none => inputKnown t 2 pk
              key.bind (statefulKey (t.act == 0x0131) (b 50))
  | 0x0140 => atMost messageMax
  | 0x0201 =>
    match inputKnown t 0 1 with
    | some l => orEnd (20 ≤ natOf l && natOf l ≤ 66 && n == 6 * natOf l + 3) (invalid rsLength)
    | none => if n = 0 then some (invalid rsLength) else none
  | 0x0211 => orEnd (1 ≤ n && n ≤ 64) (invalid rsLength)
  | 0x0212 =>
    match actCurve s c t g with
    | some w =>
      let head := own (1 + 2 * byteLen w.p) + 2 * byteLen w.n
      orEnd (head + 1 ≤ n && n ≤ head + 64) (invalid rsLength)
    | none => none
  | 0x0213 =>
    match sharedLen k (actCurve s c t g) with
    | none => none
    | some m => if secretFits t m = false then some (invalid rsParam) else if k = 0x20 ∨ k = 0x21 then exact m else exact (1 + 2 * m)
  | 0x0221 => (eddsaContext t k).or (ctxLayout t 0 (fun m => if b 51 == 2 then m == 64 else m ≤ messageMax))
  | 0x0222 =>
    let fixed := if k = 0x11 then 114 + own 57 else 64 + own 32
    (eddsaContext t k).or (ctxLayout t fixed (fun m => if b 51 == 2 then m == 64 else m ≤ messageMax))
  | 0x0231 =>
    match b 51 with
    | 0 => exact (8 * k)
    | 1 => atMost (8 * k - 11)
    | _ => exact (([32, 48, 64]).getD (b 52 - 1) 0)
  | 0x0232 => exact (own (8 * k + 4) + 8 * k)
  | 0x0401 =>
    let head := ksnBytes (b 56) + (if b 50 = 4 then 16 else 8)
    if n < head + 1 then some (invalid rsLength)
    else match inputKnown t head 1 with
      | some l => exact (head + 1 + natOf l)
      | none => none
  | 0x0411 => orEnd (ksnBytes (b 53) ≤ n && n ≤ ksnBytes (b 53) + messageMax) (invalid rsLength)
  | 0x0412 => orEnd (ksnBytes (b 53) + b 52 ≤ n && n ≤ ksnBytes (b 53) + b 52 + messageMax) (invalid rsLength)
  | 0x0421 =>
    match g with
    | some g =>
      let block := if workIsTdes (b 52) g then 8 else 16
      let head := ksnBytes (b 52) + (if b 51 = 1 then block else 0)
      orEnd (head ≤ n && n - head ≤ messageMax && (n - head) % block == 0) (invalid rsLength)
    | none => none
  | 0x0511 =>
    if loadedWord (newWord t) then
      (exact 4).or (if (wordCurve s t).isSome then none else (inputKnown t 0 4).map (noCurve s c t))
    else exact 0
  | 0x0512 =>
    if loadedWord (newWord t) then
      if n < 4 then some (invalid rsLength)
      else match wordCurve s t with
        | some w => exact (5 + 2 * byteLen w.p)
        | none => (inputKnown t 0 4).map (noCurve s c t)
    else (dataLen (newWord t)).bind exact
  | 0x0514 =>
    match inputKnown t 0 24 with
    | none => orEnd (84 ≤ n) (invalid rsLength)
    | some l =>
      let m := natOf (slice l 4 4)
      let word : W64 := BitVec.ofNat 64 (natOf (slice l 16 8))
      orEnd (slice l 0 4 == [0x4B, 0x53, 0x42, 0x31] && n == m + 84 && ((dataLen word).all (fun k => k == m))) (invalid rsLength)
  | _ => none

/-! ### Check 5: the output -/

def actDigestLen (t : Ticket) : Nat :=
  match t.num 50 1 with
  | 0x10 | 0x20 => 28
  | 0x11 | 0x21 => 32
  | 0x12 | 0x22 => 48
  | 0x13 | 0x23 => 64
  | 0x24 => 28
  | 0x25 => 32
  | _ => t.num 52 4

/-- Bytes that the act writes when it completes DONE; none where more than the ticket and the keys decides it. -/
def outputLen (s : State) (c : Nat) (t : Ticket) (g : Option Grant) : Option Nat :=
  let b (k : Nat) : Nat := t.num k 1
  let k := setUsed t g
  let curve : Option Nat := (actCurve s c t g).map (fun w => 2 * byteLen w.n)
  match t.act.toNat with
  | 0x0101 => some (mlkemCt k)
  | 0x0301 => some (cmCt k)
  | 0x0111 => some (mldsaSig k)
  | 0x0121 => some (slhSig k)
  | 0x0140 => some (actDigestLen t)
  | 0x0211 => curve
  | 0x0221 => some (if k = 0x11 then 114 else 64)
  | 0x0231 | 0x0232 => some (8 * k)
  | 0x0401 => some (if b 51 = 4 then 16 else 8)
  | 0x0411 => some (b 52)
  | 0x0421 =>
    g.map (fun g =>
      t.inLen - ksnBytes (b 52) - (if b 51 = 1 then (if workIsTdes (b 52) g then 8 else 16) else 0))
  | 0x0432 => (secondGrant s c t).map (fun h => blockLen (b 50) h.attr)
  | 0x0433 => translatedLen t
  | 0x0513 => g.map (fun g => g.len)
  | 0x0501 => some (if b 50 = 1 then 32 else 0)
  | 0x0511 =>
    let a := newWord t
    if attrPart a ≠ 1 then some 0
    else if attrFamily a = 0x10 then (wordCurve s t).map (fun w => 1 + 2 * byteLen w.p)
    else dataLen (publicWord a)
  | 0x0802 => some 2592
  | _ => some 0

/-! ### Check 6: encodings of public inputs -/

/-- One bits of a number below 2^n. -/
def oneBits (n v : Nat) : Nat := ((List.range n).filter (fun k => v / 2 ^ k % 2 = 1)).length

/-- The KSN's counter (R274). -/
def ksnOk (code : Nat) (l : List Byte) : Bool :=
  if code = 1 then let n := oneBits 21 (bigEndian l); 1 ≤ n && n ≤ 10
  else let n := oneBits 32 (bigEndian l); 1 ≤ n && n ≤ 16

def ksnCheck (t : Ticket) (code : Nat) : Option ActEnd :=
  if code = 0 then none
  else match inputKnown t 0 (ksnBytes code) with
    | some l => orEnd (ksnOk code l) (invalid rsKsn)
    | none => none

/-- The PAN: 13 to 19 ASCII digits (R271). -/
def panCheck (t : Ticket) (at_ : Nat) : Option ActEnd :=
  match inputKnown t at_ (t.inLen - at_) with
  | some l => orEnd (13 ≤ l.length && l.length ≤ 19 && l.all (fun d => 0x30 ≤ d.toNat && d.toNat ≤ 0x39)) (invalid rsPan)
  | none => none

/-- The FIPS 203 modulus check of an encapsulation key of a SET, k = SET + 1: every 12-bit coefficient of its first 384k bytes is below
3,329. -/
def modulusOk (set_ : Nat) (ek : List Byte) : Bool :=
  (List.range (128 * (set_ + 1))).all (fun j =>
    let v := natOf (slice ek (3 * j) 3)
    v % 4096 < 3329 && v / 4096 < 3329)

/-- Permissions that a header allows: its usage and mode as mask bits, E or S as export (R278, R279). -/
def headerAllows (l : List Byte) : Nat :=
  let mode := byteAt l 8
  match byteAt l 5 with
  | 0x50 => 1
  | 0x4D => (if mode = 0x56 then 0 else 2) + (if mode = 0x47 then 0 else 4)
  | 0x44 => (if mode = 0x44 then 0 else 8) + (if mode = 0x45 then 0 else 16)
  | 0x4B => 32
  | _ => 0x5F
/-- Under a header of a DUKPT base key the word is a base key's, with bit 6; its working usages are the word's own. -/
def wordAllowed (l : List Byte) (a : W64) : Bool :=
  Nat.land (attrUsage a) (headerAllows l) == attrUsage a && (byteAt l 5 != 0x42 || bit a 46) && (!attrExport a || !ascii 0x4E l 11)

/-- Import and translation of a key block (R277–R280). -/
def blockCheck (s : State) (c : Nat) (t : Ticket) (g : Grant) : Option ActEnd :=
  let format := t.num 50 1
  if format = 0x10 then
    if !(t.inLen == 24 || t.inLen == 32 || t.inLen == 40) then some (invalid rsHeader)
    else
      let key : Bool := keyIsTdes (newWord t) || keyIsAes (newWord t)
      orEnd (!key || decide (keyStrength (newWord t) ≤ keyStrength g.attr)) (invalid rsNotPermitted)
  else match inputKnown t 0 t.inLen with
    | none => none
    | some l =>
      if headerOk format l = false then some (invalid rsHeader)
      else
        let translate : Bool := t.act == 0x0433
        let out : Bool := match secondGrant s c t with
          | some h => !translate || (headerStrength l ≤ keyStrength h.attr && !(t.num 51 1 == 1 && headerAes l))
          | none => true
        orEnd (headerStrength l ≤ keyStrength g.attr && !(format == 1 && headerAes l) && !(translate && ascii 0x4E l 11) && out
            && (translate || wordAllowed l (newWord t)))
          (invalid rsNotPermitted)

/-- A loaded curve's fields are in range (R242). -/
def curveFieldsOk (l : List Byte) : Bool :=
  let n := byteAt l 0
  let f (k : Nat) : Nat := bigEndian (slice l (1 + n * k) n)
  decide (2 ^ 159 ≤ f 0) && decide (2 ^ (8 * (n - 1)) ≤ f 0) && (List.range 4).all (fun k => f (k + 1) < f 0)

/-- An end with output length 0. -/
def bare (status : Byte) : ActEnd := { status := status, len := 0 }

/-- A point that does not decode (R247). -/
def pointEnd (w : WCurve) (l : List Byte) : Option ActEnd := orEnd (w.decode l).isSome (bare stNotOnCurve)

/-- An RSA public key of the input: n and e odd, e at least 3 (R247, R300). -/
def rsaKeyOk (n e : Nat) : Bool := n % 2 == 1 && e % 2 == 1 && decide (3 ≤ e)

/-- ECDH's edge inputs: the private scalar, the peer's point, the result (R247). -/
def ecdhEnd (w : WCurve) (d : Nat) (peer : List Byte) : Option ActEnd :=
  if d = 0 ∨ w.n ≤ d then some (bare stDecode)
  else (pointEnd w peer).or (orEnd (w.mul (w.h * d) (w.decode peer)).isSome (bare stNotOnCurve))

/-- ECDSA_VERIFY's edge inputs: the point, r and s (R247). -/
def ecdsaEnd (w : WCurve) (point sig : List Byte) : Option ActEnd :=
  let ln := byteLen w.n
  let r := bigEndian (sig.take ln)
  let v := bigEndian (slice sig ln ln)
  (pointEnd w point).or (orEnd (0 < r && r < w.n && 0 < v && v < w.n) (bare stSigInvalid))

/-- The RSA public key in use: that of the granted key, else of the input. -/
def rsaPublic (g : Option (List Byte)) (l : List Byte) (size : Nat) : Nat × Nat :=
  let b := g.getD l
  (bigEndian (b.take (8 * size)), bigEndian (slice b (8 * size) 4))

/-- The edge inputs of R247 whose place in the input is known. -/
def edgeCheck (s : State) (c : Nat) (t : Ticket) (g : Option Grant) (l : List Byte) : Option ActEnd :=
  let k := setUsed t g
  let key := (g.map (keyBody s c)).getD []
  let own (m : Nat) : Nat := if hasKey t then 0 else m
  match t.act.toNat with
  | 0x0211 =>
    (actCurve s c t g).bind (fun w => let d := bigEndian key; orEnd (0 < d && d < w.n) (bare stDecode))
  | 0x0212 =>
    (actCurve s c t g).bind (fun w =>
      let m := own (1 + 2 * byteLen w.p)
      ecdsaEnd w (if hasKey t then key else l.take m) (l.drop m))
  | 0x0213 =>
    if k = 0x20 ∨ k = 0x21 then orEnd ((montgomery (k == 0x20) key l).any (fun b => b != 0)) (bare stDecode)
    else (actCurve s c t g).bind (fun w => ecdhEnd w (bigEndian key) l)
  | 0x0222 =>
    let e := if k = 0x11 then ed448 else ed25519
    let head := 1 + byteAt l 0 + 2 * e.len
    if hasKey t then none else orEnd (e.decode (slice l head e.len)).isSome (bare stNotOnCurve)
  | 0x0231 =>
    if t.num 51 1 = 0 then orEnd (bigEndian l < (rsaPublic (some key) [] k).1) (bare stDecode) else none
  | 0x0232 =>
    let r := rsaPublic (g.map (fun _ => key)) l k
    orEnd ((hasKey t || rsaKeyOk r.1 r.2) && bigEndian (l.drop (own (8 * k + 4))) < r.1) (bare stDecode)
  | _ => none

/-- KEY_LOAD_PUBLIC's checks of the public key (R300). -/
def loadPublicEnd (s : State) (t : Ticket) (l : List Byte) : Option ActEnd :=
  let a := newWord t
  let k := attrSet a
  match attrFamily a with
  | 0x01 => orEnd (modulusOk k l) (bare stDecode)
  | 0x10 => (wordCurve s t).bind (fun w => pointEnd w (if k = 0x80 then l.drop 4 else l))
  | 0x11 =>
    if k = 0x10 then orEnd (ed25519.decode l).isSome (bare stNotOnCurve)
    else if k = 0x11 then orEnd (ed448.decode l).isSome (bare stNotOnCurve) else none
  | 0x12 =>
    let r := rsaPublic none l k
    orEnd (rsaKeyOk r.1 r.2 && byteAt l 0 != 0) (bare stDecode)
  | _ => none

/-- Check 6, for an input that the device has got. -/
def inputCheck (s : State) (c : Nat) (t : Ticket) (g : Option Grant) : Option ActEnd :=
  let b (k : Nat) : Nat := t.num k 1
  match t.act.toNat with
  | 0x0101 =>
    if hasKey t then none
    else (inputKnown t 0 t.inLen).bind (fun l => orEnd (modulusOk (setUsed t g) l) (bare stDecode))
  | 0x0201 => (inputKnown t 0 t.inLen).bind (fun l => orEnd (curveFieldsOk l) (invalid rsLength))
  | 0x0401 =>
    (panCheck t (ksnBytes (b 56) + (if b 50 = 4 then 16 else 8) + 1)).or (ksnCheck t (b 56))
  | 0x0411 | 0x0412 => ksnCheck t (b 53)
  | 0x0421 => ksnCheck t (b 52)
  | 0x0431 | 0x0433 => g.bind (blockCheck s c t)
  | 0x0512 => (inputKnown t 0 t.inLen).bind (loadPublicEnd s t)
  | _ => (inputKnown t 0 t.inLen).bind (edgeCheck s c t g)

/-! ### LOAD_ACT and UNLOAD_ACT (R127) -/

/-- The outcomes of LOAD_ACT that its image decides, checked in the order of a patch image; whether the signature verifies is the
act's own finding. -/
def loadActEnd (s : State) (t : Ticket) (verifies : Bool) : Option ActEnd :=
  match inputKnown t 0 t.inLen with
  | none => none
  | some l =>
    let h := actHeader l
    let key := actKey (BitVec.ofNat 16 h.number) (some t.iid)
    if h.valid l = false ∨ h.imageSize ≠ l.length then some (invalid 1)
    else if h.number < 0x4000 ∨ 0xFFFE < h.number then some (invalid 2)
    else if h.signer ≠ 2 then some (invalid 1)
    else if h.stepOk s = false then some (invalid 5)
    else if verifies = false then none
    else if versionHigher s key h.version = false then some (invalid 3)
    else orEnd (installAct h (some t.iid) (actCode l h) 0 s).isSome (invalid 4)

def unloadActEnd (s : State) (t : Ticket) : Option ActEnd :=
  let n : Half := BitVec.ofNat 16 (t.num 50 2)
  orEnd (s.acts.acts.any (fun a => a.number == n && a.iid == some t.iid && a.enabled)) (invalid 6)

/-! ### In the order of R205 -/

/-- The staging area that the act holds for a slot by a request code. -/
def stagingOf (s : State) (c : Nat) (h : W32) (u : Nat) : Option Grant :=
  (core s c).grants.find? (fun g => g.staging && g.handle == h && g.usage.toNat == u)

/-- The act has reserved the slots it fills, before it computes anything (R211, R242, R246, R252, R279, R299, R300); KEY_RELOAD has had its
blob accepted (R304). -/
def slotsReserved (s : State) (c : Nat) (t : Ticket) : Option ActEnd :=
  let need (h : W32) (u : Nat) : Option ActEnd := orEnd (stagingOf s c h u).isSome (ungranted s c t h u)
  let dest := if hasSlot t then need (destOf t) 0x30 else none
  dest.or (
    if t.act = 0x0511 ∧ t.num 50 1 = 1 then need (destOf t + 1) 0x36
    else if t.act = 0x0514 then
      (inputKnown t 0 12).bind (fun l => need (BitVec.ofNat 32 (2 ^ 23 * t.iid + natOf (slice l 8 4) % 2 ^ 23)) 0x37)
    else none)

/-- The end that a failed check decides; none where every check passes. The refusal of a reservation stands behind check 6 and before the
draw of check 7: R211 says no more than before the act computes anything (DESIGN CHOICE, assumption 108). -/
def checksEnd (s : State) (c : Nat) (t : Ticket) : Option ActEnd :=
  let g := ownGrant s c t
  (paramCheck t).or ((keysGranted s c t).or ((g.bind (keyCheck s c t)).or ((curveCheck s c t g).or ((lengthCheck s c t g).or (
    ((outputLen s c t g).bind (fun n => orEnd (n ≤ t.outCap) (invalid n))).or ((inputCheck s c t g).or (slotsReserved s c t)))))))

end Sys2Proof.Machine
end

