-- ==== Sys2Proof/Machine/Goppa.lean ====
section
/-!
DEFINITION. Decoding of the binary Goppa codes of Classic McEliece (R251, R257): the private key's fields, the support from the control bits
of a Beneš network, syndromes, Berlekamp–Massey, roots.
-/
namespace Sys2Proof.Machine

open Sys2Proof

/-- m, n and t of a set (R251); mt rows of T. -/
def cmParams (k : Nat) : Nat × Nat × Nat := ([(12, 3488, 64), (13, 4608, 96), (13, 6688, 128), (13, 8192, 128)]).getD (k - 1) (12, 3488, 64)
/-- m and the polynomial of the set's field (R139). -/
def cmField (k : Nat) : Nat × Nat := (gfField (if k = 1 then 0 else 1)).getD (12, 0x1009)

/-- Bytes of a vector of bits: bit i in byte i / 8, at position i mod 8. -/
def packBits (l : List Bool) : List Byte :=
  (List.range (l.length / 8)).map (fun j => BitVec.ofNat 8 (pack ((List.range 8).map (fun i => (b2n (l.getD (8 * j + i) false), i)))))
def bitAt (l : List Byte) (i : Nat) : Bool := bit (l.getD (i / 8) 0) (i % 8)

/-! ### The private key δ ‖ c ‖ g ‖ α ‖ s -/

/-- Coefficients of g, of degree t and monic, lowest first. -/
def cmGoppa (k : Nat) (key : List Byte) : List Nat :=
  let t := (cmParams k).2.2
  (List.range t).map (fun j => natOf (slice key (40 + 2 * j) 2)) ++ [1]
/-- The control bits: 2m − 1 stages of 2^(m−1). -/
def cmControl (k : Nat) (key : List Byte) : List Byte :=
  let p := cmParams k
  slice key (40 + 2 * p.2.2) ((2 * p.1 - 1) * 2 ^ (p.1 - 1) / 8)
/-- s, n bits. -/
def cmReject (k : Nat) (key : List Byte) : List Byte :=
  let p := cmParams k
  slice key (40 + 2 * p.2.2 + (2 * p.1 - 1) * 2 ^ (p.1 - 1) / 8) (p.2.1 / 8)

/-! ### The support -/

/-- Stage i of the network: pair j swaps where its control bit is 1. -/
def benesStage (m i : Nat) (control : Nat → Bool) (l : List Nat) : List Nat :=
  let gap := 2 ^ min i (2 * m - 2 - i)
  (List.range l.length).map (fun x =>
    let low : Bool := x / gap % 2 == 0
    let pos := if low then x else x - gap
    l.getD (if control (pos % gap + gap * (pos / (2 * gap))) then (if low then x + gap else x - gap) else x) 0)

/-- α_0 to α_(n−1): the permuted indices, their m bits reversed. -/
def cmSupport (k : Nat) (key : List Byte) : List Nat :=
  let p := cmParams k
  let m := p.1
  let control := cmControl k key
  let perm := (List.range (2 * m - 1)).foldl (fun l i => benesStage m i (fun j => bitAt control (i * 2 ^ (m - 1) + j)) l) (List.range (2 ^ m))
  (perm.take p.2.1).map (fun x => (List.range m).foldl (fun n b => 2 * n + x / 2 ^ b % 2) 0)

/-! ### Decoding -/

/-- A polynomial, lowest coefficient first, at a point. -/
def gfEval (f : Nat × Nat) (cs : List Nat) (x : Nat) : Nat := cs.foldr (fun c r => c ^^^ gfMul f.1 f.2 x r) 0

/-- The 2t syndromes of a vector: the sums of v_i α_i^j / g(α_i)². -/
def cmSyndromes (f : Nat × Nat) (g support : List Nat) (v : List Bool) (count : Nat) : List Nat :=
  let terms := ((support.zip v).filter (fun x => x.2)).map (fun x =>
    let y := gfEval f g x.1
    (x.1, gfInv f.1 f.2 (gfMul f.1 f.2 y y)))
  ((List.range count).foldl (fun (r : List Nat × List (Nat × Nat)) _ =>
    (r.1 ++ [r.2.foldl (fun n y => n ^^^ y.2) 0], r.2.map (fun y => (y.1, gfMul f.1 f.2 y.1 y.2)))) ([], terms)).1

/-- State of Berlekamp–Massey: connection polynomial, the one before, its length and discrepancy. -/
structure Massey where
  cs : List Nat
  bs : List Nat
  len : Nat := 0
  b : Nat := 1
  deriving DecidableEq, Repr

/-- Iteration n on the syndromes. -/
def Massey.step (f : Nat × Nat) (t : Nat) (syn : List Nat) (x : Massey) (n : Nat) : Massey :=
  let mul := gfMul f.1 f.2
  let d := (List.range (min n t + 1)).foldl (fun r i => r ^^^ mul (x.cs.getD i 0) (syn.getD (n - i) 0)) 0
  let q := mul d (gfInv f.1 f.2 x.b)
  let cs := if d = 0 then x.cs else (List.range (t + 1)).map (fun i => x.cs.getD i 0 ^^^ mul q (x.bs.getD i 0))
  if d ≠ 0 ∧ 2 * x.len ≤ n then { cs := cs, bs := 0 :: x.cs.take t, len := n + 1 - x.len, b := d }
  else { x with cs := cs, bs := 0 :: x.bs.take t }

/-- The locator of 2t syndromes, its coefficients reversed: it is 0 at the α_i of the errors. -/
def cmLocator (f : Nat × Nat) (t : Nat) (syn : List Nat) : List Nat :=
  let start : Massey := { cs := 1 :: List.replicate t 0, bs := 0 :: 1 :: List.replicate (t - 1) 0 }
  ((List.range (2 * t)).foldl (Massey.step f t syn) start).cs.reverse

/-- The error vector found in v = C ‖ 0, and b: its weight is t and its syndromes are those of v. -/
def cmDecode (k : Nat) (key ct : List Byte) : Bool × List Bool :=
  let p := cmParams k
  let t := p.2.2
  let f := cmField k
  let g := cmGoppa k key
  let support := cmSupport k key
  let syn := cmSyndromes f g support ((List.range p.2.1).map (bitAt ct)) (2 * t)
  let locator := cmLocator f t syn
  let e := support.map (fun a => gfEval f locator a == 0)
  ((e.filter id).length == t && cmSyndromes f g support e (2 * t) == syn, e)

end Sys2Proof.Machine
end

