-- ==== Sys2Proof/Machine/ActResults.lean ====
section
/-!
DEFINITION. What the vendor acts compute once their checks pass (R209, R211–R218, R221, R223, R242, R243, R246, R249, R256–R258, R272–R280,
R298–R300): the status, the output, the slots they fill; and how an EXIT of a vendor act takes these results (assumptions 35 and 108).
-/
namespace Sys2Proof.Machine

open Sys2Proof

/-- What an act leaves: its end, the output it writes, and the data it puts into staging areas, by handle and request code. -/
structure ActOut where
  fin : ActEnd
  out : List Byte := []
  fill : List (W32 × Nat × List Byte) := []
  /-- the attempt released (R195) -/
  attempt : Nat := 0
  /-- bytes at an offset from WSBASE, with their tag -/
  lines : List (Nat × List Byte × Tag) := []
  deriving DecidableEq, Repr

/-- DONE with these output bytes; with one slot filled; an end with nothing written. -/
def doneOut (b : List Byte) : ActOut := { fin := { status := stDone, len := b.length }, out := b }
def doneFill (h : W32) (b : List Byte) : ActOut := { fin := bare stDone, fill := [(h, 0x30, b)] }
def endOut (e : ActEnd) : ActOut := { fin := e }
def verdict (ok : Bool) : ActOut := endOut (bare (if ok then stDone else stSigInvalid))

/-! ### Randomness (R207, R246, R299) -/

/-- Fresh values that one act takes at most. -/
def actDraws : Nat := 256
/-- Draw k of the act, of w bits; of n bytes. -/
def drawBits (s : State) (k w : Nat) : Nat := (Config.freeBits w (s.fresh + k)).toNat
def drawBytes (s : State) (k n : Nat) : List Byte := freeBytes n (s.fresh + k)

/-- The act's draw of n bytes (R207, R256, R299): what its RANDOM command delivered, which must have asked for prediction resistance where OPT
asks for it (R204); a free value where it has made no such draw. -/
def randomOf (s : State) (c : Nat) (t : Ticket) (n : Nat) : List Byte :=
  let e := hashEng s c 0
  let pr : Bool := (t.act == 0x0111 || t.act == 0x0121) && (t.num 52 1).testBit 3
  if e.drawn.length = n ∧ (pr → e.drawnPr) then e.drawn else drawBytes s 0 n

/-- The act draws DRBG output for the ticket, so that it can end NOT_READY (R207, R243, R246, R256, R267, R299). -/
def actDrawsRandom (t : Ticket) : Bool :=
  match t.act.toNat with
  | 0x0111 | 0x0121 => t.num 52 1 % 2 == 0
  | n => [0x0101, 0x0201, 0x0211, 0x0213, 0x0221, 0x0231, 0x0301, 0x0401, 0x0511].contains n

/-- A draw of the ticket delivered nothing: a PINFMT of PIN_TRANSLATE (R267, R273), the RANDOM of another act (R207). -/
def drawFailed (s : State) (c : Nat) (t : Ticket) : Bool :=
  if t.act = 0x0401 then (bcEng s c 0).notReady || (bcEng s c 1).notReady else (hashEng s c 0).notReady

/-! ### Lattice and hash-based acts -/

/-- DER object identifier of the prehash of a MODE: SHA-256, SHA-512, SHAKE128, SHAKE256 (FIPS 204, FIPS 205). -/
def prehashOid (mode : Nat) : List Byte :=
  [0x06, 0x09, 0x60, 0x86, 0x48, 0x01, 0x65, 0x03, 0x04, 0x02, BitVec.ofNat 8 (([1, 3, 0x0B, 0x0C]).getD (mode - 1) 0)]

/-- M′ by MODE (R214). -/
def messageRep (mode : Nat) (ctx m : List Byte) : List Byte :=
  if mode = 0 then 0x00 :: BitVec.ofNat 8 ctx.length :: ctx ++ m
  else 0x01 :: BitVec.ofNat 8 ctx.length :: ctx ++ prehashOid mode ++ m

/-- The ctx of an input, and what follows it. -/
def ctxOf (l : List Byte) : List Byte × List Byte := (slice l 1 (byteAt l 0), l.drop (1 + byteAt l 0))

/-- Signature, public key and message field of a verification's input behind its ctx. -/
def verifyParts (l : List Byte) (sig pk : Nat) : List Byte × List Byte × List Byte := (l.take sig, slice l sig pk, l.drop (sig + pk))

/-- Attempts to a round (R204, R215); a signature's search covers 256 rounds, in order, the lowest accepted index first. -/
def roundAttempts (t : Ticket) : Nat := ([4, 2, 1]).getD (t.num 52 1 / 2 % 4) 1
def mldsaSign (t : Ticket) (k : Nat) (sk m rnd : List Byte) : ActOut :=
  match (List.range (256 * roundAttempts t)).find? (Config.mldsaAccepts k sk m rnd) with
  | some g => { doneOut (bytesFrom (Config.mldsaAttempt k sk m rnd g) (mldsaSig k)) with attempt := g % roundAttempts t }
  | none => endOut (invalid rsRounds)

/-- Signing and verification of ML-DSA and SLH-DSA. -/
def signatureAct (s : State) (c : Nat) (t : Ticket) (k : Nat) (key l : List Byte) : Option ActOut :=
  let p := ctxOf l
  let mode := t.num 51 1
  let fixed : Bool := t.num 52 1 % 2 == 1
  let pk (m : Nat) : Nat := if hasKey t then 0 else m
  let check (sig m : Nat) (f : List Byte → List Byte → List Byte → Bool) : ActOut :=
    let v := verifyParts p.2 sig (pk m)
    verdict (f (if hasKey t then key else v.2.1) (messageRep mode p.1 v.2.2) v.1)
  match t.act.toNat with
  | 0x0111 => some (mldsaSign t k key (messageRep mode p.1 p.2) (if fixed then List.replicate 32 0 else randomOf s c t 32))
  | 0x0112 => some (check (mldsaSig k) (mldsaPk k) (Config.mldsaVerify k))
  | 0x0121 =>
    let n := slhPk k / 2
    let opt := if fixed then slice key (2 * n) n else randomOf s c t n
    some (doneOut (bytesFrom (Config.slhSign k key (messageRep mode p.1 p.2) opt) (slhSig k)))
  | 0x0122 => some (check (slhSig k) (slhPk k) (Config.slhVerify k))
  | _ => none

/-- LMS_HSS_VERIFY and XMSS_VERIFY (R221). -/
def statefulAct (t : Ticket) (key l : List Byte) : ActOut :=
  let pk := natOf (l.take 2)
  let sig := natOf (slice l (2 + pk) 4)
  let f := if t.act = 0x0131 then Config.hssVerify else Config.xmssVerify (t.num 50 1)
  verdict (f (if hasKey t then key else slice l 2 pk) (slice l (6 + pk) sig) (l.drop (6 + pk + sig)))

/-- HASH (R223). -/
def hashAct (t : Ticket) (l : List Byte) : ActOut :=
  let a := t.num 50 1
  doneOut (bytesFrom (hashByte (if a < 0x20 then 0 else 1) (a % 16) l) (actDigestLen t))

/-- ML-KEM (R211, R212). -/
def mlkemAct (s : State) (c : Nat) (t : Ticket) (k : Nat) (key l : List Byte) : ActOut :=
  if t.act = 0x0102 then doneFill (destOf t) (bytesFrom (Config.mlkemDecaps k key l) 32)
  else
    let f := Config.mlkemEncaps k (if hasKey t then key else l) (randomOf s c t 32)
    { doneOut (bytesFrom f (mlkemCt k)) with fill := [(destOf t, 0x30, bytesFrom (fun j => f (mlkemCt k + j)) 32)] }

/-! ### Expanded matrices (R209, R210) -/

/-- ρ of an ML-KEM or ML-DSA key in any of its forms (FIPS 203, FIPS 204). -/
def rhoOf (a : W64) (key : List Byte) : List Byte :=
  let k := attrSet a
  if attrFamily a = 1 then
    if attrPart a = 0 then slice key (384 * (k + 1)) 32
    else if attrForm a = 1 then bytesFrom (hashByte 0 3 (key.take 32 ++ [BitVec.ofNat 8 (k + 1)])) 32
    else slice key (768 * (k + 1)) 32
  else if attrPart a = 1 ∧ attrForm a = 1 then
    bytesFrom (hashByte 0 5 (key.take 32 ++ [BitVec.ofNat 8 (([4, 6, 8]).getD (k - 1) 4), BitVec.ofNat 8 (([4, 5, 7]).getD (k - 1) 4)])) 32
  else key.take 32

/-- The polynomials of an r × c matrix, row by row, each of 256 coefficients of n bytes. -/
def matrixBytes (rows cols n : Nat) (f : Nat → Nat → Nat → Nat) : List Byte :=
  ((List.range rows).map (fun i => ((List.range cols).map (fun j =>
    ((List.range 256).map (fun m => bytesOf (f i j m) n)).flatten)).flatten)).flatten

/-- The form of a key: Â[i][j] from ρ, j, i, or Â[r][s] from ρ, s, r. -/
def formBytes (a : W64) (key : List Byte) : List Byte :=
  let rho := rhoOf a key
  let k := attrSet a
  if attrFamily a = 1 then matrixBytes (k + 1) (k + 1) 2 (fun i j m => Config.sampleNtt rho j i m % 3329)
  else matrixBytes (([4, 6, 8]).getD (k - 1) 4) (([4, 5, 7]).getD (k - 1) 4) 4 (fun r c m => Config.rejNtt rho c r m % 8380417)

/-- The range that a vendor act has offered holds its key's matrix. -/
def offerForm (c : Nat) (t : Ticket) (s : State) : State :=
  match (core s c).offer, ownGrant s c t with
  | some (a, n), some g =>
    if (formKind (actForm t.act.toNat 0) g.attr).isSome ∧ attrFamily g.attr ≤ 2 then
      bankWrite (c % 16) (.ring (ringOf c) (a - 0x1000000)) ((formBytes g.attr (keyBytes s c g)).take n) .pub s
    else s
  | _, _ => s

/-! ### Classic McEliece (R256–R258) -/

/-- e: 1 at the positions of the t smallest of n values, equal ones ordered by position. -/
def errorVector (n t : Nat) (value : Nat → Nat) : List Bool :=
  let vs := (List.range n).map (fun i => (value i, i))
  let before (x y : Nat × Nat) : Bool := x.1 < y.1 || (x.1 == y.1 && x.2 < y.2)
  vs.map (fun x => decide ((vs.filter (fun y => before y x)).length < t))

/-- C = H·e with H = (I | T), T row by row in the public key. -/
def cmCipher (rows n : Nat) (pk : List Byte) (e : List Bool) : List Byte :=
  let cols := n - rows
  packBits ((List.range rows).map (fun i =>
    (List.range cols).foldl (fun x j => x ^^ (bitAt pk (i * cols + j) && e.getD (rows + j) false)) (e.getD i false)))

def shake256 (m : List Byte) (n : Nat) : List Byte := bytesFrom (hashByte 0 5 m) n

def mcelieceAct (s : State) (c : Nat) (t : Ticket) (k : Nat) (key l : List Byte) : ActOut :=
  let p := cmParams k
  if t.act = 0x0302 then
    let d := cmDecode k key l
    let x := if d.1 then packBits d.2 else cmReject k key
    doneFill (destOf t) (shake256 (BitVec.ofNat 8 (b2n d.1) :: x ++ l) 32)
  else
    let stream := shake256 (randomOf s c t 32) (8 * p.2.1)
    let e := errorVector p.2.1 p.2.2 (fun i => natOf (slice stream (8 * i) 8))
    let ct := cmCipher (p.1 * p.2.2) p.2.1 (if hasKey t then key else l) e
    { doneOut ct with fill := [(destOf t, 0x30, shake256 (0x01 :: packBits e ++ ct) 32)] }

/-! ### Curves and RSA -/

/-- EC_LOAD_CURVE: the checks of R243, then the object (R242). -/
def loadCurveAct (s : State) (t : Ticket) (l : List Byte) : ActOut :=
  match (objectCurve l).fails (fun k => drawBits s k 521) with
  | some n => endOut { status := stParams, len := n }
  | none => doneFill (destOf t) l

/-- ECDSA_SIGN: a nonce after which r or s is 0 is drawn again (R247). -/
def ecdsaAct (s : State) (w : WCurve) (key l : List Byte) : Option ActOut :=
  let sign (k : Nat) : Nat × Nat := w.sign (bigEndian key) (w.digest l) (w.scalar (drawBits s k (bitLen w.n + 64)))
  ((List.range actDraws).find? (fun k => (sign k).1 != 0 && (sign k).2 != 0)).map (fun k =>
    doneOut (beBytes (byteLen w.n) (sign k).1 ++ beBytes (byteLen w.n) (sign k).2))

/-- ECDH's shared secret (R246): the X coordinate, with cofactor multiplication, or the RFC 7748 result. -/
def ecdhSecret (k : Nat) (w : Option WCurve) (key l : List Byte) : Option (List Byte) :=
  if k = 0x20 ∨ k = 0x21 then some (montgomery (k == 0x20) key l)
  else w.bind (fun w => (w.mul (w.h * bigEndian key) (w.decode l)).map (fun u => beBytes (byteLen w.p) u.1))

/-- MGF1, and EMSA-PSS and EMSA-PKCS1-v1_5 of n bytes (RFC 8017); `h` is the hash by its ALG on the SHA-2 engine. -/
def sha2Bytes (h : Nat) (m : List Byte) : List Byte := bytesFrom (hashByte 1 h m) (digestLen 1 h)
def mgf1 (h : Nat) (seed : List Byte) (n : Nat) : List Byte :=
  (((List.range (n / digestLen 1 h + 1)).map (fun j => sha2Bytes h (seed ++ beBytes 4 j))).flatten).take n
def emsaPss (h n : Nat) (digest salt : List Byte) : List Byte :=
  let d := digestLen 1 h
  let hash := sha2Bytes h (List.replicate 8 0 ++ digest ++ salt)
  let db := List.replicate (n - 2 * d - 2) 0 ++ [0x01] ++ salt
  let masked := xorBytes (mgf1 h hash (n - d - 1)) db
  ((masked.headD 0) &&& 0x7F) :: masked.drop 1 ++ hash ++ [0xBC]
def emsaPkcs1 (n : Nat) (info : List Byte) : List Byte :=
  [0x00, 0x01] ++ List.replicate (n - info.length - 3) 0xFF ++ [0x00] ++ info

/-- RSA_PRIVATE in CRT form: y is released only if y^e mod n is x (R249). -/
def rsaAct (size : Nat) (key em : List Byte) : ActOut :=
  let n := bigEndian (key.take (8 * size))
  let e := bigEndian (slice key (8 * size) 4)
  let f (j : Nat) : Nat := bigEndian (slice key (8 * size + 4 + 4 * size * j) (4 * size))
  let x := bigEndian em
  let a := powMod (f 0) (x % f 0) (f 2)
  let b := powMod (f 1) (x % f 1) (f 3)
  let y := b + f 1 * (f 4 * subMod (f 0) a b % f 0)
  if powMod n y e = x then doneOut (beBytes (8 * size) y) else endOut (bare stIntegrity)

/-- The message that RSA_PRIVATE raises, by MODE. -/
def rsaEncoded (s : State) (t : Ticket) (size : Nat) (l : List Byte) : List Byte :=
  match t.num 51 1 with
  | 0 => l
  | 1 => emsaPkcs1 (8 * size) l
  | _ => let h := t.num 52 1
         emsaPss h (8 * size) l (drawBytes s 0 (digestLen 1 h))

/-- The acts of chapter 9. -/
def bignumAct (s : State) (c : Nat) (t : Ticket) (g : Option Grant) (l : List Byte) : Option ActOut :=
  let k := setUsed t g
  let key := (g.map (keyBody s c)).getD []
  let w := actCurve s c t g
  let e := if k = 0x11 then ed448 else ed25519
  let p := ctxOf l
  match t.act.toNat with
  | 0x0201 => some (loadCurveAct s t l)
  | 0x0211 => w.bind (fun w => ecdsaAct s w key l)
  | 0x0212 =>
    w.map (fun w =>
      let m := if hasKey t then 0 else 1 + 2 * byteLen w.p
      let v := verifyParts (l.drop m) (2 * byteLen w.n) 0
      verdict (w.verify (w.decode (if hasKey t then key else l.take m)) (bigEndian (v.1.take (byteLen w.n)))
        (bigEndian (v.1.drop (byteLen w.n))) (w.digest v.2.2)))
  | 0x0213 => (ecdhSecret k w key l).map (doneFill (destOf t))
  | 0x0221 => some (doneOut (e.sign (t.num 51 1) key p.1 p.2))
  | 0x0222 =>
    let v := verifyParts p.2 (2 * e.len) (if hasKey t then 0 else e.len)
    some (verdict (e.verify (t.num 51 1) (if hasKey t then key else v.2.1) p.1 v.2.2 v.1))
  | 0x0231 => some (rsaAct k key (rsaEncoded s t k l))
  | 0x0232 =>
    let r := rsaPublic (g.map (fun _ => key)) l k
    some (doneOut (beBytes (8 * k) (powMod r.1 (bigEndian (l.drop (if hasKey t then 0 else 8 * k + 4))) r.2)))
  | _ => none

/-! ### Payment acts -/

/-- Cipher engine of a word's or of a DUKPT working key; the key that works: the granted one, or the one derived for a usage (R274). -/
def workEngine (code : Nat) (g : Grant) : Nat := b2n (workIsTdes code g)
def workKey (s : State) (c code usage : Nat) (g : Grant) (ksn : List Byte) : List Byte :=
  if code = 0 then keyBytes s c g
  else bytesFrom (Config.dukpt (code - 1) (keyBytes s c g) ksn usage) (if code = 3 then 32 else 16)

/-- The PAN record of the input's ASCII PAN (R271). -/
def panRecord (l : List Byte) : List Byte := padTo (BitVec.ofNat 8 l.length :: l.map (fun d => d - 0x30)) 32

/-- PIN_TRANSLATE (R272). -/
def pinAct (s : State) (c : Nat) (t : Ticket) (g h : Grant) (l : List Byte) : ActOut :=
  let code := t.num 56 1
  let a := t.num 50 1
  let b := t.num 51 1
  let ksn := l.take (ksnBytes code)
  let n := if a = 4 then 16 else 8
  let block := slice l (ksnBytes code) n
  let pan := panRecord (l.drop (ksnBytes code + n + 1))
  let clear := pinCipher false (workEngine code g) a (workKey s c code 1 g ksn) block pan
  let record := pinFormat 0 a clear pan (drawBytes s 0 16)
  doneOut (pinCipher true (b2n (keyIsTdes h.attr)) b (keyBytes s c h) (pinFormat 1 b record pan (drawBytes s 1 16)) pan)

/-- The engine MODE of a MAC's ALG and PAD (R262, R275). -/
def macMode (alg pad : Nat) : Nat := if alg = 0x10 then 4 else (if alg = 3 then 2 else 0) + (pad - 1)
/-- MAC_GENERATE and MAC_VERIFY (R275). -/
def macAct (s : State) (c : Nat) (t : Ticket) (g : Grant) (l : List Byte) : ActOut :=
  let code := t.num 53 1
  let n := t.num 52 1
  let ksn := l.take (ksnBytes code)
  let rest := l.drop (ksnBytes code)
  let mac (m : List Byte) : List Byte :=
    (bcMacOf (workEngine code g) (macMode (t.num 50 1) (t.num 51 1)) (workKey s c code (keyUsage t) g ksn) m).take n
  if t.act = 0x0411 then doneOut (mac rest) else verdict (mac (rest.drop n) == rest.take n)

/-- DATA_CIPHER (R276). -/
def dataAct (s : State) (c : Nat) (t : Ticket) (g : Grant) (l : List Byte) : ActOut :=
  let code := t.num 52 1
  let e := workEngine code g
  let ksn := l.take (ksnBytes code)
  let rest := l.drop (ksnBytes code)
  let key := workKey s c code (keyUsage t) g ksn
  let n := blockBytes e
  if t.num 51 1 = 0 then doneOut (ecb (t.num 50 1 == 0) e key rest)
  else if t.num 50 1 = 0 then doneOut (cbcEnc e key (rest.take n) (chunks n (rest.drop n)))
  else doneOut (cbcDec e key (rest.take n) (chunks n (rest.drop n)))

/-- Engine MODE of a wrapping FORMAT (R262, R277). -/
def wrapMode (format : Nat) : Nat := if format = 0x10 then 8 else format

/-- The key of a block under a protecting key: a block that does not authenticate, or whose key has a length that is not declared, gives a
drawn key of the declared algorithm's longest length (R280). -/
def unwrapped (s : State) (format : Nat) (kek block : List Byte) (declared : Nat → Bool) (longest : Nat) : List Byte :=
  let n := Config.blockKeyLen (wrapMode format) kek block
  if declared n && Config.blockOk (wrapMode format) kek block then bytesFrom (Config.blockKey (wrapMode format) kek block) n
  else drawBytes s 0 longest

/-- A key block's header with another version and length (R278, R279). -/
def decimal (w n : Nat) : List Byte := (List.range w).map (fun k => BitVec.ofNat 8 (0x30 + n / 10 ^ (w - 1 - k) % 10))
def versionId (format : Nat) : Byte := if format = 1 then 0x42 else if format = 2 then 0x43 else 0x44

/-- Usage and mode of use in the header of an exported key, from its permissions (R278): a DUKPT base key is B0 X; the digit and the modes
that the table leaves to choose from, and the usage of a word with permissions of several, are open. -/
def exportHeader (a : W64) : List Byte × Byte :=
  let u := attrUsage a
  let has (m : Nat) : Bool := Nat.land u m != 0
  let pick (j : Nat) (l : List Byte) : Byte := l.getD (Config.exportUsage a j % l.length) 0
  let groups : List Nat := [1, 6, 24, 32].filter has
  let both (m n : Nat) (x y z : Byte) : Byte := if has m && has n then z else if has m then x else y
  if has 64 then ([0x42, 0x30], 0x58)
  else match groups.getD (Config.exportUsage a 0 % groups.length) 1 with
    | 6 => ([0x4D, pick 1 [0x31, 0x33, 0x36]], both 2 4 0x47 0x56 0x43)
    | 24 => ([0x44, 0x30], both 8 16 0x45 0x44 0x42)
    | 32 => ([0x4B, pick 1 [0x30, 0x31]], pick 2 [0x45, 0x44, 0x42])
    | _ => ([0x50, 0x30], pick 2 [0x45, 0x44, 0x42])

/-- KEYBLOCK_IMPORT, KEYBLOCK_EXPORT and KEYBLOCK_TRANSLATE (R279, R280). -/
def keyblockAct (s : State) (c : Nat) (t : Ticket) (g : Grant) (l : List Byte) : Option ActOut :=
  let format := t.num 50 1
  let kek := keyBytes s c g
  match t.act.toNat with
  | 0x0431 =>
    let word := newWord t
    let n := (dataLen word).getD 0
    let fits : Bool := if format = 0x10 then keyIsTdes word || keyIsAes word else (if headerAes l then keyIsAes word else keyIsTdes word)
    some (doneFill (destOf t) ((unwrapped s format kek l (fun m => fits && m == n) (if keyIsTdes word then 24 else 32)).take n))
  | 0x0432 =>
    (secondGrant s c t).map (fun h =>
      let n := blockLen format h.attr
      let header := if format = 0x10 then []
        else versionId format :: decimal 4 n ++ (exportHeader h.attr).1
          ++ [if keyIsAes h.attr then 0x41 else 0x54, (exportHeader h.attr).2]
          ++ [0x30, 0x30, 0x45, 0x30, 0x30, 0x30, 0x30]
      doneOut (bytesFrom (Config.wrapKey (wrapMode format) kek (keyBytes s c h) ((algOfAttr h.attr).getD 0) header s.fresh) n))
  | 0x0433 =>
    match secondGrant s c t, translatedLen t, digits (slice l 12 2) with
    | some h, some n, some k =>
      let out := t.num 51 1
      let stop := (optionalEnd l k 16).getD 16
      let key := unwrapped s format kek l (fun m => m == 16 || m == (if headerAes l then 32 else 24)) (if headerAes l then 32 else 24)
      let header := versionId out :: decimal 4 n ++ slice l 5 (stop - 5)
      some (doneOut (bytesFrom (Config.wrapKey (wrapMode out) (keyBytes s c h) key (if headerAes l then 5 else 4) header (s.fresh + 1)) n))
    | _, _, _ => none
  | _ => none

/-! ### Key acts (R297–R304) -/

/-- The public data of private data (R289, R299): what the private data hold of them, else what the standard derives. -/
def publicData (a : W64) (w : Option WCurve) (key : List Byte) : List Byte :=
  let k := attrSet a
  match attrFamily a with
  | 0x03 => key.drop (key.length / 2)
  | 0x10 => (w.map (fun w => w.encode (w.mul (bigEndian key) w.gen))).getD []
  | 0x11 => rawPublic k key
  | 0x12 => key.take (8 * k + 4)
  | f => bytesFrom (Config.keyPublic f k key) ((dataLen (publicWord a)).getD 0)

/-- An RSA key of SIZE limbs from two probable primes, e = 65,537, in the encoding of R289, p > q. d comes from φ·t + 1 = e·d with
t = −1/φ modulo the prime e. -/
def rsaKey (size fresh : Nat) : List Byte :=
  let u := Config.rsaPrime (32 * size) fresh 0
  let v := Config.rsaPrime (32 * size) fresh 1
  let p := max u v
  let q := min u v
  let e := 65537
  let phi := (p - 1) * (q - 1)
  let d := (1 + phi * ((e - powMod e (phi % e) (e - 2)) % e)) / e
  let half (n : Nat) : List Byte := beBytes (4 * size) n
  beBytes (8 * size) (p * q) ++ beBytes 4 e ++ half p ++ half q ++ half (d % (p - 1)) ++ half (d % (q - 1)) ++ half (powMod p q (p - 2))

/-- KEY_GENERATE (R299): the private or secret data from the act's draw, the public key of PART 01 to the output, and with PAIR to the slot
one above. -/
def generateAct (s : State) (c : Nat) (t : Ticket) (l : List Byte) : Option ActOut :=
  let a := newWord t
  let f := attrFamily a
  let w := wordCurve s t
  let raw (n : Nat) : List Byte := randomOf s c t n
  let key : Option (List Byte) :=
    if f = 0x10 then w.map (fun w => beBytes (byteLen w.n) (w.scalar (drawBits s 0 (bitLen w.n + 64))))
    else (dataLen a).map (fun n =>
      if f = 0x11 ∨ attrPart a = 2 ∨ attrForm a = 1 then raw n
      else if f = 0x12 then rsaKey (attrSet a) s.fresh
      else bytesFrom (Config.keyMake f (attrSet a) 0 s.fresh) n)
  let handle := if loadedWord a then l.take 4 else []
  key.map (fun key =>
    let pub := if attrPart a = 1 then publicData a w key else []
    { doneOut pub with
      fill := (destOf t, 0x30, handle ++ key) :: (if t.num 50 1 = 1 then [(destOf t + 1, 0x36, handle ++ pub)] else []) })

/-- KEY_MANAGE, KEY_LOAD_PUBLIC, KEY_SAVE, KEY_RELOAD and ATTEST_PUBLIC. -/
def keyAct (s : State) (c : Nat) (t : Ticket) (g : Option Grant) (l : List Byte) : Option ActOut :=
  match t.act.toNat with
  | 0x0501 => if t.num 50 1 = 1 then g.map (fun g => doneOut (keyBytes s c g)) else some (doneOut [])
  | 0x0511 => generateAct s c t l
  | 0x0512 => some (doneFill (destOf t) l)
  | 0x0513 => g.map (fun g => doneOut (keyBytes s c g))
  | 0x0514 => some (doneOut [])
  | 0x0802 => (grantOf s c noHandle 0x38).map (fun g => doneOut (keyBytes s c g))
  | _ => none

/-! ### DOL_HANDSHAKE (R337) -/

/-- The ASCII bytes KX-DOLID-1. -/
def dolidLabel : List Byte := [0x4B, 0x58, 0x2D, 0x44, 0x4F, 0x4C, 0x49, 0x44, 0x2D, 0x31]

/-- The act on an INIT with the keys that its ticket names: the key schedule and TH in the two lines at WSBASE. A request that has no grant
ends it as the key store's refusal would; only a secret value has the derive usage (R287). The INIT of another ticket of the act is its
input, as far as it goes (assumption 35). -/
def handshakeAct (s : State) (c : Nat) (t : Ticket) : ActOut :=
  match grantOf s c t.handle 0x13, grantOf s c (destOf t) 0x19 with
  | none, _ => endOut (ungranted s c t t.handle 0x13)
  | some g, h =>
    if attrFamily g.attr ≠ 1 ∨ attrSet g.attr ≠ 2 then endOut (invalid rsSet)
    else match h with
      | none => endOut (ungranted s c t (destOf t) 0x19)
      | some h =>
        let init := padTo (t.input.take 1148) 1148
        let k := bytesFrom (Config.mlkemDecaps 2 (keyBytes s c g) (slice init 60 1088)) 32
        let th := sha3Bytes init
        { endOut (bare stDone) with
          lines := [(0, shake256 (dolidLabel ++ k ++ keyBytes s c h ++ th) 64, .secret), (64, th, .pub)] }

/-! ### The outcome -/

/-- What the act of the ticket computes, its checks passed, from an input that the device has got. -/
def actResult (s : State) (c : Nat) (t : Ticket) : Option ActOut :=
  let g := ownGrant s c t
  let k := setUsed t g
  let key := (g.map (keyBytes s c)).getD []
  (inputKnown t 0 t.inLen).bind (fun l =>
    let n := t.act.toNat
    if n = 0x0101 ∨ n = 0x0102 then some (mlkemAct s c t k key l)
    else if n = 0x0131 ∨ n = 0x0132 then some (statefulAct t key l)
    else if n = 0x0140 then some (hashAct t l)
    else if n = 0x0301 ∨ n = 0x0302 then some (mcelieceAct s c t k key l)
    else if n < 0x0200 then signatureAct s c t k key l
    else if n < 0x0300 then bignumAct s c t g l
    else if n < 0x0500 then
      g.bind (fun g =>
        if n = 0x0401 then (secondGrant s c t).map (fun h => pinAct s c t g h l)
        else if n = 0x0411 ∨ n = 0x0412 then some (macAct s c t g l)
        else if n = 0x0421 then some (dataAct s c t g l)
        else keyblockAct s c t g l)
    else keyAct s c t g l)

/-- The chapters decide the outcome of the act: the acts of the manual's tables, LOAD_ACT, UNLOAD_ACT and DOL_HANDSHAKE. -/
def decidesEnd (a : Half) : Bool := a == 0x0001 || a == 0x0002 || a == 0x0601 || (vendorAct a.toNat).isSome

/-- The outcome that the chapters give the act on core c at its EXIT: a failed check, no randomness, or its result. -/
def actOutcome (s : State) (c : Nat) (t : Ticket) (status : Byte) : Option ActOut :=
  if t.act = 0x0001 then (loadActEnd s t (status != stSigInvalid)).map endOut
  else if t.act = 0x0002 then (unloadActEnd s t).map endOut
  else if t.act = 0x0601 then some (handshakeAct s c t)
  else if (vendorAct t.act.toNat).isNone then none
  else
    match checksEnd s c t with
    | some e => some (endOut e)
    | none => if actDrawsRandom t ∧ drawFailed s c t then some (endOut (bare stNotReady)) else actResult s c t

/-! ### What an act leaves at its EXIT -/

/-- The data go into the act's staging areas: SECRET for a private or secret entry (R291, R296). -/
def fillStaging (c : Nat) (f : W32 × Nat × List Byte) (s : State) : State :=
  match stagingOf s c f.1 f.2.1 with
  | none => s
  | some g => bankWrite (c % 16) (g.place c) f.2.2 (if attrSecret g.attr then .secret else .pub) s
def fillAll (c : Nat) (o : ActOut) (s : State) : State := o.fill.foldl (fun s f => fillStaging c f s) s

/-- The act's lines stand at WSBASE. -/
def wsLines (c : Nat) (t : Ticket) (l : List (Nat × List Byte × Tag)) (s : State) : State :=
  l.foldl (fun s x => bankWrite (c % 16) (.ring (ringOf c) (t.wsBase - 0x1000000 + x.1)) x.2.1 x.2.2 s) s

/-- The point at which the act releases what it ends with, and how many bytes (R190, R202, R244, R252, R267, R304): its output; MAC_VERIFY
its computed MAC, within the working set (R275). -/
def actPoint (t : Ticket) (o : ActOut) : Option (Nat × Nat) :=
  let compared : Bool := t.act == 0x0412 && (o.fin.status == stDone || o.fin.status == stSigInvalid)
  let n := if compared then t.num 52 1 else o.out.length
  ((vendorAct t.act.toNat).bind (fun a => a.point)).bind (fun p => if n = 0 then none else some (p, n))

/-- The release as the act's chapter has its code make it: COMBINE 0; for ML-DSA a round of shared attempts with ACC 9 (R215). -/
def actRelease (s : State) (c : Nat) (t : Ticket) (point n : Nat) : Release :=
  let r : Release := { point := point, combine := 0, attempts := 1, acc := 15, src := (dcl s c).src.toNat, dst := (dcl s c).dst.toNat,
                       len := n, reserved := false }
  if t.act = 0x0111 then { r with combine := 1, attempts := roundAttempts t, acc := 9 } else r

/-- The releases that the act's chapter lays down and that its DCL_GO writes have not made yet are made at its EXIT: checks 3–5 of R193, the
count of use, DCL_STAT. Whether the output may leave (R194–R198; assumption 35). -/
def actReleases (c : Nat) (t : Ticket) (o : ActOut) (s : State) : Bool × State :=
  let d := dcl s c
  if o.fin = invalid rsRounds then (true, setDcl c { d with attempt := 15, result := 1 } s)
  else match actPoint t o with
    | none => (true, s)
    | some (p, n) =>
      let left := if p = 1 then n - d.released.toNat else if Table.get 0 d.used p = 0 then n else 0
      let r := actRelease s c t p left
      if left = 0 then (true, s)
      else if lenOk s c t p left = false then (false, releaseRefused c t r 2 s)
      else if grantsOk s c p = false then (false, releaseRefused c t r 4 s)
      else if p = 1 ∧ t.inLen + 64 < d.released.toNat + left then (false, releaseRefused c t r 6 s)
      else (true, releaseCounted c r o.attempt s)

/-- The unit that asks the Glove for the output of the act on core c. -/
def actWho (c : Nat) : Nat := 1024 * 5 + c

/-- The output leaves as the act's own transfers deliver it, DATA_CIPHER's in pieces of 16 KiB (R276): to host memory under the instance's
PASID, or into a Dolid ticket's response buffer. What the bucket or D3hot holds stays with the core (R41, R353). -/
def sendOut (c : Nat) (t : Ticket) : Nat → Nat → List Byte → State → State
  | 0, _, _, s => s
  | fuel + 1, off, b, s =>
    let p := if t.act = 0x0421 then b.take 16384 else b
    let r := outputBytes t (actWho c) off p s
    if r.1 = false then setCorex c { corex r.2 c with outPend := some (off, b) } r.2
    else
      let s := setCorex c { corex r.2 c with outPend := none } r.2
      if b.drop p.length = [] then s else sendOut c t fuel (off + p.length) (b.drop p.length) s
def actOutput (c : Nat) (t : Ticket) (b : List Byte) (s : State) : State := if b = [] then s else sendOut c t (b.length + 1) 0 b s

/-- Output that was held is tried again. -/
def retryOutput (c : Nat) (t : Ticket) (s : State) : State :=
  match (corex s c).outPend with
  | some (off, b) => sendOut c t (b.length + 1) off b s
  | none => s

/-- Status and output length of an EXIT, and the state with the act's results: what the act's chapter decides, else its operands. None where
the act's output was not released: the Glove refuses it (R198). An encapsulation releases its ciphertext while it holds no secret grant, so
before K goes into the staging area; any other act has filled what it reserved. -/
def exitEnd (s : State) (c : Nat) (t : Ticket) (status : Byte) (len : W32) : Option (Byte × W32) × State :=
  if decidesEnd t.act = false ∨ status = stIntegrity then (some (status, len), s)
  else
    let f := nextFresh s
    let t := { t with input := t.whole f.1 }
    let s := modTicket t.id (fun u => { u with input := t.input }) f.2
    match actOutcome s c t status with
    | none => (some (status, len), s)
    | some o =>
      let s := wsLines c t o.lines { offerForm c t s with fresh := s.fresh + actDraws }
      let first : Bool := ((actPoint t o).map (fun x => x.1)) == some 2
      let r := actReleases c t o (if first then s else fillAll c o s)
      if r.1 = false then (none, r.2)
      else (some (o.fin.status, BitVec.ofNat 32 o.fin.len), actOutput c t o.out (if first then fillAll c o r.2 else r.2))

end Sys2Proof.Machine
end

