-- ==== Sys2Proof/Machine/Reset.lean ====
section
/-!
DEFINITION. Resets of the device (R464–R468, R480): power-on reset and power-good loss, device warm reset, PERST#, and the start of boot
(R472).
-/
namespace Sys2Proof.Machine

open Sys2Proof

/-! ### The start of boot (R472) -/

/-- The hub's multiplexer has an input enabled (R384). -/
def hubClocked (s : State) : Bool := (Table.get {} s.clk.dom 16).clocked

/-- STAGE codes (R481). -/
def stReset : BitVec 4 := 0
def stLifecycle : BitVec 4 := 1
def stFlash : BitVec 4 := 2
def stLoading : BitVec 4 := 4
def stRunning : BitVec 4 := 5
def stRecovery : BitVec 4 := 6
def stHalted : BitVec 4 := 7

/-- Boot may leave its first two steps: power is good, the hub is clocked, the life-cycle state is decided, and no reset, hold or
Lockdown stands; a hub PLL being relocked comes first (R392). -/
def bootReady (s : State) : Bool :=
  s.boot.powered && s.boot.pwrGood && hubClocked s && !s.lcs.atBoot && !s.boot.perstLow && !s.boot.warm && !s.fc.lock
    && !s.lcs.dbgHeld && (Table.get {} s.clk.dom 16).recovery == .none

/-- Boot begins or begins again at step 3: the management cores leave reset at the boot ROM's first word and read the flash. In
SCRAPPED they stay in reset (R455, R472). -/
def bootBegin (s : State) : State :=
  if bootReady s = false then s
  else if s.lcs.st = lcScrapped then { s with boot := { s.boot with stage := stHalted } }
  else
    let s := setCore mgmtCore { run := .running } s
    { s with
      mgmt := { held := false }
      boot := { s.boot with
        stage := stFlash, slot := 0, resultA := 0, resultB := 0, bundleFailI := false, bundleFailV := false, trying := none,
        fails := 0 } }

/-! ### Device warm reset (R465–R468) -/

/-- A frame that the Dolid block built. -/
def TxFrame.ofDolid (f : TxFrame) : Bool := f.iid.isSome || f.pool != .none

/-- The Dolid block in reset: its memories are scrubbed, the peer table and the configuration stay (R465–R467). -/
def dolidReset (d : Dolid) : Dolid :=
  { d with
    epoch := 0, key := none, prevKey := none, epochFrom := 0, draw := false, redraw := false, sessions := [],
    handshakes := [], txns := [], inbox := [], rxUsed := [], sharedUsed := 0, refusalUsed := 0,
    inst := d.inst.map (fun e => (e.1, { e.2 with levelNet := 0, levelPcie := 0, held := [] })) }

def Port.withoutDolid (p : Port) : Port :=
  { p with
    tx := p.tx.filter (fun f => !f.ofDolid)
    neigh := p.neigh.map (fun n => { n with held := n.held.filter (fun f => !f.ofDolid) }) }

/-- Requests of the units that the reset covers are withdrawn; those of the ceremony, the challenge and BOOT_ID stay. -/
def drbgKept (w : DrbgUser) : Bool :=
  match w with
  | .ceremony | .challenge | .bootId => true
  | _ => false

/-- Read-and-clear counters that a warm reset clears: IT_NOTICES, USH_I_REF, the Dolid and hat-check counters (R466). -/
def warmCounters (t : Table RcCount) : Table RcCount :=
  Table.clear (Table.clear (Table.clear (Table.clear t (4 * 0x100000) (4 * 0x10000)) (4 * 0x201000) (4 * 0x2000))
    (4 * 0x700000) (4 * 0x8000)) (4 * 0x900000) (4 * 0x1000)

/-- Rings, cores, engines and the memories they use, as a reset leaves them; lines retired in them stay remapped. -/
def clearRings (s : State) : State :=
  { s with
    cores := [], corex := [], mrg := [], mrgLast := [], hash := [], hashTurn := [], bc := [], mewin := []
    meng := s.meng.filterMap (fun g => if g.2.sparesUsed = 0 then none else some (g.1, { sparesUsed := g.2.sparesUsed }))
    mem := { loadWin := s.mem.loadWin }
    mgmt := { held := true }
    fabric := { sparesUsed := s.fabric.sparesUsed, retiredLines := s.fabric.retiredLines } }

/-- Tickets of the tenants are discarded without entry, receipt or RESPONSE; device tickets wait to run again (R467 step 3). -/
def clearTickets (s : State) : State :=
  { s with
    tickets := (s.tickets.filter (fun t => t.device)).map (fun (t : Ticket) => { t with phase := .queued, uses := [] })
    inst := s.inst.map (fun e => (e.1, { e.2.takeShare with reads := [], reserved := 0 }))
    page := s.page.map (fun e => (e.1, { e.2 with copying := false, heldWrites := [] })) }

/-- Safety-net mode ends: a FINAL boundary still to come falls in this hub cycle, and the next release opens an epoch (R372, R379). -/
def endSafetyNet (s : State) : State :=
  if s.fc.snet = false then s
  else
    let s := if s.aud.isOpen then tryBoundary { s with aud := { s.aud with pendFinal := true } } else s
    { s with fc := { s.fc with snet := false, snetSource := 0 }, boot := { s.boot with reopen := true } }

/-- A DEVICE WARM RESET in its first hub cycle (R467 steps 1–4). -/
def warmReset (cause : BitVec 4) (s : State) : State :=
  if s.fc.lock then s
  else
    let s := endSafetyNet (clearTickets s)
    let s := hcReset 1 (hcReset 0 s)
    let s := clearRings s
    let ceremony := s.ks.cer
    let s := { s with
      attn := 0
      ush := { s.ush with
        epochCount := 0, minOvercommit := false, copies := [], spread := [], paused := false, coreRet := 0, ringRet := 0,
        share := s.ush.share.map (fun e => (e.1, { e.2 with backlog := 0, passedOver := false })) }
      acts := { s.acts with busy := false, unloading := none, result := 0 }
      patch := { s.patch with busy := false, waiting := none, reverting := false, result := 0 }
      ks := { s.ks with entries := unreserve (fun _ => true) s.ks.entries, pend := [],
                        cer := { ceremony with resumePending := ceremony.isOpen } }
      dol := dolidReset s.dol
      net := { s.net with port := s.net.port.map (fun p => (p.1, p.2.withoutDolid)) }
      rng := { s.rng with queue := s.rng.queue.filter (fun r => drbgKept r.who),
                          answers := s.rng.answers.filter (fun a => drbgKept a.1) }
      fcq := { s.fcq with retired := [], noRing := false }
      time := { s.time with rc := warmCounters s.time.rc }
      lcs := { s.lcs with granted := false, perm := 0, dbgHeld := false, dbgBusy := s.lcs.drawing, verifying := false }
      boot := { s.boot with
        warm := true, stage := stReset, slot := 0, resultA := 0, resultB := 0, bundleFailI := false, bundleFailV := false,
        trying := none, fails := 0, ringUp := 0, ringHeld := 0, cause := cause,
        warmCount := if 5 ≤ cause.toNat then BitVec.ofNat 16 (sat 16 (s.boot.warmCount.toNat + 1)) else s.boot.warmCount } }
    recompute (sweepActs s)

/-- A manager's WARM write waits while a life-cycle transition runs, and is merged into its own reset (R468). -/
def warmWrite (s : State) : State :=
  if s.lcs.busy then { s with lcs := { s.lcs with warmHeld := true } } else warmReset 5 s

/-- WARM (R467). -/
def execWarm (s : State) : Out := .next (hostWrite warmWrite s)

/-- The tenant page after a warm reset. -/
def Inst.afterWarm (x : Inst) : Inst :=
  if x.st = .free then { x with err := 0, sqHead := 0, sqTail := 0, cqHead := 0, cqTail := 0, unreleased := 0, drained := false }
  else
    { x with
      st := .stopped, drained := true, removing := false, err := 0, sqHead := 0, sqTail := 0, cqHead := 0, cqTail := 0,
      unreleased := 0 }

/-- WARM_RESET_ENTRIES_DONE (R467 step 5): instances are STOPPED and DRAINED, a tripped hub PLL is relocked first (R392), and
boot follows. A removal that the reset met ends with it. -/
def execWarmResetEntriesDone (s : State) : Out :=
  .next (unlessLocked (fun s =>
    if s.boot.warm = false ∨ s.boot.perstLow then s
    else
      let relock (d : Domain) : Domain := { d with recovery := .locking, failed := 0 }
      bootBegin { s with
        inst := s.inst.map (fun e => (e.1, e.2.afterWarm))
        page := []
        dol := { s.dol with draw := true }
        clk := if s.clk.hubTripped then
            { s.clk with dom := Table.set {} s.clk.dom 16 (relock (Table.get {} s.clk.dom 16)) }
          else s.clk
        boot := { s.boot with warm := false } }) s)

/-! ### PERST# (R464, R465, R468) -/

/-- The PCIe block and its configuration space. -/
def pcieReset (held : Bool) (s : State) : State :=
  { s with pcie := { issued := s.pcie.issued, inReset := held, readData := s.pcie.readData } }

/-- PERST: PERST_N falls (0), a hot reset (1) or a link-down reset begins. In Lockdown the PCIe block alone is reset. -/
def execPerst (kind : Nat) (s : State) : Out :=
  .next (
    let s := pcieReset true { s with boot := { s.boot with perstLow := true } }
    if s.boot.powered = false then s else warmReset (if kind = 0 then 3 else 4) s)

/-- PERST_RELEASE: PERST_N rises, or 1 µs after the end of a hot or link-down reset. -/
def execPerstRelease (s : State) : Out :=
  .next (
    bootBegin { s with
      pcie := { s.pcie with inReset := false }
      boot := { s.boot with perstLow := false } })

/-! ### Power-on reset and power-good loss (R464–R466) -/

/-- Everything at its reset value but what is OTP, the part, the pins, and the model's own records. -/
def powerReset (cause : BitVec 4) (s : State) : State :=
  let l : LifeCycle := {}
  { State.reset with
    dev := s.dev
    time := { ticks := s.time.ticks, cycle := s.time.cycle, tioPhase := s.time.tioPhase }
    pcie := { issued := s.pcie.issued, inReset := s.boot.perstLow, readData := s.pcie.readData }
    net := { toFirmware := s.net.toFirmware, sent := s.net.sent }
    clk := { State.reset.clk with code := s.dev.tioCode }
    lcs := { l with
      copies := s.lcs.copies, intents := s.lcs.intents, secret := s.lcs.secret, serial := s.lcs.serial, roots := s.lcs.roots,
      rootLocked := s.lcs.rootLocked }
    boot := { cause := cause, powered := true, perstLow := s.boot.perstLow }
    nextTicket := s.nextTicket
    fresh := s.fresh
    pending := s.pending }

end Sys2Proof.Machine
end

