-- ==== Sys2Proof/Machine/LifeCycle.lean ====
section
/-!
DEFINITION. Life cycle and debug authorisation (R445–R455, R460–R463): the state read from OTP, transitions row by row, roots, the
challenge and the token, HOLD and RELEASE; and the two resets that decide the state again (R447, R464).
-/
namespace Sys2Proof.Machine

open Sys2Proof

def lcsReg (off : Nat) : Nat := 0xA00000 + off

/-- Codewords (R445). -/
def codeword : Nat → W64
  | 0 => 0x00000000000096E1
  | 1 => 0x000000005B2D96E1
  | 2 => 0x0000C74A5B2D96E1
  | 3 => 0x3E98C74A5B2D96E1
  | _ => 0xFFFFFFFFFFFFFFFF

/-- The state whose codeword this is. -/
def stateOfCode (w : W64) : Option Nat := (List.range 5).find? (fun k => codeword k == w)

def lcCopy (s : State) (k : Nat) : W64 := Table.get 0 s.lcs.copies k
/-- Intent row of INTEGRATOR (0) to SCRAPPED (3). -/
def lcIntent (s : State) (k : Nat) : W64 := Table.get 0 s.lcs.intents k

/-- LCS_STATUS as read (R463). -/
def lcsStatus (s : State) : Nat :=
  pack [(b2n s.lcs.busy, 31), (b2n s.lcs.completedAtBoot, 30), (s.lcs.target, 24), (s.lcs.result.toNat, 16),
    (b2n (lcCopy s 2 == codeword s.lcs.st), 10), (b2n (lcCopy s 1 == codeword s.lcs.st), 9),
    (b2n (lcCopy s 0 == codeword s.lcs.st), 8), (s.lcs.st, 0)]

/-! ### Reading the state (R447) -/

/-- M: the codeword that at least two copies equal. -/
def majority (s : State) : Option Nat :=
  (List.range 5).find? (fun k => 2 ≤ ((List.range 3).filter (fun c => lcCopy s c == codeword k)).length)

/-- T: the highest state whose intent row is complete. -/
def intended (s : State) : Option Nat := ([4, 3, 2, 1] : List Nat).find? (fun t => lcIntent s (t - 1) == codeword t)

/-- Rows of steps 4 and 5 of R449 for a target. -/
def rowsFor (target : Nat) : List OtpRow :=
  (if 3 ≤ target then [.secret 0, .secret 1, .secret 2, .secret 3] else []) ++ [.copy 0, .copy 1, .copy 2]

/-- The decision of R447. A transition completed here, or a copy brought up, runs row by row before boot. -/
def lcDecide (s : State) : State :=
  let m := majority s
  let forward : Option Nat := match intended s, m with
    | some t, some k => if k < t then some t else none
    | some t, none => some t
    | none, _ => none
  let l := { s.lcs with copyFails := 0 }
  match forward, m with
  | some t, _ =>
    { s with
      lcs := { l with st := t, target := t, completedAtBoot := true, atBoot := true, busy := true, rows := rowsFor t }
      boot := { s.boot with stage := stLifecycle } }
  | none, some k =>
    let rows : List OtpRow := ((List.range 3).filter (fun c => lcCopy s c != codeword k)).map OtpRow.copy
    { s with
      lcs := { l with st := k, target := 0, atBoot := rows != [], rows := rows }
      boot := { s.boot with stage := stLifecycle } }
  | none, none => { s with lcs := { l with st := lcScrapped }, boot := { s.boot with stage := stLifecycle } }

/-! ### Resets that decide it (R464, R465) -/

/-- POWER_ON_RESET: VDD_AON has been in range for 50 µs. -/
def execPowerOnReset (s : State) : Out := .next (bootBegin (lcDecide (powerReset 1 s)))

/-- POWER_GOOD_LOSS: the scope of power-on reset; PWRGOOD is low. -/
def execPowerGoodLoss (s : State) : Out :=
  .next (if s.boot.powered then lcDecide (powerReset 2 s) else s)

/-- PWRGOOD_RISE: TIO and the PLLs start (R383, R392, R470). -/
def execPwrgoodRise (s : State) : Out :=
  .next (if s.boot.powered then bootBegin { s with boot := { s.boot with pwrGood := true } } else s)

/-! ### Transitions (R448, R449, R451) -/

def permittedTransition (a b : Nat) : Bool :=
  match a with
  | 0 => b == 1 || b == 4
  | 1 => b == 2 || b == 3 || b == 4
  | 2 => b == 3 || b == 4
  | 3 => b == 4
  | _ => false

/-- A refused LCS_NEXT: RESULT, and a Notice of CAUSE 0x09. -/
def lcRefuse (r : Byte) (s : State) : State :=
  report { cls := .f0, source := 0x18, cause := 0x09, addr := BitVec.ofNat 64 (lcsReg 4), detail0 := r.setWidth 64 }
    { s with lcs := { s.lcs with result := r } }

/-- Leaving FIELDED destroys every key, clears every domain and cancels a ceremony (R312). -/
def destroyAllKeys (s : State) : State :=
  let s := endCeremony 7 s
  let s := (s.ks.entries.map (fun e => e.1)).foldl (fun s h => destroyKey (BitVec.ofNat 32 h) s) s
  { s with ks := { s.ks with inst := s.ks.inst.map (fun e => (e.1, { e.2 with domain := 0 })) } }

/-- Steps 1 and 2 of R449; the rows follow. -/
def lcBegin (target : Nat) (s : State) : State :=
  let s := if s.lcs.st = lcFielded then destroyAllKeys s else s
  { s with
    fcq := { s.fcq with injection := none }
    lcs := { s.lcs with
      busy := true, target := target, result := 0, copyFails := 0, granted := false, perm := 0,
      rows := s.lcs.rows ++ .intent (target - 1) :: rowsFor target } }

/-- A write of LCS_NEXT (R448); `dap`: through the debug port. -/
def lcsNextWrite (target : Nat) (dap vddOtp : Bool) (s : State) : State :=
  if dap then ignoredWrite 0x18 (lcsReg 4) (BitVec.ofNat 64 target) none s
  else if permittedTransition s.lcs.st target = false then lcRefuse 1 s
  else if target = 2 ∧ !(Table.get false s.lcs.rootLocked 0 && Table.get false s.lcs.rootLocked 1) then lcRefuse 2 s
  else if vddOtp = false then lcRefuse 3 s
  else if s.lcs.busy then lcRefuse 5 s
  else lcBegin target s

/-- LC_TRANSITION (R448). -/
def execLcTransition (target : Nat) (dap vddOtp : Bool) (s : State) : Out :=
  .next (hostWrite (lcsNextWrite (target % 8) dap vddOtp) s)

/-- Steps 6 and 7 of R449, or the end of a completion at power-on. Two copies that do not read back are Lockdown (R447). -/
def lcFinish (s : State) : State :=
  let l := s.lcs
  if 2 ≤ l.copyFails then
    lockdown { cls := .f5, source := 0x18, cause := 0x08 } false { s with lcs := { l with busy := false, atBoot := false } }
  else
    let target := if l.atBoot then l.st else l.target
    let s := { s with lcs := { l with st := target, result := if l.copyFails = 1 ∧ l.busy then 4 else l.result } }
    let s := if l.copyFails = 1 ∧ l.busy then stateNotice 0x18 0 (lcsReg 0) (BitVec.ofNat 64 (lcsStatus s)) s else s
    if l.atBoot then bootBegin { s with lcs := { s.lcs with busy := false, atBoot := false } }
    else
      let s := { s with
        lcs := { s.lcs with busy := false, warmHeld := false }
        acts := { s.acts with acts := [] }
        patch := { s.patch with version := 0, ram := [], ramParity := [], matchReg := [] }
        boot := { s.boot with retained := false } }
      warmReset 6 s

/-- A row takes the bits it lacks; one that does not read back has taken some of them (R446). -/
def programmed (old bits free : W64) (ok : Bool) : W64 := old ||| (if ok then bits else bits &&& free)

/-- Program one row. -/
def programRow (row : OtpRow) (ok : Bool) (s : State) : State :=
  let (k, s) := nextFresh s
  let free : W64 := Config.freeBits 64 k
  let l := s.lcs
  let goal := if l.atBoot then l.st else l.target
  match row with
  | .intent t =>
    { s with lcs := { l with intents := Table.set 0 l.intents t (programmed (lcIntent s t) (codeword goal) free ok) } }
  | .copy c =>
    { s with lcs := { l with
        copies := Table.set 0 l.copies c (programmed (lcCopy s c) (codeword goal) free ok)
        copyFails := if ok then l.copyFails else l.copyFails + 1 } }
  | .secret j =>
    let word : W64 := BitVec.ofNat 64 (field l.secret.toNat (64 * j) 64)
    let new := programmed word (BitVec.allOnes 64) free ok
    { s with lcs := { l with
        secret := BitVec.ofNat 256 (l.secret.toNat - word.toNat * 2 ^ (64 * j) + new.toNat * 2 ^ (64 * j)) } }
  | .root r =>
    let digest : BitVec 256 := BitVec.ofNat 256 ((List.range 8).foldl
      (fun a j => a + (Table.get 0 l.rootData j).toNat * 2 ^ (32 * j)) 0)
    if ok then { s with lcs := { l with roots := Table.set 0 l.roots r (Table.get 0 l.roots r ||| digest) } }
    else { s with lcs := { l with
        roots := Table.set 0 l.roots r (Table.get 0 l.roots r ||| (digest &&& Config.freeBits 256 k))
        rootResult := 2, rootBusy := false, rows := l.rows.drop 1 } }
  | .rootLock r =>
    { s with lcs := { l with rootLocked := Table.set false l.rootLocked r ok, rootResult := if ok then 0 else 2, rootBusy := false } }

/-- OTP_ROW_PROGRAMMED: the row in progress ends (R446, R449). In Lockdown the controller finishes it and stops (R451). -/
def execOtpRowProgrammed (ok : Bool) (s : State) : Out :=
  .next (
    match s.lcs.rows with
    | [] => s
    | row :: rest =>
      let s := programRow row ok { s with lcs := { s.lcs with rows := rest } }
      let isCopy : Bool := match row with
        | .copy _ => true
        | _ => false
      if s.fc.lock then { s with lcs := { s.lcs with rows := [] } }
      else if isCopy && s.lcs.rows == [] then lcFinish s
      else s)

/-! ### Roots (R453) -/

/-- LCS_ROOT_CMD with GO: ROOT, and RESULT 0x01, 0x02 or 0x03 where it is refused. -/
def rootCmdWrite (data : W32) (vddOtp : Bool) (s : State) : State :=
  let sel := bit data 8
  let r := b2n sel
  if bit data 31 = false then { s with lcs := { s.lcs with rootSel := sel } }
  else if s.lcs.rootBusy then ignoredWrite 0x18 (lcsReg 0x44) (data.setWidth 64) none s
  else
    let s := { s with lcs := { s.lcs with rootSel := sel } }
    let digest : BitVec 256 := BitVec.ofNat 256 ((List.range 8).foldl
      (fun a j => a + (Table.get 0 s.lcs.rootData j).toNat * 2 ^ (32 * j)) 0)
    let fail (c : Byte) : State := { s with lcs := { s.lcs with rootResult := c } }
    if s.lcs.st ≠ lcIntegrator ∨ Table.get false s.lcs.rootLocked r then fail 1
    else if Table.get 0 s.lcs.roots r &&& ~~~ digest ≠ 0 then fail 2
    else if vddOtp = false then fail 3
    else { s with lcs := { s.lcs with rootBusy := true, rootResult := 0, rows := s.lcs.rows ++ [.root r, .rootLock r] } }

/-- ROOT_PROGRAM (R453). -/
def execRootProgram (data : W32) (vddOtp : Bool) (s : State) : Out :=
  .next (hostWrite (rootCmdWrite (data ||| 0x80000000) vddOtp) s)

/-! ### Debug authorisation (R459–R461) -/

def dbgRefused (s : State) : State := { s with lcs := { s.lcs with dbgResult := 8 } }

/-- CHALLENGE: 32 bytes are drawn; an earlier challenge is no longer present (R460). -/
def dbgChallenge (s : State) : State :=
  if s.lcs.dbgBusy ∨ s.lcs.busy then dbgRefused s
  else { s with lcs := { s.lcs with dbgBusy := true, drawing := true, chalFresh := false } }

def execChallenge (s : State) : Out := .next (hostWrite dbgChallenge s)

/-- VERIFY: the check starts, firmware suspended (R460). -/
def dbgVerify (s : State) : State :=
  if s.lcs.dbgBusy ∨ s.lcs.busy then dbgRefused s
  else { s with lcs := { s.lcs with dbgBusy := true, verifying := true } }

def execVerify (s : State) : Out := .next (hostWrite dbgVerify s)

/-- The checks of R460 on the token window, in order. -/
def tokenResult (keyOk verifies : Bool) (s : State) : Byte :=
  let t := readWin s.lcs.token 0 64
  if leAt t 0 4 ≠ 0x4144584B ∨ leAt t 4 2 ≠ 1 ∨ 16 ≤ leAt t 6 2 then 2
  else if s.lcs.st ≠ lcIntegrator ∧ s.lcs.st ≠ lcReturned then 1
  else if BitVec.ofNat 64 (leAt t 8 8) ≠ codeword s.lcs.st ∨ leAt t 16 16 ≠ s.lcs.serial.toNat then 3
  else if s.lcs.chalFresh = false ∨ (t.drop 32).take 32 ≠ s.lcs.chal then 4
  else if keyOk = false ∨ firmwareRootLocked s = false then 5
  else if verifies = false then 6
  else 0

/-- VERIFY_DONE: the challenge is used up; on success the grant stands with the token's permissions. -/
def execVerifyDone (keyOk verifies : Bool) (s : State) : Out :=
  .next (unlessLocked (fun s =>
    if s.lcs.verifying = false then s
    else
      let r := tokenResult keyOk verifies s
      let l := { s.lcs with verifying := false, dbgBusy := false, chalFresh := false, dbgResult := r }
      { s with lcs := if r = 0 then
          { l with granted := true, perm := BitVec.ofNat 4 (leAt (readWin s.lcs.token 6 2) 0 2) } else l }) s)

/-- DBG_CLOSE: the grant ends (R460). -/
def dbgClose (s : State) : State := { s with lcs := { s.lcs with granted := false, perm := 0, dbgResult := 0 } }

def execDbgClose (s : State) : Out := .next (hostWrite dbgClose s)

/-- A permission (0 SCAN, 1 HALT, 2 MEMRD, 3 MEMWR): every one in MAKER, otherwise those of the grant (R463). -/
def dbgMay (s : State) (k : Nat) : Bool := s.lcs.st == lcMaker || (s.lcs.granted && bit s.lcs.perm k)

/-- HOLD: rings, management cores and the network block in reset, as a device warm reset holds them (R461). -/
def dbgHold (s : State) : State :=
  if dbgMay s 0 = false then ignoredWrite 0x18 (lcsReg 0x100) 4 none s
  else if s.lcs.dbgHeld then s
  else
    let l := s.lcs
    let b := s.boot
    let s := (List.range 8).foldl (fun s p => linkCut p s) s
    let s := warmReset b.cause s
    { s with
      lcs := { s.lcs with granted := l.granted, perm := l.perm, dbgHeld := true, dbgResult := 0 }
      boot := { s.boot with warmCount := b.warmCount } }

def execHold (s : State) : Out := .next (hostWrite dbgHold s)

/-- RELEASE ends the hold with a device warm reset (R461, R464). -/
def dbgRelease (s : State) : State :=
  if s.lcs.dbgHeld = false then ignoredWrite 0x18 (lcsReg 0x100) 5 none s else warmReset 7 s

def execRelease (s : State) : Out := .next (hostWrite dbgRelease s)

end Sys2Proof.Machine
end

