-- ==== Sys2Proof/Machine/Boot.lean ====
section
/-!
DEFINITION. Boot from flash or from the load window (R472–R478) and the release of the rings (R479).
-/
namespace Sys2Proof.Machine

open Sys2Proof

/-! ### The flash directory and the image (R474, R475) -/

structure FlashSlot where
  offset : Nat
  length : Nat
  seq : Nat
  deriving DecidableEq, Repr

def flashSlot (dir : List Byte) (k : Nat) : FlashSlot :=
  { offset := leAt dir (8 + 16 * k) 4, length := leAt dir (12 + 16 * k) 4, seq := leAt dir (16 + 16 * k) 4 }

/-- MAGIC, VERSION and the zero bytes of the directory. -/
def dirValid (dir : List Byte) : Bool :=
  leAt dir 0 4 == 0x4442584B && leAt dir 4 4 == 1 && leAt dir 20 4 == 0 && leAt dir 36 4 == 0 && leAt dir 40 24 == 0

/-- The slot tried first: the higher SEQ, on a tie A. -/
def firstSlot (dir : List Byte) : Nat := if (flashSlot dir 0).seq < (flashSlot dir 1).seq then 1 else 0

/-- Sections of an image by their offset and length. -/
structure BootImage where
  step : Nat
  version : Nat
  keys : Nat × Nat
  firmware : Nat × Nat
  patch : Nat × Nat
  vendor : Nat × Nat
  integrator : Nat × Nat
  /-- where the signature starts -/
  sig : Nat
  deriving DecidableEq, Repr

def bootImage (l : List Byte) : BootImage :=
  let len (k : Nat) : Nat := leAt l (16 + 4 * k) 4
  let o0 := 64
  let o1 := roundUp (o0 + len 0) 64
  let o2 := roundUp (o1 + len 1) 64
  let o3 := roundUp (o2 + len 2) 64
  let o4 := roundUp (o3 + len 3) 64
  { step := leAt l 6 1, version := leAt l 8 8, keys := (o0, len 0), firmware := (o1, len 1), patch := (o2, len 2),
    vendor := (o3, len 3), integrator := (o4, len 4), sig := roundUp (o4 + len 4) 64 }

/-- Check 2 of R476 for an image in a slot of so many bytes. -/
def imageValid (l : List Byte) (slot : Nat) : Bool :=
  let b := bootImage l
  leAt l 0 4 == 0x4942584B && leAt l 4 2 == 1 && leAt l 7 1 == 0 && leAt l 36 28 == 0 && b.firmware.2 ≤ 0x200000
    && slot ≤ 0x1000000 && b.sig + 4627 ≤ slot

/-- A section's bytes. -/
def section_ (l : List Byte) (p : Nat × Nat) : List Byte := (l.drop p.1).take p.2

/-- Checks 1–6 of R476: the RESULT of a failure, 0 for none. -/
def slotResult (l : List Byte) (slot : Nat) (v : BootVerdicts) (s : State) : Byte :=
  if v.flashOk = false then 6
  else if imageValid l slot = false then 2
  else if (bootImage l).step ≠ stepLetter s then 3
  else if firmwareRootLocked s = false then 7
  else if v.keyOk = false then 4
  else if v.sigOk = false then 5
  else 0

/-! ### What an image brings (R472 step 5, R475, R478) -/

/-- The act images of a bundle, one after another, up to its signature. -/
def bundleImages : Nat → List Byte → List (List Byte)
  | 0, _ => []
  | n + 1, l =>
    if l.length ≤ 4627 then []
    else
      let h := actHeader l
      if h.valid l then l.take h.imageSize :: bundleImages n (l.drop h.imageSize) else []

/-- Install a bundle's acts; one that is not of the bundle's range or stepping, or finds no room, is left out. -/
def installBundle (signer : Nat) (bundle : List Byte) (s : State) : State :=
  (bundleImages 2048 bundle).foldl (fun s l =>
    let h := actHeader l
    if h.signer = signer ∧ rangeSigner h.number = signer ∧ h.number ≠ 0 ∧ h.stepOk s then
      (installAct h none (actCode l h) 0 s).getD s
    else s) s

/-- The image's patch: checked like one loaded at run time; a refused or empty one leaves the cores on their ROM (R170, R172). -/
def bootPatch (l : List Byte) (v : BootVerdicts) (s : State) : State :=
  let none_ : Patch := { s.patch with version := 0, ram := [], ramParity := [], matchReg := [] }
  if l = [] then { s with patch := none_ }
  else
    let h := patchHeader l
    if l.length ≠ h.size + 4 + 4627 then { s with patch := { none_ with result := 2 } }
    else
      match patchCheck l v.patchKeyOk v.patchSigOk s with
      | .inl r => { s with patch := { none_ with result := r } }
      | .inr (n, ram, entries) => { s with patch := s.patch.take n ram entries }

/-- The image passes: firmware into working space; patch and acts from the image, unless the retained area holds them. -/
def bootLoad (slot : Nat) (l : List Byte) (v : BootVerdicts) (s : State) : State :=
  let b := bootImage l
  let s := { writeBytes (.work 0) (section_ l b.firmware) (clearWork s) with
    boot := { s.boot with
      slot := BitVec.ofNat 2 slot, imgVersion := BitVec.ofNat 64 b.version, stage := stLoading, trying := none } }
  if s.boot.retained then s
  else
    let s := bootPatch (section_ l b.patch) v { s with acts := { s.acts with acts := [] } }
    let s := if b.vendor.2 = 0 then s
      else if v.vendorOk ∧ actRootLocked s 0 then installBundle 0 (section_ l b.vendor) s
      else { s with boot := { s.boot with bundleFailV := true } }
    let s := if b.integrator.2 = 0 then s
      else if v.integratorOk ∧ actRootLocked s 1 then installBundle 1 (section_ l b.integrator) s
      else { s with boot := { s.boot with bundleFailI := true } }
    { s with boot := { s.boot with retained := true } }

/-- A slot has failed: the other is tried, or boot ends in RECOVERY (R474, R476). -/
def slotFailed (slot : Nat) (r : Byte) (s : State) : State :=
  let b := s.boot
  let b := if slot = 0 then { b with resultA := r } else { b with resultB := r }
  { s with boot := { b with
      trying := some slot, fails := b.fails + 1, stage := if 1 ≤ b.fails then stRecovery else b.stage } }

/-- BOOT_SLOT_CHECK: the ROM tries a slot (R474–R476). -/
def execBootSlotCheck (dir image : List Byte) (found : BootVerdicts) (s : State) : Out :=
  .next (unlessLocked (fun s =>
    if s.boot.stage ≠ stFlash ∨ s.mgmt.held then s
    else if dirValid dir = false then { s with boot := { s.boot with resultA := 1, resultB := 1, stage := stRecovery } }
    else
      let slot := match s.boot.trying with
        | none => firstSlot dir
        | some k => 1 - k
      let r := slotResult image (flashSlot dir slot).length found s
      if r = 0 then bootLoad slot image found s else slotFailed slot r s) s)

/-- FLASH_READ_TIMEOUT: a flash error of the second slot, or of the directory, without which neither slot can be read. -/
def execFlashReadTimeout (s : State) : Out :=
  .next (unlessLocked (fun s =>
    if s.boot.stage ≠ stFlash ∨ s.mgmt.held then s
    else
      match s.boot.trying with
      | none => { s with boot := { s.boot with resultA := 6, resultB := 6, fails := 2, stage := stRecovery } }
      | some k => slotFailed (1 - k) 6 s) s)

/-- GCTL_BOOT_CMD.LOAD: the image in the load window as slot 2, from check 2 (R476). -/
def bootCmdLoad (found : BootVerdicts) (s : State) : State :=
  if s.boot.stage ≠ stRecovery then ignoredWrite 0x14 0x10C 0x80000000 none s
  else
    let h := bootImage (readWin s.mem.loadWin 0 64)
    let l := readWin s.mem.loadWin 0 (min 0x1000000 (h.sig + 4627))
    if slotResult l 0x1000000 { found with flashOk := true } s = 0 then bootLoad 2 l found s else s

/-- BOOT_CMD_LOAD. -/
def execBootCmdLoad (found : BootVerdicts) (s : State) : Out := .next (hostWrite (bootCmdLoad found) s)

/-! ### Release of the rings (R479) -/

/-- Ready: present, not retired, its PLL locked and not retired by a clock event. -/
def ringReady (s : State) (r : Nat) : Bool :=
  let d := Table.get {} s.clk.dom r
  ringPresent s r && d.lock && !d.retired && !bit s.boot.ringUp r

/-- The first release after power-on reset opens epoch 0; that after a reset which ended safety-net mode the next one (R372). -/
def openEpoch (s : State) : State :=
  if s.aud.begun = false then startEpoch 0 s
  else if s.boot.reopen then
    let s := startEpoch (s.aud.epoch + 1) s
    { s with aud := { s.aud with isFinal := false }, boot := { s.boot with reopen := false } }
  else s

/-- RING_RELEASE: at boot every ready ring in one hub cycle; later the ring named. -/
def execRingRelease (r : Nat) (s : State) : Out :=
  .next (unlessLocked (fun s =>
    if s.boot.stage = stLoading then
      let rings := (List.range (ringCount s)).filter (ringReady s)
      let s := rings.foldl (fun s k => releaseRing k s) { s with boot := { s.boot with stage := stRunning } }
      if rings = [] then s else openEpoch s
    else if s.boot.stage = stRunning ∧ ringReady s r then openEpoch (releaseRing r s)
    else s) s)

end Sys2Proof.Machine
end

