-- ==== Sys2Proof/Machine/NetTime.lean ====
section
/-!
DEFINITION. Network time (R356–R364): its advance by one TIO cycle, sources, corrections as steps and slews, the pulse servo
and holdover.
-/
namespace Sys2Proof.Machine

open Sys2Proof

def rmReg (off : Nat) : Nat := 0x500000 + off

/-- NT with its fraction, in 2^-32 ns. -/
def ntFine (s : State) : Nat := s.rm.nt.toNat * 2 ^ 32 + s.rm.ntFrac.toNat
def setNtFine (n : Nat) (s : State) : State :=
  { s with rm := { s.rm with nt := BitVec.ofNat 64 (n / 2 ^ 32), ntFrac := BitVec.ofNat 32 n } }

/-- Maximum slew in 2^-16 ppm: SLEW × 50 ppm, SLEW 0 taken as 1 and above 10 as 10 (R381). -/
def slewRate (s : State) : Int := ((max 1 (min 10 s.rm.slew.toNat)) * 50 * 65536 : Nat)

/-- 2.5 ns in 2^-32 ns. -/
def tioStep : Int := 10737418240

/-- One TIO cycle: NT advances by 2.5 ns × (1 + f), f the sum of RM_FREQ and the slew in progress (R356, R360). -/
def ntAdvance (s : State) : State :=
  let part (f : Int) : Int := tioStep * f / (65536 * 10 ^ 6)
  let most := part (slewRate s)
  let d : Int := if s.rm.slewLeft.natAbs ≤ most.natAbs then s.rm.slewLeft else if s.rm.slewLeft < 0 then -most else most
  let n := ntFine s + (tioStep + part s.rm.freq.toInt + d).toNat
  let s := setNtFine n { s with rm := { s.rm with slewLeft := s.rm.slewLeft - d } }
  { s with rm := { s.rm with moved := true } }

/-- RM_STATUS as read. -/
def rmStatus (s : State) : Nat :=
  pack [(b2n s.rm.established, 31), (b2n s.rm.holdover, 30), (b2n (s.rm.slewLeft != 0), 29), (b2n s.rm.armed, 28)]

/-- The trim mode in effect (R394): 1 by REF10_IN, 2 by PTP Sync, 0 hold. -/
def trimMode (s : State) : Nat :=
  match s.clk.trim.toNat with
  | 1 => if s.clk.ref10Ok then 1 else 0
  | 2 => if s.rm.src = 1 then 2 else 0
  | 3 => if s.clk.ref10Ok then 1 else if s.rm.src = 1 then 2 else 0
  | _ => 0

/-- TRIM_LOCKED clears on a change of the mode in effect: of TRIM, or by the loss of the mode's reference (R394). -/
def trimTrack (was : Nat) (s : State) : State :=
  if trimMode s = was then s else { s with clk := { s.clk with trimLocked := false, goodGates := 0 } }

/-- An entry into holdover: counted and noticed (R363). -/
def holdoverEntry (s : State) : State :=
  let s := { s with
    rm := { s.rm with holdover := true, holdFrom := s.rm.nt }
    clk := { s.clk with trimLocked := s.clk.trimLocked && trimMode s != 2 } }
  auditTrack (stateNotice 0x16 0 (rmReg 4) (BitVec.ofNat 64 (rmStatus s)) (bump (rmReg 0x40) 0 8 s))

/-- Holdover begins where it does not last already. -/
def enterHoldover (s : State) : State := if s.rm.holdover then s else holdoverEntry s

/-- Timestamps of the hub cycle that has ended carry STEPPED (R329). -/
def markStepped (s : State) : State :=
  let now := s.time.cycle - 1
  let tx (e : TxTs) : TxTs := if e.cycle = now then { e with stepped := true } else e
  { s with net := { s.net with
      toFirmware := s.net.toFirmware.map (fun (r : PtpRx) => if r.cycle = now then { r with stepped := true } else r)
      port := s.net.port.map (fun e => (e.1, { e.2 with txts := e.2.txts.map tx, txtsMissed := e.2.txtsMissed.map tx })) } }

/-- NT steps forward by d, in 2^-32 ns (R360): it becomes established, the open epoch ends, and the schedule is re-phased by
the firing of the entries it passed (R366). It replaces a slew in progress. Timestamps of the cycle it ends keep the value before and carry
STEPPED (R329). -/
def ntStepBy (d : Nat) (s : State) : State :=
  let s := markStepped (setNtFine (ntFine s + d) s)
  causeStep (bump (rmReg 0x40) 2 16 { s with rm := { s.rm with slewLeft := 0, established := true, moved := true } })

/-- A correction by which NT must advance, in 2^-32 ns: a step or a slew, which replaces the slew in progress (R360). -/
def correct (d : Int) (s : State) : State :=
  if s.rm.established = false ∧ 0 ≤ d then ntStepBy d.toNat s
  else if ((s.rm.stepTh.toNat * 2 ^ 32 : Nat) : Int) ≤ d ∧ s.rm.stepEn then ntStepBy d.toNat s
  else { s with rm := { s.rm with slewLeft := d } }

/-- A correction joins those of its hub cycle. -/
def ntDue (c : NtCorrection) (s : State) : State := { s with rm := { s.rm with due := s.rm.due ++ [c] } }

/-- One correction is made. The SET that establishes NT under SRC 0 enters holdover, a later one restarts term H (R363, R364). A SET that a
pulse carries out without REF10_IN leaves NT without its source (R361, R363). -/
def ntCorrected (c : NtCorrection) (s : State) : State :=
  match c with
  | .set d =>
    let t := correct d s
    if s.rm.established then { t with rm := { t.rm with holdFrom := t.rm.nt } } else holdoverEntry t
  | .armed d =>
    let t := ntStepBy d.toNat s
    if t.clk.ref10Ok then t else enterHoldover t
  | .servo d | .apply d => correct d s

def NtCorrection.isApply : NtCorrection → Bool
  | .apply _ => true
  | _ => false

/-- At the end of a hub cycle its corrections are made, an APPLY's after every other, against the new NT (R357, R360, R362). -/
def ntClose (s : State) : State :=
  let due := s.rm.due.filter (fun c => !c.isApply) ++ s.rm.due.filter NtCorrection.isApply
  if due = [] then s
  else auditTrack (due.foldl (fun s c => ntCorrected c s) { s with rm := { s.rm with due := [] } })

/-- The time that a SET names, in ns. -/
def setTarget (s : State) : Nat := s.rm.setSec.toNat * 10 ^ 9

/-- RM_CTRL.SET (R359). -/
def ntSet (data : W32) (s : State) : State :=
  let bad (s : State) : State := ignoredWrite 0x16 (rmReg 0) (data.setWidth 64) none s
  if s.rm.src = 1 then bad s
  else if s.rm.src = 2 then
    if (setTarget s : Int) + s.rm.ppsLat.toInt < ntN s then bad s else { s with rm := { s.rm with armed := true } }
  else if setTarget s * 2 ^ 32 < ntFine s then bad s
  else
    ntDue (.set ((setTarget s * 2 ^ 32 : Nat) - (ntFine s : Int))) { s with rm := { s.rm with uncSet := s.rm.uncBase } }

/-- A write of RM_CTRL (R359, R381): SRC 3 is ignored with a Notice; a change of SRC starts holdover of an established NT;
SET acts last. -/
def rmCtrlWrite (data : W32) (s : State) : State :=
  let src : BitVec 2 := data.setWidth 2
  if src = 3 then ignoredWrite 0x16 (rmReg 0) (data.setWidth 64) none s
  else
    let change : Bool := src != s.rm.src
    let s := trimTrack (trimMode s) { s with rm := { s.rm with
      src := src, stepEn := bit data 30, slew := BitVec.ofNat 4 (field data.toNat 8 4),
      armed := s.rm.armed && !change } }
    let s := if change ∧ s.rm.established then enterHoldover s else s
    if bit data 31 then ntSet data s else s

/-- SOURCE_SELECT (R359). -/
def execSourceSelect (data : W32) (s : State) : Out := .next (hostWrite (rmCtrlWrite data) s)

/-- SET (R359, R360). -/
def execNtSet (data : W32) (s : State) : Out := .next (hostWrite (rmCtrlWrite (data ||| 0x80000000)) s)

/-- An APPLY arrives only from management cores that run (R362, R442). -/
def execApply (s : State) : Out :=
  .next (
    if s.mgmt.held then s
    else if s.rm.src ≠ 1 then ignoredWrite 0x16 (rmReg 0x20) 1 none s
    else
      let s := ntDue (.apply (s.rm.adj.toInt * 2 ^ 24)) s
      auditTrack { s with rm := { s.rm with holdover := false, lastApply := s.time.ticks } })

/-- SLEW_DONE: the correction is absorbed. The TIO cycles that absorb it do all of that (`ntAdvance`): what they have not absorbed stays,
and the event adds nothing (R360, assumption 26). -/
def execSlewDone (s : State) : Out := .next s

/-- ±500 ppm in 2^-16 ppm (R381). -/
def freqMax : Int := 32768000
def clampFreq (f : Int) : W32 := BitVec.ofInt 32 (max (-freqMax) (min freqMax f))

/-- The phase error w of a pulse, in ns (R361). -/
def ppsPhase (s : State) : Int :=
  let w := ((ntN s : Int) - s.rm.ppsLat.toInt) % 10 ^ 9
  if 5 * 10 ^ 8 ≤ w then w - 10 ^ 9 else w

/-- The hardware servo on an accepted pulse: the correction, and RM_FREQ by d/8 ppb, which stays frozen while REF10_IN is absent, for the
pulse then ends no holdover (R361, R363). -/
def ppsServo (s : State) : State :=
  if s.rm.established = false then s
  else
    let d := -ppsPhase s
    let s := ntDue (.servo (d * 2 ^ 32)) s
    { s with rm := { s.rm with
        freq := if s.clk.ref10Ok then clampFreq (s.rm.freq.toInt + d * 65536 / 8000) else s.rm.freq,
        ppsErr := (d.natAbs :: s.rm.ppsErr).take 16 } }

/-- PPS_EDGE under SRC 2 (R359, R361, R363). -/
def execPpsEdge (s : State) : Out :=
  .next (
    let now := s.time.ticks
    if s.rm.src ≠ 2 then s
    else if (match s.rm.lastPps with | some t => decide (now < t + 900000000 * 6) | none => false) then
      bump (rmReg 0x40) 1 8 s
    else
      let s := { s with rm := { s.rm with lastPps := some now } }
      let s :=
        if s.rm.armed then
          let target := (setTarget s : Int) + s.rm.ppsLat.toInt
          let s := { s with rm := { s.rm with armed := false } }
          if target * 2 ^ 32 < ntFine s then ppsServo (ignoredWrite 0x16 (rmReg 0) 0x80000002 none s)
          else ntDue (.armed (target * 2 ^ 32 - ntFine s)) s
        else ppsServo s
      auditTrack (if s.clk.ref10Ok then { s with rm := { s.rm with holdover := false } } else s))

/-- No APPLY for 4 s under SRC 1, or no accepted pulse for 1,100 ms under SRC 2. -/
def sourceSilent (s : State) : Bool :=
  match s.rm.src.toNat with
  | 1 => s.rm.lastApply + 4 * secondTicks ≤ s.time.ticks
  | 2 => match s.rm.lastPps with
    | some t => t + 1100 * 6000000 ≤ s.time.ticks
    | none => true
  | _ => false

/-- HOLDOVER_TIMEOUT (R363). -/
def execHoldoverTimeout (s : State) : Out := .next (if sourceSilent s then enterHoldover s else s)

end Sys2Proof.Machine
end

