-- ==== Sys2Proof/Machine/Clocks.lean ====
section
/-!
DEFINITION. Clocks (R383–R395): gates, multiplexers, the monitors and what their trips do, recovery of a retired domain, and the trim of
TIO.
-/
namespace Sys2Proof.Machine

open Sys2Proof

def clkReg (off : Nat) : Nat := 0x508000 + off
def hubDom : Nat := 16
def netDom : Nat := 17

def dom (s : State) (d : Nat) : Domain := Table.get {} s.clk.dom d
def setDom (d : Nat) (x : Domain) (s : State) : State := { s with clk := { s.clk with dom := Table.set {} s.clk.dom d x } }
/-- The domain exists on the part (R383, R384). -/
def domPresent (s : State) (d : Nat) : Bool := d < ringCount s || d == hubDom || d == netDom
def unitDom (d : Nat) : Half := BitVec.ofNat 16 (0x8000 + d)

/-- CLK_STATUS as read. -/
def clkStatus (s : State) : Nat :=
  pack [(b2n s.clk.tioStable, 31), (b2n s.clk.ref10Ok, 30), (b2n s.clk.refclkOk, 29), (b2n s.clk.trimLocked, 28)]

/-! ### Gates (R385) -/

/-- The block of the UNIT code has work. -/
def unitBusy (s : State) (u : Half) : Bool :=
  let i := unitIdx u
  let r := i / 16
  let e := i % 16
  let cores := (List.range 16).map (fun y => 16 * r + y)
  match unitKind u with
  | 1 => i < 256 && (core s i).run != .idle && (core s i).run != .inReset
  | 3 =>
    if e < 4 then (meEng s r e).queue != [] || (meEng s r e).scrubs != []
      || cores.any (fun c => (List.range 4).any (fun k => engineOf s r k == e && (meWin s c k).queue != []))
    else if e < 6 then cores.any (fun c => (Table.get {} s.hash (2 * c + (e - 4))).queue != [])
    else if e < 8 then cores.any (fun c => (Table.get {} s.bc (2 * c + (e - 6))).queue != [])
    else cores.any (fun c => (corex s c).rndBuf.length < 16)
  | _ => false

/-- CLOCK_GATE_CLOSE: 8 cycles after the last work; GATE_DIS holds every gate open. -/
def execClockGateClose (u : Half) (s : State) : Out :=
  .next (
    if s.clk.gateDis ∨ unitBusy s u then s
    else { s with clk := { s.clk with gates := Table.set false s.clk.gates u.toNat false } })

/-! ### The multiplexer (R384, R386, R387, R390) -/

/-- Ask for a switch; one in progress goes first. A switch to a TIO that is not stable leaves the domain clock-stopped until it
is. -/
def requestSwitch (d : Nat) (toTio : Bool) (s : State) : State :=
  let x := dom s d
  if x.switching.isSome then setDom d { x with next := some toTio } s
  else if toTio ∧ s.clk.tioStable = false then setDom d { x with switching := some true, clocked := false, heldForTio := true } s
  else setDom d { x with switching := some toTio } s

/-- The hub's clock runs for the first time since power-good: the known-answer test and boot begin (R392, R420, R472). -/
def hubClockOn (s : State) : State :=
  let s := if s.rng.katPassed ∨ s.rng.katRunning then s else { s with rng := { s.rng with katRunning := true } }
  if s.boot.stage = stReset ∨ s.boot.stage = stLifecycle then bootBegin s else s

/-- CLOCK_SWITCH: step 1 disables the old input, step 2 enables the new one at a low phase of it. -/
def execClockSwitch (d : Nat) (s : State) : Out :=
  .next (
    let x := dom s d
    match x.switching with
    | none => s
    | some toTio =>
      if x.clocked then setDom d { x with clocked := false } s
      else if (if toTio then s.clk.tioStable else x.lock) = false then s
      else
        let s := setDom d { x with tio := toTio, clocked := true, switching := x.next, next := none, heldForTio := false } s
        if d ≠ hubDom then s
        else if toTio = false ∧ s.clk.hubTripped then
          let s := setDom d { dom s d with recovery := .none }
            { s with clk := { s.clk with hubTripped := false } }
          hubClockOn s
        else hubClockOn s)

/-! ### Monitors (R388–R390) -/

/-- TIO_STABLE: switches held for TIO may complete (R383, R390). -/
def execTioStable (s : State) : Out :=
  .next { s with clk := { s.clk with
    tioStable := true, dom := s.clk.dom.map (fun e => (e.1, { e.2 with heldForTio := false })) } }

def execTioMonitorTrip (why : Nat) (s : State) : Out :=
  .next (lockdown { cls := .f5, source := 0x1B, cause := 0x05, detail0 := BitVec.ofNat 64 why } false s)

def execAonMonitorTrip (why : Nat) (s : State) : Out :=
  .next (lockdown { cls := .f5, source := 0x1C, cause := 0x05, detail0 := BitVec.ofNat 64 why } false s)

/-- A ring or the network is retired by a clock event in the hub cycle of the trip, and its recovery sequence begins
(R389–R391). A ring retired already for another cause stays so, without recovery. -/
def clockRetire (d : Nat) (s : State) : State :=
  if d = netDom then
    let s := setDom d { dom s d with retired := true, inReset := true, recovery := .waiting, failed := 0 } s
    (List.range 8).foldl (fun s p => linkCut p s) s
  else if bit s.ush.ringRet d then setDom d { dom s d with inReset := true } s
  else retireRing d true (setDom d { dom s d with retired := true, inReset := true, recovery := .waiting, failed := 0 } s)

/-- An attempt of a recovery sequence has failed (R391). -/
def attemptFailed (s : State) (x : Domain) : Domain :=
  let n := x.failed + 1
  { x with lock := false, failed := n, recovery := if max 1 s.clk.retry.toNat ≤ n then .none else .waiting }

/-- FROZEN_DOMAIN_TRIP (R389): the multiplexer is forced to TIO under reset; a trip during the hold of a recovery fails its attempt
(R391). -/
def execFrozenDomainTrip (d : Nat) (s : State) : Out :=
  .next (unlessLocked (fun s =>
    if domPresent s d = false then s
    else
      let s := bump (clkReg 0x20) 2 8 s
      let s := setDom d { dom s d with
        tio := true, clocked := true, switching := none, next := none, heldForTio := false } s
      let ev : Event := { cls := .f3, source := 0x19, unit := unitDom d, cause := 0x05, detail0 := 1 }
      if d = hubDom then lockdown { ev with cls := .f5 } true s
      else if (dom s d).retired then
        (if (dom s d).recovery = .holding then setDom d (attemptFailed s (dom s d)) s else s)
      else clockRetire d (report ev s)) s)

/-- A PLL monitor trips (R390): 2 lock lost, 3 lock not reached, 4 frequency. -/
def pllTrip (d why : Nat) (s : State) : State :=
  let x := dom s d
  if domPresent s d = false ∨ (x.retired ∧ x.recovery ≠ .locking ∧ x.recovery ≠ .holding) then s
  else
    let s := bump (clkReg 0x20) 1 8 s
    let ev : Event := { cls := .f3, source := 0x1A, unit := unitDom d, cause := 0x05, detail0 := BitVec.ofNat 64 why }
    if x.retired then setDom d (attemptFailed s x) s
    else if d = hubDom then
      let relocking : Bool := x.recovery != .none
      let s := report { ev with cls := .f4 } { s with clk := { s.clk with hubTripped := true } }
      let s := setDom d { x with lock := false, recovery := .none } s
      let s := if x.tio then s else requestSwitch d true s
      if relocking then hubClockOn s else s
    else
      let s := setDom d { x with lock := false } (report ev s)
      clockRetire d (if x.tio then s else requestSwitch d true s)

/-- PLL_TRIP. -/
def execPllTrip (d why : Nat) (s : State) : Out := .next (unlessLocked (pllTrip d why) s)

/-- REF10_LOSS (R363, R388, R394). -/
def execRef10Loss (s : State) : Out :=
  .next (unlessLocked (fun s =>
    if s.clk.ref10Ok = false then s
    else
      let s := trimTrack (trimMode s) { s with clk := { s.clk with ref10Ok := false } }
      let s := stateNotice 0x1D 0 (clkReg 4) (BitVec.ofNat 64 (clkStatus s)) s
      if s.rm.src = 2 then enterHoldover s else s) s)

/-- REF10_RESTORED: the first gate that follows moves CODE by the full amount (R394). -/
def execRef10Restored (s : State) : Out :=
  .next (
    if s.clk.ref10Ok then s
    else trimTrack (trimMode s) { s with clk := { s.clk with ref10Ok := true, firstGate := true, goodGates := 0 } })

/-- REFCLK_LOSS: every PLL still locked loses lock in one AON_OSC cycle, the hub's event first among them (R388, R390). -/
def execRefclkLoss (s : State) : Out :=
  .next (unlessLocked (fun s =>
    if s.clk.refclkOk = false then s
    else
      let s := { s with clk := { s.clk with refclkOk := false } }
      let s := stateNotice 0x1D 0 (clkReg 4) (BitVec.ofNat 64 (clkStatus s)) s
      (hubDom :: netDom :: List.range 16).foldl (fun s d => if (dom s d).lock then pllTrip d 2 s else s) s) s)

def execRefclkRestored (s : State) : Out := .next { s with clk := { s.clk with refclkOk := true } }

/-- PLL_LOCK (R391, R392): at start-up the multiplexer enables the PLL; in a recovery attempt the 100 µs hold begins; a relocked
hub PLL takes the hub back. -/
def execPllLock (d : Nat) (s : State) : Out :=
  .next (
    let x := dom s d
    if domPresent s d = false ∨ s.boot.pwrGood = false ∨ x.lock then s
    else
      match x.recovery with
      | .locking =>
        if d = hubDom then requestSwitch d false (setDom d { x with lock := true } s)
        else setDom d { x with lock := true, recovery := .holding } s
      | .none =>
        if x.tio ∨ x.clocked ∨ x.switching.isSome ∨ x.retired then s
        else
          let s := setDom d { x with lock := true, clocked := true } s
          if d = hubDom then hubClockOn s else s
      | _ => s)

/-! ### Recovery (R391) -/

/-- RECOVERY_ATTEMPT: the PLL is reset and enabled again. -/
def execRecoveryAttempt (d : Nat) (s : State) : Out :=
  .next (
    let x := dom s d
    if x.retired ∧ x.recovery = .waiting then setDom d { x with recovery := .locking, lock := false } s else s)

/-- RECOVERY_HOLD_DONE: the domain returns to its PLL and its reset is released; a ring returns to U with the patch in effect,
its act store filled, unless boot has still to release it. -/
def execRecoveryHoldDone (d : Nat) (s : State) : Out :=
  .next (unlessLocked (fun s =>
    let x := dom s d
    if x.recovery ≠ .holding then s
    else
      let s := setDom d { clocked := true, lock := true } s
      if d = netDom then s
      else
        let s := unretireRing d s
        if s.boot.stage = stRunning then openEpoch (releaseRing d s) else recompute s) s)

/-- CLK_RECOVER (R391, R395): a set bit starts the sequence of its domain, or is noticed. -/
def clkRecoverWrite (data : W32) (s : State) : State :=
  let named := (List.range 18).filter (fun d => bit data d && (domPresent s d))
  let good := named.filter (fun d => d != hubDom && (dom s d).retired && (dom s d).recovery == .none)
  let s := good.foldl (fun s d => setDom d { dom s d with recovery := .waiting, failed := 0 } s) s
  if named.all (fun d => good.contains d) then s else ignoredWrite 0x16 (clkReg 0x1C) (data.setWidth 64) none s

def execClkRecover (data : W32) (s : State) : Out := .next (hostWrite (clkRecoverWrite data) s)

/-! ### Trimming TIO (R393, R394) -/

/-- CODE moves, and RM_FREQ by −Δ × 4,096 with it; a step that would take RM_FREQ beyond its clamp is not taken. -/
def setCode (code : BitVec 20) (s : State) : State :=
  let d := code.toInt - s.clk.code.toInt
  let f := s.rm.freq.toInt - d * 4096
  if f < -freqMax ∨ freqMax < f then s
  else { s with
    clk := { s.clk with code := code, codeWas := some (s.clk.codeWas.getD s.clk.code) }
    rm := { s.rm with freq := BitVec.ofInt 32 f } }

/-- CODE moved by a step; a sum outside its 20 bits is a value the manual does not give. -/
def codeAfter (step : Int) (s : State) : BitVec 20 × State :=
  let c := s.clk.code.toInt + step
  if -524288 ≤ c ∧ c < 524288 then (BitVec.ofInt 20 c, s)
  else
    let (k, s) := nextFresh s
    (Config.freeBits 20 k, s)

/-- A step of mode 1 or 2, counted when CODE changes (R395). -/
def trimStep (step : Int) (s : State) : State :=
  let (c, s) := codeAfter step s
  let t := setCode c s
  if t.clk.code = s.clk.code then t else bump (clkReg 0x20) 0 16 t

/-- n / d rounded to the nearest, halves away from zero. -/
def roundDiv (n : Int) (d : Nat) : Int := if 0 ≤ n then (2 * n + d) / (2 * d) else -((2 * (-n) + d) / (2 * d))

/-- TIO_TRIM_WRITE: in mode 0 only. -/
def tioTrimWrite (data : W32) (s : State) : State :=
  if s.clk.trim = 0 then setCode (data.setWidth 20) s else ignoredWrite 0x16 (clkReg 8) (data.setWidth 64) none s

def execTioTrimWrite (data : W32) (s : State) : Out := .next (hostWrite (tioTrimWrite data) s)

/-- TRIM_GATE: a gate of mode 1 ends with so many TIO cycles counted. -/
def execTrimGate (counted : Nat) (s : State) : Out :=
  .next (unlessLocked (fun s =>
    if trimMode s ≠ 1 then s
    else
      let e : Int := (counted : Int) - 400000000
      let full := roundDiv (-e) 25
      let step := if s.clk.firstGate then full else max (-16) (min 16 full)
      let good := if e.natAbs ≤ 25 then s.clk.goodGates + 1 else 0
      let s := trimStep step s
      { s with clk := { s.clk with
          meas := BitVec.ofInt 32 e, firstGate := false, goodGates := good,
          trimLocked := s.clk.trimLocked || 4 ≤ good } }) s)

/-- RM_FREQ written: CODE's changes of the same hub cycle are made against the written value, and are not taken where their compensation
would leave the clamp (R393). -/
def writeFreq (f : Int) (s : State) : State :=
  let f := (clampFreq f).toInt
  match s.clk.codeWas with
  | none => { s with rm := { s.rm with freq := BitVec.ofInt 32 f } }
  | some was =>
    setCode s.clk.code { s with clk := { s.clk with code := was }, rm := { s.rm with freq := BitVec.ofInt 32 f } }

/-- What a hub cycle's end notes of RM_FREQ and CODE (R393, R394). -/
def closeTrim (s : State) : State :=
  { s with clk := { s.clk with
      codeWas := none
      freqOver := if 65536 < s.rm.freq.toInt.natAbs then some (s.clk.freqOver.getD (ntN s)) else none } }

/-- |RM_FREQ| has exceeded 1 ppm for 16 s of NT in a row (R394). -/
def freqLongOver (s : State) : Bool :=
  match s.clk.freqOver with
  | some t => t + 16 * 10 ^ 9 ≤ ntN s
  | none => false

/-- TRIM_PTP_STEP: |RM_FREQ| has exceeded 1 ppm for 16 s of NT under mode 2. -/
def execTrimPtpStep (s : State) : Out :=
  .next (unlessLocked (fun s =>
    if trimMode s ≠ 2 ∨ s.rm.freq.toInt.natAbs ≤ 65536 ∨ freqLongOver s = false then s
    else
      let s := trimStep (roundDiv s.rm.freq.toInt 4096) s
      if s.rm.freq.toInt.natAbs ≤ 65536 then { s with clk := { s.clk with trimLocked := true } } else s) s)

end Sys2Proof.Machine
end

