-- ==== Sys2Proof/Machine/Faults.lean ====
section
/-!
DEFINITION. The fault collector: recording and class actions (R434, R438, R439), safety-net mode (R441, R442), the manager's accesses
(R435, R437, R438), its own errors (R436) and the lockstep comparison (R435).
-/
namespace Sys2Proof.Machine

open Sys2Proof

/-- FAULT_EVENT: a unit's event reaches the collector (R434). -/
def execFaultEvent (ev : Event) (s : State) : Out := .next (raiseEv ev s)

/-- SAFETY-NET MODE begins with the record of an F4 event (R441): undispatched tickets complete, dispatched ones leave their
acts; device tickets go on. -/
def enterSafetyNet (source : Byte) (s : State) : State :=
  if s.fc.snet then s
  else
    let s := { s with fc := { s.fc with snet := true, snetSource := source.setWidth 6 } }
    let mine := s.tickets.filter (fun t => !t.device)
    let s := ((mine.filter (fun t => t.inBuffer)).map (fun t => t.id)).foldl
      (fun s tid => finishQueued tid { status := stSafetyNet } s) s
    let s := ((mine.filter (fun t => t.dispatched)).map (fun t => t.id)).foldl (fun s tid => stopTicket tid stSafetyNet s) s
    checkFinal s

/-- The unit an F1 event counts against (R438): a ring for its banks, its DMA agent and its stop. -/
def countedUnit (u : Half) : Option Half :=
  match unitKind u with
  | 1 => some u
  | 2 => some u
  | 3 => if unitIdx u % 16 = 9 then some (unitRing (unitIdx u / 16)) else some u
  | 4 => some u
  | 5 => some (unitRing (unitIdx u / 16))
  | _ => none

/-- The F1 threshold (R438). -/
def countF1 (ev : Event) (s : State) : State :=
  match countedUnit ev.unit with
  | none => s
  | some u =>
    let n := Table.get 0 s.fcq.f1 u.toNat + 1
    let s := { s with fcq := { s.fcq with f1 := Table.set 0 s.fcq.f1 u.toNat n } }
    if s.fc.retireCount.toNat = n ∧ unitPresent s u ∧ unitRetired s u = false then
      report { cls := .f3, source := 0x21, unit := u, cause := 0x04, detail0 := BitVec.ofNat 64 n } s
    else s

/-- The class action of a recorded event (R429, R438, R441). F2 events have ended their operations where they were detected, and
F5 events take their own way (`lockdown`). -/
def classAction (w : Waiting) (s : State) : State :=
  if w.acts = false then s
  else
    match w.ev.cls with
    | .f1 => countF1 w.ev s
    | .f3 => retireUnit w s
    | .f4 => enterSafetyNet w.ev.source s
    | _ => s

/-- A place in the queue is free: the first event held at its source reaches the collector (R434). -/
def admitHeld (s : State) : State :=
  match s.fcq.heldAtSource with
  | [] => s
  | w :: r =>
    let w' := { w with cycle := s.time.cycle, nt := nt s, unsync := !s.rm.established }
    { s with fcq := { s.fcq with heldAtSource := r, waiting := insertWaiting w' s.fcq.waiting } }

/-- FAULT_RECORD_WRITE: the next event is recorded, and its class action taken (R434). -/
def execFaultRecordWrite (s : State) : Out :=
  .next (unlessLocked (fun s =>
    match s.fcq.waiting with
    | [] => s
    | w :: r => classAction w (admitHeld (writeRecord w { s with fcq := { s.fcq with waiting := r } }))) s)

def fcReg (off : Nat) : Nat := 0x400000 + off

/-- FC_CTRL as read (R444). -/
def fcCtrl (s : State) : Nat := pack [(b2n s.fc.irqEn, 30), (s.fc.irqClass.toNat, 27), (b2n s.fc.logF0, 26)]

/-- A write of 1 to SNET_NOW, with the value written (R441, R442). -/
def snetWrite (v : W64) (s : State) : State :=
  if s.fc.snet then ignoredWrite 0x1F (fcReg 0) v none s
  else report { cls := .f4, source := 0x20, cause := 0x10, detail0 := v } s

/-- SNET_NOW: the write leaves the register's other fields as they are. -/
def execSnetNow (s : State) : Out :=
  .next (hostWrite (fun s => snetWrite (BitVec.ofNat 64 (0x80000000 + fcCtrl s)) s) s)

/-- The record of this hub cycle, if one was written. -/
def capturedNow (s : State) : Option Captured := s.fcq.captured.filter (fun k => k.cycle == s.time.cycle)

/-- FC_MODE_WRITE (R435): a change of mode clears what has been captured; an event of this hub cycle is captured under the new mode. -/
def execFcModeWrite (data : W32) (s : State) : Out :=
  .next (hostWrite (fun s =>
    let m := bit data 0
    if m = s.fc.mode then s
    else
      let t := { s with fc := { s.fc with mode := m, sticky := 0, first := 0, firstValid := false, hq := [] } }
      match capturedNow s with
      | some k => capture k.source k.bytes t
      | none => t) s)

/-- FC_STICKY_CLEAR (R13, R435). -/
def execFcStickyClear (k : Nat) (data : W32) (s : State) : Out :=
  .next (hostWrite (fun s =>
    if 1 < k then s
    else
      let cur : W64 := BitVec.ofNat 64 (field s.fc.sticky.toNat (32 * k) 32)
      let new := w1c (stickyReg k) cur (data.setWidth 64) s
      let other := field s.fc.sticky.toNat (32 * (1 - k)) 32
      let all : W64 := BitVec.ofNat 64 (new.toNat * 2 ^ (32 * k) + other * 2 ^ (32 * (1 - k)))
      { s with fc := { s.fc with sticky := all, firstValid := s.fc.firstValid && all != 0 } }) s)

/-- POP (R435): the oldest record goes; the record of this hub cycle stands behind those that remain, a full queue having missed it or not. -/
def fcPop (s : State) : State :=
  let keep (l : List (BitVec 512)) (s : State) : State := { s with fc := { s.fc with hq := l } }
  match (if s.fc.mode then capturedNow s else none) with
  | none => keep (s.fc.hq.drop 1) s
  | some k =>
    if k.missed then
      unbump 0x400080 0 (keep (s.fc.hq.drop 1 ++ [k.bytes])
        { s with fcq := { s.fcq with captured := some { k with missed := false } } })
    else keep (s.fc.hq.dropLast.drop 1 ++ [k.bytes]) s

/-- POP and CLEAR of the history queue (R435). -/
def execPop (s : State) : Out := .next (hostWrite fcPop s)
def execClear (s : State) : Out := .next (hostWrite (fun s => { s with fc := { s.fc with hq := [] } }) s)

/-- FC_RETIRE: GO with a UNIT code (R438). -/
def execFcRetire (u : Half) (s : State) : Out :=
  .next (hostWrite (fun s =>
    let v : W64 := BitVec.ofNat 64 (0x80000000 + u.toNat)
    if unitPresent s u ∧ unitRetired s u = false then
      report { cls := .f3, source := 0x20, unit := u, cause := 0x10, detail0 := v } s
    else ignoredWrite 0x1F (fcReg 0x180) v none s) s)

/-- RETIRE_WINDOW_RESET: counts start from 0 (R438). -/
def execRetireWindowReset (s : State) : Out := .next (unlessLocked (fun s => { s with fcq := { s.fcq with f1 := [] } }) s)

/-- FC_INJ as read (R444). -/
def fcInj (s : State) : Nat :=
  pack [(b2n s.fc.injAct, 30), (s.fc.injClass.toNat, 27), (s.fc.injCause.toNat, 16), (s.fc.injSource.toNat, 8)]

/-- FAULT_INJECT: GO of FC_INJ; the event comes in the next hub cycle (R437). -/
def execFaultInject (s : State) : Out :=
  .next (hostWrite (fun s =>
    let src := s.fc.injSource.toNat
    if s.lcs.st ≠ 0 ∨ 6 ≤ s.fc.injClass.toNat ∨ src = 0 ∨ 0x22 ≤ src then
      ignoredWrite 0x1F (fcReg 0x1C0) (BitVec.ofNat 64 (0x80000000 + fcInj s)) none s
    else
      let ev : Event := { cls := FaultClass.ofCode s.fc.injClass.toNat, source := BitVec.ofNat 8 src, unit := s.fc.injUnit,
                          cause := s.fc.injCause }
      { s with fcq := { s.fcq with injection := some (ev, s.fc.injAct) } }) s)

/-- The injected event reaches the collector (R437): at a tick. An F5 event acts only with ACT. -/
def takeInjection (s : State) : State :=
  match s.fcq.injection with
  | none => s
  | some (ev, act) =>
    let s := { s with fcq := { s.fcq with injection := none } }
    let w := { stamped ev s with injected := true, acts := act }
    if s.fc.lock then s
    else if ev.cls = .f5 then (if act then lockdownAs w false s else writeRecord w s)
    else enqueueEvent w s

/-- COLLECTOR_PARITY_ERROR (R436): restored from the shadow, or F5. -/
def execCollectorParityError (off : W64) (shadowFails : Bool) (s : State) : Out :=
  .next (
    if s.dev.part = .kx512 ∧ shadowFails = false then
      bump (fcReg 0x1E0) 0 16 { s with fc := { s.fc with selfMark := true } }
    else lockdown { cls := .f5, source := 0x1F, cause := 0x0E, addr := off } false s)

/-- LOCKSTEP_MISMATCH: both management cores are held in reset (R435). -/
def execLockstepMismatch (pc0 pc1 : W64) (s : State) : Out :=
  .next (unlessLocked (fun s =>
    if s.mgmt.held then s
    else report { cls := .f4, source := 0x1E, unit := unitCore mgmtCore, cause := 0x0C, addr := pc0, detail0 := pc1 }
      { s with mgmt := { s.mgmt with held := true } }) s)

end Sys2Proof.Machine
end

