-- ==== Sys2Proof/Machine/Schedule.lean ====
section
/-!
DEFINITION. The schedule table (R365–R368).
-/
namespace Sys2Proof.Machine

open Sys2Proof

def schedReg (k off : Nat) : Nat := rmReg (0x1000 + 0x20 * k + off)

def sched (s : State) (k : Nat) : Sched := if k = 0 then s.rm.entry0 else Table.get {} s.rm.sched k
def setSched (k : Nat) (x : Sched) (s : State) : State :=
  if k = 0 then { s with rm := { s.rm with entry0 := x } }
  else { s with rm := { s.rm with sched := Table.set {} s.rm.sched k x } }

/-- A non-zero PERIOD below 1,000 ns is taken as 1,000 ns (R365). -/
def periodOf (p : W64) : W64 := if p ≠ 0 ∧ p.toNat < 1000 then 1000 else p

/-- RM_Sk_CTRL as read. -/
def Sched.ctrl (x : Sched) : Nat := pack [(b2n x.en, 31), (b2n x.syncOnly, 30), (x.action.toNat, 24), (x.arg.toNat, 0)]

/-- A write of RM_Sk_CTRL (R365, R367). -/
def schedCtrlWrite (k : Nat) (data : W32) (s : State) : State :=
  let x := sched s k
  let off := schedReg k 0x10
  let act := field data.toNat 24 4
  let y : Sched := { x with syncOnly := bit data 30, arg := data.setWidth 24 }
  if 256 ≤ k then ignoredWrite 0x13 off (data.setWidth 64) none s
  else if 8 ≤ act then ignoredWrite 0x16 off (data.setWidth 64) none s
  else if k = 0 then
    if x.periodStaged.toNat < 1000000 ∨ 60000000000 < x.periodStaged.toNat then ignoredWrite 0x16 off (data.setWidth 64) none s
    else setSched 0 y { s with rm := { s.rm with entry0Next := some x.periodStaged } }
  else if act = 1 then ignoredWrite 0x16 off (data.setWidth 64) none s
  else setSched k { y with
    fire := x.fireStaged, period := periodOf x.periodStaged, en := bit data 31, action := BitVec.ofNat 4 act } s

/-- SCHEDULE_ENTRY_WRITE. -/
def execScheduleEntryWrite (k : Nat) (data : W32) (s : State) : Out := .next (hostWrite (schedCtrlWrite k data) s)

/-- An enabled entry is due (R366). -/
def due (s : State) (k : Nat) : Bool := let x := sched s k; x.en && !(nt s).ult x.fire

/-- Entry 0 and PULSE entries act outside the order of the others (R366). -/
def outsideOrder (s : State) (k : Nat) : Bool := k == 0 || (sched s k).action == 6

/-- No due entry comes before this one in ascending FIRE, then number. -/
def firstDue (s : State) (k : Nat) : Bool :=
  (List.range 256).all (fun j =>
    j == k || outsideOrder s j || !due s j
      || (sched s k).fire.ult (sched s j).fire || ((sched s k).fire == (sched s j).fire && decide (k < j)))

/-- Periods from FIRE to the first firing past NT: the k of R366. -/
def periodsOver (x : Sched) (now : Nat) : Nat := (now - x.fire.toNat) / x.period.toNat + 1

/-- The words of a WAKE image (R381). -/
def imageOf (s : State) (k : Nat) : BitVec 512 :=
  BitVec.ofNat 512 ((List.range 16).foldl (fun a j => a + (Table.get 0 s.rm.image (16 * k + j)).toNat * 2 ^ (32 * j)) 0)

/-- WAKE (R368): an inline ticket of the instance, or LAST with a refusal that writes no entry. -/
def wakeAction (k iid : Nat) (s : State) : State :=
  let x := inst s iid
  if iidPresent s iid = false ∨ x.st ≠ .active ∨ freeSlots x = 0 ∨ s.boot.warm then
    setSched k { sched s k with last := if s.fc.snet then stSafetyNet else stQuota } s
  else enterOne iid (.wake k) (imageOf s k) [] .entering (setInst iid { x with reserved := x.reserved + 1 } s)

/-- What an action does; `fire` is the fire time (R367). -/
def schedAction (k : Nat) (x : Sched) (s : State) : State :=
  match x.action.toNat with
  | 1 => causeSeal s
  | 2 => reseedTrigger (bit x.arg 0) s
  | 3 => { s with ks := { s.ks with sweeping := true } }
  | 4 => shareBoundary s
  | 5 => writeMarker k x.arg.toNat s
  | 6 => { s with rm := { s.rm with
      pulses := Table.set 0 s.rm.pulses k (x.fire.toNat + 1000 * max 1 (min 500000 x.arg.toNat)) } }
  | 7 => wakeAction k (x.arg.toNat % 512) s
  | _ => s

/-- FIRE, PERIOD and EN after a firing (R365, R366). -/
def Sched.fired (x : Sched) (now : Nat) : Sched :=
  if x.period = 0 then { x with en := false }
  else { x with fire := x.fire + BitVec.ofNat 64 (periodsOver x now) * x.period }

/-- SCHEDULE_FIRE: in the order, one a hub cycle; entry 0 and PULSE entries outside it (R366). -/
def schedFire (k : Nat) (s : State) : State :=
  if 256 ≤ k ∨ due s k = false ∨ (outsideOrder s k = false ∧ (firstDue s k = false ∨ s.rm.fired)) then s
  else
    let s := { s with rm := { s.rm with fired := s.rm.fired || !outsideOrder s k } }
    let x := sched s k
    let x := if k = 0 then { x with period := s.rm.entry0Next.getD x.period } else x
    let skip : Bool := x.syncOnly && !s.rm.established
    let passed := if x.period = 0 then 0 else periodsOver x (ntN s) - 1
    let s := setSched k (x.fired (ntN s)) s
    let s := if k = 0 then { s with rm := { s.rm with entry0Next := none } } else s
    let s := bumpN (schedReg k 0x14) 1 8 (passed + b2n skip) s
    if skip then s else schedAction k x (bump (schedReg k 0x14) 0 16 s)

def execScheduleFire (k : Nat) (s : State) : Out := .next (unlessLocked (schedFire k) s)

/-- PULSE_END: the width has run (R367). -/
def execPulseEnd (k : Nat) (s : State) : Out :=
  .next (unlessLocked (fun s =>
    if Table.get 0 s.rm.pulses k ≤ ntN s then { s with rm := { s.rm with pulses := Table.erase k s.rm.pulses } } else s) s)

end Sys2Proof.Machine
end

