-- ==== Sys2Proof/Machine/RegRead.lean ====
section
/-!
DEFINITION. What a 32-bit read of each register of BAR0 and BAR2 returns (R42–R46, R482–R484, and each block's own register table).
An offset that is not listed holds no register and reads 0 (R12). Nothing here changes the state.
-/
namespace Sys2Proof.Machine

open Sys2Proof

/-- Word k of a number, 32 bits, low word first (R11). -/
def wordOf (n k : Nat) : Nat := field n (32 * k) 32

/-- Which row of a regular register file an offset lies in, and where in it: rows of `size` bytes from `base`, `count` of them. -/
def rowAt (base size count off : Nat) : Option (Nat × Nat) :=
  if base ≤ off ∧ off < base + size * count then some ((off - base) / size, (off - base) % size) else none

/-- Two RC fields of 16 bits, field 0 in the low half. -/
def rcPair (reg : Nat) (s : State) : Nat := pack [(rcRead reg 1 s, 16), (rcRead reg 0 s, 0)]

/-! ### Global control and identity (R4, R125, R126, R171, R481, R484) -/

def deviceId (s : State) : Nat :=
  pack [(0x4B, 24), (if s.dev.part = .kx512 then 1 else 2, 16), (s.dev.grade.toNat, 12), (s.dev.stepLetter.toNat, 8),
    (s.dev.stepDigit.toNat, 4), (ringCount s - 1, 0)]

def msixWord (s : State) (v k : Nat) : Nat :=
  let e := Table.get {} s.pcie.msix v
  match k with
  | 0 => wordOf e.addr.toNat 0
  | 1 => wordOf e.addr.toNat 1
  | 2 => e.data.toNat
  | _ => e.ctrl.toNat

def rdGlobal (off : Nat) (s : State) : Nat :=
  match off with
  | 0x0000 => deviceId s
  | 0x0100 => s.boot.ring.toNat
  | 0x0104 => pack [(s.boot.warmCount.toNat, 16), (s.boot.cause.toNat, 0)]
  | 0x0108 => pack [(s.boot.resultB.toNat, 24), (s.boot.resultA.toNat, 16), (b2n s.boot.bundleFailI, 13),
      (b2n s.boot.bundleFailV, 12), (s.boot.slot.toNat, 8), (s.boot.stage.toNat, 0)]
  | 0x0110 => wordOf s.boot.imgVersion.toNat 0
  | 0x0114 => wordOf s.boot.imgVersion.toNat 1
  | 0x1000 => s.acts.loadAct.toNat
  | 0x1004 => pack [(b2n s.acts.busy, 31), (s.acts.result.toNat, 0)]
  | 0x1014 => pack [(b2n s.patch.busy, 31), (s.patch.version.toNat, 8), (s.patch.result.toNat, 0)]
  | _ =>
    match rowAt 0x2000 4 (iidCount s) off, rowAt 0x8000 16 514 off with
    | some (n, _), _ => (Table.get 1 s.acts.grp n).toNat
    | none, some (v, o) => msixWord s v (o / 4)
    | none, none => if 0xC000 ≤ off ∧ off < 0xC048 then wordOf s.pcie.msixPending.toNat ((off - 0xC000) / 4) else 0

/-! ### Instance table and pages (R43–R46, R61, R70) -/

def itWord (s : State) (i off : Nat) : Nat :=
  let x := inst s i
  match off with
  | 0x04 => itStatus s i
  | 0x08 => pack [(b2n x.pasidValid, 31), (x.pasid.toNat, 0)]
  | 0x0C => pack [(x.cqLog2.toNat, 8), (x.sqLog2.toNat, 0)]
  | 0x10 => wordOf x.sqBase.toNat 0
  | 0x14 => wordOf x.sqBase.toNat 1
  | 0x18 => wordOf x.cqBase.toNat 0
  | 0x1C => wordOf x.cqBase.toNat 1
  | 0x20 => pack [(x.weight.toNat, 16), (x.minCores.toNat, 0)]
  | 0x24 => x.ceiling.toNat
  | 0x28 => pack [(b2n x.irqEn, 31), (x.irqVector.toNat, 0)]
  | 0x2C => x.sqHead % 4096
  | 0x30 => x.cqTail % 4096
  | 0x34 => pack [(queuedCount s i, 16), (runningCount s i, 0)]
  | 0x38 => rcPair (itReg i 0x38) s
  | _ => 0

/-- The manager reads a tenant's message and writes its own (R43, R483). -/
def mbWord (s : State) (i off : Nat) : Nat :=
  if off < 0x20 then (Table.get 0 (page s i).mbOut (off / 4)).toNat else (Table.get 0 (page s i).mbIn (off / 4 - 8)).toNat

def rdInstance (off : Nat) (s : State) : Nat :=
  match rowAt 0x100000 0x40 (iidCount s) off, rowAt 0x108000 0x40 (iidCount s) off with
  | some (i, o), _ => itWord s i o
  | none, some (i, o) => mbWord s i o
  | none, none => match rowAt 0x110000 4 (iidCount s / 32) off with
    | some (k, _) => wordOf s.attn.toNat k
    | none => 0

def pageStatus (s : State) (i : Nat) : Nat :=
  pack [(b2n ((inst s i).st == .active), 8), (itStatus s i % 16, 0)]

def rdPage (off : Nat) (s : State) : Nat :=
  let i := off / 0x1000
  let o := off % 0x1000
  let p := page s i
  if iidPresent s i = false then 0
  else match o with
    | 0x000 => (inst s i).sqTail % 4096
    | 0x004 => (inst s i).cqHead % 4096
    | 0x010 => abortStatus p
    | 0x014 => pageStatus s i
    | 0x01C => p.inlineStatus.toNat
    | 0x020 => mbCtrl p
    | _ =>
      if 0x40 ≤ o ∧ o < 0x60 then (Table.get 0 p.mbOut (o / 4 - 16)).toNat
      else if 0x60 ≤ o ∧ o < 0x80 then (Table.get 0 p.mbIn (o / 4 - 24)).toNat
      else 0

/-! ### Usher (R95) and key store (R313) -/

/-- Entries of the ticket buffer in use (R78). -/
def bufUsed (s : State) : Nat :=
  (s.tickets.filter (fun t => !t.device && t.inBuffer)).length + (s.inst.map (fun e => e.2.coming (fun r => r.count))).sum

def rdUsher (off : Nat) (s : State) : Nat :=
  match off with
  | 0x200000 => s.ush.age.toNat * 16
  | 0x200004 => ushStatus s
  | 0x200008 => s.ush.horizon.toNat
  | 0x20000C => s.ush.deferTh.toNat
  | 0x200010 => s.ush.cache.toNat
  | 0x200014 => pack [(s.ush.spreadUs.toNat, 16), (s.ush.initRings.toNat, 0)]
  | 0x200018 => bufUsed s
  | 0x20001C => pack [(usableCores s, 16), (usableRings s, 0)]
  | 0x200060 => s.ush.ringRet.toNat
  | _ =>
    match rowAt 0x200040 4 8 off, rowAt 0x201000 0x10 (iidCount s) off with
    | some (k, _), _ => wordOf s.ush.coreRet.toNat k
    | none, some (i, 0) =>
      pack [(sat 16 ((share s i).ent * 16).floor.toNat, 16), ((share s i).minEff, 0)]
    | none, some (i, 4) => sat 24 (waitUs s i)
    | none, some (_, _) => rcPair off s
    | none, none => 0

def cerStatus (c : Ceremony) : Nat :=
  pack [(b2n c.busy, 31), (b2n c.isOpen, 28), (c.step, 24), (c.result.toNat, 0)]

def cerCtrl (c : Ceremony) : Nat := pack [(c.n.toNat, 24), (c.rstep.toNat, 20), (b2n c.hc, 16)]

def rdKeyStore (off : Nat) (s : State) : Nat :=
  let c := s.ks.cer
  match off with
  | 0x300000 => pack [(b2n (s.ks.entries.any (fun e => e.2.st == .destroying)), 31), (196608 - linesUsed s, 0)]
  | 0x300004 => 32768 - entriesUsed s
  | 0x300008 => s.ks.timeBound.toNat
  | 0x30000C => rcPair off s
  | 0x300100 => cerCtrl c
  | 0x300104 => cerStatus c
  | 0x300108 => c.target.toNat
  | 0x30010C => wordOf c.attr.toNat 0
  | 0x300110 => wordOf c.attr.toNat 1
  | 0x300114 => c.id.toNat
  | 0x300118 => c.resume.toNat
  | _ => match rowAt 0x301000 0x20 (iidCount s) off with
    | none => 0
    | some (i, o) =>
      let x := ksInst s i
      match o with
      | 0x10 => pack [(x.quotaEntries.toNat, 16), (x.quotaKib.toNat, 0)]
      | 0x14 => pack [((keysOf s i).length, 16), ((linesOf s i + 15) / 16, 0)]
      | 0x18 => pack [(rcRead off 1 s, 16), (x.lastCause.toNat, 0)]
      | _ => if o < 0x10 then wordOf x.domain.toNat (o / 4) else 0

/-! ### Fault collector (R444) -/

def fcStatus (s : State) : Nat :=
  pack [(b2n s.fc.snet, 31), (b2n s.fc.lock, 30), (b2n s.fc.firstValid, 29), (s.fc.hq.length, 16), (s.fc.snetSource.toNat, 8)]

def fcLockStat (s : State) : Nat := pack [(b2n s.fc.lock, 31), (rcRead 0x400240 0 s, 0)]

/-- Word of the trouble log's window (R440). -/
def logWord (s : State) (off : Nat) : Nat :=
  wordOf (Table.get 0 s.fc.log ((off - 0x440000) / 64)).toNat ((off - 0x440000) % 64 / 4)

def rdCollector (off : Nat) (s : State) : Nat :=
  match off with
  | 0x400000 => fcCtrl s
  | 0x400004 => fcStatus s
  | 0x400008 => b2n s.fc.mode
  | 0x400010 => wordOf s.fc.sticky.toNat 0
  | 0x400014 => wordOf s.fc.sticky.toNat 1
  | 0x400080 => rcRead off 0 s
  | 0x400100 => s.fc.logHead.toNat
  | 0x400104 => rcPair off s
  | 0x400184 => pack [(s.fc.retireWindow.toNat, 16), (s.fc.retireCount.toNat, 0)]
  | 0x4001C0 => fcInj s
  | 0x4001C4 => s.fc.injUnit.toNat
  | 0x4001E0 => if s.dev.part = .kx128 then 0 else rcRead off 0 s
  | 0x400240 => fcLockStat s
  | _ =>
    if 0x400040 ≤ off ∧ off < 0x400080 then wordOf s.fc.first.toNat ((off - 0x400040) / 4)
    else if 0x4000C0 ≤ off ∧ off < 0x400100 then wordOf (s.fc.hq.headD 0).toNat ((off - 0x4000C0) / 4)
    else if 0x400140 ≤ off ∧ off < 0x400158 then rcRead off 0 s
    else if 0x400200 ≤ off ∧ off < 0x400240 then wordOf s.fc.lockRec.toNat ((off - 0x400200) / 4)
    else if 0x440000 ≤ off ∧ off < 0x480000 then logWord s off
    else 0

/-! ### Ringmaster (R381) and clocks (R395) -/

def domBits (s : State) (f : Domain → Bool) : Nat :=
  ((List.range 18).map (fun d => if domPresent s d && f (dom s d) then 2 ^ d else 0)).sum

def rdSched (s : State) (k o : Nat) : Nat :=
  let x := sched s k
  match o with
  | 0x00 => wordOf x.fire.toNat 0
  | 0x04 => wordOf x.fire.toNat 1
  | 0x08 => wordOf x.period.toNat 0
  | 0x0C => wordOf x.period.toNat 1
  | 0x10 => x.ctrl
  | 0x14 => pack [(rcRead (schedReg k 0x14) 0 s, 16), (rcRead (schedReg k 0x14) 1 s, 8), (x.last.toNat, 0)]
  | _ => 0

def rdClocks (off : Nat) (s : State) : Nat :=
  match off with
  | 0x508000 => pack [(b2n s.clk.gateDis, 31), (s.clk.trim.toNat, 8), (s.clk.retry.toNat, 0)]
  | 0x508004 => clkStatus s
  | 0x508008 => s.clk.code.toNat
  | 0x50800C => s.clk.meas.toNat
  | 0x508010 => domBits s (fun x => x.tio)
  | 0x508014 => domBits s (fun x => x.lock)
  | 0x508018 => domBits s (fun x => x.retired)
  | 0x508020 => pack [(rcRead off 2 s, 24), (rcRead off 1 s, 16), (rcRead off 0 s, 0)]
  | _ => 0

def rdRingmaster (off : Nat) (s : State) : Nat :=
  match off with
  | 0x500000 => pack [(b2n s.rm.stepEn, 30), (s.rm.slew.toNat, 8), (s.rm.src.toNat, 0)]
  | 0x500004 => rmStatus s
  | 0x500008 => wordOf (ntN s) 0
  | 0x50000C => wordOf (ntN s) 1
  | 0x500010 => uncertainty s
  | 0x500014 => s.rm.freq.toNat
  | 0x500018 => wordOf s.rm.adj.toNat 0
  | 0x50001C => wordOf s.rm.adj.toNat 1
  | 0x500024 => s.rm.uncBase.toNat
  | 0x500028 => s.rm.holdRate.toNat
  | 0x50002C => s.rm.stepTh.toNat
  | 0x500030 => s.rm.ppsLat.toNat
  | 0x500034 => s.rm.ppsAcc.toNat
  | 0x500038 => wordOf s.rm.setSec.toNat 0
  | 0x50003C => wordOf s.rm.setSec.toNat 1
  | 0x500040 => pack [(rcRead off 2 s, 16), (rcRead off 1 s, 8), (rcRead off 0 s, 0)]
  | _ =>
    match rowAt 0x501000 0x20 256 off, rowAt 0x504000 0x40 256 off with
    | some (k, o), _ => rdSched s k o
    | none, some (k, o) => (Table.get 0 s.rm.image (16 * k + o / 4)).toNat
    | none, none => rdClocks off s

/-! ### Network (R330), Dolid (R355) -/

def txtsWord (x : Port) (k : Nat) : Nat :=
  match x.txts.head? with
  | none => 0
  | some e =>
    match k with
    | 0 => wordOf e.nt.toNat 0
    | 1 => wordOf e.nt.toNat 1
    | 2 => pack [(1, 31), (b2n e.stepped, 30), (b2n e.unsync, 29), (b2n e.ovf, 28), (e.frac.toNat, 16), (e.seq.toNat, 0)]
    | _ => pack [(e.msgType.toNat, 8), (e.domain.toNat, 0)]

/-- Word k of an address in network order (R330). -/
def ipWord (a : Ip) (k : Nat) : Nat := wordOf a.toNat (3 - k)

def portWord (s : State) (p o : Nat) : Nat :=
  let x := netPort s p
  match o with
  | 0x00 => x.ctrl
  | 0x04 => x.status
  | 0x08 => wordOf x.mac.toNat 0
  | 0x0C => wordOf x.mac.toNat 1
  | 0x10 => pack [(b2n x.tagged, 31), (x.pcp.toNat, 13), (x.vid.toNat, 0)]
  | 0x14 => x.mtu.toNat
  | 0x18 => pack [(x.dscp.toNat, 24), (x.hops.toNat, 16), (x.prefix6.toNat, 8), (x.prefix4.toNat, 0)]
  | 0x1C => x.ip4.toNat
  | 0x20 => x.gw4.toNat
  | 0x50 => pack [(b2n x.ptpEn, 31), (b2n x.l2, 30), (b2n x.udp4, 29), (b2n x.udp6, 28), (b2n x.onestep, 27)]
  | 0x54 => x.rxLat.toNat
  | 0x58 => x.txLat.toNat
  | _ =>
    if 0x30 ≤ o ∧ o < 0x40 then ipWord x.ip6 (o / 4 - 12)
    else if 0x40 ≤ o ∧ o < 0x50 then ipWord x.gw6 (o / 4 - 16)
    else if 0x60 ≤ o ∧ o < 0x70 then txtsWord x (o / 4 - 24)
    else if 0x80 ≤ o ∧ o < 0xAC then rcRead (netReg p o) 0 s
    else 0

def rdNetwork (off : Nat) (s : State) : Nat :=
  match off with
  | 0x600000 => s.net.pair.toNat
  | 0x600004 => ((List.range 8).map (fun p => if (netPort s p).link then 2 ^ p else 0)).sum
  | _ => match rowAt 0x601000 0x200 8 off with
    | some (p, o) => if portPresent s p then portWord s p o else 0
    | none => 0

def dolIWord (s : State) (i o : Nat) : Nat :=
  let d := dolInst s i
  match o with
  | 0x00 => pack [(b2n d.en, 31), (b2n d.v4, 30), (b2n d.v6, 29), (d.maxSess.toNat, 0)]
  | 0x04 => pack [(b2n d.kemValid, 31), (d.kemSlot.toNat, 0)]
  | 0x08 => pack [(d.rateNet.toNat, 16), (d.burstNet.toNat, 0)]
  | 0x0C => pack [(d.ratePcie.toNat, 16), (d.burstPcie.toNat, 0)]
  | 0x10 => pack [((linesHeld s i + 15) / 16, 16), (d.limit.toNat, 0)]
  | 0x14 => dolOpenOf s i
  | 0x18 => rcPair (dolIReg i 0x18) s
  | _ => 0

def rdDolid (off : Nat) (s : State) : Nat :=
  let d := s.dol
  match off with
  | 0x700000 => pack [(b2n d.en, 31), (d.udpPort.toNat, 0)]
  | 0x700004 => pack [(d.idleS.toNat, 24), (d.cookieS.toNat, 16), (d.holdMs.toNat, 0)]
  | 0x700008 => pack [(b2n (cookieReady s), 31), (b2n s.fc.snet, 30), (dolOpen s, 0)]
  | 0x70000C => (sharedLines s - d.sharedUsed) / 16
  | 0x700100 => pack [(b2n d.peerErr, 29), (d.peerIdx.toNat, 0)]
  | 0x700104 => pack [(b2n d.peerReg.valid, 31), (d.peerReg.iid.toNat, 16)]
  | 0x700108 => wordOf d.peerReg.id.toNat 0
  | 0x70010C => wordOf d.peerReg.id.toNat 1
  | 0x700110 => d.peerReg.slot.toNat
  | _ =>
    if 0x700040 ≤ off ∧ off < 0x700060 then rcRead off 0 s
    else match rowAt 0x701000 0x20 (iidCount s) off with
      | some (i, o) => dolIWord s i o
      | none => 0

/-! ### Entropy (R428), hat-check slots (R411) -/

def noiseStat (x : Noise) : Nat :=
  pack [(x.ones, 21), (b2n x.rctTrip, 18), (b2n x.aptTrip, 17), (b2n x.valid, 16), (x.window.toNat, 0)]

def rdEntropy (off : Nat) (s : State) : Nat :=
  let r := s.rng
  match off with
  | 0x800000 => r.srcEn.toNat
  | 0x800004 => rngStatus s
  | 0x80000C => r.holdUs.toNat
  | 0x800010 => r.autoTh.toNat
  | 0x800014 => r.count
  | 0x800018 => rcPair off s
  | 0x80001C => pack [(r.aptC.toNat, 16), (r.rctC.toNat, 0)]
  | 0x800400 => pack [(b2n r.rawDone, 30), (r.rawSrc.toNat, 0)]
  | _ =>
    if 0x800020 ≤ off ∧ off < 0x800040 then (Table.get 0 r.pers ((off - 0x800020) / 4)).toNat
    else if 0x801000 ≤ off ∧ off < 0x801800 then
      (if s.lcs.st = lcMaker then wordOf r.raw.toNat ((off - 0x801000) / 4) else 0)
    else match rowAt 0x800100 0x40 4 off with
      | none => 0
      | some (k, o) =>
        let x := Table.get {} r.src k
        match o with
        | 0x00 => noiseStat x
        | 0x04 => rcPair off s
        | 0x08 => rcPair off s
        | _ => if o < 0x2C then x.latched.getD ((o - 0x0C) / 4) 0 else 0

/-- Four bytes of a list, little-endian. -/
def listWord (l : List Byte) (k : Nat) : Nat := natOf ((List.range 4).map (fun j => l.getD (4 * k + j) 0))

def slotWord (s : State) (n o : Nat) : Nat :=
  let x := slotOf s n
  match o with
  | 0x00 => pack [(b2n x.autoAct, 31), (b2n x.classA, 30), (b2n x.classB, 29), (b2n x.clkstopEn, 28), (x.clkdiv.toNat, 0)]
  | 0x04 => x.status
  | 0x0C => pack [(x.rxLen.toNat, 16), (x.txLen.toNat, 0)]
  | 0x10 => pack [(x.fi.toNat, 28), (x.di.toNat, 24), (x.ifsc.toNat, 16), (x.bwi.toNat, 12), (x.cwi.toNat, 8), (x.guardN.toNat, 0)]
  | 0x14 => pack [(x.busyMax.toNat, 16), (x.pollUs.toNat, 0)]
  | 0x18 => pack [(rcRead (hcReg n 0x18) 3 s, 24), (rcRead (hcReg n 0x18) 2 s, 16), (rcRead (hcReg n 0x18) 1 s, 8),
      (rcRead (hcReg n 0x18) 0 s, 0)]
  | _ => if 0x40 ≤ o ∧ o < 0x64 then listWord x.atr (o / 4 - 16) else 0

/-- A byte of a slot's buffer: TX, RX, or none (R411). -/
def slotBuffer (x : Slot) (o : Nat) : Byte :=
  if o < 0x105 then Table.get 0 x.tx o
  else if 0x200 ≤ o ∧ o < 0x302 then Table.get 0 x.rx (o - 0x200)
  else 0

def rdSlots (off : Nat) (s : State) : Nat :=
  match rowAt 0x900000 0x100 2 off, rowAt 0x901000 0x400 2 off with
  | some (n, o), _ => slotWord s n o
  | none, some (n, o) => natOf ((List.range 4).map (fun j => slotBuffer (slotOf s n) (o + j)))
  | none, none => 0

/-! ### Life cycle and debug (R463), audit (R382) -/

/-- Intent row t, 0 INTEGRATOR to 3 SCRAPPED, is complete (R446). -/
def intentDone (s : State) (t : Nat) : Bool := lcIntent s t == codeword (t + 1)

def intentWord (s : State) : Nat :=
  ((List.range 4).map (fun t =>
    if intentDone s t then 2 ^ t else if lcIntent s t ≠ 0 then 2 ^ (4 + t) else 0)).sum

def dbgStatus (s : State) : Nat :=
  let l := s.lcs
  let maker := decide (l.st = lcMaker)
  pack [(b2n l.dbgBusy, 31), (b2n (l.granted || maker), 30), (b2n l.dbgHeld, 29),
    (if maker then 15 else if l.granted then l.perm.toNat else 0, 8), (l.dbgResult.toNat, 0)]

def rdLifeCycle (off : Nat) (s : State) : Nat :=
  let l := s.lcs
  match off with
  | 0xA00000 => lcsStatus s
  | 0xA00028 => intentWord s
  | 0xA00040 => pack [(b2n (Table.get false l.rootLocked 1), 1), (b2n (Table.get false l.rootLocked 0), 0)]
  | 0xA00044 => pack [(b2n l.rootBusy, 30), (b2n l.rootSel, 8), (l.rootResult.toNat, 0)]
  | 0xA00104 => dbgStatus s
  | _ =>
    if 0xA00010 ≤ off ∧ off < 0xA00028 then wordOf (lcCopy s ((off - 0xA00010) / 8)).toNat ((off - 0xA00010) % 8 / 4)
    else if 0xA00030 ≤ off ∧ off < 0xA00040 then wordOf l.serial.toNat ((off - 0xA00030) / 4)
    else if 0xA00060 ≤ off ∧ off < 0xA00080 then (Table.get 0 l.rootData ((off - 0xA00060) / 4)).toNat
    else if 0xA00120 ≤ off ∧ off < 0xA00140 then listWord l.chal ((off - 0xA00120) / 4)
    else 0

def audStatus (s : State) : Nat :=
  pack [(b2n s.aud.bootReady, 31), (b2n s.aud.isFinal, 30), (rcRead audStatusReg 2 s, 16), (stagedCount s, 8),
    (rcRead audStatusReg 0 s, 0)]

def rdAudit (off : Nat) (s : State) : Nat :=
  let a := s.aud
  match off with
  | 0xB00000 => pack [(b2n a.cosign, 31), (b2n a.irq, 30), (a.ringLog2.toNat, 0)]
  | 0xB00008 => wordOf a.base.toNat 0
  | 0xB0000C => wordOf a.base.toNat 1
  | 0xB00010 => a.head.toNat
  | 0xB00014 => a.tail.toNat
  | 0xB00018 => audStatus s
  | 0xB00020 => wordOf a.epoch.toNat 0
  | 0xB00024 => wordOf a.epoch.toNat 1
  | _ =>
    if 0xB00040 ≤ off ∧ off < 0xB00060 then listWord a.bootId ((off - 0xB00040) / 4)
    else match rowAt 0xB01000 4 (iidCount s) off with
      | some (n, _) => Table.get 0 a.counts n
      | none => 0

/-! ### Any offset -/

/-- The block of BAR0 (R42), numbered by its MiB. -/
def rdBar0 (off : Nat) (s : State) : Nat :=
  match off / 0x100000 with
  | 0 => rdGlobal off s
  | 1 => rdInstance off s
  | 2 => rdUsher off s
  | 3 => rdKeyStore off s
  | 4 => rdCollector off s
  | 5 => rdRingmaster off s
  | 6 => rdNetwork off s
  | 7 => rdDolid off s
  | 8 => rdEntropy off s
  | 9 => rdSlots off s
  | 10 => rdLifeCycle off s
  | 11 => rdAudit off s
  | _ => if 0x1000000 ≤ off ∧ off + 3 < 0x2000000 then natOf (readWin s.mem.loadWin (off - 0x1000000) 4) else 0

/-- Which reads are served: in Lockdown a few registers and, while the hub runs, the trouble log (R443); in SCRAPPED two
registers (R455). -/
def readServed (bar off : Nat) (s : State) : Bool :=
  if s.fc.lock then
    bar == 0 && (off == 0 || off == 0x400004 || (0x400200 ≤ off && off ≤ 0x400240)
      || (hubClocked s && 0x440000 ≤ off && off < 0x480000))
  else if s.lcs.st = lcScrapped then bar == 0 && (off == 0 || off == 0xA00000)
  else true

/-- A 32-bit read of an aligned offset. -/
def rdWord (bar off : Nat) (s : State) : W32 :=
  if readServed bar off s = false then 0
  else BitVec.ofNat 32 (if bar = 0 then rdBar0 off s else if bar = 2 then rdPage off s else 0)

end Sys2Proof.Machine
end

