-- ==== Sys2Proof/Machine/RegWrite.lean ====
section
/-!
DEFINITION. What a 32-bit write of each register of BAR0 and BAR2 does (R9–R12, R42–R46, and each block's own register table), and
what a read does beside returning a value (R9, R13, R328, R417). A field that is RO ignores a write; a field with a row of its own
takes that row's meaning; an offset that is not listed ignores the write with an F0 Notice (R12).
-/
namespace Sys2Proof.Machine

open Sys2Proof

/-- Who makes the access: the manager or a tenant, a management core (R122), or the debug access port (R457). -/
inductive Who where
  | host | mgmt | dap
  deriving DecidableEq, Repr

/-- The state a meaning answers; a meaning that stops leaves the state. -/
def ofOut (o : Out) (s : State) : State :=
  match o with
  | .next t => t
  | _ => s

/-- A number with its 32-bit word k replaced. -/
def withWord (n k : Nat) (v : W32) : Nat := n - wordOf n k * 2 ^ (32 * k) + v.toNat * 2 ^ (32 * k)

/-- A write of an offset that holds no register (R12, R508). -/
def noRegister (off : Nat) (v : W32) (s : State) : State := ignoredWrite 0x13 off (v.setWidth 64) none s

/-- Free findings of a check that a plain write starts (assumption 3). -/
def takeVerdict (s : State) : Bool × State := (Config.verdict s.fresh, { s with fresh := s.fresh + 1 })

/-! ### Global control and identity -/

def msixWrite (e k : Nat) (v : W32) (s : State) : State :=
  let x := Table.get {} s.pcie.msix e
  let y : MsixEntry := match k with
    | 0 => { x with addr := BitVec.ofNat 64 (withWord x.addr.toNat 0 v) }
    | 1 => { x with addr := BitVec.ofNat 64 (withWord x.addr.toNat 1 v) }
    | 2 => { x with data := v }
    | _ => { x with ctrl := v &&& 1 }
  msixFlush { s with pcie := { s.pcie with msix := Table.set {} s.pcie.msix e y } }

/-- GCTL_RST_CTRL: RING, then RING_GO, then WARM (R481). -/
def rstCtrlWrite (v : W32) (s : State) : State :=
  let s := { s with boot := { s.boot with ring := v.setWidth 4 } }
  let s := if bit v 30 then ofOut (execRingGo (v.toNat % 16) s) s else s
  if bit v 31 then warmWrite s else s

/-- GCTL_ACT_LOAD: ACT, then GO, then UNLOAD (R125). -/
def actLoadWrite (v : W32) (s : State) : State :=
  let s := { s with acts := { s.acts with loadAct := v.setWidth 16 } }
  let s := if bit v 31 then actLoadGo (v.setWidth 64) s else s
  if bit v 30 then unloadGo (v.setWidth 16) s else s

def patchLoadWrite (v : W32) (s : State) : State :=
  let (k, s) := takeVerdict s
  let (g, s) := takeVerdict s
  let s := if bit v 31 then patchLoadGo k g s else s
  if bit v 30 then revertGo s else s

def bootCmdWrite (v : W32) (s : State) : State :=
  if bit v 31 then
    let n := s.fresh
    let f (k : Nat) : Bool := Config.verdict (n + k)
    let s := { s with fresh := n + 7 }
    bootCmdLoad { flashOk := f 0, keyOk := f 1, sigOk := f 2, patchKeyOk := f 3, patchSigOk := f 4, vendorOk := f 5, integratorOk := f 6 } s
  else s

def wrGlobal (off : Nat) (v : W32) (s : State) : State :=
  match off with
  | 0x0000 => s
  | 0x0100 => rstCtrlWrite v s
  | 0x0104 => s
  | 0x0108 => s
  | 0x010C => bootCmdWrite v s
  | 0x0110 => s
  | 0x0114 => s
  | 0x1000 => actLoadWrite v s
  | 0x1004 => s
  | 0x1010 => patchLoadWrite v s
  | 0x1014 => s
  | _ =>
    match rowAt 0x2000 4 (iidCount s) off, rowAt 0x8000 16 514 off with
    | some (n, _), _ => { s with acts := { s.acts with
        grp := Table.set 1 s.acts.grp n (v.setWidth 16), grpWas := s.acts.grpWas ++ [(n, Table.get 1 s.acts.grp n)] } }
    | none, some (e, o) => msixWrite e (o / 4) v s
    | none, none => if 0xC000 ≤ off ∧ off < 0xC048 then s else noRegister off v s

/-! ### Instance table and pages -/

/-- IT_CMD (R44, R64). -/
def itCmdWrite (i : Nat) (v : W32) (s : State) : State :=
  match v.toNat % 16 with
  | 1 => ofOut (execActivate i s) s
  | 2 => ofOut (execStop i s) s
  | 3 => ofOut (execCancel i s) s
  | 4 => ofOut (execResume i s) s
  | 5 => ofOut (execInstReset i s) s
  | 6 => ofOut (execRemove i s) s
  | 7 => ofOut (execMbSend i s) s
  | 8 => ofOut (execMbAck i s) s
  | _ => ignoredWrite 0x14 (itReg i 0) (v.setWidth 64) (some i) s

def itIrqWrite (i : Nat) (v : W32) (s : State) : State :=
  let x := inst s i
  let n := field v.toNat 0 10
  setInst i { x with irqEn := bit v 31, irqVector := if n ≤ 511 then BitVec.ofNat 10 n else x.irqVector } s

def itWrite (i off : Nat) (v : W32) (s : State) : State :=
  match off with
  | 0x00 => itCmdWrite i v s
  | 0x20 => ofOut (execItShareWrite i v s) s
  | 0x24 => ofOut (execItCeilingWrite i v s) s
  | 0x28 => itIrqWrite i v s
  | _ =>
    if 0x08 ≤ off ∧ off < 0x20 then ofOut (execInstanceConfigWrite i off v s) s
    else if off = 0x3C then noRegister (itReg i off) v s
    else s

/-- Words of the manager's message (R62, R63). -/
def mbOutWrite (i k : Nat) (v : W32) (s : State) : State :=
  let p := page s i
  if mailboxOpen (inst s i) = false ∨ p.inFull then s else setPage i { p with mbIn := Table.set 0 p.mbIn k v } s

/-- IT_ATTNk (R64, R483). -/
def attnWrite (k : Nat) (v : W32) (s : State) : State :=
  let old := wordOf s.attn.toNat k
  let new := w1c (0x110000 + 4 * k) (BitVec.ofNat 64 old) (v.setWidth 64) s
  { s with attn := BitVec.ofNat 512 (withWord s.attn.toNat k (new.setWidth 32)) }

def wrInstance (off : Nat) (v : W32) (s : State) : State :=
  match rowAt 0x100000 0x40 (iidCount s) off, rowAt 0x108000 0x40 (iidCount s) off with
  | some (i, o), _ => itWrite i o v s
  | none, some (i, o) => if o < 0x20 then s else mbOutWrite i (o / 4 - 8) v s
  | none, none => match rowAt 0x110000 4 (iidCount s / 32) off with
    | some (k, _) => attnWrite k v s
    | none => noRegister off v s

/-- IT_PG_MB_CTRL: SEND is ordered before ACK; DROPPED is W1C (R61, R63). -/
def pageMbCtrlWrite (i : Nat) (v : W32) (s : State) : State :=
  let s := if bit v 0 then ofOut (execSend i s) s else s
  let s := if bit v 1 then ofOut (execAck i s) s else s
  if bit v 29 ∧ mailboxOpen (inst s i) then
    let p := page s i
    let keep := w1c (pgReg i 0x20) (if p.dropped then 0x20000000 else 0) 0x20000000 s
    setPage i { p with dropped := bit keep 29 } s
  else s

/-- IT_PG_ABORT_STATUS: OVERRUN is W1C (R70). -/
def abortStatusWrite (i : Nat) (v : W32) (s : State) : State :=
  let p := page s i
  let keep := w1c (pgReg i 0x10) (if p.abortOverrun then 0x40000000 else 0) (v.setWidth 64) s
  setPage i { p with abortOverrun := bit keep 30 } s

/-- A write of an instance page of 4 bytes or, in the inline window, of any aligned length (R46). -/
def wrPage (off : Nat) (v : W32) (s : State) : State :=
  let i := off / 0x1000
  let o := off % 0x1000
  let p := page s i
  if iidPresent s i = false then noRegister off v s
  else match o with
    | 0x000 => ofOut (execSqDoorbell i v s) s
    | 0x004 => ofOut (execCqDoorbell i v s) s
    | 0x008 => setPage i { p with abortTag := BitVec.ofNat 64 (withWord p.abortTag.toNat 0 v) } s
    | 0x00C => ofOut (execAbortStart i v s) s
    | 0x010 => abortStatusWrite i v s
    | 0x014 => s
    | 0x018 => ofOut (execInlineGo i s) s
    | 0x01C => s
    | 0x020 => pageMbCtrlWrite i v s
    | _ =>
      if 0x40 ≤ o ∧ o < 0x60 then
        if mailboxOpen (inst s i) = false ∨ p.outFull then s
        else setPage i { p with mbOut := Table.set 0 p.mbOut (o / 4 - 16) v } s
      else if 0x60 ≤ o ∧ o < 0x80 then s
      else if 0x100 ≤ o ∧ o < 0x200 then pageInlineWrite i o (bytesOf v.toNat 4) s
      else noRegister off v s

/-! ### Usher and key store -/

def wrUsher (off : Nat) (v : W32) (s : State) : State :=
  match off with
  | 0x200000 =>
    let s := { s with ush := { s.ush with age := BitVec.ofNat 4 (field v.toNat 4 4) } }
    if bit v 0 then ofOut (execEpochNow s) s else s
  | 0x200004 => s
  | 0x200008 => { s with ush := { s.ush with horizon := BitVec.ofNat 16 (max 100 (v.toNat % 65536)) } }
  | 0x20000C => { s with ush := { s.ush with deferTh := v.setWidth 24 } }
  | 0x200010 => { s with ush := { s.ush with cache := BitVec.ofNat 6 (min 48 (v.toNat % 64)) } }
  | 0x200014 => { s with ush := { s.ush with
      spreadUs := BitVec.ofNat 16 (v.toNat / 65536)
      initRings := BitVec.ofNat 4 (max 1 (v.toNat % 16)) } }
  | 0x200018 => s
  | 0x20001C => s
  | 0x200060 => s
  | _ =>
    match rowAt 0x200040 4 8 off, rowAt 0x201000 0x10 (iidCount s) off with
    | none, none => noRegister off v s
    | _, _ => s

/-- KS_CER_CTRL: N, RSTEP and HC, then CMD (R313). -/
def cerCtrlWrite (v : W32) (s : State) : State :=
  let s := setCer { s.ks.cer with
    n := BitVec.ofNat 4 (field v.toNat 24 4), rstep := BitVec.ofNat 4 (field v.toNat 20 4), hc := bit v 16 } s
  match v.toNat % 16 with
  | 1 => cerOpen s
  | 2 => cerComponent s
  | 3 => cerClose s
  | 4 => cerCancel s
  | 5 => cerResume s
  | _ => s

def ksQuotaWrite (i : Nat) (v : W32) (s : State) : State :=
  setKsInst i { ksInst s i with
    quotaEntries := BitVec.ofNat 16 (min 32768 (v.toNat / 65536))
    quotaKib := BitVec.ofNat 14 (min 12288 (v.toNat % 16384)) } s

def wrKeyStore (off : Nat) (v : W32) (s : State) : State :=
  let c := s.ks.cer
  match off with
  | 0x300000 => s
  | 0x300004 => s
  | 0x300008 => { s with ks := { s.ks with timeBound := v } }
  | 0x30000C => s
  | 0x300100 => cerCtrlWrite v s
  | 0x300104 => s
  | 0x300108 => setCer { c with target := v } s
  | 0x30010C => setCer { c with attr := BitVec.ofNat 64 (withWord c.attr.toNat 0 v) } s
  | 0x300110 => setCer { c with attr := BitVec.ofNat 64 (withWord c.attr.toNat 1 v) } s
  | 0x300114 => s
  | 0x300118 => setCer { c with resume := v } s
  | _ => match rowAt 0x301000 0x20 (iidCount s) off with
    | none => noRegister off v s
    | some (i, o) =>
      if o < 0x10 then domainWrite i (o / 4) v s
      else if o = 0x10 then ksQuotaWrite i v s
      else if o = 0x1C then noRegister off v s
      else s

/-! ### Fault collector -/

def fcCtrlWrite (v : W32) (s : State) : State :=
  let s := { s with fc := { s.fc with irqEn := bit v 30, irqClass := BitVec.ofNat 3 (field v.toNat 27 3), logF0 := bit v 26 } }
  if bit v 31 then snetWrite (v.setWidth 64) s else s

def fcInjWrite (v : W32) (s : State) : State :=
  let s := { s with fc := { s.fc with
    injAct := bit v 30, injClass := BitVec.ofNat 3 (field v.toNat 27 3), injCause := BitVec.ofNat 8 (field v.toNat 16 8)
    injSource := BitVec.ofNat 6 (field v.toNat 8 6) } }
  if bit v 31 then ofOut (execFaultInject s) s else s

def wrCollector (off : Nat) (v : W32) (s : State) : State :=
  match off with
  | 0x400000 => fcCtrlWrite v s
  | 0x400008 => ofOut (execFcModeWrite v s) s
  | 0x400010 => ofOut (execFcStickyClear 0 v s) s
  | 0x400014 => ofOut (execFcStickyClear 1 v s) s
  | 0x400080 =>
    let s := if bit v 31 then ofOut (execPop s) s else s
    if bit v 30 then ofOut (execClear s) s else s
  | 0x400180 => if bit v 31 then ofOut (execFcRetire (v.setWidth 16) s) s else s
  | 0x400184 => { s with fc := { s.fc with retireWindow := BitVec.ofNat 16 (v.toNat / 65536), retireCount := v.setWidth 8 } }
  | 0x4001C0 => fcInjWrite v s
  | 0x4001C4 => { s with fc := { s.fc with injUnit := v.setWidth 16 } }
  | _ =>
    if off = 0x400004 ∨ (0x400040 ≤ off ∧ off < 0x400080) ∨ (0x4000C0 ≤ off ∧ off < 0x400108) ∨ (0x400140 ≤ off ∧ off < 0x400158)
        ∨ off = 0x4001E0 ∨ (0x400200 ≤ off ∧ off < 0x400244) then s
    else if 0x440000 ≤ off ∧ off < 0x480000 then ignoredWrite 0x1F off (v.setWidth 64) none s
    else noRegister off v s

/-! ### Ringmaster and clocks -/

/-- FIRE and PERIOD go to staging (R365); FIRE of entry 0 cannot be written. -/
def schedWrite (k o : Nat) (v : W32) (s : State) : State :=
  let x := sched s k
  let put (old : W64) (j : Nat) : W64 := BitVec.ofNat 64 (withWord old.toNat j v)
  match o with
  | 0x00 => if k = 0 then s else setSched k { x with fireStaged := put x.fireStaged 0 } s
  | 0x04 => if k = 0 then s else setSched k { x with fireStaged := put x.fireStaged 1 } s
  | 0x08 => setSched k { x with periodStaged := put x.periodStaged 0 } s
  | 0x0C => setSched k { x with periodStaged := put x.periodStaged 1 } s
  | 0x10 => schedCtrlWrite k v s
  | 0x14 => s
  | _ => noRegister (schedReg k o) v s

def clkCtrlWrite (v : W32) (s : State) : State :=
  trimTrack (trimMode s) { s with clk := { s.clk with
    gateDis := bit v 31, trim := BitVec.ofNat 2 (field v.toNat 8 2), retry := v.setWidth 4 } }

def wrClocks (off : Nat) (v : W32) (s : State) : State :=
  match off with
  | 0x508000 => clkCtrlWrite v s
  | 0x508008 => tioTrimWrite v s
  | 0x50801C => clkRecoverWrite v s
  | _ => if off = 0x508004 ∨ (0x50800C ≤ off ∧ off < 0x508024) then s else noRegister off v s

/-- The servo's registers: accepted from a management core while SRC is 1, and RM_UNC_BASE from the manager while SRC is 0
(R362). -/
def servoWrite (who : Who) (off : Nat) (v : W32) (s : State) : State :=
  let firmware := decide (who = .mgmt ∧ s.rm.src = 1)
  if firmware = false ∧ !(off == 0x500024 && who == .host && s.rm.src == 0) then ignoredWrite 0x16 off (v.setWidth 64) none s
  else match off with
    | 0x500014 => writeFreq v.toInt s
    | 0x500018 => { s with rm := { s.rm with adj := BitVec.ofNat 64 (withWord s.rm.adj.toNat 0 v) } }
    | 0x50001C => { s with rm := { s.rm with adj := BitVec.ofNat 64 (withWord s.rm.adj.toNat 1 v) } }
    | 0x500020 => if bit v 0 then ofOut (execApply s) s else s
    | _ => { s with rm := { s.rm with uncBase := v } }

def wrRingmaster (who : Who) (off : Nat) (v : W32) (s : State) : State :=
  let r := s.rm
  match off with
  | 0x500000 => rmCtrlWrite v s
  | 0x500004 => s
  | 0x500008 => s
  | 0x50000C => s
  | 0x500010 => s
  | 0x500014 => servoWrite who off v s
  | 0x500018 => servoWrite who off v s
  | 0x50001C => servoWrite who off v s
  | 0x500020 => servoWrite who off v s
  | 0x500024 => servoWrite who off v s
  | 0x500028 => { s with rm := { r with holdRate := v } }
  | 0x50002C => { s with rm := { r with stepTh := v } }
  | 0x500030 => { s with rm := { r with ppsLat := v } }
  | 0x500034 => { s with rm := { r with ppsAcc := v } }
  | 0x500038 => { s with rm := { r with setSec := BitVec.ofNat 64 (withWord r.setSec.toNat 0 v) } }
  | 0x50003C => { s with rm := { r with setSec := BitVec.ofNat 64 (withWord r.setSec.toNat 1 v) } }
  | 0x500040 => s
  | _ =>
    match rowAt 0x501000 0x20 256 off, rowAt 0x504000 0x40 256 off with
    | some (k, o), _ => schedWrite k o v s
    | none, some (k, o) => { s with rm := { r with image := Table.set 0 r.image (16 * k + o / 4) v } }
    | none, none => wrClocks off v s

/-! ### Network and Dolid -/

/-- One pair's field of NET_CFG, and whether the write of it is noticed (R314, R317). -/
def pairWrite (s : State) (v : W32) (k : Nat) : Nat × Bool :=
  let old := field s.net.pair.toNat (2 * k) 2
  let new := field v.toNat (2 * k) 2
  if new = 3 ∨ (netPort s (2 * k)).en ∨ (netPort s (2 * k + 1)).en then (old, true) else (new, false)

def netCfgWrite (v : W32) (s : State) : State :=
  let ps := (List.range 4).map (fun k => (k, pairWrite s v k))
  let s' := { s with net := { s.net with pair := BitVec.ofNat 8 ((ps.map (fun p => p.2.1 * 4 ^ p.1)).sum) } }
  if ps.any (fun p => p.2.2) then ignoredWrite 0x12 0x600000 (v.setWidth 64) none s' else s'

/-- The address and format registers of a port, written while EN is 0 (R317, R330). -/
def Port.written (x : Port) (o : Nat) (v : W32) : Port :=
  let ip (a : Ip) (k : Nat) : Ip := BitVec.ofNat 128 (withWord a.toNat (3 - k) v)
  match o with
  | 0x08 => { x with mac := BitVec.ofNat 48 (withWord x.mac.toNat 0 v) }
  | 0x0C => { x with mac := BitVec.ofNat 48 (withWord x.mac.toNat 1 (v &&& 0xFFFF)) }
  | 0x10 => { x with tagged := bit v 31, pcp := BitVec.ofNat 3 (field v.toNat 13 3), vid := v.setWidth 12 }
  | 0x14 => { x with mtu := BitVec.ofNat 14 (max 1280 (min 9000 (v.toNat % 16384))) }
  | 0x18 => { x with
      dscp := BitVec.ofNat 6 (field v.toNat 24 6), hops := BitVec.ofNat 8 (max 1 (field v.toNat 16 8))
      prefix6 := BitVec.ofNat 7 (field v.toNat 8 7), prefix4 := v.setWidth 6 }
  | 0x1C => { x with ip4 := v }
  | 0x20 => { x with gw4 := v }
  | _ => if o < 0x40 then { x with ip6 := ip x.ip6 (o / 4 - 12) } else { x with gw6 := ip x.gw6 (o / 4 - 16) }

def portWrite (p o : Nat) (v : W32) (s : State) : State :=
  let x := netPort s p
  match o with
  | 0x00 => if bit v 31 then ofOut (execPortEnable p v s) s else ofOut (execPortDisable p v s) s
  | 0x04 => s
  | 0x50 => setPort p { x with ptpEn := bit v 31, l2 := bit v 30, udp4 := bit v 29, udp6 := bit v 28, onestep := bit v 27 } s
  | 0x54 => setPort p { x with rxLat := v } s
  | 0x58 => setPort p { x with txLat := v } s
  | _ =>
    if (0x08 ≤ o ∧ o < 0x24) ∨ (0x30 ≤ o ∧ o < 0x50) then
      (if x.en then ignoredWrite 0x12 (netReg p o) (v.setWidth 64) none s else setPort p (x.written o v) s)
    else if (0x60 ≤ o ∧ o < 0x70) ∨ (0x80 ≤ o ∧ o < 0xAC) then s
    else noRegister (netReg p o) v s

/-- The offsets of a port that hold a register (R330). -/
def portHolds (o : Nat) : Bool :=
  o < 0x24 || (0x30 ≤ o && o < 0x5C) || (0x60 ≤ o && o < 0x70) || (0x80 ≤ o && o < 0xAC)

def wrNetwork (off : Nat) (v : W32) (s : State) : State :=
  match off with
  | 0x600000 => netCfgWrite v s
  | 0x600004 => s
  | _ => match rowAt 0x601000 0x200 8 off with
    | some (p, o) => if portPresent s p then portWrite p o v s else if portHolds o then s else noRegister off v s
    | none => noRegister off v s

/-- DOL_CFG: UDP_PORT keeps its value while EN is 1, and against 0, with a notice (R355). -/
def dolCfgWrite (v : W32) (s : State) : State :=
  let d := s.dol
  let ok := decide (d.en = false ∧ v.toNat % 65536 ≠ 0)
  let s := { s with dol := { d with en := bit v 31, udpPort := if ok then v.setWidth 16 else d.udpPort } }
  if ok then s else ignoredWrite 0x11 0x700000 (v.setWidth 64) none s

def dolIWrite (i o : Nat) (v : W32) (s : State) : State :=
  let d := dolInst s i
  let hi : Half := BitVec.ofNat 16 (v.toNat / 65536)
  let burst : Half := BitVec.ofNat 16 (max 1 (v.toNat % 65536))
  match o with
  | 0x00 => setDolInst i { d with
      en := bit v 31, v4 := bit v 30, v6 := bit v 29, maxSess := BitVec.ofNat 13 (min 4096 (v.toNat % 8192)) } s
  | 0x04 => setDolInst i { d with kemValid := bit v 31, kemSlot := v.setWidth 23 } s
  | 0x08 => setDolInst i { d with rateNet := hi, burstNet := burst } s
  | 0x0C => setDolInst i { d with ratePcie := hi, burstPcie := burst } s
  | 0x10 => setDolInst i { d with limit := v.setWidth 12 } s
  | 0x1C => noRegister (dolIReg i o) v s
  | _ => s

def wrDolid (off : Nat) (v : W32) (s : State) : State :=
  let d := s.dol
  let p := d.peerReg
  let peer (q : Peer) : State := { s with dol := { d with peerReg := q } }
  match off with
  | 0x700000 => dolCfgWrite v s
  | 0x700004 => { s with dol := { d with
      idleS := BitVec.ofNat 8 (max 1 (field v.toNat 24 8)), cookieS := BitVec.ofNat 8 (max 1 (field v.toNat 16 8))
      holdMs := v.setWidth 16 } }
  | 0x700008 => s
  | 0x70000C => s
  | 0x700100 => match field v.toNat 30 2 with
    | 1 => peerRead v s
    | 2 => peerWrite v s
    | 3 => peerClear v s
    | _ => { s with dol := { d with peerIdx := v.setWidth 13 } }
  | 0x700104 => peer { p with valid := bit v 31, iid := BitVec.ofNat 9 (field v.toNat 16 9) }
  | 0x700108 => peer { p with id := BitVec.ofNat 64 (withWord p.id.toNat 0 v) }
  | 0x70010C => peer { p with id := BitVec.ofNat 64 (withWord p.id.toNat 1 v) }
  | 0x700110 => peer { p with slot := v.setWidth 23 }
  | _ =>
    if 0x700040 ≤ off ∧ off < 0x700060 then s
    else match rowAt 0x701000 0x20 (iidCount s) off with
      | some (i, o) => dolIWrite i o v s
      | none => noRegister off v s

/-! ### Entropy, hat-check slots -/

/-- RNG_CUTOFF: stricter values only, in MAKER and INTEGRATOR (R428). -/
def cutoffWrite (v : W32) (s : State) : State :=
  if rngWritable s then { s with rng := { s.rng with
    aptC := BitVec.ofNat 16 (min 0x395 (v.toNat / 65536)), rctC := BitVec.ofNat 7 (min 0x51 (v.toNat % 128)) } }
  else ignoredWrite 0x15 0x80001C (v.setWidth 64) none s

def wrEntropy (off : Nat) (v : W32) (s : State) : State :=
  let r := s.rng
  match off with
  | 0x800000 => ofOut (execSrcEnWrite v s) s
  | 0x800004 => s
  | 0x800008 => match v.toNat % 4 with
    | 1 => ofOut (execReseed s) s
    | 2 => ofOut (execReseedBlocking s) s
    | 3 => ofOut (execInstantiate s) s
    | _ => s
  | 0x80000C => { s with rng := { r with holdUs := v.setWidth 24 } }
  | 0x800010 => { s with rng := { r with autoTh := v.setWidth 21 } }
  | 0x800014 => s
  | 0x800018 => s
  | 0x80001C => cutoffWrite v s
  | 0x800400 => if bit v 31 then ofOut (execRawCapture v s) s else { s with rng := { r with rawSrc := v.setWidth 2 } }
  | _ =>
    if 0x800020 ≤ off ∧ off < 0x800040 then { s with rng := { r with pers := Table.set 0 r.pers ((off - 0x800020) / 4) v } }
    else if 0x801000 ≤ off ∧ off < 0x801800 then s
    else match rowAt 0x800100 0x40 4 off with
      | some (_, o) => if o < 0x2C then s else noRegister off v s
      | none => noRegister off v s

def slotWrite (n o : Nat) (v : W32) (s : State) : State :=
  let x := slotOf s n
  match o with
  | 0x00 => setSlot n { x with
      autoAct := bit v 31, classA := bit v 30, classB := bit v 29, clkstopEn := bit v 28
      clkdiv := BitVec.ofNat 9 (max 80 (min 400 (v.toNat % 512))) } s
  | 0x08 => match v.toNat % 16 with
    | 1 => ofOut (execHcActivate n s) s
    | 2 => ofOut (execHcDeactivate n s) s
    | 3 => ofOut (execExchange n s) s
    | 4 => ofOut (execResynch n s) s
    | _ => ignoredWrite 0x17 (hcReg n 8) (v.setWidth 64) none s
  | 0x0C => setSlot n { x with txLen := v.setWidth 9 } s
  | 0x14 => setSlot n { x with busyMax := BitVec.ofNat 16 (v.toNat / 65536), pollUs := v.setWidth 16 } s
  | _ => if o = 0x04 ∨ o = 0x10 ∨ o = 0x18 ∨ (0x40 ≤ o ∧ o < 0x64) then s else noRegister (hcReg n o) v s

/-- A write of the slot's buffer (R411). -/
def slotBufferWrite (n o : Nat) (v : W32) (s : State) : State :=
  let x := slotOf s n
  let off := 0x901000 + 0x400 * n + o
  if x.st = hcExchange ∨ x.st = hcBusy then ignoredWrite 0x17 off (v.setWidth 64) none s
  else if o < 0x105 then
    setSlot n { x with tx := (List.range 4).foldl (fun t j => if o + j < 0x105 then Table.set 0 t (o + j) (byteOf v.toNat j) else t) x.tx } s
  else if 0x200 ≤ o ∧ o < 0x302 then s
  else noRegister off v s

def wrSlots (off : Nat) (v : W32) (s : State) : State :=
  match rowAt 0x900000 0x100 2 off, rowAt 0x901000 0x400 2 off with
  | some (n, o), _ => slotWrite n o v s
  | none, some (n, o) => slotBufferWrite n o v s
  | none, none => noRegister off v s

/-! ### Life cycle and debug, audit -/

def dbgCmdWrite (v : W32) (s : State) : State :=
  match v.toNat % 8 with
  | 1 => dbgChallenge s
  | 2 => dbgVerify s
  | 3 => dbgClose s
  | 4 => dbgHold s
  | 5 => dbgRelease s
  | _ => ignoredWrite 0x18 0xA00100 (v.setWidth 64) none s

def wrLifeCycle (who : Who) (off : Nat) (v : W32) (s : State) : State :=
  let l := s.lcs
  match off with
  | 0xA00000 => s
  | 0xA00004 =>
    let (vdd, s) := takeVerdict s
    lcsNextWrite (v.toNat % 8) (who == .dap) vdd s
  | 0xA00028 => s
  | 0xA00040 => s
  | 0xA00044 =>
    let (vdd, s) := takeVerdict s
    rootCmdWrite v vdd s
  | 0xA00100 => dbgCmdWrite v s
  | 0xA00104 => s
  | _ =>
    if (0xA00010 ≤ off ∧ off < 0xA00028) ∨ (0xA00030 ≤ off ∧ off < 0xA00040) ∨ (0xA00120 ≤ off ∧ off < 0xA00140) then s
    else if 0xA00060 ≤ off ∧ off < 0xA00080 then
      { s with lcs := { l with rootData := Table.set 0 l.rootData ((off - 0xA00060) / 4) v } }
    else if 0xA04000 ≤ off ∧ off < 0xA06000 then
      { s with lcs := { l with token := writeWin l.token (off - 0xA04000) (bytesOf v.toNat 4) } }
    else noRegister off v s

/-- AUD_RING_BASE: only while RING_LOG2 is 0 (R382). -/
def audBaseWrite (k : Nat) (v : W32) (s : State) : State :=
  if s.aud.ringLog2 ≠ 0 then ignoredWrite 0x10 (0xB00008 + 4 * k) (v.setWidth 64) none s
  else
    let v := if k = 0 then v &&& 0xFFFFF000 else v
    { s with aud := { s.aud with base := BitVec.ofNat 64 (withWord s.aud.base.toNat k v) } }

def wrAudit (off : Nat) (v : W32) (s : State) : State :=
  match off with
  | 0xB00000 => { s with aud := { s.aud with cosign := bit v 31, irq := bit v 30, ringLog2 := v.setWidth 4 } }
  | 0xB00004 => if bit v 0 then ofOut (execSealNow s) s else s
  | 0xB00008 => audBaseWrite 0 v s
  | 0xB0000C => audBaseWrite 1 v s
  | 0xB00014 => ofOut (execAudRingTailWrite v s) s
  | _ =>
    if off = 0xB00010 ∨ off = 0xB00018 ∨ off = 0xB00020 ∨ off = 0xB00024 ∨ (0xB00040 ≤ off ∧ off < 0xB00060) then s
    else match rowAt 0xB01000 4 (iidCount s) off with
      | some _ => s
      | none => noRegister off v s

/-! ### Any offset -/

/-- The load window: bytes as they are; ignored with a notice while a patch load runs (R171). -/
def loadWinWrite (off : Nat) (data : List Byte) (s : State) : State :=
  if s.patch.busy then ignoredWrite 0x14 off (BitVec.ofNat 64 (natOf data)) none s
  else { s with mem := { s.mem with loadWin := writeWin s.mem.loadWin (off - 0x1000000) data } }

/-- The hub block that owns a BAR0 offset, numbered as in R122; its clock gate opens on an access (R385). The load window is counted with
global control. -/
def blockOf (off : Nat) : Nat := if off < 0xC00000 then off / 0x100000 else 0

def wrBar0 (who : Who) (off : Nat) (v : W32) (s : State) : State :=
  match off / 0x100000 with
  | 0 => wrGlobal off v s
  | 1 => wrInstance off v s
  | 2 => wrUsher off v s
  | 3 => wrKeyStore off v s
  | 4 => wrCollector off v s
  | 5 => wrRingmaster who off v s
  | 6 => wrNetwork off v s
  | 7 => wrDolid off v s
  | 8 => wrEntropy off v s
  | 9 => wrSlots off v s
  | 10 => wrLifeCycle who off v s
  | 11 => wrAudit off v s
  | _ => if 0x1000000 ≤ off ∧ off < 0x2000000 then loadWinWrite off (bytesOf v.toNat 4) s else noRegister off v s

/-- A 32-bit write of an aligned offset; ignored in Lockdown and in SCRAPPED (R443, R455). -/
def wrWord (who : Who) (bar off : Nat) (v : W32) (s : State) : State :=
  hostWrite (fun s =>
    if bar = 0 then wrBar0 who off v (openGate (BitVec.ofNat 16 (0x9000 + blockOf off)) s)
    else if bar = 2 then wrPage off v s
    else noRegister off v s) s

/-- What a read of any part of a 32-bit register does: an RC register is cleared whole (R9, R11, R13), RNG_Ss_STAT latches LAG1–8
(R417), and a firmware read of TXTS3 removes the entry (R328). -/
def readEffect (who : Who) (bar off : Nat) (s : State) : State :=
  if readServed bar off s = false ∨ bar ≠ 0 then s
  else
    let s := openGate (BitVec.ofNat 16 (0x9000 + blockOf off)) s
    let s := (List.range 4).foldl (fun s f => rcClear off f s) s
    match rowAt 0x800100 0x40 4 off, rowAt 0x601000 0x200 8 off with
    | some (k, 0), _ => ofOut (execRngStatRead k s) s
    | none, some (p, 0x6C) => if who = .mgmt ∧ portPresent s p then ofOut (execTxtsPop p s) s else s
    | _, _ => s

end Sys2Proof.Machine
end

