-- ==== Sys2Proof/Machine/Bus.lean ====
section
/-!
DEFINITION. Accesses of the host to BAR0 and BAR2 (R9, R11, R12, R41, R46), built from the 32-bit reads and writes of the register
files.
-/
namespace Sys2Proof.Machine

open Sys2Proof

/-- A naturally aligned access of n bytes, n a power of two from lo to hi. -/
def aligned (n lo hi off : Nat) : Bool := lo ≤ n && n ≤ hi && n == 2 ^ n.log2 && off % n == 0

/-- The access lies in the inline window of a page (R46). -/
def inWindow (bar off n : Nat) : Bool := bar == 2 && 0x100 ≤ off % 0x1000 && off % 0x1000 + n ≤ 0x200

/-- A write of 32 or 64 bits, low word first; the two words fall in one hub cycle (R11). -/
def busWrite (who : Who) (bar off : Nat) (data : List Byte) (s : State) : State :=
  let n := natOf data
  let s := wrWord who bar off (BitVec.ofNat 32 n) s
  if data.length = 8 then wrWord who bar (off + 4) (BitVec.ofNat 32 (n / 2 ^ 32)) s else s

/-- A read of 1, 2, 4 or 8 aligned bytes: the value, then what the read does to the registers it touches (R11). -/
def busRead (who : Who) (bar off n : Nat) (s : State) : W64 × State :=
  let base := off / 4 * 4
  let lo := (rdWord bar base s).toNat
  if n = 8 then
    (BitVec.ofNat 64 (lo + (rdWord bar (off + 4) s).toNat * 2 ^ 32), readEffect who bar (off + 4) (readEffect who bar off s))
  else (BitVec.ofNat 64 (field lo (8 * (off % 4)) (8 * n)), readEffect who bar base s)

/-! ### Configuration space (R38, R41, R60)

The spec names the capabilities and some of their fields, not their layout: the registers stand as the PCI Express base specification has
them, reached as bar 8 (the PCI Express capability), 9 (Power Management) and 10 (AER), by their offsets in the capability (PRESUMED,
assumption 101). -/

def cfgWrite (bar off : Nat) (v : W32) (s : State) : State :=
  match bar, off with
  -- Device Control, Link Control, Device Control 2
  | 8, 0x08 => { s with pcie := { s.pcie with maxPayload := BitVec.ofNat 3 (field v.toNat 5 3), maxRead := BitVec.ofNat 3 (field v.toNat 12 3) } }
  | 8, 0x10 => { s with pcie := { s.pcie with aspm := v.setWidth 2 } }
  | 8, 0x28 => { s with pcie := { s.pcie with timeoutValue := v.setWidth 4 } }
  -- PMCSR: PowerState
  | 9, 0x04 => if v.toNat % 4 = 3 then ofOut (execD3hotEnter s) s else if v.toNat % 4 = 0 then ofOut (execD0Return s) s else s
  -- Uncorrectable Error Status (W1C), Advanced Error Capabilities and Control
  | 10, 0x04 => { s with pcie := { s.pcie with
      aerTimeout := s.pcie.aerTimeout && !bit v 14, aerUnsupported := s.pcie.aerUnsupported && !bit v 20 } }
  | 10, 0x18 => { s with pcie := { s.pcie with ecrcGen := bit v 6, ecrcCheck := bit v 8 } }
  | _, _ => s

def cfgRead (bar off : Nat) (s : State) : Nat :=
  let p := s.pcie
  match bar, off with
  | 8, 0x08 => pack [(p.maxRead.toNat, 12), (p.maxPayload.toNat, 5)]
  | 8, 0x10 => p.aspm.toNat
  | 8, 0x28 => p.timeoutValue.toNat
  -- No_Soft_Reset is 1 (R41)
  | 9, 0x04 => pack [(1, 3), (if p.d3hot then 3 else 0, 0)]
  | 10, 0x04 => pack [(b2n p.aerUnsupported, 20), (b2n p.aerTimeout, 14)]
  | 10, 0x18 => pack [(b2n p.ecrcCheck, 8), (b2n p.ecrcGen, 6)]
  | _, _ => 0

/-- A BAR access in D3hot: an Unsupported Request, which AER reports (R41). -/
def unsupported (s : State) : State := { s with pcie := { s.pcie with aerUnsupported := true } }

/-- REGISTER_WRITE. In D3hot the request is an Unsupported Request, and under a reset of the function it is not taken (R41, R468). A write narrower than 32 bits, and
one of a form that R11 and R46 do not name, is ignored with an F0 Notice (assumption 30). -/
def execRegisterWrite (bar off : Nat) (data : List Byte) (s : State) : Out :=
  .next (
    if s.pcie.inReset then s
    else if 8 ≤ bar then cfgWrite bar off (BitVec.ofNat 32 (natOf (data.take 4))) s
    else if s.pcie.d3hot then unsupported s
    else if inWindow bar off data.length ∧ aligned data.length 4 256 off then
      hostWrite (fun s =>
        if iidPresent s (off / 0x1000) then pageInlineWrite (off / 0x1000) (off % 0x1000) data s
        else noRegister off (BitVec.ofNat 32 (natOf data)) s) s
    else if aligned data.length 4 8 off then busWrite .host bar off data s
    else hostWrite (ignoredWrite 0x13 off (BitVec.ofNat 64 (natOf data)) none) s)

/-- RC_REGISTER_READ: the value goes to the reader (assumption 3). A read that is not naturally aligned, or longer than 64 bits, returns a
free value and clears nothing (assumption 30). -/
def execRcRegisterRead (bar off bytes : Nat) (s : State) : Out :=
  .next (
    if s.pcie.inReset then s
    else if 8 ≤ bar then { s with pcie := { s.pcie with readData := BitVec.ofNat 64 (cfgRead bar off s) } }
    else if s.pcie.d3hot then unsupported s
    else if aligned bytes 1 8 off then
      let (v, s) := busRead .host bar off bytes s
      { s with pcie := { s.pcie with readData := v } }
    else
      let (n, s) := nextFresh s
      { s with pcie := { s.pcie with readData := Config.freeBits 64 n } })

end Sys2Proof.Machine
end

