-- ==== Sys2Proof/Machine/Maelhoavo.lean ====
section
/-!
DEFINITION. The Maelhoavo big-number engines: claims (R232–R234), window registers (R235), commands (R236–R239).
-/
namespace Sys2Proof.Machine

open Sys2Proof

/-! ### Scratch and accumulator -/

/-- Tag of the scratch line that holds an offset of the claim. -/
def MeWin.lineTag (w : MeWin) (off : Nat) : Tag := Table.get .pub w.scratchTag (off / 64)

def MeWin.read (w : MeWin) (off n : Nat) : List Byte := readWin w.scratch off n

/-- Join of the tags of the lines that a range touches. -/
def MeWin.tagOver (w : MeWin) (off n : Nat) : Tag := (lineNos off n).foldl (fun t j => t.lineJoin (w.lineTag (64 * j))) .pub

/-- Write bytes into scratch, byte k tagged `tagAt k`. -/
def MeWin.write (w : MeWin) (off : Nat) (b : List Byte) (tagAt : Nat → Tag) : MeWin :=
  { w with
    scratch := writeWin w.scratch off b
    scratchTag := (lineNos off b.length).foldl (fun t j =>
      Table.set .pub t j (lineAfter (w.lineTag (64 * j)) j off b.length tagAt)) w.scratchTag }

/-- NA limbs at an offset, as a number. -/
def MeWin.limbsAt (w : MeWin) (off n : Nat) : Nat := natOf (w.read off (8 * n))

/-- The accumulator as a signed number, and a signed number as an accumulator: whether it wraps (R231). -/
def accInt (l acc : Nat) : Int := signed (64 * l) acc
def accWrap (l : Nat) (x : Int) : Nat × Bool :=
  let a := unsigned (64 * l) x
  (a, accInt l a != x)

def MeWin.setAcc (w : MeWin) (x : Int) : MeWin :=
  let r := accWrap w.limbs x
  { w with acc := r.1, ovf := w.ovf || r.2 }

/-- One row of Montgomery reduction (R236, MROW). -/
def MeWin.mrowStep (w : MeWin) (a m b np : Nat) : MeWin :=
  let w := w.setAcc (accInt w.limbs w.acc + (a * b : Nat))
  let q := w.acc % 2 ^ 64 * np % 2 ^ 64
  let w := w.setAcc (accInt w.limbs w.acc + (m * q : Nat))
  { w with acc := unsigned (64 * w.limbs) (accInt w.limbs w.acc / 2 ^ 64) }

/-! ### Claims (R232, R233) -/

def claimWrite (c k : Nat) (v : W64) (s : State) : WRes :=
  let n := v.toNat
  let pages := field n 0 5
  let acc := field n 8 8
  let w := meWin s c k
  let e := engineOf s (ringOf c) k
  let g := meEng s (ringOf c) e
  if field n 5 3 ≠ 0 ∨ field n 16 48 ≠ 0 ∨ 16 < pages then .exc cAccess 0
  else if pages = 0 then
    if w.held ∧ w.queue ≠ [] then .ok (setMeWin c k { w with releasing := true } s)
    else if w.held ∨ w.pending.isSome then .ok (endClaim c k s)
    else .ok s
  else if w.held ∨ w.pending.isSome ∨ acc < 2 ∨ 130 < acc then .exc cAccess 0
  else
    -- two claims of one cycle: the lower core index goes first (R232)
    let later (q : Nat × Nat) : Bool := (meWin s q.1 q.2).asked == s.time.ticks && (meWin s q.1 q.2).pending.isSome && c < q.1
    let queue := g.queue.takeWhile (fun q => !later q) ++ [(c, k)] ++ g.queue.dropWhile (fun q => !later q)
    .ok (openGate (unitEngine (ringOf c) e)
      (setMeWin c k { w with pending := some (pages, acc), asked := s.time.ticks } (setMeEng (ringOf c) e { g with queue := queue } s)))

/-- ME_CLAIM and ME_RELEASE: a store to ME_CLAIM with PAGES non-zero, or 0. -/
def execMeClaim (c k : Nat) (v : W64) (s : State) : Out :=
  .next (if k < 4 ∧ field v.toNat 0 5 ≠ 0 then windowRow c (claimWrite c k v) s else s)
def execMeRelease (c k : Nat) (v : W64) (s : State) : Out :=
  .next (if k < 4 ∧ field v.toNat 0 5 = 0 then windowRow c (claimWrite c k v) s else s)

/-- ME_CLAIM_GRANT: the claim at the head, once its pages and limbs are free (R232). -/
def claimGrant (r e : Nat) (s : State) : State :=
  let g := meEng s r e
  match g.queue with
  | [] => s
  | (c, k) :: rest =>
    let w := meWin s c k
    match w.pending with
    | none => setMeEng r e { g with queue := rest } s
    | some (pages, limbs) =>
      if g.retired ∨ 16 < g.pagesUsed + pages ∨ 130 < g.limbsUsed + limbs then s
      else
        let s := setMeEng r e { g with queue := rest, pagesUsed := g.pagesUsed + pages, limbsUsed := g.limbsUsed + limbs } s
        raiseEvent c (1 + e) (setMeWin c k { w with
          held := true, pending := none, releasing := false, pages := pages, limbs := limbs, acc := 0, accTag := .pub,
          ovf := false, scratch := [], scratchTag := [], limb := 0, limbTag := .pub, nprime := 0, nprimeTag := .pub } s)

def execMeClaimGrant (r e : Nat) (s : State) : Out := .next (unlessLocked (claimGrant r e) s)

/-- ME_SCRUB_DONE: the oldest released claim's pages and limbs are free (R233); the engine holds that work of the instance no longer
(R65). -/
def execMeScrubDone (r e : Nat) (s : State) : Out :=
  .next (unlessLocked (fun s =>
    let g := meEng s r e
    match g.scrubs with
    | [] => s
    | q :: rest =>
      let s := setMeEng r e { g with scrubs := rest, pagesUsed := g.pagesUsed - q.2.1, limbsUsed := g.limbsUsed - q.2.2.1 } s
      match q.2.2.2 with
      | some i => checkDrained i s
      | none => s) s)

/-! ### The multiplier and the DMA unit (R231, R238) -/

/-- The oldest command of core y of ring r on engine e: its window and itself. Where windows are remapped to one engine, the one that the
core issued first. -/
def meHead (s : State) (r e y : Nat) : Option (Nat × MeCmd) :=
  (List.range 4).foldl (fun (b : Option (Nat × MeCmd)) k =>
    match (meWin s (16 * r + y) k).queue with
    | [] => b
    | q :: _ => if engineOf s r k = e ∧ b.all (fun x => q.order < x.2.order) then some (k, q) else b) none

/-- The free units of engine e take the next commands; a core has one command under way at a time. -/
def meServe (r e : Nat) (s : State) : State :=
  let g := meEng s r e
  let still (n : Nat) : Bool := !(meWin s (16 * r + n / 4) (n % 4)).queue.isEmpty
  let mul := { g.mul with busy := g.mul.busy.filter still }
  let dma := { g.dma with busy := g.dma.busy.filter still }
  let next (u : Nat) (others : List Nat) (y : Nat) : Option Nat :=
    match meHead s r e y with
    | some (k, q) => if meUnit q = u ∧ others.all (fun n => n / 4 != y) then some (4 * y + k) else none
    | none => none
  let mul := mul.serve 1 (next 0 dma.busy) (fun n => n / 4)
  let dma := dma.serve 1 (next 1 mul.busy) (fun n => n / 4)
  if mul = g.mul ∧ dma = g.dma then s else setMeEng r e { g with mul := mul, dma := dma } s

/-- The command at the head of the core's queue on the window executes. -/
def meExecutes (s : State) (c k : Nat) : Bool :=
  let g := meEng s (ringOf c) (engineOf s (ringOf c) k)
  (g.mul.busy ++ g.dma.busy).contains (4 * (c % 16) + k)

/-- Its unit is free again. -/
def meUnitFree (c k : Nat) (s : State) : State :=
  let r := ringOf c
  let e := engineOf s r k
  let g := meEng s r e
  let rid (t : Turn) : Turn := { t with busy := t.busy.filter (fun n => n != 4 * (c % 16) + k) }
  meServe r e (setMeEng r e { g with mul := rid g.mul, dma := rid g.dma } s)

/-! ### Commands (R235–R237) -/

/-- The command that a value and the window's registers make. -/
def meCmdOf (w : MeWin) (v : W64) : MeCmd :=
  let n := v.toNat
  { op := field n 0 4, src := w.src.toNat, dst := w.dst.toNat, len := w.len.toNat, opa := field w.ops.toNat 0 14,
    opb := field w.ops.toNat 16 14, opm := field w.ops.toNat 32 14, na := field n 16 8, nb := field n 24 12, sh := field n 40 8,
    sub := bit v 4, space := field n 8 3, limb := w.limb, limbTag := w.limbTag, nprime := w.nprime, nprimeTag := w.nprimeTag }

/-- Fields in range, unused fields 0, and the limits of R236, for a claim of l limbs. -/
def meLegal (q : MeCmd) (l : Nat) : Bool :=
  let naOk : Bool := 1 ≤ q.na && q.na ≤ 130
  let nbOk : Bool := 1 ≤ q.nb && q.nb ≤ 2048
  let lenOk : Bool := q.len % 8 == 0 && 8 ≤ q.len && q.len ≤ 16384
  let noNum : Bool := q.na == 0 && q.nb == 0 && q.sh == 0 && !q.sub
  match q.op with
  | 1 => noNum && lenOk && q.space ≤ 2
  | 2 => noNum && lenOk && (q.space ≤ 1 || q.space == 3)
  | 3 => noNum && lenOk && q.space == 0 && q.len % 64 == 0 && q.dst % 64 == 0
  | 4 => noNum && q.space == 0
  | 5 => naOk && q.na ≤ l && q.nb == 0 && q.sh == 0 && !q.sub && q.space == 0
  | 6 => naOk && q.sh + q.na ≤ l && q.nb == 0 && !q.sub && q.space == 0
  | 7 => q.na == 0 && q.nb == 0 && 1 ≤ q.sh && q.sh < l && !q.sub && q.space == 0
  | 8 => naOk && nbOk && q.sh + q.na + q.nb ≤ l && q.space == 0
  | 9 => naOk && q.nb == 0 && q.sh + q.na + 1 ≤ l && q.space == 0
  | 10 => naOk && nbOk && q.na + 2 ≤ l && q.na ≤ 128 && q.nb ≤ 128 && q.sh == 0 && !q.sub && q.space == 0
  | _ => false

/-- Scratch ranges of a command, as (offset, bytes). -/
def meRanges (q : MeCmd) : List (Nat × Nat) :=
  match q.op with
  | 1 | 3 => [(q.dst, q.len)]
  | 2 => [(q.src, q.len)]
  | 5 => [(q.opa, 8 * q.na)]
  | 6 => [(q.dst, 8 * q.na)]
  | 8 => [(q.opa, 8 * q.na), (q.opb, 8 * q.nb)]
  | 9 => [(q.opa, 8 * q.na)]
  | 10 => [(q.opa, 8 * q.na), (q.opb, 8 * q.nb), (q.opm, 8 * q.na)]
  | _ => []

/-- A store to ME_CMD (R237). -/
def meCommand (c k : Nat) (v : W64) (s : State) : WRes :=
  let w := meWin s c k
  let q := meCmdOf w v
  let n := v.toNat
  if q.op = 1 ∧ q.space ≤ 1 ∧ q.len ≤ 16384 ∧ shareRange s c q.src q.len then .exc cTagged 0
  else if w.held = false ∨ field n 5 3 ≠ 0 ∨ field n 11 5 ≠ 0 ∨ field n 36 4 ≠ 0 ∨ field n 48 16 ≠ 0 ∨ meLegal q w.limbs = false then
    .exc cAccess 0
  else
    match (meRanges q).find? (fun r => r.1 % 8 != 0 || 1024 * w.pages < r.1 + r.2) with
    | some r => .exc cAccess (BitVec.ofNat 64 r.1)
    | none =>
      match ticketOn s c with
      | none => .ok s
      | some t =>
        let outside :=
          if q.op = 1 then spaceFails s c t q.space q.src q.len false
          else if q.op = 2 then spaceFails s c t q.space q.dst q.len true
          else none
        match outside with
        | some a => .exc cAccess a
        | none =>
          if 4 ≤ w.queue.length then .stall
          else
            let r := ringOf c
            let toHost := decide (q.op = 2 ∧ q.space = 3)
            let fromHost := decide (q.op = 1 ∧ q.space = 2)
            let q := { q with order := (core s c).instret, since := s.time.ticks, unsent := s.pcie.d3hot, xfers := if q.op = 1 ∨ q.op = 2 then xferIds s q.len else [] }
            let data := if q.op = 2 then w.read q.src q.len
              else if fromHost then (inputBytes t q.src q.len none).getD []
              else match rangePlace s c q.src q.len false with
                | .ok p => readBytes (seenBeside s c) p q.len
                | .error _ => []
            let s := meServe r (engineOf s r k) (setMeWin c k { w with queue := w.queue ++ [q] } s)
            let s := openGate (unitEngine r (engineOf s r k)) s
            .ok (if fromHost then beginXfer hubStop r q.len (some t.id) data (askInput t q.src q.len s)
              else if toHost then beginXfer r hubStop q.len (some t.id) data s
              else if q.op = 1 ∨ q.op = 2 then beginXfer r r q.len (some t.id) data s
              else s)

/-- A store to a register of the window (R235). -/
def meWrite (c k off : Nat) (v : W64) (t : Tag) (s : State) : WRes :=
  let w := meWin s c k
  let bad : WRes := .exc cAccess (BitVec.ofNat 64 (0x8000000 + 0x10000 * k + off))
  let takes : Bool := off == 0x20 || off == 0x28 || (0x4000 ≤ off && off < 0x8000)
  if t.isShare ∨ (t ≠ .pub ∧ takes = false) then .exc cTagged 0
  else
    match off with
    | 0x00 => .ok (setMeWin c k { w with src := v } s)
    | 0x08 => .ok (setMeWin c k { w with dst := v } s)
    | 0x10 => .ok (setMeWin c k { w with len := v } s)
    | 0x18 => .ok (setMeWin c k { w with ops := v &&& 0x3FFF3FFF3FFF } s)
    | 0x20 => .ok (setMeWin c k { w with limb := v, limbTag := t } s)
    | 0x28 => .ok (setMeWin c k { w with nprime := v, nprimeTag := t } s)
    | 0x30 => meCommand c k v s
    | 0x38 | 0x40 => .ok s
    | 0x48 => claimWrite c k v s
    | _ =>
      if 0x4000 ≤ off ∧ off < 0x4000 + 1024 * w.pages then
        .ok (setMeWin c k (w.write (off - 0x4000) (bytesOf v.toNat 8) (fun _ => t)) s)
      else bad

/-- ME_STAT and ME_FLAGS as read. -/
def meStat (s : State) (c k : Nat) : Nat :=
  let w := meWin s c k
  pack [(w.done % 2 ^ 32, 32), (w.queue.length, 16), (w.pages, 8), (engineOf s (ringOf c) k, 4), (b2n w.pending.isSome, 1), (b2n w.held, 0)]
/-- Without a claim there is no accumulator, and the register holds its reset value. -/
def MeWin.flags (w : MeWin) : Nat :=
  if w.held then pack [(b2n (decide (accInt w.limbs w.acc < 0)), 2), (b2n (w.acc == 0), 1), (b2n w.ovf, 0)] else 0

/-- A load from the window, with its tag. -/
def meRead (c k off : Nat) (s : State) : Option (W64 × Tag) :=
  let w := meWin s c k
  match off with
  | 0x00 => some (w.src, .pub)
  | 0x08 => some (w.dst, .pub)
  | 0x10 => some (w.len, .pub)
  | 0x18 => some (w.ops, .pub)
  | 0x20 => some (w.limb, w.limbTag)
  | 0x28 => some (w.nprime, w.nprimeTag)
  | 0x30 | 0x48 => some (0, .pub)
  | 0x38 => some (BitVec.ofNat 64 (meStat s c k), .pub)
  | 0x40 => some (BitVec.ofNat 64 w.flags, w.accTag)
  | _ =>
    if 0x4000 ≤ off ∧ off < 0x4000 + 1024 * w.pages then
      some (BitVec.ofNat 64 (natOf (w.read (off - 0x4000) 8)), w.lineTag (off - 0x4000))
    else none

/-- The row of one OP. -/
def meRow (op c k : Nat) (v : W64) (s : State) : State :=
  if k < 4 ∧ field v.toNat 0 4 = op then windowRow c (meCommand c k v) s else s

def execMeLoad (c k : Nat) (v : W64) (s : State) : Out := .next (meRow 1 c k v s)
def execMeStore (c k : Nat) (v : W64) (s : State) : Out := .next (meRow 2 c k v s)
def execMeZero (c k : Nat) (v : W64) (s : State) : Out := .next (meRow 3 c k v s)
def execAclr (c k : Nat) (v : W64) (s : State) : Out := .next (meRow 4 c k v s)
def execAload (c k : Nat) (v : W64) (s : State) : Out := .next (meRow 5 c k v s)
def execAstore (c k : Nat) (v : W64) (s : State) : Out := .next (meRow 6 c k v s)
def execAshr (c k : Nat) (v : W64) (s : State) : Out := .next (meRow 7 c k v s)
def execMeMac (c k : Nat) (v : W64) (s : State) : Out := .next (meRow 8 c k v s)
def execMacl (c k : Nat) (v : W64) (s : State) : Out := .next (meRow 9 c k v s)
def execMrow (c k : Nat) (v : W64) (s : State) : Out := .next (meRow 10 c k v s)

/-! ### Completion (R236, R238, R239) -/

/-- The arithmetic commands and ZERO, on the claim. -/
def meCompute (q : MeCmd) (w : MeWin) : MeWin :=
  let a := w.limbsAt q.opa q.na
  let tA := w.tagOver q.opa (8 * q.na)
  let tB := w.tagOver q.opb (8 * q.nb)
  let sgn (x : Nat) : Int := if q.sub then -(x : Int) else x
  match q.op with
  | 3 => w.write q.dst (List.replicate q.len 0) (fun _ => .pub)
  | 4 => { w with acc := 0, accTag := .pub, ovf := false }
  | 5 => { w with acc := a, accTag := tA.plain, ovf := false }
  | 6 => w.write q.dst (bytesOf (w.acc / 2 ^ (64 * q.sh)) (8 * q.na)) (fun _ => w.accTag)
  | 7 => { w with acc := unsigned (64 * w.limbs) (accInt w.limbs w.acc / 2 ^ (64 * q.sh)) }
  | 8 =>
    { w.setAcc (accInt w.limbs w.acc + sgn (a * w.limbsAt q.opb q.nb * 2 ^ (64 * q.sh))) with
      accTag := ((w.accTag.lineJoin tA).lineJoin tB).plain }
  | 9 =>
    { w.setAcc (accInt w.limbs w.acc + sgn (a * q.limb.toNat * 2 ^ (64 * q.sh))) with
      accTag := ((w.accTag.lineJoin tA).lineJoin q.limbTag).plain }
  | 10 =>
    let m := w.limbsAt q.opm q.na
    let w' := (List.range q.nb).foldl (fun (x : MeWin) j => x.mrowStep a m (w.limbsAt (q.opb + 8 * j) 1) q.nprime.toNat) w
    { w' with accTag := ((((w.accTag.lineJoin tA).lineJoin tB).lineJoin (w.tagOver q.opm (8 * q.na))).lineJoin q.nprimeTag).plain }
  | _ => w

/-- The unit that asks the Glove for a window's host writes. -/
def meWho (c k : Nat) : Nat := 1024 * (k + 1) + c

/-- The command at the head is performed; none while host data or the Glove's bucket is awaited. A refused STORE ends the act. -/
def mePerform (c k : Nat) (q : MeCmd) (s : State) : Option State :=
  let w := meWin s c k
  match q.op, ticketOn s c with
  | 1, some t =>
    if q.space = 2 then
      (inputBytes t q.src q.len q.data).map (fun b => setMeWin c k (w.write q.dst b (fun _ => .pub)) (keepInput t.id q.src b s))
    else
      match rangePlace s c q.src q.len false with
      | .ok p => some (setMeWin c k (w.write q.dst (readBytes (seenBeside s c) p q.len)
          (fun j => lineTag (seenBeside s c) (p.add j))) s)
      | .error _ => some s
  | 2, some t =>
    let b := w.read q.src q.len
    if q.space = 3 then
      if w.tagOver q.src q.len ≠ .pub then some (egressBlocked c (t.outIova + BitVec.ofNat 64 q.dst) s)
      else
        let r := outputBytes t (meWho c k) q.dst b s
        if r.1 then some r.2 else none
    else
      match rangePlace s c q.dst q.len true with
      | .ok p => some (bankWriteBy (enginePort (engineOf s (ringOf c) k)) p b (fun j => w.lineTag (q.src + j)) (dropOld c p b.length s))
      | .error _ => some s
  | _, _ => some (setMeWin c k (meCompute q w) s)

/-- A STORE that the bucket holds stays in order behind it (R353). -/
def meHeld (c k : Nat) (q : MeCmd) (s : State) : State :=
  match ticketOn s c with
  | some t => if q.op = 2 ∧ q.space = 3 then (outputBytes t (meWho c k) q.dst ((meWin s c k).read q.src q.len) s).2 else s
  | none => s

/-- ME_CMD_DONE: the command that a unit executes for the core on the window completes, once its transfers are done (R23); a release
that waited for the last one takes effect. -/
def meCmdDone (c k : Nat) (s : State) : State :=
  let s := meServe (ringOf c) (engineOf s (ringOf c) k) s
  match (meWin s c k).queue with
  | [] => s
  | q :: rest =>
    if meExecutes s c k = false ∨ xfersDone s q.xfers = false then s
    else
      match mePerform c k q s with
      | none => meHeld c k q s
      | some s =>
        let w := meWin s c k
        let s := meUnitFree c k (setMeWin c k { w with queue := rest, done := w.done + 1 } s)
        let s := raiseEvent c (1 + engineOf s (ringOf c) k) s
        if w.releasing ∧ rest = [] then endClaim c k s else s

def execMeCmdDone (c k : Nat) (s : State) : Out := .next (unlessLocked (fun s => if k < 4 then meCmdDone c k s else s) s)

end Sys2Proof.Machine
end

