-- ==== Sys2Proof/Machine/Transfers.lean ====
section
/-!
DEFINITION. The DMA channel of a core (R115, R116) and the end of the host reads it and the engines make (R59, R60).
-/
namespace Sys2Proof.Machine

open Sys2Proof

def dma (s : State) (c : Nat) : Dma := (corex s c).dma
def setDma (c : Nat) (d : Dma) (s : State) : State := setCorex c { corex s c with dma := d } s

/-- One transfer of the channel is done (R116, R117). -/
def dmaCount (c : Nat) (s : State) : State := raiseEvent c 0 (setDma c { dma s c with done := (dma s c).done + 1 } s)

/-- The bytes of a transfer's source with their tags, once they are at hand. -/
def dmaSource (s : State) (c : Nat) (t : Ticket) (x : DmaXfer) : Option (List Byte × (Nat → Tag)) :=
  if x.srcSpace = 2 then (inputBytes t x.src.toNat x.len x.data).map (fun b => (b, fun _ => .pub))
  else
    match rangePlace s c x.src.toNat x.len false with
    | .ok p => some (readBytes (seenBeside s c) p x.len, fun k => lineTag (seenBeside s c) (p.add k))
    | .error _ => some ([], fun _ => .pub)

/-- A store to DMA_CTRL (R116). The ring's DMA agent moves local and ring memory over the crossbar, host data over the Carousel (R18, R23).
A DMA_LEN above 4 MiB, which the register's table does not list and no rule refuses, is performed as it stands; the ACCESS of a space value
outside the table has TRAPVAL 0, since there is no failing address (both DESIGN CHOICE, assumption 103). -/
def dmaCommand (c : Nat) (v : W64) (s : State) : WRes :=
  let d := dma s c
  let n := v.toNat
  let x : DmaXfer := { srcSpace := field n 0 3, dstSpace := field n 4 3, src := d.src, dst := d.dst, len := d.len.toNat }
  match ticketOn s c with
  | none => .ok s
  | some t =>
    if 2 < x.srcSpace ∨ (x.dstSpace ≠ 0 ∧ x.dstSpace ≠ 1 ∧ x.dstSpace ≠ 3) then .exc cAccess 0
    else
      let fails (space a : Nat) (write : Bool) : Option W64 :=
        if space ≤ 1 ∧ x.len = 0 then none else spaceFails s c t space a x.len write
      match fails x.srcSpace x.src.toNat false, fails x.dstSpace x.dst.toNat true with
      | some a, _ => .exc cAccess a
      | none, some a => .exc cAccess a
      | none, none =>
        if x.len = 0 then .ok (dmaCount c s)
        else if 4 ≤ d.queue.length then .stall
        else
          let r := ringOf c
          let id := s.fabric.nextXfer
          let both := decide (x.srcSpace = 2 ∧ x.dstSpace = 3)
          let x := { x with since := s.time.ticks, unsent := s.pcie.d3hot, xfers := if both then [id, id + 1] else [id] }
          let s := setDma c { d with queue := d.queue ++ [x] } s
          let data := ((dmaSource s c t x).map (fun b => b.1)).getD []
          let s := if x.srcSpace = 2 then beginXfer hubStop r x.len (some t.id) data (askInput t x.src.toNat x.len s) else s
          .ok (if x.dstSpace = 3 then beginXfer r hubStop x.len (some t.id) data s
            else if x.srcSpace = 2 then s
            else beginXfer r r x.len (some t.id) data s)

/-- A store to a register of the window (R115, R179). -/
def dmaWrite (c off : Nat) (v : W64) (t : Tag) (s : State) : WRes :=
  let d := dma s c
  if t ≠ .pub then .exc cTagged 0
  else
    match off with
    | 0x00 => .ok (setDma c { d with src := v } s)
    | 0x08 => .ok (setDma c { d with dst := v } s)
    | 0x10 => .ok (setDma c { d with len := v } s)
    | 0x18 => dmaCommand c v s
    | 0x20 => .ok s
    | _ => .exc cAccess (BitVec.ofNat 64 (0x8090000 + off))

/-- A load from the window; none where no register lies. -/
def dmaRead (c off : Nat) (s : State) : Option W64 :=
  let d := dma s c
  match off with
  | 0x00 => some d.src
  | 0x08 => some d.dst
  | 0x10 => some d.len
  | 0x18 => some 0
  | 0x20 => some (BitVec.ofNat 64 (pack [(d.done % 2 ^ 32, 32), (d.queue.length, 0)]))
  | _ => none

/-- DMA_START: the store of a value to DMA_CTRL, as a ring core's present instruction. -/
def execDmaStart (c : Nat) (v : W64) (s : State) : Out := .next (windowRow c (dmaCommand c v) s)

/-- The transfer at the head is performed: the new state, and whether it is done. A transfer to the host that is not PUBLIC ends the
act (R116, R352); one that the instance's bucket holds waits (R353). -/
def dmaPerform (c : Nat) (t : Ticket) (x : DmaXfer) (s : State) : State × Bool :=
  match dmaSource s c t x with
  | none => (s, false)
  | some (b, tagAt) =>
    let s := if x.srcSpace = 2 then keepInput t.id x.src.toNat b s else s
    if x.dstSpace = 3 then
      if (List.range b.length).any (fun k => tagAt k != .pub) then (egressBlocked c (t.outIova + x.dst) s, true)
      else
        let r := outputBytes t c x.dst.toNat b s
        (r.2, r.1)
    else
      match rangePlace s c x.dst.toNat x.len true with
      | .ok p => (bankWriteBy dmaPort p b tagAt (dropOld c p b.length s), true)
      | .error _ => (s, true)

/-- DMA_DONE: the oldest transfer of the channel completes, once the destination has its last flit (R23, R116). -/
def execDmaDone (c : Nat) (s : State) : Out :=
  .next (unlessLocked (fun s =>
    match (dma s c).queue, ticketOn s c with
    | x :: rest, some t =>
      if t.phase = .running c ∧ xfersDone s x.xfers then
        let r := dmaPerform c t x s
        if r.2 then dmaCount c (setDma c { dma r.1 c with queue := rest } r.1) else r.1
      else s
    | _, _ => s) s)

/-! ### Host reads end (R59, R60) -/

/-- Replace the first element that p picks by what f makes of it, or drop it. -/
def atFirst {α : Type} (p : α → Bool) (f : α → Option α) : List α → List α
  | [] => []
  | x :: r => if p x then (match f x with
      | some y => y :: r
      | none => r) else x :: atFirst p f r

/-- An input read has failed: INVALID_INPUT with an F0 Notice, or DATA_INTEGRITY as F2 for poisoned data. -/
def inputReadFails (c : Nat) (e : HostEnd) (s : State) : State :=
  match ticketOn s c with
  | none => s
  | some t =>
    let ev : Event := { cls := .f0, source := 0x13, unit := unitCore c, cause := 0x0D, addr := hostIova e,
                        detail0 := BitVec.ofNat 64 (hostDetail e) }
    match e with
    | .poisoned _ => endActFault c stIntegrity { ev with cls := .f2 } s
    | _ => endAct c stInvalid 0 (report (Event.naming ev t) s)

/-- A read of the ticket on core c has ended: good data are kept for its transfer or command; a failed one, or one whose ticket is
being stopped, has no further effect. -/
def inputRead (c : Nat) (window : Option Nat) (e : HostEnd) (data : List Byte) (s : State) : State :=
  match ticketOn s c with
  | none => s
  | some t =>
    let keep : Bool := e == .ok && t.phase == .running c
    match window with
    | none =>
      if (dma s c).queue.any (DmaXfer.awaits t) then
        let kept (x : DmaXfer) : Option DmaXfer := if keep then some { x with data := some data } else none
        let ids := ((dma s c).queue.find? (DmaXfer.awaits t)).toList.flatMap (fun x => x.xfers)
        let s := xferLoaded ids data (setDma c { dma s c with queue := atFirst (DmaXfer.awaits t) kept (dma s c).queue } s)
        if e = .ok then s else inputReadFails c e s
      else s
    | some k =>
      let w := meWin s c k
      if w.queue.any (MeCmd.awaits t) then
        let kept (q : MeCmd) : Option MeCmd := if keep then some { q with data := some data } else none
        let ids := (w.queue.find? (MeCmd.awaits t)).toList.flatMap (fun q => q.xfers)
        let s := xferLoaded ids data (setMeWin c k { w with queue := atFirst (MeCmd.awaits t) kept w.queue } s)
        if e = .ok then s else inputReadFails c e s
      else s

/-- A ticket read that ends well brings its tickets (R51). -/
def readTickets (data : List Byte) : List (BitVec 512) :=
  (List.range (data.length / 64)).map (fun j => BitVec.ofNat 512 (natOf (slice data (64 * j) 64)))

def hostRead (ref : ReadRef) (e : HostEnd) (data : List Byte) (s : State) : State :=
  match ref with
  | .ticketRead i => if e = .ok then ticketsArrive i (readTickets data) s else ticketReadFailed i e s
  | .dma c => inputRead c none e data s
  | .engineLoad c k => inputRead c (some k) e data s

/-- `Time.ticks` at which the read that the reference awaits was issued; none where none is awaited or it waits for D0. -/
def readSince (s : State) (ref : ReadRef) : Option Nat :=
  match ref with
  | .ticketRead i => ((inst s i).reads.head?.filter (fun r => !r.unsent)).map (fun r => r.since)
  | .dma c => (ticketOn s c).bind (fun t => (((dma s c).queue.find? (DmaXfer.awaits t)).filter (fun x => !x.unsent)).map (fun x => x.since))
  | .engineLoad c k => (ticketOn s c).bind (fun t => (((meWin s c k).queue.find? (MeCmd.awaits t)).filter (fun q => !q.unsent)).map (fun q => q.since))

/-- HOST_READ_COMPLETION (R51, R59): the transfer takes one outcome. -/
def execHostReadCompletion (ref : ReadRef) (failed : List HostEnd) (data : List Byte) (s : State) : Out :=
  .next (unlessLocked (fun s => hostRead ref (outcomeOf failed) data (noteTimeouts failed s)) s)

/-- The time after which a request times out, in sixths of a nanosecond, by Completion Timeout Value; a value not supported counts as
0b0000 (R60). -/
def timeoutTicks (v : BitVec 4) : Nat :=
  6 * (match v.toNat with
    | 1 => 90000
    | 2 => 9000000
    | 5 => 50000000
    | 6 => 189000000
    | _ => 40000000)

/-- COMPLETION_TIMEOUT, once the time of R60 has passed since the request was made: AER reports it, and the read ends as R59 and R60 lay
down. -/
def execCompletionTimeout (ref : ReadRef) (late : TimedOut) (s : State) : Out :=
  .next (unlessLocked (fun s =>
    if (readSince s ref).any (fun t => t + timeoutTicks s.pcie.timeoutValue ≤ s.time.ticks) then
      let all := late.failed ++ [.timeout late.iova]
      hostRead ref (outcomeOf all) [] (noteTimeouts all s)
    else s) s)

end Sys2Proof.Machine
end

