-- ==== Sys2Proof/Machine/Csr.lean ====
section
/-!
DEFINITION. Reads of the engine windows (R101) and the control and status registers of a core (R117, R118, R122, R151, R182, R191),
with CSRR, CSRW, CSRS and CSRC.
-/
namespace Sys2Proof.Machine

open Sys2Proof

/-- A load of the 64-bit register, or scratch word, at an offset of window k (R101); none where nothing lies. -/
def windowRead (c k off : Nat) (s : State) : Option (W64 × Tag) :=
  let plain (v : Option W64) : Option (W64 × Tag) := v.map (fun v => (v, .pub))
  if k < 4 then meRead c k off s
  else if k < 6 then plain (heRead c (k - 4) off s)
  else if k < 8 then plain (bcRead c (k - 6) off s)
  else if k = 8 then plain (mrgRead c off s)
  else plain (dmaRead c off s)

/-- The window register takes a tagged value: ME_LIMB, ME_NPRIME and the claimed scratchpad (R179, R235). -/
def windowTakes (k off : Nat) : Bool := k < 4 && (off == 0x20 || off == 0x28 || (0x4000 ≤ off && off < 0x8000))

/-- A store of 64 bits to a window. -/
def windowWrite (c k off : Nat) (v : W64) (t : Tag) (s : State) : WRes :=
  if t ≠ .pub ∧ windowTakes k off = false then .exc cTagged 0
  else if k < 4 then meWrite c k off v t s
  else if k < 6 then heWrite c (k - 4) off v t s
  else if k < 8 then bcWrite c (k - 6) off v t s
  else if k = 8 then .exc cAccess (BitVec.ofNat 64 (0x8080000 + off))
  else dmaWrite c off v t s

/-! ### Reading a CSR -/

/-- Code of a tag (R174). -/
def Tag.code : Tag → Nat
  | .pub => 0 | .secret => 1 | .share0 => 4 | .share1 => 5 | .share2 => 6 | .cipher => 8 | .pinf => 9 | .pinblk => 10 | .wrapped => 11

/-- Sixteen tags as TAGG and TAGV show them (R182). -/
def tagWord (f : Nat → Tag) (from_ : Nat) : W64 :=
  BitVec.ofNat 64 (pack ((List.range 16).map (fun i => ((f (from_ + i)).code, 4 * i))))

def vfstat (u : VecUnit) : Nat := pack [(u.cause.toNat, 8), (b2n u.multi, 1), (b2n u.pending, 0)]

/-- CTCYCLE (R199). -/
def ctCycle (s : State) (c : Nat) : Nat :=
  let x := core s c
  cycles s c - (x.stalled + (match x.stallFrom with
    | some t => coreNow s c - t
    | none => 0))

/-- A vendor act runs on the core (R191). -/
def vendorOn (s : State) (c : Nat) : Bool := (ticketOn s c).any (fun t => isVendor t.act)

/-- The scalar CSRs of every core (R117, R118). -/
def csrScalar (c n : Nat) (x : Core) (s : State) : Option (W64 × Tag) :=
  let mgmt := decide (c = mgmtCore)
  let ticketWord (k : Nat) : W64 := (ticketOn s c).elim 0 (fun t => BitVec.ofNat 64 (t.num (8 * k) 8))
  let pub (v : W64) : Option (W64 × Tag) := some (v, .pub)
  match n with
  | 0x000 => pub (BitVec.ofNat 64 (if mgmt then 0x8000 else pack [(ringOf c, 8), (c % 16, 0)]))
  | 0x001 => pub (if mgmt then 0x200 else 0x201)
  | 0x002 => pub (BitVec.ofNat 64 (cycles s c))
  | 0x003 => pub (BitVec.ofNat 64 x.instret)
  | 0x004 => pub (nt s)
  | 0x010 => pub (BitVec.ofNat 64 (pack [(b2n (mgmt && s.mgmt.intActive), 3), (b2n x.trap.active, 2), (b2n x.compat, 1), (b2n mgmt, 0)]))
  | 0x019 => pub ((ticketOn s c).elim 0 (fun t => BitVec.ofNat 64 t.iid))
  | 0x020 => pub x.trap.vec
  | 0x021 => pub x.trap.cause
  | 0x022 => pub x.trap.pc
  | 0x023 => pub x.trap.val
  | 0x024 => some (x.trap.scratch, x.trap.scratchTag)
  | 0x030 => pub (x.evMask.setWidth 64)
  | 0x031 => pub (x.evPend.setWidth 64)
  | 0x032 => pub x.timecmp
  | 0x040 => pub (BitVec.ofNat 64 x.wsBase)
  | 0x041 => pub (BitVec.ofNat 64 x.wsSize)
  | _ => if 0x011 ≤ n ∧ n ≤ 0x018 then pub (ticketWord (n - 0x011)) else none

/-- The declassification CSRs (R191); DCL_GO is WO and reads 0. -/
def csrDcl (c n : Nat) (s : State) : Option (W64 × Tag) :=
  let d := dcl s c
  let pub (v : W64) : Option (W64 × Tag) := some (v, .pub)
  match n with
  | 0x210 => pub d.src
  | 0x211 => pub d.dst
  | 0x212 => pub d.len
  | 0x214 => pub 0
  | 0x215 => pub (BitVec.ofNat 64 d.stat)
  | 0x220 => pub (BitVec.ofNat 64 (ctCycle s c))
  | _ => none

/-- Tag of CSR n of a ring core, none where the number is not listed (R117, R151, R182, R191). -/
def csrTag (c n : Nat) (x : Core) (s : State) : Option Tag :=
  if n < 0x100 then (csrScalar c n x s).map (fun v => v.2)
  else if n ≤ 0x103 ∨ (0x200 ≤ n ∧ n ≤ 0x206) then some .pub
  else if vendorOn s c then (csrDcl c n s).map (fun v => v.2)
  else none

/-- The tag that TAGLINE shows, none where a scalar load could not read the address (R182). -/
def tagLine (s : State) (c : Nat) (a : W64) : Option Tag :=
  match actPlace s c a.toNat 1 with
  | .mem p => some (lineTag s p)
  | .readOnly p => some (lineTag s p)
  | .window k off => (windowRead c k (off / 8 * 8) s).map (fun v => v.2)
  | _ => if inside a.toNat 1 0xF000000 0x8000 then csrTag c ((a.toNat - 0xF000000) / 8) (core s c) s else none

/-- The vector fault and tag CSRs of a ring core (R151, R182), none where the number is not listed. -/
def csrVector (c n : Nat) (x : Core) (s : State) : Option (W64 × Tag) :=
  let u := (corex s c).vec
  let pub (v : W64) : Option (W64 × Tag) := some (v, .pub)
  match n with
  | 0x100 => pub (BitVec.ofNat 64 (vfstat u))
  | 0x101 => pub (u.mask.setWidth 64)
  | 0x102 => pub u.faddr
  | 0x103 => pub u.fval
  | 0x200 => pub (tagWord x.tagG 0)
  | 0x201 => pub (tagWord x.tagG 16)
  | 0x202 => pub (tagWord u.tagV 0)
  | 0x203 => pub (tagWord u.tagV 16)
  | 0x204 => pub (BitVec.ofNat 64 (pack ((List.range 8).map (fun k => (b2n (u.tagP k), k)))))
  | 0x205 => pub (dcl s c).tagAddr
  | 0x206 => (tagLine s c (dcl s c).tagAddr).map (fun t => (BitVec.ofNat 64 t.code, Tag.pub))
  | _ => none

/-- The interrupt CSRs of a management core (R122). -/
def csrMgmt (n : Nat) (s : State) : Option (W64 × Tag) :=
  match n with
  | 0x800 => some (s.mgmt.intVec, .pub)
  | 0x801 => some (s.mgmt.intPend, .pub)
  | 0x802 => some (s.mgmt.intMask, .pub)
  | 0x803 => some (s.mgmt.intPc, .pub)
  | _ => none

/-- The value and tag of CSR n, or the exception of reading it: an unlisted number is illegal (R117). -/
def csrRead (c n : Nat) (x : Core) (s : State) : Except (Byte × W64) (W64 × Tag) :=
  let v := if n < 0x100 then csrScalar c n x s
    else if c = mgmtCore then csrMgmt n s
    else if n < 0x210 then csrVector c n x s
    else if vendorOn s c then csrDcl c n s
    else none
  match v with
  | some v => .ok v
  | none => .error (if n = 0x206 ∧ c ≠ mgmtCore then (cAccess, (dcl s c).tagAddr) else (cIllegal, 0))

/-! ### Writing a CSR -/

/-- What CSRW, CSRS and CSRC make of the old value. -/
inductive CsrOp where
  | write | set | clear
  deriving DecidableEq, Repr

def CsrOp.apply (k : CsrOp) (old v : W64) : W64 :=
  match k with
  | .write => v
  | .set => old ||| v
  | .clear => old &&& ~~~v

/-- The new state of an RW register of the core (R117, R122, R182, R191); none where n is not RW. EVMASK is as wide as EVPEND, 10 bits
(DESIGN CHOICE, assumption 107): R117 gives no width. -/
def csrPut (c n : Nat) (v : W64) (t : Tag) (x : Core) (s : State) : Option State :=
  let trap (q : Trap) : Option State := some (setCore c { x with trap := q } s)
  let ring : Bool := c != mgmtCore
  match n with
  | 0x020 => trap { x.trap with vec := v }
  | 0x022 => trap { x.trap with pc := v }
  | 0x024 => trap { x.trap with scratch := v, scratchTag := t }
  | 0x030 => some (setCore c { x with evMask := v.setWidth 10 } s)
  | 0x032 => some (setCore c { x with timecmp := v } s)
  | 0x205 => if ring then some (setDcl c { dcl s c with tagAddr := v } s) else none
  | 0x210 => if ring then some (setDcl c { dcl s c with src := v } s) else none
  | 0x211 => if ring then some (setDcl c { dcl s c with dst := v } s) else none
  | 0x212 => if ring then some (setDcl c { dcl s c with len := v } s) else none
  | 0x800 => if ring then none else some { s with mgmt := { s.mgmt with intVec := v } }
  | 0x802 => if ring then none else some { s with mgmt := { s.mgmt with intMask := v } }
  | 0x803 => if ring then none else some { s with mgmt := { s.mgmt with intPc := v } }
  | _ => none

/-- VFSTAT.CAUSE clears when MULTI and every VFMASK bit are 0 (R151). -/
def VecUnit.causeKept (u : VecUnit) : VecUnit := if u.multi = false ∧ u.mask = 0 then { u with cause := 0 } else u

/-- CSRW to a W1C register: written ones clear, but for bits set in this cycle (R117, R151). -/
def csrClear (c n : Nat) (v : W64) (x : Core) (s : State) : Option State :=
  let y := corex s c
  let u := y.vec
  let vec (u : VecUnit) : Option State := some (setCorex c { y with vec := u.causeKept } s)
  match n with
  | 0x031 => some (setCore c { x with evPend := (w1c (2 ^ 30 + c) (x.evPend.setWidth 64) v s).setWidth 10 } s)
  | 0x100 =>
    if c = mgmtCore then none
    else vec { u with multi := bit (w1c (2 ^ 31 + 2 * c) (if u.multi then 2 else 0) v s) 1 }
  | 0x101 =>
    if c = mgmtCore then none
    else vec { u with mask := (w1c (2 ^ 31 + 2 * c + 1) (u.mask.setWidth 64) v s).setWidth 32 }
  | _ => none

/-- A CSR write by CSRW, CSRS, CSRC or STD. A tagged value may only go to TRAPSCRATCH, a share nowhere (R179), and makes it SECRET
(R178); that the write is illegal comes first (R119). A write to an RO or unlisted number,
and CSRS or CSRC of a register that is not RW, is illegal (R117, assumption 31). -/
def csrWrite (k : CsrOp) (c n : Nat) (v : W64) (t : Tag) (x : Core) (s : State) : IRes :=
  match csrRead c n x s with
  | .error (_, _) => .exc cIllegal 0
  | .ok (old, ot) =>
    let tag := mixTag (if k = .write then [t] else [t, ot])
    let done (r : Option State) : IRes := match r with
      | some s' => if t.isShare ∨ (t ≠ .pub ∧ n ≠ 0x024) then .exc cTagged 0 else .ok s' (x.pc + 4)
      | none => .exc cIllegal 0
    if n = 0x214 ∧ k = .write then (if t ≠ .pub then .exc cTagged 0 else dclGoWrite c v x s)
    else match csrPut c n (k.apply old v) tag x s with
      | some s' => done (some s')
      | none => if k = .write then done (csrClear c n v x s) else .exc cIllegal 0

/-- Number of the CSR: imm bits 11–0, with bits 15–12 zero (R104). -/
def csrNo (w : W32) : Option Nat := if fld w 12 4 = 0 then some (fld w 0 12) else none

/-- A read of VFSTAT, VFMASK, VFADDR or VFVAL waits until the checks of every earlier vector memory instruction are done (R148). -/
def vectorWait (c n : Nat) (s : State) : Bool := decide (0x100 ≤ n ∧ n ≤ 0x103) && decide ((corex s c).vec.checks ≠ [])

def bodyCsrr (c : Nat) (w : W32) (x : Core) (s : State) : IRes :=
  match csrNo w with
  | none => .exc cIllegal 0
  | some n => if vectorWait c n s then .stall false else match csrRead c n x s with
    | .error e => .exc e.1 e.2
    | .ok v => retG c x s (fD w) v.1 v.2

def bodyCsrWrite (k : CsrOp) (c : Nat) (w : W32) (x : Core) (s : State) : IRes :=
  match csrNo w with
  | none => .exc cIllegal 0
  | some n =>
    match csrRead c n x s with
    | .error (_, _) => .exc cIllegal 0
    | .ok _ => csrWrite k c n (x.rg (fA w)) (x.tagG (fA w)) x s

end Sys2Proof.Machine
end

