-- ==== Sys2Proof/Machine/LoadStore.lean ====
section
/-!
DEFINITION. The scalar loads and stores of Ilina 2 (R99, R107–R110, R122), LDM and STM (R129).
-/
namespace Sys2Proof.Machine

open Sys2Proof

/-- How a load ends: value, tag and the state after it; a read of a hub register may change the state (R122). -/
inductive LRes where
  | ok (v : W64) (t : Tag) (s : State)
  | exc (cause : Byte) (val : W64)

/-- The memory range lies in a line tagged as a share (R179). -/
def shareLine (s : State) (c a n : Nat) : Bool :=
  match memPlace s c a n false with
  | .ok p => anyShare s p n
  | .error _ => false

/-- A load of n bytes at an address, zero-extended (R99, R101, R122). Engine windows and CSRs take 64-bit loads only. -/
def loadAt (c : Nat) (a : W64) (n : Nat) (x : Core) (s : State) : LRes :=
  let k := a.toNat
  let mem (p : Place) : LRes := .ok (BitVec.ofNat 64 (natOf (readBytes s p n))) (tagOver s p n) s
  if shareLine s c k n then .exc cTagged 0
  else if k % n ≠ 0 ∧ x.compat = false then .exc cMisaligned a
  else match place s c k n with
    | .mem p => mem p
    | .readOnly p => mem p
    | .window w off =>
      if n ≠ 8 ∨ k % 8 ≠ 0 then .exc cAccess a
      else match windowRead c w off s with
        | some v => .ok v.1 v.2 s
        | none => .exc cAccess a
    | .csr m => match csrRead c m x s with
      | .ok v => .ok v.1 v.2 s
      | .error e => .exc e.1 e.2
    | .rom off => .ok (BitVec.ofNat 64 (natOf ((List.range n).map (fun j => Config.bootRom (off + j))))) .pub s
    | .work off => mem (.work off)
    | .hub off =>
      let r := busRead .mgmt 0 off n s
      .ok r.1 .pub r.2
    | .nowhere => match memPlace s c k n false with
      | .ok p => mem p
      | .error e => .exc cAccess e

/-- A store of the n low bytes of a value (R99, R101, R122, R180). A tag that has no join with a line's is TAGGED_OPERAND (R177). -/
def storeAt (c : Nat) (a : W64) (n : Nat) (v : W64) (t : Tag) (x : Core) (s : State) : IRes :=
  let k := a.toNat
  let bytes := bytesOf v.toNat n
  let next (s : State) : IRes := .ok s (x.pc + 4)
  let mem (p : Place) : IRes := next (coreStore c p bytes t s)
  let untaken : Bool := match place s c k n with
    | .window w off => t != .pub && (t.isShare || !windowTakes w off)
    | .csr _ => false
    | _ => t.isShare || (match memPlace s c k n true with
      | .ok p => (lineTags s p n).any (fun l => (l.join t).isNone)
      | .error _ => false)
  if untaken then .exc cTagged 0
  else if k % n ≠ 0 ∧ x.compat = false then .exc cMisaligned a
  else match place s c k n with
    | .mem p => mem p
    | .readOnly _ => .exc cAccess a
    | .window w off => if n ≠ 8 ∨ k % 8 ≠ 0 then .exc cAccess a else (windowWrite c w off v t s).toIRes x
    | .csr m => csrWrite .write c m v t x s
    | .rom _ => .exc cAccess a
    | .work off => mem (.work off)
    | .hub off =>
      if n < 4 ∨ k % n ≠ 0 then next (ignoredWrite 0x13 off (BitVec.ofNat 64 (natOf bytes)) none s)
      else next (busWrite .mgmt 0 off bytes s)
    | .nowhere => match memPlace s c k n true with
      | .ok p => mem p
      | .error e => .exc cAccess e

/-! ### LDB to LDWU, STB to STD (R104, R108) -/

/-- Bytes of a load by opcode, and whether it sign-extends. -/
def loadForm (op : Nat) : Nat × Bool :=
  match op with
  | 0x10 => (1, true)
  | 0x11 => (2, true)
  | 0x12 => (4, true)
  | 0x13 => (8, false)
  | 0x14 => (1, false)
  | 0x15 => (2, false)
  | _ => (4, false)

/-- The load reads a CSR that waits for the checks of vector memory instructions (R148). -/
def loadWaits (c : Nat) (a : W64) (n : Nat) (s : State) : Bool :=
  match place s c a.toNat n with
  | .csr m => vectorWait c m s
  | _ => false

/-- The address names a CSR whose read is illegal: ILLEGAL_INSTRUCTION comes before TAGGED_OPERAND (R119). -/
def loadIllegal (c : Nat) (a : W64) (n : Nat) (x : Core) (s : State) : Bool :=
  match place s c a.toNat n with
  | .csr m => match csrRead c m x s with
    | .ok _ => false
    | .error e => e.1 == cIllegal
  | _ => false

/-- The address names a CSR whose write is illegal (R117, R119). -/
def storeIllegal (c : Nat) (a : W64) (n : Nat) (v : W64) (t : Tag) (x : Core) (s : State) : Bool :=
  match place s c a.toNat n with
  | .csr m => match csrWrite .write c m v t x s with
    | .exc cause _ => cause == cIllegal
    | _ => false
  | _ => false

def bodyLoad (c : Nat) (w : W32) (x : Core) (s : State) : IRes :=
  let f := loadForm (opcode w)
  if x.tagG (fA w) ≠ .pub then .exc (if loadIllegal c (x.rg (fA w) + sImm w) f.1 x s then cIllegal else cTagged) 0
  else if loadWaits c (x.rg (fA w) + sImm w) f.1 s then .stall false
  else match loadAt c (x.rg (fA w) + sImm w) f.1 x s with
    | .exc cause val => .exc cause val
    | .ok v t s => retG c (core s c) s (fD w) (if f.2 then sext64 v.toNat (8 * f.1) else v) t

/-- Format S: the data register in 25–21, the base in 20–16 (R103). -/
def bodyStore (c : Nat) (w : W32) (x : Core) (s : State) : IRes :=
  let n := 2 ^ (opcode w - 0x18)
  if x.tagG (fA w) ≠ .pub then
    .exc (if storeIllegal c (x.rg (fA w) + sImm w) n (x.rg (fD w)) (x.tagG (fD w)) x s then cIllegal else cTagged) 0
  else storeAt c (x.rg (fA w) + sImm w) n (x.rg (fD w)) (x.tagG (fD w)) x s

/-! ### LDM and STM (R129) -/

/-- The registers of a range, none where it is illegal. -/
def multiRange (w : W32) (x : Core) : Option (List Nat) :=
  let a := fA w
  let b := fB w
  if x.compat = false ∨ a = 0 ∨ b < a then none else some ((List.range (b - a + 1)).map (fun k => a + k))

/-- What a word of LDM or STM meets in a window or at a CSR, which take LDD and STD only (R99, R189, R235): ACCESS, but TAGGED_OPERAND
first for a value with a tag that the register would not take (R119). -/
def multiCause (s : State) (c : Nat) (a : W64) (t : Tag) : Byte :=
  match place s c a.toNat 8 with
  | .window w off => if t ≠ .pub ∧ (t.isShare ∨ windowTakes w off = false) then cTagged else cAccess
  | .csr m => if t.isShare ∨ (t ≠ .pub ∧ m ≠ 0x024) then cTagged else cAccess
  | _ => cAccess

/-- The windows and CSRs take LDD and STD only (R99, R189, R235). -/
def wordOnly (s : State) (c : Nat) (a : W64) : Bool :=
  match place s c a.toNat 8 with
  | .window _ _ => true
  | .csr _ => true
  | _ => false

/-- Load the registers in turn from consecutive 64-bit words; the first exception ends the instruction. -/
def loadMulti (c : Nat) (a : W64) (x : Core) : List Nat → State → IRes
  | [], s => .ok s (x.pc + 4)
  | r :: rs, s =>
    if wordOnly s c a then .exc cAccess a
    else match loadAt c a 8 x s with
    | .exc cause val => .exc cause val
    | .ok v t s => loadMulti c (a + 8) x rs (setCore c ((core s c).wg r v t) s)

def storeMulti (c : Nat) (a : W64) (x : Core) : List Nat → State → IRes
  | [], s => .ok s (x.pc + 4)
  | r :: rs, s =>
    if wordOnly s c a then .exc (multiCause s c a (x.tagG r)) (if multiCause s c a (x.tagG r) = cTagged then 0 else a)
    else match storeAt c a 8 (x.rg r) (x.tagG r) x s with
    | .ok s _ => storeMulti c (a + 8) x rs s
    | e => e

def bodyLdm (c : Nat) (w : W32) (x : Core) (s : State) : IRes :=
  match multiRange w x with
  | none => .exc cIllegal 0
  | some rs =>
    if x.tagG (fD w) ≠ .pub then .exc cTagged 0
    else if (List.range rs.length).any (fun k => loadWaits c (x.rg (fD w) + BitVec.ofNat 64 (8 * k)) 8 s) then .stall false
    else loadMulti c (x.rg (fD w)) x rs s

def bodyStm (c : Nat) (w : W32) (x : Core) (s : State) : IRes :=
  match multiRange w x with
  | none => .exc cIllegal 0
  | some rs =>
    if x.tagG (fD w) ≠ .pub ∨ shareRead x rs then .exc cTagged 0 else storeMulti c (x.rg (fD w)) x rs s

end Sys2Proof.Machine
end

