-- ==== Sys2Proof/Machine/System.lean ====
section
/-!
DEFINITION. The system instructions of opcode 0x30 (R111–R113), the timer event (R117, R121) and the interrupts of the management pair
(R122).
-/
namespace Sys2Proof.Machine

open Sys2Proof

/-- A level A instruction is illegal on a management core (R111, assumption 32). -/
def levelA (c : Nat) (f : IRes) : IRes := if c = mgmtCore then .exc cIllegal 0 else f

/-- A g register other than PUBLIC among the operands (R179). -/
def taggedOf (x : Core) (rs : List Nat) : Bool := rs.any (fun r => x.tagG r != .pub)

/-! ### EXIT (R113) -/

/-- Statuses that any act may exit with. -/
def exitStatuses : List Byte :=
  [stDone, stSigInvalid, stNotReady, stInvalid, stNotOnCurve, stParams, stDecode, stNotValidNow, stUsage, stNotResident]

/-- The EXIT is permitted: its status, and for DONE and DONE_SIGNATURE_INVALID its output length. -/
def exitOk (t : Ticket) (status : Byte) (len : W32) : Bool :=
  (exitStatuses.contains status || (status == stIntegrity && isVendor t.act))
    && !((status == stDone || status == stSigInvalid) && decide (t.outCap < len.toNat))

/-- EXIT: status and length are its operands', on which BAD_EXIT is decided (R113); a vendor act's end and
results are what its chapter decides (assumption 35). -/
def bodyExit (c : Nat) (w : W32) (x : Core) (s : State) : IRes :=
  levelA c (
    let status : Byte := (x.rg (fA w)).setWidth 8
    let len : W32 := (x.rg (fB w)).setWidth 32
    if taggedOf x [fA w, fB w] then .exc cTagged 0
    else match ticketOn s c with
      | none => .ok s x.pc
      | some t =>
        if exitOk t status len = false then .exc cBadExit 0
        else
          match exitEnd s c t status len with
          | (none, s) => .ok (egressBlocked c t.outIova s) x.pc
          | (some (status, len), s) =>
            let s := if status = stIntegrity then
                report (Event.naming { cls := .f2, source := 0x08, unit := unitCore c, cause := 0x08, addr := x.pc } t)
                  (touch t.id .f2 s)
              else s
            .ok (endAct c status len s) x.pc)

/-! ### WAIT, FENCE, TRET, BRK, IRET -/

/-- WAIT: issue is suspended until a masked event is pending. -/
def bodyWait (c : Nat) (x : Core) (s : State) : IRes :=
  if x.evPend &&& x.evMask ≠ 0 then .ok s (x.pc + 4)
  else .ok (setCore c { x with run := .waiting, stallFrom := some (coreNow s c) } s) (x.pc + 4)

/-- TRET: the handler is left. -/
def bodyTret (c : Nat) (x : Core) (s : State) : IRes :=
  .ok (setCore c { x with trap := { x.trap with active := false } } s) x.trap.pc

/-- IRET, level F: the interrupt handler is left (R122). -/
def bodyIret (c : Nat) (s : State) : IRes :=
  if c = mgmtCore then .ok { s with mgmt := { s.mgmt with intActive := false } } s.mgmt.intPc else .exc cIllegal 0

/-! ### KEYGET, FORMGET, FORMPUT -/

/-- KEYGET: issue stalls; KEY_REQUEST decides and delivers (R112). -/
def bodyKeyget (c : Nat) (w : W32) (x : Core) (s : State) : IRes :=
  levelA c (
    if taggedOf x [fA w, fB w] then .exc cTagged 0
    else .ok (setCore c { x with
      run := .keyget (fD w) ((x.rg (fA w)).setWidth 32) ((x.rg (fB w)).setWidth 8), stallFrom := some (coreNow s c) } s) x.pc)

/-- The cached form that FORMGET names: that of the act's header for the handle's key, else the key's own copy (R86). -/
def formOf (s : State) (t : Ticket) (h : W32) : Option Nat :=
  let a := (keyEntry s h).attr
  match (actOf s t).bind (fun b => formKind b.form.toNat a) with
  | some k => some k
  | none => ownForm a

/-- FORMGET: the copy's address and read access to it, or 0 (R111). A ninth grant raises ACCESS (R112). -/
def bodyFormget (c : Nat) (w : W32) (x : Core) (s : State) : IRes :=
  levelA c (
    let h : W32 := (x.rg (fA w)).setWidth 32
    if taggedOf x [fA w] then .exc cTagged 0
    else match ticketOn s c with
      | none => .ok s x.pc
      | some t =>
        let found := (formOf s t h).bind (fun k =>
          s.ush.copies.find? (fun q => q.ring == ringOf c && q.handle == h && q.kind == k && q.st == .valid))
        let holds := x.grants.any (fun g => g.key && g.handle == h)
        match found with
        | none => retG c x s (fD w) 0 .pub
        | some q =>
          if handleIid h ≠ t.iid ∨ holds = false then retG c x s (fD w) 0 .pub
          else if 8 ≤ x.grants.length then .exc cAccess 0
          else
            let a := 0x1000000 + q.addr
            let g : Grant := {
              base := a, size := roundUp q.size 64, key := false, handle := h, usage := 0, attr := (keyEntry s h).attr,
              len := q.size, secret := q.secret, cached := some q.kind }
            let mine := t.uses.any (fun u => u == (ringOf c, h, q.addr))
            let s := if mine then s
              else modTicket t.id (fun t => { t with uses := t.uses ++ [(ringOf c, h, q.addr)] })
                { s with ush := { s.ush with copies := s.ush.copies.map (fun (k : Copy) =>
                    if k.ring = q.ring ∧ k.handle = h ∧ k.addr = q.addr then { k with uses := k.uses + 1 } else k) } }
            retG c { x with grants := x.grants ++ [g] } s (fD w) (BitVec.ofNat 64 a) .pub)

/-- FORMPUT: a range of the working set is offered (R88, R111). The spec gives no TRAPVAL for a range of which only the end lies
outside: it is g[a] (DESIGN CHOICE, assumption 107). -/
def bodyFormput (c : Nat) (w : W32) (x : Core) (s : State) : IRes :=
  levelA c (
    let a := (x.rg (fA w)).toNat
    let n := (x.rg (fB w)).toNat
    if taggedOf x [fA w, fB w] then .exc cTagged 0
    else if inside a n x.wsBase x.wsSize then .ok (setCore c { x with offer := some (a, n) } s) (x.pc + 4)
    else .exc cAccess (x.rg (fA w)))

/-- MGMT_INTERRUPT: hub block k sets its INTPEND bit (R122). -/
def execMgmtInterrupt (k : Nat) (s : State) : Out :=
  .next (unlessLocked (fun s =>
    if 12 ≤ k then s
    else deliverInt { s with mgmt := { s.mgmt with intPend := s.mgmt.intPend ||| BitVec.ofNat 64 (2 ^ k) } }) s)

/-- TIMECMP_REACHED: CYCLE is at or above TIMECMP (R117). -/
def execTimecmpReached (c : Nat) (s : State) : Out :=
  .next (unlessLocked (fun s =>
    if corePresent s c ∧ (core s c).timecmp.toNat ≤ cycles s c then
      let s := raiseEvent c 9 s
      if c = mgmtCore then deliverInt s else s
    else s) s)

end Sys2Proof.Machine
end

