-- ==== Sys2Proof/Machine/Commit.lean ====
section
/-!
DEFINITION. The commit point of a ticket (R55): the conditions under which the Usher accepts a core's commit signal (R113, R370, R373),
and what takes effect with it: key changes (R296), cached forms (R86–R88, R254), tenant acts (R127), a session (R338), the cost figure
(R73), the receipt and the final entry (R34, R54).
-/
namespace Sys2Proof.Machine

open Sys2Proof

/-- The queued tickets of an act count at its present figure, so that W_i stays the sum of c(a) over them (R73; DEDUCED, assumption 105). -/
def reprice (a : Act) (new : Rat) (s : State) : State :=
  let mine (t : Ticket) : Bool :=
    t.phase == .queued && !t.device && (actOf s t).any (fun b => b.key == a.key && b.version == a.version)
  s.tickets.foldl (fun s t =>
    if mine t then
      setShare t.iid { share s t.iid with backlog := max 0 ((share s t.iid).backlog + new - t.cost) }
        (modTicket t.id (fun u => { u with cost := new }) s)
    else s) s

/-- The cost figure of the act that the ticket ran moves by a sixteenth of the difference to the measured core time, in ns (R73). A version
that another replaces keeps a figure of its own. -/
def learnCost (t : Ticket) (s : State) : State :=
  match actOf s t with
  | none => s
  | some a =>
    let m : Rat := ((s.time.ticks - t.started : Nat) : Rat) / 6
    let new := a.cost + (m - a.cost) / 16
    reprice a new { s with acts := { s.acts with acts := s.acts.acts.map (fun (b : Act) =>
      if b.key = a.key ∧ b.version = a.version then { b with cost := new } else b) } }

/-- The ring's cache takes a form at a ticket's commit: no copy of it there, within the limit beside the copies in use, the key as the ticket
had it (R87–R89); a further copy of a big form only while R90 allows one. -/
def cacheTakes (s : State) (r : Nat) (h : W32) (kind size : Nat) (t : Ticket) : Bool :=
  (copyAt? s r h kind).isNone && cacheHas s r size && (keyEntry s h).st == .resident && !s.ush.changed.contains (t.id, h)
    && (!(t.further && isBig size) || spreadAllowed s h kind)

/-- The copy joins the ring's cache, which evicts for it. -/
def addCopy (q : Copy) (t : Ticket) (s : State) : State :=
  let s := evictFor q.ring q.size s.ush.copies.length s
  let s := { s with ush := { s.ush with copies := s.ush.copies ++ [q] } }
  if t.further ∧ isBig q.size then noteSpread q.handle q.kind s else s

/-- A delivered key copy is kept as the key's cached copy, if the entry is still as it was granted (R88, R254). Its place is no longer
the ticket's own. -/
def keepGrant (c k : Nat) (s : State) : State :=
  let x := core s c
  match x.grants[k]?, ticketOn s c with
  | some g, some t =>
    let r := ringOf c
    let e := keyEntry s g.handle
    let copy : Bool := g.key && !g.staging && g.cached.isNone && g.usage != 0x20 && g.usage != 0x31 && g.usage != 0x38
    match ownForm g.attr with
    | none => s
    | some kind =>
      let size := if kind = 0 then roundUp g.len 64 else g.len
      if copy ∧ e.attr = g.attr ∧ e.data.length = g.len ∧ cacheTakes s r g.handle kind size t then
        let q : Copy := {
          ring := r, handle := g.handle, kind := kind, st := .valid, addr := g.base - 0x1000000, size := size,
          secret := g.secret, last := s.ush.dispatches }
        addCopy q t (setCore c { x with grants := x.grants.set k { g with cached := some kind } } s)
      else s
  | _, _ => s

/-- The offer of FORMPUT that finds no room even after eviction is dropped: the working set it lies in still counts as in use (DESIGN CHOICE,
assumption 105). Otherwise it is taken as the form of the act's header for the ticket's key (R88, R111); it is moved out of the working
set, with stores in it that no FENCE of the core has followed (DESIGN CHOICE, assumption 107). -/
def takeOffer (c : Nat) (t : Ticket) (s : State) : State :=
  let r := ringOf c
  match (core s c).offer, (actOf s t).bind (fun a => formKind a.form.toNat (keyEntry s t.handle).attr) with
  | some (a, n), some kind =>
    if t.handle = noKey ∨ t.device ∨ n ≠ formSize s kind t.handle ∨ cacheTakes s r t.handle kind n t = false then s
    else match roomFor s r (roundUp n 64) 0 none with
      | none => s
      | some (b, s) =>
        let src : Place := .ring r (a - 0x1000000)
        let q : Copy := {
          ring := r, handle := t.handle, kind := kind, st := .valid, addr := b, size := n, secret := false,
          last := s.ush.dispatches }
        addCopy q t (moveLines (.ring r b) src n s)
  | _, _ => s

/-- LOAD_ACT: the image that the ticket read is loaded for its own instance (R127). -/
def commitLoad (t : Ticket) (s : State) : State :=
  let h := actHeader t.input
  if h.valid t.input ∧ 0x4000 ≤ h.number ∧ h.number ≤ 0xFFFE then
    (installAct h (some t.iid) (actCode t.input h) 0 s).getD s
  else s

/-- UNLOAD_ACT: the act of ticket bytes 50–51 leaves admission (R127). -/
def commitUnload (t : Ticket) (s : State) : State :=
  let n : Half := BitVec.ofNat 16 (t.num 50 2)
  sweepActs { s with acts := { s.acts with acts := s.acts.acts.map (fun (a : Act) =>
    if a.number = n ∧ a.iid = some t.iid then { a with enabled := false } else a) } }

/-- What a DONE commit alone brings about. -/
def commitDone (c : Nat) (t : Ticket) (s : State) : State :=
  let s := applyChanges t (ringOf c) s
  if t.act = 0x0001 then commitLoad t s else if t.act = 0x0002 then commitUnload t s else s

/-- The commit point: what takes effect with it, and the final entry. -/
def commitAs (c : Nat) (t : Ticket) (status : Byte) (len : W32) (s : State) : State :=
  let done := decide (status = stDone)
  let s := if done then commitDone c t s else s
  let s := if done ∨ status = stSigInvalid then learnCost t s else s
  let s := takeOffer c t ((List.range (core s c).grants.length).foldl (fun s k => keepGrant c k s) s)
  match t.origin with
  | .handshake n =>
    if done then
      let r := sessionOpen t n s
      commitFinal t.id status len r.1 r.2
    else commitFinal t.id status len false s
  | _ => commitFinal t.id status len false s

/-- COMMIT: the commit point of the ticket whose EXIT waits on the core; held while R370 or R373 says so, and while output of the act has not left (R113). A commit signal of the hub cycle in
which a reset or an abort stopped the ticket is ordered first (R66, R71, R72). -/
def execCommit (c : Nat) (s : State) : Out :=
  .next (unlessLocked (fun s =>
    match ticketOn s c with
    | none => s
    | some t =>
      if t.device = false ∧ commitHeld s t.iid then s
      else
        match (core s c).run, t.signalled with
        | .exiting status len, _ =>
          let s := retryOutput c t s
          if t.phase ≠ .running c ∨ workDone s c = false ∨ controlReread s c ∨ (corex s c).micro.trapped ∨ (corex s c).micro.faulted then s
          else commitAs c t status len s
        | .scrubbing, some g => if g.cycle = s.time.cycle then commitAs c t g.status g.len s else s
        | _, _ => s) s)

end Sys2Proof.Machine
end

