-- ==== Sys2Proof/Machine/Jtag.lean ====
section
/-!
DEFINITION. The test access port and the debug access port (R456–R459, R461, R499).
-/
namespace Sys2Proof.Machine

open Sys2Proof

/-! ### Instructions of the test access port (R456) -/

def irBypass : Byte := 0xFF
def irIdcode : Byte := 0x01
def irSample : Byte := 0x02
def irExtest : Byte := 0x00
def irClamp : Byte := 0x04
def irHighz : Byte := 0x05
def irDap : Byte := 0x20

/-- The instruction is decoded as itself if the present state permits it, and as BYPASS otherwise. -/
def selectIr (ir : Byte) (permitted : Bool) (s : State) : State :=
  { s with jtag := { s.jtag with ir := if permitted then ir else irBypass } }

/-- The boundary register's instructions: in MAKER and under a SCAN grant. -/
def scanMay (s : State) : Bool := s.lcs.st != lcFielded && s.lcs.st != lcScrapped && dbgMay s 0

/-- EXTEST, CLAMP or HIGHZ drives the pins, which it does only while the hold stands (R461). -/
def pinsDriven (s : State) : Bool :=
  s.lcs.dbgHeld && (s.jtag.ir == irExtest || s.jtag.ir == irClamp || s.jtag.ir == irHighz)

def idcode (s : State) : W32 :=
  BitVec.ofNat 32 (pack [(s.dev.stepDigit.toNat, 28), (0x4B00 + (if s.dev.part = .kx512 then 1 else 2), 12),
    (Config.vendorId.toNat, 1), (1, 0)])

def execBypass (s : State) : Out := .next (selectIr irBypass true s)

/-- IDCODE: the identification is captured. -/
def execIdcode (s : State) : Out :=
  .next { s with jtag := { s.jtag with ir := irIdcode, capture := idcode s } }

/-- SAMPLE/PRELOAD: what the pins show is free. -/
def execSamplePreload (s : State) : Out :=
  .next (
    if scanMay s then
      { s with
        jtag := { s.jtag with ir := irSample, capture := Config.freeBits 32 s.fresh }
        fresh := s.fresh + 1 }
    else selectIr irSample false s)

def execExtest (s : State) : Out := .next (selectIr irExtest (scanMay s && s.lcs.dbgHeld) s)
def execClamp (s : State) : Out := .next (selectIr irClamp (scanMay s && s.lcs.dbgHeld) s)
def execHighz (s : State) : Out := .next (selectIr irHighz (scanMay s && s.lcs.dbgHeld) s)

/-- TRST_N low: the reset state of IEEE 1149.1, in which IDCODE is the instruction (assumption 34). -/
def execJtagReset (s : State) : Out := .next (selectIr irIdcode true s)

/-! ### Debug accesses (R457–R459) -/

def dapDone (v : W32) (s : State) : State := { s with jtag := { s.jtag with outcome := 1, data := v } }

/-- A refused access returns 0 and records a notice (R458). -/
def dapRefused (addr : W32) (s : State) : State :=
  report { cls := .f0, source := 0x18, cause := 0x09, addr := addr.setWidth 64 }
    { s with jtag := { s.jtag with outcome := 2, data := 0 } }

/-- What FIELDED leaves readable: the trouble log, FC_STATUS, GCTL_DEVICE_ID, LCS_STATUS. -/
def fieldedReads (off : Nat) : Bool := (0x440000 ≤ off && off < 0x480000) || off == 0x400004 || off == 0 || off == 0xA00000

/-- The LCS_DBG registers and the token window. -/
def debugOwn (off : Nat) : Bool := (0xA00100 ≤ off && off < 0xA00140) || (0xA04000 ≤ off && off < 0xA06000)

/-- INTEGRATOR or RETURNED. -/
def lcGrantable (s : State) : Bool := s.lcs.st == lcIntegrator || s.lcs.st == lcReturned

/-- An access to BAR0 is permitted (R458). -/
def dapBarMay (off : Nat) (write : Bool) (s : State) : Bool :=
  if s.lcs.st = lcMaker then true
  else if lcGrantable s then debugOwn off || dbgMay s (if write then 3 else 2)
  else s.lcs.st == lcFielded && !write && fieldedReads off

/-- Core space: MAKER, or a HALT grant. Memory space: MAKER, or a grant to read or to write. -/
def dapMay (k : Nat) (s : State) : Bool := s.lcs.st == lcMaker || (lcGrantable s && dbgMay s k)

def dapCore (addr : W32) : Nat := field addr.toNat 24 8

/-- Halted, its last ticket at its final entry (R458). -/
def dapHalted (s : State) (c : Nat) : Bool := c < coreCount s && (corex s c).halted && (core s c).ticket.isNone

/-- Half hi of a 64-bit value. -/
def half64 (v : W64) (hi : Bool) : W32 := BitVec.ofNat 32 (wordOf v.toNat (if hi then 1 else 0))
def withHalf (v : W64) (hi : Bool) (w : W32) : W64 := BitVec.ofNat 64 (withWord v.toNat (if hi then 1 else 0) w)

/-- A PUBLIC value as it is, any other as 0 (R459). -/
def showPublic (v : W32) (t : Tag) : W32 := if t = .pub then v else 0

/-- A register of a halted core: none where the number names none, or names a declassification CSR (R459). -/
def dapRegRead (c : Nat) (r : DapReg) (s : State) : Option W32 :=
  let x := core s c
  let u := (corex s c).vec
  match r with
  | .none => none
  | .control => some (BitVec.ofNat 32 (b2n (corex s c).halted))
  | .g n hi => if n < 32 then some (showPublic (half64 (x.rg n) hi) (x.tagG n)) else none
  | .vword n k =>
    if n < 32 ∧ k < 32 then some (showPublic (BitVec.ofNat 32 (wordOf (u.rv n).toNat k)) (u.tagV n)) else none
  | .csr n hi =>
    if 0x210 ≤ n ∧ n < 0x220 then none
    else match csrRead c n x s with
      | .ok v => some (showPublic (half64 v.1 hi) v.2)
      | .error _ => none

/-- A write of one: it must be PUBLIC, and stays so (R459). A CSR takes the value as CSRW would write it. -/
def dapRegWrite (c : Nat) (r : DapReg) (v : W32) (s : State) : Option State :=
  let x := core s c
  let y := corex s c
  match r with
  | .none | .control => none
  | .g n hi =>
    if n < 32 ∧ x.tagG n = .pub then some (setCore c (x.wg n (withHalf (x.rg n) hi v) .pub) s) else none
  | .vword n k =>
    if n < 32 ∧ k < 32 ∧ y.vec.tagV n = .pub then
      some (setCorex c { y with vec := y.vec.wv n (BitVec.ofNat 1024 (withWord (y.vec.rv n).toNat k v)) .pub } s)
    else none
  | .csr n hi =>
    if 0x210 ≤ n ∧ n < 0x220 then none
    else match csrRead c n x s with
      | .ok (old, .pub) => match csrWrite .write c n (withHalf old hi v) .pub x s with
        | .ok s' _ => some s'
        | _ => none
      | _ => none

/-- A write of the debug control: the core is halted, and counts as retired for placement, or returns to placement (R458). -/
def dapControl (c : Nat) (v : W32) (s : State) : State :=
  let stops := Config.dapHalts v
  let y := corex s c
  let s' := recompute (setCorex c { y with halted := stops } s)
  if stops ∧ y.halted = false then stateNotice 0x18 (unitCore c) 0x20001C (BitVec.ofNat 64 (rdUsher 0x20001C s')) s' else s'

/-- A word of a core's local memory that the debug port may reach (R457): aligned, within the 256 KiB. -/
def dapMemory (addr : W32) (s : State) : Option Place :=
  let a := field addr.toNat 0 24
  if dapCore addr < coreCount s ∧ a % 4 = 0 ∧ a < 0x40000 then some (.loc (dapCore addr) a) else none

/-- DAP_READ. -/
def dapRead (space : Nat) (addr : W32) (s : State) : State :=
  if space = 0 then
    if addr.toNat % 4 = 0 ∧ dapBarMay addr.toNat false s then
      dapDone (rdWord 0 addr.toNat s) (readEffect .dap 0 addr.toNat s)
    else dapRefused addr s
  else if space = 1 then
    if dapMay 1 s ∧ dapHalted s (dapCore addr) then
      match dapRegRead (dapCore addr) (Config.dapReg (field addr.toNat 0 12)) s with
      | some v => dapDone v s
      | none => dapRefused addr s
    else dapRefused addr s
  else if space = 2 ∧ dapMay 2 s then
    match dapMemory addr s with
    | some p => dapDone (showPublic (BitVec.ofNat 32 (natOf (readBytes s p 4))) (lineTag s p)) s
    | none => dapRefused addr s
  else dapRefused addr s

/-- DAP_WRITE. -/
def dapWrite (space : Nat) (addr data : W32) (s : State) : State :=
  if space = 0 then
    if addr.toNat % 4 = 0 ∧ dapBarMay addr.toNat true s then dapDone 0 (wrWord .dap 0 addr.toNat data s)
    else dapRefused addr s
  else if space = 1 then
    let c := dapCore addr
    let r := Config.dapReg (field addr.toNat 0 12)
    if dapMay 1 s = false ∨ coreCount s ≤ c then dapRefused addr s
    else if r = .control then dapDone 0 (dapControl c data s)
    else if dapHalted s c then
      match dapRegWrite c r data s with
      | some s' => dapDone 0 s'
      | none => dapRefused addr s
    else dapRefused addr s
  else if space = 2 ∧ dapMay 3 s then
    match dapMemory addr s with
    | some p =>
      if lineTag s p = .pub then dapDone 0 (writeBytes p (bytesOf data.toNat 4) s) else dapRefused addr s
    | none => dapRefused addr s
  else dapRefused addr s

/-- DAPACC is decoded as BYPASS in SCRAPPED (R456): then no access is made. -/
def withDap (access : State → State) (s : State) : State :=
  if s.lcs.st = lcScrapped then selectIr irDap false s else access (selectIr irDap true s)

def execDapRead (space : Nat) (addr : W32) (s : State) : Out := .next (withDap (dapRead space addr) s)

def execDapWrite (space : Nat) (addr data : W32) (s : State) : Out := .next (withDap (dapWrite space addr data) s)

end Sys2Proof.Machine
end

