-- ==== Sys2Proof/Machine/MicroRun.lean ====
section
/-!
DEFINITION. How a micro-routine runs that passes through patch RAM (R155–R159, R161, R166–R168): its words execute one after another,
change micro-state, and change architectural state under their COMMIT bits only. The codings of the fields are the part's own
(`Config.micro…`). A routine that stays in ROM is the instruction's own meaning (assumption 33).
-/
namespace Sys2Proof.Machine

open Sys2Proof

/-! ### Operands and conditions (R155, R157) -/

/-- The g register that an operand names in the instruction word r. -/
def operandReg (r : W32) (o : MicroOperand) : Option Nat :=
  match o with
  | .gD => some (fD r)
  | .gA => some (fA r)
  | .gB => some (fB r)
  | _ => none

/-- Value and tag of a source of instruction word r. A micro-temporary's tag bit stands for SECRET. -/
def microValue (r : W32) (x : Core) (m : Micro) (o : MicroOperand) : W64 × Tag :=
  match o with
  | .temp k => (Table.get 0 m.temps k, if Table.get false m.tempTags k then .secret else .pub)
  | .const v => (v, .pub)
  | .mar => (m.mar, .pub)
  | o => (operandReg r o).elim (0, .pub) (fun d => (x.rg d, x.tagG d))

/-- A condition source at a word (R157): from the state that earlier words left. Sources 0xC to 0xE read 0 on a management core (R173). -/
def microCond (s : State) (c : Nat) (r : W32) (m : Micro) (cw : BitVec 160) (src : Nat) : Bool :=
  let x := core s c
  let y := corex s c
  let ring : Bool := c != mgmtCore
  match src with
  | 0x0 => false
  | 0x1 => bit m.flags 2
  | 0x2 => bit m.flags 1
  | 0x3 => bit m.flags 0
  | 0x4 => m.counter == 0
  | 0x5 => !s.fabric.rereads.any (fun q => q.core == some c)
  | 0x6 => true
  | 0x7 => (microValue r x m (Config.microOperand (cwSrcA cw))).2 != .pub
  | 0x8 => (microValue r x m (Config.microOperand (cwSrcB cw))).2 != .pub
  | 0x9 => x.compat
  | 0xA => match Config.microMem (cwMem cw) with
    | some (_, n, base) => (base + m.mar).toNat % n != 0
    | none => false
  | 0xB => y.dma.queue.isEmpty
  | 0xC => ring && Config.microRand (cwRand cw) ≤ y.rndBuf.length
  | 0xD => ring && y.vec.checks.isEmpty
  | 0xE => ring && y.vec.pending
  | _ => bit r (cwImm cw % 32)

/-! ### One word (R155, R158) -/

/-- The tag of a class code; SECRET for a code that names none. -/
def Tag.ofCode (k : Nat) : Tag :=
  ([.pub, .share0, .share1, .share2, .cipher, .pinf, .pinblk, .wrapped] : List Tag).find? (fun t => t.code == k) |>.getD .secret

/-- The tag of a result by the word's TAG operation. A word of patch RAM can propagate and set tags, never clear one: what it makes joins
the tags of all it takes (R167). -/
def microTag (inRam : Bool) (cw : BitVec 160) (sources : List Tag) : Tag :=
  let t := Tag.ofCode (Config.microTag (cwTag cw) (sources.map Tag.code))
  if inRam then sources.foldl Tag.lineJoin t else t

/-- The result of the scalar datapath: value, flags, tag. -/
def microResult (inRam : Bool) (r : W32) (x : Core) (m : Micro) (cw : BitVec 160) : W64 × BitVec 3 × Tag :=
  let a := microValue r x m (Config.microOperand (cwSrcA cw))
  let b := microValue r x m (Config.microOperand (cwSrcB cw))
  let mem := Config.microAluMem (cwAlu cw)
  let t := microTag inRam cw ([a.2, b.2] ++ if mem then [m.mdrTag] else [])
  match Config.microAlu (cwAlu cw) a.1 b.1 (BitVec.ofNat 16 (cwImm cw)) (if mem then m.mdr else 0) with
  | none => (a.1, m.flags, t)
  | some (v, carry) => (v, BitVec.ofNat 3 (4 * b2n (v == 0) + 2 * b2n carry + b2n (bit v 63)), t)

/-- What the vector datapath takes, and the tags of it. -/
def microVecIn (r : W32) (x : Core) (u : VecUnit) (m : Micro) (cw : BitVec 160) (rand : List (BitVec 1024)) : VecIn × List Tag :=
  let q := Config.microVecUses (cwVec cw)
  let a := microValue r x m (Config.microOperand (cwSrcA cw))
  let tag (on : Bool) (t : Tag) : List Tag := if on then [t] else []
  ({ va := if q.va then u.rv (fA r) else 0
     vb := if q.vb then u.rv (fB r) else 0
     vd := if q.vd then u.rv (fD r) else 0
     pred := if q.pred then u.rp (vPg r) else 0
     scalar := if q.scalar then a.1 else 0
     mem := if q.mem then m.mdr else 0
     rand := rand },
   tag q.va (u.tagV (fA r)) ++ tag q.vb (u.tagV (fB r)) ++ tag q.vd (u.tagV (fD r)) ++ tag q.pred (predTag (u.tagP (vPg r)))
     ++ tag q.scalar a.2 ++ tag q.mem m.mdrTag)

/-- The micro-state after a word: flags, counter, and the destination where it is not a g register. -/
def microWrite (inRam : Bool) (r : W32) (x : Core) (m : Micro) (cw : BitVec 160) : Micro :=
  let v := microResult inRam r x m cw
  let a := (microValue r x m (Config.microOperand (cwSrcA cw))).1
  let m := { m with
    flags := v.2.1
    counter := match Config.microCount (cwCnt cw) with
      | .hold => m.counter
      | .loadImm => BitVec.ofNat 64 (cwImm cw)
      | .loadSrc => a
      | .decrement => m.counter - 1 }
  match Config.microOperand (cwDst cw) with
  | .temp k => { m with temps := Table.set 0 m.temps k v.1, tempTags := Table.set false m.tempTags k (v.2.2 != .pub) }
  | .mar => { m with mar := v.1 }
  | _ => m

/-- How a word ends. -/
inductive MicroWordEnd where
  | ok (m : Micro) (s : State)
  | exc (cause : Byte) (val : W64)
  /-- an engine or the DMA channel takes no command yet -/
  | wait

/-- What an access of the word ends in, with the state it leaves. -/
def IRes.microEnd (m : Micro) : IRes → MicroWordEnd
  | .ok s _ => .ok m s
  | .exc cause val => .exc cause val
  | _ => .wait

/-- The memory or engine access of a word, from where its space begins: a load fills the memory data register; a store is performed under COMMIT_M. -/
def microAccess (c : Nat) (req : Option (Bool × Nat × W64)) (cw : BitVec 160) (v : W64) (t : Tag) (m : Micro) (s : State) : MicroWordEnd :=
  match req with
  | none => .ok m s
  | some (false, n, base) => match loadAt c (base + m.mar) n (core s c) s with
    | .ok v t s => .ok { m with mdr := v, mdrTag := t } s
    | .exc cause val => .exc cause val
  | some (true, n, base) => if cwCommitM cw then (storeAt c (base + m.mar) n v t (core s c) s).microEnd m else .ok m s

/-- The g, CSR or predicate, and vector writes of a word under COMMIT_G, COMMIT_C and COMMIT_V. COMMIT_C of a CSR instruction writes its
CSR, that of a vector instruction the predicate that field d names. -/
def microCommit (inRam : Bool) (c : Nat) (r : W32) (cw : BitVec 160) (rand : List (BitVec 1024)) (v : W64) (t : Tag) (m : Micro) (s : State) :
    MicroWordEnd :=
  let q := microVecIn r (core s c) (corex s c).vec m cw rand
  let vt := microTag inRam cw q.2
  let s := match cwCommitG cw, operandReg r (Config.microOperand (cwDst cw)) with
    | true, some d => setCore c ((core s c).wg d v t) s
    | _, _ => s
  let s := if cwCommitV cw then
      setVec c ((Config.microVecDst (cwVec cw) r).foldl (fun (u : VecUnit) k => u.wv (k % 32) (Config.microVec (cwVec cw) r q.1 k) vt)
        (corex s c).vec) s
    else s
  if cwCommitC cw = false then .ok m s
  else if isVector r then
    .ok m (setVec c ((corex s c).vec.wp (fD r % 8) (Config.microPred (cwVec cw) r q.1) (vt != .pub)) s)
  else
    let n := if 0x2C ≤ opcode r ∧ opcode r ≤ 0x2F then fImm r % 4096 else Config.microCsr r % 4096
    (csrWrite .write c n v t (core s c) s).microEnd m

/-- Execute one word: all its writes, or none (R158). TRAPVAL of an exception that its ALU code raises is the memory address register, since
R155 names no field for it (DESIGN CHOICE, assumption 33). -/
def microWordRun (inRam : Bool) (c : Nat) (r : W32) (cw : BitVec 160) (m : Micro) (s : State) : MicroWordEnd :=
  let x := core s c
  match Config.microRaises (cwAlu cw) with
  | some cause => .exc cause m.mar
  | none =>
    let v := microResult inRam r x m cw
    let y := corex s c
    let n := Config.microRand (cwRand cw)
    let s := setCorex c { y with rndBuf := y.rndBuf.drop n } s
    match microAccess c (Config.microMem (cwMem cw)) cw v.1 v.2.2 m s with
    | .ok m1 s => match microAccess c ((Config.microEng (cwEng cw)).map (fun st => (st, 8, 0))) cw v.1 v.2.2 m1 s with
      | .ok m2 s => microCommit inRam c r cw (y.rndBuf.take n) v.1 v.2.2
          { microWrite inRam r x m cw with mdr := m2.mdr, mdrTag := m2.mdrTag } s
      | e => e
    | e => e

/-! ### A routine (R156, R159, R161, R166–R168) -/

/-- A word that has to wait: a WAITC whose source is 0. -/
def microWaits (s : State) (c : Nat) (r : W32) (m : Micro) (cw : BitVec 160) : Bool :=
  cwSeq cw == 5 && !microCond s c r m cw (cwCond cw 0)

/-- A fault of the word at micro-address a before it executes: a word that patch RAM may not hold, or a ninth HOLD boundary. -/
def microBad (a : Nat) (m : Micro) (cw : BitVec 160) : Bool := (decide (0x1000 ≤ a) && patchWordBad cw) || (cwHold cw && decide (8 ≤ m.hold))

/-- A next address that no word may form: no word lies there (R153), or a patch RAM word forms one of the protected region (R167). -/
def badNext (inRam : Bool) (a : Nat) : Bool := decide (0x1080 ≤ a) || (inRam && isProtected a)

/-- How far a routine has come: `entered`, it runs through patch RAM; `waited`, it has passed a word of ROM that waits, and what follows is
only looked at. -/
structure MicroPath where
  entered : Bool := false
  waited : Bool := false
  deriving DecidableEq, Repr

/-- Run the routine of instruction word r from micro-address a, for at most `fuel` words. None where it ends without having entered patch RAM:
then what it does is the instruction's own meaning. A routine that waits, or has run for so long, goes on at the core's next command; one
that waits in ROM ahead of a redirected word starts anew there. -/
def microRun (c : Nat) (r : W32) : Nat → Nat → MicroPath → Micro → State → Option IRes
  | 0, a, p, m, s =>
    if p.entered then
      some (.held (setCorex c { corex s c with micro := { m with pc := BitVec.ofNat 13 a, waiting := some r } } s))
    else none
  | fuel + 1, a, p, m, s =>
    let cw := microWord s c a
    let inRam := decide (0x1000 ≤ a)
    let p := { p with entered := p.entered || inRam }
    let now (m : Micro) (s : State) : State := setCorex c { corex s c with micro := m } s
    let held : IRes := .held (now { m with pc := BitVec.ofNat 13 a, waiting := some r } s)
    let m := { m with hold := if cwHold cw then m.hold + 1 else 0 }
    let out (e : IRes) : Option IRes := if p.entered then some e else none
    let onward (m' : Micro) (s' : State) : Option IRes :=
      match microNext r (fun k => microCond s c r m cw (cwCond cw k)) a m.stack cw with
      | .fault => out (.micro a (now m s))
      | .done =>
        let x := core s c
        let next := if Config.microJumps (cwAlu cw) then (microResult inRam r x m cw).1 else x.pc + 4
        out (.ok (now { m' with stack := [], hold := 0, waiting := none } s') next)
      | .go a' stack =>
        if badNext inRam a' then some (.micro a (now m s))
        else microRun c r fuel (redirect s a a') p { m' with stack := stack } s'
    if p.waited && inRam then some (.stall false)
    else if microBad a { m with hold := m.hold - 1 } cw then out (.micro a (now m s))
    else if microWaits s c r m cw then
      (if p.entered then some held else
        microRun c r fuel (redirect s a (cwNext cw)) { p with waited := true } m s)
    else match microWordRun inRam c r cw m s with
      | .wait => if p.entered then some held else onward m s
      | .exc cause val => out (.trapped (now m s) cause val)
      | .ok m' s' => onward m' s'

/-- Words that one command runs at most. -/
def microFuel : Nat := 2 ^ 20

/-- What the routine of the instruction's word ends in, where a patch in effect leads it through patch RAM; a routine that waits is gone on
with. -/
def microEnd (c : Nat) (r : W32) (s : State) : Option IRes :=
  let m := (corex s c).micro
  let start := Config.decodeMap (opcode r) (fFunct r) % 2 ^ 13
  if c = mgmtCore ∨ patched s = false then none
  else match m.waiting with
    | some r' => if r' = r then microRun c r microFuel m.pc.toNat { entered := true } m s else some (.stall false)
    | none =>
      if badNext false start then some (.micro start s) else microRun c r microFuel (redirect s 0 start) {} m s

end Sys2Proof.Machine
end

