-- ==== Sys2Proof/Machine/Scalar.lean ====
section
/-!
DEFINITION. The scalar arithmetic and control-transfer instructions of Ilina 2 (R104–R110).
-/
namespace Sys2Proof.Machine

open Sys2Proof

/-- Number of leading zeros, trailing zeros, set bits, and the byte-reversed value (R105). -/
def clz (a : W64) : W64 := BitVec.ofNat 64 (if a = 0 then 64 else 63 - Nat.log2 a.toNat)
def popc (a : W64) : W64 := BitVec.ofNat 64 ((List.range 64).filter (fun k => bit a k)).length
def ctz (a : W64) : W64 :=
  BitVec.ofNat 64 (((List.range 64).find? (fun k => bit a k)).getD 64)
def bswap (a : W64) : W64 := BitVec.ofNat 64 (natOf (bytesOf a.toNat 8).reverse)

/-- Register arithmetic of opcode 0x01 but the division family, by funct (R105). -/
def aluOp (f : Nat) (a b d : W64) : Option W64 :=
  let n := b.toNat % 64
  match f with
  | 0x000 => some (a + b)
  | 0x001 => some (a - b)
  | 0x002 => some (a &&& b)
  | 0x003 => some (a ||| b)
  | 0x004 => some (a ^^^ b)
  | 0x005 => some (a &&& ~~~b)
  | 0x008 => some (a <<< n)
  | 0x009 => some (a >>> n)
  | 0x00A => some (a.sshiftRight n)
  | 0x00B => some (a.rotateRight n)
  | 0x010 => some (if a.slt b then 1 else 0)
  | 0x011 => some (if a.ult b then 1 else 0)
  | 0x014 => some (carry a b)
  | 0x015 => some (borrow a b)
  | 0x018 => some (a * b)
  | 0x019 => some (BitVec.ofNat 64 (a.toNat * b.toNat / 2 ^ 64))
  | 0x01A => some (BitVec.ofInt 64 (a.toInt * b.toInt / 2 ^ 64))
  | 0x020 => some (if a ≠ 0 then b else d)
  | 0x028 => some (clz a)
  | 0x029 => some (ctz a)
  | 0x02A => some (popc a)
  | 0x02B => some (bswap a)
  | _ => none

/-- CLZ, CTZ, POPC, BSWAP take one source and require b = 0. -/
def aluSingle (f : Nat) : Bool := 0x028 ≤ f && f ≤ 0x02B

/-- Result tag of register arithmetic (R178). -/
def aluTag (f : Nat) (a b d : Tag) : Option Tag :=
  if f = 0x020 then cmovTag a b d
  else if f = 0x004 then some (xorTag [a, b])
  else if aluSingle f then some (mixTag [a])
  else some (mixTag [a, b])

def bodyRegArith (c : Nat) (w : W32) (x : Core) (s : State) : IRes :=
  let f := fFunct w
  let a := x.rg (fA w)
  let b := x.rg (fB w)
  match aluOp f a b (x.rg (fD w)) with
  | none => .exc cIllegal 0
  | some v =>
    if aluSingle f ∧ fB w ≠ 0 then .exc cIllegal 0
    else if shareRead x (if f = 0x020 then [fA w, fB w, fD w] else [fA w, fB w]) then .exc cTagged 0
    else match aluTag f (x.tagG (fA w)) (x.tagG (fB w)) (x.tagG (fD w)) with
      | none => .exc cTagged 0
      | some t => retG c x s (fD w) v t

/-- DIVU, REMU, DIV, REM (R105, R106). -/
def divOp (f : Nat) (a b : W64) : W64 :=
  if f = 0x030 then (if b = 0 then BitVec.allOnes 64 else a / b)
  else if f = 0x031 then (if b = 0 then a else a % b)
  else if f = 0x032 then (if b = 0 then BitVec.allOnes 64 else BitVec.ofInt 64 (a.toInt.tdiv b.toInt))
  else (if b = 0 then a else BitVec.ofInt 64 (a.toInt.tmod b.toInt))

def bodyDivide (c : Nat) (w : W32) (x : Core) (s : State) : IRes :=
  if shareRead x [fA w, fB w] then .exc cTagged 0
  else retG c x s (fD w) (divOp (fFunct w) (x.rg (fA w)) (x.rg (fB w))) (mixTag [x.tagG (fA w), x.tagG (fB w)])

/-- ADDI, ANDI, ORI, XORI, SLTI, SLTIU, by opcode (R106). -/
def immOp (op : Nat) (a : W64) (w : W32) : W64 :=
  match op with
  | 0x02 => a + sImm w
  | 0x03 => a &&& zImm w
  | 0x04 => a ||| zImm w
  | 0x05 => a ^^^ zImm w
  | 0x06 => if a.slt (sImm w) then 1 else 0
  | _ => if a.ult (sImm w) then 1 else 0

def bodyImmArith (c : Nat) (w : W32) (x : Core) (s : State) : IRes :=
  if shareRead x [fA w] then .exc cTagged 0
  else retG c x s (fD w) (immOp (opcode w) (x.rg (fA w)) w)
    (if opcode w = 0x05 then xorTag [x.tagG (fA w)] else mixTag [x.tagG (fA w)])

/-- SHI: bits 15–8 select SLL, SRL, SRA or ROR, bits 7–6 are zero, bits 5–0 the amount (R104). -/
def shiOp (sel n : Nat) (a : W64) : Option W64 :=
  match sel with
  | 0 => some (a <<< n)
  | 1 => some (a >>> n)
  | 2 => some (a.sshiftRight n)
  | 3 => some (a.rotateRight n)
  | _ => none

def bodyShi (c : Nat) (w : W32) (x : Core) (s : State) : IRes :=
  if fld w 6 2 ≠ 0 then .exc cIllegal 0
  else match shiOp (fld w 8 8) (fld w 0 6) (x.rg (fA w)) with
    | none => .exc cIllegal 0
    | some v => if shareRead x [fA w] then .exc cTagged 0 else retG c x s (fD w) v (mixTag [x.tagG (fA w)])

/-- LIZ (R106): bits 20–18 are zero (R103). -/
def bodyLiz (c : Nat) (w : W32) (x : Core) (s : State) : IRes :=
  if fld w 18 3 ≠ 0 then .exc cIllegal 0
  else retG c x s (fD w) (zImm w <<< (16 * fld w 16 2)) .pub

/-- LIK (R106): a partial write, so the old destination is a source (R178). -/
def bodyLik (c : Nat) (w : W32) (x : Core) (s : State) : IRes :=
  if fld w 18 3 ≠ 0 then .exc cIllegal 0
  else if shareRead x [fD w] then .exc cTagged 0
  else
    let hw := 16 * fld w 16 2
    let keep := x.rg (fD w) &&& ~~~((0xFFFF : W64) <<< hw)
    retG c x s (fD w) (keep ||| (zImm w <<< hw)) (mixTag [x.tagG (fD w)])

/-- Format B: a in 25–21, b in 20–16 (R103). Target: own address plus 4 × sext(imm16) (R110). -/
def bodyBranch (w : W32) (x : Core) (s : State) : IRes :=
  let a := fD w
  let b := fA w
  if x.tagG a ≠ .pub ∨ x.tagG b ≠ .pub then .exc cTagged 0
  else if branchTaken (opcode w - 0x20) (x.rg a) (x.rg b) then .ok s (x.pc + 4 * sImm w)
  else .ok s (x.pc + 4)

/-- Under COMPAT, a link written to d = 0 goes to g31 (R129). -/
def linkReg (x : Core) (w : W32) : Nat := if x.compat ∧ fD w = 0 then 31 else fD w

def bodyJmpl (c : Nat) (w : W32) (x : Core) (s : State) : IRes :=
  .ok (setCore c (x.wg (linkReg x w) (x.pc + 4) .pub) s) (x.pc + 4 * sext64 (fld w 0 21) 21)

def bodyJmplr (c : Nat) (w : W32) (x : Core) (s : State) : IRes :=
  let target := x.rg (fA w) + sImm w
  if x.tagG (fA w) ≠ .pub then .exc cTagged 0
  else if target.toNat % 4 ≠ 0 then .exc cMisaligned target
  else .ok (setCore c (x.wg (linkReg x w) (x.pc + 4) .pub) s) target

end Sys2Proof.Machine
end

