-- ==== Sys2Proof/Machine/VecMem.lean ====
section
/-!
DEFINITION. Vector loads and stores (R142, R143, R145, R150, R152) and the recording of an imprecise vector fault (R146).
An instruction accesses its elements at once; its checks stay outstanding until VECTOR_ELEMENT_CHECK records them.
-/
namespace Sys2Proof.Machine

open Sys2Proof

/-- Registers that a group moves (R142). -/
def groupRegs (g : Nat) : Nat := 2 ^ g

/-- Address of element e (counted through all registers of the group) (R142). -/
def elemAddr (w : W32) (x : Core) (u : VecUnit) (e : Nat) : W64 :=
  let bytes := ewBits (vEw w) / 8
  let base := x.rg (fA w)
  match vMode w % 4 with
  | 0 => base + BitVec.ofNat 64 (e * bytes)
  | 1 => base + BitVec.ofNat 64 e * x.rg (fB w)
  | _ => base + BitVec.ofNat 64 (elem (u.rv (fB w)) (ewBits (vEw w)) e * bytes)

/-- What the check of one element finds (R143): its place, or the cause. An element that is not aligned may lie across two
adjoining places (R152). -/
def elemCheck (s : State) (c : Nat) (compat store : Bool) (bytes : Nat) (a : W64) : Except Byte Place :=
  if a.toNat % bytes ≠ 0 ∧ compat = false then .error cVMisaligned
  else match rangePlace s c a.toNat bytes store with
    | .ok p => .ok p
    | .error _ => .error cVAccess

/-- Lanes that element e of width w occupies (R130). -/
def lanesOf (wd e : Nat) : Nat := if wd = 64 then 3 * 2 ^ (2 * e) else 2 ^ (e * wd / 32)

/-- The recorded outcome of the checks of elements es (R146). -/
def checkOf (w : W32) (pc : W64) (addr : Nat → W64) (found : Nat → Except Byte Place) (es : List Nat) : VecCheck :=
  let cnt := ewCount (vEw w)
  let bad := es.filterMap (fun e => match found e with
    | .error k => some (e, k)
    | .ok _ => none)
  match bad with
  | [] => { addr := pc, fault := none }
  | (e, k) :: _ =>
    { addr := pc
      fault := some (k, addr e, BitVec.ofNat 32
        (bad.foldl (fun m b => m ||| lanesOf (ewBits (vEw w)) (b.1 % cnt)) 0)) }

/-- Encoding rules of R142 that a body still has to check; `load` says which direction. -/
def vmLegal (w : W32) (load : Bool) : Bool :=
  let g := vGroup w
  let contiguous := vMode w = 0 ∨ vMode w = 4
  let ff := bit w 5
  decide (g ≠ 3) && decide (g = 0 ∨ (contiguous ∧ vPg w = 0)) && decide (fD w % groupRegs g = 0)
    && (!ff || (load && g == 0 && vPg w != 0))
    && (!contiguous || fB w == 0)
    && (vMode w % 4 != 2 || 2 ≤ vEw w)

/-- Base, stride, index register or governing predicate tagged (R145). -/
def vmTagged (w : W32) (x : Core) (u : VecUnit) : Bool :=
  x.tagG (fA w) != .pub || u.tagP (vPg w)
    || (vMode w % 4 == 1 && x.tagG (fB w) != .pub) || (vMode w % 4 == 2 && u.tagV (fB w) != .pub)

/-- The bytes of one element's place, as a number, and the tag over its lines. -/
def elemRead (s : State) (p : Place) (bytes : Nat) : Nat := natOf (readBytes s p bytes)

/-- A vector load (R142, R143, R146) or first-fault load (R150). -/
def bodyVload (c : Nat) (w : W32) (x : Core) (s : State) : IRes :=
  let y := corex s c
  let u := y.vec
  let wd := ewBits (vEw w)
  let bytes := wd / 8
  let cnt := ewCount (vEw w)
  let nreg := groupRegs (vGroup w)
  let pg := u.rp (vPg w)
  let ff := bit w 5
  if vmLegal w true = false then .exc cIllegal 0
  else if vmTagged w x u then .exc cTagged 0
  else
    let active := (List.range (nreg * cnt)).filter (fun e => bit pg (e % cnt))
    let addr := elemAddr w x u
    let found (e : Nat) := elemCheck s c x.compat false bytes (addr e)
    let good (e : Nat) : Bool := match found e with
      | .ok _ => true
      | .error _ => false
    let loaded := if ff then active.takeWhile good else active.filter good
    let value (e : Nat) : Nat := match found e with
      | .ok p => elemRead s p bytes
      | .error _ => 0
    let tags (r : Nat) : List Tag :=
      ((loaded.filter (fun e => e / cnt == r)).map (fun e => match found e with
        | .ok p => lineTags s p bytes
        | .error _ => [])).flatten
        ++ (if (loaded.filter (fun e => e / cnt == r)).length = cnt then [] else [u.tagV (fD w + r)])
    let newTags := (List.range nreg).map (fun r => joinAll (tags r))
    -- an element left unwritten reads the old destination, which may not be a share (R178, R179)
    let readsShare : Bool := (List.range nreg).any (fun r =>
      (loaded.filter (fun e => e / cnt == r)).length != cnt && (u.tagV (fD w + r)).isShare)
    if readsShare || newTags.any Option.isNone then .exc cTagged 0
    else
      let u' := (List.range nreg).foldl (fun (v : VecUnit) r =>
        v.wv (fD w + r)
          (ofElems 1024 wd cnt (fun e =>
            if loaded.contains (r * cnt + e) then value (r * cnt + e) else elem (u.rv (fD w + r)) wd e))
          ((joinAll (tags r)).getD .secret)) u
      let chk := if ff then { addr := x.pc, fault := none } else checkOf w x.pc addr found active
      let u' := { u' with checks := u'.checks ++ [chk] }
      let u' := if ff ∧ loaded.length < active.length then u'.wp (vPg w) (predOf cnt (fun e => loaded.contains e)) false
        else u'
      .ok (setVec c u' s) (x.pc + 4)

/-- A line of the store is wholly covered by these byte numbers (R180). -/
def covers (keys : List Nat) (line : Nat) : Bool :=
  (List.range 64).all (fun k => keys.contains (64 * line + k))

/-- A vector store: every good active element, in ascending order, each line's tag by R180. -/
def bodyVstore (c : Nat) (w : W32) (x : Core) (s : State) : IRes :=
  let u := (corex s c).vec
  let wd := ewBits (vEw w)
  let bytes := wd / 8
  let cnt := ewCount (vEw w)
  let nreg := groupRegs (vGroup w)
  let pg := u.rp (vPg w)
  if vmLegal w false = false then .exc cIllegal 0
  else if vmTagged w x u then .exc cTagged 0
  else
    let active := (List.range (nreg * cnt)).filter (fun e => bit pg (e % cnt))
    let addr := elemAddr w x u
    let found (e : Nat) := elemCheck s c x.compat true bytes (addr e)
    let writes : List (Nat × Place) := active.filterMap (fun e => match found e with
      | .ok p => some (e, p)
      | .error _ => none)
    let dataTag (e : Nat) : Tag := u.tagV (fD w + e / cnt)
    -- every byte written with its tag, and the lines they touch
    let cells : List (Place × Tag) := (writes.map (fun q =>
      (List.range bytes).map (fun k => (q.2.add k, dataTag q.1)))).flatten
    let lineId (p : Place) : Nat := 3 * (p.key / 64) + p.wordKey % 3
    let inLine (p : Place) : List (Place × Tag) := cells.filter (fun q => lineId q.1 == lineId p)
    let firsts : List Place := ((cells.map (fun q => lineId q.1)).eraseDups).filterMap (fun l =>
      (cells.find? (fun q => lineId q.1 == l)).map (fun q => q.1))
    -- a line written whole takes the join of the data's tags, another joins them with its own (R180)
    let newTag (p : Place) : Option Tag := (inLine p).foldl (fun t q => t.bind (fun t => t.join q.2))
      (some (if covers ((inLine p).map (fun q => q.1.key)) (p.key / 64) then .pub else lineTag s p))
    let bad := firsts.any (fun p => (newTag p).isNone)
    if bad then .exc cTagged 0
    else
      let s0 := writes.foldl (fun t q => keepOld c q.2 bytes t) s
      let s1 := firsts.foldl (fun t p => setLineTag p ((newTag p).getD .secret) t) s0
      let s2 := writes.foldl (fun t q =>
        writeBytes q.2 (bytesOf (elem (u.rv (fD w + q.1 / cnt)) wd (q.1 % cnt)) bytes) t) s1
      let s2 := writes.foldl (fun t q => inTurn (c % 16) q.2 bytes s t) s2
      let u' := { u with checks := u.checks ++ [checkOf w x.pc addr found active] }
      .ok (setVec c u' s2) (x.pc + 4)

/-- The oldest outstanding checks end (R146), not while a micro-trap has saved their state (R162): with no fault pending a found fault is recorded, otherwise MULTI is set. A
fault that is recorded leaves a MULTI set before as it is (DESIGN CHOICE, assumption 107). -/
def recordCheck (c : Nat) (s : State) : State :=
  let u := (corex s c).vec
  match if (corex s c).micro.trapped then [] else u.checks with
  | [] => s
  | k :: r =>
    match k.fault with
    | none => setVec c { u with checks := r } s
    | some (cause, a, lanes) =>
      if u.pending then
        noteSet (2 ^ 31 + 2 * c) 2 (setVec c { u with checks := r, multi := true } s)
      else
        noteSet (2 ^ 31 + 2 * c + 1) (lanes.setWidth 64)
          (setVec c { u with checks := r, pending := true, cause := cause, mask := lanes, faddr := k.addr, fval := a } s)

def execVectorElementCheck (c : Nat) (s : State) : Out := .next (recordCheck c s)

end Sys2Proof.Machine
end

