-- ==== Sys2Proof/Machine/Rows.lean ====
section
/-!
DEFINITION. The rows of the instructions: a word runs as the command of its class, through the routine that serves it (R104, R119, R154–R173),
with the instruction's own meaning as what the ROM routine does.
-/
namespace Sys2Proof.Machine

open Sys2Proof

/-- The routine of the instruction's word: the instruction's own meaning, unless it passes through patch RAM (assumption 33). -/
def throughRom (c : Nat) (w : W32) (s : State) (body : Core → State → IRes) (x : Core) : IRes :=
  match microEnd c w s with
  | none => body x s
  | some r => r

/-- Run the word as the command of class k. A word of no row raises ILLEGAL_INSTRUCTION; a word of another row is not
this command's, and the command does nothing (assumption 7). -/
def runWord (k : Klass) (c : Nat) (w : W32) (body : Core → State → IRes) (s : State) : State :=
  if klass w = .illegal ∨ (c = mgmtCore ∧ isVector w) then
    issue c (isBlockEnd w) (throughRom c w s (fun _ _ => .exc cIllegal 0)) s
  else if klass w = k then issue c (isBlockEnd w) (throughRom c w s body) s
  else s

/-! ### Scalar instructions (R105–R110) -/

def execRegArith (c : Nat) (w : W32) (s : State) : Out := .next (runWord .regArith c w (bodyRegArith c w) s)
def execDivide (c : Nat) (w : W32) (s : State) : Out := .next (runWord .divide c w (bodyDivide c w) s)
def execImmArith (c : Nat) (w : W32) (s : State) : Out := .next (runWord .immArith c w (bodyImmArith c w) s)
def execShi (c : Nat) (w : W32) (s : State) : Out := .next (runWord .shi c w (bodyShi c w) s)
def execLiz (c : Nat) (w : W32) (s : State) : Out := .next (runWord .liz c w (bodyLiz c w) s)
def execLik (c : Nat) (w : W32) (s : State) : Out := .next (runWord .lik c w (bodyLik c w) s)
def execBranch (c : Nat) (w : W32) (s : State) : Out := .next (runWord .branch c w (bodyBranch w) s)
def execJmpl (c : Nat) (w : W32) (s : State) : Out := .next (runWord .jmpl c w (bodyJmpl c w) s)
def execJmplr (c : Nat) (w : W32) (s : State) : Out := .next (runWord .jmplr c w (bodyJmplr c w) s)

/-! ### Vector arithmetic and predicates (R136–R141) -/

def execVecAlu (c : Nat) (w : W32) (s : State) : Out := .next (runWord .vecAlu c w (bodyVecAlu c w) s)
def execVecMod (c : Nat) (w : W32) (s : State) : Out := .next (runWord .vecMod c w (bodyVecMod c w) s)
def execVecReduce (c : Nat) (w : W32) (s : State) : Out := .next (runWord .vecReduce c w (bodyVecReduce c w) s)
def execVecGf (c : Nat) (w : W32) (s : State) : Out := .next (runWord .vecGf c w (bodyVecGf c w) s)
def execVecPred (c : Nat) (w : W32) (s : State) : Out := .next (runWord .vecPred c w (bodyVecPred c w) s)
def execVfence (c : Nat) (w : W32) (s : State) : Out := .next (runWord .vfence c w (bodyVfence w) s)

/-! ### Share triples (R140, R183–R186) -/

/-- The triple instruction is at issue and waits for randomness. -/
def waitsForRnd (k : Klass) (c : Nat) (w : W32) (s : State) : Bool :=
  let x := core s c
  klass w == k && c != mgmtCore && mayIssue s c && x.pc.toNat % 4 == 0 && fetchable s c x.pc.toNat && !fetchReread s c
    && !fetchHeld s c x.pc.toNat
    && (match throughRom c w s (bodyTriple k c w) x with
      | .stall _ => true
      | _ => false)

/-- A triple instruction that waits for randomness notes since when (R186, R188). -/
def noteRndWait (c : Nat) (s : State) : State :=
  let y := corex s c
  setCorex c { y with rndWait := some (y.rndWait.getD (s.time.ticks, false)) } s

def runTriple (k : Klass) (c : Nat) (w : W32) (s : State) : Out :=
  let t := runWord k c w (bodyTriple k c w) s
  .next (if waitsForRnd k c w s then noteRndWait c t else t)

def execVsxor (c : Nat) (w : W32) (s : State) : Out := runTriple .vsxor c w s
def execVsand (c : Nat) (w : W32) (s : State) : Out := runTriple .vsand c w s
def execVsadd (c : Nat) (w : W32) (s : State) : Out := runTriple .vsadd c w s
def execVsmmul (c : Nat) (w : W32) (s : State) : Out := runTriple .vsmmul c w s
def execVsref (c : Nat) (w : W32) (s : State) : Out := runTriple .vsref c w s
def execVsa2b (c : Nat) (w : W32) (s : State) : Out := runTriple .vsa2b c w s
def execVsb2a (c : Nat) (w : W32) (s : State) : Out := runTriple .vsb2a c w s

/-! ### Vector memory (R142–R152) -/

def execVld (c : Nat) (w : W32) (s : State) : Out := .next (runWord .vld c w (bodyVload c w) s)
def execVlds (c : Nat) (w : W32) (s : State) : Out := .next (runWord .vlds c w (bodyVload c w) s)
def execVldx (c : Nat) (w : W32) (s : State) : Out := .next (runWord .vldx c w (bodyVload c w) s)
def execVst (c : Nat) (w : W32) (s : State) : Out := .next (runWord .vst c w (bodyVstore c w) s)
def execVsts (c : Nat) (w : W32) (s : State) : Out := .next (runWord .vsts c w (bodyVstore c w) s)
def execVstx (c : Nat) (w : W32) (s : State) : Out := .next (runWord .vstx c w (bodyVstore c w) s)
def execFirstFaultLoad (c : Nat) (w : W32) (s : State) : Out := .next (runWord .firstFault c w (bodyVload c w) s)

/-! ### CSRs (R117) -/

/-- CSRR (R117). -/
def execCsrr (c : Nat) (w : W32) (s : State) : Out := .next (runWord .csrr c w (bodyCsrr c w) s)
/-- CSRW (R117). -/
def execCsrw (c : Nat) (w : W32) (s : State) : Out := .next (runWord .csrw c w (bodyCsrWrite .write c w) s)
/-- CSRS (R117). -/
def execCsrs (c : Nat) (w : W32) (s : State) : Out := .next (runWord .csrs c w (bodyCsrWrite .set c w) s)
/-- CSRC (R117). -/
def execCsrc (c : Nat) (w : W32) (s : State) : Out := .next (runWord .csrc c w (bodyCsrWrite .clear c w) s)

/-! ### Loads and stores (R108, R129) -/

/-- LOAD: LDB, LDH, LDW, LDD, LDBU, LDHU, LDWU. -/
def execLoad (c : Nat) (w : W32) (s : State) : Out := .next (runWord .load c w (bodyLoad c w) s)
/-- STORE: STB, STH, STW, STD. -/
def execStore (c : Nat) (w : W32) (s : State) : Out := .next (runWord .store c w (bodyStore c w) s)
/-- LDM under COMPAT; illegal otherwise. -/
def execLdm (c : Nat) (w : W32) (s : State) : Out := .next (runWord .ldm c w (bodyLdm c w) s)
/-- STM under COMPAT; illegal otherwise. -/
def execStm (c : Nat) (w : W32) (s : State) : Out := .next (runWord .stm c w (bodyStm c w) s)

/-! ### Opcode 0x30 (R111) -/

def execExit (c : Nat) (w : W32) (s : State) : Out := .next (runWord .exit c w (bodyExit c w) s)
def execWait (c : Nat) (w : W32) (s : State) : Out := .next (runWord .wait c w (bodyWait c) s)
/-- FENCE: every earlier store is visible to other cores, engines and DMA (R109). -/
def execFence (c : Nat) (w : W32) (s : State) : Out := .next (runWord .fence c w (fun x s => .ok (fenced c s) (x.pc + 4)) s)
def execTret (c : Nat) (w : W32) (s : State) : Out := .next (runWord .tret c w (bodyTret c) s)
/-- BRK raises BREAK. -/
def execBrk (c : Nat) (w : W32) (s : State) : Out := .next (runWord .brk c w (fun _ _ => .exc cBreak 0) s)
def execIret (c : Nat) (w : W32) (s : State) : Out := .next (runWord .iret c w (fun _ s => bodyIret c s) s)
def execKeyget (c : Nat) (w : W32) (s : State) : Out := .next (runWord .keyget c w (bodyKeyget c w) s)
def execFormget (c : Nat) (w : W32) (s : State) : Out := .next (runWord .formget c w (bodyFormget c w) s)
def execFormput (c : Nat) (w : W32) (s : State) : Out := .next (runWord .formput c w (bodyFormput c w) s)

end Sys2Proof.Machine
end

