-- ==== Sys2Proof/Machine/Dispatch.lean ====
section
/-!
DEFINITION. One arm per command: the meaning it calls, or its rejection by name.
-/
namespace Sys2Proof.Machine

open Sys2Proof

def exec (i : Instr) (s : State) : Host.Outcome State Fault Refusal :=
  match i with
  | .registerWrite bar off data => Sys2Proof.Machine.execRegisterWrite bar off data s
  | .rcRegisterRead bar off bytes => Sys2Proof.Machine.execRcRegisterRead bar off bytes s
  | .flitReceive unit xfer flit f => Sys2Proof.Machine.execFlitReceive unit xfer flit f s
  | .creditReturn src dst => Sys2Proof.Machine.execCreditReturn src dst s
  | .transferDone xfer => Sys2Proof.Machine.execTransferDone xfer s
  | .memoryParityError mem line held read => Sys2Proof.Machine.execMemoryParityError mem line held read s
  | .rereadComplete mem line found => Sys2Proof.Machine.execRereadComplete mem line found s
  | .actStoreLineRewrite ring line bytes => Sys2Proof.Machine.execActStoreLineRewrite ring line bytes s
  | .d3hotEnter => Sys2Proof.Machine.execD3hotEnter s
  | .d0Return => Sys2Proof.Machine.execD0Return s
  | .instanceConfigWrite iid off data => Sys2Proof.Machine.execInstanceConfigWrite iid off data s
  | .itShareWrite iid data => Sys2Proof.Machine.execItShareWrite iid data s
  | .itCeilingWrite iid data => Sys2Proof.Machine.execItCeilingWrite iid data s
  | .activate iid => Sys2Proof.Machine.execActivate iid s
  | .stop iid => Sys2Proof.Machine.execStop iid s
  | .cancel iid => Sys2Proof.Machine.execCancel iid s
  | .resume iid => Sys2Proof.Machine.execResume iid s
  | .instReset iid => Sys2Proof.Machine.execInstReset iid s
  | .resetComplete iid => Sys2Proof.Machine.execResetComplete iid s
  | .remove iid => Sys2Proof.Machine.execRemove iid s
  | .removeComplete iid => Sys2Proof.Machine.execRemoveComplete iid s
  | .mbSend iid => Sys2Proof.Machine.execMbSend iid s
  | .mbAck iid => Sys2Proof.Machine.execMbAck iid s
  | .mbxSend iid => Sys2Proof.Machine.execSend iid s
  | .mbxAck iid => Sys2Proof.Machine.execAck iid s
  | .sqDoorbell iid data => Sys2Proof.Machine.execSqDoorbell iid data s
  | .cqDoorbell iid data => Sys2Proof.Machine.execCqDoorbell iid data s
  | .ticketFetch iid => Sys2Proof.Machine.execTicketFetch iid s
  | .ticketReadCompletion iid failed tickets => Sys2Proof.Machine.execTicketReadCompletion iid failed tickets s
  | .completionTimeout ref late => Sys2Proof.Machine.execCompletionTimeout ref late s
  | .hostReadCompletion ref failed data => Sys2Proof.Machine.execHostReadCompletion ref failed data s
  | .inlineGo iid => Sys2Proof.Machine.execInlineGo iid s
  | .inlineCopyDone iid => Sys2Proof.Machine.execInlineCopyDone iid s
  | .abortStart iid tagHi => Sys2Proof.Machine.execAbortStart iid tagHi s
  | .abortDone iid => Sys2Proof.Machine.execAbortDone iid s
  | .ticketEntry tid => Sys2Proof.Machine.execTicketEntry tid s
  | .entitlementRecompute => Sys2Proof.Machine.execEntitlementRecompute s
  | .deadlineExpiry tid => Sys2Proof.Machine.execDeadlineExpiry tid s
  | .dispatchPass base => Sys2Proof.Machine.execDispatchPass base s
  | .copyValid ring handle kind => Sys2Proof.Machine.execCopyValid ring handle kind s
  | .copyFreed ring handle kind => Sys2Proof.Machine.execCopyFreed ring handle kind s
  | .shareEpochBoundary => Sys2Proof.Machine.execShareEpochBoundary s
  | .epochNow => Sys2Proof.Machine.execEpochNow s
  | .commit core => Sys2Proof.Machine.execCommit core s
  | .regArith core word => Sys2Proof.Machine.execRegArith core word s
  | .divide core word => Sys2Proof.Machine.execDivide core word s
  | .immArith core word => Sys2Proof.Machine.execImmArith core word s
  | .shi core word => Sys2Proof.Machine.execShi core word s
  | .liz core word => Sys2Proof.Machine.execLiz core word s
  | .lik core word => Sys2Proof.Machine.execLik core word s
  | .load core word => Sys2Proof.Machine.execLoad core word s
  | .store core word => Sys2Proof.Machine.execStore core word s
  | .ldm core word => Sys2Proof.Machine.execLdm core word s
  | .stm core word => Sys2Proof.Machine.execStm core word s
  | .branch core word => Sys2Proof.Machine.execBranch core word s
  | .jmpl core word => Sys2Proof.Machine.execJmpl core word s
  | .jmplr core word => Sys2Proof.Machine.execJmplr core word s
  | .csrr core word => Sys2Proof.Machine.execCsrr core word s
  | .csrw core word => Sys2Proof.Machine.execCsrw core word s
  | .csrs core word => Sys2Proof.Machine.execCsrs core word s
  | .csrc core word => Sys2Proof.Machine.execCsrc core word s
  | .exit core word => Sys2Proof.Machine.execExit core word s
  | .wait core word => Sys2Proof.Machine.execWait core word s
  | .fence core word => Sys2Proof.Machine.execFence core word s
  | .tret core word => Sys2Proof.Machine.execTret core word s
  | .brk core word => Sys2Proof.Machine.execBrk core word s
  | .iret core word => Sys2Proof.Machine.execIret core word s
  | .keyget core word => Sys2Proof.Machine.execKeyget core word s
  | .formget core word => Sys2Proof.Machine.execFormget core word s
  | .formput core word => Sys2Proof.Machine.execFormput core word s
  | .mgmtInterrupt block => Sys2Proof.Machine.execMgmtInterrupt block s
  | .dmaStart core ctrl => Sys2Proof.Machine.execDmaStart core ctrl s
  | .dmaDone core => Sys2Proof.Machine.execDmaDone core s
  | .actLoad => Sys2Proof.Machine.execActLoad s
  | .unload act => Sys2Proof.Machine.execUnload act s
  | .actLoadDone rootPermitted verifies place => Sys2Proof.Machine.execActLoadDone rootPermitted verifies place s
  | .vecAlu core word => Sys2Proof.Machine.execVecAlu core word s
  | .vecMod core word => Sys2Proof.Machine.execVecMod core word s
  | .vecReduce core word => Sys2Proof.Machine.execVecReduce core word s
  | .vecGf core word => Sys2Proof.Machine.execVecGf core word s
  | .vsxor core word => Sys2Proof.Machine.execVsxor core word s
  | .vsand core word => Sys2Proof.Machine.execVsand core word s
  | .vsadd core word => Sys2Proof.Machine.execVsadd core word s
  | .vsmmul core word => Sys2Proof.Machine.execVsmmul core word s
  | .vsref core word => Sys2Proof.Machine.execVsref core word s
  | .vsa2b core word => Sys2Proof.Machine.execVsa2b core word s
  | .vsb2a core word => Sys2Proof.Machine.execVsb2a core word s
  | .vecPred core word => Sys2Proof.Machine.execVecPred core word s
  | .vfence core word => Sys2Proof.Machine.execVfence core word s
  | .vld core word => Sys2Proof.Machine.execVld core word s
  | .vlds core word => Sys2Proof.Machine.execVlds core word s
  | .vldx core word => Sys2Proof.Machine.execVldx core word s
  | .vst core word => Sys2Proof.Machine.execVst core word s
  | .vsts core word => Sys2Proof.Machine.execVsts core word s
  | .vstx core word => Sys2Proof.Machine.execVstx core word s
  | .firstFaultLoad core word => Sys2Proof.Machine.execFirstFaultLoad core word s
  | .vectorElementCheck core => Sys2Proof.Machine.execVectorElementCheck core s
  | .patchLoad keyFound verifies => Sys2Proof.Machine.execPatchLoad keyFound verifies s
  | .revert => Sys2Proof.Machine.execRevert s
  | .patchBroadcast => Sys2Proof.Machine.execPatchBroadcast s
  | .mrgSeedRequest ring stream => Sys2Proof.Machine.execMrgSeedRequest ring stream s
  | .mrgSeedArrival ring stream => Sys2Proof.Machine.execMrgSeedArrival ring stream s
  | .mrgInstanceStop ring stream => Sys2Proof.Machine.execMrgInstanceStop ring stream s
  | .randomnessWaitNotice core => Sys2Proof.Machine.execRandomnessWaitNotice core s
  | .dclGo core value => Sys2Proof.Machine.execDclGo core value s
  | .dclReleaseDone core => Sys2Proof.Machine.execDclReleaseDone core s
  | .heInit core engine value => Sys2Proof.Machine.execHeInit core engine value s
  | .heAbsorb core engine value => Sys2Proof.Machine.execHeAbsorb core engine value s
  | .heFinal core engine value => Sys2Proof.Machine.execHeFinal core engine value s
  | .heSqueeze core engine value => Sys2Proof.Machine.execHeSqueeze core engine value s
  | .heHash core engine value => Sys2Proof.Machine.execHeHash core engine value s
  | .heCopy core engine value => Sys2Proof.Machine.execHeCopy core engine value s
  | .heRandom core engine value => Sys2Proof.Machine.execHeRandom core engine value s
  | .heCmdDone core engine => Sys2Proof.Machine.execHeCmdDone core engine s
  | .meClaim core window value => Sys2Proof.Machine.execMeClaim core window value s
  | .meClaimGrant ring engine => Sys2Proof.Machine.execMeClaimGrant ring engine s
  | .meRelease core window value => Sys2Proof.Machine.execMeRelease core window value s
  | .meScrubDone ring engine => Sys2Proof.Machine.execMeScrubDone ring engine s
  | .meLoad core window value => Sys2Proof.Machine.execMeLoad core window value s
  | .meStore core window value => Sys2Proof.Machine.execMeStore core window value s
  | .meZero core window value => Sys2Proof.Machine.execMeZero core window value s
  | .aclr core window value => Sys2Proof.Machine.execAclr core window value s
  | .aload core window value => Sys2Proof.Machine.execAload core window value s
  | .astore core window value => Sys2Proof.Machine.execAstore core window value s
  | .ashr core window value => Sys2Proof.Machine.execAshr core window value s
  | .meMac core window value => Sys2Proof.Machine.execMeMac core window value s
  | .macl core window value => Sys2Proof.Machine.execMacl core window value s
  | .mrow core window value => Sys2Proof.Machine.execMrow core window value s
  | .meCmdDone core window => Sys2Proof.Machine.execMeCmdDone core window s
  | .ldkey core engine value => Sys2Proof.Machine.execLdkey core engine value s
  | .clrkey core engine value => Sys2Proof.Machine.execClrkey core engine value s
  | .derive core engine value => Sys2Proof.Machine.execDerive core engine value s
  | .enc core engine value => Sys2Proof.Machine.execEnc core engine value s
  | .dec core engine value => Sys2Proof.Machine.execDec core engine value s
  | .bcMac core engine value => Sys2Proof.Machine.execBcMac core engine value s
  | .pindec core engine value => Sys2Proof.Machine.execPindec core engine value s
  | .pinfmt core engine value => Sys2Proof.Machine.execPinfmt core engine value s
  | .pinenc core engine value => Sys2Proof.Machine.execPinenc core engine value s
  | .wrap core engine value => Sys2Proof.Machine.execWrap core engine value s
  | .unwrap core engine value => Sys2Proof.Machine.execUnwrap core engine value s
  | .bcCmdDone core engine => Sys2Proof.Machine.execBcCmdDone core engine s
  | .keyRequest core others => Sys2Proof.Machine.execKeyRequest core others s
  | .keyDeliveryComplete core => Sys2Proof.Machine.execKeyDeliveryComplete core s
  | .keyFillDone handle => Sys2Proof.Machine.execKeyFillDone handle s
  | .keyScrubDone handle => Sys2Proof.Machine.execKeyScrubDone handle s
  | .sweep => Sys2Proof.Machine.execSweep s
  | .ksDomainWrite iid k data => Sys2Proof.Machine.execKsDomainWrite iid k data s
  | .cerOpen => Sys2Proof.Machine.execCerOpen s
  | .component => Sys2Proof.Machine.execComponent s
  | .componentDone => Sys2Proof.Machine.execComponentDone s
  | .cerClose => Sys2Proof.Machine.execCerClose s
  | .cerCancel => Sys2Proof.Machine.execCerCancel s
  | .cerResume => Sys2Proof.Machine.execCerResume s
  | .portEnable port data => Sys2Proof.Machine.execPortEnable port data s
  | .portDisable port data => Sys2Proof.Machine.execPortDisable port data s
  | .linkRestart port => Sys2Proof.Machine.execLinkRestart port s
  | .linkUp port => Sys2Proof.Machine.execLinkUp port s
  | .linkDown port receiving => Sys2Proof.Machine.execLinkDown port receiving s
  | .frameReceive port frame found => Sys2Proof.Machine.execFrameReceive port frame found s
  | .dadTimeout port => Sys2Proof.Machine.execDadTimeout port s
  | .neighbourRetry port addr => Sys2Proof.Machine.execNeighbourRetry port addr s
  | .neighbourResolveFail port addr => Sys2Proof.Machine.execNeighbourResolveFail port addr s
  | .frameTransmit port firmware => Sys2Proof.Machine.execFrameTransmit port firmware s
  | .txtsPop port => Sys2Proof.Machine.execTxtsPop port s
  | .dolidInit port => Sys2Proof.Machine.execDolidInit port s
  | .dolidRequest port sid => Sys2Proof.Machine.execDolidRequest port sid s
  | .dolidAbort port sid => Sys2Proof.Machine.execDolidAbort port sid s
  | .dolidClose port sid => Sys2Proof.Machine.execDolidClose port sid s
  | .sessionIdleTimeout sid => Sys2Proof.Machine.execSessionIdleTimeout sid s
  | .cookieEpoch => Sys2Proof.Machine.execCookieEpoch s
  | .cookieDrawRetry => Sys2Proof.Machine.execCookieDrawRetry s
  | .txidHoldExpiry iid txid => Sys2Proof.Machine.execTxidHoldExpiry iid txid s
  | .peerRead data => Sys2Proof.Machine.execPeerRead data s
  | .peerWrite data => Sys2Proof.Machine.execPeerWrite data s
  | .peerClear data => Sys2Proof.Machine.execPeerClear data s
  | .gloveRefill => Sys2Proof.Machine.execGloveRefill s
  | .sourceSelect data => Sys2Proof.Machine.execSourceSelect data s
  | .ntSet data => Sys2Proof.Machine.execNtSet data s
  | .apply => Sys2Proof.Machine.execApply s
  | .slewDone => Sys2Proof.Machine.execSlewDone s
  | .ppsEdge => Sys2Proof.Machine.execPpsEdge s
  | .holdoverTimeout => Sys2Proof.Machine.execHoldoverTimeout s
  | .scheduleEntryWrite k data => Sys2Proof.Machine.execScheduleEntryWrite k data s
  | .scheduleFire k => Sys2Proof.Machine.execScheduleFire k s
  | .pulseEnd k => Sys2Proof.Machine.execPulseEnd k s
  | .sealNow => Sys2Proof.Machine.execSealNow s
  | .receiptHash => Sys2Proof.Machine.execReceiptHash s
  | .epochRootsDone => Sys2Proof.Machine.execEpochRootsDone s
  | .sealTicketEnd => Sys2Proof.Machine.execSealTicketEnd s
  | .sealCosignRetry => Sys2Proof.Machine.execSealCosignRetry s
  | .sealRecordWrite => Sys2Proof.Machine.execSealRecordWrite s
  | .audRingTailWrite data => Sys2Proof.Machine.execAudRingTailWrite data s
  | .clockGateClose unit => Sys2Proof.Machine.execClockGateClose unit s
  | .clockSwitch domain => Sys2Proof.Machine.execClockSwitch domain s
  | .frozenDomainTrip domain => Sys2Proof.Machine.execFrozenDomainTrip domain s
  | .pllTrip pll why => Sys2Proof.Machine.execPllTrip pll why s
  | .tioMonitorTrip why => Sys2Proof.Machine.execTioMonitorTrip why s
  | .aonMonitorTrip why => Sys2Proof.Machine.execAonMonitorTrip why s
  | .ref10Loss => Sys2Proof.Machine.execRef10Loss s
  | .refclkLoss => Sys2Proof.Machine.execRefclkLoss s
  | .pllLock pll => Sys2Proof.Machine.execPllLock pll s
  | .recoveryAttempt domain => Sys2Proof.Machine.execRecoveryAttempt domain s
  | .recoveryHoldDone domain => Sys2Proof.Machine.execRecoveryHoldDone domain s
  | .clkRecover data => Sys2Proof.Machine.execClkRecover data s
  | .tioTrimWrite data => Sys2Proof.Machine.execTioTrimWrite data s
  | .trimGate counted => Sys2Proof.Machine.execTrimGate counted s
  | .trimPtpStep => Sys2Proof.Machine.execTrimPtpStep s
  | .cardInsert slot => Sys2Proof.Machine.execCardInsert slot s
  | .cardRemove slot => Sys2Proof.Machine.execCardRemove slot s
  | .hcActivate slot => Sys2Proof.Machine.execHcActivate slot s
  | .hcDeactivate slot => Sys2Proof.Machine.execHcDeactivate slot s
  | .exchange slot => Sys2Proof.Machine.execExchange slot s
  | .resynch slot => Sys2Proof.Machine.execResynch slot s
  | .activationTimer slot vccOk => Sys2Proof.Machine.execActivationTimer slot vccOk s
  | .atrReceive slot atr intact => Sys2Proof.Machine.execAtrReceive slot atr intact s
  | .t1BlockReceive slot block intact verified plain => Sys2Proof.Machine.execT1BlockReceive slot block intact verified plain s
  | .t1Timeout slot => Sys2Proof.Machine.execT1Timeout slot s
  | .statusPoll slot => Sys2Proof.Machine.execStatusPoll slot s
  | .busyTimeout slot => Sys2Proof.Machine.execBusyTimeout slot s
  | .cardClockStop slot => Sys2Proof.Machine.execCardClockStop slot s
  | .cardVccFault slot => Sys2Proof.Machine.execCardVccFault slot s
  | .noiseWindowEnd source bits => Sys2Proof.Machine.execNoiseWindowEnd source bits s
  | .srcEnWrite data => Sys2Proof.Machine.execSrcEnWrite data s
  | .drbgKatDone passed => Sys2Proof.Machine.execDrbgKatDone passed s
  | .drbgInstantiateDone bad => Sys2Proof.Machine.execDrbgInstantiateDone bad s
  | .instantiate => Sys2Proof.Machine.execInstantiate s
  | .reseed => Sys2Proof.Machine.execReseed s
  | .reseedBlocking => Sys2Proof.Machine.execReseedBlocking s
  | .drbgReseedDone bad => Sys2Proof.Machine.execDrbgReseedDone bad s
  | .drbgRequest who => Sys2Proof.Machine.execDrbgRequest who s
  | .drbgRequestServed intact => Sys2Proof.Machine.execDrbgRequestServed intact s
  | .drbgHoldExpiry who => Sys2Proof.Machine.execDrbgHoldExpiry who s
  | .rngStatRead source => Sys2Proof.Machine.execRngStatRead source s
  | .rawCapture data => Sys2Proof.Machine.execRawCapture data s
  | .rawCaptureDone bits => Sys2Proof.Machine.execRawCaptureDone bits s
  | .faultEvent ev => Sys2Proof.Machine.execFaultEvent ev s
  | .faultRecordWrite => Sys2Proof.Machine.execFaultRecordWrite s
  | .snetNow => Sys2Proof.Machine.execSnetNow s
  | .fcModeWrite data => Sys2Proof.Machine.execFcModeWrite data s
  | .fcStickyClear k data => Sys2Proof.Machine.execFcStickyClear k data s
  | .pop => Sys2Proof.Machine.execPop s
  | .clear => Sys2Proof.Machine.execClear s
  | .fcRetire unit => Sys2Proof.Machine.execFcRetire unit s
  | .retireWindowReset => Sys2Proof.Machine.execRetireWindowReset s
  | .faultInject => Sys2Proof.Machine.execFaultInject s
  | .collectorParityError off shadowFails => Sys2Proof.Machine.execCollectorParityError off shadowFails s
  | .lockstepMismatch pc0 pc1 => Sys2Proof.Machine.execLockstepMismatch pc0 pc1 s
  | .lcTransition target dap vddOtp => Sys2Proof.Machine.execLcTransition target dap vddOtp s
  | .otpRowProgrammed readsBack => Sys2Proof.Machine.execOtpRowProgrammed readsBack s
  | .rootProgram data vddOtp => Sys2Proof.Machine.execRootProgram data vddOtp s
  | .challenge => Sys2Proof.Machine.execChallenge s
  | .verify => Sys2Proof.Machine.execVerify s
  | .verifyDone keyOk verifies => Sys2Proof.Machine.execVerifyDone keyOk verifies s
  | .dbgClose => Sys2Proof.Machine.execDbgClose s
  | .hold => Sys2Proof.Machine.execHold s
  | .release => Sys2Proof.Machine.execRelease s
  | .bypass => Sys2Proof.Machine.execBypass s
  | .idcode => Sys2Proof.Machine.execIdcode s
  | .samplePreload => Sys2Proof.Machine.execSamplePreload s
  | .extest => Sys2Proof.Machine.execExtest s
  | .clamp => Sys2Proof.Machine.execClamp s
  | .highz => Sys2Proof.Machine.execHighz s
  | .dapRead space addr => Sys2Proof.Machine.execDapRead space addr s
  | .dapWrite space addr data => Sys2Proof.Machine.execDapWrite space addr data s
  | .jtagReset => Sys2Proof.Machine.execJtagReset s
  | .powerOnReset => Sys2Proof.Machine.execPowerOnReset s
  | .powerGoodLoss => Sys2Proof.Machine.execPowerGoodLoss s
  | .perst kind => Sys2Proof.Machine.execPerst kind s
  | .warm => Sys2Proof.Machine.execWarm s
  | .warmResetEntriesDone => Sys2Proof.Machine.execWarmResetEntriesDone s
  | .ringGo ring => Sys2Proof.Machine.execRingGo ring s
  | .ringRelease ring => Sys2Proof.Machine.execRingRelease ring s
  | .bootSlotCheck dir image found => Sys2Proof.Machine.execBootSlotCheck dir image found s
  | .flashReadTimeout => Sys2Proof.Machine.execFlashReadTimeout s
  | .timecmpReached core => Sys2Proof.Machine.execTimecmpReached core s
  | .pwrgoodRise => Sys2Proof.Machine.execPwrgoodRise s
  | .tioStable => Sys2Proof.Machine.execTioStable s
  | .perstRelease => Sys2Proof.Machine.execPerstRelease s
  | .ref10Restored => Sys2Proof.Machine.execRef10Restored s
  | .refclkRestored => Sys2Proof.Machine.execRefclkRestored s
  | .lineError slot => Sys2Proof.Machine.execLineError slot s
  | .deactivationComplete slot => Sys2Proof.Machine.execDeactivationComplete slot s
  | .scrubComplete tid => Sys2Proof.Machine.execScrubComplete tid s
  | .bootCmdLoad found => Sys2Proof.Machine.execBootCmdLoad found s

end Sys2Proof.Machine
end

