-- ==== Sys2Proof/Machine/Tick.lean ====
section
/-!
DEFINITION. The tick: one hub cycle passes while no command waits (assumption 2). Network time advances, the counters take the cycle's
events, an injected event and the event of the last ring reach the collector, and the mask-randomness generators run.
-/
namespace Sys2Proof.Machine

open Sys2Proof

/-- Length of a cycle of a clock domain in sixths of a nanosecond: its PLL's (hub 4, rings 3), or TIO's 15. -/
def cycleLength (s : State) (d pll : Nat) : Nat :=
  let x : Domain := Table.get {} s.clk.dom d
  if x.clocked ∧ x.tio = false then pll else 15

/-- What belongs to one hub cycle ends with it: bits set in it (R13), its counted events, its commits, its change of NT. -/
def closeCycle (s : State) : State :=
  { turnsPass s with
    time := { s.time with
      setNow := []
      rc := s.time.rc.map (fun e => (e.1, if e.2.now = 0 then e.2 else { base := min (e.2.base + e.2.now) e.2.cap }))
      cycle := s.time.cycle + 1 }
    mem := { s.mem with wrote := [] }
    acts := { s.acts with grpWas := [] }
    ks := { s.ks with decided := false }
    rm := { s.rm with moved := false, fired := false }
    aud := { s.aud with now := [] } }

/-- Time passes; NT advances with a TIO cycle once TIO is STABLE (R356), and where NT differs from its value in the cycle before, by that or
by a step, a boundary that waits for it falls (R373). -/
def passTime (d : Nat) (s : State) : State :=
  let phase := s.time.tioPhase + d
  let s := { s with time := { s.time with ticks := s.time.ticks + d, tioPhase := phase % 15 } }
  let s := if 15 ≤ phase ∧ s.clk.tioStable then ntAdvance s else s
  if s.rm.moved then auditTrack (tryBoundary s) else s

/-- The F4 event in the hub cycle after the retirement that left no usable ring (R439). -/
def noRingEvent (s : State) : State :=
  if s.fcq.noRing then
    report { cls := .f4, source := 0x21, cause := 0x11 } { s with fcq := { s.fcq with noRing := false } }
  else s

/-! ### Mask-randomness generators (R187, R188) -/

/-- One core of the round: up to 2 words, as far as its buffer and the cycle's words allow. Beside the state: the words that remain, and
the last core served. -/
def serveCore (c : Nat) (acc : State × List (BitVec 1024) × Option Nat) : State × List (BitVec 1024) × Option Nat :=
  let y := corex acc.1 c
  let n := min (min 2 (16 - y.rndBuf.length)) acc.2.1.length
  if n = 0 ∨ (core acc.1 c).run = .inReset then acc
  else (setCorex c { y with rndBuf := y.rndBuf ++ acc.2.1.take n } acc.1, acc.2.1.drop n, some (c % 16))

/-- One ring cycle of ring r's generator: every producing instance makes a word; the cores are served in turn from the one after the last
served; what none takes is discarded. -/
def mrgCycle (r : Nat) (s : State) : State :=
  let up := (List.range 8).filter (fun k => (stream s r k).producing)
  if up = [] then s
  else
    let made := up.map (fun k => let x := stream s r k; Config.mrgWord r k x.seed x.words)
    let s := up.foldl (fun s k => setStream r k { stream s r k with words := (stream s r k).words + 1 } s) s
    let last := Table.get 15 s.mrgLast r
    let order := (List.range 16).map (fun j => 16 * r + (last + 1 + j) % 16)
    let (s, _, served) := order.foldl (fun acc c => serveCore c acc) (s, made, none)
    match served with
    | some y => { s with mrgLast := Table.set 15 s.mrgLast r y }
    | none => s

/-- A stall cycle of a core that waits for randomness (R189). -/
def countStall (c : Nat) (s : State) : State :=
  let y := corex s c
  if y.rndWait.isSome then setCorex c { y with rndStalls := y.rndStalls + 1 } s else s

/-- One ring cycle of a ring out of reset. -/
def ringCycle (r : Nat) (s : State) : State :=
  let s := { s with time := { s.time with ringCyc := Table.set 0 s.time.ringCyc r (Table.get 0 s.time.ringCyc r + 1) } }
  mrgCycle r ((List.range 16).foldl (fun s y => countStall (16 * r + y) s) s)

/-- The ring cycles that begin within d sixths of a nanosecond from time t on. -/
def ringCycles (r t d : Nat) (s : State) : State :=
  let x : Domain := Table.get {} s.clk.dom r
  if x.clocked ∧ bit s.boot.ringUp r then
    let len := cycleLength s r 3
    (List.range ((t + d) / len - t / len)).foldl (fun s _ => ringCycle r s) s
  else s

/-- One hub cycle. -/
def tick (s : State) : State :=
  let t := s.time.ticks
  let d := cycleLength s 16 4
  let s := noRingEvent (takeInjection (passTime d (ntClose (closeTrim (closeCycle (rereadsWritten s))))))
  (List.range (ringCount s)).foldl (fun s r => ringCycles r t d s) ((List.range 8).foldl (fun s p => portStage p s) s)

end Sys2Proof.Machine
end

