-- ==== Sys2Proof/Machine/Step.lean ====
section
/-!
DEFINITION. One step of the block: the command at the front of the queue, or one hub cycle where no command waits (assumption 2).
-/
namespace Sys2Proof.Machine

open Sys2Proof

/-- The state without the command at the front of its queue. -/
def State.rest (s : State) : State := { s with pending := s.pending.tail }

/-- The state with a command put at the front of its queue. -/
def State.command (s : State) (c : Instr) : State := { s with pending := c :: s.pending }

def step (s : State) : Host.Outcome State Fault Refusal :=
  match s.pending with
  | [] => .next (tick s)
  | c :: _ => exec c s.rest

/-- The command that a word spells goes to the front of the queue; no row of the table has bits, so none does. -/
def State.withFetchWord (s : State) (nbits w : Nat) : State :=
  match Sys2Proof.decodeTableWord nbits w with
  | some c => s.command c
  | none => s

end Sys2Proof.Machine
end

