-- ==== Sys2Proof/WellFormed.lean ====
section
/-!
DEFINITION. Which operands a command can carry on the larger part (KX512): every number names a unit that the part has, an access is of
a form R11 or R46 names, a list is as long as the event makes it. The machine answers every command, well-formed or not; a statement
may take this as a premise.
-/
namespace Sys2Proof

/-- Cores 16x + y, and 256 for the management pair; the commands of an act take ring cores alone. -/
def wfCore (c : Nat) : Bool := c ≤ 256
def wfRingCore (c : Nat) : Bool := c < 256
def wfRing (r : Nat) : Bool := r < 16
/-- Hash and block-cipher engines 0 and 1 of a ring; Maelhoavo windows 0–3. -/
def wfEngine (e : Nat) : Bool := e < 2
def wfWindow (k : Nat) : Bool := k < 4
def wfIid (i : Nat) : Bool := i < 512
def wfPort (p : Nat) : Bool := p < 8
def wfSlot (n : Nat) : Bool := n < 2
/-- Rings 0–15, hub 16, network 17. -/
def wfDomain (d : Nat) : Bool := d < 18
def wfSource (n : Nat) : Bool := n < 4
def wfEntry (k : Nat) : Bool := k < 256

/-- An access length that R11 or R46 names. -/
def wfLength (n : Nat) : Bool := n == 1 || n == 2 || n == 4 || n == 8 || n == 16 || n == 32 || n == 64 || n == 128 || n == 256

def Instr.wf : Instr → Bool
  | .registerWrite bar off data => (bar == 0 || bar == 2 || (8 ≤ bar && bar ≤ 10)) && wfLength data.length && off % data.length == 0
  | .rcRegisterRead bar off n => (bar == 0 || bar == 2 || (8 ≤ bar && bar ≤ 10)) && (n == 1 || n == 2 || n == 4 || n == 8) && off % n == 0
  | .creditReturn src dst => src < 17 && dst < 17
  | .actStoreLineRewrite r _ bytes => wfRing r && bytes.length == 64
  | .instanceConfigWrite i off _ => wfIid i && off < 64 && off % 4 == 0
  | .itShareWrite i _ | .itCeilingWrite i _ | .sqDoorbell i _ | .cqDoorbell i _ | .abortStart i _ => wfIid i
  | .activate i | .stop i | .cancel i | .resume i | .instReset i | .resetComplete i | .remove i | .removeComplete i
  | .mbSend i | .mbAck i | .mbxSend i | .mbxAck i | .ticketFetch i | .inlineGo i | .inlineCopyDone i | .abortDone i => wfIid i
  | .ticketReadCompletion i _ tickets => wfIid i && decide (tickets.length ≤ 64)
  | .copyValid r _ kind | .copyFreed r _ kind => wfRing r && kind < 11
  | .ksDomainWrite i k _ => wfIid i && k < 4
  | .txidHoldExpiry i _ => wfIid i
  | .commit c | .dmaDone c | .vectorElementCheck c | .randomnessWaitNotice c | .dclReleaseDone c | .keyDeliveryComplete c => wfRingCore c
  | .dmaStart c _ | .dclGo c _ | .keyRequest c _ => wfRingCore c
  | .timecmpReached c => wfCore c
  | .regArith c _ | .divide c _ | .immArith c _ | .shi c _ | .liz c _ | .lik c _ | .load c _ | .store c _ | .ldm c _ | .stm c _
  | .branch c _ | .jmpl c _ | .jmplr c _ | .csrr c _ | .csrw c _ | .csrs c _ | .csrc c _ | .exit c _ | .wait c _ | .fence c _
  | .tret c _ | .brk c _ | .iret c _ | .keyget c _ | .formget c _ | .formput c _ => wfCore c
  | .vecAlu c _ | .vecMod c _ | .vecReduce c _ | .vecGf c _ | .vsxor c _ | .vsand c _ | .vsadd c _ | .vsmmul c _ | .vsref c _
  | .vsa2b c _ | .vsb2a c _ | .vecPred c _ | .vfence c _ | .vld c _ | .vlds c _ | .vldx c _ | .vst c _ | .vsts c _ | .vstx c _
  | .firstFaultLoad c _ => wfRingCore c
  | .mgmtInterrupt block => block < 12
  | .mrgSeedRequest r k | .mrgSeedArrival r k | .mrgInstanceStop r k => wfRing r && k < 8
  | .heInit c e _ | .heAbsorb c e _ | .heFinal c e _ | .heSqueeze c e _ | .heHash c e _ | .heCopy c e _ | .heRandom c e _ =>
    wfRingCore c && wfEngine e
  | .ldkey c e _ | .clrkey c e _ | .derive c e _ | .enc c e _ | .dec c e _ | .bcMac c e _ | .pindec c e _ | .pinfmt c e _
  | .pinenc c e _ | .wrap c e _ | .unwrap c e _ => wfRingCore c && wfEngine e
  | .heCmdDone c e | .bcCmdDone c e => wfRingCore c && wfEngine e
  | .meClaim c k _ | .meRelease c k _ | .meLoad c k _ | .meStore c k _ | .meZero c k _ | .aclr c k _ | .aload c k _ | .astore c k _
  | .ashr c k _ | .meMac c k _ | .macl c k _ | .mrow c k _ => wfRingCore c && wfWindow k
  | .meCmdDone c k => wfRingCore c && wfWindow k
  | .meClaimGrant r e | .meScrubDone r e => wfRing r && wfWindow e
  | .ringGo r | .ringRelease r => wfRing r
  | .portEnable p _ | .portDisable p _ => wfPort p
  | .linkRestart p | .linkUp p | .dadTimeout p | .txtsPop p => wfPort p
  | .linkDown p _ => wfPort p
  | .frameReceive p _ _ => wfPort p
  | .neighbourRetry p _ | .neighbourResolveFail p _ => wfPort p
  | .frameTransmit p _ => wfPort p
  | .scheduleEntryWrite k _ => wfEntry k
  | .scheduleFire k | .pulseEnd k => wfEntry k
  | .clockSwitch d | .frozenDomainTrip d | .recoveryAttempt d | .recoveryHoldDone d | .pllLock d => wfDomain d
  | .pllTrip d why => wfDomain d && 2 ≤ why && why ≤ 4
  | .tioMonitorTrip why => why == 1 || why == 4 || why == 5
  | .aonMonitorTrip why => why == 1 || why == 4
  | .cardInsert n | .cardRemove n | .hcActivate n | .hcDeactivate n | .exchange n | .resynch n | .t1Timeout n | .statusPoll n
  | .busyTimeout n | .cardClockStop n | .cardVccFault n | .lineError n | .deactivationComplete n => wfSlot n
  | .activationTimer n _ => wfSlot n
  | .atrReceive n atr _ => wfSlot n && decide (atr.length ≤ 33)
  | .t1BlockReceive n block _ _ _ => wfSlot n && decide (block.length ≤ 259)
  | .noiseWindowEnd n _ => wfSource n
  | .rngStatRead n => wfSource n
  | .fcStickyClear k _ => k < 2
  | .lcTransition target _ _ => target < 8
  | .perst kind => kind < 2
  | .dapRead space addr => space < 64 && (space != 0 || addr.toNat % 4 == 0)
  | .dapWrite space addr _ => space < 64 && (space != 0 || addr.toNat % 4 == 0)
  | .memoryParityError _ line _ read => read.narrow.all (fun b => decide (1 ≤ b.1.length ∧ line.toNat % 4 + b.1.length ≤ 4))
  | .flitReceive _ _ _ _ | .transferDone _ | .rereadComplete _ _ _ | .d3hotEnter | .d0Return
  | .completionTimeout _ _ | .hostReadCompletion _ _ _ | .ticketEntry _ | .entitlementRecompute | .deadlineExpiry _
  | .dispatchPass _ | .shareEpochBoundary | .epochNow | .actLoad | .unload _ | .actLoadDone _ _ _ | .patchLoad _ _ | .revert
  | .patchBroadcast | .keyFillDone _ | .keyScrubDone _ | .sweep | .cerOpen | .component | .componentDone | .cerClose | .cerCancel
  | .cerResume | .dolidInit _ | .dolidRequest _ _ | .dolidAbort _ _ | .dolidClose _ _ | .sessionIdleTimeout _ | .cookieEpoch
  | .cookieDrawRetry | .peerRead _ | .peerWrite _ | .peerClear _ | .gloveRefill | .sourceSelect _ | .ntSet _ | .apply | .slewDone
  | .ppsEdge | .holdoverTimeout | .sealNow | .receiptHash | .epochRootsDone | .sealTicketEnd | .sealCosignRetry | .sealRecordWrite
  | .audRingTailWrite _ | .clockGateClose _ | .ref10Loss | .refclkLoss | .clkRecover _ | .tioTrimWrite _ | .trimGate _
  | .trimPtpStep | .srcEnWrite _ | .drbgKatDone _ | .drbgInstantiateDone _ | .instantiate | .reseed | .reseedBlocking
  | .drbgReseedDone _ | .drbgRequest _ | .drbgRequestServed _ | .drbgHoldExpiry _ | .rawCapture _ | .rawCaptureDone _
  | .faultEvent _ | .faultRecordWrite | .snetNow | .fcModeWrite _ | .pop | .clear | .fcRetire _ | .retireWindowReset | .faultInject
  | .collectorParityError _ _ | .lockstepMismatch _ _ | .otpRowProgrammed _ | .rootProgram _ _ | .challenge | .verify
  | .verifyDone _ _ | .dbgClose | .hold | .release | .bypass | .idcode | .samplePreload | .extest | .clamp | .highz | .jtagReset
  | .powerOnReset | .powerGoodLoss | .warm | .warmResetEntriesDone | .bootSlotCheck _ _ _ | .flashReadTimeout | .pwrgoodRise
  | .tioStable | .perstRelease | .ref10Restored | .refclkRestored | .scrubComplete _ | .bootCmdLoad _ => true

end Sys2Proof
end

