-- ==== Sys2Proof/Safety.lean ====
section
/-!
DEFINITION. The terms that statements about runs use: the device takes register writes, the device is not locked down, a core issues a
word, an access of a register is of one word.
-/
namespace Sys2Proof.Machine

open Sys2Proof

/-- Not in Lockdown (R443). -/
abbrev Live (s : State) : Prop := s.fc.lock = false

/-- Register writes from outside take effect: neither Lockdown (R443) nor SCRAPPED (R455). -/
abbrev Writable (s : State) : Prop := s.fc.lock = false ∧ s.lcs.st ≠ 4

/-- The command answers this next state. -/
abbrev Runs (c : Instr) (s t : State) : Prop := exec c s = .next t

/-- Core c issues the word w, a word of class k: it may issue, its PC is aligned and fetchable, the line is not held for a rewrite, a
block end finds no vector check outstanding and no vector fault pending, and no patch leads its routine through patch RAM. -/
abbrev Issues (k : Klass) (c : Nat) (w : W32) (s : State) : Prop :=
  klass w = k ∧ k ≠ .illegal ∧ ¬ (c = mgmtCore ∧ isVector w = true) ∧ mayIssue s c = true
    ∧ (core s c).pc.toNat % 4 = 0 ∧ fetchable s c (core s c).pc.toNat = true ∧ fetchReread s c = false
    ∧ fetchHeld s c (core s c).pc.toNat = false
    ∧ (isBlockEnd w = true → (corex s c).vec.checks = [] ∧ (corex s c).vec.pending = false)
    ∧ microEnd c w s = none

/-- The state after an instruction that completes with the rest of its effect in s', the next instruction at pc. -/
def after (c : Nat) (s s' : State) (pc : W64) : State := afterInstr c (completed c (coreNow s c) pc s')

/-- Core c issues as in `Issues`, on a ring core with no vector check outstanding or fault pending, so that an exception is taken at
once. -/
abbrev Settled (c : Nat) (s : State) : Prop := (corex s c).vec.checks = [] ∧ (corex s c).vec.pending = false

/-- A ring core at the issue of a store, with no routine waiting: what `Issues` asks, but of no word, for the rows that are an engine command's store. -/
abbrev AtIssue (c : Nat) (s : State) : Prop :=
  (c < 256 ∧ (corex s c).micro.waiting = none) ∧ mayIssue s c = true ∧ (core s c).pc.toNat % 4 = 0 ∧ fetchable s c (core s c).pc.toNat = true
    ∧ fetchReread s c = false ∧ fetchHeld s c (core s c).pc.toNat = false

/-- No register of the list holds a share. -/
abbrev NoShare (x : Core) (rs : List Nat) : Prop := ∀ r ∈ rs, (x.tagG r).isShare = false

/-- Every word of class k that meets p completes and writes only g register d, with this value and tag, before the next instruction. -/
def GWrites (mk : Nat → W32 → Instr) (k : Klass) (p : Core → W32 → Prop) (v : Core → W32 → W64) (t : Core → W32 → Tag) : Prop :=
  ∀ (s : State) (c : Nat) (w : W32), Issues k c w s → p (core s c) w →
    Runs (mk c w) s (after c s (setCore c ((core s c).wg (fD w) (v (core s c) w) (t (core s c) w)) s) ((core s c).pc + 4))

/-- Every word of class k that meets p raises the exception of this cause and value, on a core that is `Settled`. -/
def Raises (mk : Nat → W32 → Instr) (k : Klass) (p : Nat → State → W32 → Prop) (cause : Byte) (v : Core → W32 → W64) : Prop :=
  ∀ (s : State) (c : Nat) (w : W32), Issues k c w s → Settled c s → p c s w →
    Runs (mk c w) s (afterInstr c (takeTrap c cause (v (core s c) w) false s))

/-- The byte at q is none of the n bytes at p. -/
def Apart (p : Place) (n : Nat) (q : Place) : Prop :=
  match p, q with
  | .loc _ _, .ring _ _ => True
  | .loc _ _, .work _ => True
  | .ring _ _, .loc _ _ => True
  | .ring _ _, .work _ => True
  | .work _, .loc _ _ => True
  | .work _, .ring _ _ => True
  | _, _ => ∀ k, k < n → q.key ≠ (p.add k).key

/-- What an instruction of ring core c that writes only vector and predicate registers leaves alone. -/
abbrev VectorFrame (c : Nat) (s t : State) : Prop :=
  (core t c).pc = (core s c).pc + 4 ∧ (∀ r, (core t c).rg r = (core s c).rg r ∧ (core t c).tagG r = (core s c).tagG r)
    ∧ (∀ d, d ≠ c → core t d = core s d ∧ corex t d = corex s d) ∧ t.mem = s.mem ∧ t.tickets = s.tickets ∧ t.fc = s.fc
    ∧ t.fcq = s.fcq ∧ t.mgmt = s.mgmt ∧ (corex t c).dma = (corex s c).dma ∧ (corex t c).dcl = (corex s c).dcl

end Sys2Proof.Machine
end

