-- ==== Sys2Proof/Certificates/Slice0/Obligations.lean ====
section
/-!
DEFINITION. The statements for the provers, by the families of the opcode table.
-/
open Sys2Proof Sys2Proof.Machine

/-! ### Commands and their queue -/

/-- The command at the front of the queue runs, on the state with the queue's rest. -/
def Obligations.StepRunsFrontCommand : Prop :=
  ∀ (s : State) (c : Instr) (r : List Instr), s.pending = c :: r → step s = exec c { s with pending := r }

/-- No command ends in a fault or a refusal; with none waiting one hub cycle passes (assumption 2, the model's choice). -/
def Obligations.EveryStepAnswersANextState : Prop :=
  (∀ (s : State) (c : Instr), ∃ t, Runs c s t) ∧
  (∀ s : State, s.pending = [] → step s = .next (tick s))

/-! ### Instances and tenant pages (R43–R68) -/

def Obligations.InstanceConfigurationTakesEffect : Prop :=
  (∀ (s : State) (i off : Nat) (d : W32), Writable s → iidPresent s i = true →
    ((inst s i).st = .free ∨ ((inst s i).st = .stopped ∧ (inst s i).drained = true)) →
    Runs (.instanceConfigWrite i off d) s (setInst i ((inst s i).configured off d) s)) ∧
  (∀ (s : State) (i off : Nat) (d : W32), Writable s → iidPresent s i = true →
    ((inst s i).st = .active ∨ (inst s i).st = .resetting ∨ ((inst s i).st = .stopped ∧ (inst s i).drained = false)) →
    Runs (.instanceConfigWrite i off d) s (setInst i { inst s i with err := 1 } s)) ∧
  (∀ (s : State) (i : Nat) (d : W32), Writable s → iidPresent s i = true → d.toNat / 65536 ≠ 0 → d.toNat % 512 ≤ 256 →
    Runs (.itShareWrite i d) s (setInst i { inst s i with
      weight := BitVec.ofNat 16 (d.toNat / 65536), minCores := BitVec.ofNat 9 (d.toNat % 512), sharePend := true } s)) ∧
  (∀ (s : State) (i : Nat) (d : W32), Writable s → iidPresent s i = true → d.toNat / 65536 = 0 → 256 < d.toNat % 512 →
    Runs (.itShareWrite i d) s (setInst i { inst s i with err := 6 } s)) ∧
  (∀ (s : State) (i : Nat) (d : W32), Writable s → iidPresent s i = true → 1 ≤ d.toNat % 8192 → d.toNat % 8192 ≤ 4096 →
    Runs (.itCeilingWrite i d) s (setInst i { inst s i with ceiling := BitVec.ofNat 13 (d.toNat % 8192), sharePend := true } s)) ∧
  (∀ (s : State) (i : Nat) (d : W32), Writable s → iidPresent s i = true → (d.toNat % 8192 = 0 ∨ 4096 < d.toNat % 8192) →
    Runs (.itCeilingWrite i d) s (setInst i { inst s i with err := 6 } s)) ∧
  (∀ (s : State) (i : Nat), Writable s → iidPresent s i = true → (inst s i).st = .free → s.boot.stage = 5 →
    (inst s i).pasidValid = true → (∀ e ∈ s.inst, e.1 ≠ i → e.2.st ≠ .free → e.2.pasid ≠ (inst s i).pasid) →
    4 ≤ (inst s i).sqLog2.toNat → (inst s i).sqLog2.toNat ≤ (inst s i).cqLog2.toNat → (inst s i).cqLog2.toNat ≤ 12 →
    Runs (.activate i) s (setShare i { share s i with vt := 0, dispatched := 0, passedOver := false }
      (setInst i { inst s i with
        weightEff := (inst s i).weight, minCoresEff := (inst s i).minCores, ceilingEff := (inst s i).ceiling, sharePend := false,
        st := .active, err := 0, drained := false } s))) ∧
  (∀ (s : State) (i : Nat), Writable s → iidPresent s i = true → ((inst s i).st ≠ .free ∨ s.boot.stage ≠ 5) →
    Runs (.activate i) s (setInst i { inst s i with err := 1 } s)) ∧
  (∀ (s : State) (i : Nat), Writable s → iidPresent s i = true → (inst s i).st = .free → s.boot.stage = 5 →
    ((inst s i).pasidValid = false → Runs (.activate i) s (setInst i { inst s i with err := 7 } s)) ∧
    ((inst s i).pasidValid = true → (∃ e ∈ s.inst, e.1 ≠ i ∧ e.2.st ≠ .free ∧ e.2.pasid = (inst s i).pasid) →
      Runs (.activate i) s (setInst i { inst s i with err := 2 } s)))

/-- The instance commands: what each leaves of the instance, its tickets and its page. -/
def Obligations.InstancesStopResumeAndReset : Prop :=
  ((∀ (s : State) (i : Nat), Writable s → iidPresent s i = true → (inst s i).st = .active → hasWork s i = true →
     Runs (.stop i) s (setInst i { inst s i with st := .stopped, drained := false, err := 0 } s)) ∧
   (∀ (s : State) (i : Nat), Writable s → iidPresent s i = true → (inst s i).st = .active → hasWork s i = false →
     Runs (.stop i) s (attention i (setInst i { inst s i with st := .stopped, drained := true, err := 0 } s))) ∧
   (∀ (s : State) (i : Nat), Writable s → iidPresent s i = true → (inst s i).st ≠ .active →
     Runs (.stop i) s (setInst i { inst s i with err := 1 } s)) ∧
   (∀ (s : State) (i : Nat), Writable s → iidPresent s i = true → (inst s i).st = .stopped →
     Runs (.cancel i) s ((undispatched s i).foldl (fun t tid => finishQueued tid { status := 0x30 } t)
       (setInst i { inst s i with err := 0 } s))) ∧
   (∀ (s : State) (i : Nat), Writable s → iidPresent s i = true → (inst s i).st = .stopped → s.boot.stage = 5 →
     Runs (.resume i) s (setInst i { inst s i with st := .active, drained := false, err := 0 } s)) ∧
   (∀ (s : State) (i : Nat), Writable s → iidPresent s i = true → (inst s i).st ≠ .stopped →
     Runs (.cancel i) s (setInst i { inst s i with err := 1 } s) ∧ Runs (.resume i) s (setInst i { inst s i with err := 1 } s))) ∧
  ((∀ (s : State) (i : Nat), Writable s → iidPresent s i = true → ((inst s i).st = .active ∨ (inst s i).st = .stopped) →
     let u := setPage i { page s i with
         abortResult := if (page s i).abortBusy then 0x31 else (page s i).abortResult, abortAny := false }
       (setInst i { inst s i with
         st := .resetting, drained := false, err := 0, reads := (inst s i).reads.map (fun r => { r with abort := false }) } s)
     let u := { u with tickets := u.tickets.map (fun (t : Ticket) =>
       if t.iid = i ∧ t.device = false then { t with aborting := false } else t) }
     let u := (undispatched u i).foldl (fun u tid => finishQueued tid { status := 0x51 } u) u
     Runs (.instReset i) s ((onCores u i).foldl (fun u tid => stopTicket tid 0x51 u) u)) ∧
   (∀ (s : State) (i : Nat), Writable s → iidPresent s i = true →
     (((inst s i).st = .free ∨ (inst s i).st = .resetting) → Runs (.instReset i) s (setInst i { inst s i with err := 1 } s)) ∧
     (((inst s i).st ≠ .stopped ∨ (inst s i).drained = false) → Runs (.remove i) s (setInst i { inst s i with err := 1 } s))) ∧
   (∀ (s : State) (i : Nat), Live s → (inst s i).st = .resetting → (inst s i).removing = false → hasWork s i = false →
     Runs (.resetComplete i) s (attention i (setPage i { page s i with
         mbOut := [], mbIn := [], outFull := false, inFull := false, abortTag := 0, abortFor := 0, abortBusy := false, abortOverrun := false }
       (setInst i { inst s i with
         sqHead := 0, cqTail := 0, cqHead := 0, unreleased := 0, reserved := 0, st := .stopped, drained := true }
       ((s.dol.txns.filter (fun r => r.iid == i)).foldl (fun u r => dropTxn r u) s))))) ∧
   (∀ (s : State) (i : Nat), Writable s → iidPresent s i = true → (inst s i).st = .stopped → (inst s i).drained = true →
     ∃ t, Runs (.remove i) s t ∧ (inst t i).st = .resetting ∧ (inst t i).removing = true ∧ (inst t i).drained = false ∧
       (inst t i).err = 0 ∧ page t i = (page s i).mailboxCleared ∧ t.acts.acts = s.acts.acts.filter (fun a => a.iid ≠ some i) ∧
       (∀ j, j ≠ i → inst t j = inst s j ∧ page t j = page s j) ∧ t.tickets = s.tickets ∧ t.mem = s.mem) ∧
   (∀ (s : State) (i : Nat), Live s → (inst s i).removing = true →
     Runs (.removeComplete i) s (causeEarly 2 (setInst i {
         sqHead := (inst s i).sqHead, sqTail := (inst s i).sqTail, cqHead := (inst s i).cqHead, cqTail := (inst s i).cqTail,
         unreleased := (inst s i).unreleased, reserved := (inst s i).reserved, err := (inst s i).err }
       { s with ks := { s.ks with entries := s.ks.entries.filter (fun e => e.1 / 2 ^ 23 != i) } }))))

/-- The mailbox in both directions, and the two doorbells. -/
def Obligations.TenantPagesPassMessagesAndPointers : Prop :=
  ((∀ (s : State) (i : Nat), Writable s → iidPresent s i = true → ((inst s i).st = .active ∨ (inst s i).st = .stopped) →
     (page s i).outFull = false → (page s i).outAck ≠ some s.time.cycle →
     Runs (.mbxSend i) s (attention i (setPage i { page s i with outFull := true } s))) ∧
   (∀ (s : State) (i : Nat), Writable s → iidPresent s i = true → ((inst s i).st = .active ∨ (inst s i).st = .stopped) →
     ((page s i).outFull = true ∨ (page s i).outAck = some s.time.cycle) →
     Runs (.mbxSend i) s (noteSet (pgReg i 0x20) 0x20000000 (setPage i { page s i with dropped := true } s))) ∧
   (∀ (s : State) (i : Nat), Writable s → iidPresent s i = true → ((inst s i).st = .active ∨ (inst s i).st = .stopped) →
     Runs (.mbxAck i) s (setPage i { page s i with
       inFull := false, inAck := if (page s i).inFull then some s.time.cycle else (page s i).inAck } s)) ∧
   (∀ (s : State) (i : Nat), Writable s → iidPresent s i = true → ((inst s i).st = .active ∨ (inst s i).st = .stopped) →
     Runs (.mbAck i) s (setPage i { page s i with
         outFull := false, outAck := if (page s i).outFull then some s.time.cycle else (page s i).outAck }
       (setInst i { inst s i with err := 0 } s))) ∧
   (∀ (s : State) (i : Nat), Writable s → iidPresent s i = true → ((inst s i).st = .active ∨ (inst s i).st = .stopped) →
     (page s i).inFull = false → (page s i).inAck ≠ some s.time.cycle →
     Runs (.mbSend i) s ((if (inst s i).irqEn then msix (inst s i).irqVector.toNat else id)
       (setPage i { page s i with inFull := true } (setInst i { inst s i with err := 0 } s)))) ∧
   (∀ (s : State) (i : Nat), Writable s → iidPresent s i = true → ((inst s i).st = .free ∨ (inst s i).st = .resetting) →
     Runs (.mbxSend i) s s ∧ Runs (.mbxAck i) s s ∧ Runs (.mbSend i) s (setInst i { inst s i with err := 1 } s) ∧
       Runs (.mbAck i) s (setInst i { inst s i with err := 1 } s))) ∧
  ((∀ (s : State) (i : Nat) (d : W32), Writable s → iidPresent s i = true → d.toNat % 4096 < 2 ^ (inst s i).sqLog2.toNat →
     Runs (.sqDoorbell i d) s (setInst i { inst s i with sqTail := d.toNat % 4096 } s)) ∧
   (∀ (s : State) (i : Nat) (d : W32), Writable s → iidPresent s i = true → 2 ^ (inst s i).sqLog2.toNat ≤ d.toNat % 4096 →
     Runs (.sqDoorbell i d) s (ignoredWrite 0x14 (0x1000 * i) (d.setWidth 64) (some i)
       (bump (itReg i 0x38) 0 16 (setInst i { inst s i with err := 4 } s)))) ∧
   (∀ (s : State) (i : Nat) (d : W32) (n : Nat), Writable s → iidPresent s i = true →
     d.toNat % 4096 < 2 ^ (inst s i).cqLog2.toNat → (inst s i).cqHead < 2 ^ (inst s i).cqLog2.toNat → n ≤ (inst s i).unreleased →
     n < 2 ^ (inst s i).cqLog2.toNat → d.toNat % 4096 = ((inst s i).cqHead + n) % 2 ^ (inst s i).cqLog2.toNat →
     Runs (.cqDoorbell i d) s (setInst i { inst s i with
       cqHead := d.toNat % 4096, unreleased := (inst s i).unreleased - n } s)) ∧
   (∀ (s : State) (i : Nat) (d : W32), Writable s → iidPresent s i = true → 2 ^ (inst s i).cqLog2.toNat ≤ d.toNat % 4096 →
     Runs (.cqDoorbell i d) s (ignoredWrite 0x14 (0x1000 * i + 4) (d.setWidth 64) (some i)
       (bump (itReg i 0x38) 0 16 (setInst i { inst s i with err := 4 } s)))))

/-! ### Tickets (R46–R94) -/

/-- Tickets come from the submission queue or through the page, and their input from the host. -/
def Obligations.TicketsEnterTheBuffer : Prop :=
  ((∀ (s : State) (i : Nat), Live s → iidPresent s i = true → s.boot.warm = false → (inst s i).st = .active → fetchCount s i ≠ 0 →
     Runs (.ticketFetch i) s (setInst i { inst s i with
         reserved := (inst s i).reserved + fetchCount s i,
         reads := (inst s i).reads ++ [{ slot := fetchHead (inst s i), count := fetchCount s i,
                                         pool := fetchCount s i - min (fetchCount s i) (ownFree s i), since := s.time.ticks,
                                         unsent := s.pcie.d3hot }] }
       (emit (.read (some (inst s i).pasid)
         ((inst s i).sqBase + BitVec.ofNat 64 (64 * fetchHead (inst s i))) (64 * fetchCount s i)) s))) ∧
   (∀ (s : State) (i : Nat) (r : TicketRead) (q : List TicketRead) (l : List (BitVec 512)), Live s → (inst s i).reads = r :: q →
     r.void = false → (r.abort = false ∨ (page s i).abortBusy = false) →
     (inst s i).st ≠ .resetting → ∃ t, Runs (.ticketReadCompletion i [] l) s t ∧
       (inst t i).reads = q ∧ (inst t i).sqHead = (r.slot + r.count) % sqSize (inst s i) ∧
       t.nextTicket = s.nextTicket + r.count ∧ t.tickets.length = s.tickets.length + r.count ∧
       (∀ k, k < s.tickets.length → t.tickets[k]? = s.tickets[k]?) ∧
       (∀ k, k < r.count → ∃ q, t.tickets[s.tickets.length + k]? = some q ∧ q.id = s.nextTicket + k ∧ q.iid = i ∧
         q.origin = .queue ∧ q.bytes = l.getD k 0 ∧ q.phase = .entering ∧ q.pool = decide (r.count - r.pool ≤ k))) ∧
   (∀ (s : State) (i : Nat) (r : TicketRead) (q : List TicketRead) (l : List (BitVec 512)), Live s → (inst s i).reads = r :: q →
     (r.void = false → (inst s i).st = .resetting →
       Runs (.ticketReadCompletion i [] l) s (setInst i { inst s i with reserved := (inst s i).reserved - r.count, reads := q } s)) ∧
     (r.void = true →
       Runs (.ticketReadCompletion i [] l) s (checkDrained i (setInst i { inst s i with reads := q } s)))) ∧
   (∀ (s : State) (i : Nat) (f : List HostEnd) (d : List Byte),
     exec (.hostReadCompletion (.ticketRead i) f d) s = exec (.ticketReadCompletion i f (readTickets d)) s) ∧
   (∀ (s : State) (i : Nat) (r : TicketRead) (q : List TicketRead) (f : List HostEnd) (l : List (BitVec 512)), Live s →
     (inst s i).reads = r :: q → r.void = false → outcomeOf f ≠ .ok → (inst s i).st = .active →
     Runs (.ticketReadCompletion i f l) s (checkDrained i (attention i (report
         { cls := .f0, source := 0x13, cause := 0x0D, iid := BitVec.ofNat 16 i, addr := hostIova (outcomeOf f),
           detail0 := BitVec.ofNat 64 (hostDetail (outcomeOf f)) }
       (setInst i { inst s i with
           reserved := (inst s i).reserved - (inst s i).coming (fun r => r.count)
           reads := q.map (fun r => { r with void := true }), err := 5, st := .stopped }
         (noteTimeouts f s)))))) ∧
   (∀ (s : State) (i : Nat) (r : TicketRead) (q : List TicketRead) (f : List HostEnd) (a : W64), Live s → (inst s i).reads = r :: q →
     (r.unsent = false → r.since + timeoutTicks s.pcie.timeoutValue ≤ s.time.ticks →
       exec (.completionTimeout (.ticketRead i) ⟨f, a⟩) s = exec (.ticketReadCompletion i (f ++ [.timeout a]) []) s) ∧
     ((r.unsent = true ∨ s.time.ticks < r.since + timeoutTicks s.pcie.timeoutValue) →
       Runs (.completionTimeout (.ticketRead i) ⟨f, a⟩) s s)) ∧
   -- a read made void by an earlier one's failure brings nothing, and is noticed where it fails itself (R51, R59)
   (∀ (s : State) (i : Nat) (r : TicketRead) (q : List TicketRead) (f : List HostEnd) (l : List (BitVec 512)), Live s →
     (inst s i).reads = r :: q → r.void = true → outcomeOf f ≠ .ok →
     Runs (.ticketReadCompletion i f l) s (checkDrained i (report
         { cls := .f0, source := 0x13, cause := 0x0D, iid := BitVec.ofNat 16 i, addr := hostIova (outcomeOf f),
           detail0 := BitVec.ofNat 64 (hostDetail (outcomeOf f)) }
       (setInst i { inst s i with reads := q } (noteTimeouts f s))))) ∧
   -- the one outcome of several failing completions: poisoned data first, then the lowest address (R59)
   (∀ (f : List HostEnd), (∀ e ∈ f, e = .ok) → outcomeOf f = .ok) ∧
   (∀ (f : List HostEnd) (e : HostEnd), e ∈ f → e ≠ .ok → outcomeOf f ∈ f ∧ outcomeOf f ≠ .ok ∧
     (isPoisoned e = true → isPoisoned (outcomeOf f) = true ∧ (hostIova (outcomeOf f)).toNat ≤ (hostIova e).toNat) ∧
     ((∀ g ∈ f, isPoisoned g = false) → (hostIova (outcomeOf f)).toNat ≤ (hostIova e).toNat))) ∧
  ((∀ (s : State) (c : Nat) (t : Ticket) (l r : List DmaXfer) (x : DmaXfer) (d : List Byte), Live s → ticketOn s c = some t →
     t.phase = .running c → (corex s c).dma.queue = l ++ x :: r → (∀ y ∈ l, y.awaits t = false) → x.awaits t = true →
     Runs (.hostReadCompletion (.dma c) [] d) s (xferLoaded x.xfers d (setCorex c { corex s c with
       dma := { (corex s c).dma with queue := l ++ { x with data := some d } :: r } } s))) ∧
   (∀ (s : State) (c k : Nat) (t : Ticket) (l r : List MeCmd) (x : MeCmd) (d : List Byte), Live s → ticketOn s c = some t →
     t.phase = .running c → (meWin s c k).queue = l ++ x :: r → (∀ y ∈ l, y.awaits t = false) → x.awaits t = true →
     Runs (.hostReadCompletion (.engineLoad c k) [] d) s (xferLoaded x.xfers d (setMeWin c k { meWin s c k with
       queue := l ++ { x with data := some d } :: r } s))) ∧
   (∀ (s : State) (c : Nat) (t : Ticket) (l r : List DmaXfer) (x : DmaXfer) (f : List HostEnd) (d : List Byte), Live s →
     ticketOn s c = some t → (corex s c).dma.queue = l ++ x :: r → (∀ y ∈ l, y.awaits t = false) → x.awaits t = true →
     outcomeOf f ≠ .ok →
     Runs (.hostReadCompletion (.dma c) f d) s (inputReadFails c (outcomeOf f) (xferLoaded x.xfers d (setCorex c { corex s c with
       dma := { (corex s c).dma with queue := l ++ r } } (noteTimeouts f s))))) ∧
   (∀ (s : State) (c : Nat) (t : Ticket) (l r : List DmaXfer) (x : DmaXfer) (f : List HostEnd) (a : W64), Live s →
     ticketOn s c = some t → (corex s c).dma.queue = l ++ x :: r → (∀ y ∈ l, y.awaits t = false) → x.awaits t = true →
     (x.unsent = false → x.since + timeoutTicks s.pcie.timeoutValue ≤ s.time.ticks →
       Runs (.completionTimeout (.dma c) ⟨f, a⟩) s (inputReadFails c (outcomeOf (f ++ [.timeout a])) (xferLoaded x.xfers [] (setCorex c { corex s c with
         dma := { (corex s c).dma with queue := l ++ r } } { s with pcie := { s.pcie with aerTimeout := true } })))) ∧
     ((x.unsent = true ∨ s.time.ticks < x.since + timeoutTicks s.pcie.timeoutValue) →
       Runs (.completionTimeout (.dma c) ⟨f, a⟩) s s)) ∧
   -- the ranges of R60, in sixths of a nanosecond; a value that is not supported counts as 0000b
   timeoutTicks 0 = 6 * 40000000 ∧ timeoutTicks 1 = 6 * 90000 ∧ timeoutTicks 2 = 6 * 9000000 ∧ timeoutTicks 5 = 6 * 50000000 ∧
   timeoutTicks 6 = 6 * 189000000 ∧ (∀ v : BitVec 4, v ≠ 1 → v ≠ 2 → v ≠ 5 → v ≠ 6 → timeoutTicks v = timeoutTicks 0)) ∧
  ((∀ (s : State) (i : Nat), Writable s → iidPresent s i = true → (page s i).copying = false → (inst s i).st = .active →
     freeSlots (inst s i) ≠ 0 → s.boot.warm = false → 0 < ownFree s i →
     Runs (.inlineGo i) s (setPage i { page s i with inlineStatus := 0, copying := true }
       { setInst i { inst s i with reserved := (inst s i).reserved + 1 } s with
         nextTicket := s.nextTicket + 1
         tickets := s.tickets ++ [{
           id := s.nextTicket, iid := i, origin := .inline, bytes := windowTicket (page s i), input := windowInput (page s i),
           phase := .copying }] })) ∧
   (∀ (s : State) (i : Nat), Writable s → iidPresent s i = true → (page s i).copying = false →
     ((inst s i).st ≠ .active ∨ freeSlots (inst s i) = 0 ∨ s.boot.warm = true) →
     Runs (.inlineGo i) s (setPage i { page s i with inlineStatus := if s.fc.snet then 0x60 else 0x11 } s)) ∧
   (∀ (s : State) (i : Nat), Writable s → iidPresent s i = true → (page s i).copying = true →
     Runs (.inlineGo i) s (setPage i { page s i with heldWrites := (page s i).heldWrites ++ [(0x18, [0, 0, 0, 0])] } s)) ∧
   (∀ (s : State) (i : Nat), Live s → (page s i).copying = true →
     Runs (.inlineCopyDone i) s ((page s i).heldWrites.foldl (fun u w => pageInlineWrite i w.1 w.2 u)
       (setPage i { page s i with copying := false, heldWrites := [] }
         { s with tickets := s.tickets.map (fun (t : Ticket) =>
           if t.iid = i ∧ t.phase = .copying then { t with phase := .entering } else t) }))))

def Obligations.EntryChecksInTheirOrder : Prop :=
  ∀ (s : State) (tid : Nat) (t : Ticket), Live s → ticket? s tid = some t → t.phase = .entering → t.device = false →
    let refused (status : Byte) (hint : Nat) : State := finish tid { status := status, hint := hint, refused := true } s
    (s.fc.snet = true → Runs (.ticketEntry tid) s (refused 0x60 0)) ∧
    (s.fc.snet = false → badTicket t = true → Runs (.ticketEntry tid) s (refused 0x20 0)) ∧
    (s.fc.snet = false → badTicket t = false →
      (actEnabled s t.iid t.act = none → Runs (.ticketEntry tid) s (refused 0x20 0)) ∧
      (∀ a, actEnabled s t.iid t.act = some a →
        (t.handle ≠ 0xFFFFFFFF → handleIid t.handle ≠ t.iid → Runs (.ticketEntry tid) s (refused 0x41 0)) ∧
        ((t.handle = 0xFFFFFFFF ∨ handleIid t.handle = t.iid) →
          (t.deadline ≠ 0 → t.deadline ≤ s.rm.nt.toNat → Runs (.ticketEntry tid) s (refused 0x15 0)) ∧
          ((t.deadline = 0 ∨ s.rm.nt.toNat < t.deadline) →
            (∀ r, admission s t (costOf s a) = some r → Runs (.ticketEntry tid) s (refused r.1 r.2)) ∧
            (admission s t (costOf s a) = none →
              Runs (.ticketEntry tid) s (deferIfLong tid (setShare t.iid { share s t.iid with
                  backlog := (share s t.iid).backlog + costOf s a }
                (modTicket tid (fun q => { q with phase := .queued, cost := costOf s a, version := a.version }) s))))))))

/-- Aborts, commits, completion entries, and the requests that D3hot holds. -/
def Obligations.TicketsEndAndTheirWritesLeave : Prop :=
  ((∀ (s : State) (i : Nat) (h : W32), Writable s → iidPresent s i = true → (page s i).abortBusy = false →
     let tag : W64 := BitVec.ofNat 64 (h.toNat * 2 ^ 32 + (page s i).abortTag.toNat % 2 ^ 32)
     let hit (t : Ticket) : Bool := !t.device && t.iid == i && t.tag == tag
     let u := setInst i { inst s i with reads := (inst s i).reads.map (fun r => { r with abort := !r.void }) }
       (setPage i { page s i with abortTag := tag, abortFor := tag, abortBusy := true, abortAny := false } s)
     let u := { u with tickets := u.tickets.map (fun (t : Ticket) => if hit t then { t with aborting := true } else t) }
     Runs (.abortStart i h) s (((s.tickets.filter hit).map (fun t => t.id)).foldl (fun u tid =>
       match ticket? u tid with
       | none => u
       | some t => if t.inBuffer then finishQueued tid { status := 0x30 } u else stopTicket tid 0x30 u) u)) ∧
   (∀ (s : State) (i : Nat) (h : W32), Writable s → iidPresent s i = true → (page s i).abortBusy = true →
     Runs (.abortStart i h) s (noteSet (pgReg i 0x10) 0x40000000 (setPage i { page s i with abortOverrun := true } s))) ∧
   (∀ (s : State) (i : Nat), Live s → (page s i).abortBusy = true → (∀ t ∈ s.tickets, t.iid = i → t.aborting = false) →
     (∀ r ∈ (inst s i).reads, r.abort = false) → (∀ e ∈ s.pcie.heldEntries, e.1 = i → e.2.2 = false) →
     Runs (.abortDone i) s (setPage i { page s i with
       abortBusy := false, abortResult := if (page s i).abortAny then 0x30 else 0x31 } s)) ∧
   -- an aborted entry that waits for D0 has not been issued, and BUSY stays (R41, R72)
   (∀ (s : State) (i n : Nat), Live s → (i, n, true) ∈ s.pcie.heldEntries → Runs (.abortDone i) s s) ∧
   (∀ (s : State) (tid c : Nat) (t : Ticket) (st : Byte), ticket? s tid = some t → t.phase = .stopping c st →
     readsAwaited s c t = false → workDone s c = true →
     Runs (.scrubComplete tid) s (finish tid (stopFinal t st s) s)) ∧
   (∀ (s : State) (tid c : Nat) (t : Ticket) (st : Byte), ticket? s tid = some t → t.phase = .stopping c st →
     (readsAwaited s c t = true ∨ workDone s c = false) → Runs (.scrubComplete tid) s s)) ∧
  ((∀ (s : State) (c : Nat) (t : Ticket) (st : Byte) (n : W32), Live s → (core s c).run = .exiting st n → ticketOn s c = some t →
     t.phase = .running c → workDone s c = true → (corex s c).micro.trapped = false → (corex s c).micro.faulted = false →
     controlReread s c = false → (corex s c).outPend = none →
     (t.device = true ∨ commitHeld s t.iid = false) → (∀ k, t.origin ≠ .handshake k) →
     let u := if st = 0 then commitDone c t s else s
     let u := if st = 0 ∨ st = 1 then learnCost t u else u
     Runs (.commit c) s (commitFinal t.id st n false
       (takeOffer c t ((List.range (core u c).grants.length).foldl (fun u k => keepGrant c k u) u)))) ∧
   (∀ (s : State) (c k : Nat) (t : Ticket) (st : Byte) (n : W32), Live s → (core s c).run = .exiting st n →
     ticketOn s c = some t → t.phase = .running c → workDone s c = true → (corex s c).micro.trapped = false →
     (corex s c).micro.faulted = false → controlReread s c = false → (corex s c).outPend = none →
     (t.device = true ∨ commitHeld s t.iid = false) → t.origin = .handshake k → st = 0 →
     let u := learnCost t (commitDone c t s)
     let u := takeOffer c t ((List.range (core u c).grants.length).foldl (fun u k => keepGrant c k u) u)
     Runs (.commit c) s (commitFinal t.id st n (sessionOpen t k u).1 (sessionOpen t k u).2)) ∧
   (∀ (s : State) (c : Nat) (t : Ticket) (st : Byte) (n : W32), Live s → (core s c).run = .exiting st n → ticketOn s c = some t →
     (((corex s c).outPend = none ∧ workDone s c = false) ∨ (t.device = false ∧ commitHeld s t.iid = true)) →
     Runs (.commit c) s s) ∧
   -- output of the act that waits is sent first; a ticket with output left does not commit (R113, R353)
   (∀ (s : State) (c off : Nat) (b : List Byte) (t : Ticket) (st : Byte) (n : W32), Live s → (core s c).run = .exiting st n →
     ticketOn s c = some t → (t.device = true ∨ commitHeld s t.iid = false) → (corex s c).outPend = some (off, b) →
     let u := sendOut c t (b.length + 1) off b s
     workDone u c = false → Runs (.commit c) s u) ∧
   -- a committed ticket has ended, and its core is idle (R55, R98)
   (∀ (s : State) (c : Nat) (t : Ticket) (st : Byte) (n : W32), Live s → (core s c).run = .exiting st n → ticketOn s c = some t →
     t.phase = .running c → workDone s c = true → (corex s c).micro.trapped = false → (corex s c).micro.faulted = false →
     controlReread s c = false → (corex s c).outPend = none → commitHeld s t.iid = false → t.device = false → t.origin = .queue →
     (st ≠ 0 ∧ st ≠ 1) → s.fc.snet = false → Table.get 0 s.aud.counts t.iid < 0xFFFFFFFD → (core s c).offer = none → (core s c).grants = [] →
     ∃ u, Runs (.commit c) s u ∧ (core u c).run = .idle ∧ ticket? u t.id = none ∧ u.ks.entries = unreserve (· == t.id) s.ks.entries) ∧
   -- a commit signal of the hub cycle in which a reset or an abort stops the ticket is ordered first (R66, R71)
   (∀ (s : State) (c : Nat) (t : Ticket) (g : Signalled), Live s → (core s c).run = .scrubbing → ticketOn s c = some t →
     t.signalled = some g → (t.device = true ∨ commitHeld s t.iid = false) →
     (g.cycle = s.time.cycle → Runs (.commit c) s (commitAs c t g.status g.len s)) ∧
     (g.cycle ≠ s.time.cycle → Runs (.commit c) s s))) ∧
  (∀ (s : State) (t : Ticket) (f : Final), Live s → s.pcie.inReset = false → s.pcie.d3hot = false → t.irq = false → f.receipt = none →
     let a := (inst s t.iid).cqBase + BitVec.ofNat 64 (32 * (inst s t.iid).cqTail)
     let u := writeEntry t f false s
     let first : HostReq := .write (some (inst s t.iid).pasid) a (entryBytes t f s.rm.nt)
     u.pcie.issued = s.pcie.issued ++ first.split s ++ [.write (some (inst s t.iid).pasid) (a + 31) [0x80]] ∧
     ((inst s t.iid).cqBase.toNat % 32 = 0 → first.split s = [first]) ∧
     (entryBytes t f s.rm.nt).length = 31 ∧
     (inst u t.iid).cqTail = ((inst s t.iid).cqTail + 1) % 2 ^ (inst s t.iid).cqLog2.toNat ∧
     (inst u t.iid).unreleased = (inst s t.iid).unreleased + 1 ∧
     (∀ j, j ≠ t.iid → inst u j = inst s j) ∧ u.tickets = s.tickets ∧ u.mem = s.mem) ∧
  ((∀ s : State, Runs .d3hotEnter s { s with pcie := { s.pcie with d3hot := true } }) ∧
   (∀ (s : State) (r : HostReq), Live s → s.pcie.inReset = false → s.pcie.d3hot = true →
     (emit r s).pcie.issued = s.pcie.issued ∧ (emit r s).pcie.held = s.pcie.held ++ r.split s) ∧
   -- the time of a host read that waits runs from its issue (R60)
   (∀ (s : State) (e : Nat × Inst) (r : TicketRead), e ∈ s.inst → r ∈ e.2.reads →
     (if r.unsent then { r with unsent := false, since := s.time.ticks } else r) ∈
       ((readsIssued s).inst.filter (fun f => f.1 == e.1)).flatMap (fun f => f.2.reads)) ∧
   (∀ s : State, s.pcie.d3hot = true →
     ∃ t, Runs .d0Return s t ∧ t.pcie.d3hot = false ∧ t.pcie.held = [] ∧ t.pcie.heldEntries = [] ∧ (s.pcie.issued ++ s.pcie.held) <+: t.pcie.issued) ∧
   (∀ s : State, s.pcie.d3hot = false → Runs .d0Return s s) ∧
   (∀ (s : State) (bar off : Nat) (d : List Byte), s.pcie.inReset = true →
     Runs (.registerWrite bar off d) s s ∧ ∀ n, Runs (.rcRegisterRead bar off n) s s) ∧
   -- in D3hot an access of a BAR is an Unsupported Request, and changes nothing else (R41)
   (∀ (s : State) (bar off : Nat) (d : List Byte), s.pcie.inReset = false → s.pcie.d3hot = true → bar < 8 →
     Runs (.registerWrite bar off d) s { s with pcie := { s.pcie with aerUnsupported := true } } ∧
     ∀ n, Runs (.rcRegisterRead bar off n) s { s with pcie := { s.pcie with aerUnsupported := true } }))

def Obligations.UsherDispatchesThePickedTicket : Prop :=
  (∀ (s : State) (b i r c : Nat) (t : Ticket) (l : List Ticket) (a : Act) (fu : Bool), Live s → s.ush.paused = false →
    s.boot.warm = false → (∃ k, k < coreCount s ∧ coreIdle s k = true) → placeDevice s b = none → pickInstance s = some i →
    readyList s i = t :: l → (t.deadline = 0 ∨ s.rm.nt.toNat < t.deadline) → actOf s t = some a → pickCore s t a b = some (r, c, fu) →
    let k : Sent := { cycle := s.time.cycle, vt := (share s i).vt,
                      backlog := (share s i).backlog - max 0 ((share s i).backlog - t.cost), pool := t.pool }
    let u := modTicket t.id (fun q => { q with sent := some k }) (dispatch t a r c fu b s)
    let vmin : Rat := match (readyInstances s).map (fun j => (share s j).vt) with
      | [] => 0
      | x :: l => l.foldl min x
    Runs (.dispatchPass b) s (setShare i { share u i with
      backlog := max 0 ((share s i).backlog - t.cost), dispatched := (share s i).dispatched + 1,
      vt := max (share s i).vt vmin + costOf s a * 65536 / ((inst s i).weightEff.toNat : Rat) } u)) ∧
  (∀ (s : State) (b r c : Nat) (t : Ticket) (a : Act), Live s → s.ush.paused = false → s.boot.warm = false →
    (∃ k, k < coreCount s ∧ coreIdle s k = true) → placeDevice s b = some (t, a, r, c) →
    Runs (.dispatchPass b) s (modTicket t.id (fun q => { q with
      sent := some { cycle := s.time.cycle, vt := 0, backlog := 0, pool := t.pool } }) (dispatch t a r c false b s))) ∧
  -- the core that a ticket is sent to starts the act as R98 lays down, and the ticket runs there
  (∀ (s : State) (b r c : Nat) (t : Ticket) (a : Act) (fu : Bool) (off : Nat) (v : State), t ∈ s.tickets →
    roomFor s r a.wsSize b (neededForm s t a) = some (off, v) →
    let u := dispatch t a r c fu b s
    (core u c).run = .running ∧ (core u c).ticket = some t.id ∧ (core u c).wsBase = 0x1000000 + off ∧ (core u c).wsSize = a.wsSize ∧
    (core u c).pc = BitVec.ofNat 64 (0x1380000 + a.offset + a.entryOff) ∧ (core u c).rg 1 = BitVec.ofNat 64 (0x1000000 + off) ∧
    (core u c).rg 30 = 0x40000 ∧ (∀ k, k ≠ 1 → k ≠ 30 → (core u c).rg k = 0) ∧ (∀ k, (core u c).tagG k = .pub) ∧
    (∀ d, d ≠ c → core u d = core s d) ∧
    (∃ q, ticket? u t.id = some q ∧ q.phase = .running c ∧ q.pool = false ∧ q.started = s.time.ticks) ∧
    (∀ n, n ≠ t.id → ticket? u n = ticket? s n)) ∧
  (∀ (s : State) (b i : Nat) (t : Ticket) (l : List Ticket), Live s → s.ush.paused = false →
    s.boot.warm = false → (∃ k, k < coreCount s ∧ coreIdle s k = true) → placeDevice s b = none → pickInstance s = some i →
    readyList s i = t :: l → t.deadline ≠ 0 → t.deadline ≤ s.rm.nt.toNat →
    Runs (.dispatchPass b) s (finishQueued t.id { status := 0x15 } s)) ∧
  (∀ (s : State) (b : Nat), Live s → (s.ush.paused = true ∨ s.boot.warm = true ∨ ∀ k, k < coreCount s → coreIdle s k = false) →
    Runs (.dispatchPass b) s s)

/-- The cores that minimums and weights entitle to, the epochs of the shares, and the deadlines. -/
def Obligations.EntitlementsAndShareEpochs : Prop :=
  ((∀ s : State, Live s → ∃ t, Runs .entitlementRecompute s t ∧
     t.ush.minOvercommit = decide (usableCores s < minSum s) ∧
     (∀ i, i < iidCount s →
       let u := usableCores s
       let b := (s.inst.map (fun e => e.1)).filter (backlogged s)
       let m := (b.map (minOf s)).sum + if i ∈ b then 0 else minOf s i
       let w := (b.map (fun j => (inst s j).weightEff.toNat)).sum + if i ∈ b then 0 else (inst s i).weightEff.toNat
       (share t i).minEff = (if minSum s ≤ u then (inst s i).minCoresEff.toNat else (inst s i).minCoresEff.toNat * u / minSum s) ∧
       (share t i).ent = (minOf s i : Rat) + ((u - m : Nat) : Rat) * ((inst s i).weightEff.toNat : Rat) / (w : Rat) ∧
       (share t i).vt = (share s i).vt ∧ (share t i).backlog = (share s i).backlog ∧
       (share t i).dispatched = (share s i).dispatched ∧ (share t i).passedOver = (share s i).passedOver) ∧
     t.ush.copies = s.ush.copies ∧ t.tickets = s.tickets ∧ t.inst = s.inst ∧ t.cores = s.cores ∧ t.mem = s.mem) ∧
   -- the notice of overcommitted minimums comes with the recomputation that finds them first
   (∀ s : State, ((s.ush.minOvercommit = true ∨ minSum s ≤ usableCores s) → (recompute s).fcq = s.fcq))) ∧
  ((∀ (s : State) (tid : Nat) (t : Ticket), Live s → ticket? s tid = some t → t.phase = .queued → t.deadline ≠ 0 →
     (t.deadline ≤ s.rm.nt.toNat → Runs (.deadlineExpiry tid) s (finishQueued tid { status := 0x15 } s)) ∧
     (s.rm.nt.toNat < t.deadline → Runs (.deadlineExpiry tid) s s)) ∧
   -- what the end of a queued ticket of a queue leaves: its entry is written, its backlog is gone, its slot is no longer reserved
   (∀ (s : State) (tid : Nat) (t : Ticket), Live s → ticket? s tid = some t → t.origin = .queue → t.phase = .queued →
     t.device = false → t.aborting = false → t.deadline ≠ 0 → t.deadline ≤ s.rm.nt.toNat → s.pcie.inReset = false →
     s.pcie.d3hot = false → s.fc.snet = false → t.irq = false → (inst s t.iid).st = .active →
     ∃ u, Runs (.deadlineExpiry tid) s u ∧ ticket? u tid = none ∧
       u.pcie.issued = s.pcie.issued ++ (HostReq.write (some (inst s t.iid).pasid)
           ((inst s t.iid).cqBase + BitVec.ofNat 64 (32 * (inst s t.iid).cqTail)) (entryBytes t { status := 0x15 } s.rm.nt)).split s ++
         [.write (some (inst s t.iid).pasid) ((inst s t.iid).cqBase + BitVec.ofNat 64 (32 * (inst s t.iid).cqTail) + 31) [0x80]] ∧
       (inst u t.iid).cqTail = ((inst s t.iid).cqTail + 1) % 2 ^ (inst s t.iid).cqLog2.toNat ∧
       (inst u t.iid).reserved = (inst s t.iid).reserved - 1 ∧ (inst u t.iid).unreleased = (inst s t.iid).unreleased + 1 ∧
       (share u t.iid).backlog = max 0 ((share s t.iid).backlog - t.cost) ∧
       (∀ j, j ≠ t.iid → inst u j = inst s j ∧ share u j = share s j) ∧ u.cores = s.cores) ∧
   (∀ s : State, Writable s → Runs .epochNow s { s with
     ush := { s.ush with epochAt := some (BitVec.ofNat 64 ((s.rm.nt.toNat / 1000 + 1) * 1000)) } }) ∧
   (∀ (s : State) (t : W64), Live s → s.ush.epochAt = some t → s.rm.nt.toNat < t.toNat → Runs .shareEpochBoundary s s) ∧
   (∀ s : State, Live s → s.ush.epochAt = none → Runs .shareEpochBoundary s s) ∧
   (∀ (s : State) (a : W64), Live s → s.ush.epochAt = some a → a.toNat ≤ s.rm.nt.toNat →
     ∃ t, Runs .shareEpochBoundary s t ∧ t.ush.epochAt = none ∧ t.ush.epochCount = s.ush.epochCount + 1 ∧
       t.ush.horizonEff = s.ush.horizon ∧ t.ush.cacheEff = s.ush.cache ∧
       (∀ i, (inst s i).st ≠ .free → (inst s i).sharePend = true →
         (inst t i).weightEff = (inst s i).weight ∧ (inst t i).minCoresEff = (inst s i).minCores ∧
         (inst t i).ceilingEff = (inst s i).ceiling ∧ (inst t i).sharePend = false) ∧
       (∀ i, (inst s i).sharePend = false →
         (inst t i).weightEff = (inst s i).weightEff ∧ (inst t i).minCoresEff = (inst s i).minCoresEff ∧
         (inst t i).ceilingEff = (inst s i).ceilingEff)))

def Obligations.CachedCopiesBecomeValidAndGo : Prop :=
  (∀ (s : State) (r : Nat) (h : W32) (k : Nat), Live s → cacheUsed s r ≤ s.ush.cacheEff.toNat * 65536 →
    ∃ t, Runs (.copyValid r h k) s t ∧ t.ush.copies = s.ush.copies.map (fun (q : Copy) =>
        if q.ring = r ∧ q.handle = h ∧ q.kind = k ∧ q.st = .filling ∧ xfersDone s q.xfer.toList = true then { q with st := .valid } else q) ∧
      (∀ i, (share t i).passedOver = false) ∧ t.mem = s.mem ∧ t.tickets = s.tickets ∧ t.cores = s.cores ∧
      t.ks = s.ks) ∧
  -- a cache over its limit keeps only copies that are in use or not yet valid (R91)
  (∀ (s : State) (r : Nat) (h : W32) (k : Nat), Live s →
    ∃ t, Runs (.copyValid r h k) s t ∧ (cacheUsed t r ≤ t.ush.cacheEff.toNat * 65536 ∨
      ∀ q ∈ t.ush.copies, q.ring = r → q.st = .valid → q.uses ≠ 0)) ∧
  (∀ (s : State) (r : Nat) (h : W32) (k : Nat), Live s →
    (∀ q ∈ s.ush.copies, q.ring = r → q.handle = h → q.kind = k → q.st = .draining → q.uses ≠ 0) →
    Runs (.copyFreed r h k) s s) ∧
  (∀ (s : State) (q : Copy), Live s → q.st = .draining → q.uses = 0 →
    s.ush.copies.find? (fun p => p.ring == q.ring && p.handle == q.handle && p.kind == q.kind && p.st == .draining && p.uses == 0)
      = some q →
    Runs (.copyFreed q.ring q.handle q.kind) s (evictOver q.ring s.ush.copies.length (dropCopy q s)) ∧
    (cacheUsed s q.ring ≤ s.ush.cacheEff.toNat * 65536 → Runs (.copyFreed q.ring q.handle q.kind) s (dropCopy q s)) ∧
    (∀ n, n < roundUp q.size 64 → readByte (dropCopy q s) (.ring q.ring (q.addr + n)) = 0) ∧ q ∉ (dropCopy q s).ush.copies ∧
    (∀ p ∈ s.ush.copies, (p.ring ≠ q.ring ∨ p.handle ≠ q.handle ∨ p.kind ≠ q.kind ∨ p.addr ≠ q.addr) →
      p ∈ (dropCopy q s).ush.copies))

/-! ### Registers, fabric and the fault collector (R10–R32, R429–R444) -/

/-- A register written reads back, a counter read clears, Lockdown and SCRAPPED ignore writes. -/
def Obligations.RegistersReadWriteAndIgnore : Prop :=
  (∀ (s : State) (v : W32), Writable s → s.pcie.d3hot = false → s.pcie.inReset = false →
     (∃ t u, Runs (.registerWrite 0 0x300008 (bytesOf v.toNat 4)) s t ∧ t.ks = { s.ks with timeBound := v } ∧
       Runs (.rcRegisterRead 0 0x300008 4) t u ∧ u.pcie.readData = v.setWidth 64 ∧ u.ks = t.ks) ∧
     (∃ t u, Runs (.registerWrite 0 0x20000C (bytesOf v.toNat 4)) s t ∧ t.ush = { s.ush with deferTh := v.setWidth 24 } ∧
       Runs (.rcRegisterRead 0 0x20000C 4) t u ∧ u.pcie.readData = BitVec.ofNat 64 (v.toNat % 2 ^ 24) ∧ u.ush = t.ush)) ∧
  ((∀ (s : State) (reg f w : Nat), 0 < w → (Table.get {} s.time.rc (4 * reg + f)).now = 0 →
     let t := closeCycle (bump reg f w s)
     Table.get {} t.time.rc (4 * reg + f) = { base := min ((Table.get {} s.time.rc (4 * reg + f)).base + 1) (2 ^ w - 1) }) ∧
   (∀ (s : State) (c : FaultClass) (n : RcCount), Writable s → s.pcie.d3hot = false → s.pcie.inReset = false →
     Table.get {} s.time.rc (4 * fcCnt c) = n → n.base < 2 ^ 32 →
     ∃ t, Runs (.rcRegisterRead 0 (fcCnt c) 4) s t ∧ t.pcie.readData = BitVec.ofNat 64 n.base ∧
       Table.get {} t.time.rc (4 * fcCnt c) = { n with base := 0 } ∧
       (∀ r, r / 4 ≠ fcCnt c → Table.get {} t.time.rc r = Table.get {} s.time.rc r) ∧ t.fc = s.fc ∧ t.mem = s.mem)) ∧
  (∀ (s : State), (s.fc.lock = true ∨ s.lcs.st = 4) →
     (∀ (who : Who) (bar off : Nat) (v : W32), wrWord who bar off v s = s) ∧
     (∀ i, Runs (.activate i) s s ∧ Runs (.stop i) s s ∧ Runs (.resume i) s s ∧ Runs (.instReset i) s s ∧ Runs (.remove i) s s) ∧
     (∀ i d, Runs (.sqDoorbell i d) s s ∧ Runs (.cqDoorbell i d) s s) ∧ (∀ d, Runs (.fcModeWrite d) s s) ∧
     Runs .pop s s ∧ Runs .clear s s ∧ Runs .snetNow s s ∧ Runs .faultInject s s ∧ (∀ u, Runs (.fcRetire u) s s) ∧
     (∀ bar off d, bar < 8 → bar ≠ 2 → d.length = 4 → off % 4 = 0 → s.pcie.d3hot = false → Runs (.registerWrite bar off d) s s))

/-- Flits, credits and transfers, and what a parity error does. -/
def Obligations.FabricReplaysAndRetires : Prop :=
  ((∀ (s : State) (u lost : Half) (src : Byte) (x : Nat) (n : W64) (f : FlitRead), Live s → flitUnit u = some (src, lost) →
     unitPresent s lost = true → unitRetired s lost = false →
     (f.flit.intact = true → failsOf s u x n = 0 → Runs (.flitReceive u x n f) s s) ∧
     (f.flit.intact = false → failsOf s u x n < 3 →
       let w := setRetry u (some { xfer := x, flit := n, fails := failsOf s u x n + 1, buffer := retryBuffer s x n.toNat }) s
       (∀ c, accessCore u f.core = some c → (∀ y ∈ s.fabric.xfers, y.id ≠ x) →
         Runs (.flitReceive u x n f) s (setCore c { core s c with stalled := (core s c).stalled + 8 } w)) ∧
       ((accessCore u f.core = none ∨ ∃ y ∈ s.fabric.xfers, y.id = x) → Runs (.flitReceive u x n f) s w)) ∧
     (f.flit.intact = true → failsOf s u x n ≠ 0 → ownerAt s u x f.core = none → Runs (.flitReceive u x n f) s (report
       { cls := .f1, source := src, unit := u, cause := 0x01, addr := n, detail0 := BitVec.ofNat 64 (failsOf s u x n) }
       (setRetry u none s))) ∧
     (f.flit.intact = false → 3 ≤ failsOf s u x n → ownerAt s u x f.core = none → Runs (.flitReceive u x n f) s (report
       { cls := .f3, source := src, unit := lost, cause := 0x02, addr := n } (dropXfer x (setRetry u none s)))) ∧
     (∀ tid t, f.flit.intact = false → 3 ≤ failsOf s u x n → ownerAt s u x f.core = some tid → ticket? s tid = some t →
       Runs (.flitReceive u x n f) s (report
         (Event.naming { cls := .f3, source := src, unit := lost, cause := 0x02, addr := n } t)
         ((if unitKind lost = 3 ∧ unitIdx lost % 16 < 4 then opDies tid .f3 else opFails tid .f3)
           (dropXfer x (setRetry u none s)))))) ∧
   -- an abandoned transfer is gone, and nothing that waits for it is left: no DMA transfer, no command, no copy or key under way (R25)
   (∀ (s : State) (x : Nat), (∀ y ∈ (dropXfer x s).fabric.xfers, y.id ≠ x) ∧
     (∀ c, ∀ y ∈ (corex (dropXfer x s) c).dma.queue, x ∉ y.xfers) ∧
     (∀ c k, ∀ y ∈ (meWin (dropXfer x s) c k).queue, x ∉ y.xfers) ∧
     (∀ k ∈ (dropXfer x s).ush.copies, k.xfer = some x → k.st ≠ .filling) ∧
     (∀ e ∈ (dropXfer x s).ks.entries, e.2.xfer = some x → e.2.st ≠ .filling)) ∧
   -- the retry buffer holds at most 32 flits, each as its sender made it
   (∀ (s : State) (x k : Nat), (retryBuffer s x k).length ≤ 32 ∧ ∀ f ∈ retryBuffer s x k, f.intact = true) ∧
   -- a flit as its sender makes it is intact, and one wrong bit of a slice or of the header is found (R24)
   (∀ (d : BitVec 512) (h : W64), (Flit.of d h).intact = true ∧
     (∀ k, k < 512 → ({ Flit.of d h with data := d ^^^ BitVec.ofNat 512 (2 ^ k) } : Flit).intact = false) ∧
     (∀ k, k < 64 → ({ Flit.of d h with header := h ^^^ BitVec.ofNat 64 (2 ^ k) } : Flit).intact = false))) ∧
  ((∀ (s : State) (a b : Nat), Live s → creditsUsed s a b = 0 → Runs (.creditReturn a b) s s) ∧
   (∀ (s : State) (a b : Nat), Live s → creditsUsed s a b ≠ 0 →
     (∀ x ∈ s.fabric.xfers, x.flies a b = false ∧ x.held = 0 ∧ x.relay = none) →
     ∃ t, Runs (.creditReturn a b) s t ∧ creditsUsed t a b = creditsUsed s a b - 1 ∧
       (∀ c d, creditKey c d ≠ creditKey a b → creditsUsed t c d = creditsUsed s c d) ∧ t.fabric.xfers = s.fabric.xfers ∧
       t.tickets = s.tickets ∧ t.mem = s.mem ∧ t.cores = s.cores ∧ t.corex = s.corex) ∧
   (∀ (s : State) (a b : Nat) (x : Xfer), Live s → creditsUsed s a b = Config.credits → Config.credits ≠ 0 →
     s.fabric.xfers = [x] → x.src = a → x.dst = b → x.relay = none → 1 ≤ x.held → 1 ≤ x.flying →
     Runs (.creditReturn a b) s { s with fabric := { s.fabric with
       xfers := [{ x with held := x.held - 1 }]
       creditsUsed := Table.set 0 s.fabric.creditsUsed (creditKey a b) Config.credits } }) ∧
   -- a flit of a relayed transfer goes on from the hub stop with the hub's credit (R20, R22)
   (∀ (s : State) (a : Nat) (x : Xfer) (l : Leg), Live s → a < 16 → creditsUsed s a hubStop ≠ 0 → s.fabric.xfers = [x] → x.src = a →
     x.dst = hubStop → x.relay = some l → x.held = 0 → 1 ≤ x.flying → l.held = 0 →
     creditsUsed s hubStop l.dst < Config.credits →
     ∃ t, Runs (.creditReturn a hubStop) s t ∧
       t.fabric.xfers = [{ x with flying := x.flying - 1, relay := some { l with flying := l.flying + 1 } }] ∧
       creditsUsed t a hubStop = creditsUsed s a hubStop - 1 ∧ creditsUsed t hubStop l.dst = creditsUsed s hubStop l.dst + 1) ∧
   (∀ (s : State) (x : Xfer), Live s → x ∈ s.fabric.xfers → x.injected = true →
     Runs (.transferDone x.id) s { s with fabric := { s.fabric with
       xfers := s.fabric.xfers.filter (fun y => y.id != x.id), done := s.fabric.done ++ [x.id] } }) ∧
   (∀ (s : State) (n : Nat), Live s → (∀ x ∈ s.fabric.xfers, x.id = n → x.injected = false) → Runs (.transferDone n) s s)) ∧
  ((∀ (s : State) (m : MemName) (a : W64) (h : LineHeld) (c : Option Nat) (f : StoredWord) (n : Option (List Byte × Tag)), Live s →
     (f.intact = true → Runs (.memoryParityError m a h ⟨c, f, n⟩) s s) ∧
     (f.intact = false → writtenNow m a h s = true →
       Runs (.memoryParityError m a h ⟨c, f, n⟩) s (mergeNarrow m a n s))) ∧
   (∀ (s : State) (m : MemName) (a : W64) (h : LineHeld) (f : StoredWord) (n : Option (List Byte × Tag)), Live s → f.intact = false →
     writtenNow m a h s = false → (∀ e, m ≠ .accumulator e ∧ m ≠ .keyRegister e ∧ m ≠ .controlStore e) →
     Runs (.memoryParityError m a h ⟨none, f, n⟩) s { s with
       fabric := { s.fabric with
         rereads := s.fabric.rereads ++ [{ mem := m, line := a, held := h, core := none, narrow := n, cycle := s.time.cycle }] } }) ∧
   (∀ (s : State) (m : MemName) (a : W64) (h : LineHeld) (c : Nat) (f : StoredWord) (n : Option (List Byte × Tag)), Live s →
     f.intact = false → writtenNow m a h s = false → (m = .coreLocal c ∨ m = .ring (ringOf c)) →
     Runs (.memoryParityError m a h ⟨some c, f, n⟩) s (trapCore c { s with
       fabric := { s.fabric with
         rereads := s.fabric.rereads ++ [{ mem := m, line := a, held := h, core := some c, narrow := n, cycle := s.time.cycle }] } })) ∧
   -- a core whose control word is read again issues nothing meanwhile (R154)
   (∀ (s : State) (k : Nat) (a : W64) (h : LineHeld) (c : Option Nat) (f : StoredWord) (n : Option (List Byte × Tag)), Live s →
     f.intact = false → writtenNow (.controlStore k) a h s = false →
     ∃ t, Runs (.memoryParityError (.controlStore k) a h ⟨c, f, n⟩) s t ∧ fetchReread t k = true ∧ t.mem = s.mem ∧
       t.tickets = s.tickets ∧ (core t k).g = (core s k).g) ∧
   (∀ (s : State) (e : Nat) (a : W64) (f : StoredWord), Live s → f.intact = false →
     writtenNow (.keyRegister e) a .unowned s = false →
     Runs (.memoryParityError (.keyRegister e) a .unowned ⟨none, f, none⟩) s (report
       { cls := .f2, source := 0x0B, unit := BitVec.ofNat 16 (0x3000 + e), cause := 0x02, addr := a } s)) ∧
   (∀ (s : State) (m : MemName) (a : W64) (h : LineHeld) (q : Reread) (f : StoredWord), Live s → s.fabric.rereads = [q] → q.mem = m →
     q.line.toNat / 64 = a.toNat / 64 → q.core = none → q.held = h → readerOf s h none = none →
     let gone : State := { s with fabric := { s.fabric with rereads := [] } }
     (f.intact = true → Runs (.rereadComplete m a f) s (mergeNarrow m q.line q.narrow (report
       { cls := .f1, source := (memSource m).1, unit := (memSource m).2, cause := 0x01, addr := a,
         detail0 := BitVec.ofNat 64 (q.fails + 1) } gone))) ∧
     (f.intact = false → q.fails = 0 → Runs (.rereadComplete m a f) s
       { s with fabric := { s.fabric with rereads := [{ q with fails := 1 }] } }) ∧
     (f.intact = false → q.fails ≠ 0 → Runs (.rereadComplete m a f) s (mergeNarrow m q.line q.narrow (retireLine q gone)))) ∧
   -- the parity bit of a word is right as it is written, and one wrong bit is found (R24)
   (∀ w : W32, (StoredWord.of w).intact = true ∧
     ∀ k, k < 32 → ({ StoredWord.of w with word := w ^^^ BitVec.ofNat 32 (2 ^ k) } : StoredWord).intact = false) ∧
   (∀ (s : State) (r : Nat) (a : W64) (b : List Byte), Live s → (r, BitVec.ofNat 64 (a.toNat / 64 * 64)) ∈ s.fabric.rewrite →
     b.length = 64 →
     ∃ t, Runs (.actStoreLineRewrite r a b) s t ∧
       (∀ k, k < 64 → readByte t (.ring r (a.toNat / 64 * 64 + k)) = b.getD k 0) ∧
       (∀ q, (∀ k, k < 64 → q ≠ r * 2 ^ 22 + a.toNat / 64 * 64 + k) → Table.get 0 t.mem.ringMem q = Table.get 0 s.mem.ringMem q) ∧
       (r, BitVec.ofNat 64 (a.toNat / 64 * 64)) ∉ t.fabric.rewrite ∧ t.mem.coreMem = s.mem.coreMem ∧
       t.cores = s.cores ∧ t.tickets = s.tickets))

/-- An event waits at the collector in its order, is recorded, and acts by its class. -/
def Obligations.EventsAreRecordedAndActedOn : Prop :=
  ((∀ (s : State) (ev : Event), Live s → ev.cls ≠ .f5 → s.fcq.waiting.any (shadows (stamped ev s)) = false →
     (s.fcq.waiting.length < 64 → Runs (.faultEvent ev) s
       { s with fcq := { s.fcq with waiting := insertWaiting (stamped ev s) s.fcq.waiting } }) ∧
     (64 ≤ s.fcq.waiting.length → ev.cls = .f0 → Runs (.faultEvent ev) s (bump 0x400104 1 16 s)) ∧
     (64 ≤ s.fcq.waiting.length → ev.cls ≠ .f0 → Runs (.faultEvent ev) s
       { s with fcq := { s.fcq with heldAtSource := s.fcq.heldAtSource ++ [stamped ev s] } })) ∧
   (∀ (s : State) (ev : Event), s.fc.lock = true → ev.cls ≠ .f5 → Runs (.faultEvent ev) s (bump (fcCnt ev.cls) 0 32 s)) ∧
   (∀ (s : State) (ev : Event), s.fc.lock = true → ev.cls = .f5 → Runs (.faultEvent ev) s (bump 0x400240 0 8 s))) ∧
  (∀ (s : State) (ev : Event), s.fcq.waiting.Pairwise (fun a b => b.before a = false) →
     (report ev s).fcq.waiting.Pairwise (fun a b => b.before a = false)) ∧
  ((∀ s : State, Live s → s.fcq.waiting = [] → Runs .faultRecordWrite s s) ∧
   (∀ (s : State) (w : Waiting) (r : List Waiting), Live s → s.fcq.waiting = w :: r →
     Runs .faultRecordWrite s (classAction w (admitHeld (writeRecord w { s with fcq := { s.fcq with waiting := r } })))) ∧
   (∀ (s : State) (w : Waiting), s.fc.mode = false → (w.ev.cls ≠ .f0 ∨ s.fc.logF0 = true) →
     let r := recordOf s.fc.logHead w (s.fcq.lastGroup == some w.cycle) s.fc.snet s.fc.selfMark
     let t := writeRecord w s
     t.fc.logHead = s.fc.logHead + 1 ∧ Table.get 0 t.fc.log (s.fc.logHead.toNat % 4096) = r ∧
     (∀ k, k ≠ s.fc.logHead.toNat % 4096 → Table.get 0 t.fc.log k = Table.get 0 s.fc.log k) ∧
     t.fc.sticky = s.fc.sticky ||| BitVec.ofNat 64 (2 ^ (w.ev.source.toNat % 64)) ∧
     t.fc.first = (if s.fc.sticky = 0 then r else s.fc.first) ∧ t.fc.hq = s.fc.hq ∧ t.fc.selfMark = false) ∧
   (∀ (s : State) (w : Waiting), s.fc.mode = true →
     let r := recordOf s.fc.logHead w (s.fcq.lastGroup == some w.cycle) s.fc.snet s.fc.selfMark
     let t := writeRecord w s
     t.fc.hq = (if s.fc.hq.length < 16 then s.fc.hq ++ [r] else s.fc.hq) ∧ t.fc.sticky = s.fc.sticky ∧ t.fc.first = s.fc.first)) ∧
  ((∀ (s : State) (w : Waiting), (w.acts = false ∨ w.ev.cls = .f0 ∨ w.ev.cls = .f2 ∨ w.ev.cls = .f5) → classAction w s = s) ∧
   (∀ (s : State) (w : Waiting) (c : Nat), w.acts = true → w.ev.cls = .f3 → c < coreCount s → w.ev.unit = unitCore c →
     unitRetired s (unitCore c) = false → ticketOn s c = none →
     let t := classAction w s
     bit t.ush.coreRet c = true ∧ (core t c).run = .inReset ∧ unitRetired t (unitCore c) = true ∧ t.tickets = s.tickets ∧
       (∀ d, d ≠ c → core t d = core s d)) ∧
   (∀ (s : State) (w : Waiting), w.acts = true → w.ev.cls = .f4 → s.fc.snet = false → s.tickets = [] →
     let t := classAction w s
     t.fc.snet = true ∧ t.fc.snetSource = w.ev.source.setWidth 6) ∧
   (∀ (s : State) (w : Waiting), w.acts = true → w.ev.cls = .f4 → s.fc.snet = true → classAction w s = s))

def Obligations.LockdownClearsSecretsAndStopsTheDevice : Prop :=
  ∀ (s : State) (ev : Event), Live s → ev.cls = .f5 →
    ∃ t, Runs (.faultEvent ev) s t ∧ t.fc.lock = true ∧
      t.fc.lockRec = recordOf s.fc.logHead (stamped ev s) (s.fcq.lastGroup == some s.time.cycle) s.fc.snet s.fc.selfMark ∧
      t.ks.entries = [] ∧ t.ks.pend = [] ∧ t.ks.cer.acc = [] ∧ t.dol.sessions = [] ∧ t.dol.key = none ∧ t.dol.prevKey = none ∧
      t.aud.trees = [] ∧ t.aud.queue = [] ∧ t.mem.workMem = [] ∧ t.rng.keyV = 0 ∧ t.rng.pool = [] ∧ t.boot.ringUp = 0 ∧
      t.mgmt.held = true ∧ (∀ e ∈ t.cores, e.2.run = .inReset) ∧ (∀ e ∈ t.net.port, e.2.link = false) ∧
      t.fcq.waiting = [] ∧ t.fcq.heldAtSource = [] ∧ t.jtag = s.jtag

/-- The collector's registers and sticky bits, and errors of the collector and the lockstep pair. -/
def Obligations.CollectorRegistersTakeAccesses : Prop :=
  ((∀ s : State, Writable s → s.fc.snet = false → Runs .snetNow s (report
     { cls := .f4, source := 0x20, cause := 0x10, detail0 := BitVec.ofNat 64 (0x80000000 + fcCtrl s) } s)) ∧
   (∀ s : State, Writable s → s.fc.snet = true → Runs .snetNow s
     (ignoredWrite 0x1F 0x400000 (BitVec.ofNat 64 (0x80000000 + fcCtrl s)) none s)) ∧
   (∀ (s : State) (d : W32), Writable s → d.getLsbD 0 = s.fc.mode → Runs (.fcModeWrite d) s s) ∧
   (∀ (s : State) (d : W32), Writable s → d.getLsbD 0 ≠ s.fc.mode →
     let t := { s with fc := { s.fc with mode := d.getLsbD 0, sticky := 0, first := 0, firstValid := false, hq := [] } }
     ((∀ k ∈ s.fcq.captured, k.cycle ≠ s.time.cycle) → Runs (.fcModeWrite d) s t) ∧
     (∀ k, s.fcq.captured = some k → k.cycle = s.time.cycle → Runs (.fcModeWrite d) s (capture k.source k.bytes t))) ∧
   (∀ s : State, Writable s → (s.fc.mode = false ∨ ∀ k ∈ s.fcq.captured, k.cycle ≠ s.time.cycle) →
     Runs .pop s { s with fc := { s.fc with hq := s.fc.hq.drop 1 } }) ∧
   (∀ (s : State) (k : Captured), Writable s → s.fc.mode = true → s.fcq.captured = some k → k.cycle = s.time.cycle →
     ∃ t, Runs .pop s t ∧ t.fc.hq = (if k.missed then s.fc.hq else s.fc.hq.dropLast).drop 1 ++ [k.bytes] ∧
       t.fc.mode = true ∧ t.fc.sticky = s.fc.sticky ∧ t.fc.log = s.fc.log) ∧
   (∀ s : State, Writable s → Runs .clear s { s with fc := { s.fc with hq := [] } }) ∧
   (∀ (s : State) (u : Half), Writable s → unitPresent s u = true → unitRetired s u = false →
     Runs (.fcRetire u) s (report
       { cls := .f3, source := 0x20, unit := u, cause := 0x10, detail0 := BitVec.ofNat 64 (0x80000000 + u.toNat) } s)) ∧
   (∀ (s : State) (u : Half), Writable s → (unitPresent s u = false ∨ unitRetired s u = true) →
     Runs (.fcRetire u) s (ignoredWrite 0x1F 0x400180 (BitVec.ofNat 64 (0x80000000 + u.toNat)) none s)) ∧
   (∀ s : State, Live s → Runs .retireWindowReset s { s with fcq := { s.fcq with f1 := [] } }) ∧
   (∀ s : State, Writable s → s.lcs.st = 0 → s.fc.injClass.toNat < 6 → 1 ≤ s.fc.injSource.toNat → s.fc.injSource.toNat ≤ 0x21 →
     Runs .faultInject s { s with fcq := { s.fcq with injection := some (
       { cls := FaultClass.ofCode s.fc.injClass.toNat, source := s.fc.injSource.setWidth 8, unit := s.fc.injUnit,
         cause := s.fc.injCause }, s.fc.injAct) } }) ∧
   (∀ s : State, Writable s → s.lcs.st ≠ 0 → Runs .faultInject s
     (ignoredWrite 0x1F 0x4001C0 (BitVec.ofNat 64 (0x80000000 + fcInj s)) none s))) ∧
  (∀ (s : State) (k : Nat) (d : W32), Writable s → k < 2 →
     ∃ t, Runs (.fcStickyClear k d) s t ∧
       (∀ n, n < 32 → t.fc.sticky.getLsbD (32 * k + n) = (s.fc.sticky.getLsbD (32 * k + n) &&
         (!d.getLsbD n || (Table.get 0 s.time.setNow (0x400010 + 4 * k)).getLsbD n))) ∧
       (∀ n, n < 32 → t.fc.sticky.getLsbD (32 * (1 - k) + n) = s.fc.sticky.getLsbD (32 * (1 - k) + n)) ∧
       t.fc.firstValid = (s.fc.firstValid && t.fc.sticky != 0) ∧ t.fc.first = s.fc.first ∧ t.fc.hq = s.fc.hq ∧
       t.fcq = s.fcq ∧ t.time = s.time) ∧
  ((∀ (s : State) (a : W64), s.dev.part = .kx512 → Runs (.collectorParityError a false) s
     (bump 0x4001E0 0 16 { s with fc := { s.fc with selfMark := true } })) ∧
   (∀ (s : State) (a : W64) (b : Bool), Live s → (s.dev.part = .kx128 ∨ b = true) →
     ∃ t, Runs (.collectorParityError a b) s t ∧ t.fc.lock = true ∧
       t.fc.lockRec = recordOf s.fc.logHead (stamped { cls := .f5, source := 0x1F, cause := 0x0E, addr := a } s)
         (s.fcq.lastGroup == some s.time.cycle) s.fc.snet s.fc.selfMark) ∧
   (∀ (s : State) (p q : W64), Live s → s.mgmt.held = false → Runs (.lockstepMismatch p q) s (report
     { cls := .f4, source := 0x1E, unit := 0x1100, cause := 0x0C, addr := p, detail0 := q }
     { s with mgmt := { s.mgmt with held := true } })) ∧
   (∀ (s : State) (p q : W64), Live s → s.mgmt.held = true → Runs (.lockstepMismatch p q) s s))

/-! ### Instructions of the cores (R96–R181) -/

/-- A word issued on a ring core changes the g registers only through d, and completes with the next address and one more INSTRET. -/
def Obligations.RegisterWriteFrame : Prop :=
  ∀ (s : State) (c d : Nat) (v pc : W64) (t : Tag), c ≠ 256 →
    let u := after c s (setCore c ((core s c).wg d v t) s) pc
    (d ≠ 0 → (core u c).rg d = v ∧ (core u c).tagG d = t) ∧ (core u c).rg 0 = 0 ∧ (core u c).tagG 0 = .pub ∧
    (∀ r, r ≠ d → (core u c).rg r = (core s c).rg r ∧ (core u c).tagG r = (core s c).tagG r) ∧
    (core u c).pc = pc ∧ (core u c).instret = (core s c).instret + 1 ∧ (core u c).trap = (core s c).trap ∧
    (core u c).run = (core s c).run ∧ (core u c).grants = (core s c).grants ∧ (core u c).ticket = (core s c).ticket ∧
    (core u c).evPend = (core s c).evPend ∧ (∀ j, j ≠ c → core u j = core s j) ∧ u.corex = s.corex ∧ u.mem = s.mem ∧
    u.tickets = s.tickets ∧ u.mgmt = s.mgmt ∧ u.fc = s.fc ∧ u.fcq = s.fcq ∧ u.ush = s.ush ∧ u.ks = s.ks ∧ u.pcie = s.pcie

/-- Exception entry, words of no row, and the fetch checks that come before every instruction. -/
def Obligations.ExceptionsEnterTheHandler : Prop :=
  ((∀ (s : State) (c : Nat) (cause : Byte) (v : W64), (core s c).trap.vec ≠ 0 → (core s c).trap.active = false →
     let t := takeTrap c cause v false s
     (core t c).pc = (core s c).trap.vec ∧ (core t c).trap.pc = (core s c).pc ∧ (core t c).trap.cause = cause.setWidth 64 ∧
     (core t c).trap.val = v ∧ (core t c).trap.active = true ∧ (core t c).g = (core s c).g ∧ (core t c).gtag = (core s c).gtag ∧
     (core t c).trap.vec = (core s c).trap.vec ∧ (core t c).trap.scratch = (core s c).trap.scratch ∧
     (∀ d, d ≠ c → core t d = core s d ∧ corex t d = corex s d) ∧
     corex t c = { corex s c with micro := { (corex s c).micro with waiting := none } } ∧
     t.mem = s.mem ∧ t.tickets = s.tickets ∧ t.mgmt = s.mgmt ∧ t.fcq = s.fcq) ∧
   (∀ (s : State) (c : Nat) (cause : Byte) (v : W64) (q : Ticket), Live s → c ≠ 256 →
     ((core s c).trap.vec = 0 ∨ (core s c).trap.active = true) → ticketOn s c = some q → q.phase = .running c →
     let t := takeTrap c cause v false s
     (core t c).run = .exiting 0x20 0 ∧ (∃ z, ticketOn t c = some z ∧ 2 ≤ z.fault ∧ z.phase = .running c) ∧ t.mem = s.mem) ∧
   (∀ (s : State) (cause : Byte) (v : W64), Live s → ((core s 256).trap.vec = 0 ∨ (core s 256).trap.active = true) →
     Runs (.faultEvent { cls := .f4, source := 0x1E, unit := 0x1100, cause := 0x06, addr := v, detail0 := (core s 256).pc,
                         detail1 := BitVec.ofNat 64 cause.toNat }) { endWaiting 256 s with mgmt := { s.mgmt with held := true } }
       (takeTrap 256 cause v false s))) ∧
  (∀ (s : State) (c : Nat) (w : W32), mayIssue s c = true → (core s c).pc.toNat % 4 = 0 →
     fetchable s c (core s c).pc.toNat = true → fetchReread s c = false →
     fetchHeld s c (core s c).pc.toNat = false → Settled c s → microEnd c w s = none →
     (klass w = .illegal ∨ (c = 256 ∧ 0x38 ≤ opcode w)) →
     let t := afterInstr c (takeTrap c 0x01 0 false s)
     Runs (.regArith c w) s t ∧ Runs (.load c w) s t ∧ Runs (.exit c w) s t ∧ Runs (.vecAlu c w) s t ∧ Runs (.csrr c w) s t) ∧
  (∀ (s : State) (c : Nat) (w : W32), mayIssue s c = true → klass w = .regArith → Settled c s →
     ((core s c).pc.toNat % 4 ≠ 0 → Runs (.regArith c w) s (afterInstr c (takeTrap c 0x02 (core s c).pc false s))) ∧
     ((core s c).pc.toNat % 4 = 0 → fetchable s c (core s c).pc.toNat = false →
       Runs (.regArith c w) s (afterInstr c (takeTrap c 0x03 (core s c).pc false s))))

/-- The scalar arithmetic instructions write their result and its tag to d, and nothing else; what the bit counts count. -/
def Obligations.ScalarArithmeticResults : Prop :=
  (let two (v : W64 → W64 → W64) (f : Nat) : Prop :=
     GWrites .regArith .regArith (fun x w => fFunct w = f ∧ NoShare x [fA w, fB w])
       (fun x w => v (x.rg (fA w)) (x.rg (fB w))) (fun x w => mixTag [x.tagG (fA w), x.tagG (fB w)])
   two (fun a b => a + b) 0x000 ∧ two (fun a b => a - b) 0x001 ∧ two (fun a b => a &&& b) 0x002 ∧ two (fun a b => a ||| b) 0x003 ∧
   two (fun a b => a &&& ~~~b) 0x005 ∧ two (fun a b => a <<< (b.toNat % 64)) 0x008 ∧ two (fun a b => a >>> (b.toNat % 64)) 0x009 ∧
   two (fun a b => a.sshiftRight (b.toNat % 64)) 0x00A ∧ two (fun a b => a.rotateRight (b.toNat % 64)) 0x00B ∧
   two (fun a b => if a.toInt < b.toInt then 1 else 0) 0x010 ∧ two (fun a b => if a.toNat < b.toNat then 1 else 0) 0x011 ∧
   two (fun a b => if 2 ^ 64 ≤ a.toNat + b.toNat then 1 else 0) 0x014 ∧ two (fun a b => if a.toNat < b.toNat then 1 else 0) 0x015 ∧
   two (fun a b => a * b) 0x018 ∧ two (fun a b => BitVec.ofNat 64 (a.toNat * b.toNat / 2 ^ 64)) 0x019 ∧
   two (fun a b => BitVec.ofInt 64 (a.toInt * b.toInt / 2 ^ 64)) 0x01A ∧
   GWrites .regArith .regArith (fun x w => fFunct w = 0x004 ∧ NoShare x [fA w, fB w])
     (fun x w => x.rg (fA w) ^^^ x.rg (fB w)) (fun x w => xorTag [x.tagG (fA w), x.tagG (fB w)]) ∧
   GWrites .regArith .regArith
     (fun x w => fFunct w = 0x020 ∧ NoShare x [fA w, fB w, fD w] ∧ x.tagG (fA w) = .pub ∧ x.tagG (fB w) = .pub)
     (fun x w => if x.rg (fA w) ≠ 0 then x.rg (fB w) else x.rg (fD w)) (fun x w => x.tagG (fD w)) ∧
   GWrites .regArith .regArith
     (fun x w => fFunct w = 0x020 ∧ NoShare x [fA w, fB w, fD w] ∧ x.tagG (fA w) ≠ .pub)
     (fun x w => if x.rg (fA w) ≠ 0 then x.rg (fB w) else x.rg (fD w)) (fun _ _ => .secret) ∧
   (∀ v f, ((v = clz ∧ f = 0x028) ∨ (v = ctz ∧ f = 0x029) ∨ (v = popc ∧ f = 0x02A) ∨ (v = bswap ∧ f = 0x02B)) →
     GWrites .regArith .regArith (fun x w => fFunct w = f ∧ fB w = 0 ∧ NoShare x [fA w, 0])
       (fun x w => v (x.rg (fA w))) (fun x w => mixTag [x.tagG (fA w)])) ∧
   Raises .regArith .regArith (fun _ _ w => 0x02C ≤ fFunct w ∧ fFunct w ≤ 0x02F) 0x01 (fun _ _ => 0) ∧
   Raises .regArith .regArith (fun c s w => fFunct w = 0x000 ∧ ((core s c).tagG (fA w)).isShare = true) 0x04 (fun _ _ => 0)) ∧
  (let div (v : W64 → W64 → W64) (f : Nat) : Prop :=
     GWrites .divide .divide (fun x w => fFunct w = f ∧ NoShare x [fA w, fB w])
       (fun x w => v (x.rg (fA w)) (x.rg (fB w))) (fun x w => mixTag [x.tagG (fA w), x.tagG (fB w)])
   let imm (v : W64 → W32 → W64) (op : Nat) : Prop :=
     GWrites .immArith .immArith (fun x w => opcode w = op ∧ NoShare x [fA w]) (fun x w => v (x.rg (fA w)) w)
       (fun x w => mixTag [x.tagG (fA w)])
   let shift (v : W64 → Nat → W64) (sel : Nat) : Prop :=
     GWrites .shi .shi (fun x w => fld w 8 8 = sel ∧ fld w 6 2 = 0 ∧ NoShare x [fA w]) (fun x w => v (x.rg (fA w)) (fld w 0 6))
       (fun x w => mixTag [x.tagG (fA w)])
   div (fun a b => if b = 0 then BitVec.allOnes 64 else a / b) 0x030 ∧ div (fun a b => if b = 0 then a else a % b) 0x031 ∧
   div (fun a b => if b = 0 then BitVec.allOnes 64 else BitVec.ofInt 64 (a.toInt.tdiv b.toInt)) 0x032 ∧
   div (fun a b => if b = 0 then a else BitVec.ofInt 64 (a.toInt.tmod b.toInt)) 0x033 ∧
   BitVec.ofInt 64 ((BitVec.intMin 64).toInt.tdiv (-1)) = BitVec.intMin 64 ∧ (BitVec.intMin 64).toInt.tmod (-1) = 0 ∧
   imm (fun a w => a + sImm w) 0x02 ∧ imm (fun a w => a &&& zImm w) 0x03 ∧ imm (fun a w => a ||| zImm w) 0x04 ∧
   GWrites .immArith .immArith (fun x w => opcode w = 0x05 ∧ NoShare x [fA w]) (fun x w => x.rg (fA w) ^^^ zImm w)
     (fun x w => xorTag [x.tagG (fA w)]) ∧
   imm (fun a w => if a.toInt < (sImm w).toInt then 1 else 0) 0x06 ∧ imm (fun a w => if a.toNat < (sImm w).toNat then 1 else 0) 0x07 ∧
   shift (fun a n => a <<< n) 0 ∧ shift (fun a n => a >>> n) 1 ∧ shift (fun a n => a.sshiftRight n) 2 ∧
   shift (fun a n => a.rotateRight n) 3 ∧
   Raises .shi .shi (fun _ _ w => fld w 6 2 ≠ 0 ∨ 3 < fld w 8 8) 0x01 (fun _ _ => 0) ∧
   GWrites .liz .liz (fun _ w => fld w 18 3 = 0) (fun _ w => zImm w <<< (16 * fld w 16 2)) (fun _ _ => .pub) ∧
   GWrites .lik .lik (fun x w => fld w 18 3 = 0 ∧ NoShare x [fD w])
     (fun x w => (x.rg (fD w) &&& ~~~((0xFFFF : W64) <<< (16 * fld w 16 2))) ||| (zImm w <<< (16 * fld w 16 2)))
     (fun x w => mixTag [x.tagG (fD w)])) ∧
  ((∀ a : W64, a ≠ 0 → ∃ n, n < 64 ∧ (clz a).toNat = 63 - n ∧ a.getLsbD n = true ∧ ∀ k, n < k → a.getLsbD k = false) ∧
   (∀ a : W64, a ≠ 0 → ∃ n, n < 64 ∧ (ctz a).toNat = n ∧ a.getLsbD n = true ∧ ∀ k, k < n → a.getLsbD k = false) ∧
   (clz 0).toNat = 64 ∧ (ctz 0).toNat = 64 ∧
   (∀ a : W64, (popc a).toNat = ((List.range 64).filter (fun k => a.getLsbD k)).length) ∧
   (∀ (a : W64) (k : Nat), k < 8 → (bswap a).toNat / 2 ^ (8 * k) % 256 = a.toNat / 2 ^ (8 * (7 - k)) % 256))

def Obligations.ControlTransfersGoToTheirTarget : Prop :=
  (∀ (s : State) (c : Nat) (w : W32), Issues .branch c w s → (core s c).tagG (fD w) = .pub → (core s c).tagG (fA w) = .pub →
    let a := (core s c).rg (fD w)
    let b := (core s c).rg (fA w)
    let taken : Prop := (opcode w = 0x20 ∧ a = b) ∨ (opcode w = 0x21 ∧ a ≠ b) ∨ (opcode w = 0x22 ∧ a.toInt < b.toInt) ∨
      (opcode w = 0x23 ∧ b.toInt ≤ a.toInt) ∨ (opcode w = 0x24 ∧ a.toNat < b.toNat) ∨ (opcode w = 0x25 ∧ b.toNat ≤ a.toNat)
    (taken → Runs (.branch c w) s (after c s s ((core s c).pc + 4 * sImm w))) ∧
    (¬ taken → Runs (.branch c w) s (after c s s ((core s c).pc + 4)))) ∧
  Raises .branch .branch (fun c s w => (core s c).tagG (fD w) ≠ .pub ∨ (core s c).tagG (fA w) ≠ .pub) 0x04 (fun _ _ => 0) ∧
  (∀ (s : State) (c : Nat) (w : W32), Issues .jmpl c w s →
    let link := if (core s c).compat = true ∧ fD w = 0 then 31 else fD w
    Runs (.jmpl c w) s (after c s (setCore c ((core s c).wg link ((core s c).pc + 4) .pub) s)
      ((core s c).pc + 4 * sext64 (fld w 0 21) 21))) ∧
  (∀ (s : State) (c : Nat) (w : W32), Issues .jmplr c w s → (core s c).tagG (fA w) = .pub →
    ((core s c).rg (fA w) + sImm w).toNat % 4 = 0 →
    let link := if (core s c).compat = true ∧ fD w = 0 then 31 else fD w
    Runs (.jmplr c w) s (after c s (setCore c ((core s c).wg link ((core s c).pc + 4) .pub) s)
      ((core s c).rg (fA w) + sImm w))) ∧
  Raises .jmplr .jmplr (fun c s w => (core s c).tagG (fA w) = .pub ∧ ((core s c).rg (fA w) + sImm w).toNat % 4 ≠ 0) 0x02
    (fun x w => x.rg (fA w) + sImm w) ∧
  Raises .jmplr .jmplr (fun c s w => (core s c).tagG (fA w) ≠ .pub) 0x04 (fun _ _ => 0) ∧
  Raises .load .load (fun c s w => (core s c).tagG (fA w) ≠ .pub ∧
    ∀ m, place s c ((core s c).rg (fA w) + sImm w).toNat (loadForm (opcode w)).1 ≠ .csr m) 0x04 (fun _ _ => 0) ∧
  Raises .store .store (fun c s w => (core s c).tagG (fA w) ≠ .pub ∧
    ∀ m, place s c ((core s c).rg (fA w) + sImm w).toNat (2 ^ (opcode w - 0x18)) ≠ .csr m) 0x04 (fun _ _ => 0) ∧
  -- an address of CSR space that holds no such CSR is illegal before its base is found tagged (R117, R119)
  Raises .load .load (fun c s w => c ≠ 256 ∧ (core s c).tagG (fA w) ≠ .pub ∧
    ∃ m v, place s c ((core s c).rg (fA w) + sImm w).toNat (loadForm (opcode w)).1 = .csr m ∧
      csrRead c m (core s c) s = .error (0x01, v)) 0x01 (fun _ _ => 0) ∧
  GWrites .regArith .regArith (fun x w => fFunct w = 0x000 ∧ x.tagG (fA w) = .secret ∧ NoShare x [fA w, fB w])
    (fun x w => x.rg (fA w) + x.rg (fB w)) (fun x w => mixTag [x.tagG (fA w), x.tagG (fB w)]) ∧
  GWrites .regArith .regArith (fun x w => fFunct w = 0x020 ∧ x.tagG (fA w) = .secret ∧ NoShare x [fA w, fB w, fD w])
    (fun x w => if x.rg (fA w) ≠ 0 then x.rg (fB w) else x.rg (fD w)) (fun _ _ => .secret) ∧
  (∀ (s : State) (c : Nat) (w : W32), mayIssue s c = true → klass w = .branch → Settled c s → (core s c).pc.toNat % 4 = 0 →
    fetchable s c (core s c).pc.toNat = false →
    Runs (.branch c w) s (afterInstr c (takeTrap c 0x03 (core s c).pc false s)))

/-- Loads, and the transfers of several registers. -/
def Obligations.LoadsReadActMemory : Prop :=
  ((∀ (op n : Nat) (sg : Bool), ((op = 0x10 ∧ n = 1 ∧ sg = true) ∨ (op = 0x11 ∧ n = 2 ∧ sg = true) ∨ (op = 0x12 ∧ n = 4 ∧ sg = true) ∨
       (op = 0x13 ∧ n = 8 ∧ sg = false) ∨ (op = 0x14 ∧ n = 1 ∧ sg = false) ∨ (op = 0x15 ∧ n = 2 ∧ sg = false) ∨
       (op = 0x16 ∧ n = 4 ∧ sg = false)) →
     ∀ (s : State) (c : Nat) (w : W32) (p : Place), Issues .load c w s → opcode w = op → (core s c).tagG (fA w) = .pub →
     let a := (core s c).rg (fA w) + sImm w
     let v := natOf (readBytes s p n)
     (place s c a.toNat n = .mem p ∨ place s c a.toNat n = .readOnly p) → anyShare s p n = false →
     (a.toNat % n = 0 ∨ (core s c).compat = true) →
     Runs (.load c w) s (after c s (setCore c ((core s c).wg (fD w) (if sg then sext64 v (8 * n) else BitVec.ofNat 64 v)
       (tagOver s p n)) s) ((core s c).pc + 4))) ∧
   (∀ (s : State) (c a : Nat) (n : Nat), c ≠ 256 → a + n ≤ 0x40000 → place s c a n = .mem (.loc c a)) ∧
   Raises .load .load (fun c s w => (core s c).tagG (fA w) ≠ .pub ∧
     ∀ m, place s c ((core s c).rg (fA w) + sImm w).toNat (loadForm (opcode w)).1 ≠ .csr m) 0x04 (fun _ _ => 0) ∧
   Raises .load .load (fun c s w => c ≠ 256 ∧ opcode w = 0x13 ∧ (core s c).tagG (fA w) = .pub ∧ (core s c).compat = false ∧
     ((core s c).rg (fA w) + sImm w).toNat % 8 ≠ 0 ∧ 2 ^ 28 ≤ ((core s c).rg (fA w) + sImm w).toNat) 0x02
     (fun x w => x.rg (fA w) + sImm w) ∧
   Raises .load .load (fun c s w => c ≠ 256 ∧ opcode w = 0x13 ∧ (core s c).tagG (fA w) = .pub ∧
     ((core s c).rg (fA w) + sImm w).toNat % 8 = 0 ∧ 2 ^ 28 ≤ ((core s c).rg (fA w) + sImm w).toNat) 0x03
     (fun x w => x.rg (fA w) + sImm w)) ∧
  ((∀ (s : State) (c : Nat) (w : W32), Issues .ldm c w s → c ≠ 256 → (core s c).compat = true → 1 ≤ fA w → fA w ≤ fB w →
     (core s c).tagG (fD w) = .pub → ((core s c).rg (fD w)).toNat + 8 * (fB w - fA w + 1) ≤ 0x40000 →
     (∀ k, k ≤ fB w - fA w → anyShare s (.loc c (((core s c).rg (fD w)).toNat + 8 * k)) 8 = false) →
     ∃ t, Runs (.ldm c w) s t ∧
       (∀ k, k ≤ fB w - fA w → (core t c).rg (fA w + k) =
         BitVec.ofNat 64 (natOf (readBytes s (.loc c (((core s c).rg (fD w)).toNat + 8 * k)) 8))) ∧
       (∀ r, (r < fA w ∨ fB w < r) → (core t c).rg r = (core s c).rg r ∧ (core t c).tagG r = (core s c).tagG r) ∧
       (core t c).pc = (core s c).pc + 4 ∧ t.mem = s.mem ∧ t.corex = s.corex ∧ (∀ d, d ≠ c → core t d = core s d)) ∧
   (∀ (s : State) (c : Nat) (w : W32), Issues .stm c w s → c ≠ 256 → (core s c).compat = true → 1 ≤ fA w → fA w ≤ fB w →
     (core s c).tagG (fD w) = .pub → ((core s c).rg (fD w)).toNat + 8 * (fB w - fA w + 1) ≤ 0x40000 →
     (∀ k, k ≤ fB w - fA w → ((core s c).tagG (fA w + k)).isShare = false) →
     ((∀ k, k ≤ fB w - fA w → anyShare s (.loc c (((core s c).rg (fD w)).toNat + 8 * k)) 8 = false) ∨
       (∀ k, k ≤ fB w - fA w → (core s c).tagG (fA w + k) = .pub)) →
     ∃ t, Runs (.stm c w) s t ∧
       (∀ k, k ≤ fB w - fA w → readBytes t (.loc c (((core s c).rg (fD w)).toNat + 8 * k)) 8 =
         bytesOf ((core s c).rg (fA w + k)).toNat 8) ∧
       (∀ a, (a < ((core s c).rg (fD w)).toNat ∨ ((core s c).rg (fD w)).toNat + 8 * (fB w - fA w + 1) ≤ a) → a < 0x40000 →
         readByte t (.loc c a) = readByte s (.loc c a)) ∧ t.mem.ringMem = s.mem.ringMem ∧
       (∀ r, (core t c).rg r = (core s c).rg r) ∧ (core t c).pc = (core s c).pc + 4 ∧ (∀ d, d ≠ c → core t d = core s d)) ∧
   Raises .ldm .ldm (fun c s w => (core s c).compat = false ∨ fA w = 0 ∨ fB w < fA w) 0x01 (fun _ _ => 0) ∧
   Raises .stm .stm (fun c s w => (core s c).compat = false ∨ fA w = 0 ∨ fB w < fA w) 0x01 (fun _ _ => 0))

/-- A store writes the low bytes of its register at its address, and no other byte of any memory. -/
def Obligations.StoresChangeOnlyTheirBytes : Prop :=
  (∀ (s : State) (c : Nat) (w : W32) (p : Place), Issues .store c w s → c ≠ 256 → (core s c).tagG (fA w) = .pub →
    ((core s c).tagG (fD w)).isShare = false →
    let n := 2 ^ (opcode w - 0x18)
    let a := (core s c).rg (fA w) + sImm w
    place s c a.toNat n = .mem p → (∀ l ∈ lineTags s p n, (l.join ((core s c).tagG (fD w))).isSome = true) →
    (a.toNat % n = 0 ∨ (core s c).compat = true) → lastInTurn s (c % 16) p n = true →
    ∃ t, Runs (.store c w) s t ∧
      readBytes t p n = bytesOf ((core s c).rg (fD w)).toNat n ∧
      (∀ q, Apart p n q → readByte t q = readByte s q) ∧
      t.mem.workMem = s.mem.workMem ∧ t.mem.loadWin = s.mem.loadWin ∧
      (∀ r, (core t c).rg r = (core s c).rg r ∧ (core t c).tagG r = (core s c).tagG r) ∧ (core t c).pc = (core s c).pc + 4 ∧
      (∀ d, d ≠ c → core t d = core s d ∧ corex t d = corex s d) ∧
      -- until the next FENCE the others see the bytes as they were (R109)
      corex t c = { corex s c with oldBytes := (corex t c).oldBytes, oldTags := (corex t c).oldTags } ∧
      (∀ k, k < n → Table.get none (corex s c).oldBytes (p.add k).cell = none →
        Table.get none (corex t c).oldBytes (p.add k).cell = some (readByte s (p.add k))) ∧
      t.tickets = s.tickets ∧ t.mgmt = s.mgmt ∧ t.fc = s.fc ∧ t.fcq = s.fcq) ∧
  -- of two ports' writes to a line of ring memory in one hub cycle, that of the port whose turn is later remains (R16, R18)
  (∀ (s : State) (port r o : Nat) (b : List Byte) (g : Tag) (w : BankWrite) (k : Nat), w ∈ s.fabric.bankNow → k < w.len →
    w.line ∈ lineNos (Place.ring r o).key b.length → turnOf s w.line port < turnOf s w.line w.port →
    let q : Place := .ring r (64 * w.line - r * 2 ^ 22 + w.off + k)
    readByte (bankWrite port (.ring r o) b g s) q = readByte s q) ∧
  -- the bank's pointer then stands behind the port served last
  (∀ (s : State) (w : BankWrite), s.fabric.bankNow = [w] → w.port < 27 →
    Table.get 0 (turnsPass s).fabric.bankTurn (bankOf w.line) = (w.port + 1) % 27 ∧
    (∀ b, b ≠ bankOf w.line → Table.get 0 (turnsPass s).fabric.bankTurn b = Table.get 0 s.fabric.bankTurn b)) ∧
  (∀ (s : State) (w : W32), Issues .store 256 w s → (core s 256).tagG (fA w) = .pub → ((core s 256).tagG (fD w)).isShare = false →
    let n := 2 ^ (opcode w - 0x18)
    let a := ((core s 256).rg (fA w) + sImm w).toNat
    a % n = 0 → 0x10000000 ≤ a → a + n ≤ 0x103C0000 →
    Runs (.store 256 w) s (after 256 s (writeTagged (.work (a - 0x10000000)) (bytesOf ((core s 256).rg (fD w)).toNat n)
      ((core s 256).tagG (fD w)) s) ((core s 256).pc + 4))) ∧
  -- a base that is not PUBLIC, a share where the place takes none, and data that no tag of the line joins with (R177, R178)
  Raises .store .store (fun c s w => (core s c).tagG (fA w) ≠ .pub ∧
    ∀ m, place s c ((core s c).rg (fA w) + sImm w).toNat (2 ^ (opcode w - 0x18)) ≠ .csr m) 0x04 (fun _ _ => 0) ∧
  -- an address of CSR space that holds no such CSR is illegal before its base is found tagged (R117, R119)
  Raises .load .load (fun c s w => c ≠ 256 ∧ (core s c).tagG (fA w) ≠ .pub ∧
    ∃ m v, place s c ((core s c).rg (fA w) + sImm w).toNat (loadForm (opcode w)).1 = .csr m ∧
      csrRead c m (core s c) s = .error (0x01, v)) 0x01 (fun _ _ => 0) ∧
  Raises .store .store (fun c s w => c ≠ 256 ∧ (core s c).tagG (fA w) = .pub ∧
    ∃ p, place s c ((core s c).rg (fA w) + sImm w).toNat (2 ^ (opcode w - 0x18)) = .mem p ∧
      (((core s c).tagG (fD w)).isShare = true ∨
        ∃ l ∈ lineTags s p (2 ^ (opcode w - 0x18)), l.join ((core s c).tagG (fD w)) = none)) 0x04 (fun _ _ => 0)

/-- A CSR read gives the register; a write, set or clear changes it alone. -/
def Obligations.CsrReadsAndWrites : Prop :=
  ((∀ (s : State) (c : Nat) (w : W32) (v : W64 × Tag), Issues .csrr c w s → fld w 12 4 = 0 →
     (0x100 ≤ fld w 0 12 ∧ fld w 0 12 ≤ 0x103 → (corex s c).vec.checks = []) →
     csrRead c (fld w 0 12) (core s c) s = .ok v →
     Runs (.csrr c w) s (after c s (setCore c ((core s c).wg (fD w) v.1 v.2) s) ((core s c).pc + 4))) ∧
   (∀ (s : State) (c n : Nat) (v : W64) (t : Tag), c < 256 →
     let x := core s c
     ((n = 0x002 ∧ v = BitVec.ofNat 64 (cycles s c) ∧ t = .pub) ∨ (n = 0x003 ∧ v = BitVec.ofNat 64 x.instret ∧ t = .pub) ∨
      (n = 0x004 ∧ v = s.rm.nt ∧ t = .pub) ∨ (n = 0x020 ∧ v = x.trap.vec ∧ t = .pub) ∨ (n = 0x021 ∧ v = x.trap.cause ∧ t = .pub) ∨
      (n = 0x022 ∧ v = x.trap.pc ∧ t = .pub) ∨ (n = 0x023 ∧ v = x.trap.val ∧ t = .pub) ∨
      (n = 0x024 ∧ v = x.trap.scratch ∧ t = x.trap.scratchTag) ∨ (n = 0x030 ∧ v = x.evMask.setWidth 64 ∧ t = .pub) ∨
      (n = 0x031 ∧ v = x.evPend.setWidth 64 ∧ t = .pub) ∨ (n = 0x032 ∧ v = x.timecmp ∧ t = .pub) ∨
      (n = 0x040 ∧ v = BitVec.ofNat 64 x.wsBase ∧ t = .pub) ∨ (n = 0x041 ∧ v = BitVec.ofNat 64 x.wsSize ∧ t = .pub) ∨
      (n = 0x101 ∧ v = (corex s c).vec.mask.setWidth 64 ∧ t = .pub) ∨ (n = 0x102 ∧ v = (corex s c).vec.faddr ∧ t = .pub) ∨
      (n = 0x103 ∧ v = (corex s c).vec.fval ∧ t = .pub) ∨ (n = 0x205 ∧ v = (corex s c).dcl.tagAddr ∧ t = .pub)) →
     csrRead c n x s = .ok (v, t)) ∧
   (∀ s : State, csrRead 256 0x800 (core s 256) s = .ok (s.mgmt.intVec, .pub) ∧
     csrRead 256 0x801 (core s 256) s = .ok (s.mgmt.intPend, .pub) ∧ csrRead 256 0x802 (core s 256) s = .ok (s.mgmt.intMask, .pub) ∧
     csrRead 256 0x803 (core s 256) s = .ok (s.mgmt.intPc, .pub)) ∧
   Raises .csrr .csrr (fun _ _ w => fld w 12 4 ≠ 0 ∨ fld w 0 12 = 0x005 ∨ fld w 0 12 = 0x0FF) 0x01 (fun _ _ => 0)) ∧
  ((∀ (s : State) (c : Nat) (w : W32) (v : W64) (t : Trap), Issues .csrw c w s → (core s c).tagG (fA w) = .pub →
     v = (core s c).rg (fA w) → fld w 12 4 = 0 →
     ((fld w 0 12 = 0x020 ∧ t = { (core s c).trap with vec := v }) ∨ (fld w 0 12 = 0x022 ∧ t = { (core s c).trap with pc := v }) ∨
      (fld w 0 12 = 0x024 ∧ t = { (core s c).trap with scratch := v, scratchTag := .pub })) →
     Runs (.csrw c w) s (after c s (setCore c { core s c with trap := t } s) ((core s c).pc + 4))) ∧
   (∀ (s : State) (c : Nat) (w : W32), Issues .csrw c w s → ((core s c).tagG (fA w)).isShare = false → fld w 12 4 = 0 →
     fld w 0 12 = 0x024 →
     Runs (.csrw c w) s (after c s (setCore c { core s c with trap := { (core s c).trap with
       scratch := (core s c).rg (fA w), scratchTag := mixTag [(core s c).tagG (fA w)] } } s) ((core s c).pc + 4))) ∧
   (∀ (s : State) (c : Nat) (w : W32), Issues .csrw c w s → (core s c).tagG (fA w) = .pub → fld w 12 4 = 0 →
     (fld w 0 12 = 0x030 → Runs (.csrw c w) s
       (after c s (setCore c { core s c with evMask := ((core s c).rg (fA w)).setWidth 10 } s) ((core s c).pc + 4))) ∧
     (fld w 0 12 = 0x032 → Runs (.csrw c w) s
       (after c s (setCore c { core s c with timecmp := (core s c).rg (fA w) } s) ((core s c).pc + 4))) ∧
     (fld w 0 12 = 0x031 → Runs (.csrw c w) s (after c s (setCore c { core s c with
       evPend := (w1c (2 ^ 30 + c) ((core s c).evPend.setWidth 64) ((core s c).rg (fA w)) s).setWidth 10 } s)
       ((core s c).pc + 4)))) ∧
   (∀ (s : State) (c : Nat) (w : W32), Issues .csrs c w s → (core s c).tagG (fA w) = .pub → fld w 12 4 = 0 → fld w 0 12 = 0x030 →
     Runs (.csrs c w) s (after c s (setCore c { core s c with
       evMask := (core s c).evMask ||| ((core s c).rg (fA w)).setWidth 10 } s) ((core s c).pc + 4))) ∧
   (∀ (s : State) (c : Nat) (w : W32), Issues .csrc c w s → (core s c).tagG (fA w) = .pub → fld w 12 4 = 0 → fld w 0 12 = 0x030 →
     Runs (.csrc c w) s (after c s (setCore c { core s c with
       evMask := (core s c).evMask &&& ~~~((core s c).rg (fA w)).setWidth 10 } s) ((core s c).pc + 4))) ∧
   (∀ (s : State) (w : W32), Issues .csrw 256 w s → (core s 256).tagG (fA w) = .pub → fld w 12 4 = 0 → fld w 0 12 = 0x802 →
     Runs (.csrw 256 w) s (after 256 s { s with mgmt := { s.mgmt with intMask := (core s 256).rg (fA w) } }
       ((core s 256).pc + 4))) ∧
   Raises .csrw .csrw (fun c s w => fld w 12 4 = 0 ∧ fld w 0 12 = 0x020 ∧ (core s c).tagG (fA w) ≠ .pub) 0x04 (fun _ _ => 0) ∧
   Raises .csrw .csrw (fun _ _ w => fld w 12 4 ≠ 0 ∨ fld w 0 12 = 0x000 ∨ fld w 0 12 = 0x021) 0x01
     (fun _ _ => 0) ∧
   Raises .csrs .csrs (fun c s w => (core s c).tagG (fA w) = .pub ∧ fld w 12 4 = 0 ∧ fld w 0 12 = 0x031) 0x01 (fun _ _ => 0) ∧
   Raises .csrc .csrc (fun c s w => (core s c).tagG (fA w) = .pub ∧ fld w 12 4 = 0 ∧ fld w 0 12 = 0x031) 0x01 (fun _ _ => 0))

/-- EXIT, WAIT, FENCE, TRET, BREAK, IRET, and the key and form instructions. -/
def Obligations.SystemInstructionsTakeEffect : Prop :=
  ((∀ (s : State) (c : Nat) (w : W32) (t : Ticket), Issues .exit c w s → c < 256 → (core s c).tagG (fA w) = .pub →
     (core s c).tagG (fB w) = .pub → ticketOn s c = some t → t.phase = .running c → t.act.toNat ≠ 1 → t.act.toNat ≠ 2 →
     t.act.toNat ≠ 0x601 → vendorAct t.act.toNat = none →
     let st : Byte := ((core s c).rg (fA w)).setWidth 8
     let n : W32 := ((core s c).rg (fB w)).setWidth 32
     exitOk t st n = true → st ≠ 0x50 →
     Runs (.exit c w) s (after c s (setCore c { core s c with run := .exiting st n, stallFrom := some (coreNow s c) } s)
       (core s c).pc)) ∧
   (∀ (s : State) (c : Nat) (w : W32), Issues .wait c w s →
     ((core s c).evPend &&& (core s c).evMask ≠ 0 → Runs (.wait c w) s (after c s s ((core s c).pc + 4))) ∧
     ((core s c).evPend &&& (core s c).evMask = 0 → Runs (.wait c w) s
       (after c s (setCore c { core s c with run := .waiting, stallFrom := some (coreNow s c) } s) ((core s c).pc + 4)))) ∧
   (∀ (s : State) (c : Nat) (w : W32), Issues .fence c w s → Runs (.fence c w) s (after c s (fenced c s) ((core s c).pc + 4)) ∧
     seenBeside (fenced c s) c = fenced c s) ∧
   (∀ (s : State) (c : Nat) (w : W32), Issues .tret c w s → Runs (.tret c w) s
     (after c s (setCore c { core s c with trap := { (core s c).trap with active := false } } s) (core s c).trap.pc)) ∧
   Raises .brk .brk (fun _ _ _ => True) 0x05 (fun _ _ => 0) ∧
   (∀ (s : State) (w : W32), Issues .iret 256 w s → Runs (.iret 256 w) s
     (after 256 s { s with mgmt := { s.mgmt with intActive := false } } s.mgmt.intPc)) ∧
   Raises .iret .iret (fun c _ _ => c ≠ 256) 0x01 (fun _ _ => 0) ∧
   Raises .exit .exit (fun c _ _ => c = 256) 0x01 (fun _ _ => 0) ∧
   Raises .exit .exit (fun c s w => c ≠ 256 ∧ ((core s c).tagG (fA w) ≠ .pub ∨ (core s c).tagG (fB w) ≠ .pub)) 0x04 (fun _ _ => 0) ∧
   -- an EXIT whose operands pass R113 ends the act, a vendor act with the outcome of its own checks (assumption 35)
   (∀ (s : State) (c : Nat) (w : W32) (t : Ticket), Issues .exit c w s → c < 256 → (core s c).tagG (fA w) = .pub →
     (core s c).tagG (fB w) = .pub → ticketOn s c = some t →
     let st : Byte := ((core s c).rg (fA w)).setWidth 8
     let n : W32 := ((core s c).rg (fB w)).setWidth 32
     exitOk t st n = true →
     let e := exitEnd s c t st n
     (∀ z m, e.1 = some (z, m) → z ≠ 0x50 → Runs (.exit c w) s (after c s (endAct c z m e.2) (core s c).pc)) ∧
     (∀ m, e.1 = some (0x50, m) → Runs (.exit c w) s (after c s (endAct c 0x50 m (report (Event.naming
       { cls := .f2, source := 0x08, unit := unitCore c, cause := 0x08, addr := (core s c).pc } t) (touch t.id .f2 e.2)))
       (core s c).pc)) ∧
     -- output that its release point does not release leaves no byte: the Glove blocks it (R198)
     (e.1 = none → Runs (.exit c w) s (after c s (egressBlocked c t.outIova e.2) (core s c).pc))) ∧
   Raises .exit .exit (fun c s w => c ≠ 256 ∧ (core s c).tagG (fA w) = .pub ∧ (core s c).tagG (fB w) = .pub ∧
     ∃ t, ticketOn s c = some t ∧
       exitOk t (((core s c).rg (fA w)).setWidth 8) (((core s c).rg (fB w)).setWidth 32) = false) 0x06 (fun _ _ => 0)) ∧
  ((∀ (s : State) (c : Nat) (w : W32), Issues .keyget c w s → c ≠ 256 → (core s c).tagG (fA w) = .pub → (core s c).tagG (fB w) = .pub →
     Runs (.keyget c w) s (after c s (setCore c { core s c with
       run := .keyget (fD w) (((core s c).rg (fA w)).setWidth 32) (((core s c).rg (fB w)).setWidth 8),
       stallFrom := some (coreNow s c) } s) (core s c).pc)) ∧
   (∀ (s : State) (c : Nat) (w : W32) (t : Ticket), Issues .formget c w s → c ≠ 256 → (core s c).tagG (fA w) = .pub →
     ticketOn s c = some t →
     (∀ q ∈ s.ush.copies, q.ring = ringOf c → q.handle = ((core s c).rg (fA w)).setWidth 32 → q.st ≠ .valid) →
     Runs (.formget c w) s (after c s (setCore c ((core s c).wg (fD w) 0 .pub) s) ((core s c).pc + 4))) ∧
   (∀ (s : State) (c k : Nat) (w : W32) (t : Ticket) (q : Copy), Issues .formget c w s → c ≠ 256 → (core s c).tagG (fA w) = .pub →
     ticketOn s c = some t → formOf s t (((core s c).rg (fA w)).setWidth 32) = some k → s.ush.copies = [q] → q.ring = ringOf c →
     q.handle = ((core s c).rg (fA w)).setWidth 32 → q.kind = k → q.st = .valid → handleIid q.handle = t.iid →
     (∃ g ∈ (core s c).grants, g.key = true ∧ g.handle = q.handle) → (core s c).grants.length < 8 →
     (ringOf c, q.handle, q.addr) ∈ t.uses →
     Runs (.formget c w) s (after c s (setCore c (Core.wg { core s c with grants := (core s c).grants ++ [{
         base := 0x1000000 + q.addr, size := roundUp q.size 64, key := false, handle := q.handle, usage := 0,
         attr := (keyEntry s q.handle).attr, len := q.size, secret := q.secret, cached := some q.kind }] }
       (fD w) (BitVec.ofNat 64 (0x1000000 + q.addr)) .pub) s) ((core s c).pc + 4))) ∧
   (∀ (s : State) (c : Nat) (w : W32), Issues .formput c w s → c ≠ 256 → (core s c).tagG (fA w) = .pub → (core s c).tagG (fB w) = .pub →
     (core s c).wsBase ≤ ((core s c).rg (fA w)).toNat →
     ((core s c).rg (fA w)).toNat + ((core s c).rg (fB w)).toNat ≤ (core s c).wsBase + (core s c).wsSize →
     Runs (.formput c w) s (after c s (setCore c { core s c with
       offer := some (((core s c).rg (fA w)).toNat, ((core s c).rg (fB w)).toNat) } s) ((core s c).pc + 4))) ∧
   Raises .formput .formput (fun c s w => c ≠ 256 ∧ (core s c).tagG (fA w) = .pub ∧ (core s c).tagG (fB w) = .pub ∧
     (core s c).wsBase + (core s c).wsSize < ((core s c).rg (fA w)).toNat + ((core s c).rg (fB w)).toNat) 0x03 (fun x w => x.rg (fA w)) ∧
   Raises .keyget .keyget (fun c s w => c ≠ 256 ∧ (core s c).tagG (fA w) ≠ .pub) 0x04 (fun _ _ => 0))

def Obligations.InterruptsAndTimerEvents : Prop :=
  (∀ (s : State) (k : Nat), Live s → k < 12 →
    ∃ t, Runs (.mgmtInterrupt k) s t ∧ t.mgmt.intPend = s.mgmt.intPend ||| BitVec.ofNat 64 (2 ^ k) ∧
      (((s.mgmt.intPend ||| BitVec.ofNat 64 (2 ^ k)) &&& s.mgmt.intMask ≠ 0 ∧ s.mgmt.intActive = false ∧ s.mgmt.held = false ∧
          (core s 256).run ≠ .waiting →
        t.mgmt.intActive = true ∧ t.mgmt.intPc = (core s 256).pc ∧ (core t 256).pc = s.mgmt.intVec) ∧
       (((s.mgmt.intPend ||| BitVec.ofNat 64 (2 ^ k)) &&& s.mgmt.intMask = 0 ∨ s.mgmt.intActive = true ∨ s.mgmt.held = true) →
        t = { s with mgmt := { s.mgmt with intPend := s.mgmt.intPend ||| BitVec.ofNat 64 (2 ^ k) } }))) ∧
  (∀ (s : State) (c : Nat), Live s → cycles s c < (core s c).timecmp.toNat → Runs (.timecmpReached c) s s) ∧
  (∀ (s : State) (c : Nat), Live s → c < coreCount s → c < 256 → (core s c).timecmp.toNat ≤ cycles s c →
    ∃ t, Runs (.timecmpReached c) s t ∧ (core t c).evPend = (core s c).evPend ||| 0x200 ∧
      ((core s c).run = .waiting → (core s c).evMask.getLsbD 9 = true → (core t c).run = .running) ∧
      ((core s c).run ≠ .waiting → (core t c).run = (core s c).run) ∧
      (core t c).pc = (core s c).pc ∧ (∀ d, d ≠ c → core t d = core s d) ∧ t.corex = s.corex ∧ t.mem = s.mem)

def Obligations.DmaTransfersQueueAndComplete : Prop :=
  (∀ (s : State) (c : Nat) (t : Ticket) (v : W64), AtIssue c s → ticketOn s c = some t →
    field v.toNat 0 3 ≤ 1 → field v.toNat 4 3 ≤ 1 → (corex s c).dma.queue.length < 4 → (corex s c).dma.len ≠ 0 →
    spaceFails s c t (field v.toNat 0 3) (corex s c).dma.src.toNat (corex s c).dma.len.toNat false = none →
    spaceFails s c t (field v.toNat 4 3) (corex s c).dma.dst.toNat (corex s c).dma.len.toNat true = none →
    let x : DmaXfer := {
      srcSpace := field v.toNat 0 3, dstSpace := field v.toNat 4 3, src := (corex s c).dma.src, dst := (corex s c).dma.dst,
      len := (corex s c).dma.len.toNat, xfers := [s.fabric.nextXfer], since := s.time.ticks, unsent := s.pcie.d3hot }
    let u := setCorex c { corex s c with dma := { (corex s c).dma with queue := (corex s c).dma.queue ++ [x] } } s
    -- the flits of the transfer carry what the channel reads at its source (R24, R109)
    ∀ p, rangePlace u c x.src.toNat x.len false = .ok p →
      Runs (.dmaStart c v) s (after c s (beginXfer (ringOf c) (ringOf c) x.len (some t.id) (readBytes (seenBeside u c) p x.len) u)
        ((core s c).pc + 4))) ∧
  (∀ (s : State) (c : Nat) (t : Ticket) (x : DmaXfer) (l : List DmaXfer), Live s → ticketOn s c = some t → t.phase = .running c →
    (corex s c).dma.queue = x :: l → xfersDone s x.xfers = true → (dmaPerform c t x s).2 = true →
    Runs (.dmaDone c) s (dmaCount c (setDma c { dma (dmaPerform c t x s).1 c with queue := l } (dmaPerform c t x s).1))) ∧
  (∀ (s : State) (c : Nat) (x : DmaXfer) (l : List DmaXfer), Live s → (corex s c).dma.queue = x :: l → xfersDone s x.xfers = false →
    Runs (.dmaDone c) s s) ∧
  -- the channel reads what the core's stores before its last FENCE left (R109, R116)
  (∀ (s : State) (c : Nat), (corex s c).oldBytes = [] → (corex s c).oldTags = [] → seenBeside s c = s) ∧
  (∀ (s : State) (c a b n : Nat) (t : Ticket) (x : DmaXfer), x.srcSpace = 0 → x.dstSpace = 0 → x.src.toNat = a → x.dst.toNat = b →
    x.len = n → a + n ≤ 0x40000 → b + n ≤ 0x40000 → 0 < n →
    (dmaPerform c t x s).2 = true ∧ readBytes (dmaPerform c t x s).1 (.loc c b) n = readBytes (seenBeside s c) (.loc c a) n ∧
    (∀ k, k < 0x40000 → (k < b ∨ b + n ≤ k) → readByte (dmaPerform c t x s).1 (.loc c k) = readByte s (.loc c k)) ∧
    (dmaPerform c t x s).1.mem.ringMem = s.mem.ringMem) ∧
  (∀ (s : State) (c : Nat), (core s c).run ≠ .waiting →
    (dma (dmaCount c s) c).done = (dma s c).done + 1 ∧ (core (dmaCount c s) c).evPend = (core s c).evPend ||| 1)

/-! ### Vector instructions (R130–R151, R183–R187) -/

/-- Element-wise arithmetic, predicates and moves. -/
def Obligations.VectorElementsAreComputedOneByOne : Prop :=
  (let gives (f : Nat) (g : Nat → Nat → Nat → Nat) : Prop :=
     ∀ (s : State) (c : Nat) (w : W32), Issues .vecAlu c w s → vFunct w = f →
       let u := vec s c
       let wd := ewBits (vEw w)
       let b (e : Nat) : Nat := if opcode w = 0x39 then ((core s c).rg (fB w)).toNat % 2 ^ wd else elem (u.rv (fB w)) wd e
       (u.tagV (fA w)).isShare = false → (opcode w = 0x38 → (u.tagV (fB w)).isShare = false) →
       (opcode w = 0x39 → ((core s c).tagG (fB w)).isShare = false) → (u.tagV (fD w)).isShare = false →
       ∃ t, Runs (.vecAlu c w) s t ∧ VectorFrame c s t ∧
         (∀ e, e < ewCount (vEw w) → elem ((vec t c).rv (fD w)) wd e =
           if (u.rp (vPg w)).getLsbD e then g wd (elem (u.rv (fA w)) wd e) (b e) else if vZ w then 0 else elem (u.rv (fD w)) wd e) ∧
         (∀ r, r ≠ fD w → (vec t c).rv r = u.rv r ∧ (vec t c).tagV r = u.tagV r) ∧ (vec t c).p = u.p ∧ (vec t c).ptag = u.ptag ∧
         (vec t c).checks = u.checks ∧ (vec t c).pending = u.pending
   gives 0x00 (fun w a b => (a + b) % 2 ^ w) ∧ gives 0x01 (fun w a b => (a + 2 ^ w - b) % 2 ^ w) ∧ gives 0x02 (fun _ a b => a &&& b) ∧
   gives 0x03 (fun _ a b => a ||| b) ∧ gives 0x04 (fun _ a b => a ^^^ b) ∧ gives 0x05 (fun w a b => a &&& (2 ^ w - 1 - b)) ∧
   gives 0x06 (fun w a b => a * 2 ^ (b % w) % 2 ^ w) ∧ gives 0x07 (fun w a b => a / 2 ^ (b % w)) ∧
   gives 0x08 (fun w a b => unsigned w (signed w a / 2 ^ (b % w))) ∧ gives 0x0A (fun w a b => a * b % 2 ^ w) ∧
   gives 0x0B (fun w a b => a * b / 2 ^ w) ∧ gives 0x0C (fun w a b => unsigned w (signed w a * signed w b / 2 ^ w)) ∧
   gives 0x0E (fun _ a b => min a b) ∧ gives 0x0F (fun _ a b => max a b) ∧
   gives 0x10 (fun w a b => if signed w a ≤ signed w b then a else b) ∧ gives 0x11 (fun w a b => if signed w a ≤ signed w b then b else a) ∧
   gives 0x12 (fun _ a b => if a ≤ b then b - a else a - b) ∧
   Raises .vecAlu .vecAlu (fun _ _ w => vFunct w = 0x16 ∨ vFunct w = 0x1F) 0x01 (fun _ _ => 0)) ∧
  ((∀ (s : State) (c : Nat) (w : W32), Issues .vecPred c w s → vFunct w ≤ 5 → 1 ≤ fD w → fD w < 8 →
     ((vec s c).tagV (fA w)).isShare = false → ((vec s c).tagV (fB w)).isShare = false →
     let u := vec s c
     let wd := ewBits (vEw w)
     let holds (a b : Nat) : Prop := (vFunct w = 0 ∧ a = b) ∨ (vFunct w = 1 ∧ a ≠ b) ∨ (vFunct w = 2 ∧ a < b) ∨
       (vFunct w = 3 ∧ signed wd a < signed wd b) ∨ (vFunct w = 4 ∧ b ≤ a) ∨ (vFunct w = 5 ∧ signed wd b ≤ signed wd a)
     ∃ t, Runs (.vecPred c w) s t ∧ VectorFrame c s t ∧ (vec t c).v = u.v ∧
       (∀ e, e < 128 → (((vec t c).rp (fD w)).getLsbD e = true ↔
         e < ewCount (vEw w) ∧ (u.rp (vPg w)).getLsbD e = true ∧ holds (elem (u.rv (fA w)) wd e) (elem (u.rv (fB w)) wd e))) ∧
       (∀ r, r ≠ fD w → (vec t c).rp r = u.rp r)) ∧
   (∀ (s : State) (c : Nat) (w : W32), Issues .vecPred c w s → vFunct w = 0x08 → 1 ≤ fD w → fD w < 8 → fA w < 8 → fB w < 8 →
     vEw w = 0 → vPg w = 0 →
     ∃ t, Runs (.vecPred c w) s t ∧ VectorFrame c s t ∧ (vec t c).rp (fD w) = (vec s c).rp (fA w) &&& (vec s c).rp (fB w) ∧
       (vec t c).v = (vec s c).v) ∧
   (∀ (s : State) (c : Nat) (w : W32), Issues .vecPred c w s → vFunct w = 0x10 → (core s c).tagG (fB w) = .pub →
     ((vec s c).tagV (fA w)).isShare = false →
     Runs (.vecPred c w) s (after c s (setCore c ((core s c).wg (fD w)
       (BitVec.ofNat 64 (elem ((vec s c).rv (fA w)) (ewBits (vEw w)) (((core s c).rg (fB w)).toNat % ewCount (vEw w))))
       (((vec s c).tagV (fA w)).lineJoin (predTag ((vec s c).tagP (vPg w))))) s) ((core s c).pc + 4))) ∧
   (∀ u : VecUnit, u.rp 0 = BitVec.allOnes 128 ∧ ∀ x t, u.wp 0 x t = u) ∧
   Raises .vecPred .vecPred (fun _ _ w => 0x13 ≤ vFunct w ∨ (vFunct w ≤ 5 ∧ 8 ≤ fD w)) 0x01 (fun _ _ => 0) ∧
   (∀ (s : State) (c : Nat) (w : W32), Issues .vfence c w s → fld w 5 21 = 0 →
     Runs (.vfence c w) s (after c s s ((core s c).pc + 4))) ∧
   (∀ (s : State) (c : Nat) (w : W32), mayIssue s c = true → c < 256 → klass w = .vfence → (core s c).pc.toNat % 4 = 0 →
     fetchable s c (core s c).pc.toNat = true → fetchReread s c = false → fetchHeld s c (core s c).pc.toNat = false →
     ((vec s c).checks ≠ [] → Runs (.vfence c w) s s) ∧
     ((vec s c).checks = [] → (vec s c).pending = true → Runs (.vfence c w) s (deliverVector c s))))

/-- Arithmetic modulo q, reductions and products in bit-sliced fields. -/
def Obligations.ModularVectorResults : Prop :=
  (let gives (f : Nat) (g : Nat → Nat → Nat → Nat) : Prop :=
     ∀ (s : State) (c q : Nat) (w : W32), Issues .vecMod c w s → vFunct w = f → modulus (vEw w) = some q →
       let u := vec s c
       let wd := ewBits (vEw w)
       (u.tagV (fA w)).isShare = false → (u.tagV (fB w)).isShare = false → (u.tagV (fD w)).isShare = false →
       ∃ t, Runs (.vecMod c w) s t ∧ VectorFrame c s t ∧
         (∀ e, e < ewCount (vEw w) → elem ((vec t c).rv (fD w)) wd e =
           if (u.rp (vPg w)).getLsbD e then g q (elem (u.rv (fA w)) wd e % q) (elem (u.rv (fB w)) wd e % q)
           else if vZ w then 0 else elem (u.rv (fD w)) wd e) ∧
         (∀ r, r ≠ fD w → (vec t c).rv r = u.rv r ∧ (vec t c).tagV r = u.tagV r) ∧ (vec t c).p = u.p
   modulus 1 = some 3329 ∧ modulus 2 = some 8380417 ∧ gives 0 (fun q a b => (a + b) % q) ∧ gives 1 (fun q a b => (a + q - b) % q) ∧
   gives 2 (fun q a b => a * b % q) ∧
   (∀ (s : State) (c q : Nat) (w : W32), Issues .vecMod c w s → vFunct w = 3 → modulus (vEw w) = some q → fD w ≠ fA w →
     let u := vec s c
     let wd := ewBits (vEw w)
     (u.tagV (fA w)).isShare = false → (u.tagV (fB w)).isShare = false → (u.tagV (fD w)).isShare = false →
     ∃ t, Runs (.vecMod c w) s t ∧ VectorFrame c s t ∧
       (∀ e, e < ewCount (vEw w) → (u.rp (vPg w)).getLsbD e = true →
         elem ((vec t c).rv (fD w)) wd e = (elem (u.rv (fD w)) wd e + elem (u.rv (fB w)) wd e * elem (u.rv (fA w)) wd e) % q ∧
         (elem ((vec t c).rv (fA w)) wd e + elem (u.rv (fB w)) wd e * elem (u.rv (fA w)) wd e) % q = elem (u.rv (fD w)) wd e % q) ∧
       (∀ r, r ≠ fD w → r ≠ fA w → (vec t c).rv r = u.rv r)) ∧
   Raises .vecMod .vecMod (fun _ _ w => vEw w = 0 ∨ vEw w = 3 ∨ 0x05 < vFunct w) 0x01 (fun _ _ => 0)) ∧
  ((∀ (s : State) (c : Nat) (w : W32), Issues .vecReduce c w s → vFunct w = 0 → ((vec s c).tagV (fA w)).isShare = false →
     let u := vec s c
     let wd := ewBits (vEw w)
     let val (e : Nat) : Int := if vZ w then signed wd (elem (u.rv (fA w)) wd e) else elem (u.rv (fA w)) wd e
     Runs (.vecReduce c w) s (after c s (setCore c ((core s c).wg (fD w)
       (BitVec.ofInt 64 (((List.range (ewCount (vEw w))).filter (fun e => (u.rp (vPg w)).getLsbD e)).map val).sum)
       (mixTag [u.tagV (fA w), predTag (u.tagP (vPg w))])) s) ((core s c).pc + 4))) ∧
   (∀ (s : State) (c : Nat) (w : W32), Issues .vecReduce c w s → vFunct w = 1 → ((vec s c).tagV (fA w)).isShare = false →
     ((vec s c).tagV (fB w)).isShare = false → vZ w = false →
     let u := vec s c
     let wd := ewBits (vEw w)
     let d (e : Nat) : Nat := ((elem (u.rv (fA w)) wd e : Int) - elem (u.rv (fB w)) wd e).natAbs
     Runs (.vecReduce c w) s (after c s (setCore c ((core s c).wg (fD w)
       (BitVec.ofNat 64 (((List.range (ewCount (vEw w))).filter (fun e => (u.rp (vPg w)).getLsbD e)).map d).sum)
       (mixTag [u.tagV (fA w), predTag (u.tagP (vPg w)), u.tagV (fB w)])) s) ((core s c).pc + 4))) ∧
   Raises .vecReduce .vecReduce (fun _ _ w => 0x04 < vFunct w) 0x01 (fun _ _ => 0) ∧
   (∀ (s : State) (c m poly : Nat) (w : W32), Issues .vecGf c w s → gfField (vEw w) = some (m, poly) → vFunct w ≤ 1 → vZ w = false →
     vPg w = 0 → ((vec s c).tagV (fA w)).isShare = false → ((vec s c).tagV (fB w)).isShare = false →
     let u := vec s c
     ∃ t, Runs (.vecGf c w) s t ∧ VectorFrame c s t ∧
       (∀ j, j < 64 → sliced m ((vec t c).rv (fD w)) j =
         if vFunct w = 0 then sliced m (u.rv (fA w)) j ^^^ sliced m (u.rv (fB w)) j
         else gfMul m poly (sliced m (u.rv (fA w)) j) (sliced m (u.rv (fB w)) j)) ∧
       (∀ r, r ≠ fD w → (vec t c).rv r = u.rv r)) ∧
   Raises .vecGf .vecGf (fun _ _ w => 1 < vEw w ∨ 0x05 < vFunct w) 0x01 (fun _ _ => 0))

/-- The seven triple instructions, for every value of the free bits: the result triple has the value the instruction computes, and
carries the three share tags. -/
def Obligations.TriplesHoldTheComputedValue : Prop :=
  let result (mk : Nat → W32 → Instr) (k : Klass) (two : Bool) (words : Nat) (ok : VecUnit → W32 → Prop)
      (goal : VecUnit → VecUnit → W32 → Nat → Nat → Prop) : Prop :=
    ∀ (s : State) (c : Nat) (w : W32), Issues k c w s → fD w < 10 → fA w < 10 → fB w < 10 → (two = false → fB w = 0) →
      tripleOk (vec s c) (fA w) = true → (two = true → tripleOk (vec s c) (fB w) = true) → words ≤ (corex s c).rndBuf.length →
      ok (vec s c) w →
      ∃ t, Runs (mk c w) s t ∧ VectorFrame c s t ∧ (corex t c).rndBuf = (corex s c).rndBuf.drop words ∧
        (∀ e, e < ewCount (vEw w) → ((vec s c).rp (vPg w)).getLsbD e = true → goal (vec s c) (vec t c) w (ewBits (vEw w)) e) ∧
        (∀ j, j < 3 → (vec t c).tagV (3 * fD w + j) = shareTag j) ∧
        (∀ r, (r < 3 * fD w ∨ 3 * fD w + 2 < r) → (vec t c).rv r = (vec s c).rv r ∧ (vec t c).tagV r = (vec s c).tagV r)
  let any : VecUnit → W32 → Prop := fun _ _ => True
  result .vsxor .vsxor true 0 any (fun u v w wd e => boolVal v wd (fD w) e = boolVal u wd (fA w) e ^^^ boolVal u wd (fB w) e) ∧
  result .vsand .vsand true 3 any (fun u v w wd e => boolVal v wd (fD w) e = boolVal u wd (fA w) e &&& boolVal u wd (fB w) e) ∧
  result .vsadd .vsadd true 0 any (fun u v w wd e => arithVal v wd (2 ^ wd) (fD w) e =
    (arithVal u wd (2 ^ wd) (fA w) e + arithVal u wd (2 ^ wd) (fB w) e) % 2 ^ wd) ∧
  (∀ q, (q = 3329 ∨ q = 8380417) → result .vsmmul .vsmmul true 3 (fun _ w => modulus (vEw w) = some q) (fun u v w wd e =>
    arithVal v wd q (fD w) e = arithVal u wd q (fA w) e * arithVal u wd q (fB w) e % q)) ∧
  result .vsref .vsref false 3 (fun u w => Table.get kindUnknown u.kind (fA w) = 0) (fun u v w wd e =>
    boolVal v wd (fD w) e = boolVal u wd (fA w) e) ∧
  result .vsref .vsref false 3 (fun u w => Table.get kindUnknown u.kind (fA w) = 1) (fun u v w wd e =>
    arithVal v wd (2 ^ wd) (fD w) e = arithVal u wd (2 ^ wd) (fA w) e) ∧
  (∀ q, (q = 3329 ∨ q = 8380417) → result .vsref .vsref false 3 (fun u w => Table.get kindUnknown u.kind (fA w) = 2 ∧ modulus (vEw w) = some q)
    (fun u v w wd e => arithVal v wd q (fD w) e = arithVal u wd q (fA w) e)) ∧
  result .vsref .vsref false 3 (fun u w => Table.get kindUnknown u.kind (fA w) = kindUnknown) (fun u v w wd e =>
    boolVal v wd (fD w) e = boolVal u wd (fA w) e ∨ arithVal v wd (2 ^ wd) (fD w) e = arithVal u wd (2 ^ wd) (fA w) e ∨
    ∃ q, modulus (vEw w) = some q ∧ arithVal v wd q (fD w) e = arithVal u wd q (fA w) e) ∧
  result .vsa2b .vsa2b false 6 (fun u w => Table.get kindUnknown u.kind (fA w) = 1) (fun u v w wd e =>
    boolVal v wd (fD w) e = arithVal u wd (2 ^ wd) (fA w) e) ∧
  (∀ q, (q = 3329 ∨ q = 8380417) → result .vsa2b .vsa2b false 6 (fun u w => Table.get kindUnknown u.kind (fA w) = 2 ∧ modulus (vEw w) = some q)
    (fun u v w wd e => boolVal v wd (fD w) e = arithVal u wd q (fA w) e)) ∧
  result .vsb2a .vsb2a false 4 any (fun u v w wd e => arithVal v wd (2 ^ wd) (fD w) e = boolVal u wd (fA w) e) ∧
  Raises .vsand .vsand (fun _ _ w => 10 ≤ fD w ∨ 10 ≤ fA w ∨ 10 ≤ fB w) 0x01 (fun _ _ => 0) ∧
  Raises .vsand .vsand (fun c s w => fD w < 10 ∧ fA w < 10 ∧ fB w < 10 ∧ tripleOk (vec s c) (fA w) = false) 0x04 (fun _ _ => 0)

/-- Addresses of elements, loads of active elements, and the first-fault load. -/
def Obligations.VectorLoadsFillActiveElements : Prop :=
  (∀ (w : W32) (x : Core) (u : VecUnit) (e : Nat),
     (vMode w % 4 = 0 → elemAddr w x u e = x.rg (fA w) + BitVec.ofNat 64 (e * 2 ^ vEw w)) ∧
     (vMode w % 4 = 1 → elemAddr w x u e = x.rg (fA w) + BitVec.ofNat 64 e * x.rg (fB w)) ∧
     (vMode w % 4 = 2 → elemAddr w x u e =
       x.rg (fA w) + BitVec.ofNat 64 (elem (u.rv (fB w)) (ewBits (vEw w)) e * 2 ^ vEw w))) ∧
  (let loads (mk : Nat → W32 → Instr) (k : Klass) (m : Nat) : Prop :=
     ∀ (s : State) (c : Nat) (w : W32), Issues k c w s → vMode w = m → vmLegal w true = true → vGroup w = 0 →
       vmTagged w (core s c) (vec s c) = false → ((vec s c).tagV (fD w) = .pub ∨ (vec s c).tagV (fD w) = .secret) →
       let u := vec s c
       let wd := ewBits (vEw w)
       let found (e : Nat) := elemCheck s c (core s c).compat false (wd / 8) (elemAddr w (core s c) u e)
       (∀ e p, found e = .ok p → ∀ g ∈ lineTags s p (wd / 8), g = .pub ∨ g = .secret) →
       ∃ t, Runs (mk c w) s t ∧ VectorFrame c s t ∧
         (∀ e, e < ewCount (vEw w) → elem ((vec t c).rv (fD w)) wd e =
           match (if (u.rp (vPg w)).getLsbD e then some (found e) else none) with
           | some (.ok p) => natOf (readBytes s p (wd / 8))
           | _ => elem (u.rv (fD w)) wd e) ∧
         (∀ r, r ≠ fD w → (vec t c).rv r = u.rv r) ∧ (vec t c).p = u.p ∧ (vec t c).pending = u.pending ∧
         (vec t c).checks = u.checks ++ [checkOf w (core s c).pc (elemAddr w (core s c) u) found
           ((List.range (ewCount (vEw w))).filter (fun e => (u.rp (vPg w)).getLsbD e))]
   loads .vld .vld 0 ∧ loads .vlds .vlds 1 ∧ loads .vldx .vldx 2 ∧
   Raises .vld .vld (fun _ _ w => vmLegal w true = false) 0x01 (fun _ _ => 0) ∧
   Raises .vld .vld (fun c s w => vmLegal w true = true ∧ (core s c).tagG (fA w) ≠ .pub) 0x04 (fun _ _ => 0)) ∧
  (∀ (s : State) (c : Nat) (w : W32), Issues .firstFault c w s → vmLegal w true = true →
     vmTagged w (core s c) (vec s c) = false → ((vec s c).tagV (fD w) = .pub ∨ (vec s c).tagV (fD w) = .secret) →
     let u := vec s c
     let wd := ewBits (vEw w)
     (∀ e p, elemCheck s c (core s c).compat false (wd / 8) (elemAddr w (core s c) u e) = .ok p →
       ∀ g ∈ lineTags s p (wd / 8), g = .pub ∨ g = .secret) →
     let good (e : Nat) : Bool :=
       match elemCheck s c (core s c).compat false (wd / 8) (elemAddr w (core s c) u e) with
       | .ok _ => true
       | .error _ => false
     let loaded (e : Nat) : Prop :=
       (u.rp (vPg w)).getLsbD e = true ∧ ∀ d, d ≤ e → (u.rp (vPg w)).getLsbD d = true → good d = true
     ∃ t, Runs (.firstFaultLoad c w) s t ∧ VectorFrame c s t ∧ (vec t c).pending = u.pending ∧
       (∀ e, e < ewCount (vEw w) → ¬ loaded e → elem ((vec t c).rv (fD w)) wd e = elem (u.rv (fD w)) wd e) ∧
       (∀ e, e < ewCount (vEw w) → loaded e →
         ∃ p, elemCheck s c (core s c).compat false (wd / 8) (elemAddr w (core s c) u e) = .ok p ∧
           elem ((vec t c).rv (fD w)) wd e = natOf (readBytes s p (wd / 8))) ∧
       ((∃ e, e < ewCount (vEw w) ∧ (u.rp (vPg w)).getLsbD e = true ∧ good e = false) →
         ∀ e, e < ewCount (vEw w) → (((vec t c).rp (vPg w)).getLsbD e = true ↔ loaded e)) ∧
       ((∀ e, e < ewCount (vEw w) → (u.rp (vPg w)).getLsbD e = true → good e = true) → (vec t c).rp (vPg w) = u.rp (vPg w)) ∧
       (vec t c).checks = u.checks ++ [{ addr := (core s c).pc, fault := none }])

/-- Vector stores: only bytes of active elements whose place may be written change, and a check is left outstanding. -/
def Obligations.VectorStoresWriteActiveElements : Prop :=
  let stores (mk : Nat → W32 → Instr) (k : Klass) (m : Nat) : Prop :=
    ∀ (s : State) (c : Nat) (w : W32), Issues k c w s → vMode w = m → vmLegal w false = true → vGroup w = 0 →
      vmTagged w (core s c) (vec s c) = false → ((vec s c).tagV (fD w) = .pub ∨ (vec s c).tagV (fD w) = .secret) →
      let u := vec s c
      let wd := ewBits (vEw w)
      let found (e : Nat) := elemCheck s c (core s c).compat true (wd / 8) (elemAddr w (core s c) u e)
      let writes (e : Nat) (p : Place) : Prop :=
        e < ewCount (vEw w) ∧ (u.rp (vPg w)).getLsbD e = true ∧ found e = .ok p
      (∀ e p k, writes e p → k < wd / 8 → lineTag s (p.add k) = .pub ∨ lineTag s (p.add k) = .secret) →
      (∀ e p, writes e p → lastInTurn s (c % 16) p (wd / 8) = true) →
      ∃ t, Runs (mk c w) s t ∧ (vec t c).v = u.v ∧ (vec t c).p = u.p ∧ (core t c).pc = (core s c).pc + 4 ∧
        (∀ r, (core t c).rg r = (core s c).rg r) ∧ (∀ d, d ≠ c → core t d = core s d ∧ corex t d = corex s d) ∧
        (∀ q, (∀ e p, writes e p → Apart p (wd / 8) q) → readByte t q = readByte s q) ∧
        (∀ e p, writes e p → (∀ f r, writes f r → e < f → ∀ n, n < wd / 8 → Apart r (wd / 8) (p.add n)) →
          readBytes t p (wd / 8) = bytesOf (elem (u.rv (fD w)) wd e) (wd / 8)) ∧
        (vec t c).checks = u.checks ++ [checkOf w (core s c).pc (elemAddr w (core s c) u) found
          ((List.range (ewCount (vEw w))).filter (fun e => (u.rp (vPg w)).getLsbD e))] ∧
        t.tickets = s.tickets ∧ t.mgmt = s.mgmt ∧ t.fc = s.fc ∧ t.fcq = s.fcq ∧ t.mem.workMem = s.mem.workMem
  stores .vst .vst 4 ∧ stores .vsts .vsts 5 ∧ stores .vstx .vstx 6 ∧
  Raises .vst .vst (fun _ _ w => vmLegal w false = false) 0x01 (fun _ _ => 0)

def Obligations.VectorFaultsAreRecordedAndDelivered : Prop :=
  (∀ (s : State) (c : Nat), (vec s c).checks = [] → Runs (.vectorElementCheck c) s s) ∧
  (∀ (s : State) (c : Nat) (k : VecCheck) (r : List VecCheck), (vec s c).checks = k :: r → k.fault = none →
    (corex s c).micro.trapped = false →
    Runs (.vectorElementCheck c) s (setVec c { vec s c with checks := r } s)) ∧
  -- a micro-trap has saved the outstanding checks: they end after it (R162)
  (∀ (s : State) (c : Nat), (corex s c).micro.trapped = true → Runs (.vectorElementCheck c) s s) ∧
  (∀ (s : State) (c : Nat) (k : VecCheck) (r : List VecCheck) (cause : Byte) (a : W64) (m : W32), (vec s c).checks = k :: r →
    k.fault = some (cause, a, m) → (vec s c).pending = false → (corex s c).micro.trapped = false →
    Runs (.vectorElementCheck c) s (noteSet (2 ^ 31 + 2 * c + 1) (m.setWidth 64) (setVec c { vec s c with
      checks := r, pending := true, cause := cause, mask := m, faddr := k.addr, fval := a } s))) ∧
  (∀ (s : State) (c : Nat) (k : VecCheck) (r : List VecCheck) (f : Byte × W64 × W32), (vec s c).checks = k :: r →
    k.fault = some f → (vec s c).pending = true → (corex s c).micro.trapped = false →
    Runs (.vectorElementCheck c) s (noteSet (2 ^ 31 + 2 * c) 2 (setVec c { vec s c with checks := r, multi := true } s))) ∧
  (∀ (s : State) (c : Nat), (core s c).trap.vec ≠ 0 → (core s c).trap.active = false →
    let t := deliverVector c s
    (core t c).pc = (core s c).trap.vec ∧ (core t c).trap.cause = (vec s c).cause.setWidth 64 ∧
    (core t c).trap.val = (vec s c).fval ∧ (core t c).trap.pc = (core s c).pc ∧ (vec t c).pending = false ∧
    (vec t c).mask = (vec s c).mask)

/-! ### Engines (R186–R281) -/

/-- Releases, and the seeds and stops of the mask generator. -/
def Obligations.DeclassificationAndMasks : Prop :=
  ((∀ (s : State) (c : Nat) (v : W64) (t : Ticket), AtIssue c s → ticketOn s c = some t → 1 ≤ t.act.toNat → t.act.toNat ≤ 0x0FFF →
     Settled c s →
     Runs (.dclGo c v) s (after c s (setDcl c { dcl s c with going := some v } (releaseBegins c v s)) ((core s c).pc + 4))) ∧
   (∀ (s : State) (c : Nat) (v : W64) (t : Ticket) (p : Place), ticketOn s c = some t →
     let r := releaseOf (dcl s c) v
     releaseFails s c t r = none → workPlace s c r.dst r.size = some p → lastInTurn s (c % 16) p r.size = true →
     (∀ k, k < r.size → lineTag (releaseBegins c v s) (p.add k) = .secret) ∧
     (∀ q, Apart p r.size q → readByte (releaseBegins c v s) q = readByte s q)) ∧
   (∀ (s : State) (c : Nat) (v : W64) (t : Ticket), ticketOn s c = some t → releaseFails s c t (releaseOf (dcl s c) v) ≠ none →
     releaseBegins c v s = s) ∧
   (∀ (s : State) (c : Nat) (v : W64) (t : Ticket), AtIssue c s → ticketOn s c = some t → 0x1000 ≤ t.act.toNat → Settled c s →
     Runs (.dclGo c v) s (takeTrap c 0x01 0 false s)) ∧
   (∀ (s : State) (c : Nat) (v : W64) (t : Ticket) (e : Byte), Live s → (dcl s c).going = some v → ticketOn s c = some t →
     (corex s c).micro.trapped = false → (corex s c).micro.faulted = false → controlReread s c = false → releaseFails s c t (releaseOf (dcl s c) v) = some e →
     ∃ u, Runs (.dclReleaseDone c) s u ∧ dcl u c = { dcl s c with result := e, going := none } ∧ u.mem = s.mem ∧ u.cores = s.cores) ∧
   (∀ (s : State) (c a : Nat) (v : W64) (t : Ticket) (p : Place), Live s → (dcl s c).going = some v → ticketOn s c = some t →
     (corex s c).micro.trapped = false → (corex s c).micro.faulted = false → controlReread s c = false →
     let r := releaseOf (dcl s c) v
     releaseFails s c t r = none → workPlace s c r.dst r.size = some p → attemptOf s c r = some a →
     lastInTurn s (c % 16) p r.size = true →
     ∃ u, Runs (.dclReleaseDone c) s u ∧ (dcl u c).attempt = BitVec.ofNat 4 a ∧ (dcl u c).result = 0 ∧ (dcl u c).going = none ∧
       readBytes u p r.size = releasedBytes s c r a ∧ (∀ q, Apart p r.size q → readByte u q = readByte s q) ∧
       (∀ k, k < r.size → lineTag u (p.add k) = .pub) ∧
       (r.point = 1 → (dcl u c).released = (dcl s c).released + BitVec.ofNat 32 r.len) ∧
       (r.point ≠ 1 → (dcl u c).released = (dcl s c).released) ∧ u.cores = s.cores ∧ u.tickets = s.tickets) ∧
   (∀ (s : State) (c : Nat) (v : W64) (t : Ticket) (p : Place), Live s → (dcl s c).going = some v → ticketOn s c = some t →
     (corex s c).micro.trapped = false → (corex s c).micro.faulted = false → controlReread s c = false →
     let r := releaseOf (dcl s c) v
     releaseFails s c t r = none → workPlace s c r.dst r.size = some p → attemptOf s c r = none →
     ∃ u, Runs (.dclReleaseDone c) s u ∧ (dcl u c).attempt = 15 ∧ (dcl u c).result = 1 ∧ (dcl u c).released = (dcl s c).released ∧
       (∀ q, Apart p r.size q → readByte u q = readByte s q))) ∧
  ((∀ (s : State) (r k : Nat), Live s → r < ringCount s → k < 8 → s.boot.ringUp.getLsbD r = true →
     ((stream s r k).requested = false → ((stream s r k).seeded = false ∨ 2 ^ 28 ≤ (stream s r k).words) →
       Runs (.mrgSeedRequest r k) s (setStream r k { stream s r k with requested := true } s)) ∧
     (∀ b, drbgAnswer s (.mrgSeed r k) = some (some b) →
       Runs (.mrgSeedArrival r k) s (setStream r k { seeded := true, seed := BitVec.ofNat 256 (natOf b), producing := true, words := 0, requested := false }
         (drbgCancel (.mrgSeed r k) s))) ∧
     ((stream s r k).producing = true → 2 ^ 30 ≤ (stream s r k).words →
       Runs (.mrgInstanceStop r k) s (report
         { cls := .f0, source := 0x0C, unit := BitVec.ofNat 16 (0x3000 + 16 * r + 8), cause := 0x15, detail0 := BitVec.ofNat 64 k }
         (setStream r k { stream s r k with producing := false } s))) ∧
     ((stream s r k).producing = true → (stream s r k).words < 2 ^ 30 → Runs (.mrgInstanceStop r k) s s)) ∧
   (∀ (s : State) (c n : Nat) (t : Ticket), Live s → ticketOn s c = some t → (corex s c).rndWait = some (n, false) →
     600000 ≤ s.time.ticks - n →
     Runs (.randomnessWaitNotice c) s (report (Event.naming
         { cls := .f0, source := 0x0C, unit := unitCore c, cause := 0x12, detail0 := 100 } t)
       (setCorex c { corex s c with rndWait := some (n, true) } s))) ∧
   (∀ (s : State) (c n : Nat), Live s → (corex s c).rndWait = some (n, true) → Runs (.randomnessWaitNotice c) s s))

/-- A store to HE_CMD waits behind the core's earlier commands; what each leaves when it completes. -/
def Obligations.HashCommandsQueueAndComplete : Prop :=
  ((∀ (mk : Nat → Nat → W64 → Instr) (op : Nat),
     ((mk = .heInit ∧ op = 1) ∨ (mk = .heAbsorb ∧ op = 2) ∨ (mk = .heFinal ∧ op = 3) ∨ (mk = .heSqueeze ∧ op = 4) ∨
      (mk = .heHash ∧ op = 5) ∨ (mk = .heCopy ∧ op = 6) ∨ (mk = .heRandom ∧ op = 7)) →
     ∀ (s : State) (c e : Nat) (v : W64), AtIssue c s → e < 2 → field v.toNat 0 4 = op →
       let g := hashEng s c e
       let q : HashCmd := { op := op, ctx := field v.toNat 12 2, alg := field v.toNat 8 4, src := g.src.toNat, dst := g.dst.toNat,
                            len := g.len.toNat, out := field g.aux.toNat 0 32, pr := bit g.aux 32 }
       let x := Table.get {} (ctxView e g) q.ctx
       field v.toNat 4 4 = 0 → field v.toNat 14 50 = 0 → q.alg ≤ 5 → (q.alg = 0 ∨ op = 1 ∨ op = 5) → (op ≠ 7 ∨ e = 0) →
       outBad e q = false → phaseAllows e op x = true →
       ((op = 2 ∨ op = 5) → q.len ≤ 4194304 ∧
         (q.len = 0 ∨ ∃ p, rangePlace s c q.src q.len false = .ok p ∧ anyShare s p q.len = false)) →
       (hashOutLen e q x = 0 ∨ ∃ p, rangePlace s c q.dst (hashOutLen e q x) true = .ok p) → g.queue.length < 4 →
       Runs (mk c e v) s (after c s (heServe (ringOf c) e (openGate (unitEngine (ringOf c) (4 + e))
         (setHashEng c e { g with queue := g.queue ++ [q] } s))) ((core s c).pc + 4))) ∧
   (∀ (s : State) (c e : Nat) (v : W64), AtIssue c s → Settled c s → e < 2 → field v.toNat 0 4 = 1 → 5 < field v.toNat 8 4 →
     Runs (.heInit c e v) s (takeTrap c 0x03 0 false s)) ∧
   (∀ (s : State) (c e : Nat) (v : W64), AtIssue c s → Settled c s → e < 2 → field v.toNat 0 4 = 4 →
     (Table.get {} (ctxView e (hashEng s c e)) (field v.toNat 12 2)).phase ≠ .squeezing →
     Runs (.heSqueeze c e v) s (takeTrap c 0x03 0 false s))) ∧
  ((∀ (s s' : State) (c e : Nat) (q : HashCmd) (l : List HashCmd), Live s → e < 2 → (hashEng s c e).queue = q :: l →
     let r := ringOf c
     let u := heServe r e s
     (hashTurn u r e).busy.contains (c % 16) = true → hePerform c e q u = some s' →
     let t := hashTurn s' r e
     Runs (.heCmdDone c e) s (raiseEvent c (5 + e) (heServe r e (setHashEng c e { hashEng s' c e with
         queue := l, done := (hashEng s' c e).done + 1 }
       (setHashTurn r e { t with busy := t.busy.filter (fun y => y != c % 16) } s'))))) ∧
   (∀ (s : State) (c e : Nat), Live s → (hashTurn (heServe (ringOf c) e s) (ringOf c) e).busy.contains (c % 16) = false →
     Runs (.heCmdDone c e) s (heServe (ringOf c) e s)) ∧
   (∀ (s : State) (r e : Nat), (hashTurn s r e).busy.length ≤ hashUnits e →
     (hashTurn (heServe r e s) r e).busy.length ≤ hashUnits e) ∧
   (∀ (s : State) (r e y : Nat), y < 16 → (hashTurn s r e).busy.length < hashUnits e → (hashTurn s r e).busy.contains y = false →
     (∀ z ∈ (hashTurn s r e).busy, (hashEng s (16 * r + z) e).queue ≠ []) →
     (∃ q l, (hashEng s (16 * r + y) e).queue = q :: l ∧ q.op ≠ 7) →
     (∀ z, z < 16 → z ≠ y → (hashEng s (16 * r + z) e).queue ≠ [] → (hashTurn s r e).busy.contains z = false →
       (y + 15 - (hashTurn s r e).last % 16) % 16 < (z + 15 - (hashTurn s r e).last % 16) % 16) →
     (hashTurn (heServe r e s) r e).busy.contains y = true) ∧
   (∀ (s : State) (c e : Nat) (q : HashCmd), Live s → e < 2 → q.op = 1 →
     ∃ t, hePerform c e q s = some t ∧ ((hashEng t c e).at q.ctx) = { alg := q.alg, phase := .absorbing } ∧ t.mem = s.mem) ∧
   (∀ (s : State) (c e : Nat) (q : HashCmd) (p : Place), e < 2 → q.op = 2 → rangePlace s c q.src q.len false = .ok p →
     ∃ t, hePerform c e q s = some t ∧ t.mem = s.mem ∧
       ((hashEng t c e).at q.ctx).msg = ((hashEng s c e).at q.ctx).msg ++ readBytes (seenBeside s c) p q.len) ∧
   (∀ (s : State) (c e : Nat) (q : HashCmd) (p : Place), e < 2 → q.op = 3 → isShake e ((hashEng s c e).at q.ctx).alg = false →
     ((hashEng s c e).at q.ctx).alg ≤ 5 →
     let x := (hashEng s c e).at q.ctx
     rangePlace s c q.dst (digestLen e x.alg) true = .ok p → lastInTurn s (20 + e) p (digestLen e x.alg) = true →
     ∃ t, hePerform c e q s = some t ∧
       readBytes t p (digestLen e x.alg) = (List.range (digestLen e x.alg)).map (hashByte e x.alg x.msg) ∧
       ((hashEng t c e).at q.ctx).phase = .idle ∧ ((hashEng t c e).at q.ctx).msg = []) ∧
   (∀ (s : State) (c e : Nat) (q : HashCmd), e < 2 → q.op = 6 → q.out < 4 →
     ∃ t, hePerform c e q s = some t ∧ (hashEng t c e).at q.out = (hashEng s c e).at q.ctx ∧ t.mem = s.mem) ∧
   (∀ (s : State) (c e : Nat) (q : HashCmd), q.op = 7 → drbgAnswer s (.hash c e) = none → hePerform c e q s = none))

/-- Claims, the queueing of commands, and their results. -/
def Obligations.MaelhoavoClaimsAndCommands : Prop :=
  ((∀ (s : State) (c k : Nat) (v : W64), AtIssue c s → k < 4 → 1 ≤ field v.toNat 0 5 → field v.toNat 0 5 ≤ 16 → field v.toNat 5 3 = 0 →
     2 ≤ field v.toNat 8 8 → field v.toNat 8 8 ≤ 130 → field v.toNat 16 48 = 0 → (meWin s c k).held = false →
     (meWin s c k).pending = none →
     let e := engineOf s (ringOf c) k
     let g := meEng s (ringOf c) e
     let later (q : Nat × Nat) : Bool := (meWin s q.1 q.2).asked == s.time.ticks && (meWin s q.1 q.2).pending.isSome && c < q.1
     Runs (.meClaim c k v) s (after c s (openGate (unitEngine (ringOf c) e) (setMeWin c k { meWin s c k with
       pending := some (field v.toNat 0 5, field v.toNat 8 8), asked := s.time.ticks } (setMeEng (ringOf c) e { g with
         queue := g.queue.takeWhile (fun q => !later q) ++ [(c, k)] ++ g.queue.dropWhile (fun q => !later q) } s)))
       ((core s c).pc + 4))) ∧
   (∀ (s : State) (r e c k p l : Nat) (rest : List (Nat × Nat)), Live s → (meEng s r e).queue = (c, k) :: rest →
     (meEng s r e).retired = false → (meWin s c k).pending = some (p, l) → (meEng s r e).pagesUsed + p ≤ 16 →
     (meEng s r e).limbsUsed + l ≤ 130 →
     ∃ t, Runs (.meClaimGrant r e) s t ∧ (meWin t c k).held = true ∧ (meWin t c k).pages = p ∧ (meWin t c k).limbs = l ∧
       (meWin t c k).acc = 0 ∧ (meWin t c k).scratch = [] ∧ (meWin t c k).pending = none ∧ (meEng t r e).queue = rest ∧
       (meEng t r e).pagesUsed = (meEng s r e).pagesUsed + p ∧ (meEng t r e).limbsUsed = (meEng s r e).limbsUsed + l ∧ t.mem = s.mem) ∧
   (∀ (s : State) (r e c k p l : Nat) (rest : List (Nat × Nat)), Live s → (meEng s r e).queue = (c, k) :: rest →
     (meWin s c k).pending = some (p, l) → (16 < (meEng s r e).pagesUsed + p ∨ 130 < (meEng s r e).limbsUsed + l) →
     Runs (.meClaimGrant r e) s s) ∧
   (∀ (s : State) (c k : Nat) (v : W64), AtIssue c s → k < 4 → field v.toNat 0 8 = 0 → field v.toNat 16 48 = 0 →
     (meWin s c k).held = true → (meWin s c k).queue = [] →
     Runs (.meRelease c k v) s (after c s (endClaim c k s) ((core s c).pc + 4))) ∧
   (∀ (s : State) (r e c p l : Nat) (i : Option Nat) (rest : List (Nat × Nat × Nat × Option Nat)), Live s →
     (meEng s r e).scrubs = (c, p, l, i) :: rest →
     let t := setMeEng r e { meEng s r e with
       scrubs := rest, pagesUsed := (meEng s r e).pagesUsed - p, limbsUsed := (meEng s r e).limbsUsed - l } s
     (i = none → Runs (.meScrubDone r e) s t) ∧ (∀ n, i = some n → Runs (.meScrubDone r e) s (checkDrained n t)))) ∧
  ((∀ (mk : Nat → Nat → W64 → Instr) (op : Nat),
     ((mk = .meZero ∧ op = 3) ∨ (mk = .aclr ∧ op = 4) ∨ (mk = .aload ∧ op = 5) ∨ (mk = .astore ∧ op = 6) ∨ (mk = .ashr ∧ op = 7) ∨
      (mk = .meMac ∧ op = 8) ∨ (mk = .macl ∧ op = 9) ∨ (mk = .mrow ∧ op = 10) ∨ (mk = .meLoad ∧ op = 1) ∨ (mk = .meStore ∧ op = 2)) →
     ∀ (s : State) (c k : Nat) (v : W64) (t : Ticket), AtIssue c s → k < 4 → field v.toNat 0 4 = op → ticketOn s c = some t →
       let w := meWin s c k
       let q := meCmdOf w v
       w.held = true → field v.toNat 5 3 = 0 → field v.toNat 11 5 = 0 → field v.toNat 36 4 = 0 → field v.toNat 48 16 = 0 →
       meLegal q w.limbs = true → (∀ r ∈ meRanges q, r.1 % 8 = 0 ∧ r.1 + r.2 ≤ 1024 * w.pages) → w.queue.length < 4 →
       (op = 1 → spaceFails s c t q.space q.src q.len false = none ∧
         (q.space ≤ 1 → ∃ p, rangePlace s c q.src q.len false = .ok p ∧ anyShare s p q.len = false)) →
       (op = 2 → spaceFails s c t q.space q.dst q.len true = none) →
       let r := ringOf c
       let q' : MeCmd := { q with
         order := (core s c).instret, since := s.time.ticks, unsent := s.pcie.d3hot, xfers := if op ≤ 2 then xferIds s q.len else [] }
       let u := openGate (unitEngine r (engineOf s r k)) (meServe r (engineOf s r k) (setMeWin c k { w with queue := w.queue ++ [q'] } s))
       (3 ≤ op → Runs (mk c k v) s (after c s u ((core s c).pc + 4))) ∧
       -- LOAD and STORE begin a transfer, whose flits carry the bytes that it moves (R23, R24, R236)
       (op = 1 → q.space = 2 → Runs (mk c k v) s (after c s (beginXfer hubStop r q.len (some t.id)
         ((inputBytes t q.src q.len none).getD []) (askInput t q.src q.len u)) ((core s c).pc + 4))) ∧
       (op = 1 → q.space ≤ 1 → ∀ p, rangePlace s c q.src q.len false = .ok p →
         Runs (mk c k v) s (after c s (beginXfer r r q.len (some t.id) (readBytes (seenBeside s c) p q.len) u) ((core s c).pc + 4))) ∧
       (op = 2 → Runs (mk c k v) s (after c s (beginXfer r (if q.space = 3 then hubStop else r) q.len (some t.id)
         (w.read q.src q.len) u) ((core s c).pc + 4)))) ∧
   (∀ (s : State) (c k : Nat) (v : W64), AtIssue c s → Settled c s → k < 4 → field v.toNat 0 4 = 4 → (meWin s c k).held = false →
     Runs (.aclr c k v) s (takeTrap c 0x03 0 false s))) ∧
  ((∀ (s s' : State) (c k : Nat) (q : MeCmd) (l : List MeCmd), Live s → k < 4 → (meWin s c k).queue = q :: l →
     let u := meServe (ringOf c) (engineOf s (ringOf c) k) s
     meExecutes u c k = true → xfersDone u q.xfers = true → mePerform c k q u = some s' → (meWin s' c k).releasing = false →
     let t := meUnitFree c k (setMeWin c k { meWin s' c k with queue := l, done := (meWin s' c k).done + 1 } s')
     Runs (.meCmdDone c k) s (raiseEvent c (1 + engineOf t (ringOf c) k) t)) ∧
   (∀ (s : State) (c k : Nat), Live s → k < 4 →
     let u := meServe (ringOf c) (engineOf s (ringOf c) k) s
     (meExecutes u c k = false ∨ ∃ q l, (meWin u c k).queue = q :: l ∧ xfersDone u q.xfers = false) → Runs (.meCmdDone c k) s u) ∧
   (∀ (s : State) (r e : Nat), (meEng s r e).mul.busy.length ≤ 1 → (meEng s r e).dma.busy.length ≤ 1 →
     (meEng (meServe r e s) r e).mul.busy.length ≤ 1 ∧ (meEng (meServe r e s) r e).dma.busy.length ≤ 1) ∧
   (∀ (s : State) (c k : Nat) (q : MeCmd), 3 ≤ q.op → mePerform c k q s = some (setMeWin c k (meCompute q (meWin s c k)) s)) ∧
   -- a STORE to the core's memories writes the scratch bytes to its destination (R236)
   (∀ (s : State) (c k : Nat) (q : MeCmd) (t : Ticket) (p : Place), q.op = 2 → q.space ≤ 1 → ticketOn s c = some t →
     rangePlace s c q.dst q.len true = .ok p → lastInTurn s (enginePort (engineOf s (ringOf c) k)) p q.len = true →
     ∃ u, mePerform c k q s = some u ∧ readBytes u p q.len = (meWin s c k).read q.src q.len ∧
       (∀ x, Apart p q.len x → readByte u x = readByte s x)) ∧
   (∀ (q : MeCmd) (w : MeWin), q.op = 4 → meCompute q w = { w with acc := 0, accTag := .pub, ovf := false }) ∧
   (∀ (q : MeCmd) (w : MeWin), q.op = 5 → (meCompute q w).acc = natOf (readWin w.scratch q.opa (8 * q.na)) ∧
     (meCompute q w).ovf = false ∧ (meCompute q w).scratch = w.scratch) ∧
   (∀ (q : MeCmd) (w : MeWin), q.op = 6 → w.acc < 2 ^ (64 * w.limbs) →
     natOf (readWin (meCompute q w).scratch q.dst (8 * q.na)) = w.acc / 2 ^ (64 * q.sh) % 2 ^ (64 * q.na) ∧
     (meCompute q w).acc = w.acc) ∧
   (∀ (q : MeCmd) (w : MeWin), q.op = 7 → w.acc < 2 ^ (64 * w.limbs - 1) → 1 ≤ w.limbs →
     (meCompute q w).acc = w.acc / 2 ^ (64 * q.sh)) ∧
   (∀ (q : MeCmd) (w : MeWin), q.op = 8 → q.sub = false → 1 ≤ w.limbs →
     let p := w.limbsAt q.opa q.na * w.limbsAt q.opb q.nb * 2 ^ (64 * q.sh)
     w.acc + p < 2 ^ (64 * w.limbs - 1) → (meCompute q w).acc = w.acc + p ∧ (meCompute q w).ovf = w.ovf) ∧
   (∀ (q : MeCmd) (w : MeWin), q.op = 9 → q.sub = true → 1 ≤ w.limbs → w.acc < 2 ^ (64 * w.limbs - 1) →
     let p := w.limbsAt q.opa q.na * q.limb.toNat * 2 ^ (64 * q.sh)
     p ≤ w.acc → (meCompute q w).acc = w.acc - p ∧ (meCompute q w).ovf = w.ovf))

/-- One row of Montgomery reduction divides exactly: with NPRIME the negated inverse of the modulus and no overflow. -/
def Obligations.MontgomeryRowDividesExactly : Prop :=
  ∀ (w : MeWin) (a m b np : Nat), 2 ≤ w.limbs → (m * np + 1) % 2 ^ 64 = 0 → w.acc + a * b + m * 2 ^ 64 < 2 ^ (64 * w.limbs - 1) →
    let q := (w.acc + a * b) % 2 ^ 64 * np % 2 ^ 64
    (w.mrowStep a m b np).acc * 2 ^ 64 = w.acc + a * b + m * q ∧ (w.mrowStep a m b np).ovf = w.ovf ∧
      (w.mrowStep a m b np).limbs = w.limbs

/-- A store to BC_CMD waits behind the core's earlier commands; what each leaves when it completes. -/
def Obligations.BlockCipherCommandsQueueAndComplete : Prop :=
  ((∀ (mk : Nat → Nat → W64 → Instr) (op : Nat),
     ((mk = .ldkey ∧ op = 1) ∨ (mk = .clrkey ∧ op = 2) ∨ (mk = .derive ∧ op = 3) ∨ (mk = .enc ∧ op = 4) ∨ (mk = .dec ∧ op = 5) ∨
      (mk = .bcMac ∧ op = 6) ∨ (mk = .pindec ∧ op = 7) ∨ (mk = .pinfmt ∧ op = 8) ∨ (mk = .pinenc ∧ op = 9) ∨ (mk = .wrap ∧ op = 10) ∨
      (mk = .unwrap ∧ op = 11)) →
     ∀ (s : State) (c e : Nat) (v : W64), AtIssue c s → e < 2 → field v.toNat 0 4 = op →
       let g := bcEng s c e
       let n := v.toNat
       let q : BcCmd := { op := op, kr := field n 8 2, ks := field n 12 2, mode := field n 16 4, param := field n 20 4,
                          src := g.src.toNat, dst := g.dst.toNat, len := g.len.toNat, aux := g.aux.toNat }
       let kr := krAt g.view q.kr
       let ks := krAt g.view q.ks
       field n 4 4 = 0 → field n 10 2 = 0 → field n 14 2 = 0 → field n 24 40 = 0 → bcDefined e op q.mode q.param = true →
       bcKeysOk e op q.param kr ks = true → ((op = 4 ∨ op = 5) → q.len % blockBytes e = 0) → q.len ≤ 4194304 →
       ((op = 7 ∨ op = 8 ∨ op = 9) → q.len = 0) →
       (op = 1 → (keyGrantAt s c q.src).isSome = true ∧ ∃ k, bcLoad s c q = some k ∧ (engineHas e k.alg = true ∨ k.kind = 2)) →
       (op ≠ 1 → rangeFails s c q.src (bcSrcLen e q) false = none) → rangeFails s c q.aux (bcAuxLen e q) false = none →
       rangeFails s c q.dst (bcDstLen e q ks) true = none →
       (∀ p, bcSrcLen e q ≠ 0 → rangePlace s c q.src (bcSrcLen e q) false = .ok p → anyShare s p (bcSrcLen e q) = false) →
       g.queue.length < 4 →
       let q' : BcCmd := { q with load := bcLoad s c q }
       Runs (mk c e v) s (after c s (openGate (unitEngine (ringOf c) (6 + e)) (setBcEng c e { g with
         queue := g.queue ++ [q'], view := bcView q' g.view } s)) ((core s c).pc + 4))) ∧
   (∀ (s : State) (c e : Nat) (v : W64), AtIssue c s → Settled c s → e < 2 → field v.toNat 0 4 = 4 →
     shareRange s c (bcEng s c e).src.toNat (bcEng s c e).len.toNat = false →
     krAt (bcEng s c e).view (field v.toNat 8 2) = none → Runs (.enc c e v) s (takeTrap c 0x03 0 false s))) ∧
  ((∀ (s s' : State) (c e : Nat) (q : BcCmd) (l : List BcCmd), Live s → e < 2 → (bcEng s c e).queue = q :: l →
     bcPerform c e q s = some s' →
     Runs (.bcCmdDone c e) s (raiseEvent c (7 + e) (setBcEng c e { bcEng s' c e with
       queue := l, done := (bcEng s' c e).done + 1 } s'))) ∧
   (∀ (s : State) (c e : Nat) (q : BcCmd), q.op = 2 →
     ∃ t, bcPerform c e q s = some t ∧ krAt (bcEng t c e).kr q.kr = none ∧
       (∀ k, k ≠ q.kr → krAt (bcEng t c e).kr k = krAt (bcEng s c e).kr k) ∧ t.mem = s.mem) ∧
   (∀ (s : State) (c e : Nat) (q : BcCmd) (k : KeyReg) (p r : Place), e < 2 → q.op = 4 → q.mode = 0 → krAt (bcEng s c e).kr q.kr = some k →
     q.len = blockBytes e → rangePlace s c q.src q.len false = .ok p → rangePlace s c q.dst q.len true = .ok r →
     lastInTurn s (22 + e) r q.len = true →
     ∃ t, bcPerform c e q s = some t ∧
       readBytes t r q.len = (List.range q.len).map (Config.cipher true e k.key (readBytes (seenBeside s c) p q.len)) ∧
       (∀ x, Apart r q.len x → readByte t x = readByte s x)) ∧
   (∀ (s : State) (c e : Nat) (q : BcCmd) (k : KeyReg) (p r : Place), e < 2 → q.op = 5 → q.mode = 0 → krAt (bcEng s c e).kr q.kr = some k →
     q.len = blockBytes e → rangePlace s c q.src q.len false = .ok p → rangePlace s c q.dst q.len true = .ok r →
     lastInTurn s (22 + e) r q.len = true →
     ∃ t, bcPerform c e q s = some t ∧
       readBytes t r q.len = (List.range q.len).map (Config.cipher false e k.key (readBytes (seenBeside s c) p q.len))) ∧
   (∀ (s : State) (c e : Nat) (q : BcCmd), q.op = 8 → drbgAnswer s (.pinfmt c e) = none → bcPerform c e q s = none) ∧
   (∀ (q : BcCmd) (kr ks : KeyReg) (src aux : Tag), bcClass q kr ks src aux ≠ .secret →
     (bcClass q kr ks src aux = .cipher ∧ 4 ≤ q.op ∧ q.op ≤ 6 ∧ src = .pub) ∨
     (bcClass q kr ks src aux = .pinf ∧ (q.op = 7 ∨ q.op = 8) ∧ kr.usage = 1) ∨
     (bcClass q kr ks src aux = .pinblk ∧ q.op = 9 ∧ kr.usage = 1 ∧ src = .pinf) ∨
     (bcClass q kr ks src aux = .wrapped ∧ q.op = 10 ∧ kr.usage = 6 ∧ src = .pub)))

/-- A clear PIN field built of 4 to 12 digits parses to those digits, in each of the four formats and for every fill. -/
def Obligations.PinFieldsParseToTheirDigits : Prop :=
  ∀ (fmt : Nat) (d : List Nat) (drbg : List Byte), (fmt = 0 ∨ fmt = 1 ∨ fmt = 3 ∨ fmt = 4) → 4 ≤ d.length → d.length ≤ 12 →
    (∀ x ∈ d, x ≤ 9) → parsePin fmt (buildPin fmt d drbg) = some d ∧
      (buildPin fmt d drbg).length = (if fmt = 4 then 16 else 8) ∧ pinDigits (pinRecord d) = some d

/-! ### The act store, patches and the key store (R123–R128, R165–R172, R282–R313) -/

/-- Loading and unloading acts, and patches. -/
def Obligations.ActsAndPatchesLoad : Prop :=
  ((∀ s : State, Writable s → s.acts.busy = false → s.patch.busy = false → s.mgmt.held = false →
     Runs .actLoad s { s with acts := { s.acts with busy := true, unloading := none } }) ∧
   (∀ s : State, Writable s → (s.acts.busy = true ∨ s.patch.busy = true ∨ s.mgmt.held = true) →
     Runs .actLoad s (ignoredWrite 0x14 0x1000 (BitVec.ofNat 64 (0x80000000 + s.acts.loadAct.toNat)) none s)) ∧
   (∀ (s : State) (n : Half), Writable s → s.acts.busy = false →
     ∃ t, Runs (.unload n) s t ∧ t.acts.busy = true ∧ t.acts.unloading = some n ∧ (deviceAct t n).isNone = true ∧
       ((deviceAct s n).isSome = true → t.acts.result = 0) ∧ ((deviceAct s n).isSome = false → t.acts.result = 6) ∧
       (∀ m, m ≠ n → deviceAct t m = deviceAct s m) ∧ t.acts.floor = s.acts.floor ∧ t.tickets = s.tickets ∧ t.mem = s.mem) ∧
   (∀ (s : State) (p v : Bool) (off : Nat) (n : Half), Live s → s.acts.busy = true → s.mgmt.held = false → s.acts.unloading = some n →
     Runs (.actLoadDone p v off) s (sweepActs { s with acts := { s.acts with busy := false, unloading := none } })) ∧
   (∀ (s : State) (p v : Bool) (off : Nat), Live s → s.acts.busy = true → s.mgmt.held = false → s.acts.unloading = none →
     ∃ t, Runs (.actLoadDone p v off) s t ∧ t.acts.busy = false ∧ t.acts.result = (actLoadOutcome p v off s).1 ∧
       (t.acts.result = 0 → p = true ∧ v = true ∧ actRootLocked s (natOf (readWin s.mem.loadWin 35 1)) = true) ∧ (t.acts.result ≠ 0 → t.acts.acts = s.acts.acts ∧ t.acts.floor = s.acts.floor) ∧
       t.tickets = s.tickets ∧ t.patch = s.patch ∧ t.ks = s.ks)) ∧
  ((∀ (s : State) (k v : Bool), Writable s → (s.acts.busy = true ∨ s.patch.busy = true) →
     Runs (.patchLoad k v) s (ignoredWrite 0x14 0x1010 0x80000000 none s)) ∧
   (∀ (s : State) (k v : Bool), Writable s → s.acts.busy = false → s.patch.busy = false → s.fc.snet = true →
     Runs (.patchLoad k v) s { s with patch := { s.patch with result := 8 } }) ∧
   (∀ (s : State) (k v : Bool), Writable s → s.acts.busy = false → s.patch.busy = false → s.fc.snet = false →
     (∀ r, patchCheck (readWin s.mem.loadWin 0 2708) k v s = .inl r →
       Runs (.patchLoad k v) s { s with patch := { s.patch with result := r } }) ∧
     (∀ n ram ms, patchCheck (readWin s.mem.loadWin 0 2708) k v s = .inr (n, ram, ms) →
       k = true ∧ v = true ∧ patchRootLocked s = true ∧ s.patch.highest.toNat < n.toNat ∧
       Runs (.patchLoad k v) s { s with
         patch := { s.patch with busy := true, waiting := some (n, ram, ms), reverting := false }
         ush := { s.ush with paused := true } })) ∧
   (∀ s : State, Writable s → s.patch.busy = false →
     Runs .revert s { s with
       patch := { s.patch with busy := true, waiting := none, reverting := true }, ush := { s.ush with paused := true } }) ∧
   (∀ s : State, Live s → s.patch.busy = true →
     ((∃ c, c < coreCount s ∧ coreUsable s c = true ∧ (core s c).run ≠ .idle) → Runs .patchBroadcast s s) ∧
     ((∀ c, c < coreCount s → coreUsable s c = true → (core s c).run = .idle) →
       ∃ t, Runs .patchBroadcast s t ∧ t.patch.busy = false ∧ t.patch.result = 0 ∧ t.ush.paused = false ∧
         (s.patch.waiting = none → t.patch.version = 0 ∧ t.patch.ram = [] ∧ t.patch.ramParity = [] ∧ t.patch.matchReg = [] ∧ t.patch.highest = s.patch.highest) ∧
         (∀ n ram ms, s.patch.waiting = some (n, ram, ms) → t.patch.version = n ∧ t.patch.ram = ram ∧ t.patch.matchReg = ms ∧
           s.patch.highest.toNat ≤ t.patch.highest.toNat ∧ n.toNat ≤ t.patch.highest.toNat) ∧
         t.acts = s.acts ∧ t.cores = s.cores ∧ t.tickets = s.tickets)))

/-- The decision of a key request, and what fills and empties entries. -/
def Obligations.KeyRequestsAndEntries : Prop :=
  ((∀ (s : State) (c d : Nat) (h : W32) (u : Byte) (l : List Nat) (t : Ticket), Live s → (core s c).run = .keyget d h u →
     ticketOn s c = some t → keyTurn s c l = true →
     (keyVerdict s t c h u.toNat = .wait → Runs (.keyRequest c l) s (nonceTaken c u.toNat s)) ∧
     (∀ n r, keyVerdict s t c h u.toNat = .refuse n r →
       Runs (.keyRequest c l) s (nonceTaken c u.toNat (keyRefused c n r t { s with ks := { s.ks with decided := true } }))) ∧
     (keyVerdict s t c h u.toNat = .accept →
       Runs (.keyRequest c l) s (nonceTaken c u.toNat (keyAccept c d h u.toNat t { s with ks := { s.ks with decided := true } })))) ∧
   -- one decision in a hub cycle, of requests that arrived together that of the lowest stop (R295)
   (∀ (s : State) (c d : Nat) (h : W32) (u : Byte) (l : List Nat) (t : Ticket), Live s → (core s c).run = .keyget d h u →
     ticketOn s c = some t →
     (s.ks.decided = true ∨ ∃ e ∈ l, e < c ∧ keyAsks s e = true) → Runs (.keyRequest c l) s s) ∧
   (∀ (s : State) (c : Nat) (l : List Nat), s.ks.decided = false → (∀ e ∈ l, keyAsks s e = true → c ≤ e) → keyTurn s c l = true) ∧
   (∀ (s : State) (t : Ticket) (c u : Nat) (h : W32), t.device = false → 1 ≤ u → u ≤ 6 →
     keyVerdict s t c h u = .accept →
     s.lcs.st = 2 ∧ s.lcs.busy = false ∧ handleIid h = t.iid ∧ (keyEntry s h).st = .resident ∧
       bit (keyEntry s h).attr (39 + u) = true ∧ (keyEntry s h).notBefore.toNat ≤ (nt s).toNat ∧
       (nt s).toNat ≤ (keyEntry s h).notAfter.toNat) ∧
   (∀ (s : State) (t : Ticket) (c u : Nat) (h : W32), t.device = false → u ≠ 0x38 → handleIid h ≠ t.iid →
     keyVerdict s t c h u ≠ .accept) ∧
   -- slot 0x7FFFFF is never allocated (R48, R283)
   (∀ (s : State) (t : Ticket) (c u : Nat) (h : W32), t.device = false → (u = 0x30 ∨ u = 0x36 ∨ u = 0x37) → handleSlot h = 0x7FFFFF →
     keyVerdict s t c h u ≠ .accept)) ∧
  ((∀ (s : State) (c d : Nat) (g : Grant) (data : List Byte) (tags : List Tag), Live s → (core s c).run = .deliver d g data tags →
     xfersDone s (corex s c).keyXfer.toList = true →
     ∃ t, Runs (.keyDeliveryComplete c) s t ∧ (core t c).run = .running ∧ (core t c).pc = (core s c).pc + 4 ∧
       (core t c).grants = (core s c).grants ++ [g] ∧ (d ≠ 0 → d < 32 → (core t c).rg d = BitVec.ofNat 64 g.base) ∧
       t.ks = s.ks ∧ t.tickets = s.tickets) ∧
   (∀ (s : State) (c d : Nat) (g : Grant) (data : List Byte) (tags : List Tag), Live s → (core s c).run = .deliver d g data tags →
     xfersDone s (corex s c).keyXfer.toList = false → Runs (.keyDeliveryComplete c) s s) ∧
   (∀ (s : State) (h : W32), Live s → (keyEntry s h).st = .filling → xfersDone s (keyEntry s h).xfer.toList = true →
     Runs (.keyFillDone h) s (setKey h { keyEntry s h with st := .resident, xfer := none } s)) ∧
   (∀ (s : State) (h : W32), Live s → ((keyEntry s h).st ≠ .filling ∨ xfersDone s (keyEntry s h).xfer.toList = false) →
     Runs (.keyFillDone h) s s) ∧
   (∀ (s : State) (h : W32), Live s → (keyEntry s h).st = .destroying → Runs (.keyScrubDone h) s (setKey h {} s)) ∧
   (∀ (s : State) (h : W32), Live s → (keyEntry s h).st ≠ .destroying → Runs (.keyScrubDone h) s s) ∧
   (∀ s : State, Live s → s.ks.sweeping = true →
     ∃ t, Runs .sweep s t ∧ t.ks.sweeping = false ∧ t.ks.entries = s.ks.entries ∧ t.ks.cer = s.ks.cer ∧
       (∀ k ∈ t.ush.copies, (keyEntry s k.handle).st = .resident → (keyEntry s k.handle).notAfter.ult (nt s) = true →
         k.st = .draining) ∧
       t.mem = s.mem ∧ t.tickets = s.tickets) ∧
   (∀ (s : State) (i k : Nat) (d : W32), Writable s → i < iidCount s → k < 4 → keysOf s i = [] →
     ∃ t, Runs (.ksDomainWrite i k d) s t ∧ field (ksInst t i).domain.toNat (32 * k) 32 = d.toNat ∧
       (∀ j, j < 4 → j ≠ k → field (ksInst t i).domain.toNat (32 * j) 32 = field (ksInst s i).domain.toNat (32 * j) 32) ∧
       (∀ j, j ≠ i → ksInst t j = ksInst s j) ∧ t.ks.entries = s.ks.entries ∧ t.ks.cer = s.ks.cer) ∧
   (∀ (s : State) (i k : Nat) (d : W32), Writable s → i < iidCount s → k < 4 → keysOf s i ≠ [] →
     Runs (.ksDomainWrite i k d) s (ignoredWrite 0x0F (0x301000 + 0x20 * i + 4 * k) (d.setWidth 64) none s)))

/-- The ceremony has no command under way, and safety-net mode refuses none. -/
def Obligations.CustodianCeremonyAddsComponents : Prop :=
  (∀ s : State, Writable s → s.ks.cer.busy = false → s.fc.snet = false → s.ks.cer.isOpen = false → s.lcs.st = 2 → s.lcs.busy = false →
    ((inst s (handleIid s.ks.cer.target)).st = .active ∨ (inst s (handleIid s.ks.cer.target)).st = .stopped) →
    2 ≤ s.ks.cer.n.toNat → s.ks.cer.n.toNat ≤ 4 → (keyEntry s s.ks.cer.target).st = .empty →
    handleSlot s.ks.cer.target ≠ 0x7FFFFF → noPlace s s.ks.cer.target (linesFor (reserveLen s.ks.cer.attr)) = false →
    attrValid s.ks.cer.attr = true → (attrFamily s.ks.cer.attr = 0x20 ∨ attrFamily s.ks.cer.attr = 0x21) →
    Runs .cerOpen s (setCer { s.ks.cer with
        busy := true, opening := true, hadOne := true, slot := s.ks.cer.target, word := s.ks.cer.attr }
      (setKey s.ks.cer.target
        { st := .reserved, attr := s.ks.cer.attr, lines := linesFor (reserveLen s.ks.cer.attr) } s))) ∧
  (∀ s : State, Writable s → s.ks.cer.busy = false → s.fc.snet = false → s.ks.cer.isOpen = true →
    s.ks.cer.step < s.ks.cer.n.toNat → s.ks.cer.resumePending = false →
    Runs .component s (hcTakeStep (b2n s.ks.cer.hc) (setCer { s.ks.cer with busy := true, reader := s.ks.cer.hc } s))) ∧
  (∀ (s : State) (n : Nat) (r : Byte), Live s → n = b2n s.ks.cer.reader → s.ks.cer.isOpen = true → s.ks.cer.busy = true → (slotOf s n).stepEnd = some r →
    ∃ t, Runs .componentDone s t ∧ t.ks.cer.busy = false ∧ (slotOf t n).stepEnd = none ∧ (slotOf t n).component = [] ∧
      t.ks.entries = s.ks.entries ∧
      (r ≠ 0 → t.ks.cer.result = r ∧ t.ks.cer.step = s.ks.cer.step ∧ t.ks.cer.acc = s.ks.cer.acc) ∧
      (r = 0 → some (slotOf s n).component.length ≠ dataLen s.ks.cer.word →
        t.ks.cer.result = 6 ∧ t.ks.cer.step = s.ks.cer.step ∧ t.ks.cer.acc = s.ks.cer.acc) ∧
      (r = 0 → some (slotOf s n).component.length = dataLen s.ks.cer.word →
        t.ks.cer.result = 0 ∧ t.ks.cer.step = s.ks.cer.step + 1 ∧ t.ks.cer.acc.length = (slotOf s n).component.length ∧
          ∀ k, k < (slotOf s n).component.length → t.ks.cer.acc[k]? = some (s.ks.cer.acc.getD k 0 ^^^ (slotOf s n).component.getD k 0))) ∧
  (∀ s : State, Writable s → s.ks.cer.busy = false → s.fc.snet = false → s.ks.cer.isOpen = true →
    s.ks.cer.step = s.ks.cer.n.toNat →
    ∃ t, Runs .cerClose s t ∧ t.ks.cer.isOpen = false ∧ t.ks.cer.acc = [] ∧ t.ks.cer.result = 0 ∧ t.ks.cer.step = 0 ∧
      keyEntry t s.ks.cer.slot = { keyEntry s s.ks.cer.slot with
        st := .resident, data := padTo s.ks.cer.acc ((dataLen s.ks.cer.word).getD 0)
        parity := wordsParity (padTo s.ks.cer.acc ((dataLen s.ks.cer.word).getD 0)) } ∧
      (∀ h : W32, h ≠ s.ks.cer.slot → keyEntry t h = keyEntry s h)) ∧
  (∀ s : State, Writable s → s.ks.cer.busy = false → s.ks.cer.isOpen = true →
    Runs .cerCancel s (endCeremony 0 s)) ∧
  (∀ s : State, Writable s → s.ks.cer.busy = false → s.fc.snet = false → s.ks.cer.isOpen = true → s.ks.cer.resume = s.ks.cer.id →
    s.ks.cer.rstep.toNat = s.ks.cer.step →
    Runs .cerResume s (setCer { s.ks.cer with resumePending := false, result := 0 } s)) ∧
  (∀ s : State, Writable s → s.ks.cer.busy = false → s.fc.snet = false →
    ((s.ks.cer.isOpen = false ∧ s.ks.cer.hadOne = false) ∨
      (s.ks.cer.isOpen = true ∧ (s.ks.cer.resume ≠ s.ks.cer.id ∨ s.ks.cer.rstep.toNat ≠ s.ks.cer.step))) →
    Runs .cerResume s (setCer { s.ks.cer with result := 7 } s)) ∧
  (∀ s : State, Writable s → s.ks.cer.busy = false → s.fc.snet = false → s.ks.cer.isOpen = false → s.ks.cer.hadOne = true →
    Runs .cerResume s (setCer { s.ks.cer with result := 1 } s))

/-! ### The network ports and Dolid (R314–R355) -/

/-- Ports, links, and the resolution of neighbours. -/
def Obligations.PortsLinksAndNeighbours : Prop :=
  ((∀ (s : State) (p : Nat) (d : W32), Writable s → p < 8 → portPresent s p = true → (netPort s p).en = false →
     ((netPort s p).enableBad = false →
       Runs (.portEnable p d) s (setPort p { (netPort s p).withCtrl d with en := true, dadFail := false, ip4Conflict := false } s)) ∧
     ((netPort s p).enableBad = true →
       Runs (.portEnable p d) s (ignoredWrite 0x12 (0x601000 + 0x200 * p) (d.setWidth 64) none s))) ∧
   (∀ x : Port, x.enableBad = true ↔
     (x.mac = 0 ∨ bit x.mac 40 = true ∨ (x.tagged = true ∧ (x.vid = 0 ∨ x.vid = 0xFFF)) ∨ (x.ip4 = 0 ∧ x.ip6 = 0))) ∧
   (∀ (s : State) (p : Nat) (d : W32), Writable s → p < 8 → portPresent s p = true → (netPort s p).link = false →
     Runs (.portDisable p d) s (setPort p { (netPort s p).withCtrl d with
       en := false, anDone := false, ltDone := false, fecLock := false, dadFail := false, ip4Conflict := false } s)) ∧
   (∀ (s : State) (p : Nat), Writable s → (netPort s p).en = true → (netPort s p).link = false →
     Runs (.linkRestart p) s (setPort p { netPort s p with anDone := false, ltDone := false, fecLock := false } s)) ∧
   (∀ (s : State) (p : Nat), (netPort s p).en = true → (netPort s p).link = false → netRuns s = true →
     ∃ t, Runs (.linkUp p) s t ∧ (netPort t p).link = true ∧ (netPort t p).fecLock = true ∧ (netPort t p).neigh = (netPort s p).neigh ∧
       ((netPort s p).ip6 = 0 → (netPort t p).tentative = false) ∧
       ((netPort s p).ip4 ≠ 0 → ∃ f ∈ (netPort t p).tx,
         f = { arpFrame (netPort s p) 1 0xFFFFFFFFFFFF 0 (netPort s p).ip4 with order := f.order }) ∧
       ((netPort s p).ip6 ≠ 0 → (netPort s p).dadFail = false → (netPort t p).tentative = true ∧
         ∀ a, (a = (netPort s p).ip6 ∨ a = linkLocal (netPort s p).mac) →
           ∃ f ∈ (netPort t p).tx, f = { dadFrame (netPort s p) a with order := f.order }) ∧
       (∀ q, q ≠ p → netPort t q = netPort s q) ∧ t.tickets = s.tickets ∧ t.mem = s.mem) ∧
   (∀ (s : State) (p : Nat) (r : Bool), (netPort s p).link = true →
     ∃ t, Runs (.linkDown p r) s t ∧ (netPort t p).link = false ∧ (netPort t p).tx = [] ∧ (netPort t p).neigh = (netPort s p).neigh ∧
       (netPort t p).en = (netPort s p).en ∧ (∀ q, q ≠ p → netPort t q = netPort s q) ∧ t.tickets = s.tickets ∧ t.mem = s.mem) ∧
   (∀ (s : State) (p : Nat), Runs (.dadTimeout p) s (setPort p { netPort s p with tentative := false } s))) ∧
  ((∀ (s : State) (p : Nat) (a : Ip) (n : Neigh), (netPort s p).neigh.find? (fun n => n.addr == a && n.mac.isNone) = some n →
     n.tries < 3 → (netPort s p).link = true → fromUnusable (netPort s p) (askFrame (netPort s p) a none) = false →
     ∃ t, Runs (.neighbourRetry p a) s t ∧
       (netPort t p).tx = (netPort s p).tx ++ [{ askFrame (netPort s p) a none with order := s.net.frames }] ∧
       (netPort t p).neigh = modNeigh a (fun n => { n with tries := n.tries + 1 }) (netPort s p).neigh) ∧
   (∀ (s : State) (p : Nat) (a : Ip) (n : Neigh), (netPort s p).neigh.find? (fun n => n.addr == a && n.mac.isNone) = some n →
     n.tries < 3 → fromUnusable (netPort s p) (askFrame (netPort s p) a none) = true →
     ∃ t, Runs (.neighbourRetry p a) s t ∧ (netPort t p).tx = (netPort s p).tx ∧
       (netPort t p).neigh = modNeigh a (fun n => { n with tries := n.tries + 1 }) (netPort s p).neigh) ∧
   (∀ (x : Port) (f : TxFrame), x.dadFail = true → f.ethertype = 0x86DD →
     (ipAt f.body 8 = x.ip6 ∨ ipAt f.body 8 = linkLocal x.mac) → fromUnusable x f = true) ∧
   (∀ (s : State) (p : Nat) (a : Ip) (n : Neigh), (netPort s p).neigh.find? (fun n => n.addr == a && n.mac.isNone) = some n →
     3 ≤ n.tries → Runs (.neighbourRetry p a) s s) ∧
   (∀ (s : State) (p : Nat) (a : Ip) (n : Neigh), (netPort s p).neigh.find? (fun n => n.addr == a && n.mac.isNone) = some n →
     ∃ t, Runs (.neighbourResolveFail p a) s t ∧ (netPort t p).neigh = (netPort s p).neigh.filter (fun n => n.addr != a) ∧
       (netPort t p).tx = (netPort s p).tx ∧ (∀ q, q ≠ p → netPort t q = netPort s q)))

/-- The first rows of R318 in their order; a frame that leaves. -/
def Obligations.FramesAreFilteredAndLeave : Prop :=
  ((∀ (s : State) (p : Nat) (b : List Byte) (found : FrameRead),
     (netPort s p).en = true → (netPort s p).link = true → netRuns s = true →
     let x := netPort s p
     let u := fecCount p found s
     let tagged : Bool := halfAt b 12 == 0x8100
     let ety := halfAt b (if tagged then 16 else 12)
     let tagOk : Bool := if x.tagged then tagged && halfAt b 14 % 4096 == x.vid.toNat else !tagged || halfAt b 14 % 4096 == 0
     (takeLines s p (linesFor b.length) = none → Runs (.frameReceive p b found) s (portCount p 0x8C u)) ∧
     ((takeLines s p (linesFor b.length)).isSome = true → found.intact = false → Runs (.frameReceive p b found) s (portCount p 0x84 u)) ∧
     ((takeLines s p (linesFor b.length)).isSome = true → found.intact = true →
       (b.length < 64 ∨ x.mtu.toNat + (if tagged then 22 else 18) < b.length) →
       Runs (.frameReceive p b found) s (portCount p 0x90 u)) ∧
     ((takeLines s p (linesFor b.length)).isSome = true → found.intact = true → 64 ≤ b.length →
       b.length ≤ x.mtu.toNat + (if tagged then 22 else 18) →
       (macAccepted x (macOf b 0) = false ∨ tagOk = false) → Runs (.frameReceive p b found) s (portCount p 0x88 u)) ∧
     ((takeLines s p (linesFor b.length)).isSome = true → found.intact = true → 64 ≤ b.length →
       b.length ≤ x.mtu.toNat + (if tagged then 22 else 18) → macAccepted x (macOf b 0) = true → tagOk = true →
       ety ≠ 0x0806 → ety ≠ 0x88F7 → ety ≠ 0x0800 → ety ≠ 0x86DD → Runs (.frameReceive p b found) s (portCount p 0x88 u)) ∧
     (∀ l, takeLines s p (linesFor b.length) = some l → found.intact = true → 64 ≤ b.length →
       b.length ≤ x.mtu.toNat + (if tagged then 22 else 18) → macAccepted x (macOf b 0) = true → tagOk = true →
       let off := if tagged then 16 else 12
       let body := slice b (off + 2) (b.length - off - 6)
       let all : Bool := macOf b 0 == 0xFFFFFFFFFFFF
       (ety = 0x0806 → Runs (.frameReceive p b found) s (arpReceive p body (portCount p 0x80 u))) ∧
       (ety = 0x88F7 → x.ptpEn = true → x.l2 = true → all = false → Runs (.frameReceive p b found) s (ptpReceive p body u)) ∧
       (ety = 0x88F7 → (x.ptpEn = false ∨ x.l2 = false ∨ all = true) → Runs (.frameReceive p b found) s (portCount p 0x88 u)) ∧
       (ety = 0x0800 → Runs (.frameReceive p b found) s (ipReceive p false all body l u)) ∧
       (ety = 0x86DD → Runs (.frameReceive p b found) s (ipReceive p true all body l u)))) ∧
   (∀ (s : State) (p : Nat) (m : List Byte), (netPort s p).link = true → (netPort s p).ip4 ≠ 0 →
     ip4At m 24 = ip4Of (netPort s p).ip4 → ip4At m 14 ≠ ip4Of (netPort s p).ip4 → halfAt m 6 = 1 →
     let t := arpReceive p m s
     (∃ f ∈ (netPort t p).tx,
       f = { arpFrame (netPort s p) 2 (macOf m 8) (macOf m 8) (BitVec.ofNat 32 (ip4At m 14).toNat) with order := f.order }) ∧
       (∀ q, q ≠ p → netPort t q = netPort s q) ∧ t.tickets = s.tickets ∧ t.mem = s.mem) ∧
   (∀ (s : State) (p : Nat) (m : List Byte), ptpVersionOk m = true →
     ∃ r : PtpRx, r.port = p ∧ r.msg = m ∧ (ptpReceive p m s).net.toFirmware = s.net.toFirmware ++ [r] ∧
       r.unsync = !s.rm.established ∧ r.stepped = false) ∧
   (∀ (s : State) (p u : Nat) (a : Ip) (m : List Byte) (l : Nat × Nat), s.dol.en = true → dolidMalformed m = false →
     ∃ d : DolMsg, d.port = p ∧ d.src = a ∧ d.udp = u ∧ d.bytes = m ∧ d.reserved = l.1 ∧ d.shared = l.2 ∧
       (dolidReceive p a u m l s).dol.inbox = insertMsg d s.dol.inbox ∧
       (dolidReceive p a u m l s).dol.sharedUsed = s.dol.sharedUsed + l.2 ∧
       (dolidReceive p a u m l s).dol.sessions = s.dol.sessions)) ∧
  ((∀ (s : State) (p : Nat) (f : TxFrame) (r : List TxFrame), netRuns s = true → (netPort s p).tx = f :: r →
     gloveFrame s (netPort s p) f = .passes → f.pool = .none → f.iid = none → f.ptp = none →
     ∃ t, Runs (.frameTransmit p none) s t ∧ t.net.sent = s.net.sent ++ [(p, wireBytes (netPort s p) f)] ∧
       (netPort t p).tx = r ∧ (∀ q, q ≠ p → netPort t q = netPort s q) ∧ t.tickets = s.tickets ∧ t.mem = s.mem) ∧
   (∀ (s : State) (p : Nat) (f : TxFrame) (r : List TxFrame) (k : Nat), netRuns s = true → (netPort s p).tx = f :: r →
     heldBefore s f = false → gloveFrame s (netPort s p) f = .refused k →
     Runs (.frameTransmit p none) s (gloveDrop f k (setPort p { netPort s p with tx := r } s))) ∧
   (∀ (s : State) (p : Nat) (f : TxFrame), (netPort s p).tx = [f] →
     (heldBefore s f = true ∨ gloveFrame s (netPort s p) f = .held) → Runs (.frameTransmit p none) s s) ∧
   (∀ (s : State) (x : Port) (f : TxFrame), f.isPublic = false → gloveFrame s x f = .refused 1) ∧
   (∀ (s : State) (p : Nat), Writable s → (∀ e ∈ (netPort s p).txtsMissed, e.cycle ≠ s.time.cycle) →
     ((∀ e ∈ (netPort s p).txts.head?, e.cycle ≠ s.time.cycle) →
       Runs (.txtsPop p) s (setPort p { netPort s p with txts := (netPort s p).txts.drop 1 } s)) ∧
     (∀ e ∈ (netPort s p).txts.head?, e.cycle = s.time.cycle → Runs (.txtsPop p) s (setPort p (netPort s p) s))) ∧
   (∀ (s : State) (p : Nat) (e : TxTs), Writable s → (netPort s p).txtsMissed = some e → e.cycle = s.time.cycle →
     (∀ f ∈ (netPort s p).txts.head?, f.cycle ≠ s.time.cycle) →
     Runs (.txtsPop p) s (setPort p { netPort s p with
       txts := (netPort s p).txts.drop 1 ++ [e], txtsLost := false, txtsMissed := none } s)))

/-- The oldest message of the inbox is m, and the command that names its type, port and session decides it: an INIT by the rows of
R336, the others by the orders 3 to 6 of R334. -/
def Obligations.DolidMessagesAreDecidedInOrder : Prop :=
  (∀ (s : State) (m : DolMsg) (r : List DolMsg), Live s → s.boot.warm = false → s.dol.inbox = m :: r →
    byteAt m.bytes 1 = 1 →
    let u : State := { s with dol := { s.dol with inbox := r } }
    let iid := halfAt m.bytes 16
    let known : Bool := iid < iidCount s && (dolInst s iid).en && decide ((inst s iid).st ≠ .free)
      && (if isV4 m.src then (dolInst s iid).v4 else (dolInst s iid).v6)
    let peer := peerOf s iid (BitVec.ofNat 64 (beNat (slice m.bytes 20 8)))
    let session := s.dol.sessions.find? (fun x => x.iid == iid && x.peerId == BitVec.ofNat 64 (beNat (slice m.bytes 20 8))
      && x.cnonce.toNat == beNat (slice m.bytes 28 16))
    (s.dol.key = none → Runs (.dolidInit m.port) s (freeMsg m (bump (dolCnt 1) 0 32 u))) ∧
    (s.dol.key.isSome = true → cookieValid s m = false → Runs (.dolidInit m.port) s (freeMsg m (bump (dolCnt 0) 0 32
      (dolSend m.port m.src m.udp (if iid < iidCount s then some iid else none) true
        (dolHeader 2 32 0 0 ++ slice m.bytes 28 16 ++ cookieFor s m) u)))) ∧
    (s.dol.key.isSome = true → cookieValid s m = true → (known = false ∨ peer = none) →
      Runs (.dolidInit m.port) s (freeMsg m (bump (dolCnt 2) 0 32 u))) ∧
    (∀ pe x, s.dol.key.isSome = true → cookieValid s m = true → known = true → peer = some pe → session = some x →
      Runs (.dolidInit m.port) s (freeMsg m (sendAccept x m.port u))) ∧
    (∀ pe, s.dol.key.isSome = true → cookieValid s m = true → known = true → peer = some pe → session = none →
      Runs (.dolidInit m.port) s (initAdmitted m iid pe u)) ∧
    (∀ p, p ≠ m.port → Runs (.dolidInit p) s s)) ∧
  (∀ (s : State) (m : DolMsg) (i : Nat) (pe : Nat × Peer),
    let cn : BitVec 128 := BitVec.ofNat 128 (beNat (slice m.bytes 28 16))
    let asked : Bool := s.dol.handshakes.any (fun h => h.iid == i &&
      h.peerId == BitVec.ofNat 64 (beNat (slice m.bytes 20 8)) && h.cnonce == cn)
    let reject := fun reason status => freeMsg m (dolReject m.port m.src m.udp i cn reason status 0 s)
    (asked = true → initAdmitted m i pe s = freeMsg m s) ∧
    (asked = false → s.fc.snet = true → initAdmitted m i pe s = reject 5 stSafetyNet) ∧
    (asked = false → s.fc.snet = false → (inst s i).st ≠ .active → initAdmitted m i pe s = reject 3 stQuota) ∧
    (asked = false → s.fc.snet = false → (inst s i).st = .active → (dolInst s i).kemValid = false →
      initAdmitted m i pe s = reject 2 0) ∧
    (asked = false → s.fc.snet = false → (inst s i).st = .active → (dolInst s i).kemValid = true →
      (4096 ≤ dolOpen s ∨ (dolInst s i).maxSess.toNat ≤ dolOpenOf s i) → initAdmitted m i pe s = reject 1 0)) ∧
  (∀ (s : State) (m : DolMsg), beNat (slice m.bytes 44 16) = 0 → cookieValid s m = false) ∧
  (∀ (s : State) (m : DolMsg) (r : List DolMsg) (k : Nat), Live s → s.boot.warm = false → s.dol.inbox = m :: r →
    acceptMsg m { s with dol := { s.dol with inbox := r } } = .inl k →
    let u := freeMsg m (bump (dolCnt k) 0 32 { s with dol := { s.dol with inbox := r } })
    (byteAt m.bytes 1 = 0x10 → Runs (.dolidRequest m.port m.sid) s u) ∧
    (byteAt m.bytes 1 = 0x12 → Runs (.dolidAbort m.port m.sid) s u) ∧
    (byteAt m.bytes 1 = 0x20 → Runs (.dolidClose m.port m.sid) s u)) ∧
  (∀ (s : State) (m : DolMsg) (r : List DolMsg) (x : Session) (pl : List Byte), Live s → s.boot.warm = false →
    s.dol.inbox = m :: r → acceptMsg m { s with dol := { s.dol with inbox := r } } = .inr (x, pl) →
    let u := modSession x.sid (fun _ => x) { s with dol := { s.dol with inbox := r } }
    (byteAt m.bytes 1 = 0x10 → Runs (.dolidRequest m.port m.sid) s (dolidRequest pl m x u)) ∧
    (byteAt m.bytes 1 = 0x12 → Runs (.dolidAbort m.port m.sid) s (dolidAbort pl m x u)) ∧
    (byteAt m.bytes 1 = 0x20 → Runs (.dolidClose m.port m.sid) s (closeSession x.sid none (freeMsg m u)))) ∧
  (∀ (m : DolMsg) (s : State), dolSession? s m.sid = none → acceptMsg m s = .inl 4) ∧
  (∀ (m : DolMsg) (s : State) (x : Session), dolSession? s m.sid = some x →
    (m.src ≠ x.addr ∨ m.udp ≠ x.udp ∨ opened x m = none) → acceptMsg m s = .inl 4) ∧
  (∀ (m : DolMsg) (s : State) (x : Session) (pl : List Byte), dolSession? s m.sid = some x → m.src = x.addr → m.udp = x.udp →
    x.keyOk = true → opened x m = some pl → replayed x (beNat (slice m.bytes 8 8)) = none → acceptMsg m s = .inl 5) ∧
  (∀ (m : DolMsg) (s : State) (x y : Session) (pl : List Byte), dolSession? s m.sid = some x → m.src = x.addr → m.udp = x.udp →
    x.keyOk = true → opened x m = some pl → replayed x (beNat (slice m.bytes 8 8)) = some y →
    acceptMsg m s = .inr ({ y with last := s.time.ticks, port := m.port }, pl))

/-- R340: a sequence number is taken once. -/
def Obligations.SequenceNumbersAreTakenOnce : Prop :=
  ∀ (x y : Session) (q : Nat), replayed x q = some y →
    replayed y q = none ∧ y.high = max x.high q ∧
    (∀ r, replayed x r = none → r ≤ x.high → replayed y r = none)

def Obligations.DolidTimersAndPeerTable : Prop :=
  (∀ (s : State) (sid : W32) (x : Session), Live s → dolSession? s sid = some x →
    x.last + max 1 s.dol.idleS.toNat * secondTicks ≤ s.time.ticks →
    (∀ t ∈ s.tickets, ∀ k, t.origin ≠ .dolid (sid.setWidth 64) k) →
    Runs (.sessionIdleTimeout sid) s (closeSession sid (some 2) s)) ∧
  (∀ s : State, Live s → s.dol.key.isSome = true → s.dol.draw = false → s.dol.redraw = false → s.boot.warm = false →
    s.dol.epochFrom + max 1 s.dol.cookieS.toNat * 10 ^ 9 ≤ ntN s →
    Runs .cookieEpoch s { s with dol := { s.dol with draw := true } }) ∧
  (∀ s : State, Live s → s.dol.redraw = true →
    Runs .cookieDrawRetry s { s with dol := { s.dol with redraw := false, draw := true } }) ∧
  (∀ (s : State) (i : Nat) (x : W64) (r : Txn) (f : List Byte × Nat), Live s → txn? s i x = some r → r.final = some f →
    (f.2 + s.dol.holdMs.toNat * 6000000 ≤ s.time.ticks → Runs (.txidHoldExpiry i x) s (dropTxn r s)) ∧
    (s.time.ticks < f.2 + s.dol.holdMs.toNat * 6000000 → Runs (.txidHoldExpiry i x) s s)) ∧
  (∀ (s : State) (d : W32), Writable s →
    Runs (.peerRead d) s { s with dol := { s.dol with
      peerReg := peerAt s (d.toNat % 8192), peerErr := false, peerIdx := BitVec.ofNat 13 (d.toNat % 8192) } }) ∧
  (∀ (s : State) (d : W32), Writable s →
    (iidCount s ≤ s.dol.peerReg.iid.toNat ∨ ∃ e ∈ s.dol.peers, e.1 ≠ d.toNat % 8192 ∧ e.2.valid = true ∧
      e.2.iid = s.dol.peerReg.iid ∧ e.2.id = s.dol.peerReg.id) →
    Runs (.peerWrite d) s { s with dol := { s.dol with peerErr := true, peerIdx := BitVec.ofNat 13 (d.toNat % 8192) } }) ∧
  (∀ (s : State) (d : W32), Writable s → s.dol.peerReg.iid.toNat < iidCount s →
    (∀ e ∈ s.dol.peers, e.1 ≠ d.toNat % 8192 → e.2.valid = true → e.2.iid = s.dol.peerReg.iid → e.2.id ≠ s.dol.peerReg.id) →
    ∃ t, Runs (.peerWrite d) s t ∧ peerAt t (d.toNat % 8192) = s.dol.peerReg ∧ t.dol.peerErr = false ∧
      (∀ k, k ≠ d.toNat % 8192 → peerAt t k = peerAt s k) ∧ (∀ x ∈ t.dol.sessions, x.peer ≠ d.toNat % 8192)) ∧
  (∀ (s : State) (d : W32), Writable s →
    ∃ t, Runs (.peerClear d) s t ∧ peerAt t (d.toNat % 8192) = {} ∧ (∀ k, k ≠ d.toNat % 8192 → peerAt t k = peerAt s k) ∧
      (∀ x ∈ t.dol.sessions, x.peer ≠ d.toNat % 8192)) ∧
  (∀ (s : State) (i : Nat), Live s → (∃ d, (i, d) ∈ s.dol.inst) →
    ∃ t, Runs .gloveRefill s t ∧
      (dolInst t i).levelNet = min (((dolInst s i).burstNet.toNat * 1024 : Nat) : Int) ((dolInst s i).levelNet + (dolInst s i).rateNet.toNat) ∧
      (dolInst t i).levelPcie =
        min (((dolInst s i).burstPcie.toNat * 1024 : Nat) : Int) ((dolInst s i).levelPcie + (dolInst s i).ratePcie.toNat) ∧
      t.dol.sessions = s.dol.sessions ∧ t.tickets = s.tickets ∧ t.net = s.net)

/-! ### Time, audit and clocks (R356–R395) -/

def Obligations.NetworkTimeIsSetAndCorrected : Prop :=
  (∀ (s : State) (d : W32), Writable s → (d.setWidth 2 : BitVec 2) = 3 →
    Runs (.sourceSelect d) s (ignoredWrite 0x16 0x500000 (d.setWidth 64) none s)) ∧
  (∀ (s : State) (d : W32), Writable s → (d.setWidth 2 : BitVec 2) ≠ 3 → bit d 31 = false →
    ∃ t, Runs (.sourceSelect d) s t ∧ t.rm.src = d.setWidth 2 ∧ t.rm.stepEn = bit d 30 ∧ t.rm.nt = s.rm.nt ∧
      t.rm.ntFrac = s.rm.ntFrac ∧ (t.rm.src ≠ s.rm.src → t.rm.armed = false ∧ (s.rm.established = true → t.rm.holdover = true)) ∧
      t.tickets = s.tickets ∧ t.mem = s.mem) ∧
  (∀ (s : State) (d : W32), Writable s → (d.setWidth 2 : BitVec 2) = 0 → s.rm.src = 0 →
    ∃ t, Runs (.ntSet d) s t ∧ t.rm.nt = s.rm.nt ∧ t.rm.ntFrac = s.rm.ntFrac ∧
      (ntFine s ≤ setTarget s * 2 ^ 32 → t.rm.uncSet = s.rm.uncBase ∧
        t.rm.due = s.rm.due ++ [.set (((setTarget s * 2 ^ 32 : Nat) : Int) - (ntFine s : Nat))]) ∧
      (setTarget s * 2 ^ 32 < ntFine s → t.rm.uncSet = s.rm.uncSet ∧ t.rm.due = s.rm.due)) ∧
  (∀ (s : State) (d : W32), Writable s → (d.setWidth 2 : BitVec 2) = 2 → s.rm.src = 2 →
    ((s.rm.nt.toNat : Nat) : Int) ≤ ((setTarget s : Nat) : Int) + s.rm.ppsLat.toInt →
    ∃ t, Runs (.ntSet d) s t ∧ t.rm.armed = true ∧ t.rm.due = s.rm.due) ∧
  (∀ s : State, s.mgmt.held = false → s.rm.src = 1 →
    ∃ t, Runs .apply s t ∧ t.rm.due = s.rm.due ++ [.apply (s.rm.adj.toInt * 2 ^ 24)] ∧ t.rm.nt = s.rm.nt ∧
      t.rm.holdover = false ∧ t.rm.lastApply = s.time.ticks) ∧
  (∀ s : State, s.mgmt.held = false → s.rm.src ≠ 1 → Runs .apply s (ignoredWrite 0x16 0x500020 1 none s)) ∧
  (∀ s : State, Runs .slewDone s s) ∧
  (∀ (s : State) (a c : NtCorrection), s.rm.due = [a, c] → a.isApply = true → c.isApply = false →
    ntClose s = auditTrack (ntCorrected a (ntCorrected c { s with rm := { s.rm with due := [] } }))) ∧
  (∀ (s : State) (d : Int),
    ((s.rm.established = false ∧ 0 ≤ d) ∨ (((s.rm.stepTh.toNat * 2 ^ 32 : Nat) : Int) ≤ d ∧ s.rm.stepEn = true)) →
    (correct d s).rm.nt = BitVec.ofNat 64 ((ntFine s + d.toNat) / 2 ^ 32) ∧
      (correct d s).rm.ntFrac = BitVec.ofNat 32 (ntFine s + d.toNat) ∧ (correct d s).rm.slewLeft = 0 ∧
      (correct d s).rm.established = true) ∧
  (∀ (s : State) (d : Int), (s.rm.established = true ∨ d < 0) →
    (d < ((s.rm.stepTh.toNat * 2 ^ 32 : Nat) : Int) ∨ s.rm.stepEn = false) →
    correct d s = { s with rm := { s.rm with slewLeft := d } }) ∧
  (∀ (s : State) (t0 : Nat), s.rm.src = 2 → s.rm.lastPps = some t0 → s.time.ticks < t0 + 5400000000 →
    Runs .ppsEdge s (bump 0x500040 1 8 s)) ∧
  (∀ s : State, s.rm.src = 2 → (∀ t0, s.rm.lastPps = some t0 → t0 + 5400000000 ≤ s.time.ticks) → s.rm.armed = false →
    s.rm.established = true →
    ∃ t, Runs .ppsEdge s t ∧ t.rm.lastPps = some s.time.ticks ∧ t.rm.due = s.rm.due ++ [.servo (-ppsPhase s * 2 ^ 32)] ∧
      t.rm.nt = s.rm.nt ∧
      (s.clk.ref10Ok = true → t.rm.holdover = false ∧
        t.rm.freq = clampFreq (s.rm.freq.toInt + -ppsPhase s * 65536 / 8000)) ∧
      (s.clk.ref10Ok = false → t.rm.holdover = s.rm.holdover ∧ t.rm.freq = s.rm.freq)) ∧
  (∀ s : State, s.rm.src = 2 → (∀ t0, s.rm.lastPps = some t0 → t0 + 5400000000 ≤ s.time.ticks) → s.rm.armed = true →
    ((ntFine s : Nat) : Int) ≤ (((setTarget s : Nat) : Int) + s.rm.ppsLat.toInt) * 2 ^ 32 →
    ∃ t, Runs .ppsEdge s t ∧ t.rm.lastPps = some s.time.ticks ∧ t.rm.armed = false ∧ t.rm.freq = s.rm.freq ∧
      t.rm.due = s.rm.due ++ [.armed ((((setTarget s : Nat) : Int) + s.rm.ppsLat.toInt) * 2 ^ 32 - (ntFine s : Nat))]) ∧
  (∀ s : State, ((s.rm.src = 1 ∧ s.rm.lastApply + 24000000000 ≤ s.time.ticks) ∨
      (s.rm.src = 2 ∧ ∀ t0, s.rm.lastPps = some t0 → t0 + 6600000000 ≤ s.time.ticks)) →
    ∃ t, Runs .holdoverTimeout s t ∧ t.rm.holdover = true ∧ (s.rm.holdover = false → t.rm.holdFrom = s.rm.nt) ∧
      t.rm.nt = s.rm.nt ∧ t.tickets = s.tickets)

def Obligations.ScheduleEntriesFire : Prop :=
  (∀ (s : State) (k : Nat) (d : W32), Writable s → 1 ≤ k → k < 256 → field d.toNat 24 4 < 8 → field d.toNat 24 4 ≠ 1 →
    ∃ t, Runs (.scheduleEntryWrite k d) s t ∧ (sched t k).en = bit d 31 ∧ (sched t k).syncOnly = bit d 30 ∧
      (sched t k).action.toNat = field d.toNat 24 4 ∧ (sched t k).arg = d.setWidth 24 ∧
      (sched t k).fire = (sched s k).fireStaged ∧ (sched t k).period = periodOf (sched s k).periodStaged ∧
      (∀ j, j ≠ k → sched t j = sched s j) ∧ t.tickets = s.tickets ∧ t.mem = s.mem) ∧
  (∀ (s : State) (k : Nat) (d : W32), Writable s → k < 256 → (8 ≤ field d.toNat 24 4 ∨ (1 ≤ k ∧ field d.toNat 24 4 = 1)) →
    Runs (.scheduleEntryWrite k d) s (ignoredWrite 0x16 (0x500000 + (0x1000 + 0x20 * k + 0x10)) (d.setWidth 64) none s)) ∧
  (∀ (s : State) (k : Nat), Live s → 1 ≤ k → k < 256 → due s k = true → (outsideOrder s k = true ∨ (firstDue s k = true ∧ s.rm.fired = false)) →
    (sched s k).action ≠ 7 →
    ∃ t, Runs (.scheduleFire k) s t ∧
      ((sched s k).period = 0 → (sched t k).en = false ∧ (sched t k).fire = (sched s k).fire) ∧
      ((sched s k).period ≠ 0 → (sched t k).en = true ∧ (sched t k).fire = (sched s k).fire
        + BitVec.ofNat 64 (((nt s).toNat - (sched s k).fire.toNat) / (sched s k).period.toNat + 1) * (sched s k).period) ∧
      ((sched s k).syncOnly = false → (sched s k).action = 6 →
        Table.get 0 t.rm.pulses k = (sched s k).fire.toNat + 1000 * max 1 (min 500000 (sched s k).arg.toNat)) ∧
      ((sched s k).syncOnly = false → (sched s k).action = 3 → t.ks.sweeping = true) ∧
      (∀ j, j ≠ k → sched t j = sched s j)) ∧
  (∀ (s : State) (k : Nat), Live s →
    (due s k = false ∨ (outsideOrder s k = false ∧ (firstDue s k = false ∨ s.rm.fired = true))) → Runs (.scheduleFire k) s s) ∧
  (∀ (s : State) (k : Nat), Live s →
    (Table.get 0 s.rm.pulses k ≤ (nt s).toNat →
      Runs (.pulseEnd k) s { s with rm := { s.rm with pulses := Table.erase k s.rm.pulses } }) ∧
    ((nt s).toNat < Table.get 0 s.rm.pulses k → Runs (.pulseEnd k) s s))

def Obligations.AuditEpochsAreSealedInOrder : Prop :=
  (∀ s : State, Writable s → s.aud.isOpen = false → Runs .sealNow s s) ∧
  (∀ s : State, Writable s → s.aud.isOpen = true → s.rm.moved = false →
    Runs .sealNow s { s with aud := { s.aud with pendEarly := s.aud.pendEarly ++ [3] } }) ∧
  (∀ s : State, Writable s → s.aud.isOpen = true → s.rm.moved = true → stagedCount s < 8 → s.aud.pendFinal = false →
    ∃ t, Runs .sealNow s t ∧ t.aud.isOpen = true ∧ t.aud.epoch = s.aud.epoch + 1 ∧ t.aud.ntStart = s.rm.nt ∧
      t.aud.pendEarly = [] ∧ t.aud.pendSeal = false ∧ t.aud.trees = [] ∧ t.aud.sealings.length = s.aud.sealings.length + 1 ∧
      (∃ x, t.aud.sealings = s.aud.sealings ++ [x] ∧ x.epoch = s.aud.epoch ∧ x.ntStart = s.aud.ntStart ∧ x.ntEnd = s.rm.nt ∧
        x.trees = s.aud.trees)) ∧
  (∀ (s : State) (r : Receipt) (q : List Receipt), s.aud.queue = r :: q → s.aud.isOpen = true → r.epoch = s.aud.epoch →
    Runs .receiptHash s (noteHeld (.audit r.iid)
      { s with aud := { s.aud with queue := q, trees := absorbInto r s.aud.trees } })) ∧
  (∀ (s : State) (x : Sealing), s.aud.sealings.find? (fun y => y.topRoot.isNone) = some x → s.aud.bootReady = false →
    ∃ t, Runs .epochRootsDone s t ∧ t.aud.queue = s.aud.queue.filter (fun r => r.epoch != x.epoch) ∧
      (∀ y ∈ t.aud.sealings, y.epoch = x.epoch → y.topRoot = some (treeRoot y.tops) ∧ y.tops.length = iidCount s) ∧
      t.tickets = s.tickets) ∧
  (∀ (s : State) (x : Sealing), s.aud.sealings.find? (fun y => y.sign.ended.isSome || y.cosign.ended.isSome) = some x →
    x.sign.ended.isSome = true → Runs .sealTicketEnd s (sealStart (sealEnd x 0 s))) ∧
  (∀ (s : State) (x : Sealing), s.aud.sealings.find? (fun y => y.sign.ended.isSome || y.cosign.ended.isSome) = some x →
    x.sign.ended = none → Runs .sealTicketEnd s (sealStart (sealEnd x 1 s))) ∧
  (∀ (s : State) (x : Sealing), s.aud.sealings.find? (fun y => y.cosign.retry) = some x →
    ∃ t, Runs .sealCosignRetry s t ∧ t.nextTicket = s.nextTicket + 1 ∧
      (∃ k : Ticket, t.tickets = s.tickets ++ [k] ∧ k.act = 0x702 ∧ k.iid = 0xFFFF ∧ k.id = s.nextTicket) ∧
      (∀ y ∈ t.aud.sealings, y.epoch = x.epoch → y.cosign.retry = false ∧ y.cosign.tid = some s.nextTicket)) ∧
  (∀ (s : State) (x : Sealing) (r : List Sealing), s.aud.sealings = x :: r → x.staged = true → s.aud.irq = false →
    (s.aud.head - s.aud.tail).toNat < ringSize s → s.rm.moved = false → s.pcie.d3hot = false →
    ∃ t, Runs .sealRecordWrite s t ∧ t.aud.sealings = r ∧ t.aud.head = s.aud.head + 1 ∧ t.aud.tail = s.aud.tail ∧
      (Live s → s.pcie.inReset = false → t.pcie.issued = s.pcie.issued ++ HostReq.split s
        (.write none (s.aud.base + BitVec.ofNat 64 (s.aud.head.toNat % ringSize s * 0x6000)) (sealRecord x)))) ∧
  (∀ s : State, s.pcie.d3hot = true → Runs .sealRecordWrite s s) ∧
  (∀ (s : State) (d : W32), Writable s →
    ((s.aud.head - d).toNat ≤ ringSize s → Runs (.audRingTailWrite d) s { s with aud := { s.aud with tail := d } }) ∧
    (ringSize s < (s.aud.head - d).toNat → Runs (.audRingTailWrite d) s (ignoredWrite 0x10 0xB00014 (d.setWidth 64) none s)))

def Obligations.ClockDomainsSwitchAndRecover : Prop :=
  (∀ (s : State) (u : Half), s.clk.gateDis = false → unitBusy s u = false →
    Runs (.clockGateClose u) s { s with clk := { s.clk with gates := Table.set false s.clk.gates u.toNat false } }) ∧
  (∀ (s : State) (u : Half), (s.clk.gateDis = true ∨ unitBusy s u = true) → Runs (.clockGateClose u) s s) ∧
  (∀ (s : State) (d : Nat) (b : Bool), (dom s d).switching = some b → (dom s d).clocked = true →
    Runs (.clockSwitch d) s (setDom d { dom s d with clocked := false } s)) ∧
  (∀ (s : State) (d : Nat) (b : Bool), (dom s d).switching = some b → (dom s d).clocked = false → d ≠ 16 →
    (if b then s.clk.tioStable else (dom s d).lock) = true →
    Runs (.clockSwitch d) s (setDom d { dom s d with
      tio := b, clocked := true, switching := (dom s d).next, next := none, heldForTio := false } s)) ∧
  (∀ (s : State) (d : Nat), d < ringCount s → s.boot.pwrGood = true → (dom s d).lock = false →
    ((dom s d).recovery = .locking → Runs (.pllLock d) s (setDom d { dom s d with lock := true, recovery := .holding } s)) ∧
    ((dom s d).recovery = .none → (dom s d).tio = false → (dom s d).clocked = false → (dom s d).switching = none →
      (dom s d).retired = false → Runs (.pllLock d) s (setDom d { dom s d with lock := true, clocked := true } s))) ∧
  (∀ (s : State) (d why : Nat), Live s → d < ringCount s → (dom s d).retired = true →
    ((dom s d).recovery = .locking ∨ (dom s d).recovery = .holding) →
    ∃ t, Runs (.pllTrip d why) s t ∧ (dom t d).lock = false ∧ (dom t d).failed = (dom s d).failed + 1 ∧
      (max 1 s.clk.retry.toNat ≤ (dom s d).failed + 1 → (dom t d).recovery = .none) ∧
      ((dom s d).failed + 1 < max 1 s.clk.retry.toNat → (dom t d).recovery = .waiting)) ∧
  (∀ (s : State) (d : Nat), (dom s d).retired = true → (dom s d).recovery = .waiting →
    Runs (.recoveryAttempt d) s (setDom d { dom s d with recovery := .locking, lock := false } s)) ∧
  (∀ (s : State) (d : Nat), Live s → (dom s d).recovery = .holding →
    ∃ t, Runs (.recoveryHoldDone d) s t ∧ (dom t d).retired = false ∧ (dom t d).inReset = false ∧ (dom t d).tio = false ∧
      (dom t d).clocked = true ∧ (dom t d).lock = true ∧ (dom t d).recovery = .none) ∧
  (∀ (s : State) (d : W32) (k : Nat), Writable s → k < ringCount s → bit d k = true → (dom s k).retired = true →
    (dom s k).recovery = .none →
    ∃ t, Runs (.clkRecover d) s t ∧ (dom t k).recovery = .waiting ∧ (dom t k).failed = 0) ∧
  (∀ s : State, Runs .tioStable s { s with clk := { s.clk with
    tioStable := true, dom := s.clk.dom.map (fun e => (e.1, { e.2 with heldForTio := false })) } }) ∧
  (∀ s : State, Runs .refclkRestored s { s with clk := { s.clk with refclkOk := true } }) ∧
  (∀ s : State, s.clk.ref10Ok = false → ∃ t, Runs .ref10Restored s t ∧ t.clk.ref10Ok = true ∧ t.clk.firstGate = true ∧
    t.clk.goodGates = 0 ∧ t.clk.dom = s.clk.dom ∧ t.rm = s.rm)

/-- What the clock monitors do when they trip, and the trimming of TIO. -/
def Obligations.ClockMonitorsTripAndTrim : Prop :=
  ((∀ (s : State) (why : Nat), Live s → ∃ t, Runs (.tioMonitorTrip why) s t ∧ t.fc.lock = true) ∧
   (∀ (s : State) (why : Nat), Live s → ∃ t, Runs (.aonMonitorTrip why) s t ∧ t.fc.lock = true) ∧
   (∀ s : State, Live s → ∃ t, Runs (.frozenDomainTrip 16) s t ∧ t.fc.lock = true) ∧
   (∀ (s : State) (d : Nat), Live s → d < ringCount s → (dom s d).retired = false → bit s.ush.ringRet d = false →
     ∃ t, Runs (.frozenDomainTrip d) s t ∧ (dom t d).retired = true ∧ (dom t d).inReset = true ∧ (dom t d).tio = true ∧
       (dom t d).clocked = true ∧ (dom t d).switching = none ∧ bit t.ush.ringRet d = true) ∧
   (∀ (s : State) (d why : Nat), Live s → d < ringCount s → (dom s d).retired = false → bit s.ush.ringRet d = false →
     ∃ t, Runs (.pllTrip d why) s t ∧ (dom t d).retired = true ∧ (dom t d).inReset = true ∧ (dom t d).lock = false ∧
       bit t.ush.ringRet d = true) ∧
   (∀ s : State, Live s → s.clk.ref10Ok = true →
     ∃ t, Runs .ref10Loss s t ∧ t.clk.ref10Ok = false ∧ t.clk.dom = s.clk.dom ∧
       (s.rm.src = 2 → t.rm.holdover = true) ∧ t.rm.nt = s.rm.nt) ∧
   (∀ s : State, Live s → s.clk.refclkOk = true →
     ∃ t, Runs .refclkLoss s t ∧ t.clk.refclkOk = false)) ∧
  ((∀ (s : State) (d : W32), Writable s → s.clk.trim ≠ 0 →
     Runs (.tioTrimWrite d) s (ignoredWrite 0x16 0x508008 (d.setWidth 64) none s)) ∧
   (∀ (s : State) (d : W32), Writable s → s.clk.trim = 0 →
     let f := s.rm.freq.toInt - ((d.setWidth 20 : BitVec 20).toInt - s.clk.code.toInt) * 4096
     (-32768000 ≤ f → f ≤ 32768000 → Runs (.tioTrimWrite d) s { s with
       clk := { s.clk with code := d.setWidth 20, codeWas := some (s.clk.codeWas.getD s.clk.code) }, rm := { s.rm with freq := BitVec.ofInt 32 f } }) ∧
     ((f < -32768000 ∨ 32768000 < f) → Runs (.tioTrimWrite d) s s)) ∧
   (∀ (s : State) (n : Nat), Live s → trimMode s = 1 →
     ∃ t, Runs (.trimGate n) s t ∧ t.clk.meas = BitVec.ofInt 32 ((n : Int) - 400000000) ∧ t.clk.firstGate = false ∧
       (((n : Int) - 400000000).natAbs ≤ 25 → t.clk.goodGates = s.clk.goodGates + 1 ∧
         (3 ≤ s.clk.goodGates → t.clk.trimLocked = true)) ∧
       (25 < ((n : Int) - 400000000).natAbs → t.clk.goodGates = 0) ∧ t.rm.nt = s.rm.nt ∧ t.tickets = s.tickets) ∧
   (∀ (s : State) (n : Nat), Live s → trimMode s ≠ 1 → Runs (.trimGate n) s s) ∧
   (∀ s : State, Live s → trimMode s = 2 → 65536 < s.rm.freq.toInt.natAbs → freqLongOver s = true →
     ∃ t, Runs .trimPtpStep s t ∧ t.rm.nt = s.rm.nt ∧ t.clk.meas = s.clk.meas ∧ t.tickets = s.tickets ∧
       (-524288 ≤ s.clk.code.toInt + roundDiv s.rm.freq.toInt 4096 → s.clk.code.toInt + roundDiv s.rm.freq.toInt 4096 < 524288 →
         -32768000 ≤ s.rm.freq.toInt - roundDiv s.rm.freq.toInt 4096 * 4096 →
         s.rm.freq.toInt - roundDiv s.rm.freq.toInt 4096 * 4096 ≤ 32768000 →
         t.clk.code.toInt = s.clk.code.toInt + roundDiv s.rm.freq.toInt 4096 ∧
         t.rm.freq.toInt = s.rm.freq.toInt - roundDiv s.rm.freq.toInt 4096 * 4096)) ∧
   (∀ s : State, Live s → (trimMode s ≠ 2 ∨ s.rm.freq.toInt.natAbs ≤ 65536 ∨ freqLongOver s = false) → Runs .trimPtpStep s s) ∧
   (∀ (s : State) (f : Int) (was : BitVec 20), s.clk.codeWas = some was →
     let g := (clampFreq f).toInt - (s.clk.code.toInt - was.toInt) * 4096
     (-32768000 ≤ g → g ≤ 32768000 → (writeFreq f s).clk.code = s.clk.code ∧ (writeFreq f s).rm.freq = BitVec.ofInt 32 g) ∧
     ((g < -32768000 ∨ 32768000 < g) → (writeFreq f s).clk.code = was ∧
       (writeFreq f s).rm.freq = BitVec.ofInt 32 (clampFreq f).toInt)))

/-! ### Hat-check slots and entropy (R396–R428) -/

/-- Activation and deactivation of a card, and its blocks. -/
def Obligations.CardSlotsActivateAndExchange : Prop :=
  ((∀ (s : State) (n : Nat), hcOperates s n = true → (slotOf s n).present = false → (slotOf s n).st = hcEmpty →
     (slotOf s n).autoAct = false →
     Runs (.cardInsert n) s (setSlot n { slotOf s n with present := true, st := hcInserted } s)) ∧
   (∀ (s : State) (n : Nat), hcOperates s n = true → (slotOf s n).ownerKs = true →
     Runs (.hcActivate n) s (hcRefuse n 0x08 1 s) ∧ Runs (.hcDeactivate n) s (hcRefuse n 0x08 2 s) ∧
       Runs (.exchange n) s (hcRefuse n 0x08 3 s) ∧ Runs (.resynch n) s (hcRefuse n 0x08 4 s)) ∧
   (∀ (s : State) (n : Nat), hcOperates s n = true → (slotOf s n).ownerKs = false → (slotOf s n).present = true →
     (slotOf s n).st = hcInserted → ((slotOf s n).classA = true ∨ (slotOf s n).classB = true) →
     ∃ t, Runs (.hcActivate n) s t ∧ (slotOf t n).st = hcActivating ∧ (slotOf t n).err = 0 ∧ (slotOf t n).vccOn = true ∧
       (slotOf t n).rst = false ∧ (slotOf t n).act = .supply ∧ (slotOf t n).clsA = !(slotOf s n).classB ∧
       (∀ m, m ≠ n → slotOf t m = slotOf s m) ∧ t.ks = s.ks ∧ t.tickets = s.tickets) ∧
   (∀ (s : State) (n : Nat), hcOperates s n = true → (slotOf s n).ownerKs = false → (slotOf s n).st = hcReady →
     (slotOf s n).stepWaits = false →
     ∃ t, Runs (.hcDeactivate n) s t ∧ (slotOf t n).st = hcDeact ∧ (slotOf t n).after = hcInserted ∧ (slotOf t n).rst = false ∧
       (slotOf t n).clkOn = false ∧ (slotOf t n).err = 0 ∧ (slotOf t n).outcome = (slotOf s n).outcome ∧ t.ks = s.ks) ∧
   (∀ (s : State) (n : Nat), hcOperates s n = true → (slotOf s n).present = true → (slotOf s n).st ≠ hcEmpty →
     ∃ t, Runs (.cardRemove n) s t ∧ (slotOf t n).present = false ∧ (slotOf t n).st = hcDeact ∧ (slotOf t n).after = hcEmpty ∧
       (slotOf t n).err = 0x0A ∧ (slotOf t n).eph = none ∧ (slotOf t n).cipher = []) ∧
   (∀ (s : State) (n : Nat), hcOperates s n = true → (slotOf s n).vccOn = true → (slotOf s n).st ≠ hcDeact → (slotOf s n).st ≠ hcEmpty →
     ∃ t, Runs (.cardVccFault n) s t ∧ (slotOf t n).st = hcDeact ∧ (slotOf t n).after = hcFault ∧ (slotOf t n).err = 0x04) ∧
   (∀ (s : State) (n : Nat), (slotOf s n).st = hcDeact →
     ((slotOf s n).present = false →
       Runs (.deactivationComplete n) s (setSlot n { slotOf s n with vccOn := false, st := hcEmpty } s)) ∧
     ((slotOf s n).present = true → (slotOf s n).after ≠ hcActivating →
       Runs (.deactivationComplete n) s (setSlot n { slotOf s n with vccOn := false, st := (slotOf s n).after } s))) ∧
   (∀ (s : State) (n : Nat), (slotOf s n).act = .supply →
     Runs (.activationTimer n true) s (setSlot n { slotOf s n with act := .clock, clkOn := true } s)) ∧
   (∀ (s : State) (n : Nat) (v : Bool), (slotOf s n).act = .clock →
     Runs (.activationTimer n v) s (setSlot n { slotOf s n with act := .atr, rst := true } s)) ∧
   (∀ (s : State) (n : Nat) (v : Bool), ((slotOf s n).act = .supply ∧ v = false) ∨ (slotOf s n).act = .atr →
     let err : Byte := if (slotOf s n).act = .supply then 0x04 else 0x02
     Runs (.activationTimer n v) s (hcNoAtr n err s)) ∧
   (∀ (s : State) (n : Nat) (e : Byte),
     ((slotOf s n).clsA = false → (slotOf s n).classA = true → (slotOf s n).tried.contains true = false →
       (slotOf (hcNoAtr n e s) n).st = hcDeact ∧ (slotOf (hcNoAtr n e s) n).after = hcActivating ∧
         (slotOf (hcNoAtr n e s) n).nextA = true) ∧
     (((slotOf s n).clsA = true ∨ (slotOf s n).classA = false) →
       (slotOf (hcNoAtr n e s) n).st = hcDeact ∧ (slotOf (hcNoAtr n e s) n).after = hcInserted ∧
         (slotOf (hcNoAtr n e s) n).err = e)) ∧
   (∀ (s : State) (n : Nat) (a : List Byte), (slotOf s n).act = .atr → Runs (.atrReceive n a false) s (hcNoAtr n 0x02 s)) ∧
   (∀ (s : State) (n : Nat) (a : List Byte) (gs : List AtrGroup), (slotOf s n).act = .atr →
     (a.head? = some 0x3B ∨ a.head? = some 0x3F) → atrParse a = some gs → gs.find? (fun g => g.t == 15) = none →
     (∃ g ∈ gs, ∃ b : Byte, g.td = some b ∧ b.toNat % 16 = 1) → ((gs.drop 1).head?.bind (fun g => g.ta)) = none →
     let ta := gs.head?.bind (fun g => g.ta)
     let fi := ((ta.getD 0x11).toNat / 16)
     let di := ((ta.getD 0x11).toNat % 16)
     let first := (gs.drop 2).find? (fun g => g.t == 1)
     let edc : Bool := ((first.bind (fun g => g.tc)).getD 0).toNat % 2 == 1
     ∃ t, Runs (.atrReceive n a true) s t ∧ (slotOf t n).atr = a ∧ (slotOf t n).inverse = (a.head? == some 0x3F) ∧
       (slotOf t n).xi = 0 ∧ (slotOf t n).guardN = (gs.head?.bind (fun g => g.tc)).getD 0 ∧ (slotOf t n).edc = edc ∧
       (slotOf t n).ifsc = (first.bind (fun g => g.ta)).getD 0x20 ∧
       (slotOf t n).bwi = BitVec.ofNat 4 (((first.bind (fun g => g.tb)).getD 0x4D).toNat / 16) ∧
       (slotOf t n).cwi = BitVec.ofNat 4 ((first.bind (fun g => g.tb)).getD 0x4D).toNat ∧
       (∀ m, m ≠ n → slotOf t m = slotOf s m) ∧ t.ks = s.ks ∧ t.tickets = s.tickets ∧
       (ta = none → (slotOf t n).act = .ifs ∧ (slotOf t n).sent = (slotOf s n).sent ++ [t1Block edc 0xC1 [0xFE]]) ∧
       (∀ v, ta = some v → (slotOf s n).ppsFailed = false → 4000 ≤ fmaxOf fi * (slotOf s n).clkdiv.toNat → fiOf fi ≠ 0 → diOf di ≠ 0 →
         (slotOf t n).act = .pps ∧
         (slotOf t n).sent = (slotOf s n).sent ++ [([0xFF, 0x11, v, lrc [0xFF, 0x11, v]] : List Byte)]))) ∧
  ((∀ (s : State) (n : Nat), hcOperates s n = true → (slotOf s n).ownerKs = false →
     (slotOf s n).txLen.toNat < 4 ∨ 261 < (slotOf s n).txLen.toNat → Runs (.exchange n) s (hcRefuse n 0x09 3 s)) ∧
   (∀ (s : State) (n : Nat), hcOperates s n = true → (slotOf s n).ownerKs = false →
     4 ≤ (slotOf s n).txLen.toNat → (slotOf s n).txLen.toNat ≤ 261 → (slotOf s n).st = hcReady →
     (filtered (slotOf s n).command = true → Runs (.exchange n) s (hcRefuse n 0x07 3 s)) ∧
     (filtered (slotOf s n).command = false → (slotOf s n).command.length ≤ (slotOf s n).ifsc.toNat →
       ∃ t, Runs (.exchange n) s t ∧ (slotOf t n).st = hcExchange ∧ (slotOf t n).wait = .response ∧ (slotOf t n).err = 0 ∧
         (slotOf t n).sent = (slotOf s n).sent ++
           [t1Block (slotOf s n).edc (b2n (slotOf s n).ns * 64) (slotOf s n).command])) ∧
   (∀ (s : State) (n : Nat), hcOperates s n = true → (slotOf s n).ownerKs = false → (slotOf s n).st = hcReady →
     ∃ t, Runs (.resynch n) s t ∧ (slotOf t n).wait = .resynch ∧ (slotOf t n).st = hcExchange ∧
       (slotOf t n).sent = (slotOf s n).sent ++ [t1Block (slotOf s n).edc 0xC0 []]) ∧
   (∀ (s : State) (n : Nat) (b : List Byte) (v : Bool) (pl : List Byte), hcOperates s n = true → (slotOf s n).act = .none →
     (slotOf s n).wait = .response → (slotOf s n).errors = 0 →
     ∃ t, Runs (.t1BlockReceive n b false v pl) s t ∧ (slotOf t n).errors = 1 ∧ (slotOf t n).wait = .response ∧
       (slotOf t n).sent = (slotOf s n).sent ++ [t1Block (slotOf s n).edc (0x81 + b2n (slotOf s n).nr * 16) []] ∧
       (slotOf t n).got = (slotOf s n).got) ∧
   (∀ (s : State) (n : Nat) (b : List Byte) (v : Bool) (pl : List Byte), hcOperates s n = true → (slotOf s n).act = .none →
     (slotOf s n).wait = .response → (slotOf s n).stepWaits = false → (slotOf s n).cmd = 0 →
     b.length = 3 + (b.getD 2 0).toNat + (if (slotOf s n).edc then 2 else 1) → (b.getD 2 0).toNat ≤ 254 →
     (b.getD 1 0).toNat < 128 → ((b.getD 1 0).toNat / 64 % 2 == 1) = (slotOf s n).nr → (b.getD 1 0).toNat / 32 % 2 = 0 →
     let got := (slotOf s n).got ++ slice b 3 (b.getD 2 0).toNat
     ∃ t, Runs (.t1BlockReceive n b true v pl) s t ∧ (slotOf t n).st = hcReady ∧ (slotOf t n).outcome = 1 ∧
       (slotOf t n).wait = .none ∧ (slotOf t n).nr = !(slotOf s n).nr ∧ (slotOf t n).rxLen = BitVec.ofNat 9 got.length ∧
       (∀ k, k < got.length → Table.get 0 (slotOf t n).rx k = got.getD k 0) ∧ (∀ m, m ≠ n → slotOf t m = slotOf s m) ∧
       t.ks = s.ks ∧ t.tickets = s.tickets) ∧
   (∀ (s : State) (n : Nat) (b : List Byte) (v : Bool) (pl : List Byte), hcOperates s n = true → (slotOf s n).act = .ifs →
     ((slotOf s n).ownerKs = false → b = t1Block (slotOf s n).edc 0xE1 [0xFE] →
       Runs (.t1BlockReceive n b true v pl) s (setSlot n { slotOf s n with
         st := hcReady, act := .none, wait := .none, ns := false, nr := false } s)) ∧
     (b ≠ t1Block (slotOf s n).edc 0xE1 [0xFE] →
       ((slotOf s n).errors < 2 → ∃ t, Runs (.t1BlockReceive n b true v pl) s t ∧ (slotOf t n).act = .ifs ∧
         (slotOf t n).errors = (slotOf s n).errors + 1 ∧
         (slotOf t n).sent = (slotOf s n).sent ++ [t1Block (slotOf s n).edc 0xC1 [0xFE]]) ∧
       (2 ≤ (slotOf s n).errors → ∃ t, Runs (.t1BlockReceive n b true v pl) s t ∧ (slotOf t n).st = hcDeact ∧
         (slotOf t n).after = hcFault ∧ (slotOf t n).err = 0x05))) ∧
   (∀ (s : State) (n : Nat) (v : Bool) (pl : List Byte), hcOperates s n = true → (slotOf s n).act = .pps →
     ∃ t, Runs (.t1BlockReceive n (slotOf s n).lastBlock true v pl) s t ∧ (slotOf t n).act = .ifs ∧
       (slotOf t n).fi = BitVec.ofNat 4 (((slotOf s n).lastBlock.getD 2 0x11).toNat / 16) ∧
       (slotOf t n).di = BitVec.ofNat 4 ((slotOf s n).lastBlock.getD 2 0x11).toNat ∧
       (slotOf t n).sent = (slotOf s n).sent ++ [t1Block (slotOf s n).edc 0xC1 [0xFE]]) ∧
   (∀ (s : State) (n : Nat) (b : List Byte) (v : Bool) (pl : List Byte), hcOperates s n = true → (slotOf s n).act = .pps →
     b ≠ (slotOf s n).lastBlock →
     ∃ t, Runs (.t1BlockReceive n b true v pl) s t ∧ (slotOf t n).st = hcDeact ∧ (slotOf t n).after = hcActivating ∧
       (slotOf t n).ppsFailed = true ∧ (slotOf t n).nextA = (slotOf s n).clsA) ∧
   (∀ (s : State) (n : Nat), hcOperates s n = true → (slotOf s n).act = .none → (slotOf s n).wait = .response →
     (slotOf s n).errors = 2 →
     ∃ t, Runs (.t1Timeout n) s t ∧ (slotOf t n).wait = .resynch ∧ (slotOf t n).resynchs = (slotOf s n).resynchs + 1 ∧
       (slotOf t n).sent = (slotOf s n).sent ++ [t1Block (slotOf s n).edc 0xC0 []]) ∧
   (∀ (s : State) (n : Nat), hcOperates s n = true → (slotOf s n).cmd = 4 → (slotOf s n).poll = false → (slotOf s n).left = [] →
     (slotOf s n).dataEnd ≤ s.time.ticks → (slotOf s n).phase = .gap →
     Runs (.lineError n) s (setSlot n { slotOf s n with phase := .busy, st := hcBusy } s)) ∧
   (∀ (s : State) (n : Nat), hcOperates s n = true → (slotOf s n).phase = .busy → (slotOf s n).poll = true → (slotOf s n).wait = .none →
     ∃ t, Runs (.statusPoll n) s t ∧ (slotOf t n).cmd = 5 ∧ (slotOf t n).st = hcBusy ∧
       (slotOf t n).sent.length = (slotOf s n).sent.length + 1) ∧
   (∀ (s : State) (n : Nat), hcOperates s n = true → (slotOf s n).phase = .busy → (slotOf s n).st = hcBusy →
     ∃ t, Runs (.busyTimeout n) s t ∧ (slotOf t n).st = hcDeact ∧ (slotOf t n).after = hcInserted ∧ (slotOf t n).err = 0x06 ∧
       (slotOf t n).outcome = 3) ∧
   (∀ (s : State) (n : Nat), hcOperates s n = true → (slotOf s n).clkstopEn = true → (slotOf s n).xi ≠ 0 → (slotOf s n).st = hcReady →
     (slotOf s n).wait = .none → (slotOf s n).stepWaits = false →
     Runs (.cardClockStop n) s (setSlot n { slotOf s n with clkStopped := true } s)))

/-- The adaptive proportion test counts the bits of a window that equal its first bit; only a window that passes both tests joins the pool,
and none of a source whose raw bits are captured. -/
def Obligations.NoiseWindowsAreTestedAndPooled : Prop :=
  State.reset.rng.aptC = 917 ∧
  (∀ (s : State) (k : Nat) (w : BitVec 1024), k < 4 → bit s.rng.srcEn k = true → s.clk.tioStable = true → Live s →
    s.rng.rawRunning = true → s.rng.rawSrc.toNat = k → ∃ t, Runs (.noiseWindowEnd k w) s t ∧ t.rng.pool = s.rng.pool) ∧
  (∀ (s : State) (k : Nat) (w : BitVec 1024), k < 4 → bit s.rng.srcEn k = true → s.clk.tioStable = true → Live s →
    ∃ t, Runs (.noiseWindowEnd k w) s t ∧ (Table.get {} t.rng.src k).ones = onesOf w ∧ (Table.get {} t.rng.src k).valid = true ∧
      (Table.get {} t.rng.src k).next = (Table.get {} s.rng.src k).next + 1 ∧
      ((Table.get {} t.rng.src k).aptTrip = true ↔
        s.rng.aptC.toNat ≤ if bit w 0 then onesOf w else 1024 - onesOf w) ∧
      ((Table.get {} t.rng.src k).lastPass = true ↔
        (Table.get {} t.rng.src k).aptTrip = false ∧ (Table.get {} t.rng.src k).rctTrip = false) ∧
      ((Table.get {} t.rng.src k).lastPass = false → t.rng.pool = s.rng.pool) ∧
      ((Table.get {} t.rng.src k).lastPass = true → s.rng.rawRunning = false → s.rng.pool.length < 16 →
        t.rng.pool = s.rng.pool ++ [w]) ∧
      (∀ j, j ≠ k → Table.get {} t.rng.src j = Table.get {} s.rng.src j)) ∧
  (∀ (s : State) (k : Nat) (w : BitVec 1024), (4 ≤ k ∨ bit s.rng.srcEn k = false ∨ s.clk.tioStable = false ∨ s.fc.lock = true) →
    Runs (.noiseWindowEnd k w) s s) ∧
  (∀ (s : State) (d : W32), Writable s → s.lcs.st ≠ 0 → s.lcs.st ≠ 1 →
    Runs (.srcEnWrite d) s (ignoredWrite 0x15 0x800000 (d.setWidth 64) none s)) ∧
  (∀ (s : State) (d : W32), Writable s → (s.lcs.st = 0 ∨ s.lcs.st = 1) →
    ∃ t, Runs (.srcEnWrite d) s t ∧ t.rng.srcEn = d.setWidth 4 ∧ t.rng.pool = s.rng.pool ∧
      (∀ k, k < 4 → bit s.rng.srcEn k = true → bit d k = false → (Table.get {} t.rng.src k).run = 0)) ∧
  (∀ (s : State) (k : Nat), k < 4 → Writable s →
    ∃ t, Runs (.rngStatRead k) s t ∧ (Table.get {} t.rng.src k).latched = (Table.get {} s.rng.src k).agree ∧
      t.rng.pool = s.rng.pool ∧ t.rng.queue = s.rng.queue) ∧
  (∀ (s : State) (d : W32), Writable s →
    (s.lcs.st = 0 → Runs (.rawCapture d) s { s with rng := { s.rng with
      rawSrc := d.setWidth 2, rawRunning := true, rawDone := false } }) ∧
    (s.lcs.st ≠ 0 → Runs (.rawCapture d) s (ignoredWrite 0x15 0x800400 (d.setWidth 64) none s))) ∧
  (∀ (s : State) (b : BitVec 16384), s.rng.rawRunning = true →
    Runs (.rawCaptureDone b) s { s with rng := { s.rng with raw := b, rawRunning := false, rawDone := true } })

def Obligations.GeneratorIsSeededAndServes : Prop :=
  (∀ s : State, s.rng.katRunning = true → Live s →
    ∃ t, Runs (.drbgKatDone false) s t ∧ t.fc.lock = true) ∧
  (∀ s : State, s.rng.katRunning = true → s.rng.instRunning = false → s.rng.reseedRunning = false → s.rng.ready = false →
    3 ≤ s.rng.pool.length →
    ∃ t, Runs (.drbgKatDone true) s t ∧ t.rng.katPassed = true ∧ t.rng.katRunning = false ∧ t.rng.instRunning = true) ∧
  (∀ s : State, s.rng.instRunning = true → 3 ≤ s.rng.pool.length → s.rng.reseedRunning = false → s.rng.reseedPending = false →
    s.aud.bootReady = true → (∀ r ∈ s.rng.queue, r.pr = false) →
    ∃ t, Runs (.drbgInstantiateDone 0) s t ∧ t.rng.ready = true ∧ t.rng.count = 0 ∧ t.rng.instRunning = false ∧
      t.rng.pool = s.rng.pool.drop 3 ∧ t.rng.queue = s.rng.queue ∧
      t.rng.keyV = Config.drbgInstantiate (twoWindows s) (s.rng.pool.getD 2 0) (drbgPers s)) ∧
  (∀ s : State, Writable s → s.rng.instRunning = false → s.rng.reseedRunning = false → s.rng.katPassed = true →
    s.rng.pool.length < 3 → s.rng.ready = false →
    Runs .instantiate s { s with rng := { s.rng with instPending := true } }) ∧
  (∀ s : State, Writable s → s.rng.pool.length < 2 →
    Runs .reseed s { s with rng := { s.rng with reseedPending := true } } ∧
    Runs .reseedBlocking s { s with rng := { s.rng with reseedPending := true, blockUntil := s.rng.begun + 1 } }) ∧
  (∀ s : State, s.rng.reseedRunning = true → 2 ≤ s.rng.pool.length →
    ∃ t, Runs (.drbgReseedDone 0) s t ∧ t.rng.count = 0 ∧ t.rng.completed = s.rng.begun ∧ t.rng.pool = s.rng.pool.drop 2 ∧
      t.rng.keyV = Config.drbgReseed s.rng.keyV (twoWindows s)) ∧
  (∀ (s : State) (u : DrbgUser) (n : Nat) (p : Bool), drbgWants s u = some (n, p) → (∀ r ∈ s.rng.queue, r.who ≠ u) →
    drbgAnswer s u = none → s.rng.queue.length < 1024 → (s.rng.ready = false ∨ s.rng.katPassed = false) → isSeed u = false →
    Runs (.drbgRequest u) s (drbgNotReady u s)) ∧
  (∀ (s : State) (u : DrbgUser) (n : Nat) (p : Bool), drbgWants s u = some (n, p) → (∀ r ∈ s.rng.queue, r.who ≠ u) →
    drbgAnswer s u = none → s.rng.queue.length < 1024 → s.rng.ready = true → s.rng.katPassed = true → s.rng.holdUs ≠ 0 →
    ∃ t r, Runs (.drbgRequest u) s t ∧ t.rng.queue = insertReq r s.rng.queue ∧ r.who = u ∧ r.len = n ∧ r.pr = p ∧
      ((∀ q ∈ s.rng.queue, q.since ≠ s.time.ticks) → t.rng.queue = s.rng.queue ++ [r])) ∧
  (∀ (s : State) (c e : Nat) (r : DrbgReq) (q : List DrbgReq), s.rng.queue = r :: q → r.who = .hash c e → s.rng.ready = true →
    s.rng.katPassed = true → s.rng.reseedRunning = false → drbgMustWait s r = false →
    ∃ t, Runs (.drbgRequestServed true) s t ∧ t.rng.queue = q ∧ t.rng.count = s.rng.count + 1 ∧
      t.rng.keyV = Config.drbgNext s.rng.keyV r.len ∧
      t.rng.answers = s.rng.answers ++ [(r.who, some (bytesFrom (Config.drbgOut s.rng.keyV r.len) r.len))]) ∧
  (∀ (s : State) (u : DrbgUser) (r : DrbgReq), s.rng.queue.find? (fun r => r.who == u) = some r → isSeed u = false → u ≠ .bootId →
    (∀ h ∈ s.rng.queue, drbgMustWait s h = true) →
    ∃ t, Runs (.drbgHoldExpiry u) s t ∧ t.rng.queue = s.rng.queue.filter (fun r => r.who != u) ∧ t.rng.keyV = s.rng.keyV)

/-! ### Life cycle, debug, reset and boot (R445–R481) -/

/-- Transitions row by row, and the roots. -/
def Obligations.LifeCycleMovesForwardOnly : Prop :=
  ((∀ a b : Nat, permittedTransition a b = true ↔
     (a = 0 ∧ (b = 1 ∨ b = 4)) ∨ (a = 1 ∧ (b = 2 ∨ b = 3 ∨ b = 4)) ∨ (a = 2 ∧ (b = 3 ∨ b = 4)) ∨ (a = 3 ∧ b = 4)) ∧
   (∀ (s : State) (n : Nat) (v : Bool), Writable s → Runs (.lcTransition n true v) s
     (ignoredWrite 0x18 0xA00004 (BitVec.ofNat 64 (n % 8)) none s)) ∧
   (∀ (s : State) (n : Nat) (v : Bool), Writable s → permittedTransition s.lcs.st (n % 8) = false →
     Runs (.lcTransition n false v) s (lcRefuse 1 s)) ∧
   (∀ (s : State) (n : Nat), Writable s → permittedTransition s.lcs.st (n % 8) = true →
     (n % 8 = 2 → Table.get false s.lcs.rootLocked 0 = true ∧ Table.get false s.lcs.rootLocked 1 = true) →
     Runs (.lcTransition n false false) s (lcRefuse 3 s)) ∧
   (∀ (s : State) (n : Nat) (v : Bool), Writable s → permittedTransition s.lcs.st (n % 8) = true → n % 8 = 2 →
     (Table.get false s.lcs.rootLocked 0 = false ∨ Table.get false s.lcs.rootLocked 1 = false) →
     Runs (.lcTransition n false v) s (lcRefuse 2 s)) ∧
   (∀ (s : State) (n : Nat), Writable s → permittedTransition s.lcs.st (n % 8) = true → s.lcs.busy = true →
     (n % 8 = 2 → Table.get false s.lcs.rootLocked 0 = true ∧ Table.get false s.lcs.rootLocked 1 = true) →
     Runs (.lcTransition n false true) s (lcRefuse 5 s)) ∧
   (∀ (s : State) (r : Byte), ∃ e : Event, e.cls = .f0 ∧ e.source = 0x18 ∧ e.cause = 0x09 ∧
     lcRefuse r s = report e { s with lcs := { s.lcs with result := r } }) ∧
   (∀ (s : State) (n : Nat), Writable s → permittedTransition s.lcs.st (n % 8) = true → s.lcs.busy = false →
     (n % 8 = 2 → Table.get false s.lcs.rootLocked 0 = true ∧ Table.get false s.lcs.rootLocked 1 = true) →
     ∃ t, Runs (.lcTransition n false true) s t ∧ t.lcs.busy = true ∧ t.lcs.target = n % 8 ∧ t.lcs.result = 0 ∧
       t.lcs.granted = false ∧ t.lcs.perm = 0 ∧ t.lcs.st = s.lcs.st ∧ t.fcq.injection = none ∧
       t.lcs.rows = s.lcs.rows ++ .intent (n % 8 - 1) :: rowsFor (n % 8)) ∧
   (∀ (s : State) (c : Nat) (r : OtpRow) (q : List OtpRow), Live s → s.lcs.rows = .copy c :: r :: q → s.lcs.atBoot = false →
     ∃ t, Runs (.otpRowProgrammed true) s t ∧ t.lcs.rows = r :: q ∧ lcCopy t c = lcCopy s c ||| codeword s.lcs.target ∧
       (∀ d, d ≠ c → lcCopy t d = lcCopy s d) ∧ t.lcs.st = s.lcs.st ∧ t.lcs.intents = s.lcs.intents ∧ t.lcs.roots = s.lcs.roots) ∧
   (∀ (s : State) (k : Nat), Live s → s.lcs.rows = [.intent k] → s.lcs.atBoot = false →
     ∃ t, Runs (.otpRowProgrammed true) s t ∧ t.lcs.rows = [] ∧ lcIntent t k = lcIntent s k ||| codeword s.lcs.target)) ∧
  ((∀ (s : State) (d : W32) (v : Bool), Writable s → s.lcs.rootBusy = false →
     (s.lcs.st ≠ 1 ∨ Table.get false s.lcs.rootLocked (b2n (bit d 8)) = true) →
     Runs (.rootProgram d v) s { s with lcs := { s.lcs with rootSel := bit d 8, rootResult := 1 } }) ∧
   (∀ (s : State) (d : W32) (v : Bool), Writable s → s.lcs.rootBusy = true →
     Runs (.rootProgram d v) s (ignoredWrite 0x18 0xA00044 ((d ||| 0x80000000).setWidth 64) none s)) ∧
   (∀ (s : State) (d : W32), Writable s → s.lcs.rootBusy = false → s.lcs.st = 1 →
     Table.get false s.lcs.rootLocked (b2n (bit d 8)) = false → Table.get 0 s.lcs.roots (b2n (bit d 8)) = 0 →
     Runs (.rootProgram d true) s { s with lcs := { s.lcs with
       rootSel := bit d 8, rootBusy := true, rootResult := 0,
       rows := s.lcs.rows ++ [.root (b2n (bit d 8)), .rootLock (b2n (bit d 8))] } }) ∧
   (∀ (s : State) (r : Nat) (ok : Bool), Live s → s.lcs.rows = [.rootLock r] →
     ∃ t, Runs (.otpRowProgrammed ok) s t ∧ Table.get false t.lcs.rootLocked r = ok ∧ t.lcs.rootBusy = false ∧
       t.lcs.rootResult = (if ok then 0 else 2) ∧ t.lcs.roots = s.lcs.roots))

/-- The token, the test access port's instructions, and debug accesses. -/
def Obligations.DebugIsGrantedAndChecked : Prop :=
  ((∀ s : State, Writable s → s.lcs.dbgBusy = false → s.lcs.busy = false →
     Runs .challenge s { s with lcs := { s.lcs with dbgBusy := true, drawing := true, chalFresh := false } } ∧
     Runs .verify s { s with lcs := { s.lcs with dbgBusy := true, verifying := true } }) ∧
   (∀ s : State, Writable s → (s.lcs.dbgBusy = true ∨ s.lcs.busy = true) →
     Runs .challenge s { s with lcs := { s.lcs with dbgResult := 8 } } ∧
     Runs .verify s { s with lcs := { s.lcs with dbgResult := 8 } }) ∧
   (∀ (s : State) (k v : Bool), Live s → s.lcs.verifying = true → tokenResult k v s = 0 →
     k = true ∧ v = true ∧ s.lcs.chalFresh = true ∧ (s.lcs.st = 1 ∨ s.lcs.st = 3) ∧
     ∃ t, Runs (.verifyDone k v) s t ∧ t.lcs.granted = true ∧ t.lcs.dbgResult = 0 ∧ t.lcs.chalFresh = false ∧
       t.lcs.dbgBusy = false ∧ t.lcs.verifying = false ∧ t.lcs.st = s.lcs.st) ∧
   (∀ (s : State) (k v : Bool), Live s → s.lcs.verifying = true → tokenResult k v s ≠ 0 →
     Runs (.verifyDone k v) s { s with lcs := { s.lcs with
       verifying := false, dbgBusy := false, chalFresh := false, dbgResult := tokenResult k v s } }) ∧
   (∀ s : State, Writable s → Runs .dbgClose s { s with lcs := { s.lcs with granted := false, perm := 0, dbgResult := 0 } }) ∧
   (∀ s : State, Writable s → dbgMay s 0 = false → Runs .hold s (ignoredWrite 0x18 0xA00100 4 none s)) ∧
   (∀ s : State, Writable s → dbgMay s 0 = true → s.lcs.dbgHeld = false →
     ∃ t, Runs .hold s t ∧ t.lcs.dbgHeld = true ∧ t.lcs.granted = s.lcs.granted ∧ t.lcs.perm = s.lcs.perm ∧ t.lcs.dbgResult = 0 ∧
       t.boot.ringUp = 0 ∧ t.boot.warmCount = s.boot.warmCount) ∧
   (∀ s : State, Writable s → s.lcs.dbgHeld = true → Runs .release s (warmReset 7 s)) ∧
   (∀ s : State, Writable s → s.lcs.dbgHeld = false → Runs .release s (ignoredWrite 0x18 0xA00100 5 none s))) ∧
  ((∀ s : State, Runs .bypass s { s with jtag := { s.jtag with ir := 0xFF } }) ∧
   (∀ s : State, Runs .idcode s { s with jtag := { s.jtag with ir := 0x01, capture := idcode s } }) ∧
   (∀ s : State, Runs .jtagReset s { s with jtag := { s.jtag with ir := 0x01 } }) ∧
   (∀ s : State, scanMay s = true → s.lcs.dbgHeld = true →
     Runs .extest s { s with jtag := { s.jtag with ir := 0x00 } } ∧ Runs .clamp s { s with jtag := { s.jtag with ir := 0x04 } } ∧
       Runs .highz s { s with jtag := { s.jtag with ir := 0x05 } }) ∧
   (∀ s : State, scanMay s = true → ∃ t, Runs .samplePreload s t ∧ t.jtag.ir = 0x02 ∧ t.jtag.outcome = s.jtag.outcome ∧
     t.lcs = s.lcs ∧ t.boot = s.boot ∧ t.cores = s.cores ∧ t.mem = s.mem) ∧
   (∀ s : State, scanMay s = false →
     Runs .extest s { s with jtag := { s.jtag with ir := 0xFF } } ∧ Runs .clamp s { s with jtag := { s.jtag with ir := 0xFF } } ∧
       Runs .highz s { s with jtag := { s.jtag with ir := 0xFF } } ∧
       Runs .samplePreload s { s with jtag := { s.jtag with ir := 0xFF } }) ∧
   (∀ s : State, s.lcs.dbgHeld = false →
     Runs .extest s { s with jtag := { s.jtag with ir := 0xFF } } ∧ Runs .clamp s { s with jtag := { s.jtag with ir := 0xFF } } ∧
       Runs .highz s { s with jtag := { s.jtag with ir := 0xFF } }) ∧
   (∀ s : State, s.lcs.st ≤ 4 →
     (scanMay s = true ↔ s.lcs.st = 0 ∨ ((s.lcs.st = 1 ∨ s.lcs.st = 3) ∧ s.lcs.granted = true ∧ bit s.lcs.perm 0 = true))) ∧
   (∀ (s : State) (sp : Nat) (a d : W32), s.lcs.st ≠ 4 →
     (∃ t, Runs (.dapRead sp a) s t ∧ t.jtag.ir = 0x20) ∧ (∃ t, Runs (.dapWrite sp a d) s t ∧ t.jtag.ir = 0x20)) ∧
   (∀ s : State, (idcode s).toNat = s.dev.stepDigit.toNat * 2 ^ 28 + (0x4B00 + (if s.dev.part = .kx512 then 1 else 2)) * 2 ^ 12
     + Config.vendorId.toNat * 2 + 1)) ∧
  ((∀ (s : State) (sp : Nat) (a d : W32), s.lcs.st = 4 →
     Runs (.dapRead sp a) s { s with jtag := { s.jtag with ir := 0xFF } } ∧
     Runs (.dapWrite sp a d) s { s with jtag := { s.jtag with ir := 0xFF } }) ∧
   (∀ (s : State) (a d : W32), s.lcs.st = 2 →
     Runs (.dapWrite 0 a d) s (dapRefused a { s with jtag := { s.jtag with ir := 0x20 } }) ∧
     Runs (.dapRead 1 a) s (dapRefused a { s with jtag := { s.jtag with ir := 0x20 } }) ∧
     Runs (.dapRead 2 a) s (dapRefused a { s with jtag := { s.jtag with ir := 0x20 } }) ∧
     Runs (.dapWrite 2 a d) s (dapRefused a { s with jtag := { s.jtag with ir := 0x20 } })) ∧
   (∀ (s : State) (a : W32) (p : Place), s.lcs.st = 0 → dapMemory a s = some p →
     ∃ t, Runs (.dapRead 2 a) s t ∧ t.jtag.outcome = 1 ∧ t.mem = s.mem ∧ t.cores = s.cores ∧
       (lineTag s p = .pub → t.jtag.data = BitVec.ofNat 32 (natOf (readBytes s p 4))) ∧ (lineTag s p ≠ .pub → t.jtag.data = 0)) ∧
   (∀ (s : State) (a d : W32) (p : Place), s.lcs.st = 0 → dapMemory a s = some p → lineTag s p = .pub →
     ∃ t, Runs (.dapWrite 2 a d) s t ∧ t.jtag.outcome = 1 ∧ readBytes t p 4 = bytesOf d.toNat 4 ∧
       (∀ q, Apart p 4 q → readByte t q = readByte s q)) ∧
   (∀ (s : State) (a d : W32) (p : Place), s.lcs.st = 0 → dapMemory a s = some p → lineTag s p ≠ .pub →
     Runs (.dapWrite 2 a d) s (dapRefused a { s with jtag := { s.jtag with ir := 0x20 } })) ∧
   (∀ (s : State) (a : W32), (dapRefused a s).jtag.outcome = 2 ∧ (dapRefused a s).jtag.data = 0))

def Obligations.ResetsClearTheirScope : Prop :=
  (∀ s : State, Runs .powerOnReset s (bootBegin (lcDecide (powerReset 1 s)))) ∧
  (∀ s : State, s.boot.powered = true → Runs .powerGoodLoss s (lcDecide (powerReset 2 s))) ∧
  (∀ (s : State) (c : BitVec 4), (powerReset c s).fc = State.reset.fc ∧ (powerReset c s).ks = State.reset.ks ∧
    (powerReset c s).tickets = [] ∧ (powerReset c s).cores = [] ∧ (powerReset c s).mem = State.reset.mem ∧
    (powerReset c s).lcs.roots = s.lcs.roots ∧ (powerReset c s).lcs.secret = s.lcs.secret ∧ (powerReset c s).boot.cause = c) ∧
  (∀ s : State, s.boot.powered = true → s.fc.lock = true →
    Runs .pwrgoodRise s { s with boot := { s.boot with pwrGood := true } }) ∧
  (∀ s : State, s.boot.powered = true → s.lcs.st ≠ lcScrapped → hubClocked s = true → s.lcs.atBoot = false → s.boot.perstLow = false →
    s.boot.warm = false → Live s → s.lcs.dbgHeld = false → (Table.get {} s.clk.dom 16).recovery = .none →
    ∃ t, Runs .pwrgoodRise s t ∧ t.boot.pwrGood = true ∧ t.boot.stage = stFlash ∧ t.boot.trying = none ∧ t.mgmt.held = false ∧
      (core t mgmtCore).run = .running ∧ (core t mgmtCore).pc = 0 ∧ t.lcs = s.lcs ∧ t.mem = s.mem ∧ t.ks = s.ks) ∧
  (∀ s : State, s.boot.powered = false → Runs .pwrgoodRise s s ∧ Runs .powerGoodLoss s s) ∧
  (∀ (s : State) (k : Nat), Live s → s.boot.powered = true →
    ∃ t, Runs (.perst k) s t ∧ t.pcie.inReset = true ∧ t.boot.perstLow = true ∧ t.boot.warm = true ∧
      t.boot.cause = (if k = 0 then 3 else 4) ∧ t.boot.warmCount = s.boot.warmCount ∧ t.cores = [] ∧ t.mgmt.held = true) ∧
  (∀ (s : State) (k : Nat), s.fc.lock = true →
    Runs (.perst k) s (pcieReset true { s with boot := { s.boot with perstLow := true } })) ∧
  (∀ s : State, ∃ t, Runs .perstRelease s t ∧ t.pcie.inReset = false ∧ t.boot.perstLow = false ∧ t.lcs = s.lcs ∧ t.mem = s.mem) ∧
  (∀ s : State, Writable s → s.lcs.busy = true → Runs .warm s { s with lcs := { s.lcs with warmHeld := true } }) ∧
  (∀ s : State, Writable s → s.lcs.busy = false →
    ∃ t, Runs .warm s t ∧ t.boot.warm = true ∧ t.boot.cause = 5 ∧ t.boot.ringUp = 0 ∧ t.boot.stage = stReset ∧ t.cores = [] ∧
      t.mgmt.held = true ∧ t.fc.snet = false ∧ t.lcs.granted = false ∧ (∀ k ∈ t.tickets, k.device = true) ∧
      (∀ i, (inst t i).pasid = (inst s i).pasid) ∧ t.acts.floor = s.acts.floor ∧
      t.patch.version = s.patch.version ∧ t.patch.ram = s.patch.ram ∧ t.lcs.st = s.lcs.st ∧
      t.boot.warmCount = BitVec.ofNat 16 (sat 16 (s.boot.warmCount.toNat + 1))) ∧
  (∀ s : State, Live s → s.boot.warm = true → s.boot.perstLow = false →
    ∃ t, Runs .warmResetEntriesDone s t ∧ t.boot.warm = false ∧ t.page = [] ∧ t.tickets = s.tickets ∧
      (∀ i, (inst s i).st ≠ .free → (inst t i).st = .stopped ∧ (inst t i).drained = true ∧ (inst t i).sqHead = 0 ∧
        (inst t i).cqTail = 0))

def Obligations.BootLoadsAndReleasesRings : Prop :=
  (∀ (s : State) (dir img : List Byte) (v : BootVerdicts), Live s → s.boot.stage = stFlash → s.mgmt.held = false →
    (dirValid dir = false → Runs (.bootSlotCheck dir img v) s { s with boot := { s.boot with
      resultA := 1, resultB := 1, stage := stRecovery } }) ∧
    (dirValid dir = true → s.boot.trying = none →
      (slotResult img (flashSlot dir (firstSlot dir)).length v s = 0 →
        Runs (.bootSlotCheck dir img v) s (bootLoad (firstSlot dir) img v s)) ∧
      (slotResult img (flashSlot dir (firstSlot dir)).length v s ≠ 0 →
        Runs (.bootSlotCheck dir img v) s
          (slotFailed (firstSlot dir) (slotResult img (flashSlot dir (firstSlot dir)).length v s) s)))) ∧
  (∀ (s : State) (k : Nat), Live s → s.boot.stage = stFlash → s.mgmt.held = false → s.boot.trying = some k →
    Runs .flashReadTimeout s (slotFailed (1 - k) 6 s)) ∧
  (∀ (s : State) (k : Nat) (r : Byte), (slotFailed k r s).boot.trying = some k ∧ (slotFailed k r s).boot.fails = s.boot.fails + 1 ∧
    (1 ≤ s.boot.fails → (slotFailed k r s).boot.stage = stRecovery)) ∧
  (∀ (s : State) (v : BootVerdicts), Writable s → s.boot.stage ≠ stRecovery →
    Runs (.bootCmdLoad v) s (ignoredWrite 0x14 0x10C 0x80000000 none s)) ∧
  (∀ (s : State) (v : BootVerdicts), Writable s → s.boot.stage = stRecovery →
    (slotResult (readWin s.mem.loadWin 0 (min 0x1000000 ((bootImage (readWin s.mem.loadWin 0 64)).sig + 4627))) 0x1000000
      { v with flashOk := true } s = 0 →
      ∃ t, Runs (.bootCmdLoad v) s t ∧ t.boot.stage = stLoading ∧ t.boot.slot = 2) ∧
    (slotResult (readWin s.mem.loadWin 0 (min 0x1000000 ((bootImage (readWin s.mem.loadWin 0 64)).sig + 4627))) 0x1000000
      { v with flashOk := true } s ≠ 0 → Runs (.bootCmdLoad v) s s)) ∧
  (∀ (s : State) (r : Nat), Live s → s.boot.stage = stLoading →
    ∃ t, Runs (.ringRelease r) s t ∧ t.boot.stage = stRunning ∧
      (∀ k, k < ringCount s → ringReady s k = true → bit t.boot.ringUp k = true) ∧
      (s.aud.begun = false → (∃ k, k < ringCount s ∧ ringReady s k = true) → t.aud.isOpen = true ∧ t.aud.epoch = 0)) ∧
  (∀ (s : State) (r : Nat), Live s → s.boot.stage = stRunning → ringReady s r = true →
    ∃ t, Runs (.ringRelease r) s t ∧ bit t.boot.ringUp r = true ∧ t.tickets = s.tickets) ∧
  (∀ (s : State) (r : Nat), Writable s → ringPresent s (r % 16) = true → bit s.ush.ringRet (r % 16) = false →
    bit s.boot.ringUp (r % 16) = true →
    Runs (.ringGo r) s (holdRing (r % 16) { s with boot := { s.boot with ring := BitVec.ofNat 4 (r % 16) } })) ∧
  (∀ (s : State) (r : Nat), Writable s → (ringPresent s (r % 16) = false ∨ bit s.ush.ringRet (r % 16) = true) →
    Runs (.ringGo r) s (ignoredWrite 0x14 0x100 (BitVec.ofNat 64 (0x40000000 + r % 16)) none
      { s with boot := { s.boot with ring := BitVec.ofNat 4 (r % 16) } }))

/-- What the state after reset holds where the rules give the value, and the premise of TestPortStaysLegal. -/
def Obligations.ResetValuesOfTheSpec : Prop :=
  ((∀ i, (inst State.reset i).st = .free) ∧ State.reset.tickets = [] ∧ State.reset.ks.entries = [] ∧
   State.reset.fc.lock = false ∧ State.reset.fc.snet = false ∧ State.reset.patch.version = 0 ∧ State.reset.boot.stage = stReset ∧
   State.reset.boot.ringUp = 0 ∧ State.reset.rng.pool = [] ∧ State.reset.rng.ready = false ∧ State.reset.rm.established = false ∧
   State.reset.aud.isOpen = false ∧ (∀ p, (netPort State.reset p).en = false ∧ (netPort State.reset p).link = false) ∧
   (∀ n, (slotOf State.reset n).st = hcEmpty) ∧ State.reset.lcs.granted = false ∧ State.reset.dol.sessions = [] ∧
   State.reset.pending = []) ∧
  (State.reset.jtag.ir ∈ ([0xFF, 0x01, 0x02, 0x00, 0x04, 0x05, 0x20] : List Byte) ∧
     (State.reset.jtag.outcome = 1 ∨ (State.reset.jtag.outcome = 2 ∧ State.reset.jtag.data = 0)))

/-! ### An invariant -/

/-- The test access port holds an instruction that R456 names, a debug access was performed or refused, and a refused one returned 0. -/
def Obligations.TestPortStaysLegal : Prop :=
  ∀ s t : State,
    (s.jtag.ir ∈ ([0xFF, 0x01, 0x02, 0x00, 0x04, 0x05, 0x20] : List Byte) ∧ (s.jtag.outcome = 1 ∨ (s.jtag.outcome = 2 ∧ s.jtag.data = 0))) →
    step s = .next t →
    t.jtag.ir ∈ ([0xFF, 0x01, 0x02, 0x00, 0x04, 0x05, 0x20] : List Byte) ∧ (t.jtag.outcome = 1 ∨ (t.jtag.outcome = 2 ∧ t.jtag.data = 0))
end

