-- ==== Sys2Proof/Laws/Aead.lean ====
section
/-!
SUPPORT. AES-256-GCM: what is sealed opens to its plaintext.
-/
namespace Sys2Proof.Machine

open Sys2Proof

@[simp] theorem bytesOf_length (x n : Nat) : (bytesOf x n).length = n := by simp [bytesOf]
@[simp] theorem be_length (n x : Nat) : (be n x).length = n := by simp [be]
@[simp] theorem xorBytes_length (a b : List Byte) : (xorBytes a b).length = b.length := by simp [xorBytes]
@[simp] theorem gcmTag_length (key nonce aad ct : List Byte) : (gcmTag key nonce aad ct).length = 16 := by simp [gcmTag]

/-- The same stream taken twice is no stream. -/
theorem xorBytes_cancel (a b : List Byte) : xorBytes a (xorBytes a b) = b := by
  apply List.ext_getElem (by simp)
  intro k h _
  have hk : k < b.length := by simpa using h
  simp [xorBytes, hk, ← BitVec.xor_assoc]

/-- A sealed message opens, under its key, nonce and additional data, to its plaintext. -/
theorem gcm_round_trip (key nonce aad p : List Byte) : gcmOpen key nonce aad (gcmSeal key nonce aad p) = some p := by
  simp [gcmOpen, gcmSeal, xorBytes_cancel]

end Sys2Proof.Machine
end

