-- ==== Sys2Proof/Laws/Ends.lean ====
section
/-!
SUPPORT. An instruction's own meaning never answers that its routine waits, faults or traps: only a routine in patch RAM does.
-/
namespace Sys2Proof.Machine

open Sys2Proof

/-- The answer is not one that a routine in patch RAM alone gives. -/
def IRes.ends : IRes → Bool
  | .held _ | .micro _ _ | .trapped _ _ _ => false
  | _ => true

@[simp] theorem ends_ok (s : State) (pc : W64) : (IRes.ok s pc).ends = true := rfl
@[simp] theorem ends_exc (a : Byte) (v : W64) : (IRes.exc a v).ends = true := rfl
@[simp] theorem ends_stall (b : Bool) : (IRes.stall b).ends = true := rfl
@[simp] theorem ends_ite (p : Prop) [Decidable p] (a b : IRes) : (if p then a else b).ends = if p then a.ends else b.ends :=
  apply_ite _ _ _ _
@[simp] theorem retG_ends (c : Nat) (x : Core) (s : State) (d : Nat) (v : W64) (t : Tag) : (retG c x s d v t).ends = true := rfl
@[simp] theorem retV_ends (c : Nat) (x : Core) (s : State) (u : VecUnit) : (retV c x s u).ends = true := rfl
@[simp] theorem levelA_ends (c : Nat) (f : IRes) (h : f.ends = true) : (levelA c f).ends = true := by simp [levelA, h]
@[simp] theorem toIRes_ends (x : Core) (r : WRes) : (r.toIRes x).ends = true := by cases r <;> rfl

@[simp] theorem bodyRegArith_ends (c : Nat) (w : W32) (x : Core) (s : State) : (bodyRegArith c w x s).ends = true := by
  unfold bodyRegArith; dsimp only; repeat' (first | rfl | (simp; done) | split)
@[simp] theorem bodyDivide_ends (c : Nat) (w : W32) (x : Core) (s : State) : (bodyDivide c w x s).ends = true := by
  unfold bodyDivide; (repeat' split) <;> simp
@[simp] theorem bodyImmArith_ends (c : Nat) (w : W32) (x : Core) (s : State) : (bodyImmArith c w x s).ends = true := by
  unfold bodyImmArith; (repeat' split) <;> simp
@[simp] theorem bodyShi_ends (c : Nat) (w : W32) (x : Core) (s : State) : (bodyShi c w x s).ends = true := by
  unfold bodyShi; (repeat' split) <;> simp
@[simp] theorem bodyLiz_ends (c : Nat) (w : W32) (x : Core) (s : State) : (bodyLiz c w x s).ends = true := by
  unfold bodyLiz; (repeat' split) <;> simp
@[simp] theorem bodyLik_ends (c : Nat) (w : W32) (x : Core) (s : State) : (bodyLik c w x s).ends = true := by
  unfold bodyLik; (repeat' split) <;> simp
@[simp] theorem bodyBranch_ends (w : W32) (x : Core) (s : State) : (bodyBranch w x s).ends = true := by
  unfold bodyBranch; (repeat' split) <;> simp
@[simp] theorem bodyJmpl_ends (c : Nat) (w : W32) (x : Core) (s : State) : (bodyJmpl c w x s).ends = true := by
  unfold bodyJmpl; (repeat' split) <;> simp
@[simp] theorem bodyJmplr_ends (c : Nat) (w : W32) (x : Core) (s : State) : (bodyJmplr c w x s).ends = true := by
  unfold bodyJmplr; (repeat' split) <;> simp
@[simp] theorem bodyVecAlu_ends (c : Nat) (w : W32) (x : Core) (s : State) : (bodyVecAlu c w x s).ends = true := by
  unfold bodyVecAlu; dsimp only; repeat' (first | rfl | (simp; done) | split)
@[simp] theorem bodyVecMod_ends (c : Nat) (w : W32) (x : Core) (s : State) : (bodyVecMod c w x s).ends = true := by
  unfold bodyVecMod; dsimp only; repeat' (first | rfl | (simp; done) | split)
@[simp] theorem bodyVecReduce_ends (c : Nat) (w : W32) (x : Core) (s : State) : (bodyVecReduce c w x s).ends = true := by
  unfold bodyVecReduce
  try dsimp only
  repeat' (first | rfl | (simp only [ends_ite, ends_exc, ends_ok, ends_stall, retV_ends, retG_ends, ite_self]; done) | (simp only [ends_ite, ends_exc, ends_ok, ends_stall, retV_ends, retG_ends, ite_self]; split) | split)
@[simp] theorem bodyVecGf_ends (c : Nat) (w : W32) (x : Core) (s : State) : (bodyVecGf c w x s).ends = true := by
  unfold bodyVecGf; (repeat' split) <;> simp
@[simp] theorem bodyVecPred_ends (c : Nat) (w : W32) (x : Core) (s : State) : (bodyVecPred c w x s).ends = true := by
  unfold bodyVecPred
  try dsimp only
  repeat' (first | rfl | (simp only [ends_ite, ends_exc, ends_ok, ends_stall, retV_ends, retG_ends, ite_self]; done) | (simp only [ends_ite, ends_exc, ends_ok, ends_stall, retV_ends, retG_ends, ite_self]; split) | split)
@[simp] theorem bodyVfence_ends (w : W32) (x : Core) (s : State) : (bodyVfence w x s).ends = true := by
  unfold bodyVfence; (repeat' split) <;> simp
@[simp] theorem bodyTriple_ends (k : Klass) (c : Nat) (w : W32) (x : Core) (s : State) : (bodyTriple k c w x s).ends = true := by
  unfold bodyTriple; (repeat' split) <;> simp
@[simp] theorem bodyVload_ends (c : Nat) (w : W32) (x : Core) (s : State) : (bodyVload c w x s).ends = true := by
  unfold bodyVload; (repeat' split) <;> simp
@[simp] theorem bodyVstore_ends (c : Nat) (w : W32) (x : Core) (s : State) : (bodyVstore c w x s).ends = true := by
  unfold bodyVstore; (repeat' split) <;> simp
@[simp] theorem csrWrite_ends (k : CsrOp) (c n : Nat) (v : W64) (t : Tag) (x : Core) (s : State) : (csrWrite k c n v t x s).ends = true := by
  unfold csrWrite dclGoWrite
  try dsimp only
  repeat' (first | rfl | (simp only [ends_ite, ends_exc, ends_ok, ends_stall, retV_ends, retG_ends, ite_self]; done) | (simp only [ends_ite, ends_exc, ends_ok, ends_stall, retV_ends, retG_ends, ite_self]; split) | split)
@[simp] theorem bodyCsrr_ends (c : Nat) (w : W32) (x : Core) (s : State) : (bodyCsrr c w x s).ends = true := by
  unfold bodyCsrr; (repeat' split) <;> simp
@[simp] theorem bodyCsrWrite_ends (k : CsrOp) (c : Nat) (w : W32) (x : Core) (s : State) : (bodyCsrWrite k c w x s).ends = true := by
  unfold bodyCsrWrite; (repeat' split) <;> simp
@[simp] theorem storeAt_ends (c : Nat) (a : W64) (n : Nat) (v : W64) (t : Tag) (x : Core) (s : State) :
    (storeAt c a n v t x s).ends = true := by
  unfold storeAt
  try dsimp only
  repeat' (first | rfl | exact toIRes_ends _ _ | exact csrWrite_ends .. | (simp only [ends_ite, ends_exc, ends_ok, ends_stall, retV_ends, retG_ends, ite_self]; done) | (simp only [ends_ite, ends_exc, ends_ok, ends_stall, retV_ends, retG_ends, ite_self]; split) | split)
@[simp] theorem bodyLoad_ends (c : Nat) (w : W32) (x : Core) (s : State) : (bodyLoad c w x s).ends = true := by
  unfold bodyLoad
  try dsimp only
  repeat' (first | rfl | (simp only [ends_ite, ends_exc, ends_ok, ite_self]; done) | (simp only [ends_ite, ends_exc, ends_ok, ite_self]; split) | split)
@[simp] theorem bodyStore_ends (c : Nat) (w : W32) (x : Core) (s : State) : (bodyStore c w x s).ends = true := by
  unfold bodyStore; (repeat' split) <;> simp
@[simp] theorem loadMulti_ends (c : Nat) (a : W64) (x : Core) (rs : List Nat) (s : State) : (loadMulti c a x rs s).ends = true := by
  induction rs generalizing a x s with
  | nil => rfl
  | cons r l ih => unfold loadMulti; (repeat' split) <;> simp [ih]
@[simp] theorem storeMulti_ends (c : Nat) (a : W64) (x : Core) (rs : List Nat) (s : State) : (storeMulti c a x rs s).ends = true := by
  induction rs generalizing a x s with
  | nil => rfl
  | cons r l ih => unfold storeMulti; (repeat' split) <;> simp_all
@[simp] theorem bodyLdm_ends (c : Nat) (w : W32) (x : Core) (s : State) : (bodyLdm c w x s).ends = true := by
  unfold bodyLdm; (repeat' split) <;> simp
@[simp] theorem bodyStm_ends (c : Nat) (w : W32) (x : Core) (s : State) : (bodyStm c w x s).ends = true := by
  unfold bodyStm; (repeat' split) <;> simp
@[simp] theorem bodyExit_ends (c : Nat) (w : W32) (x : Core) (s : State) : (bodyExit c w x s).ends = true := by
  unfold bodyExit; apply levelA_ends; dsimp only; repeat' (first | rfl | (simp; done) | split)
@[simp] theorem bodyWait_ends (c : Nat) (x : Core) (s : State) : (bodyWait c x s).ends = true := by
  unfold bodyWait; (repeat' split) <;> simp
@[simp] theorem bodyTret_ends (c : Nat) (x : Core) (s : State) : (bodyTret c x s).ends = true := rfl
@[simp] theorem bodyIret_ends (c : Nat) (s : State) : (bodyIret c s).ends = true := by
  unfold bodyIret; (repeat' split) <;> simp
@[simp] theorem bodyKeyget_ends (c : Nat) (w : W32) (x : Core) (s : State) : (bodyKeyget c w x s).ends = true := by
  unfold bodyKeyget; apply levelA_ends; (repeat' split) <;> simp
@[simp] theorem bodyFormget_ends (c : Nat) (w : W32) (x : Core) (s : State) : (bodyFormget c w x s).ends = true := by
  unfold bodyFormget; apply levelA_ends; dsimp only; repeat' (first | rfl | (simp; done) | split)
@[simp] theorem bodyFormput_ends (c : Nat) (w : W32) (x : Core) (s : State) : (bodyFormput c w x s).ends = true := by
  unfold bodyFormput; apply levelA_ends; (repeat' split) <;> simp

end Sys2Proof.Machine
end

