-- ==== Sys2Proof/Laws/Stays/Shared.lean ====
section
/-!
SUPPORT. What leaves the queue, the part and the test access port alone: the operations of reporting, frames, messages, cards and records.
-/
namespace Sys2Proof.Machine

open Sys2Proof

/-! ### Ops -/

@[simp] theorem bump_stays (reg : Nat) (f : Nat) (w : Nat) (s : State) :
    (bump reg f w s).pending = s.pending ∧ (bump reg f w s).dev = s.dev ∧ (bump reg f w s).jtag = s.jtag := by
  unfold bump
  simp

@[simp] theorem bumpN_stays (reg : Nat) (f : Nat) (w : Nat) (n : Nat) (s : State) :
    (bumpN reg f w n s).pending = s.pending ∧ (bumpN reg f w n s).dev = s.dev ∧ (bumpN reg f w n s).jtag = s.jtag := by
  unfold bumpN
  refine ⟨?_, ?_, ?_⟩ <;> ((repeat' split) <;> simp)

@[simp] theorem unbump_stays (reg : Nat) (f : Nat) (s : State) :
    (unbump reg f s).pending = s.pending ∧ (unbump reg f s).dev = s.dev ∧ (unbump reg f s).jtag = s.jtag := by
  unfold unbump
  simp

@[simp] theorem rcClear_stays (reg : Nat) (f : Nat) (s : State) :
    (rcClear reg f s).pending = s.pending ∧ (rcClear reg f s).dev = s.dev ∧ (rcClear reg f s).jtag = s.jtag := by
  unfold rcClear
  simp

@[simp] theorem noteSet_stays (reg : Nat) (bits : W64) (s : State) :
    (noteSet reg bits s).pending = s.pending ∧ (noteSet reg bits s).dev = s.dev ∧ (noteSet reg bits s).jtag = s.jtag := by
  unfold noteSet
  simp

theorem unlessLocked_stays (f : State → State) (s : State)
    (h : ∀ s, (f s).pending = s.pending ∧ (f s).dev = s.dev ∧ (f s).jtag = s.jtag) :
    (unlessLocked f s).pending = s.pending ∧ (unlessLocked f s).dev = s.dev ∧ (unlessLocked f s).jtag = s.jtag := by
  unfold unlessLocked
  split
  · exact ⟨rfl, rfl, rfl⟩
  · exact h s

theorem hostWrite_stays (f : State → State) (s : State)
    (h : ∀ s, (f s).pending = s.pending ∧ (f s).dev = s.dev ∧ (f s).jtag = s.jtag) :
    (hostWrite f s).pending = s.pending ∧ (hostWrite f s).dev = s.dev ∧ (hostWrite f s).jtag = s.jtag := by
  unfold hostWrite
  split
  · exact ⟨rfl, rfl, rfl⟩
  · exact h s

@[simp] theorem pending_ite (c : Prop) [Decidable c] (a b : State) :
    (if c then a else b).pending = if c then a.pending else b.pending := apply_ite _ _ _ _
@[simp] theorem dev_ite (c : Prop) [Decidable c] (a b : State) :
    (if c then a else b).dev = if c then a.dev else b.dev := apply_ite _ _ _ _
@[simp] theorem jtag_ite (c : Prop) [Decidable c] (a b : State) :
    (if c then a else b).jtag = if c then a.jtag else b.jtag := apply_ite _ _ _ _

@[simp] theorem foldl_pending {β : Type} (f : State → β → State) (l : List β) (s : State) (h : ∀ s b, (f s b).pending = s.pending) :
    (l.foldl f s).pending = s.pending := by
  induction l generalizing s with
  | nil => rfl
  | cons b r ih => rw [List.foldl_cons, ih, h]
@[simp] theorem foldl_dev {β : Type} (f : State → β → State) (l : List β) (s : State) (h : ∀ s b, (f s b).dev = s.dev) :
    (l.foldl f s).dev = s.dev := by
  induction l generalizing s with
  | nil => rfl
  | cons b r ih => rw [List.foldl_cons, ih, h]
@[simp] theorem foldl_jtag {β : Type} (f : State → β → State) (l : List β) (s : State) (h : ∀ s b, (f s b).jtag = s.jtag) :
    (l.foldl f s).jtag = s.jtag := by
  induction l generalizing s with
  | nil => rfl
  | cons b r ih => rw [List.foldl_cons, ih, h]

@[simp] theorem emit_stays (r : HostReq) (s : State) :
    (emit r s).pending = s.pending ∧ (emit r s).dev = s.dev ∧ (emit r s).jtag = s.jtag := by
  unfold emit
  simp

@[simp] theorem msix_stays (v : Nat) (s : State) :
    (msix v s).pending = s.pending ∧ (msix v s).dev = s.dev ∧ (msix v s).jtag = s.jtag := by
  unfold msix
  simp

@[simp] theorem setInst_stays (i : Nat) (x : Inst) (s : State) :
    (setInst i x s).pending = s.pending ∧ (setInst i x s).dev = s.dev ∧ (setInst i x s).jtag = s.jtag := by
  unfold setInst
  simp

@[simp] theorem setPage_stays (i : Nat) (x : Page) (s : State) :
    (setPage i x s).pending = s.pending ∧ (setPage i x s).dev = s.dev ∧ (setPage i x s).jtag = s.jtag := by
  unfold setPage
  simp

@[simp] theorem setShare_stays (i : Nat) (x : Share) (s : State) :
    (setShare i x s).pending = s.pending ∧ (setShare i x s).dev = s.dev ∧ (setShare i x s).jtag = s.jtag := by
  unfold setShare
  simp

@[simp] theorem attention_stays (i : Nat) (s : State) :
    (attention i s).pending = s.pending ∧ (attention i s).dev = s.dev ∧ (attention i s).jtag = s.jtag := by
  unfold attention
  simp

@[simp] theorem modTicket_stays (tid : Nat) (f : Ticket → Ticket) (s : State) :
    (modTicket tid f s).pending = s.pending ∧ (modTicket tid f s).dev = s.dev ∧ (modTicket tid f s).jtag = s.jtag := by
  unfold modTicket
  simp

@[simp] theorem dropTicket_stays (tid : Nat) (s : State) :
    (dropTicket tid s).pending = s.pending ∧ (dropTicket tid s).dev = s.dev ∧ (dropTicket tid s).jtag = s.jtag := by
  unfold dropTicket
  simp

@[simp] theorem enqueueEvent_stays (w : Waiting) (s : State) :
    (enqueueEvent w s).pending = s.pending ∧ (enqueueEvent w s).dev = s.dev ∧ (enqueueEvent w s).jtag = s.jtag := by
  unfold enqueueEvent
  simp

@[simp] theorem setCore_stays (c : Nat) (x : Core) (s : State) :
    (setCore c x s).pending = s.pending ∧ (setCore c x s).dev = s.dev ∧ (setCore c x s).jtag = s.jtag := by
  unfold setCore
  simp

@[simp] theorem setCorex_stays (c : Nat) (x : CoreX) (s : State) :
    (setCorex c x s).pending = s.pending ∧ (setCorex c x s).dev = s.dev ∧ (setCorex c x s).jtag = s.jtag := by
  unfold setCorex
  simp

@[simp] theorem setEvent_stays (c : Nat) (k : Nat) (s : State) :
    (setEvent c k s).pending = s.pending ∧ (setEvent c k s).dev = s.dev ∧ (setEvent c k s).jtag = s.jtag := by
  unfold setEvent
  simp

@[simp] theorem wake_stays (c : Nat) (s : State) :
    (wake c s).pending = s.pending ∧ (wake c s).dev = s.dev ∧ (wake c s).jtag = s.jtag := by
  unfold wake
  simp

@[simp] theorem raiseEvent_stays (c : Nat) (k : Nat) (s : State) :
    (raiseEvent c k s).pending = s.pending ∧ (raiseEvent c k s).dev = s.dev ∧ (raiseEvent c k s).jtag = s.jtag := by
  unfold raiseEvent
  simp

@[simp] theorem writeByte_stays (p : Place) (b : Byte) (s : State) :
    (writeByte p b s).pending = s.pending ∧ (writeByte p b s).dev = s.dev ∧ (writeByte p b s).jtag = s.jtag := by
  unfold writeByte
  refine ⟨?_, ?_, ?_⟩ <;> ((repeat' split) <;> simp)

@[simp] theorem writeBytes_stays (p : Place) (l : List Byte) (s : State) :
    (writeBytes p l s).pending = s.pending ∧ (writeBytes p l s).dev = s.dev ∧ (writeBytes p l s).jtag = s.jtag := by
  induction l generalizing p s with
  | nil => exact ⟨rfl, rfl, rfl⟩
  | cons b r ih => simp [writeBytes, ih]

@[simp] theorem noteHeld_stays (h : LineHeld) (s : State) :
    (noteHeld h s).pending = s.pending ∧ (noteHeld h s).dev = s.dev ∧ (noteHeld h s).jtag = s.jtag := by
  unfold noteHeld
  simp

@[simp] theorem setLineTag_stays (p : Place) (t : Tag) (s : State) :
    (setLineTag p t s).pending = s.pending ∧ (setLineTag p t s).dev = s.dev ∧ (setLineTag p t s).jtag = s.jtag := by
  unfold setLineTag
  refine ⟨?_, ?_, ?_⟩ <;> ((repeat' split) <;> simp)

@[simp] theorem writeTagged_stays (p : Place) (data : List Byte) (t : Tag) (s : State) :
    (writeTagged p data t s).pending = s.pending ∧ (writeTagged p data t s).dev = s.dev ∧ (writeTagged p data t s).jtag = s.jtag := by
  unfold writeTagged
  simp

@[simp] theorem lineInTurn_stays (port : Nat) (j : Nat) (p : Place) (n : Nat) (before : State) (s : State) :
    (lineInTurn port j p n before s).pending = s.pending ∧
    (lineInTurn port j p n before s).dev = s.dev ∧
    (lineInTurn port j p n before s).jtag = s.jtag := by
  unfold lineInTurn
  simp

@[simp] theorem inTurn_stays (port : Nat) (p : Place) (n : Nat) (before : State) (after : State) :
    (inTurn port p n before after).pending = after.pending ∧
    (inTurn port p n before after).dev = after.dev ∧
    (inTurn port p n before after).jtag = after.jtag := by
  unfold inTurn
  refine ⟨?_, ?_, ?_⟩ <;> ((repeat' split) <;> simp)

@[simp] theorem turnsPass_stays (s : State) :
    (turnsPass s).pending = s.pending ∧ (turnsPass s).dev = s.dev ∧ (turnsPass s).jtag = s.jtag := by
  unfold turnsPass
  simp

@[simp] theorem writeTaggedBy_stays (p : Place) (b : List Byte) (tagAt : Nat → Tag) (s : State) :
    (writeTaggedBy p b tagAt s).pending = s.pending ∧ (writeTaggedBy p b tagAt s).dev = s.dev ∧ (writeTaggedBy p b tagAt s).jtag = s.jtag := by
  unfold writeTaggedBy
  simp

@[simp] theorem bankWrite_stays (port : Nat) (p : Place) (b : List Byte) (t : Tag) (s : State) :
    (bankWrite port p b t s).pending = s.pending ∧ (bankWrite port p b t s).dev = s.dev ∧ (bankWrite port p b t s).jtag = s.jtag := by
  unfold bankWrite
  simp

@[simp] theorem bankWriteBy_stays (port : Nat) (p : Place) (b : List Byte) (tagAt : Nat → Tag) (s : State) :
    (bankWriteBy port p b tagAt s).pending = s.pending ∧
    (bankWriteBy port p b tagAt s).dev = s.dev ∧
    (bankWriteBy port p b tagAt s).jtag = s.jtag := by
  unfold bankWriteBy
  simp

@[simp] theorem moveLines_stays (q : Place) (p : Place) (n : Nat) (s : State) :
    (moveLines q p n s).pending = s.pending ∧ (moveLines q p n s).dev = s.dev ∧ (moveLines q p n s).jtag = s.jtag := by
  unfold moveLines
  simp

@[simp] theorem keepOld_stays (c : Nat) (p : Place) (n : Nat) (s : State) :
    (keepOld c p n s).pending = s.pending ∧ (keepOld c p n s).dev = s.dev ∧ (keepOld c p n s).jtag = s.jtag := by
  unfold keepOld
  simp

@[simp] theorem dropOld_stays (c : Nat) (p : Place) (n : Nat) (s : State) :
    (dropOld c p n s).pending = s.pending ∧ (dropOld c p n s).dev = s.dev ∧ (dropOld c p n s).jtag = s.jtag := by
  unfold dropOld
  simp

@[simp] theorem fenced_stays (c : Nat) (s : State) :
    (fenced c s).pending = s.pending ∧ (fenced c s).dev = s.dev ∧ (fenced c s).jtag = s.jtag := by
  unfold fenced
  simp

@[simp] theorem seenBeside_stays (s : State) (c : Nat) :
    (seenBeside s c).pending = s.pending ∧ (seenBeside s c).dev = s.dev ∧ (seenBeside s c).jtag = s.jtag := by
  unfold seenBeside
  simp

@[simp] theorem coreStore_stays (c : Nat) (p : Place) (data : List Byte) (t : Tag) (s : State) :
    (coreStore c p data t s).pending = s.pending ∧ (coreStore c p data t s).dev = s.dev ∧ (coreStore c p data t s).jtag = s.jtag := by
  unfold coreStore
  simp

@[simp] theorem unwrite_stays (p : Place) (n : Nat) (s : State) :
    (unwrite p n s).pending = s.pending ∧ (unwrite p n s).dev = s.dev ∧ (unwrite p n s).jtag = s.jtag := by
  unfold unwrite
  refine ⟨?_, ?_, ?_⟩ <;> ((repeat' split) <;> simp)

@[simp] theorem clearWork_stays (s : State) :
    (clearWork s).pending = s.pending ∧ (clearWork s).dev = s.dev ∧ (clearWork s).jtag = s.jtag := by
  unfold clearWork
  simp

@[simp] theorem nextFresh_stays (s : State) :
    (nextFresh s).2.pending = s.pending ∧ (nextFresh s).2.dev = s.dev ∧ (nextFresh s).2.jtag = s.jtag := by
  unfold nextFresh
  simp

/-! ### Issue -/

@[simp] theorem touch_stays (tid : Nat) (cls : FaultClass) (s : State) :
    (touch tid cls s).pending = s.pending ∧ (touch tid cls s).dev = s.dev ∧ (touch tid cls s).jtag = s.jtag := by
  unfold touch
  simp

@[simp] theorem report_stays (ev : Event) (s : State) :
    (report ev s).pending = s.pending ∧ (report ev s).dev = s.dev ∧ (report ev s).jtag = s.jtag := by
  unfold report
  simp

@[simp] theorem ignoredWrite_stays (source : Byte) (off : Nat) (v : W64) (iid : Option Nat) (s : State) :
    (ignoredWrite source off v iid s).pending = s.pending ∧
    (ignoredWrite source off v iid s).dev = s.dev ∧
    (ignoredWrite source off v iid s).jtag = s.jtag := by
  unfold ignoredWrite
  simp

@[simp] theorem stateNotice_stays (source : Byte) (unit : Half) (reg : Nat) (v : W64) (s : State) :
    (stateNotice source unit reg v s).pending = s.pending ∧
    (stateNotice source unit reg v s).dev = s.dev ∧
    (stateNotice source unit reg v s).jtag = s.jtag := by
  unfold stateNotice
  simp

@[simp] theorem openGate_stays (u : Half) (s : State) :
    (openGate u s).pending = s.pending ∧ (openGate u s).dev = s.dev ∧ (openGate u s).jtag = s.jtag := by
  unfold openGate
  simp

@[simp] theorem endAct_stays (c : Nat) (status : Byte) (len : W32) (s : State) :
    (endAct c status len s).pending = s.pending ∧ (endAct c status len s).dev = s.dev ∧ (endAct c status len s).jtag = s.jtag := by
  unfold endAct
  simp

@[simp] theorem endActFault_stays (c : Nat) (status : Byte) (ev : Event) (s : State) :
    (endActFault c status ev s).pending = s.pending ∧ (endActFault c status ev s).dev = s.dev ∧ (endActFault c status ev s).jtag = s.jtag := by
  unfold endActFault
  refine ⟨?_, ?_, ?_⟩ <;> ((repeat' split) <;> simp)

@[simp] theorem endWaiting_stays (c : Nat) (s : State) :
    (endWaiting c s).pending = s.pending ∧ (endWaiting c s).dev = s.dev ∧ (endWaiting c s).jtag = s.jtag := by
  unfold endWaiting
  simp

@[simp] theorem takeTrap_stays (c : Nat) (cause : Byte) (val : W64) (vector : Bool) (s : State) :
    (takeTrap c cause val vector s).pending = s.pending ∧
    (takeTrap c cause val vector s).dev = s.dev ∧
    (takeTrap c cause val vector s).jtag = s.jtag := by
  unfold takeTrap
  simp

@[simp] theorem deliverVector_stays (c : Nat) (s : State) :
    (deliverVector c s).pending = s.pending ∧ (deliverVector c s).dev = s.dev ∧ (deliverVector c s).jtag = s.jtag := by
  unfold deliverVector
  simp

@[simp] theorem stallBegin_stays (c : Nat) (s : State) :
    (stallBegin c s).pending = s.pending ∧ (stallBegin c s).dev = s.dev ∧ (stallBegin c s).jtag = s.jtag := by
  unfold stallBegin
  simp

@[simp] theorem raise_stays (c : Nat) (cause : Byte) (val : W64) (s : State) :
    (raise c cause val s).pending = s.pending ∧ (raise c cause val s).dev = s.dev ∧ (raise c cause val s).jtag = s.jtag := by
  unfold raise
  simp

@[simp] theorem deliverInt_stays (s : State) :
    (deliverInt s).pending = s.pending ∧ (deliverInt s).dev = s.dev ∧ (deliverInt s).jtag = s.jtag := by
  unfold deliverInt
  simp

@[simp] theorem afterInstr_stays (c : Nat) (s : State) :
    (afterInstr c s).pending = s.pending ∧ (afterInstr c s).dev = s.dev ∧ (afterInstr c s).jtag = s.jtag := by
  unfold afterInstr
  simp

@[simp] theorem takeMicroFault_stays (c : Nat) (addr : Nat) (s : State) :
    (takeMicroFault c addr s).pending = s.pending ∧ (takeMicroFault c addr s).dev = s.dev ∧ (takeMicroFault c addr s).jtag = s.jtag := by
  unfold takeMicroFault
  simp

@[simp] theorem completed_stays (c : Nat) (now : Nat) (pc : W64) (s : State) :
    (completed c now pc s).pending = s.pending ∧ (completed c now pc s).dev = s.dev ∧ (completed c now pc s).jtag = s.jtag := by
  unfold completed
  simp

/-- The state that an answer leaves, where it leaves one. -/
def IRes.left? : IRes → Option State
  | .ok s _ | .held s | .micro _ s | .trapped s _ _ => some s
  | _ => none

theorem issue_stays (c : Nat) (b : Bool) (body : Core → IRes) (s : State)
    (h : ∀ x nx, (body x).left? = some nx → nx.pending = s.pending ∧ nx.dev = s.dev ∧ nx.jtag = s.jtag) :
    (issue c b body s).pending = s.pending ∧ (issue c b body s).dev = s.dev ∧ (issue c b body s).jtag = s.jtag := by
  unfold issue
  split
  · exact ⟨rfl, rfl, rfl⟩
  · simp only [afterInstr_stays]
    have h := h (core s c)
    generalize body (core s c) = e at h ⊢
    have k : ∀ t, e.left? = some t → t.pending = s.pending ∧ t.dev = s.dev ∧ t.jtag = s.jtag := h
    split
    · simp
    · split
      · simp
      · split
        · simp
        · split
          · exact ⟨rfl, rfl, rfl⟩
          · split
            · exact ⟨rfl, rfl, rfl⟩
            · split
              · simp
              · cases e with
                | ok t pc => simp [k t rfl]
                | held t => exact k t rfl
                | micro a t => simp [k t rfl]
                | trapped t a v => simp [k t rfl]
                | exc a v => simp
                | stall a => cases a <;> simp


theorem retG_stays (c : Nat) (x : Core) (s : State) (d : Nat) (v : W64) (t : Tag) (nx : State) (npc : W64) (h : retG c x s d v t = .ok nx npc) :
    nx.pending = s.pending ∧ nx.dev = s.dev ∧ nx.jtag = s.jtag := by
  unfold retG at h
  cases h; simp

/-! ### Shares -/

@[simp] theorem recompute_stays (s : State) :
    (recompute s).pending = s.pending ∧ (recompute s).dev = s.dev ∧ (recompute s).jtag = s.jtag := by
  unfold recompute
  simp

@[simp] theorem sweepActs_stays (s : State) :
    (sweepActs s).pending = s.pending ∧ (sweepActs s).dev = s.dev ∧ (sweepActs s).jtag = s.jtag := by
  unfold sweepActs
  simp

@[simp] theorem dropCopy_stays (k : Copy) (s : State) :
    (dropCopy k s).pending = s.pending ∧ (dropCopy k s).dev = s.dev ∧ (dropCopy k s).jtag = s.jtag := by
  unfold dropCopy
  simp

@[simp] theorem evictFor_stays (r : Nat) (extra : Nat) (n : Nat) (s : State) :
    (evictFor r extra n s).pending = s.pending ∧ (evictFor r extra n s).dev = s.dev ∧ (evictFor r extra n s).jtag = s.jtag := by
  induction n generalizing s with
  | zero => exact ⟨rfl, rfl, rfl⟩
  | succ n ih =>
    unfold evictFor
    split
    · exact ⟨rfl, rfl, rfl⟩
    · split
      · exact ⟨rfl, rfl, rfl⟩
      · simp [ih]


@[simp] theorem evictOver_stays (r : Nat) (n : Nat) (s : State) :
    (evictOver r n s).pending = s.pending ∧ (evictOver r n s).dev = s.dev ∧ (evictOver r n s).jtag = s.jtag := by
  unfold evictOver
  simp

/-! ### Frames -/

@[simp] theorem setPort_stays (p : Nat) (x : Port) (s : State) :
    (setPort p x s).pending = s.pending ∧ (setPort p x s).dev = s.dev ∧ (setPort p x s).jtag = s.jtag := by
  unfold setPort
  simp

@[simp] theorem portCount_stays (p : Nat) (off : Nat) (s : State) :
    (portCount p off s).pending = s.pending ∧ (portCount p off s).dev = s.dev ∧ (portCount p off s).jtag = s.jtag := by
  unfold portCount
  simp

@[simp] theorem fecCount_stays (p : Nat) (r : FrameRead) (s : State) :
    (fecCount p r s).pending = s.pending ∧ (fecCount p r s).dev = s.dev ∧ (fecCount p r s).jtag = s.jtag := by
  unfold fecCount
  simp

@[simp] theorem freeFrame_stays (f : TxFrame) (s : State) :
    (freeFrame f s).pending = s.pending ∧ (freeFrame f s).dev = s.dev ∧ (freeFrame f s).jtag = s.jtag := by
  unfold freeFrame
  refine ⟨?_, ?_, ?_⟩ <;> ((repeat' split) <;> simp)

@[simp] theorem freeLines_stays (p : Nat) (reserved : Nat) (shared : Nat) (s : State) :
    (freeLines p reserved shared s).pending = s.pending ∧
    (freeLines p reserved shared s).dev = s.dev ∧
    (freeLines p reserved shared s).jtag = s.jtag := by
  unfold freeLines
  simp

@[simp] theorem dolLost_stays (s : State) :
    (dolLost s).pending = s.pending ∧ (dolLost s).dev = s.dev ∧ (dolLost s).jtag = s.jtag := by
  unfold dolLost
  simp

@[simp] theorem noResolve_stays (p : Nat) (f : TxFrame) (s : State) :
    (noResolve p f s).pending = s.pending ∧ (noResolve p f s).dev = s.dev ∧ (noResolve p f s).jtag = s.jtag := by
  unfold noResolve
  simp

@[simp] theorem dropUnlinked_stays (p : Nat) (f : TxFrame) (s : State) :
    (dropUnlinked p f s).pending = s.pending ∧ (dropUnlinked p f s).dev = s.dev ∧ (dropUnlinked p f s).jtag = s.jtag := by
  unfold dropUnlinked
  simp

@[simp] theorem enqueueTx_stays (p : Nat) (f : TxFrame) (s : State) :
    (enqueueTx p f s).pending = s.pending ∧ (enqueueTx p f s).dev = s.dev ∧ (enqueueTx p f s).jtag = s.jtag := by
  unfold enqueueTx
  simp

@[simp] theorem resolveTx_stays (p : Nat) (f : TxFrame) (s : State) :
    (resolveTx p f s).pending = s.pending ∧ (resolveTx p f s).dev = s.dev ∧ (resolveTx p f s).jtag = s.jtag := by
  unfold resolveTx
  dsimp only
  refine ⟨?_, ?_, ?_⟩ <;> ((repeat' split) <;> simp)

@[simp] theorem sendIp_stays (p : Nat) (dst : Ip) (f : TxFrame) (s : State) :
    (sendIp p dst f s).pending = s.pending ∧ (sendIp p dst f s).dev = s.dev ∧ (sendIp p dst f s).jtag = s.jtag := by
  unfold sendIp
  refine ⟨?_, ?_, ?_⟩ <;> ((repeat' split) <;> simp)

@[simp] theorem learn_stays (p : Nat) (a : Ip) (m : BitVec 48) (s : State) :
    (learn p a m s).pending = s.pending ∧ (learn p a m s).dev = s.dev ∧ (learn p a m s).jtag = s.jtag := by
  unfold learn
  dsimp only
  refine ⟨?_, ?_, ?_⟩ <;> ((repeat' split) <;> simp)

/-! ### Network -/

@[simp] theorem portNotice_stays (p : Nat) (s : State) :
    (portNotice p s).pending = s.pending ∧ (portNotice p s).dev = s.dev ∧ (portNotice p s).jtag = s.jtag := by
  unfold portNotice
  simp

theorem execPortEnable_stays (p : Nat) (data : W32) (s : State) (nx : State) (h : execPortEnable p data s = .next nx) :
    nx.pending = s.pending ∧ nx.dev = s.dev ∧ nx.jtag = s.jtag := by
  unfold execPortEnable at h
  cases h
  refine hostWrite_stays _ _ fun s => ?_
  simp

@[simp] theorem linkLost_stays (p : Nat) (receiving : Bool) (s : State) :
    (linkLost p receiving s).pending = s.pending ∧ (linkLost p receiving s).dev = s.dev ∧ (linkLost p receiving s).jtag = s.jtag := by
  unfold linkLost
  simp

@[simp] theorem linkCut_stays (p : Nat) (s : State) :
    (linkCut p s).pending = s.pending ∧ (linkCut p s).dev = s.dev ∧ (linkCut p s).jtag = s.jtag := by
  unfold linkCut
  simp

theorem execPortDisable_stays (p : Nat) (data : W32) (s : State) (nx : State) (h : execPortDisable p data s = .next nx) :
    nx.pending = s.pending ∧ nx.dev = s.dev ∧ nx.jtag = s.jtag := by
  unfold execPortDisable at h
  cases h
  refine hostWrite_stays _ _ fun s => ?_
  simp

theorem execLinkRestart_stays (p : Nat) (s : State) (nx : State) (h : execLinkRestart p s = .next nx) :
    nx.pending = s.pending ∧ nx.dev = s.dev ∧ nx.jtag = s.jtag := by
  unfold execLinkRestart at h
  cases h
  refine hostWrite_stays _ _ fun s => ?_
  simp

@[simp] theorem portStage_stays (p : Nat) (s : State) :
    (portStage p s).pending = s.pending ∧ (portStage p s).dev = s.dev ∧ (portStage p s).jtag = s.jtag := by
  unfold portStage
  simp

theorem execLinkUp_stays (p : Nat) (s : State) (nx : State) (h : execLinkUp p s = .next nx) :
    nx.pending = s.pending ∧ nx.dev = s.dev ∧ nx.jtag = s.jtag := by
  unfold execLinkUp at h
  cases h
  simp

theorem execLinkDown_stays (p : Nat) (receiving : Bool) (s : State) (nx : State) (h : execLinkDown p receiving s = .next nx) :
    nx.pending = s.pending ∧ nx.dev = s.dev ∧ nx.jtag = s.jtag := by
  unfold execLinkDown at h
  cases h
  simp

theorem execDadTimeout_stays (p : Nat) (s : State) (nx : State) (h : execDadTimeout p s = .next nx) :
    nx.pending = s.pending ∧ nx.dev = s.dev ∧ nx.jtag = s.jtag := by
  unfold execDadTimeout at h
  cases h
  simp

theorem execNeighbourRetry_stays (p : Nat) (a : Ip) (s : State) (nx : State) (h : execNeighbourRetry p a s = .next nx) :
    nx.pending = s.pending ∧ nx.dev = s.dev ∧ nx.jtag = s.jtag := by
  unfold execNeighbourRetry at h
  cases h
  dsimp only
  refine ⟨?_, ?_, ?_⟩ <;> ((repeat' split) <;> simp)

theorem execNeighbourResolveFail_stays (p : Nat) (a : Ip) (s : State) (nx : State) (h : execNeighbourResolveFail p a s = .next nx) :
    nx.pending = s.pending ∧ nx.dev = s.dev ∧ nx.jtag = s.jtag := by
  unfold execNeighbourResolveFail at h
  cases h
  dsimp only
  refine ⟨?_, ?_, ?_⟩ <;> ((repeat' split) <;> simp)

@[simp] theorem ptpReceive_stays (p : Nat) (m : List Byte) (s : State) :
    (ptpReceive p m s).pending = s.pending ∧ (ptpReceive p m s).dev = s.dev ∧ (ptpReceive p m s).jtag = s.jtag := by
  unfold ptpReceive
  simp

@[simp] theorem arpReceive_stays (p : Nat) (m : List Byte) (s : State) :
    (arpReceive p m s).pending = s.pending ∧ (arpReceive p m s).dev = s.dev ∧ (arpReceive p m s).jtag = s.jtag := by
  unfold arpReceive
  simp

@[simp] theorem echoReceive_stays (p : Nat) (v6 : Bool) (src : Ip) (dst : Ip) (m : List Byte) (s : State) :
    (echoReceive p v6 src dst m s).pending = s.pending ∧
    (echoReceive p v6 src dst m s).dev = s.dev ∧
    (echoReceive p v6 src dst m s).jtag = s.jtag := by
  unfold echoReceive
  simp

@[simp] theorem ndReceive_stays (p : Nat) (src : Ip) (dst : Ip) (m : List Byte) (s : State) :
    (ndReceive p src dst m s).pending = s.pending ∧ (ndReceive p src dst m s).dev = s.dev ∧ (ndReceive p src dst m s).jtag = s.jtag := by
  unfold ndReceive
  refine ⟨?_, ?_, ?_⟩ <;> ((repeat' split) <;> simp)

@[simp] theorem dolidReceive_stays (p : Nat) (src : Ip) (udp : Nat) (m : List Byte) (lines : Nat × Nat) (s : State) :
    (dolidReceive p src udp m lines s).pending = s.pending ∧
    (dolidReceive p src udp m lines s).dev = s.dev ∧
    (dolidReceive p src udp m lines s).jtag = s.jtag := by
  unfold dolidReceive
  simp

@[simp] theorem udpReceive_stays (p : Nat) (v6 : Bool) (src : Ip) (dst : Ip) (proto : Nat) (u : List Byte) (lines : Nat × Nat) (s : State) :
    (udpReceive p v6 src dst proto u lines s).pending = s.pending ∧
    (udpReceive p v6 src dst proto u lines s).dev = s.dev ∧
    (udpReceive p v6 src dst proto u lines s).jtag = s.jtag := by
  unfold udpReceive
  simp

@[simp] theorem ipReceive_stays (p : Nat) (v6 : Bool) (broadcast : Bool) (b : List Byte) (lines : Nat × Nat) (s : State) :
    (ipReceive p v6 broadcast b lines s).pending = s.pending ∧
    (ipReceive p v6 broadcast b lines s).dev = s.dev ∧
    (ipReceive p v6 broadcast b lines s).jtag = s.jtag := by
  unfold ipReceive
  simp

@[simp] theorem frameDecided_stays (p : Nat) (x : Port) (frame : List Byte) (intact : Bool) (lines : Nat × Nat) (s : State) :
    (frameDecided p x frame intact lines s).pending = s.pending ∧
    (frameDecided p x frame intact lines s).dev = s.dev ∧
    (frameDecided p x frame intact lines s).jtag = s.jtag := by
  unfold frameDecided
  simp

theorem execFrameReceive_stays (p : Nat) (frame : List Byte) (found : FrameRead) (s : State) (nx : State) (h : execFrameReceive p frame found s = .next nx) :
    nx.pending = s.pending ∧ nx.dev = s.dev ∧ nx.jtag = s.jtag := by
  unfold execFrameReceive at h
  cases h
  refine ⟨?_, ?_, ?_⟩ <;> ((repeat' split) <;> simp)

@[simp] theorem setDolInst_stays (i : Nat) (x : DolInst) (s : State) :
    (setDolInst i x s).pending = s.pending ∧ (setDolInst i x s).dev = s.dev ∧ (setDolInst i x s).jtag = s.jtag := by
  unfold setDolInst
  simp

@[simp] theorem gloveDrop_stays (f : TxFrame) (check : Nat) (s : State) :
    (gloveDrop f check s).pending = s.pending ∧ (gloveDrop f check s).dev = s.dev ∧ (gloveDrop f check s).jtag = s.jtag := by
  unfold gloveDrop
  refine ⟨?_, ?_, ?_⟩ <;> ((repeat' split) <;> simp)

@[simp] theorem storeTxTs_stays (p : Nat) (m : List Byte) (t : Nat) (s : State) :
    (storeTxTs p m t s).pending = s.pending ∧ (storeTxTs p m t s).dev = s.dev ∧ (storeTxTs p m t s).jtag = s.jtag := by
  unfold storeTxTs
  simp

@[simp] theorem frameLeaves_stays (p : Nat) (f : TxFrame) (s : State) :
    (frameLeaves p f s).pending = s.pending ∧ (frameLeaves p f s).dev = s.dev ∧ (frameLeaves p f s).jtag = s.jtag := by
  unfold frameLeaves
  refine ⟨?_, ?_, ?_⟩ <;> ((repeat' split) <;> simp)

theorem execFrameTransmit_stays (p : Nat) (firmware : Option (List Byte × Nat)) (s : State) (nx : State) (h : execFrameTransmit p firmware s = .next nx) :
    nx.pending = s.pending ∧ nx.dev = s.dev ∧ nx.jtag = s.jtag := by
  unfold execFrameTransmit at h
  cases h
  dsimp only
  refine ⟨?_, ?_, ?_⟩ <;> ((repeat' split) <;> simp)

theorem execTxtsPop_stays (p : Nat) (s : State) (nx : State) (h : execTxtsPop p s = .next nx) :
    nx.pending = s.pending ∧ nx.dev = s.dev ∧ nx.jtag = s.jtag := by
  unfold execTxtsPop at h
  cases h
  refine hostWrite_stays _ _ fun s => ?_
  simp

/-! ### HatCheck -/

@[simp] theorem setSlot_stays (n : Nat) (x : Slot) (s : State) :
    (setSlot n x s).pending = s.pending ∧ (setSlot n x s).dev = s.dev ∧ (setSlot n x s).jtag = s.jtag := by
  unfold setSlot
  simp

@[simp] theorem hcCount_stays (n : Nat) (f : Nat) (s : State) :
    (hcCount n f s).pending = s.pending ∧ (hcCount n f s).dev = s.dev ∧ (hcCount n f s).jtag = s.jtag := by
  unfold hcCount
  simp

@[simp] theorem unknownOutcome_stays (n : Nat) (s : State) :
    (unknownOutcome n s).pending = s.pending ∧ (unknownOutcome n s).dev = s.dev ∧ (unknownOutcome n s).jtag = s.jtag := by
  unfold unknownOutcome
  simp

@[simp] theorem hcCut_stays (n : Nat) (after : BitVec 4) (err : Option Byte) (s : State) :
    (hcCut n after err s).pending = s.pending ∧ (hcCut n after err s).dev = s.dev ∧ (hcCut n after err s).jtag = s.jtag := by
  unfold hcCut
  simp

@[simp] theorem profileSend_stays (n : Nat) (k : Nat) (s : State) :
    (profileSend n k s).pending = s.pending ∧ (profileSend n k s).dev = s.dev ∧ (profileSend n k s).jtag = s.jtag := by
  unfold profileSend
  simp

@[simp] theorem hcBegin_stays (n : Nat) (s : State) :
    (hcBegin n s).pending = s.pending ∧ (hcBegin n s).dev = s.dev ∧ (hcBegin n s).jtag = s.jtag := by
  unfold hcBegin
  simp

@[simp] theorem hcActivate_stays (n : Nat) (s : State) :
    (hcActivate n s).pending = s.pending ∧ (hcActivate n s).dev = s.dev ∧ (hcActivate n s).jtag = s.jtag := by
  unfold hcActivate
  simp

@[simp] theorem hcNoAtr_stays (n : Nat) (err : Byte) (s : State) :
    (hcNoAtr n err s).pending = s.pending ∧ (hcNoAtr n err s).dev = s.dev ∧ (hcNoAtr n err s).jtag = s.jtag := by
  unfold hcNoAtr
  simp

@[simp] theorem hcReadyNow_stays (n : Nat) (s : State) :
    (hcReadyNow n s).pending = s.pending ∧ (hcReadyNow n s).dev = s.dev ∧ (hcReadyNow n s).jtag = s.jtag := by
  unfold hcReadyNow
  simp

@[simp] theorem hcRefuse_stays (n : Nat) (err : Byte) (cmd : Nat) (s : State) :
    (hcRefuse n err cmd s).pending = s.pending ∧ (hcRefuse n err cmd s).dev = s.dev ∧ (hcRefuse n err cmd s).jtag = s.jtag := by
  unfold hcRefuse
  simp

theorem execHcActivate_stays (n : Nat) (s : State) (nx : State) (h : execHcActivate n s = .next nx) :
    nx.pending = s.pending ∧ nx.dev = s.dev ∧ nx.jtag = s.jtag := by
  unfold execHcActivate at h
  cases h
  simp

theorem execHcDeactivate_stays (n : Nat) (s : State) (nx : State) (h : execHcDeactivate n s = .next nx) :
    nx.pending = s.pending ∧ nx.dev = s.dev ∧ nx.jtag = s.jtag := by
  unfold execHcDeactivate at h
  cases h
  simp

theorem execExchange_stays (n : Nat) (s : State) (nx : State) (h : execExchange n s = .next nx) :
    nx.pending = s.pending ∧ nx.dev = s.dev ∧ nx.jtag = s.jtag := by
  unfold execExchange at h
  cases h
  simp

@[simp] theorem hcResynch_stays (n : Nat) (s : State) :
    (hcResynch n s).pending = s.pending ∧ (hcResynch n s).dev = s.dev ∧ (hcResynch n s).jtag = s.jtag := by
  unfold hcResynch
  simp

theorem execResynch_stays (n : Nat) (s : State) (nx : State) (h : execResynch n s = .next nx) :
    nx.pending = s.pending ∧ nx.dev = s.dev ∧ nx.jtag = s.jtag := by
  unfold execResynch at h
  cases h
  simp

theorem execCardInsert_stays (n : Nat) (s : State) (nx : State) (h : execCardInsert n s = .next nx) :
    nx.pending = s.pending ∧ nx.dev = s.dev ∧ nx.jtag = s.jtag := by
  unfold execCardInsert at h
  cases h
  simp

theorem execCardRemove_stays (n : Nat) (s : State) (nx : State) (h : execCardRemove n s = .next nx) :
    nx.pending = s.pending ∧ nx.dev = s.dev ∧ nx.jtag = s.jtag := by
  unfold execCardRemove at h
  cases h
  simp

theorem execDeactivationComplete_stays (n : Nat) (s : State) (nx : State) (h : execDeactivationComplete n s = .next nx) :
    nx.pending = s.pending ∧ nx.dev = s.dev ∧ nx.jtag = s.jtag := by
  unfold execDeactivationComplete at h
  cases h
  simp

theorem execCardVccFault_stays (n : Nat) (s : State) (nx : State) (h : execCardVccFault n s = .next nx) :
    nx.pending = s.pending ∧ nx.dev = s.dev ∧ nx.jtag = s.jtag := by
  unfold execCardVccFault at h
  cases h
  simp

theorem execActivationTimer_stays (n : Nat) (vccOk : Bool) (s : State) (nx : State) (h : execActivationTimer n vccOk s = .next nx) :
    nx.pending = s.pending ∧ nx.dev = s.dev ∧ nx.jtag = s.jtag := by
  unfold execActivationTimer at h
  cases h
  dsimp only
  refine ⟨?_, ?_, ?_⟩ <;> ((repeat' split) <;> simp)

theorem execAtrReceive_stays (n : Nat) (atr : List Byte) (intact : Bool) (s : State) (nx : State) (h : execAtrReceive n atr intact s = .next nx) :
    nx.pending = s.pending ∧ nx.dev = s.dev ∧ nx.jtag = s.jtag := by
  unfold execAtrReceive at h
  cases h
  refine ⟨?_, ?_, ?_⟩ <;> ((repeat' split) <;> simp)

@[simp] theorem hcFailed_stays (n : Nat) (err : Option Byte) (s : State) (result : optParam Byte 4) :
    (hcFailed n err s result).pending = s.pending ∧ (hcFailed n err s result).dev = s.dev ∧ (hcFailed n err s result).jtag = s.jtag := by
  unfold hcFailed
  simp

@[simp] theorem hcBlockError_stays (n : Nat) (code : Nat) (s : State) :
    (hcBlockError n code s).pending = s.pending ∧ (hcBlockError n code s).dev = s.dev ∧ (hcBlockError n code s).jtag = s.jtag := by
  unfold hcBlockError
  simp

@[simp] theorem hcAnswered_stays (n : Nat) (s : State) :
    (hcAnswered n s).pending = s.pending ∧ (hcAnswered n s).dev = s.dev ∧ (hcAnswered n s).jtag = s.jtag := by
  unfold hcAnswered
  simp

@[simp] theorem profileAnswer_stays (n : Nat) (verified : Bool) (s : State) :
    (profileAnswer n verified s).pending = s.pending ∧
    (profileAnswer n verified s).dev = s.dev ∧
    (profileAnswer n verified s).jtag = s.jtag := by
  unfold profileAnswer
  dsimp only
  refine ⟨?_, ?_, ?_⟩ <;> ((repeat' split) <;> simp)

@[simp] theorem hcNegotiationError_stays (n : Nat) (s : State) :
    (hcNegotiationError n s).pending = s.pending ∧ (hcNegotiationError n s).dev = s.dev ∧ (hcNegotiationError n s).jtag = s.jtag := by
  unfold hcNegotiationError
  simp

@[simp] theorem hcErred_stays (n : Nat) (s : State) :
    (hcErred n s).pending = s.pending ∧ (hcErred n s).dev = s.dev ∧ (hcErred n s).jtag = s.jtag := by
  unfold hcErred
  simp

theorem execT1BlockReceive_stays (n : Nat) (block : List Byte) (intact : Bool) (verified : Bool) (_plain : List Byte) (s : State) (nx : State) (h : execT1BlockReceive n block intact verified _plain s = .next nx) :
    nx.pending = s.pending ∧ nx.dev = s.dev ∧ nx.jtag = s.jtag := by
  unfold execT1BlockReceive at h
  cases h
  simp

theorem execT1Timeout_stays (n : Nat) (s : State) (nx : State) (h : execT1Timeout n s = .next nx) :
    nx.pending = s.pending ∧ nx.dev = s.dev ∧ nx.jtag = s.jtag := by
  unfold execT1Timeout at h
  cases h
  simp

theorem execLineError_stays (n : Nat) (s : State) (nx : State) (h : execLineError n s = .next nx) :
    nx.pending = s.pending ∧ nx.dev = s.dev ∧ nx.jtag = s.jtag := by
  unfold execLineError at h
  cases h
  simp

theorem execStatusPoll_stays (n : Nat) (s : State) (nx : State) (h : execStatusPoll n s = .next nx) :
    nx.pending = s.pending ∧ nx.dev = s.dev ∧ nx.jtag = s.jtag := by
  unfold execStatusPoll at h
  cases h
  simp

theorem execBusyTimeout_stays (n : Nat) (s : State) (nx : State) (h : execBusyTimeout n s = .next nx) :
    nx.pending = s.pending ∧ nx.dev = s.dev ∧ nx.jtag = s.jtag := by
  unfold execBusyTimeout at h
  cases h
  simp

theorem execCardClockStop_stays (n : Nat) (s : State) (nx : State) (h : execCardClockStop n s = .next nx) :
    nx.pending = s.pending ∧ nx.dev = s.dev ∧ nx.jtag = s.jtag := by
  unfold execCardClockStop at h
  cases h
  simp

@[simp] theorem hcRecall_stays (n : Nat) (s : State) :
    (hcRecall n s).pending = s.pending ∧ (hcRecall n s).dev = s.dev ∧ (hcRecall n s).jtag = s.jtag := by
  unfold hcRecall
  dsimp only
  refine ⟨?_, ?_, ?_⟩ <;> ((repeat' split) <;> simp)

@[simp] theorem hcTakeStep_stays (n : Nat) (s : State) :
    (hcTakeStep n s).pending = s.pending ∧ (hcTakeStep n s).dev = s.dev ∧ (hcTakeStep n s).jtag = s.jtag := by
  unfold hcTakeStep
  simp

@[simp] theorem hcEphemeral_stays (n : Nat) (key : Option (List Byte)) (s : State) :
    (hcEphemeral n key s).pending = s.pending ∧ (hcEphemeral n key s).dev = s.dev ∧ (hcEphemeral n key s).jtag = s.jtag := by
  unfold hcEphemeral
  refine ⟨?_, ?_, ?_⟩ <;> ((repeat' split) <;> simp)

@[simp] theorem hcReset_stays (n : Nat) (s : State) :
    (hcReset n s).pending = s.pending ∧ (hcReset n s).dev = s.dev ∧ (hcReset n s).jtag = s.jtag := by
  unfold hcReset
  simp

/-! ### Messages -/

@[simp] theorem modSession_stays (sid : W32) (f : Session → Session) (s : State) :
    (modSession sid f s).pending = s.pending ∧ (modSession sid f s).dev = s.dev ∧ (modSession sid f s).jtag = s.jtag := by
  unfold modSession
  simp

@[simp] theorem dolSend_stays (p : Nat) (dst : Ip) (udp : Nat) (iid : Option Nat) (refusal : Bool) (m : List Byte) (s : State) :
    (dolSend p dst udp iid refusal m s).pending = s.pending ∧
    (dolSend p dst udp iid refusal m s).dev = s.dev ∧
    (dolSend p dst udp iid refusal m s).jtag = s.jtag := by
  unfold dolSend
  simp

@[simp] theorem sessionFrame_stays (x : Session) (p : Nat) (ty : Nat) (refusal : Bool) (plain : List Byte) (s : State) :
    (sessionFrame x p ty refusal plain s).pending = s.pending ∧
    (sessionFrame x p ty refusal plain s).dev = s.dev ∧
    (sessionFrame x p ty refusal plain s).jtag = s.jtag := by
  unfold sessionFrame
  simp

@[simp] theorem closeSession_stays (sid : W32) (reason : Option Nat) (s : State) :
    (closeSession sid reason s).pending = s.pending ∧ (closeSession sid reason s).dev = s.dev ∧ (closeSession sid reason s).jtag = s.jtag := by
  unfold closeSession
  refine ⟨?_, ?_, ?_⟩ <;> ((repeat' split) <;> simp)

@[simp] theorem sessionSend_stays (sid : W32) (p : Nat) (ty : Nat) (refusal : Bool) (plain : List Byte) (s : State) :
    (sessionSend sid p ty refusal plain s).pending = s.pending ∧
    (sessionSend sid p ty refusal plain s).dev = s.dev ∧
    (sessionSend sid p ty refusal plain s).jtag = s.jtag := by
  unfold sessionSend
  refine ⟨?_, ?_, ?_⟩ <;> ((repeat' split) <;> simp)

@[simp] theorem dolReject_stays (p : Nat) (dst : Ip) (udp : Nat) (iid : Nat) (cnonce : BitVec 128) (reason : Nat) (status : Byte) (hint : Nat) (s : State) :
    (dolReject p dst udp iid cnonce reason status hint s).pending = s.pending ∧
    (dolReject p dst udp iid cnonce reason status hint s).dev = s.dev ∧
    (dolReject p dst udp iid cnonce reason status hint s).jtag = s.jtag := by
  unfold dolReject
  simp

@[simp] theorem modTxn_stays (iid : Nat) (txid : W64) (f : Txn → Txn) (s : State) :
    (modTxn iid txid f s).pending = s.pending ∧ (modTxn iid txid f s).dev = s.dev ∧ (modTxn iid txid f s).jtag = s.jtag := by
  unfold modTxn
  simp

@[simp] theorem dropTxn_stays (t : Txn) (s : State) :
    (dropTxn t s).pending = s.pending ∧ (dropTxn t s).dev = s.dev ∧ (dropTxn t s).jtag = s.jtag := by
  unfold dropTxn
  simp

/-! ### Record -/

@[simp] theorem logRecord_stays (r : BitVec 512) (s : State) :
    (logRecord r s).pending = s.pending ∧ (logRecord r s).dev = s.dev ∧ (logRecord r s).jtag = s.jtag := by
  unfold logRecord
  simp

@[simp] theorem capture_stays (src : Byte) (r : BitVec 512) (s : State) :
    (capture src r s).pending = s.pending ∧ (capture src r s).dev = s.dev ∧ (capture src r s).jtag = s.jtag := by
  unfold capture
  simp

@[simp] theorem faultIrq_stays (cls : FaultClass) (s : State) :
    (faultIrq cls s).pending = s.pending ∧ (faultIrq cls s).dev = s.dev ∧ (faultIrq cls s).jtag = s.jtag := by
  unfold faultIrq
  simp

@[simp] theorem writeRecord_stays (w : Waiting) (s : State) :
    (writeRecord w s).pending = s.pending ∧ (writeRecord w s).dev = s.dev ∧ (writeRecord w s).jtag = s.jtag := by
  unfold writeRecord
  simp

@[simp] theorem writeMarker_stays (k : Nat) (arg : Nat) (s : State) :
    (writeMarker k arg s).pending = s.pending ∧ (writeMarker k arg s).dev = s.dev ∧ (writeMarker k arg s).jtag = s.jtag := by
  unfold writeMarker
  simp

/-! ### Lockdown -/

@[simp] theorem drainWaiting_stays (s : State) :
    (drainWaiting s).pending = s.pending ∧ (drainWaiting s).dev = s.dev ∧ (drainWaiting s).jtag = s.jtag := by
  unfold drainWaiting
  simp

@[simp] theorem scrubCentral_stays (s : State) :
    (scrubCentral s).pending = s.pending ∧ (scrubCentral s).dev = s.dev ∧ (scrubCentral s).jtag = s.jtag := by
  unfold scrubCentral
  simp

@[simp] theorem holdCores_stays (s : State) :
    (holdCores s).pending = s.pending ∧ (holdCores s).dev = s.dev ∧ (holdCores s).jtag = s.jtag := by
  unfold holdCores
  simp

@[simp] theorem lockdownAs_stays (w : Waiting) (whole : Bool) (s : State) :
    (lockdownAs w whole s).pending = s.pending ∧ (lockdownAs w whole s).dev = s.dev ∧ (lockdownAs w whole s).jtag = s.jtag := by
  unfold lockdownAs
  simp

@[simp] theorem lockdown_stays (ev : Event) (whole : Bool) (s : State) :
    (lockdown ev whole s).pending = s.pending ∧ (lockdown ev whole s).dev = s.dev ∧ (lockdown ev whole s).jtag = s.jtag := by
  unfold lockdown
  simp

@[simp] theorem raiseEv_stays (ev : Event) (s : State) :
    (raiseEv ev s).pending = s.pending ∧ (raiseEv ev s).dev = s.dev ∧ (raiseEv ev s).jtag = s.jtag := by
  unfold raiseEv
  simp

end Sys2Proof.Machine
end

