-- ==== Sys2Proof/Laws/Stays/Hub.lean ====
section
/-!
SUPPORT. What leaves the queue, the part and the test access port alone: the operations of audit, entropy, tickets, instances, the Usher, Dolid and the key store.
-/
namespace Sys2Proof.Machine

open Sys2Proof

/-! ### Audit -/

@[simp] theorem auditTrack_stays (s : State) :
    (auditTrack s).pending = s.pending ∧ (auditTrack s).dev = s.dev ∧ (auditTrack s).jtag = s.jtag := by
  unfold auditTrack
  simp

@[simp] theorem renumber_stays (c : NowCommit) (epoch : W64) (index : Nat) (s : State) :
    (renumber c epoch index s).pending = s.pending ∧ (renumber c epoch index s).dev = s.dev ∧ (renumber c epoch index s).jtag = s.jtag := by
  unfold renumber
  refine ⟨?_, ?_, ?_⟩ <;> ((repeat' split) <;> simp)

@[simp] theorem assignIndex_stays (iid : Nat) (coreNo : Nat) (tid : Nat) (s : State) : (assignIndex iid coreNo tid s).2.pending = s.pending ∧ (assignIndex iid coreNo tid s).2.dev = s.dev ∧ (assignIndex iid coreNo tid s).2.jtag = s.jtag := by
  unfold assignIndex
  dsimp only
  generalize List.reverse _ = l
  simp


@[simp] theorem noteEntry_stays (tid : Nat) (addr : W64) (s : State) :
    (noteEntry tid addr s).pending = s.pending ∧ (noteEntry tid addr s).dev = s.dev ∧ (noteEntry tid addr s).jtag = s.jtag := by
  unfold noteEntry
  simp

@[simp] theorem queueReceipt_stays (iid : Nat) (index : Nat) (leaf : List Byte) (s : State) :
    (queueReceipt iid index leaf s).pending = s.pending ∧
    (queueReceipt iid index leaf s).dev = s.dev ∧
    (queueReceipt iid index leaf s).jtag = s.jtag := by
  unfold queueReceipt
  simp

@[simp] theorem startEpoch_stays (n : W64) (s : State) :
    (startEpoch n s).pending = s.pending ∧ (startEpoch n s).dev = s.dev ∧ (startEpoch n s).jtag = s.jtag := by
  unfold startEpoch
  simp

@[simp] theorem takeBoundary_stays (s : State) :
    (takeBoundary s).pending = s.pending ∧ (takeBoundary s).dev = s.dev ∧ (takeBoundary s).jtag = s.jtag := by
  unfold takeBoundary
  simp

@[simp] theorem tryBoundary_stays (s : State) :
    (tryBoundary s).pending = s.pending ∧ (tryBoundary s).dev = s.dev ∧ (tryBoundary s).jtag = s.jtag := by
  unfold tryBoundary
  simp

@[simp] theorem boundaryNow_stays (s : State) :
    (boundaryNow s).pending = s.pending ∧ (boundaryNow s).dev = s.dev ∧ (boundaryNow s).jtag = s.jtag := by
  unfold boundaryNow
  simp

@[simp] theorem causeSeal_stays (s : State) :
    (causeSeal s).pending = s.pending ∧ (causeSeal s).dev = s.dev ∧ (causeSeal s).jtag = s.jtag := by
  unfold causeSeal
  simp

@[simp] theorem causeEarly_stays (k : Nat) (s : State) :
    (causeEarly k s).pending = s.pending ∧ (causeEarly k s).dev = s.dev ∧ (causeEarly k s).jtag = s.jtag := by
  unfold causeEarly
  simp

@[simp] theorem causeStep_stays (s : State) :
    (causeStep s).pending = s.pending ∧ (causeStep s).dev = s.dev ∧ (causeStep s).jtag = s.jtag := by
  unfold causeStep
  simp

@[simp] theorem causeFinal_stays (s : State) :
    (causeFinal s).pending = s.pending ∧ (causeFinal s).dev = s.dev ∧ (causeFinal s).jtag = s.jtag := by
  unfold causeFinal
  simp

theorem execSealNow_stays (s : State) (nx : State) (h : execSealNow s = .next nx) :
    nx.pending = s.pending ∧ nx.dev = s.dev ∧ nx.jtag = s.jtag := by
  unfold execSealNow at h
  cases h
  refine hostWrite_stays _ _ fun s => ?_
  simp

theorem execReceiptHash_stays (s : State) (nx : State) (h : execReceiptHash s = .next nx) :
    nx.pending = s.pending ∧ nx.dev = s.dev ∧ nx.jtag = s.jtag := by
  unfold execReceiptHash at h
  cases h
  refine ⟨?_, ?_, ?_⟩ <;> ((repeat' split) <;> simp)

@[simp] theorem modSealing_stays (e : W64) (f : Sealing → Sealing) (s : State) :
    (modSealing e f s).pending = s.pending ∧ (modSealing e f s).dev = s.dev ∧ (modSealing e f s).jtag = s.jtag := by
  unfold modSealing
  simp

@[simp] theorem sealStaged_stays (e : W64) (s : State) :
    (sealStaged e s).pending = s.pending ∧ (sealStaged e s).dev = s.dev ∧ (sealStaged e s).jtag = s.jtag := by
  unfold sealStaged
  refine ⟨?_, ?_, ?_⟩ <;> ((repeat' split) <;> simp)

@[simp] theorem submitSeal_stays (e : W64) (kind : Nat) (s : State) :
    (submitSeal e kind s).pending = s.pending ∧ (submitSeal e kind s).dev = s.dev ∧ (submitSeal e kind s).jtag = s.jtag := by
  unfold submitSeal
  simp

@[simp] theorem sealStart_stays (s : State) :
    (sealStart s).pending = s.pending ∧ (sealStart s).dev = s.dev ∧ (sealStart s).jtag = s.jtag := by
  unfold sealStart
  refine ⟨?_, ?_, ?_⟩ <;> ((repeat' split) <;> simp)

theorem execEpochRootsDone_stays (s : State) (nx : State) (h : execEpochRootsDone s = .next nx) :
    nx.pending = s.pending ∧ nx.dev = s.dev ∧ nx.jtag = s.jtag := by
  unfold execEpochRootsDone at h
  cases h
  refine ⟨?_, ?_, ?_⟩ <;> ((repeat' split) <;> simp)

@[simp] theorem sealTicketEnded_stays (tid : Nat) (status : Byte) (s : State) :
    (sealTicketEnded tid status s).pending = s.pending ∧
    (sealTicketEnded tid status s).dev = s.dev ∧
    (sealTicketEnded tid status s).jtag = s.jtag := by
  unfold sealTicketEnded
  simp

@[simp] theorem sealEnd_stays (x : Sealing) (kind : Nat) (s : State) :
    (sealEnd x kind s).pending = s.pending ∧ (sealEnd x kind s).dev = s.dev ∧ (sealEnd x kind s).jtag = s.jtag := by
  unfold sealEnd
  dsimp only
  refine ⟨?_, ?_, ?_⟩ <;> ((repeat' split) <;> simp)

theorem execSealTicketEnd_stays (s : State) (nx : State) (h : execSealTicketEnd s = .next nx) :
    nx.pending = s.pending ∧ nx.dev = s.dev ∧ nx.jtag = s.jtag := by
  unfold execSealTicketEnd at h
  cases h
  refine ⟨?_, ?_, ?_⟩ <;> ((repeat' split) <;> simp)

theorem execSealCosignRetry_stays (s : State) (nx : State) (h : execSealCosignRetry s = .next nx) :
    nx.pending = s.pending ∧ nx.dev = s.dev ∧ nx.jtag = s.jtag := by
  unfold execSealCosignRetry at h
  cases h
  refine ⟨?_, ?_, ?_⟩ <;> ((repeat' split) <;> simp)

@[simp] theorem resealRecord_stays (e : W64) (s : State) :
    (resealRecord e s).pending = s.pending ∧ (resealRecord e s).dev = s.dev ∧ (resealRecord e s).jtag = s.jtag := by
  unfold resealRecord
  refine ⟨?_, ?_, ?_⟩ <;> ((repeat' split) <;> simp)

theorem execSealRecordWrite_stays (s : State) (nx : State) (h : execSealRecordWrite s = .next nx) :
    nx.pending = s.pending ∧ nx.dev = s.dev ∧ nx.jtag = s.jtag := by
  unfold execSealRecordWrite at h
  cases h
  refine ⟨?_, ?_, ?_⟩ <;> ((repeat' split) <;> simp)

theorem execAudRingTailWrite_stays (data : W32) (s : State) (nx : State) (h : execAudRingTailWrite data s = .next nx) :
    nx.pending = s.pending ∧ nx.dev = s.dev ∧ nx.jtag = s.jtag := by
  unfold execAudRingTailWrite at h
  cases h
  refine hostWrite_stays _ _ fun s => ?_
  simp

/-! ### Entropy -/

@[simp] theorem drbgCancel_stays (who : DrbgUser) (s : State) :
    (drbgCancel who s).pending = s.pending ∧ (drbgCancel who s).dev = s.dev ∧ (drbgCancel who s).jtag = s.jtag := by
  unfold drbgCancel
  simp

@[simp] theorem drbgDeliver_stays (who : DrbgUser) (out : Option (List Byte)) (s : State) :
    (drbgDeliver who out s).pending = s.pending ∧ (drbgDeliver who out s).dev = s.dev ∧ (drbgDeliver who out s).jtag = s.jtag := by
  unfold drbgDeliver
  refine ⟨?_, ?_, ?_⟩ <;> ((repeat' split) <;> simp)

@[simp] theorem drbgNotReady_stays (who : DrbgUser) (s : State) :
    (drbgNotReady who s).pending = s.pending ∧ (drbgNotReady who s).dev = s.dev ∧ (drbgNotReady who s).jtag = s.jtag := by
  unfold drbgNotReady
  simp

@[simp] theorem drbgStarved_stays (s : State) :
    (drbgStarved s).pending = s.pending ∧ (drbgStarved s).dev = s.dev ∧ (drbgStarved s).jtag = s.jtag := by
  unfold drbgStarved
  simp

@[simp] theorem drbgStart_stays (s : State) :
    (drbgStart s).pending = s.pending ∧ (drbgStart s).dev = s.dev ∧ (drbgStart s).jtag = s.jtag := by
  unfold drbgStart
  simp

theorem execNoiseWindowEnd_stays (src : Nat) (bits : BitVec 1024) (s : State) (nx : State) (h : execNoiseWindowEnd src bits s = .next nx) :
    nx.pending = s.pending ∧ nx.dev = s.dev ∧ nx.jtag = s.jtag := by
  unfold execNoiseWindowEnd at h
  cases h
  simp

theorem execSrcEnWrite_stays (data : W32) (s : State) (nx : State) (h : execSrcEnWrite data s = .next nx) :
    nx.pending = s.pending ∧ nx.dev = s.dev ∧ nx.jtag = s.jtag := by
  unfold execSrcEnWrite at h
  cases h
  refine hostWrite_stays _ _ fun s => ?_
  simp

theorem execRngStatRead_stays (src : Nat) (s : State) (nx : State) (h : execRngStatRead src s = .next nx) :
    nx.pending = s.pending ∧ nx.dev = s.dev ∧ nx.jtag = s.jtag := by
  unfold execRngStatRead at h
  cases h
  simp

theorem execRawCapture_stays (data : W32) (s : State) (nx : State) (h : execRawCapture data s = .next nx) :
    nx.pending = s.pending ∧ nx.dev = s.dev ∧ nx.jtag = s.jtag := by
  unfold execRawCapture at h
  cases h
  refine hostWrite_stays _ _ fun s => ?_
  simp

theorem execRawCaptureDone_stays (bits : BitVec 16384) (s : State) (nx : State) (h : execRawCaptureDone bits s = .next nx) :
    nx.pending = s.pending ∧ nx.dev = s.dev ∧ nx.jtag = s.jtag := by
  unfold execRawCaptureDone at h
  cases h
  simp

theorem execDrbgKatDone_stays (passed : Bool) (s : State) (nx : State) (h : execDrbgKatDone passed s = .next nx) :
    nx.pending = s.pending ∧ nx.dev = s.dev ∧ nx.jtag = s.jtag := by
  unfold execDrbgKatDone at h
  cases h
  simp

@[simp] theorem poolDiscard_stays (bad : BitVec 16) (n : Nat) (s : State) :
    (poolDiscard bad n s).pending = s.pending ∧ (poolDiscard bad n s).dev = s.dev ∧ (poolDiscard bad n s).jtag = s.jtag := by
  unfold poolDiscard
  simp

theorem execDrbgInstantiateDone_stays (bad : BitVec 16) (s : State) (nx : State) (h : execDrbgInstantiateDone bad s = .next nx) :
    nx.pending = s.pending ∧ nx.dev = s.dev ∧ nx.jtag = s.jtag := by
  unfold execDrbgInstantiateDone at h
  cases h
  simp

theorem execInstantiate_stays (s : State) (nx : State) (h : execInstantiate s = .next nx) :
    nx.pending = s.pending ∧ nx.dev = s.dev ∧ nx.jtag = s.jtag := by
  unfold execInstantiate at h
  cases h
  refine hostWrite_stays _ _ fun s => ?_
  simp

@[simp] theorem reseedTrigger_stays (blocking : Bool) (s : State) :
    (reseedTrigger blocking s).pending = s.pending ∧ (reseedTrigger blocking s).dev = s.dev ∧ (reseedTrigger blocking s).jtag = s.jtag := by
  unfold reseedTrigger
  simp

theorem execReseed_stays (s : State) (nx : State) (h : execReseed s = .next nx) :
    nx.pending = s.pending ∧ nx.dev = s.dev ∧ nx.jtag = s.jtag := by
  unfold execReseed at h
  cases h
  refine hostWrite_stays _ _ fun s => ?_
  simp

theorem execReseedBlocking_stays (s : State) (nx : State) (h : execReseedBlocking s = .next nx) :
    nx.pending = s.pending ∧ nx.dev = s.dev ∧ nx.jtag = s.jtag := by
  unfold execReseedBlocking at h
  cases h
  refine hostWrite_stays _ _ fun s => ?_
  simp

theorem execDrbgReseedDone_stays (bad : BitVec 16) (s : State) (nx : State) (h : execDrbgReseedDone bad s = .next nx) :
    nx.pending = s.pending ∧ nx.dev = s.dev ∧ nx.jtag = s.jtag := by
  unfold execDrbgReseedDone at h
  cases h
  simp

theorem execDrbgRequest_stays (who : DrbgUser) (s : State) (nx : State) (h : execDrbgRequest who s = .next nx) :
    nx.pending = s.pending ∧ nx.dev = s.dev ∧ nx.jtag = s.jtag := by
  unfold execDrbgRequest at h
  cases h
  refine ⟨?_, ?_, ?_⟩ <;> ((repeat' split) <;> simp)

theorem execDrbgRequestServed_stays (intact : Bool) (s : State) (nx : State) (h : execDrbgRequestServed intact s = .next nx) :
    nx.pending = s.pending ∧ nx.dev = s.dev ∧ nx.jtag = s.jtag := by
  unfold execDrbgRequestServed at h
  cases h
  dsimp only
  refine ⟨?_, ?_, ?_⟩ <;> ((repeat' split) <;> simp)

theorem execDrbgHoldExpiry_stays (who : DrbgUser) (s : State) (nx : State) (h : execDrbgHoldExpiry who s = .next nx) :
    nx.pending = s.pending ∧ nx.dev = s.dev ∧ nx.jtag = s.jtag := by
  unfold execDrbgHoldExpiry at h
  cases h
  refine ⟨?_, ?_, ?_⟩ <;> ((repeat' split) <;> simp)

/-! ### Tickets -/

@[simp] theorem writeEntry_stays (t : Ticket) (f : Final) (interim : Bool) (s : State) :
    (writeEntry t f interim s).pending = s.pending ∧ (writeEntry t f interim s).dev = s.dev ∧ (writeEntry t f interim s).jtag = s.jtag := by
  unfold writeEntry
  simp

@[simp] theorem countRefusal_stays (i : Nat) (status : Byte) (s : State) :
    (countRefusal i status s).pending = s.pending ∧ (countRefusal i status s).dev = s.dev ∧ (countRefusal i status s).jtag = s.jtag := by
  unfold countRefusal
  simp

@[simp] theorem checkDrained_stays (i : Nat) (s : State) :
    (checkDrained i s).pending = s.pending ∧ (checkDrained i s).dev = s.dev ∧ (checkDrained i s).jtag = s.jtag := by
  unfold checkDrained
  simp

@[simp] theorem checkFinal_stays (s : State) :
    (checkFinal s).pending = s.pending ∧ (checkFinal s).dev = s.dev ∧ (checkFinal s).jtag = s.jtag := by
  unfold checkFinal
  simp

@[simp] theorem setMeWin_stays (c : Nat) (k : Nat) (w : MeWin) (s : State) :
    (setMeWin c k w s).pending = s.pending ∧ (setMeWin c k w s).dev = s.dev ∧ (setMeWin c k w s).jtag = s.jtag := by
  unfold setMeWin
  simp

@[simp] theorem setMeEng_stays (r : Nat) (e : Nat) (g : MeEngine) (s : State) :
    (setMeEng r e g s).pending = s.pending ∧ (setMeEng r e g s).dev = s.dev ∧ (setMeEng r e g s).jtag = s.jtag := by
  unfold setMeEng
  simp

@[simp] theorem endClaim_stays (c : Nat) (k : Nat) (s : State) :
    (endClaim c k s).pending = s.pending ∧ (endClaim c k s).dev = s.dev ∧ (endClaim c k s).jtag = s.jtag := by
  unfold endClaim
  simp

@[simp] theorem clearCore_stays (c : Nat) (s : State) :
    (clearCore c s).pending = s.pending ∧ (clearCore c s).dev = s.dev ∧ (clearCore c s).jtag = s.jtag := by
  unfold clearCore
  simp

@[simp] theorem dropHeld_stays (i : Nat) (c : Nat) (s : State) :
    (dropHeld i c s).pending = s.pending ∧ (dropHeld i c s).dev = s.dev ∧ (dropHeld i c s).jtag = s.jtag := by
  unfold dropHeld
  simp

@[simp] theorem releaseUses_stays (t : Ticket) (s : State) :
    (releaseUses t s).pending = s.pending ∧ (releaseUses t s).dev = s.dev ∧ (releaseUses t s).jtag = s.jtag := by
  unfold releaseUses
  simp

@[simp] theorem forgetChanges_stays (t : Ticket) (s : State) :
    (forgetChanges t s).pending = s.pending ∧ (forgetChanges t s).dev = s.dev ∧ (forgetChanges t s).jtag = s.jtag := by
  unfold forgetChanges
  simp

@[simp] theorem clearPassed_stays (s : State) :
    (clearPassed s).pending = s.pending ∧ (clearPassed s).dev = s.dev ∧ (clearPassed s).jtag = s.jtag := by
  unfold clearPassed
  simp

@[simp] theorem dropKeyChanges_stays (tid : Nat) (s : State) :
    (dropKeyChanges tid s).pending = s.pending ∧ (dropKeyChanges tid s).dev = s.dev ∧ (dropKeyChanges tid s).jtag = s.jtag := by
  unfold dropKeyChanges
  simp

@[simp] theorem endHandshake_stays (n : Nat) (f : Final) (s : State) :
    (endHandshake n f s).pending = s.pending ∧ (endHandshake n f s).dev = s.dev ∧ (endHandshake n f s).jtag = s.jtag := by
  unfold endHandshake
  refine ⟨?_, ?_, ?_⟩ <;> ((repeat' split) <;> simp)

@[simp] theorem abortAck_stays (sid : W32) (p : Nat) (txid : W64) (result : Byte) (s : State) :
    (abortAck sid p txid result s).pending = s.pending ∧
    (abortAck sid p txid result s).dev = s.dev ∧
    (abortAck sid p txid result s).jtag = s.jtag := by
  unfold abortAck
  simp

@[simp] theorem endRequest_stays (t : Ticket) (txid : W64) (f : Final) (s : State) :
    (endRequest t txid f s).pending = s.pending ∧ (endRequest t txid f s).dev = s.dev ∧ (endRequest t txid f s).jtag = s.jtag := by
  unfold endRequest
  refine ⟨?_, ?_, ?_⟩ <;> ((repeat' split) <;> simp)

@[simp] theorem finish_stays (tid : Nat) (f : Final) (s : State) :
    (finish tid f s).pending = s.pending ∧ (finish tid f s).dev = s.dev ∧ (finish tid f s).jtag = s.jtag := by
  unfold finish
  refine ⟨?_, ?_, ?_⟩ <;> ((repeat' split) <;> simp)

@[simp] theorem finishQueued_stays (tid : Nat) (f : Final) (s : State) :
    (finishQueued tid f s).pending = s.pending ∧ (finishQueued tid f s).dev = s.dev ∧ (finishQueued tid f s).jtag = s.jtag := by
  unfold finishQueued
  refine ⟨?_, ?_, ?_⟩ <;> ((repeat' split) <;> simp)

@[simp] theorem deferEntry_stays (t : Ticket) (hint : Nat) (s : State) :
    (deferEntry t hint s).pending = s.pending ∧ (deferEntry t hint s).dev = s.dev ∧ (deferEntry t hint s).jtag = s.jtag := by
  unfold deferEntry
  refine ⟨?_, ?_, ?_⟩ <;> ((repeat' split) <;> simp)

@[simp] theorem deferIfLong_stays (tid : Nat) (s : State) :
    (deferIfLong tid s).pending = s.pending ∧ (deferIfLong tid s).dev = s.dev ∧ (deferIfLong tid s).jtag = s.jtag := by
  unfold deferIfLong
  refine ⟨?_, ?_, ?_⟩ <;> ((repeat' split) <;> simp)

@[simp] theorem commitFinal_stays (tid : Nat) (status : Byte) (outLen : W32) (opened : Bool) (s : State) :
    (commitFinal tid status outLen opened s).pending = s.pending ∧
    (commitFinal tid status outLen opened s).dev = s.dev ∧
    (commitFinal tid status outLen opened s).jtag = s.jtag := by
  unfold commitFinal
  refine ⟨?_, ?_, ?_⟩ <;> ((repeat' split) <;> simp)

@[simp] theorem setHashTurn_stays (r : Nat) (e : Nat) (t : Turn) (s : State) :
    (setHashTurn r e t s).pending = s.pending ∧ (setHashTurn r e t s).dev = s.dev ∧ (setHashTurn r e t s).jtag = s.jtag := by
  unfold setHashTurn
  simp

@[simp] theorem stopEngines_stays (c : Nat) (t : Ticket) (s : State) :
    (stopEngines c t s).pending = s.pending ∧ (stopEngines c t s).dev = s.dev ∧ (stopEngines c t s).jtag = s.jtag := by
  unfold stopEngines
  simp

@[simp] theorem stopTicket_stays (tid : Nat) (status : Byte) (s : State) :
    (stopTicket tid status s).pending = s.pending ∧ (stopTicket tid status s).dev = s.dev ∧ (stopTicket tid status s).jtag = s.jtag := by
  unfold stopTicket
  refine ⟨?_, ?_, ?_⟩ <;> ((repeat' split) <;> simp)

theorem execScrubComplete_stays (tid : Nat) (s : State) (nx : State) (h : execScrubComplete tid s = .next nx) :
    nx.pending = s.pending ∧ nx.dev = s.dev ∧ nx.jtag = s.jtag := by
  unfold execScrubComplete at h
  cases h
  refine ⟨?_, ?_, ?_⟩ <;> ((repeat' split) <;> simp)

/-! ### KeyEntries -/

@[simp] theorem setKey_stays (h : W32) (e : KeyEntry) (s : State) :
    (setKey h e s).pending = s.pending ∧ (setKey h e s).dev = s.dev ∧ (setKey h e s).jtag = s.jtag := by
  unfold setKey
  simp

@[simp] theorem setKsInst_stays (i : Nat) (x : KsInst) (s : State) :
    (setKsInst i x s).pending = s.pending ∧ (setKsInst i x s).dev = s.dev ∧ (setKsInst i x s).jtag = s.jtag := by
  unfold setKsInst
  simp

@[simp] theorem drainCopies_stays (p : W32 → Bool) (s : State) :
    (drainCopies p s).pending = s.pending ∧ (drainCopies p s).dev = s.dev ∧ (drainCopies p s).jtag = s.jtag := by
  unfold drainCopies
  simp

@[simp] theorem destroyKey_stays (h : W32) (s : State) :
    (destroyKey h s).pending = s.pending ∧ (destroyKey h s).dev = s.dev ∧ (destroyKey h s).jtag = s.jtag := by
  unfold destroyKey
  simp

@[simp] theorem endCeremony_stays (r : Byte) (s : State) :
    (endCeremony r s).pending = s.pending ∧ (endCeremony r s).dev = s.dev ∧ (endCeremony r s).jtag = s.jtag := by
  unfold endCeremony
  simp

@[simp] theorem destroyKeysOf_stays (i : Nat) (s : State) :
    (destroyKeysOf i s).pending = s.pending ∧ (destroyKeysOf i s).dev = s.dev ∧ (destroyKeysOf i s).jtag = s.jtag := by
  unfold destroyKeysOf
  simp

/-! ### Units -/

@[simp] theorem inject_stays (id : Nat) (s : State) :
    (inject id s).pending = s.pending ∧ (inject id s).dev = s.dev ∧ (inject id s).jtag = s.jtag := by
  unfold inject
  refine ⟨?_, ?_, ?_⟩ <;> ((repeat' split) <;> simp)

@[simp] theorem forward_stays (id : Nat) (s : State) :
    (forward id s).pending = s.pending ∧ (forward id s).dev = s.dev ∧ (forward id s).jtag = s.jtag := by
  unfold forward
  refine ⟨?_, ?_, ?_⟩ <;> ((repeat' split) <;> simp)

@[simp] theorem beginXfer_stays (a : Nat) (b : Nat) (bytes : Nat) (owner : Option Nat) (data : List Byte) (s : State) :
    (beginXfer a b bytes owner data s).pending = s.pending ∧
    (beginXfer a b bytes owner data s).dev = s.dev ∧
    (beginXfer a b bytes owner data s).jtag = s.jtag := by
  unfold beginXfer
  simp

@[simp] theorem xferLoaded_stays (ids : List Nat) (data : List Byte) (s : State) :
    (xferLoaded ids data s).pending = s.pending ∧ (xferLoaded ids data s).dev = s.dev ∧ (xferLoaded ids data s).jtag = s.jtag := by
  unfold xferLoaded
  simp

@[simp] theorem markRetired_stays (u : Half) (byClock : Bool) (s : State) :
    (markRetired u byClock s).pending = s.pending ∧ (markRetired u byClock s).dev = s.dev ∧ (markRetired u byClock s).jtag = s.jtag := by
  unfold markRetired
  simp

@[simp] theorem withdraw_stays (t : Ticket) (s : State) :
    (withdraw t s).pending = s.pending ∧ (withdraw t s).dev = s.dev ∧ (withdraw t s).jtag = s.jtag := by
  unfold withdraw
  refine ⟨?_, ?_, ?_⟩ <;> ((repeat' split) <;> simp)

@[simp] theorem endRetired_stays (c : Nat) (s : State) :
    (endRetired c s).pending = s.pending ∧ (endRetired c s).dev = s.dev ∧ (endRetired c s).jtag = s.jtag := by
  unfold endRetired
  refine ⟨?_, ?_, ?_⟩ <;> ((repeat' split) <;> simp)

@[simp] theorem coreToReset_stays (c : Nat) (s : State) :
    (coreToReset c s).pending = s.pending ∧ (coreToReset c s).dev = s.dev ∧ (coreToReset c s).jtag = s.jtag := by
  unfold coreToReset
  simp

@[simp] theorem noteNoRing_stays (s : State) :
    (noteNoRing s).pending = s.pending ∧ (noteNoRing s).dev = s.dev ∧ (noteNoRing s).jtag = s.jtag := by
  unfold noteNoRing
  simp

@[simp] theorem retireCore_stays (c : Nat) (s : State) :
    (retireCore c s).pending = s.pending ∧ (retireCore c s).dev = s.dev ∧ (retireCore c s).jtag = s.jtag := by
  unfold retireCore
  simp

@[simp] theorem ringCleared_stays (r : Nat) (s : State) :
    (ringCleared r s).pending = s.pending ∧ (ringCleared r s).dev = s.dev ∧ (ringCleared r s).jtag = s.jtag := by
  unfold ringCleared
  simp

@[simp] theorem ringTicketsEnd_stays (r : Nat) (s : State) :
    (ringTicketsEnd r s).pending = s.pending ∧ (ringTicketsEnd r s).dev = s.dev ∧ (ringTicketsEnd r s).jtag = s.jtag := by
  unfold ringTicketsEnd
  simp

@[simp] theorem ringDown_stays (r : Nat) (s : State) :
    (ringDown r s).pending = s.pending ∧ (ringDown r s).dev = s.dev ∧ (ringDown r s).jtag = s.jtag := by
  unfold ringDown
  simp

@[simp] theorem retireRing_stays (r : Nat) (byClock : Bool) (s : State) :
    (retireRing r byClock s).pending = s.pending ∧ (retireRing r byClock s).dev = s.dev ∧ (retireRing r byClock s).jtag = s.jtag := by
  unfold retireRing
  simp

@[simp] theorem reportBehind_stays (w : Waiting) (ev : Event) (s : State) :
    (reportBehind w ev s).pending = s.pending ∧ (reportBehind w ev s).dev = s.dev ∧ (reportBehind w ev s).jtag = s.jtag := by
  unfold reportBehind
  simp

@[simp] theorem ringGoesWith_stays (w : Waiting) (r : Nat) (u : Half) (s : State) :
    (ringGoesWith w r u s).pending = s.pending ∧ (ringGoesWith w r u s).dev = s.dev ∧ (ringGoesWith w r u s).jtag = s.jtag := by
  unfold ringGoesWith
  simp

@[simp] theorem claimLost_stays (s : State) (q : Nat × Nat) :
    (claimLost s q).pending = s.pending ∧ (claimLost s q).dev = s.dev ∧ (claimLost s q).jtag = s.jtag := by
  unfold claimLost
  dsimp only
  refine ⟨?_, ?_, ?_⟩ <;> ((repeat' split) <;> simp)

@[simp] theorem engineGone_stays (w : Waiting) (r : Nat) (e : Nat) (queue : List (Nat × Nat)) (s : State) :
    (engineGone w r e queue s).pending = s.pending ∧ (engineGone w r e queue s).dev = s.dev ∧ (engineGone w r e queue s).jtag = s.jtag := by
  unfold engineGone
  simp

@[simp] theorem retireMaelhoavo_stays (w : Waiting) (r : Nat) (e : Nat) (s : State) :
    (retireMaelhoavo w r e s).pending = s.pending ∧ (retireMaelhoavo w r e s).dev = s.dev ∧ (retireMaelhoavo w r e s).jtag = s.jtag := by
  unfold retireMaelhoavo
  simp

@[simp] theorem retireHop_stays (w : Waiting) (h : Nat) (s : State) :
    (retireHop w h s).pending = s.pending ∧ (retireHop w h s).dev = s.dev ∧ (retireHop w h s).jtag = s.jtag := by
  unfold retireHop
  simp

@[simp] theorem retireUnit_stays (w : Waiting) (s : State) :
    (retireUnit w s).pending = s.pending ∧ (retireUnit w s).dev = s.dev ∧ (retireUnit w s).jtag = s.jtag := by
  unfold retireUnit
  dsimp only
  refine ⟨?_, ?_, ?_⟩ <;> ((repeat' split) <;> simp)

/-! ### Instances -/

@[simp] theorem setErr_stays (i : Nat) (e : Byte) (s : State) :
    (setErr i e s).pending = s.pending ∧ (setErr i e s).dev = s.dev ∧ (setErr i e s).jtag = s.jtag := by
  unfold setErr
  simp

theorem onInstance_stays (i : Nat) (off : Nat) (v : W64) (f : State → State) (s : State)
    (h : ∀ s, (f s).pending = s.pending ∧ (f s).dev = s.dev ∧ (f s).jtag = s.jtag) :
    (onInstance i off v f s).pending = s.pending ∧ (onInstance i off v f s).dev = s.dev ∧ (onInstance i off v f s).jtag = s.jtag := by
  unfold onInstance
  refine hostWrite_stays _ _ fun s => ?_
  split
  · exact h s
  · simp

theorem instCommand_stays (i : Nat) (cmd : Nat) (ok : Inst → Bool) (f : State → State) (s : State) (nx : State)
    (hf : ∀ s, (f s).pending = s.pending ∧ (f s).dev = s.dev ∧ (f s).jtag = s.jtag) (h : instCommand i cmd ok f s = .next nx) :
    nx.pending = s.pending ∧ nx.dev = s.dev ∧ nx.jtag = s.jtag := by
  unfold instCommand at h
  cases h
  refine onInstance_stays _ _ _ _ _ fun s => ?_
  split
  · simp [hf]
  · simp


theorem execInstanceConfigWrite_stays (i : Nat) (off : Nat) (data : W32) (s : State) (nx : State) (h : execInstanceConfigWrite i off data s = .next nx) :
    nx.pending = s.pending ∧ nx.dev = s.dev ∧ nx.jtag = s.jtag := by
  unfold execInstanceConfigWrite at h
  cases h
  refine onInstance_stays _ _ _ _ _ fun s => ?_
  simp

theorem execItShareWrite_stays (i : Nat) (data : W32) (s : State) (nx : State) (h : execItShareWrite i data s = .next nx) :
    nx.pending = s.pending ∧ nx.dev = s.dev ∧ nx.jtag = s.jtag := by
  unfold execItShareWrite at h
  cases h
  refine onInstance_stays _ _ _ _ _ fun s => ?_
  simp

theorem execItCeilingWrite_stays (i : Nat) (data : W32) (s : State) (nx : State) (h : execItCeilingWrite i data s = .next nx) :
    nx.pending = s.pending ∧ nx.dev = s.dev ∧ nx.jtag = s.jtag := by
  unfold execItCeilingWrite at h
  cases h
  refine onInstance_stays _ _ _ _ _ fun s => ?_
  simp

theorem execActivate_stays (i : Nat) (s : State) (nx : State) (h : execActivate i s = .next nx) :
    nx.pending = s.pending ∧ nx.dev = s.dev ∧ nx.jtag = s.jtag := by
  unfold execActivate at h
  cases h
  refine onInstance_stays _ _ _ _ _ fun s => ?_
  simp

theorem execStop_stays (i : Nat) (s : State) (nx : State) (h : execStop i s = .next nx) :
    nx.pending = s.pending ∧ nx.dev = s.dev ∧ nx.jtag = s.jtag := by
  unfold execStop at h
  refine instCommand_stays _ _ _ _ _ _ (fun s => ?_) h
  simp

theorem execCancel_stays (i : Nat) (s : State) (nx : State) (h : execCancel i s = .next nx) :
    nx.pending = s.pending ∧ nx.dev = s.dev ∧ nx.jtag = s.jtag := by
  unfold execCancel at h
  refine instCommand_stays _ _ _ _ _ _ (fun s => ?_) h
  simp

theorem execResume_stays (i : Nat) (s : State) (nx : State) (h : execResume i s = .next nx) :
    nx.pending = s.pending ∧ nx.dev = s.dev ∧ nx.jtag = s.jtag := by
  unfold execResume at h
  refine instCommand_stays _ _ _ _ _ _ (fun s => ?_) h
  simp

theorem execInstReset_stays (i : Nat) (s : State) (nx : State) (h : execInstReset i s = .next nx) :
    nx.pending = s.pending ∧ nx.dev = s.dev ∧ nx.jtag = s.jtag := by
  unfold execInstReset at h
  refine instCommand_stays _ _ _ _ _ _ (fun s => ?_) h
  simp

theorem execResetComplete_stays (i : Nat) (s : State) (nx : State) (h : execResetComplete i s = .next nx) :
    nx.pending = s.pending ∧ nx.dev = s.dev ∧ nx.jtag = s.jtag := by
  unfold execResetComplete at h
  cases h
  refine unlessLocked_stays _ _ fun s => ?_
  simp

theorem execRemove_stays (i : Nat) (s : State) (nx : State) (h : execRemove i s = .next nx) :
    nx.pending = s.pending ∧ nx.dev = s.dev ∧ nx.jtag = s.jtag := by
  unfold execRemove at h
  refine instCommand_stays _ _ _ _ _ _ (fun s => ?_) h
  simp

theorem execRemoveComplete_stays (i : Nat) (s : State) (nx : State) (h : execRemoveComplete i s = .next nx) :
    nx.pending = s.pending ∧ nx.dev = s.dev ∧ nx.jtag = s.jtag := by
  unfold execRemoveComplete at h
  cases h
  refine unlessLocked_stays _ _ fun s => ?_
  simp

theorem execSend_stays (i : Nat) (s : State) (nx : State) (h : execSend i s = .next nx) :
    nx.pending = s.pending ∧ nx.dev = s.dev ∧ nx.jtag = s.jtag := by
  unfold execSend at h
  cases h
  refine onInstance_stays _ _ _ _ _ fun s => ?_
  simp

theorem execAck_stays (i : Nat) (s : State) (nx : State) (h : execAck i s = .next nx) :
    nx.pending = s.pending ∧ nx.dev = s.dev ∧ nx.jtag = s.jtag := by
  unfold execAck at h
  cases h
  refine onInstance_stays _ _ _ _ _ fun s => ?_
  simp

theorem execMbSend_stays (i : Nat) (s : State) (nx : State) (h : execMbSend i s = .next nx) :
    nx.pending = s.pending ∧ nx.dev = s.dev ∧ nx.jtag = s.jtag := by
  unfold execMbSend at h
  refine instCommand_stays _ _ _ _ _ _ (fun s => ?_) h
  simp

theorem execMbAck_stays (i : Nat) (s : State) (nx : State) (h : execMbAck i s = .next nx) :
    nx.pending = s.pending ∧ nx.dev = s.dev ∧ nx.jtag = s.jtag := by
  unfold execMbAck at h
  refine instCommand_stays _ _ _ _ _ _ (fun s => ?_) h
  simp

@[simp] theorem badDoorbell_stays (i : Nat) (off : Nat) (data : W32) (s : State) :
    (badDoorbell i off data s).pending = s.pending ∧ (badDoorbell i off data s).dev = s.dev ∧ (badDoorbell i off data s).jtag = s.jtag := by
  unfold badDoorbell
  simp

theorem execSqDoorbell_stays (i : Nat) (data : W32) (s : State) (nx : State) (h : execSqDoorbell i data s = .next nx) :
    nx.pending = s.pending ∧ nx.dev = s.dev ∧ nx.jtag = s.jtag := by
  unfold execSqDoorbell at h
  cases h
  refine onInstance_stays _ _ _ _ _ fun s => ?_
  simp

theorem execCqDoorbell_stays (i : Nat) (data : W32) (s : State) (nx : State) (h : execCqDoorbell i data s = .next nx) :
    nx.pending = s.pending ∧ nx.dev = s.dev ∧ nx.jtag = s.jtag := by
  unfold execCqDoorbell at h
  cases h
  refine onInstance_stays _ _ _ _ _ fun s => ?_
  simp

theorem execTicketFetch_stays (i : Nat) (s : State) (nx : State) (h : execTicketFetch i s = .next nx) :
    nx.pending = s.pending ∧ nx.dev = s.dev ∧ nx.jtag = s.jtag := by
  unfold execTicketFetch at h
  cases h
  refine unlessLocked_stays _ _ fun s => ?_
  simp

@[simp] theorem noteTimeouts_stays (failed : List HostEnd) (s : State) :
    (noteTimeouts failed s).pending = s.pending ∧ (noteTimeouts failed s).dev = s.dev ∧ (noteTimeouts failed s).jtag = s.jtag := by
  unfold noteTimeouts
  simp

@[simp] theorem ticketReadFailed_stays (i : Nat) (e : HostEnd) (s : State) :
    (ticketReadFailed i e s).pending = s.pending ∧ (ticketReadFailed i e s).dev = s.dev ∧ (ticketReadFailed i e s).jtag = s.jtag := by
  unfold ticketReadFailed
  dsimp only
  refine ⟨?_, ?_, ?_⟩ <;> ((repeat' split) <;> simp)

@[simp] theorem enterTickets_stays (i : Nat) (n : Nat) (l : List (BitVec 512)) (s : State) :
    (enterTickets i n l s).pending = s.pending ∧ (enterTickets i n l s).dev = s.dev ∧ (enterTickets i n l s).jtag = s.jtag := by
  induction l generalizing n s with
  | nil => exact ⟨rfl, rfl, rfl⟩
  | cons b r ih => simp [enterTickets, ih]


@[simp] theorem abortArrived_stays (i : Nat) (n : Nat) (s : State) :
    (abortArrived i n s).pending = s.pending ∧ (abortArrived i n s).dev = s.dev ∧ (abortArrived i n s).jtag = s.jtag := by
  unfold abortArrived
  simp

@[simp] theorem ticketsArrive_stays (i : Nat) (l : List (BitVec 512)) (s : State) :
    (ticketsArrive i l s).pending = s.pending ∧ (ticketsArrive i l s).dev = s.dev ∧ (ticketsArrive i l s).jtag = s.jtag := by
  unfold ticketsArrive
  dsimp only
  refine ⟨?_, ?_, ?_⟩ <;> ((repeat' split) <;> simp)

theorem execTicketReadCompletion_stays (i : Nat) (failed : List HostEnd) (tickets : List (BitVec 512)) (s : State) (nx : State) (h : execTicketReadCompletion i failed tickets s = .next nx) :
    nx.pending = s.pending ∧ nx.dev = s.dev ∧ nx.jtag = s.jtag := by
  unfold execTicketReadCompletion at h
  cases h
  refine unlessLocked_stays _ _ fun s => ?_
  dsimp only
  refine ⟨?_, ?_, ?_⟩ <;> ((repeat' split) <;> simp)

@[simp] theorem enterOne_stays (i : Nat) (origin : Origin) (bytes : BitVec 512) (input : List Byte) (phase : Phase) (s : State) :
    (enterOne i origin bytes input phase s).pending = s.pending ∧
    (enterOne i origin bytes input phase s).dev = s.dev ∧
    (enterOne i origin bytes input phase s).jtag = s.jtag := by
  unfold enterOne
  simp

@[simp] theorem inlineGo_stays (i : Nat) (s : State) :
    (inlineGo i s).pending = s.pending ∧ (inlineGo i s).dev = s.dev ∧ (inlineGo i s).jtag = s.jtag := by
  unfold inlineGo
  simp

@[simp] theorem pageInlineWrite_stays (i : Nat) (off : Nat) (data : List Byte) (s : State) :
    (pageInlineWrite i off data s).pending = s.pending ∧
    (pageInlineWrite i off data s).dev = s.dev ∧
    (pageInlineWrite i off data s).jtag = s.jtag := by
  unfold pageInlineWrite
  simp

theorem execInlineGo_stays (i : Nat) (s : State) (nx : State) (h : execInlineGo i s = .next nx) :
    nx.pending = s.pending ∧ nx.dev = s.dev ∧ nx.jtag = s.jtag := by
  unfold execInlineGo at h
  cases h
  refine onInstance_stays _ _ _ _ _ fun s => ?_
  simp

theorem execInlineCopyDone_stays (i : Nat) (s : State) (nx : State) (h : execInlineCopyDone i s = .next nx) :
    nx.pending = s.pending ∧ nx.dev = s.dev ∧ nx.jtag = s.jtag := by
  unfold execInlineCopyDone at h
  cases h
  refine unlessLocked_stays _ _ fun s => ?_
  simp

@[simp] theorem abortTicket_stays (s : State) (tid : Nat) :
    (abortTicket s tid).pending = s.pending ∧ (abortTicket s tid).dev = s.dev ∧ (abortTicket s tid).jtag = s.jtag := by
  unfold abortTicket
  refine ⟨?_, ?_, ?_⟩ <;> ((repeat' split) <;> simp)

theorem execAbortStart_stays (i : Nat) (tagHi : W32) (s : State) (nx : State) (h : execAbortStart i tagHi s = .next nx) :
    nx.pending = s.pending ∧ nx.dev = s.dev ∧ nx.jtag = s.jtag := by
  unfold execAbortStart at h
  cases h
  refine onInstance_stays _ _ _ _ _ fun s => ?_
  simp

theorem execAbortDone_stays (i : Nat) (s : State) (nx : State) (h : execAbortDone i s = .next nx) :
    nx.pending = s.pending ∧ nx.dev = s.dev ∧ nx.jtag = s.jtag := by
  unfold execAbortDone at h
  cases h
  refine unlessLocked_stays _ _ fun s => ?_
  simp

@[simp] theorem msixFlush_stays (s : State) :
    (msixFlush s).pending = s.pending ∧ (msixFlush s).dev = s.dev ∧ (msixFlush s).jtag = s.jtag := by
  unfold msixFlush
  simp

theorem execD3hotEnter_stays (s : State) (nx : State) (h : execD3hotEnter s = .next nx) :
    nx.pending = s.pending ∧ nx.dev = s.dev ∧ nx.jtag = s.jtag := by
  unfold execD3hotEnter at h
  cases h
  simp

@[simp] theorem readsIssued_stays (s : State) :
    (readsIssued s).pending = s.pending ∧ (readsIssued s).dev = s.dev ∧ (readsIssued s).jtag = s.jtag := by
  unfold readsIssued
  simp

theorem execD0Return_stays (s : State) (nx : State) (h : execD0Return s = .next nx) :
    nx.pending = s.pending ∧ nx.dev = s.dev ∧ nx.jtag = s.jtag := by
  unfold execD0Return at h
  cases h
  simp

/-! ### Usher -/

theorem execTicketEntry_stays (tid : Nat) (s : State) (nx : State) (h : execTicketEntry tid s = .next nx) :
    nx.pending = s.pending ∧ nx.dev = s.dev ∧ nx.jtag = s.jtag := by
  unfold execTicketEntry at h
  cases h
  refine unlessLocked_stays _ _ fun s => ?_
  dsimp only
  refine ⟨?_, ?_, ?_⟩ <;> ((repeat' split) <;> simp)

theorem execEntitlementRecompute_stays (s : State) (nx : State) (h : execEntitlementRecompute s = .next nx) :
    nx.pending = s.pending ∧ nx.dev = s.dev ∧ nx.jtag = s.jtag := by
  unfold execEntitlementRecompute at h
  cases h
  refine unlessLocked_stays _ _ fun s => ?_
  simp

theorem execDeadlineExpiry_stays (tid : Nat) (s : State) (nx : State) (h : execDeadlineExpiry tid s = .next nx) :
    nx.pending = s.pending ∧ nx.dev = s.dev ∧ nx.jtag = s.jtag := by
  unfold execDeadlineExpiry at h
  cases h
  refine unlessLocked_stays _ _ fun s => ?_
  refine ⟨?_, ?_, ?_⟩ <;> ((repeat' split) <;> simp)

theorem makeRoom_stays (r : Nat) (n : Nat) (wish : Nat) (keep : Option (W32 × Nat)) (fuel : Nat) (s : State) (a : Nat) (t : State)
    (h : makeRoom r n wish keep fuel s = some (a, t)) : t.pending = s.pending ∧ t.dev = s.dev ∧ t.jtag = s.jtag := by
  induction fuel generalizing s with
  | zero =>
    simp only [makeRoom, Option.map_eq_some_iff, Prod.mk.injEq] at h
    obtain ⟨b, -, -, rfl⟩ := h
    exact ⟨rfl, rfl, rfl⟩
  | succ fuel ih =>
    unfold makeRoom at h
    split at h
    · cases h; exact ⟨rfl, rfl, rfl⟩
    · obtain ⟨k, -, q⟩ := Option.bind_eq_some_iff.mp h
      simpa using ih _ q


theorem roomFor_stays (s : State) (r : Nat) (n : Nat) (wish : Nat) (keep : Option (W32 × Nat)) (a : Nat) (t : State)
    (h : roomFor s r n wish keep = some (a, t)) : t.pending = s.pending ∧ t.dev = s.dev ∧ t.jtag = s.jtag :=
  makeRoom_stays _ _ _ _ _ _ _ _ h


@[simp] theorem startCopy_stays (r : Nat) (h : W32) (kind : Nat) (expandNs : Nat) (s : State) :
    (startCopy r h kind expandNs s).pending = s.pending ∧ (startCopy r h kind expandNs s).dev = s.dev ∧
    (startCopy r h kind expandNs s).jtag = s.jtag := by
  unfold startCopy
  dsimp only
  (repeat' split) <;> first
    | exact ⟨rfl, rfl, rfl⟩
    | (have q := roomFor_stays _ _ _ _ _ _ _ (by assumption); simp [q])


theorem execCopyValid_stays (r : Nat) (h : W32) (kind : Nat) (s : State) (nx : State) (h : execCopyValid r h kind s = .next nx) :
    nx.pending = s.pending ∧ nx.dev = s.dev ∧ nx.jtag = s.jtag := by
  unfold execCopyValid at h
  cases h
  refine unlessLocked_stays _ _ fun s => ?_
  simp

theorem execCopyFreed_stays (r : Nat) (h : W32) (kind : Nat) (s : State) (nx : State) (h : execCopyFreed r h kind s = .next nx) :
    nx.pending = s.pending ∧ nx.dev = s.dev ∧ nx.jtag = s.jtag := by
  unfold execCopyFreed at h
  cases h
  refine unlessLocked_stays _ _ fun s => ?_
  refine ⟨?_, ?_, ?_⟩ <;> ((repeat' split) <;> simp)

@[simp] theorem noteSpread_stays (h : W32) (kind : Nat) (s : State) :
    (noteSpread h kind s).pending = s.pending ∧ (noteSpread h kind s).dev = s.dev ∧ (noteSpread h kind s).jtag = s.jtag := by
  unfold noteSpread
  simp

@[simp] theorem dispatch_stays (t : Ticket) (a : Act) (r : Nat) (c : Nat) (further : Bool) (wish : Nat) (s : State) :
    (dispatch t a r c further wish s).pending = s.pending ∧ (dispatch t a r c further wish s).dev = s.dev ∧
    (dispatch t a r c further wish s).jtag = s.jtag := by
  unfold dispatch
  dsimp only
  split
  · exact ⟨rfl, rfl, rfl⟩
  · have q := roomFor_stays _ _ _ _ _ _ _ (by assumption)
    (repeat' split) <;> simp [q]


@[simp] theorem tryTickets_stays (i : Nat) (wish : Nat) (vmin : Rat) (l : List Ticket) (s : State) :
    (tryTickets i wish vmin l s).pending = s.pending ∧ (tryTickets i wish vmin l s).dev = s.dev ∧
    (tryTickets i wish vmin l s).jtag = s.jtag := by
  induction l generalizing s with
  | nil => simp [tryTickets]
  | cons t l ih =>
    unfold tryTickets
    (repeat' split) <;> simp [ih]


theorem execDispatchPass_stays (base : Nat) (s : State) (nx : State) (h : execDispatchPass base s = .next nx) :
    nx.pending = s.pending ∧ nx.dev = s.dev ∧ nx.jtag = s.jtag := by
  unfold execDispatchPass at h
  cases h
  refine unlessLocked_stays _ _ fun s => ?_
  refine ⟨?_, ?_, ?_⟩ <;> ((repeat' split) <;> simp)

@[simp] theorem shareBoundary_stays (s : State) :
    (shareBoundary s).pending = s.pending ∧ (shareBoundary s).dev = s.dev ∧ (shareBoundary s).jtag = s.jtag := by
  unfold shareBoundary
  simp

theorem execShareEpochBoundary_stays (s : State) (nx : State) (h : execShareEpochBoundary s = .next nx) :
    nx.pending = s.pending ∧ nx.dev = s.dev ∧ nx.jtag = s.jtag := by
  unfold execShareEpochBoundary at h
  cases h
  refine unlessLocked_stays _ _ fun s => ?_
  refine ⟨?_, ?_, ?_⟩ <;> ((repeat' split) <;> simp)

theorem execEpochNow_stays (s : State) (nx : State) (h : execEpochNow s = .next nx) :
    nx.pending = s.pending ∧ nx.dev = s.dev ∧ nx.jtag = s.jtag := by
  unfold execEpochNow at h
  cases h
  refine hostWrite_stays _ _ fun s => ?_
  simp

/-! ### Dolid -/

theorem takeMsg_stays (ty port : Nat) (s : State) (m : DolMsg) (t : State) (h : takeMsg ty port s = some (m, t)) :
    t.pending = s.pending ∧ t.dev = s.dev ∧ t.jtag = s.jtag := by
  unfold takeMsg at h
  (repeat' (split at h)) <;> first | contradiction | (cases h; exact ⟨rfl, rfl, rfl⟩)


@[simp] theorem freeMsg_stays (m : DolMsg) (s : State) :
    (freeMsg m s).pending = s.pending ∧ (freeMsg m s).dev = s.dev ∧ (freeMsg m s).jtag = s.jtag := by
  unfold freeMsg
  simp

theorem decideMsg_stays (ty port : Nat) (sid : W32) (f : List Byte → DolMsg → Session → State → State) (s : State)
    (h : ∀ p m x s, (f p m x s).pending = s.pending ∧ (f p m x s).dev = s.dev ∧ (f p m x s).jtag = s.jtag) :
    (decideMsg ty port sid f s).pending = s.pending ∧ (decideMsg ty port sid f s).dev = s.dev ∧
    (decideMsg ty port sid f s).jtag = s.jtag := by
  unfold decideMsg
  split
  · exact ⟨rfl, rfl, rfl⟩
  · rename_i e
    have q := takeMsg_stays _ _ _ _ _ (Option.eq_some_of_filter_eq_some e)
    split
    · simp [q]
    · simp [h, q]


@[simp] theorem sendAccept_stays (x : Session) (p : Nat) (s : State) :
    (sendAccept x p s).pending = s.pending ∧ (sendAccept x p s).dev = s.dev ∧ (sendAccept x p s).jtag = s.jtag := by
  unfold sendAccept
  simp

@[simp] theorem initAdmitted_stays (m : DolMsg) (iid : Nat) (pe : Nat × Peer) (s : State) :
    (initAdmitted m iid pe s).pending = s.pending ∧ (initAdmitted m iid pe s).dev = s.dev ∧ (initAdmitted m iid pe s).jtag = s.jtag := by
  unfold initAdmitted
  simp

@[simp] theorem dolidInit_stays (port : Nat) (s : State) :
    (dolidInit port s).pending = s.pending ∧ (dolidInit port s).dev = s.dev ∧ (dolidInit port s).jtag = s.jtag := by
  unfold dolidInit
  dsimp only
  refine ⟨?_, ?_, ?_⟩ <;> ((repeat' split) <;> first | (simp; done) | (simp_all; done) | (have := takeMsg_stays (h := by assumption) ..; simp_all; done))

theorem execDolidInit_stays (port : Nat) (s : State) (nx : State) (h : execDolidInit port s = .next nx) :
    nx.pending = s.pending ∧ nx.dev = s.dev ∧ nx.jtag = s.jtag := by
  unfold execDolidInit at h
  cases h
  simp

@[simp] theorem sessionOpen_stays (t : Ticket) (n : Nat) (s : State) :
    (sessionOpen t n s).2.pending = s.pending ∧ (sessionOpen t n s).2.dev = s.dev ∧ (sessionOpen t n s).2.jtag = s.jtag := by
  unfold sessionOpen
  dsimp only
  refine ⟨?_, ?_, ?_⟩ <;> ((repeat' split) <;> simp)

@[simp] theorem answerNow_stays (m : DolMsg) (x : Session) (txid : W64) (act : Half) (status : Byte) (outLen : W32) (hint : Nat) (interim : Bool) (s : State) :
    (answerNow m x txid act status outLen hint interim s).pending = s.pending ∧
    (answerNow m x txid act status outLen hint interim s).dev = s.dev ∧
    (answerNow m x txid act status outLen hint interim s).jtag = s.jtag := by
  unfold answerNow
  simp

@[simp] theorem convertRequest_stays (m : DolMsg) (x : Session) (p : List Byte) (s : State) :
    (convertRequest m x p s).pending = s.pending ∧ (convertRequest m x p s).dev = s.dev ∧ (convertRequest m x p s).jtag = s.jtag := by
  unfold convertRequest
  dsimp only
  refine ⟨?_, ?_, ?_⟩ <;> ((repeat' split) <;> simp)

@[simp] theorem dolidRequest_stays (p : List Byte) (m : DolMsg) (x : Session) (s : State) :
    (dolidRequest p m x s).pending = s.pending ∧ (dolidRequest p m x s).dev = s.dev ∧ (dolidRequest p m x s).jtag = s.jtag := by
  unfold dolidRequest
  dsimp only
  refine ⟨?_, ?_, ?_⟩ <;> ((repeat' split) <;> simp)

theorem execDolidRequest_stays (port : Nat) (sid : W32) (s : State) (nx : State) (h : execDolidRequest port sid s = .next nx) :
    nx.pending = s.pending ∧ nx.dev = s.dev ∧ nx.jtag = s.jtag := by
  unfold execDolidRequest at h
  cases h
  refine decideMsg_stays _ _ _ _ _ fun p m x s => ?_
  simp

@[simp] theorem dolidAbort_stays (plain : List Byte) (m : DolMsg) (x : Session) (s : State) :
    (dolidAbort plain m x s).pending = s.pending ∧ (dolidAbort plain m x s).dev = s.dev ∧ (dolidAbort plain m x s).jtag = s.jtag := by
  unfold dolidAbort
  dsimp only
  refine ⟨?_, ?_, ?_⟩ <;> ((repeat' split) <;> simp)

theorem execDolidAbort_stays (port : Nat) (sid : W32) (s : State) (nx : State) (h : execDolidAbort port sid s = .next nx) :
    nx.pending = s.pending ∧ nx.dev = s.dev ∧ nx.jtag = s.jtag := by
  unfold execDolidAbort at h
  cases h
  refine decideMsg_stays _ _ _ _ _ fun p m x s => ?_
  simp

theorem execDolidClose_stays (port : Nat) (sid : W32) (s : State) (nx : State) (h : execDolidClose port sid s = .next nx) :
    nx.pending = s.pending ∧ nx.dev = s.dev ∧ nx.jtag = s.jtag := by
  unfold execDolidClose at h
  cases h
  refine decideMsg_stays _ _ _ _ _ fun p m x s => ?_
  simp

theorem execSessionIdleTimeout_stays (sid : W32) (s : State) (nx : State) (h : execSessionIdleTimeout sid s = .next nx) :
    nx.pending = s.pending ∧ nx.dev = s.dev ∧ nx.jtag = s.jtag := by
  unfold execSessionIdleTimeout at h
  cases h
  refine unlessLocked_stays _ _ fun s => ?_
  refine ⟨?_, ?_, ?_⟩ <;> ((repeat' split) <;> simp)

theorem execCookieEpoch_stays (s : State) (nx : State) (h : execCookieEpoch s = .next nx) :
    nx.pending = s.pending ∧ nx.dev = s.dev ∧ nx.jtag = s.jtag := by
  unfold execCookieEpoch at h
  cases h
  refine unlessLocked_stays _ _ fun s => ?_
  simp

theorem execCookieDrawRetry_stays (s : State) (nx : State) (h : execCookieDrawRetry s = .next nx) :
    nx.pending = s.pending ∧ nx.dev = s.dev ∧ nx.jtag = s.jtag := by
  unfold execCookieDrawRetry at h
  cases h
  refine unlessLocked_stays _ _ fun s => ?_
  simp

theorem execTxidHoldExpiry_stays (iid : Nat) (txid : W64) (s : State) (nx : State) (h : execTxidHoldExpiry iid txid s = .next nx) :
    nx.pending = s.pending ∧ nx.dev = s.dev ∧ nx.jtag = s.jtag := by
  unfold execTxidHoldExpiry at h
  cases h
  refine unlessLocked_stays _ _ fun s => ?_
  refine ⟨?_, ?_, ?_⟩ <;> ((repeat' split) <;> simp)

@[simp] theorem setPeer_stays (k : Nat) (p : Peer) (s : State) :
    (setPeer k p s).pending = s.pending ∧ (setPeer k p s).dev = s.dev ∧ (setPeer k p s).jtag = s.jtag := by
  unfold setPeer
  simp

@[simp] theorem peerRead_stays (data : W32) (s : State) :
    (peerRead data s).pending = s.pending ∧ (peerRead data s).dev = s.dev ∧ (peerRead data s).jtag = s.jtag := by
  unfold peerRead
  simp

theorem execPeerRead_stays (data : W32) (s : State) (nx : State) (h : execPeerRead data s = .next nx) :
    nx.pending = s.pending ∧ nx.dev = s.dev ∧ nx.jtag = s.jtag := by
  unfold execPeerRead at h
  cases h
  refine hostWrite_stays _ _ fun s => ?_
  simp

@[simp] theorem peerWrite_stays (data : W32) (s : State) :
    (peerWrite data s).pending = s.pending ∧ (peerWrite data s).dev = s.dev ∧ (peerWrite data s).jtag = s.jtag := by
  unfold peerWrite
  simp

theorem execPeerWrite_stays (data : W32) (s : State) (nx : State) (h : execPeerWrite data s = .next nx) :
    nx.pending = s.pending ∧ nx.dev = s.dev ∧ nx.jtag = s.jtag := by
  unfold execPeerWrite at h
  cases h
  refine hostWrite_stays _ _ fun s => ?_
  simp

@[simp] theorem peerClear_stays (data : W32) (s : State) :
    (peerClear data s).pending = s.pending ∧ (peerClear data s).dev = s.dev ∧ (peerClear data s).jtag = s.jtag := by
  unfold peerClear
  simp

theorem execPeerClear_stays (data : W32) (s : State) (nx : State) (h : execPeerClear data s = .next nx) :
    nx.pending = s.pending ∧ nx.dev = s.dev ∧ nx.jtag = s.jtag := by
  unfold execPeerClear at h
  cases h
  refine hostWrite_stays _ _ fun s => ?_
  simp

theorem execGloveRefill_stays (s : State) (nx : State) (h : execGloveRefill s = .next nx) :
    nx.pending = s.pending ∧ nx.dev = s.dev ∧ nx.jtag = s.jtag := by
  unfold execGloveRefill at h
  cases h
  refine unlessLocked_stays _ _ fun s => ?_
  simp

/-! ### KeyStore -/

@[simp] theorem keygetDone_stays (c : Nat) (d : Nat) (v : W64) (s : State) :
    (keygetDone c d v s).pending = s.pending ∧ (keygetDone c d v s).dev = s.dev ∧ (keygetDone c d v s).jtag = s.jtag := by
  unfold keygetDone
  simp

@[simp] theorem ninthGrant_stays (c : Nat) (s : State) :
    (ninthGrant c s).pending = s.pending ∧ (ninthGrant c s).dev = s.dev ∧ (ninthGrant c s).jtag = s.jtag := by
  unfold ninthGrant
  simp

@[simp] theorem deliver_stays (c : Nat) (d : Nat) (g : Grant) (data : List Byte) (tags : List Tag) (s : State) :
    (deliver c d g data tags s).pending = s.pending ∧ (deliver c d g data tags s).dev = s.dev ∧ (deliver c d g data tags s).jtag = s.jtag := by
  unfold deliver
  refine ⟨?_, ?_, ?_⟩ <;> ((repeat' split) <;> first | (simp; done) | (simp_all; done) | (have := roomFor_stays (h := by assumption) ..; simp_all; done))

@[simp] theorem grantCopy_stays (c : Nat) (d : Nat) (h : W32) (u : Nat) (tid : Nat) (s : State) :
    (grantCopy c d h u tid s).pending = s.pending ∧ (grantCopy c d h u tid s).dev = s.dev ∧ (grantCopy c d h u tid s).jtag = s.jtag := by
  unfold grantCopy
  dsimp only
  refine ⟨?_, ?_, ?_⟩ <;> ((repeat' split) <;> simp)

@[simp] theorem grantStaging_stays (c : Nat) (d : Nat) (h : W32) (u : Nat) (t : Ticket) (s : State) :
    (grantStaging c d h u t s).pending = s.pending ∧ (grantStaging c d h u t s).dev = s.dev ∧ (grantStaging c d h u t s).jtag = s.jtag := by
  unfold grantStaging
  dsimp only
  refine ⟨?_, ?_, ?_⟩ <;> ((repeat' split) <;> first | (simp; done) | (simp_all; done) | (have := roomFor_stays (h := by assumption) ..; simp_all; done))

@[simp] theorem grantChange_stays (c : Nat) (d : Nat) (h : W32) (change : KeyChange) (tid : Nat) (s : State) :
    (grantChange c d h change tid s).pending = s.pending ∧
    (grantChange c d h change tid s).dev = s.dev ∧
    (grantChange c d h change tid s).jtag = s.jtag := by
  unfold grantChange
  simp

@[simp] theorem keyAccept_stays (c : Nat) (d : Nat) (h : W32) (u : Nat) (t : Ticket) (s : State) :
    (keyAccept c d h u t s).pending = s.pending ∧ (keyAccept c d h u t s).dev = s.dev ∧ (keyAccept c d h u t s).jtag = s.jtag := by
  unfold keyAccept
  simp

@[simp] theorem nonceTaken_stays (c : Nat) (u : Nat) (s : State) :
    (nonceTaken c u s).pending = s.pending ∧ (nonceTaken c u s).dev = s.dev ∧ (nonceTaken c u s).jtag = s.jtag := by
  unfold nonceTaken
  refine ⟨?_, ?_, ?_⟩ <;> ((repeat' split) <;> simp)

@[simp] theorem keyRefused_stays (c : Nat) (order : Nat) (status : Byte) (t : Ticket) (s : State) :
    (keyRefused c order status t s).pending = s.pending ∧
    (keyRefused c order status t s).dev = s.dev ∧
    (keyRefused c order status t s).jtag = s.jtag := by
  unfold keyRefused
  simp

@[simp] theorem decided_stays (s : State) :
    (decided s).pending = s.pending ∧ (decided s).dev = s.dev ∧ (decided s).jtag = s.jtag := by
  unfold decided
  simp

theorem execKeyRequest_stays (c : Nat) (others : List Nat) (s : State) (nx : State) (h : execKeyRequest c others s = .next nx) :
    nx.pending = s.pending ∧ nx.dev = s.dev ∧ nx.jtag = s.jtag := by
  unfold execKeyRequest at h
  cases h
  refine unlessLocked_stays _ _ fun s => ?_
  refine ⟨?_, ?_, ?_⟩ <;> ((repeat' split) <;> simp)

theorem execKeyDeliveryComplete_stays (c : Nat) (s : State) (nx : State) (h : execKeyDeliveryComplete c s = .next nx) :
    nx.pending = s.pending ∧ nx.dev = s.dev ∧ nx.jtag = s.jtag := by
  unfold execKeyDeliveryComplete at h
  cases h
  refine unlessLocked_stays _ _ fun s => ?_
  refine ⟨?_, ?_, ?_⟩ <;> ((repeat' split) <;> simp)

@[simp] theorem applyChange_stays (r : Nat) (p : KeyPend) (s : State) :
    (applyChange r p s).pending = s.pending ∧ (applyChange r p s).dev = s.dev ∧ (applyChange r p s).jtag = s.jtag := by
  unfold applyChange
  refine ⟨?_, ?_, ?_⟩ <;> ((repeat' split) <;> simp)

@[simp] theorem applyChanges_stays (t : Ticket) (r : Nat) (s : State) :
    (applyChanges t r s).pending = s.pending ∧ (applyChanges t r s).dev = s.dev ∧ (applyChanges t r s).jtag = s.jtag := by
  unfold applyChanges
  simp

theorem execKeyFillDone_stays (h : W32) (s : State) (nx : State) (h : execKeyFillDone h s = .next nx) :
    nx.pending = s.pending ∧ nx.dev = s.dev ∧ nx.jtag = s.jtag := by
  unfold execKeyFillDone at h
  cases h
  refine unlessLocked_stays _ _ fun s => ?_
  simp

theorem execKeyScrubDone_stays (h : W32) (s : State) (nx : State) (h : execKeyScrubDone h s = .next nx) :
    nx.pending = s.pending ∧ nx.dev = s.dev ∧ nx.jtag = s.jtag := by
  unfold execKeyScrubDone at h
  cases h
  refine unlessLocked_stays _ _ fun s => ?_
  simp

theorem execSweep_stays (s : State) (nx : State) (h : execSweep s = .next nx) :
    nx.pending = s.pending ∧ nx.dev = s.dev ∧ nx.jtag = s.jtag := by
  unfold execSweep at h
  cases h
  refine unlessLocked_stays _ _ fun s => ?_
  simp

@[simp] theorem domainWrite_stays (i : Nat) (k : Nat) (data : W32) (s : State) :
    (domainWrite i k data s).pending = s.pending ∧ (domainWrite i k data s).dev = s.dev ∧ (domainWrite i k data s).jtag = s.jtag := by
  unfold domainWrite
  simp

theorem execKsDomainWrite_stays (i : Nat) (k : Nat) (data : W32) (s : State) (nx : State) (h : execKsDomainWrite i k data s = .next nx) :
    nx.pending = s.pending ∧ nx.dev = s.dev ∧ nx.jtag = s.jtag := by
  unfold execKsDomainWrite at h
  cases h
  refine hostWrite_stays _ _ fun s => ?_
  simp

@[simp] theorem setCer_stays (c : Ceremony) (s : State) :
    (setCer c s).pending = s.pending ∧ (setCer c s).dev = s.dev ∧ (setCer c s).jtag = s.jtag := by
  unfold setCer
  simp

theorem cerCommand_stays (cmd : Nat) (ok : State → Bool) (f : State → State) (s : State)
    (h : ∀ s, (f s).pending = s.pending ∧ (f s).dev = s.dev ∧ (f s).jtag = s.jtag) :
    (cerCommand cmd ok f s).pending = s.pending ∧ (cerCommand cmd ok f s).dev = s.dev ∧ (cerCommand cmd ok f s).jtag = s.jtag := by
  unfold cerCommand
  dsimp only
  split
  · simp
  · split
    · simp
    · exact h s

@[simp] theorem cerOpen_stays (s : State) :
    (cerOpen s).pending = s.pending ∧ (cerOpen s).dev = s.dev ∧ (cerOpen s).jtag = s.jtag := by
  unfold cerOpen
  refine cerCommand_stays _ _ _ _ fun s => ?_
  simp

theorem execCerOpen_stays (s : State) (nx : State) (h : execCerOpen s = .next nx) :
    nx.pending = s.pending ∧ nx.dev = s.dev ∧ nx.jtag = s.jtag := by
  unfold execCerOpen at h
  cases h
  refine hostWrite_stays _ _ fun s => ?_
  simp

@[simp] theorem cerComponent_stays (s : State) :
    (cerComponent s).pending = s.pending ∧ (cerComponent s).dev = s.dev ∧ (cerComponent s).jtag = s.jtag := by
  unfold cerComponent
  refine cerCommand_stays _ _ _ _ fun s => ?_
  simp

theorem execComponent_stays (s : State) (nx : State) (h : execComponent s = .next nx) :
    nx.pending = s.pending ∧ nx.dev = s.dev ∧ nx.jtag = s.jtag := by
  unfold execComponent at h
  cases h
  refine hostWrite_stays _ _ fun s => ?_
  simp

theorem execComponentDone_stays (s : State) (nx : State) (h : execComponentDone s = .next nx) :
    nx.pending = s.pending ∧ nx.dev = s.dev ∧ nx.jtag = s.jtag := by
  unfold execComponentDone at h
  cases h
  refine unlessLocked_stays _ _ fun s => ?_
  dsimp only
  refine ⟨?_, ?_, ?_⟩ <;> ((repeat' split) <;> simp)

@[simp] theorem cerClose_stays (s : State) :
    (cerClose s).pending = s.pending ∧ (cerClose s).dev = s.dev ∧ (cerClose s).jtag = s.jtag := by
  unfold cerClose
  refine cerCommand_stays _ _ _ _ fun s => ?_
  simp

theorem execCerClose_stays (s : State) (nx : State) (h : execCerClose s = .next nx) :
    nx.pending = s.pending ∧ nx.dev = s.dev ∧ nx.jtag = s.jtag := by
  unfold execCerClose at h
  cases h
  refine hostWrite_stays _ _ fun s => ?_
  simp

@[simp] theorem cerCancel_stays (s : State) :
    (cerCancel s).pending = s.pending ∧ (cerCancel s).dev = s.dev ∧ (cerCancel s).jtag = s.jtag := by
  unfold cerCancel
  refine cerCommand_stays _ _ _ _ fun s => ?_
  simp

theorem execCerCancel_stays (s : State) (nx : State) (h : execCerCancel s = .next nx) :
    nx.pending = s.pending ∧ nx.dev = s.dev ∧ nx.jtag = s.jtag := by
  unfold execCerCancel at h
  cases h
  refine hostWrite_stays _ _ fun s => ?_
  simp

@[simp] theorem cerResume_stays (s : State) :
    (cerResume s).pending = s.pending ∧ (cerResume s).dev = s.dev ∧ (cerResume s).jtag = s.jtag := by
  unfold cerResume
  refine cerCommand_stays _ _ _ _ fun s => ?_
  dsimp only
  split <;> simp


theorem execCerResume_stays (s : State) (nx : State) (h : execCerResume s = .next nx) :
    nx.pending = s.pending ∧ nx.dev = s.dev ∧ nx.jtag = s.jtag := by
  unfold execCerResume at h
  cases h
  refine hostWrite_stays _ _ fun s => ?_
  simp

end Sys2Proof.Machine
end

