-- ==== Sys2Proof/Laws/Stays/Engines.lean ====
section
/-!
SUPPORT. What leaves the queue, the part and the test access port alone: the operations of the fabric, the engines, vectors, masking and CSRs.
-/
namespace Sys2Proof.Machine

open Sys2Proof

/-! ### Fabric -/

@[simp] theorem opFails_stays (tid : Nat) (cls : FaultClass) (s : State) :
    (opFails tid cls s).pending = s.pending ∧ (opFails tid cls s).dev = s.dev ∧ (opFails tid cls s).jtag = s.jtag := by
  unfold opFails
  refine ⟨?_, ?_, ?_⟩ <;> ((repeat' split) <;> simp)

@[simp] theorem opDies_stays (tid : Nat) (cls : FaultClass) (s : State) :
    (opDies tid cls s).pending = s.pending ∧ (opDies tid cls s).dev = s.dev ∧ (opDies tid cls s).jtag = s.jtag := by
  unfold opDies
  simp

@[simp] theorem setRetry_stays (u : Half) (r : Option Retry) (s : State) :
    (setRetry u r s).pending = s.pending ∧ (setRetry u r s).dev = s.dev ∧ (setRetry u r s).jtag = s.jtag := by
  unfold setRetry
  simp

@[simp] theorem dropXfer_stays (xfer : Nat) (s : State) :
    (dropXfer xfer s).pending = s.pending ∧ (dropXfer xfer s).dev = s.dev ∧ (dropXfer xfer s).jtag = s.jtag := by
  unfold dropXfer
  simp

@[simp] theorem replayDelay_stays (u : Half) (xfer : Nat) (c : Option Nat) (s : State) :
    (replayDelay u xfer c s).pending = s.pending ∧ (replayDelay u xfer c s).dev = s.dev ∧ (replayDelay u xfer c s).jtag = s.jtag := by
  unfold replayDelay
  refine ⟨?_, ?_, ?_⟩ <;> ((repeat' split) <;> simp)

@[simp] theorem flitReceive_stays (u : Half) (xfer : Nat) (flit : W64) (intact : Bool) (c : Option Nat) (s : State) :
    (flitReceive u xfer flit intact c s).pending = s.pending ∧
    (flitReceive u xfer flit intact c s).dev = s.dev ∧
    (flitReceive u xfer flit intact c s).jtag = s.jtag := by
  unfold flitReceive
  dsimp only
  refine ⟨?_, ?_, ?_⟩ <;> ((repeat' split) <;> simp)

theorem execFlitReceive_stays (u : Half) (xfer : Nat) (flit : W64) (f : FlitRead) (s : State) (nx : State) (h : execFlitReceive u xfer flit f s = .next nx) :
    nx.pending = s.pending ∧ nx.dev = s.dev ∧ nx.jtag = s.jtag := by
  unfold execFlitReceive at h
  cases h
  refine unlessLocked_stays _ _ fun s => ?_
  simp

theorem execCreditReturn_stays (src : Nat) (dst : Nat) (s : State) (nx : State) (h : execCreditReturn src dst s = .next nx) :
    nx.pending = s.pending ∧ nx.dev = s.dev ∧ nx.jtag = s.jtag := by
  unfold execCreditReturn at h
  cases h
  refine unlessLocked_stays _ _ fun s => ?_
  simp

theorem execTransferDone_stays (xfer : Nat) (s : State) (nx : State) (h : execTransferDone xfer s = .next nx) :
    nx.pending = s.pending ∧ nx.dev = s.dev ∧ nx.jtag = s.jtag := by
  unfold execTransferDone at h
  cases h
  refine unlessLocked_stays _ _ fun s => ?_
  simp

@[simp] theorem mergeNarrow_stays (m : MemName) (a : W64) (narrow : Option (List Byte × Tag)) (s : State) :
    (mergeNarrow m a narrow s).pending = s.pending ∧ (mergeNarrow m a narrow s).dev = s.dev ∧ (mergeNarrow m a narrow s).jtag = s.jtag := by
  unfold mergeNarrow
  refine ⟨?_, ?_, ?_⟩ <;> ((repeat' split) <;> simp)

@[simp] theorem trapCore_stays (c : Nat) (s : State) :
    (trapCore c s).pending = s.pending ∧ (trapCore c s).dev = s.dev ∧ (trapCore c s).jtag = s.jtag := by
  unfold trapCore
  simp

@[simp] theorem memoryParityError_stays (m : MemName) (line : W64) (held : LineHeld) (c : Option Nat) (found : StoredWord) (narrow : Option (List Byte × Tag)) (s : State) :
    (memoryParityError m line held c found narrow s).pending = s.pending ∧
    (memoryParityError m line held c found narrow s).dev = s.dev ∧
    (memoryParityError m line held c found narrow s).jtag = s.jtag := by
  unfold memoryParityError
  dsimp only
  refine ⟨?_, ?_, ?_⟩ <;> ((repeat' split) <;> simp)

theorem execMemoryParityError_stays (m : MemName) (line : W64) (held : LineHeld) (r : WordRead) (s : State) (nx : State) (h : execMemoryParityError m line held r s = .next nx) :
    nx.pending = s.pending ∧ nx.dev = s.dev ∧ nx.jtag = s.jtag := by
  unfold execMemoryParityError at h
  cases h
  refine unlessLocked_stays _ _ fun s => ?_
  simp

@[simp] theorem resumeCore_stays (s : State) (c : Nat) :
    (resumeCore s c).pending = s.pending ∧ (resumeCore s c).dev = s.dev ∧ (resumeCore s c).jtag = s.jtag := by
  unfold resumeCore
  dsimp only
  refine ⟨?_, ?_, ?_⟩ <;> ((repeat' split) <;> simp)

@[simp] theorem lineLost_stays (m : MemName) (line : W64) (reader : Option Nat) (s : State) :
    (lineLost m line reader s).pending = s.pending ∧ (lineLost m line reader s).dev = s.dev ∧ (lineLost m line reader s).jtag = s.jtag := by
  unfold lineLost
  dsimp only
  refine ⟨?_, ?_, ?_⟩ <;> ((repeat' split) <;> simp)

@[simp] theorem messageLost_stays (tid : Nat) (cls : FaultClass) (s : State) :
    (messageLost tid cls s).pending = s.pending ∧ (messageLost tid cls s).dev = s.dev ∧ (messageLost tid cls s).jtag = s.jtag := by
  unfold messageLost
  refine ⟨?_, ?_, ?_⟩ <;> ((repeat' split) <;> simp)

@[simp] theorem ownerActs_stays (m : MemName) (line : W64) (held : LineHeld) (cls : FaultClass) (reader : Option Nat) (s : State) :
    (ownerActs m line held cls reader s).pending = s.pending ∧
    (ownerActs m line held cls reader s).dev = s.dev ∧
    (ownerActs m line held cls reader s).jtag = s.jtag := by
  unfold ownerActs
  dsimp only
  refine ⟨?_, ?_, ?_⟩ <;> ((repeat' split) <;> simp)

@[simp] theorem retireLine_stays (q : Reread) (s : State) :
    (retireLine q s).pending = s.pending ∧ (retireLine q s).dev = s.dev ∧ (retireLine q s).jtag = s.jtag := by
  unfold retireLine
  dsimp only
  refine ⟨?_, ?_, ?_⟩ <;> ((repeat' split) <;> simp)

@[simp] theorem rereadComplete_stays (m : MemName) (line : W64) (intact : Bool) (s : State) :
    (rereadComplete m line intact s).pending = s.pending ∧
    (rereadComplete m line intact s).dev = s.dev ∧
    (rereadComplete m line intact s).jtag = s.jtag := by
  unfold rereadComplete
  dsimp only
  refine ⟨?_, ?_, ?_⟩ <;> ((repeat' split) <;> simp)

theorem execRereadComplete_stays (m : MemName) (line : W64) (found : StoredWord) (s : State) (nx : State) (h : execRereadComplete m line found s = .next nx) :
    nx.pending = s.pending ∧ nx.dev = s.dev ∧ nx.jtag = s.jtag := by
  unfold execRereadComplete at h
  cases h
  refine unlessLocked_stays _ _ fun s => ?_
  simp

@[simp] theorem rereadsWritten_stays (s : State) :
    (rereadsWritten s).pending = s.pending ∧ (rereadsWritten s).dev = s.dev ∧ (rereadsWritten s).jtag = s.jtag := by
  unfold rereadsWritten
  simp

theorem execActStoreLineRewrite_stays (r : Nat) (line : W64) (bytes : List Byte) (s : State) (nx : State) (h : execActStoreLineRewrite r line bytes s = .next nx) :
    nx.pending = s.pending ∧ nx.dev = s.dev ∧ nx.jtag = s.jtag := by
  unfold execActStoreLineRewrite at h
  cases h
  refine unlessLocked_stays _ _ fun s => ?_
  simp

/-! ### Engines -/

theorem windowRow_stays (c : Nat) (f : State → WRes) (s : State)
    (h : ∀ nx, f s = .ok nx → nx.pending = s.pending ∧ nx.dev = s.dev ∧ nx.jtag = s.jtag) :
    (windowRow c f s).pending = s.pending ∧ (windowRow c f s).dev = s.dev ∧ (windowRow c f s).jtag = s.jtag := by
  unfold windowRow
  split
  · refine issue_stays _ _ _ _ fun x nx e => ?_
    cases q : f s with
    | ok t => simp only [q, WRes.toIRes] at e; cases e; exact h _ q
    | exc a b => simp [q, WRes.toIRes, IRes.left?] at e
    | stall => simp [q, WRes.toIRes, IRes.left?] at e
  · exact ⟨rfl, rfl, rfl⟩

@[simp] theorem askInput_stays (t : Ticket) (off : Nat) (n : Nat) (s : State) :
    (askInput t off n s).pending = s.pending ∧ (askInput t off n s).dev = s.dev ∧ (askInput t off n s).jtag = s.jtag := by
  unfold askInput
  simp

@[simp] theorem keepInput_stays (tid : Nat) (off : Nat) (b : List Byte) (s : State) :
    (keepInput tid off b s).pending = s.pending ∧ (keepInput tid off b s).dev = s.dev ∧ (keepInput tid off b s).jtag = s.jtag := by
  unfold keepInput
  simp

@[simp] theorem egressBlocked_stays (c : Nat) (addr : W64) (s : State) :
    (egressBlocked c addr s).pending = s.pending ∧ (egressBlocked c addr s).dev = s.dev ∧ (egressBlocked c addr s).jtag = s.jtag := by
  unfold egressBlocked
  refine ⟨?_, ?_, ?_⟩ <;> ((repeat' split) <;> simp)

@[simp] theorem pcieBucket_stays (i : Nat) (who : Nat) (n : Nat) (s : State) :
    (pcieBucket i who n s).2.pending = s.pending ∧ (pcieBucket i who n s).2.dev = s.dev ∧ (pcieBucket i who n s).2.jtag = s.jtag := by
  unfold pcieBucket
  dsimp only
  refine ⟨?_, ?_, ?_⟩ <;> ((repeat' split) <;> simp)

@[simp] theorem outputBytes_stays (t : Ticket) (who : Nat) (off : Nat) (b : List Byte) (s : State) :
    (outputBytes t who off b s).2.pending = s.pending ∧
    (outputBytes t who off b s).2.dev = s.dev ∧
    (outputBytes t who off b s).2.jtag = s.jtag := by
  unfold outputBytes
  dsimp only
  refine ⟨?_, ?_, ?_⟩ <;> ((repeat' split) <;> simp)

/-! ### Hash -/

@[simp] theorem setHashEng_stays (c : Nat) (e : Nat) (g : HashEng) (s : State) :
    (setHashEng c e g s).pending = s.pending ∧ (setHashEng c e g s).dev = s.dev ∧ (setHashEng c e g s).jtag = s.jtag := by
  unfold setHashEng
  simp

@[simp] theorem heServe_stays (r : Nat) (e : Nat) (s : State) :
    (heServe r e s).pending = s.pending ∧ (heServe r e s).dev = s.dev ∧ (heServe r e s).jtag = s.jtag := by
  unfold heServe
  simp

theorem heCommand_stays (c : Nat) (e : Nat) (v : W64) (s : State) (nx : State) (h : heCommand c e v s = .ok nx) :
    nx.pending = s.pending ∧ nx.dev = s.dev ∧ nx.jtag = s.jtag := by
  unfold heCommand at h
  dsimp only at h
  (repeat' (split at h)) <;> first | contradiction | (cases h; simp)

theorem heWrite_stays (c : Nat) (e : Nat) (off : Nat) (v : W64) (t : Tag) (s : State) (nx : State) (h : heWrite c e off v t s = .ok nx) :
    nx.pending = s.pending ∧ nx.dev = s.dev ∧ nx.jtag = s.jtag := by
  unfold heWrite at h
  (repeat' (split at h)) <;> first | contradiction | (cases h; simp; done) | (simp_all; done) | (have := heCommand_stays (h := by assumption) ..; simp_all; done)

@[simp] theorem heRow_stays (op : Nat) (c : Nat) (e : Nat) (v : W64) (s : State) : (heRow op c e v s).pending = s.pending ∧ (heRow op c e v s).dev = s.dev ∧ (heRow op c e v s).jtag = s.jtag := by
  unfold heRow
  split
  · exact windowRow_stays _ _ _ fun nx h => heCommand_stays _ _ _ s nx h
  · exact ⟨rfl, rfl, rfl⟩


theorem execHeInit_stays (c : Nat) (e : Nat) (v : W64) (s : State) (nx : State) (h : execHeInit c e v s = .next nx) :
    nx.pending = s.pending ∧ nx.dev = s.dev ∧ nx.jtag = s.jtag := by
  unfold execHeInit at h
  cases h
  simp

theorem execHeAbsorb_stays (c : Nat) (e : Nat) (v : W64) (s : State) (nx : State) (h : execHeAbsorb c e v s = .next nx) :
    nx.pending = s.pending ∧ nx.dev = s.dev ∧ nx.jtag = s.jtag := by
  unfold execHeAbsorb at h
  cases h
  simp

theorem execHeFinal_stays (c : Nat) (e : Nat) (v : W64) (s : State) (nx : State) (h : execHeFinal c e v s = .next nx) :
    nx.pending = s.pending ∧ nx.dev = s.dev ∧ nx.jtag = s.jtag := by
  unfold execHeFinal at h
  cases h
  simp

theorem execHeSqueeze_stays (c : Nat) (e : Nat) (v : W64) (s : State) (nx : State) (h : execHeSqueeze c e v s = .next nx) :
    nx.pending = s.pending ∧ nx.dev = s.dev ∧ nx.jtag = s.jtag := by
  unfold execHeSqueeze at h
  cases h
  simp

theorem execHeHash_stays (c : Nat) (e : Nat) (v : W64) (s : State) (nx : State) (h : execHeHash c e v s = .next nx) :
    nx.pending = s.pending ∧ nx.dev = s.dev ∧ nx.jtag = s.jtag := by
  unfold execHeHash at h
  cases h
  simp

theorem execHeCopy_stays (c : Nat) (e : Nat) (v : W64) (s : State) (nx : State) (h : execHeCopy c e v s = .next nx) :
    nx.pending = s.pending ∧ nx.dev = s.dev ∧ nx.jtag = s.jtag := by
  unfold execHeCopy at h
  cases h
  simp

theorem execHeRandom_stays (c : Nat) (e : Nat) (v : W64) (s : State) (nx : State) (h : execHeRandom c e v s = .next nx) :
    nx.pending = s.pending ∧ nx.dev = s.dev ∧ nx.jtag = s.jtag := by
  unfold execHeRandom at h
  cases h
  simp

@[simp] theorem engineWrite_stays (c : Nat) (k : Nat) (dst : Nat) (b : List Byte) (t : Tag) (s : State) :
    (engineWrite c k dst b t s).pending = s.pending ∧ (engineWrite c k dst b t s).dev = s.dev ∧ (engineWrite c k dst b t s).jtag = s.jtag := by
  unfold engineWrite
  refine ⟨?_, ?_, ?_⟩ <;> ((repeat' split) <;> simp)

theorem hePerform_stays (c : Nat) (e : Nat) (q : HashCmd) (s : State) (nx : State) (h : hePerform c e q s = some nx) :
    nx.pending = s.pending ∧ nx.dev = s.dev ∧ nx.jtag = s.jtag := by
  unfold hePerform at h
  dsimp only at h
  (repeat' (split at h)) <;> first | contradiction | (cases h; simp)

theorem execHeCmdDone_stays (c : Nat) (e : Nat) (s : State) (nx : State) (h : execHeCmdDone c e s = .next nx) :
    nx.pending = s.pending ∧ nx.dev = s.dev ∧ nx.jtag = s.jtag := by
  unfold execHeCmdDone at h
  cases h
  refine unlessLocked_stays _ _ fun s => ?_
  dsimp only
  split
  · simp
  · split
    · simp
    · split
      · simp
      · rename_i q
        split at q
        · have q' := hePerform_stays _ _ _ _ _ q
          simp [q']
        · contradiction

/-! ### BlockCipher -/

@[simp] theorem setBcEng_stays (c : Nat) (e : Nat) (g : BcEng) (s : State) :
    (setBcEng c e g s).pending = s.pending ∧ (setBcEng c e g s).dev = s.dev ∧ (setBcEng c e g s).jtag = s.jtag := by
  unfold setBcEng
  simp

theorem WRes.ite_ok {p : Prop} [Decidable p] {a b : WRes} {nx : State} (h : (if p then a else b) = .ok nx) :
    a = .ok nx ∨ b = .ok nx := by
  split at h
  · exact .inl h
  · exact .inr h

theorem bcCommand_stays (c : Nat) (e : Nat) (v : W64) (s : State) (nx : State) (h : bcCommand c e v s = .ok nx) :
    nx.pending = s.pending ∧ nx.dev = s.dev ∧ nx.jtag = s.jtag := by
  unfold bcCommand at h
  dsimp only at h
  obtain h | h := WRes.ite_ok h
  · contradiction
  obtain h | h := WRes.ite_ok h
  · contradiction
  · revert h
    generalize (if field v.toNat 0 4 = 1 then _ else _ : Option W64) = a
    generalize rangeFails _ _ _ _ false = b
    generalize rangeFails _ _ _ _ true = d
    intro h
    match a, b, d with
    | some _, _, _ => contradiction
    | none, some _, _ => contradiction
    | none, none, some _ => contradiction
    | none, none, none =>
      obtain h | h := WRes.ite_ok h
      · contradiction
      · obtain h | h := WRes.ite_ok h
        · contradiction
        · cases h; simp


theorem bcWrite_stays (c : Nat) (e : Nat) (off : Nat) (v : W64) (t : Tag) (s : State) (nx : State) (h : bcWrite c e off v t s = .ok nx) :
    nx.pending = s.pending ∧ nx.dev = s.dev ∧ nx.jtag = s.jtag := by
  unfold bcWrite at h
  (repeat' (split at h)) <;> first | contradiction | (cases h; simp; done) | (simp_all; done) | (have := bcCommand_stays (h := by assumption) ..; simp_all; done)

@[simp] theorem bcRow_stays (op : Nat) (c : Nat) (e : Nat) (v : W64) (s : State) : (bcRow op c e v s).pending = s.pending ∧ (bcRow op c e v s).dev = s.dev ∧ (bcRow op c e v s).jtag = s.jtag := by
  unfold bcRow
  split
  · exact windowRow_stays _ _ _ fun nx h => bcCommand_stays _ _ _ s nx h
  · exact ⟨rfl, rfl, rfl⟩


theorem execLdkey_stays (c : Nat) (e : Nat) (v : W64) (s : State) (nx : State) (h : execLdkey c e v s = .next nx) :
    nx.pending = s.pending ∧ nx.dev = s.dev ∧ nx.jtag = s.jtag := by
  unfold execLdkey at h
  cases h
  simp

theorem execClrkey_stays (c : Nat) (e : Nat) (v : W64) (s : State) (nx : State) (h : execClrkey c e v s = .next nx) :
    nx.pending = s.pending ∧ nx.dev = s.dev ∧ nx.jtag = s.jtag := by
  unfold execClrkey at h
  cases h
  simp

theorem execDerive_stays (c : Nat) (e : Nat) (v : W64) (s : State) (nx : State) (h : execDerive c e v s = .next nx) :
    nx.pending = s.pending ∧ nx.dev = s.dev ∧ nx.jtag = s.jtag := by
  unfold execDerive at h
  cases h
  simp

theorem execEnc_stays (c : Nat) (e : Nat) (v : W64) (s : State) (nx : State) (h : execEnc c e v s = .next nx) :
    nx.pending = s.pending ∧ nx.dev = s.dev ∧ nx.jtag = s.jtag := by
  unfold execEnc at h
  cases h
  simp

theorem execDec_stays (c : Nat) (e : Nat) (v : W64) (s : State) (nx : State) (h : execDec c e v s = .next nx) :
    nx.pending = s.pending ∧ nx.dev = s.dev ∧ nx.jtag = s.jtag := by
  unfold execDec at h
  cases h
  simp

theorem execBcMac_stays (c : Nat) (e : Nat) (v : W64) (s : State) (nx : State) (h : execBcMac c e v s = .next nx) :
    nx.pending = s.pending ∧ nx.dev = s.dev ∧ nx.jtag = s.jtag := by
  unfold execBcMac at h
  cases h
  simp

theorem execPindec_stays (c : Nat) (e : Nat) (v : W64) (s : State) (nx : State) (h : execPindec c e v s = .next nx) :
    nx.pending = s.pending ∧ nx.dev = s.dev ∧ nx.jtag = s.jtag := by
  unfold execPindec at h
  cases h
  simp

theorem execPinfmt_stays (c : Nat) (e : Nat) (v : W64) (s : State) (nx : State) (h : execPinfmt c e v s = .next nx) :
    nx.pending = s.pending ∧ nx.dev = s.dev ∧ nx.jtag = s.jtag := by
  unfold execPinfmt at h
  cases h
  simp

theorem execPinenc_stays (c : Nat) (e : Nat) (v : W64) (s : State) (nx : State) (h : execPinenc c e v s = .next nx) :
    nx.pending = s.pending ∧ nx.dev = s.dev ∧ nx.jtag = s.jtag := by
  unfold execPinenc at h
  cases h
  simp

theorem execWrap_stays (c : Nat) (e : Nat) (v : W64) (s : State) (nx : State) (h : execWrap c e v s = .next nx) :
    nx.pending = s.pending ∧ nx.dev = s.dev ∧ nx.jtag = s.jtag := by
  unfold execWrap at h
  cases h
  simp

theorem execUnwrap_stays (c : Nat) (e : Nat) (v : W64) (s : State) (nx : State) (h : execUnwrap c e v s = .next nx) :
    nx.pending = s.pending ∧ nx.dev = s.dev ∧ nx.jtag = s.jtag := by
  unfold execUnwrap at h
  cases h
  simp

theorem bcPerform_stays (c : Nat) (e : Nat) (q : BcCmd) (s : State) (nx : State) (h : bcPerform c e q s = some nx) :
    nx.pending = s.pending ∧ nx.dev = s.dev ∧ nx.jtag = s.jtag := by
  unfold bcPerform at h
  (repeat' (split at h)) <;> first | contradiction | (cases h; simp)

theorem execBcCmdDone_stays (c : Nat) (e : Nat) (s : State) (nx : State) (h : execBcCmdDone c e s = .next nx) :
    nx.pending = s.pending ∧ nx.dev = s.dev ∧ nx.jtag = s.jtag := by
  unfold execBcCmdDone at h
  cases h
  refine unlessLocked_stays _ _ fun s => ?_
  split
  · exact ⟨rfl, rfl, rfl⟩
  · split
    · exact ⟨rfl, rfl, rfl⟩
    · rename_i q
      split at q
      · have q' := bcPerform_stays _ _ _ _ _ q
        simp [q']
      · contradiction

/-! ### Vector -/

@[simp] theorem setVec_stays (c : Nat) (u : VecUnit) (s : State) :
    (setVec c u s).pending = s.pending ∧ (setVec c u s).dev = s.dev ∧ (setVec c u s).jtag = s.jtag := by
  unfold setVec
  simp

theorem retV_stays (c : Nat) (x : Core) (s : State) (u : VecUnit) (nx : State) (npc : W64) (h : retV c x s u = .ok nx npc) :
    nx.pending = s.pending ∧ nx.dev = s.dev ∧ nx.jtag = s.jtag := by
  unfold retV at h
  cases h; simp

theorem IRes.ite_ok {p : Prop} [Decidable p] {a b : IRes} {nx : State} {npc : W64} (h : (if p then a else b) = .ok nx npc) :
    a = .ok nx npc ∨ b = .ok nx npc := by
  split at h
  · exact .inl h
  · exact .inr h

theorem bodyVecAlu_stays (c : Nat) (w : W32) (x : Core) (s : State) (nx : State) (npc : W64) (h : bodyVecAlu c w x s = .ok nx npc) :
    nx.pending = s.pending ∧ nx.dev = s.dev ∧ nx.jtag = s.jtag := by
  unfold bodyVecAlu at h
  dsimp only at h
  repeat' (replace h := IRes.ite_ok h; obtain h | h := h)
  all_goals first
    | contradiction
    | exact retV_stays _ _ _ _ _ _ h
    | exact retG_stays _ _ _ _ _ _ _ _ h
    | (split at h
       all_goals repeat' (replace h := IRes.ite_ok h; obtain h | h := h)
       all_goals first
         | contradiction
         | exact retV_stays _ _ _ _ _ _ h
         | exact retG_stays _ _ _ _ _ _ _ _ h)


theorem bodyVecMod_stays (c : Nat) (w : W32) (x : Core) (s : State) (nx : State) (npc : W64) (h : bodyVecMod c w x s = .ok nx npc) :
    nx.pending = s.pending ∧ nx.dev = s.dev ∧ nx.jtag = s.jtag := by
  unfold bodyVecMod at h
  dsimp only at h
  repeat' (replace h := IRes.ite_ok h; obtain h | h := h)
  all_goals first
    | contradiction
    | exact retV_stays _ _ _ _ _ _ h
    | exact retG_stays _ _ _ _ _ _ _ _ h
    | (split at h
       all_goals repeat' (replace h := IRes.ite_ok h; obtain h | h := h)
       all_goals first
         | contradiction
         | exact retV_stays _ _ _ _ _ _ h
         | exact retG_stays _ _ _ _ _ _ _ _ h
         | (split at h <;> first | contradiction | exact retV_stays _ _ _ _ _ _ h))


theorem bodyVecReduce_stays (c : Nat) (w : W32) (x : Core) (s : State) (nx : State) (npc : W64) (h : bodyVecReduce c w x s = .ok nx npc) :
    nx.pending = s.pending ∧ nx.dev = s.dev ∧ nx.jtag = s.jtag := by
  unfold bodyVecReduce at h
  dsimp only at h
  repeat' (replace h := IRes.ite_ok h; obtain h | h := h)
  all_goals first
    | contradiction
    | exact retV_stays _ _ _ _ _ _ h
    | exact retG_stays _ _ _ _ _ _ _ _ h
    | (split at h
       all_goals repeat' (replace h := IRes.ite_ok h; obtain h | h := h)
       all_goals first
         | contradiction
         | exact retV_stays _ _ _ _ _ _ h
         | exact retG_stays _ _ _ _ _ _ _ _ h)


theorem bodyVecGf_stays (c : Nat) (w : W32) (x : Core) (s : State) (nx : State) (npc : W64) (h : bodyVecGf c w x s = .ok nx npc) :
    nx.pending = s.pending ∧ nx.dev = s.dev ∧ nx.jtag = s.jtag := by
  unfold bodyVecGf at h
  dsimp only at h
  repeat' (replace h := IRes.ite_ok h; obtain h | h := h)
  all_goals first
    | contradiction
    | exact retV_stays _ _ _ _ _ _ h
    | exact retG_stays _ _ _ _ _ _ _ _ h
    | (split at h
       all_goals repeat' (replace h := IRes.ite_ok h; obtain h | h := h)
       all_goals first
         | contradiction
         | exact retV_stays _ _ _ _ _ _ h
         | exact retG_stays _ _ _ _ _ _ _ _ h)


theorem bodyVecPred_stays (c : Nat) (w : W32) (x : Core) (s : State) (nx : State) (npc : W64) (h : bodyVecPred c w x s = .ok nx npc) :
    nx.pending = s.pending ∧ nx.dev = s.dev ∧ nx.jtag = s.jtag := by
  unfold bodyVecPred at h
  dsimp only at h
  repeat' (replace h := IRes.ite_ok h; obtain h | h := h)
  all_goals first
    | contradiction
    | exact retG_stays _ _ _ _ _ _ _ _ h
    | exact retV_stays _ _ _ _ _ _ h
    | (split at h <;> first | contradiction | exact retV_stays _ _ _ _ _ _ h)


theorem bodyVfence_stays (w : W32) (x : Core) (s : State) (nx : State) (npc : W64) (h : bodyVfence w x s = .ok nx npc) :
    nx.pending = s.pending ∧ nx.dev = s.dev ∧ nx.jtag = s.jtag := by
  unfold bodyVfence at h
  (repeat' (split at h)) <;> first | contradiction | (cases h; simp)

/-! ### Triples -/

theorem bodyTriple_stays (k : Klass) (c : Nat) (w : W32) (x : Core) (s : State) (nx : State) (npc : W64) (h : bodyTriple k c w x s = .ok nx npc) :
    nx.pending = s.pending ∧ nx.dev = s.dev ∧ nx.jtag = s.jtag := by
  unfold bodyTriple at h
  dsimp only at h
  (repeat' (split at h)) <;> first | contradiction | (cases h; simp)

/-! ### Masking -/

@[simp] theorem setDcl_stays (c : Nat) (d : Dcl) (s : State) :
    (setDcl c d s).pending = s.pending ∧ (setDcl c d s).dev = s.dev ∧ (setDcl c d s).jtag = s.jtag := by
  unfold setDcl
  simp

@[simp] theorem releaseRefused_stays (c : Nat) (t : Ticket) (r : Release) (result : Byte) (s : State) :
    (releaseRefused c t r result s).pending = s.pending ∧
    (releaseRefused c t r result s).dev = s.dev ∧
    (releaseRefused c t r result s).jtag = s.jtag := by
  unfold releaseRefused
  simp

@[simp] theorem releaseCounted_stays (c : Nat) (r : Release) (a : Nat) (s : State) :
    (releaseCounted c r a s).pending = s.pending ∧ (releaseCounted c r a s).dev = s.dev ∧ (releaseCounted c r a s).jtag = s.jtag := by
  unfold releaseCounted
  simp

@[simp] theorem releaseDone_stays (c : Nat) (t : Ticket) (v : W64) (s : State) :
    (releaseDone c t v s).pending = s.pending ∧ (releaseDone c t v s).dev = s.dev ∧ (releaseDone c t v s).jtag = s.jtag := by
  unfold releaseDone
  dsimp only
  refine ⟨?_, ?_, ?_⟩ <;> ((repeat' split) <;> simp)

theorem execDclReleaseDone_stays (c : Nat) (s : State) (nx : State) (h : execDclReleaseDone c s = .next nx) :
    nx.pending = s.pending ∧ nx.dev = s.dev ∧ nx.jtag = s.jtag := by
  unfold execDclReleaseDone at h
  cases h
  refine unlessLocked_stays _ _ fun s => ?_
  refine ⟨?_, ?_, ?_⟩ <;> ((repeat' split) <;> simp)

@[simp] theorem releaseBegins_stays (c : Nat) (v : W64) (s : State) :
    (releaseBegins c v s).pending = s.pending ∧ (releaseBegins c v s).dev = s.dev ∧ (releaseBegins c v s).jtag = s.jtag := by
  unfold releaseBegins
  dsimp only
  refine ⟨?_, ?_, ?_⟩ <;> ((repeat' split) <;> simp)

theorem dclGoWrite_stays (c : Nat) (v : W64) (x : Core) (s : State) (nx : State) (npc : W64) (h : dclGoWrite c v x s = .ok nx npc) :
    nx.pending = s.pending ∧ nx.dev = s.dev ∧ nx.jtag = s.jtag := by
  unfold dclGoWrite at h
  dsimp only at h
  (repeat' (split at h)) <;> first | contradiction | (cases h; simp)

theorem execDclGo_stays (c : Nat) (v : W64) (s : State) (nx : State) (h : execDclGo c v s = .next nx) :
    nx.pending = s.pending ∧ nx.dev = s.dev ∧ nx.jtag = s.jtag := by
  unfold execDclGo at h
  cases h
  split
  · refine issue_stays _ _ _ _ fun x nx e => ?_
    cases q : dclGoWrite c v x s with
    | ok t pc => simp only [q, IRes.left?] at e; cases e; exact dclGoWrite_stays _ _ _ _ _ _ q
    | exc a b => simp [q, IRes.left?] at e
    | stall a => simp [q, IRes.left?] at e
    | micro a b => unfold dclGoWrite at q; dsimp only at q; (repeat' (split at q)) <;> contradiction
    | trapped a b d => unfold dclGoWrite at q; dsimp only at q; (repeat' (split at q)) <;> contradiction
    | held a => unfold dclGoWrite at q; dsimp only at q; (repeat' (split at q)) <;> contradiction
  · exact ⟨rfl, rfl, rfl⟩

@[simp] theorem setStream_stays (r : Nat) (k : Nat) (x : MrgStream) (s : State) :
    (setStream r k x s).pending = s.pending ∧ (setStream r k x s).dev = s.dev ∧ (setStream r k x s).jtag = s.jtag := by
  unfold setStream
  simp

theorem execMrgSeedRequest_stays (r : Nat) (k : Nat) (s : State) (nx : State) (h : execMrgSeedRequest r k s = .next nx) :
    nx.pending = s.pending ∧ nx.dev = s.dev ∧ nx.jtag = s.jtag := by
  unfold execMrgSeedRequest at h
  cases h
  refine unlessLocked_stays _ _ fun s => ?_
  simp

theorem execMrgSeedArrival_stays (r : Nat) (k : Nat) (s : State) (nx : State) (h : execMrgSeedArrival r k s = .next nx) :
    nx.pending = s.pending ∧ nx.dev = s.dev ∧ nx.jtag = s.jtag := by
  unfold execMrgSeedArrival at h
  cases h
  refine unlessLocked_stays _ _ fun s => ?_
  refine ⟨?_, ?_, ?_⟩ <;> ((repeat' split) <;> simp)

theorem execMrgInstanceStop_stays (r : Nat) (k : Nat) (s : State) (nx : State) (h : execMrgInstanceStop r k s = .next nx) :
    nx.pending = s.pending ∧ nx.dev = s.dev ∧ nx.jtag = s.jtag := by
  unfold execMrgInstanceStop at h
  cases h
  refine unlessLocked_stays _ _ fun s => ?_
  simp

theorem execRandomnessWaitNotice_stays (c : Nat) (s : State) (nx : State) (h : execRandomnessWaitNotice c s = .next nx) :
    nx.pending = s.pending ∧ nx.dev = s.dev ∧ nx.jtag = s.jtag := by
  unfold execRandomnessWaitNotice at h
  cases h
  refine unlessLocked_stays _ _ fun s => ?_
  refine ⟨?_, ?_, ?_⟩ <;> ((repeat' split) <;> simp)

/-! ### Maelhoavo -/

theorem claimWrite_stays (c : Nat) (k : Nat) (v : W64) (s : State) (nx : State) (h : claimWrite c k v s = .ok nx) :
    nx.pending = s.pending ∧ nx.dev = s.dev ∧ nx.jtag = s.jtag := by
  unfold claimWrite at h
  dsimp only at h
  (repeat' (split at h)) <;> first | contradiction | (cases h; simp)

theorem execMeClaim_stays (c : Nat) (k : Nat) (v : W64) (s : State) (nx : State) (h : execMeClaim c k v s = .next nx) :
    nx.pending = s.pending ∧ nx.dev = s.dev ∧ nx.jtag = s.jtag := by
  unfold execMeClaim at h
  cases h
  split
  · exact windowRow_stays _ _ _ fun nx h => claimWrite_stays _ _ _ s nx h
  · exact ⟨rfl, rfl, rfl⟩


theorem execMeRelease_stays (c : Nat) (k : Nat) (v : W64) (s : State) (nx : State) (h : execMeRelease c k v s = .next nx) :
    nx.pending = s.pending ∧ nx.dev = s.dev ∧ nx.jtag = s.jtag := by
  unfold execMeRelease at h
  cases h
  split
  · exact windowRow_stays _ _ _ fun nx h => claimWrite_stays _ _ _ s nx h
  · exact ⟨rfl, rfl, rfl⟩


@[simp] theorem claimGrant_stays (r : Nat) (e : Nat) (s : State) :
    (claimGrant r e s).pending = s.pending ∧ (claimGrant r e s).dev = s.dev ∧ (claimGrant r e s).jtag = s.jtag := by
  unfold claimGrant
  dsimp only
  refine ⟨?_, ?_, ?_⟩ <;> ((repeat' split) <;> simp)

theorem execMeClaimGrant_stays (r : Nat) (e : Nat) (s : State) (nx : State) (h : execMeClaimGrant r e s = .next nx) :
    nx.pending = s.pending ∧ nx.dev = s.dev ∧ nx.jtag = s.jtag := by
  unfold execMeClaimGrant at h
  cases h
  refine unlessLocked_stays _ _ fun s => ?_
  simp

theorem execMeScrubDone_stays (r : Nat) (e : Nat) (s : State) (nx : State) (h : execMeScrubDone r e s = .next nx) :
    nx.pending = s.pending ∧ nx.dev = s.dev ∧ nx.jtag = s.jtag := by
  unfold execMeScrubDone at h
  cases h
  refine unlessLocked_stays _ _ fun s => ?_
  dsimp only
  refine ⟨?_, ?_, ?_⟩ <;> ((repeat' split) <;> simp)

@[simp] theorem meServe_stays (r : Nat) (e : Nat) (s : State) :
    (meServe r e s).pending = s.pending ∧ (meServe r e s).dev = s.dev ∧ (meServe r e s).jtag = s.jtag := by
  unfold meServe
  simp

@[simp] theorem meUnitFree_stays (c : Nat) (k : Nat) (s : State) :
    (meUnitFree c k s).pending = s.pending ∧ (meUnitFree c k s).dev = s.dev ∧ (meUnitFree c k s).jtag = s.jtag := by
  unfold meUnitFree
  simp

theorem meCommand_stays (c : Nat) (k : Nat) (v : W64) (s : State) (nx : State) (h : meCommand c k v s = .ok nx) :
    nx.pending = s.pending ∧ nx.dev = s.dev ∧ nx.jtag = s.jtag := by
  unfold meCommand at h
  dsimp only at h
  (repeat' (split at h)) <;> first | contradiction | (cases h; simp)

theorem meWrite_stays (c : Nat) (k : Nat) (off : Nat) (v : W64) (t : Tag) (s : State) (nx : State) (h : meWrite c k off v t s = .ok nx) :
    nx.pending = s.pending ∧ nx.dev = s.dev ∧ nx.jtag = s.jtag := by
  unfold meWrite at h
  dsimp only at h
  (repeat' (split at h)) <;> first | contradiction | (cases h; simp; done) | (simp_all; done) | (have := meCommand_stays (h := by assumption) ..; simp_all; done) | (have := claimWrite_stays (h := by assumption) ..; simp_all; done)

@[simp] theorem meRow_stays (op : Nat) (c : Nat) (k : Nat) (v : W64) (s : State) : (meRow op c k v s).pending = s.pending ∧ (meRow op c k v s).dev = s.dev ∧ (meRow op c k v s).jtag = s.jtag := by
  unfold meRow
  split
  · exact windowRow_stays _ _ _ fun nx h => meCommand_stays _ _ _ s nx h
  · exact ⟨rfl, rfl, rfl⟩


theorem execMeLoad_stays (c : Nat) (k : Nat) (v : W64) (s : State) (nx : State) (h : execMeLoad c k v s = .next nx) :
    nx.pending = s.pending ∧ nx.dev = s.dev ∧ nx.jtag = s.jtag := by
  unfold execMeLoad at h
  cases h
  simp

theorem execMeStore_stays (c : Nat) (k : Nat) (v : W64) (s : State) (nx : State) (h : execMeStore c k v s = .next nx) :
    nx.pending = s.pending ∧ nx.dev = s.dev ∧ nx.jtag = s.jtag := by
  unfold execMeStore at h
  cases h
  simp

theorem execMeZero_stays (c : Nat) (k : Nat) (v : W64) (s : State) (nx : State) (h : execMeZero c k v s = .next nx) :
    nx.pending = s.pending ∧ nx.dev = s.dev ∧ nx.jtag = s.jtag := by
  unfold execMeZero at h
  cases h
  simp

theorem execAclr_stays (c : Nat) (k : Nat) (v : W64) (s : State) (nx : State) (h : execAclr c k v s = .next nx) :
    nx.pending = s.pending ∧ nx.dev = s.dev ∧ nx.jtag = s.jtag := by
  unfold execAclr at h
  cases h
  simp

theorem execAload_stays (c : Nat) (k : Nat) (v : W64) (s : State) (nx : State) (h : execAload c k v s = .next nx) :
    nx.pending = s.pending ∧ nx.dev = s.dev ∧ nx.jtag = s.jtag := by
  unfold execAload at h
  cases h
  simp

theorem execAstore_stays (c : Nat) (k : Nat) (v : W64) (s : State) (nx : State) (h : execAstore c k v s = .next nx) :
    nx.pending = s.pending ∧ nx.dev = s.dev ∧ nx.jtag = s.jtag := by
  unfold execAstore at h
  cases h
  simp

theorem execAshr_stays (c : Nat) (k : Nat) (v : W64) (s : State) (nx : State) (h : execAshr c k v s = .next nx) :
    nx.pending = s.pending ∧ nx.dev = s.dev ∧ nx.jtag = s.jtag := by
  unfold execAshr at h
  cases h
  simp

theorem execMeMac_stays (c : Nat) (k : Nat) (v : W64) (s : State) (nx : State) (h : execMeMac c k v s = .next nx) :
    nx.pending = s.pending ∧ nx.dev = s.dev ∧ nx.jtag = s.jtag := by
  unfold execMeMac at h
  cases h
  simp

theorem execMacl_stays (c : Nat) (k : Nat) (v : W64) (s : State) (nx : State) (h : execMacl c k v s = .next nx) :
    nx.pending = s.pending ∧ nx.dev = s.dev ∧ nx.jtag = s.jtag := by
  unfold execMacl at h
  cases h
  simp

theorem execMrow_stays (c : Nat) (k : Nat) (v : W64) (s : State) (nx : State) (h : execMrow c k v s = .next nx) :
    nx.pending = s.pending ∧ nx.dev = s.dev ∧ nx.jtag = s.jtag := by
  unfold execMrow at h
  cases h
  simp

theorem mePerform_stays (c : Nat) (k : Nat) (q : MeCmd) (s : State) (nx : State) (h : mePerform c k q s = some nx) :
    nx.pending = s.pending ∧ nx.dev = s.dev ∧ nx.jtag = s.jtag := by
  unfold mePerform at h
  dsimp only at h
  split at h
  · split at h
    · obtain ⟨b, -, rfl⟩ := Option.map_eq_some_iff.mp h
      simp
    · split at h <;> (cases h; simp)
  · split at h
    · split at h
      · cases h; simp
      · split at h
        · cases h; simp
        · contradiction
    · split at h <;> (cases h; simp)
  · cases h; simp


@[simp] theorem meHeld_stays (c : Nat) (k : Nat) (q : MeCmd) (s : State) :
    (meHeld c k q s).pending = s.pending ∧ (meHeld c k q s).dev = s.dev ∧ (meHeld c k q s).jtag = s.jtag := by
  unfold meHeld
  refine ⟨?_, ?_, ?_⟩ <;> ((repeat' split) <;> simp)

@[simp] theorem meCmdDone_stays (c : Nat) (k : Nat) (s : State) :
    (meCmdDone c k s).pending = s.pending ∧ (meCmdDone c k s).dev = s.dev ∧ (meCmdDone c k s).jtag = s.jtag := by
  unfold meCmdDone
  dsimp only
  refine ⟨?_, ?_, ?_⟩ <;> ((repeat' split) <;> first | (simp; done) | (simp_all; done) | (have := mePerform_stays (h := by assumption) ..; simp_all; done))

theorem execMeCmdDone_stays (c : Nat) (k : Nat) (s : State) (nx : State) (h : execMeCmdDone c k s = .next nx) :
    nx.pending = s.pending ∧ nx.dev = s.dev ∧ nx.jtag = s.jtag := by
  unfold execMeCmdDone at h
  cases h
  refine unlessLocked_stays _ _ fun s => ?_
  simp

/-! ### Transfers -/

@[simp] theorem setDma_stays (c : Nat) (d : Dma) (s : State) :
    (setDma c d s).pending = s.pending ∧ (setDma c d s).dev = s.dev ∧ (setDma c d s).jtag = s.jtag := by
  unfold setDma
  simp

@[simp] theorem dmaCount_stays (c : Nat) (s : State) :
    (dmaCount c s).pending = s.pending ∧ (dmaCount c s).dev = s.dev ∧ (dmaCount c s).jtag = s.jtag := by
  unfold dmaCount
  simp

theorem dmaCommand_stays (c : Nat) (v : W64) (s : State) (nx : State) (h : dmaCommand c v s = .ok nx) :
    nx.pending = s.pending ∧ nx.dev = s.dev ∧ nx.jtag = s.jtag := by
  unfold dmaCommand at h
  dsimp only at h
  (repeat' (split at h)) <;> first | contradiction | (cases h; simp)

theorem dmaWrite_stays (c : Nat) (off : Nat) (v : W64) (t : Tag) (s : State) (nx : State) (h : dmaWrite c off v t s = .ok nx) :
    nx.pending = s.pending ∧ nx.dev = s.dev ∧ nx.jtag = s.jtag := by
  unfold dmaWrite at h
  (repeat' (split at h)) <;> first | contradiction | (cases h; simp; done) | (simp_all; done) | (have := dmaCommand_stays (h := by assumption) ..; simp_all; done)

theorem execDmaStart_stays (c : Nat) (v : W64) (s : State) (nx : State) (h : execDmaStart c v s = .next nx) :
    nx.pending = s.pending ∧ nx.dev = s.dev ∧ nx.jtag = s.jtag := by
  unfold execDmaStart at h
  cases h
  exact windowRow_stays _ _ _ fun nx h => dmaCommand_stays _ _ s nx h


theorem dmaPerform_stays (c : Nat) (t : Ticket) (x : DmaXfer) (s : State) :
    (dmaPerform c t x s).1.pending = s.pending ∧ (dmaPerform c t x s).1.dev = s.dev ∧ (dmaPerform c t x s).1.jtag = s.jtag := by
  unfold dmaPerform
  dsimp only
  split
  · exact ⟨rfl, rfl, rfl⟩
  · split
    · split <;> (split <;> simp)
    · split
      · split <;> simp
      · split <;> simp


theorem execDmaDone_stays (c : Nat) (s : State) (nx : State) (h : execDmaDone c s = .next nx) :
    nx.pending = s.pending ∧ nx.dev = s.dev ∧ nx.jtag = s.jtag := by
  unfold execDmaDone at h
  cases h
  refine unlessLocked_stays _ _ fun s => ?_
  split
  · split
    · dsimp only
      split <;> simp [dmaPerform_stays]
    · exact ⟨rfl, rfl, rfl⟩
  · exact ⟨rfl, rfl, rfl⟩


@[simp] theorem inputReadFails_stays (c : Nat) (e : HostEnd) (s : State) :
    (inputReadFails c e s).pending = s.pending ∧ (inputReadFails c e s).dev = s.dev ∧ (inputReadFails c e s).jtag = s.jtag := by
  unfold inputReadFails
  refine ⟨?_, ?_, ?_⟩ <;> ((repeat' split) <;> simp)

@[simp] theorem inputRead_stays (c : Nat) (window : Option Nat) (e : HostEnd) (data : List Byte) (s : State) :
    (inputRead c window e data s).pending = s.pending ∧
    (inputRead c window e data s).dev = s.dev ∧
    (inputRead c window e data s).jtag = s.jtag := by
  unfold inputRead
  refine ⟨?_, ?_, ?_⟩ <;> ((repeat' split) <;> simp)

@[simp] theorem hostRead_stays (ref : ReadRef) (e : HostEnd) (data : List Byte) (s : State) :
    (hostRead ref e data s).pending = s.pending ∧ (hostRead ref e data s).dev = s.dev ∧ (hostRead ref e data s).jtag = s.jtag := by
  unfold hostRead
  refine ⟨?_, ?_, ?_⟩ <;> ((repeat' split) <;> simp)

theorem execHostReadCompletion_stays (ref : ReadRef) (failed : List HostEnd) (data : List Byte) (s : State) (nx : State) (h : execHostReadCompletion ref failed data s = .next nx) :
    nx.pending = s.pending ∧ nx.dev = s.dev ∧ nx.jtag = s.jtag := by
  unfold execHostReadCompletion at h
  cases h
  refine unlessLocked_stays _ _ fun s => ?_
  simp

theorem execCompletionTimeout_stays (ref : ReadRef) (late : TimedOut) (s : State) (nx : State) (h : execCompletionTimeout ref late s = .next nx) :
    nx.pending = s.pending ∧ nx.dev = s.dev ∧ nx.jtag = s.jtag := by
  unfold execCompletionTimeout at h
  cases h
  refine unlessLocked_stays _ _ fun s => ?_
  simp

/-! ### Csr -/

theorem windowWrite_stays (c : Nat) (k : Nat) (off : Nat) (v : W64) (t : Tag) (s : State) (nx : State) (h : windowWrite c k off v t s = .ok nx) :
    nx.pending = s.pending ∧ nx.dev = s.dev ∧ nx.jtag = s.jtag := by
  unfold windowWrite at h
  (repeat' (split at h)) <;> first | contradiction | (cases h; simp; done) | (simp_all; done) | (have := meWrite_stays (h := by assumption) ..; simp_all; done) | (have := heWrite_stays (h := by assumption) ..; simp_all; done) | (have := bcWrite_stays (h := by assumption) ..; simp_all; done) | (have := dmaWrite_stays (h := by assumption) ..; simp_all; done)

theorem csrPut_stays (c : Nat) (n : Nat) (v : W64) (t : Tag) (x : Core) (s : State) (nx : State) (h : csrPut c n v t x s = some nx) :
    nx.pending = s.pending ∧ nx.dev = s.dev ∧ nx.jtag = s.jtag := by
  unfold csrPut at h
  dsimp only at h
  (repeat' (split at h)) <;> first | contradiction | (cases h; simp)

theorem csrClear_stays (c : Nat) (n : Nat) (v : W64) (x : Core) (s : State) (nx : State) (h : csrClear c n v x s = some nx) :
    nx.pending = s.pending ∧ nx.dev = s.dev ∧ nx.jtag = s.jtag := by
  unfold csrClear at h
  (repeat' (split at h)) <;> first | contradiction | (cases h; simp)

theorem csrWrite_stays (k : CsrOp) (c : Nat) (n : Nat) (v : W64) (t : Tag) (x : Core) (s : State) (nx : State) (npc : W64) (h : csrWrite k c n v t x s = .ok nx npc) :
    nx.pending = s.pending ∧ nx.dev = s.dev ∧ nx.jtag = s.jtag := by
  unfold csrWrite at h
  dsimp only at h
  (repeat' (split at h)) <;> first | contradiction | (cases h; simp; done) | (simp_all; done) | (have := dclGoWrite_stays (h := by assumption) ..; simp_all; done) | (have := csrPut_stays (h := by assumption) ..; simp_all; done) | (have := csrClear_stays (h := by assumption) ..; simp_all; done)

theorem bodyCsrr_stays (c : Nat) (w : W32) (x : Core) (s : State) (nx : State) (npc : W64) (h : bodyCsrr c w x s = .ok nx npc) :
    nx.pending = s.pending ∧ nx.dev = s.dev ∧ nx.jtag = s.jtag := by
  unfold bodyCsrr at h
  (repeat' (split at h)) <;> first | contradiction | (cases h; simp)

theorem bodyCsrWrite_stays (k : CsrOp) (c : Nat) (w : W32) (x : Core) (s : State) (nx : State) (npc : W64) (h : bodyCsrWrite k c w x s = .ok nx npc) :
    nx.pending = s.pending ∧ nx.dev = s.dev ∧ nx.jtag = s.jtag := by
  unfold bodyCsrWrite at h
  (repeat' (split at h)) <;> first | contradiction | exact csrWrite_stays (h := h) ..

end Sys2Proof.Machine
end

