-- ==== Sys2Proof/Laws/Stays/System.lean ====
section
/-!
SUPPORT. What leaves the queue, the part and the test access port alone: the operations of network time, faults, rings, resets, life cycle, boot and clocks.
-/
namespace Sys2Proof.Machine

open Sys2Proof

/-! ### NetTime -/

@[simp] theorem setNtFine_stays (n : Nat) (s : State) :
    (setNtFine n s).pending = s.pending ∧ (setNtFine n s).dev = s.dev ∧ (setNtFine n s).jtag = s.jtag := by
  unfold setNtFine
  simp

@[simp] theorem ntAdvance_stays (s : State) :
    (ntAdvance s).pending = s.pending ∧ (ntAdvance s).dev = s.dev ∧ (ntAdvance s).jtag = s.jtag := by
  unfold ntAdvance
  simp

@[simp] theorem trimTrack_stays (was : Nat) (s : State) :
    (trimTrack was s).pending = s.pending ∧ (trimTrack was s).dev = s.dev ∧ (trimTrack was s).jtag = s.jtag := by
  unfold trimTrack
  simp

@[simp] theorem holdoverEntry_stays (s : State) :
    (holdoverEntry s).pending = s.pending ∧ (holdoverEntry s).dev = s.dev ∧ (holdoverEntry s).jtag = s.jtag := by
  unfold holdoverEntry
  simp

@[simp] theorem enterHoldover_stays (s : State) :
    (enterHoldover s).pending = s.pending ∧ (enterHoldover s).dev = s.dev ∧ (enterHoldover s).jtag = s.jtag := by
  unfold enterHoldover
  simp

@[simp] theorem markStepped_stays (s : State) :
    (markStepped s).pending = s.pending ∧ (markStepped s).dev = s.dev ∧ (markStepped s).jtag = s.jtag := by
  unfold markStepped
  simp

@[simp] theorem ntStepBy_stays (d : Nat) (s : State) :
    (ntStepBy d s).pending = s.pending ∧ (ntStepBy d s).dev = s.dev ∧ (ntStepBy d s).jtag = s.jtag := by
  unfold ntStepBy
  simp

@[simp] theorem correct_stays (d : Int) (s : State) :
    (correct d s).pending = s.pending ∧ (correct d s).dev = s.dev ∧ (correct d s).jtag = s.jtag := by
  unfold correct
  simp

@[simp] theorem ntDue_stays (c : NtCorrection) (s : State) :
    (ntDue c s).pending = s.pending ∧ (ntDue c s).dev = s.dev ∧ (ntDue c s).jtag = s.jtag := by
  unfold ntDue
  simp

@[simp] theorem ntCorrected_stays (c : NtCorrection) (s : State) :
    (ntCorrected c s).pending = s.pending ∧ (ntCorrected c s).dev = s.dev ∧ (ntCorrected c s).jtag = s.jtag := by
  unfold ntCorrected
  refine ⟨?_, ?_, ?_⟩ <;> ((repeat' split) <;> simp)

@[simp] theorem ntClose_stays (s : State) :
    (ntClose s).pending = s.pending ∧ (ntClose s).dev = s.dev ∧ (ntClose s).jtag = s.jtag := by
  unfold ntClose
  simp

@[simp] theorem ntSet_stays (data : W32) (s : State) :
    (ntSet data s).pending = s.pending ∧ (ntSet data s).dev = s.dev ∧ (ntSet data s).jtag = s.jtag := by
  unfold ntSet
  simp

@[simp] theorem rmCtrlWrite_stays (data : W32) (s : State) :
    (rmCtrlWrite data s).pending = s.pending ∧ (rmCtrlWrite data s).dev = s.dev ∧ (rmCtrlWrite data s).jtag = s.jtag := by
  unfold rmCtrlWrite
  simp

theorem execSourceSelect_stays (data : W32) (s : State) (nx : State) (h : execSourceSelect data s = .next nx) :
    nx.pending = s.pending ∧ nx.dev = s.dev ∧ nx.jtag = s.jtag := by
  unfold execSourceSelect at h
  cases h
  refine hostWrite_stays _ _ fun s => ?_
  simp

theorem execNtSet_stays (data : W32) (s : State) (nx : State) (h : execNtSet data s = .next nx) :
    nx.pending = s.pending ∧ nx.dev = s.dev ∧ nx.jtag = s.jtag := by
  unfold execNtSet at h
  cases h
  refine hostWrite_stays _ _ fun s => ?_
  simp

theorem execApply_stays (s : State) (nx : State) (h : execApply s = .next nx) :
    nx.pending = s.pending ∧ nx.dev = s.dev ∧ nx.jtag = s.jtag := by
  unfold execApply at h
  cases h
  simp

theorem execSlewDone_stays (s : State) (nx : State) (h : execSlewDone s = .next nx) :
    nx.pending = s.pending ∧ nx.dev = s.dev ∧ nx.jtag = s.jtag := by
  unfold execSlewDone at h
  cases h
  simp

@[simp] theorem ppsServo_stays (s : State) :
    (ppsServo s).pending = s.pending ∧ (ppsServo s).dev = s.dev ∧ (ppsServo s).jtag = s.jtag := by
  unfold ppsServo
  simp

theorem execPpsEdge_stays (s : State) (nx : State) (h : execPpsEdge s = .next nx) :
    nx.pending = s.pending ∧ nx.dev = s.dev ∧ nx.jtag = s.jtag := by
  unfold execPpsEdge at h
  cases h
  simp

theorem execHoldoverTimeout_stays (s : State) (nx : State) (h : execHoldoverTimeout s = .next nx) :
    nx.pending = s.pending ∧ nx.dev = s.dev ∧ nx.jtag = s.jtag := by
  unfold execHoldoverTimeout at h
  cases h
  simp

/-! ### Schedule -/

@[simp] theorem setSched_stays (k : Nat) (x : Sched) (s : State) :
    (setSched k x s).pending = s.pending ∧ (setSched k x s).dev = s.dev ∧ (setSched k x s).jtag = s.jtag := by
  unfold setSched
  simp

@[simp] theorem schedCtrlWrite_stays (k : Nat) (data : W32) (s : State) :
    (schedCtrlWrite k data s).pending = s.pending ∧ (schedCtrlWrite k data s).dev = s.dev ∧ (schedCtrlWrite k data s).jtag = s.jtag := by
  unfold schedCtrlWrite
  simp

theorem execScheduleEntryWrite_stays (k : Nat) (data : W32) (s : State) (nx : State) (h : execScheduleEntryWrite k data s = .next nx) :
    nx.pending = s.pending ∧ nx.dev = s.dev ∧ nx.jtag = s.jtag := by
  unfold execScheduleEntryWrite at h
  cases h
  refine hostWrite_stays _ _ fun s => ?_
  simp

@[simp] theorem wakeAction_stays (k : Nat) (iid : Nat) (s : State) :
    (wakeAction k iid s).pending = s.pending ∧ (wakeAction k iid s).dev = s.dev ∧ (wakeAction k iid s).jtag = s.jtag := by
  unfold wakeAction
  simp

@[simp] theorem schedAction_stays (k : Nat) (x : Sched) (s : State) :
    (schedAction k x s).pending = s.pending ∧ (schedAction k x s).dev = s.dev ∧ (schedAction k x s).jtag = s.jtag := by
  unfold schedAction
  refine ⟨?_, ?_, ?_⟩ <;> ((repeat' split) <;> simp)

@[simp] theorem schedFire_stays (k : Nat) (s : State) :
    (schedFire k s).pending = s.pending ∧ (schedFire k s).dev = s.dev ∧ (schedFire k s).jtag = s.jtag := by
  unfold schedFire
  simp

theorem execScheduleFire_stays (k : Nat) (s : State) (nx : State) (h : execScheduleFire k s = .next nx) :
    nx.pending = s.pending ∧ nx.dev = s.dev ∧ nx.jtag = s.jtag := by
  unfold execScheduleFire at h
  cases h
  refine unlessLocked_stays _ _ fun s => ?_
  simp

theorem execPulseEnd_stays (k : Nat) (s : State) (nx : State) (h : execPulseEnd k s = .next nx) :
    nx.pending = s.pending ∧ nx.dev = s.dev ∧ nx.jtag = s.jtag := by
  unfold execPulseEnd at h
  cases h
  refine unlessLocked_stays _ _ fun s => ?_
  simp

/-! ### Faults -/

theorem execFaultEvent_stays (ev : Event) (s : State) (nx : State) (h : execFaultEvent ev s = .next nx) :
    nx.pending = s.pending ∧ nx.dev = s.dev ∧ nx.jtag = s.jtag := by
  unfold execFaultEvent at h
  cases h
  simp

@[simp] theorem enterSafetyNet_stays (source : Byte) (s : State) :
    (enterSafetyNet source s).pending = s.pending ∧ (enterSafetyNet source s).dev = s.dev ∧ (enterSafetyNet source s).jtag = s.jtag := by
  unfold enterSafetyNet
  simp

@[simp] theorem countF1_stays (ev : Event) (s : State) :
    (countF1 ev s).pending = s.pending ∧ (countF1 ev s).dev = s.dev ∧ (countF1 ev s).jtag = s.jtag := by
  unfold countF1
  refine ⟨?_, ?_, ?_⟩ <;> ((repeat' split) <;> simp)

@[simp] theorem classAction_stays (w : Waiting) (s : State) :
    (classAction w s).pending = s.pending ∧ (classAction w s).dev = s.dev ∧ (classAction w s).jtag = s.jtag := by
  unfold classAction
  refine ⟨?_, ?_, ?_⟩ <;> ((repeat' split) <;> simp)

@[simp] theorem admitHeld_stays (s : State) :
    (admitHeld s).pending = s.pending ∧ (admitHeld s).dev = s.dev ∧ (admitHeld s).jtag = s.jtag := by
  unfold admitHeld
  refine ⟨?_, ?_, ?_⟩ <;> ((repeat' split) <;> simp)

theorem execFaultRecordWrite_stays (s : State) (nx : State) (h : execFaultRecordWrite s = .next nx) :
    nx.pending = s.pending ∧ nx.dev = s.dev ∧ nx.jtag = s.jtag := by
  unfold execFaultRecordWrite at h
  cases h
  refine unlessLocked_stays _ _ fun s => ?_
  refine ⟨?_, ?_, ?_⟩ <;> ((repeat' split) <;> simp)

@[simp] theorem snetWrite_stays (v : W64) (s : State) :
    (snetWrite v s).pending = s.pending ∧ (snetWrite v s).dev = s.dev ∧ (snetWrite v s).jtag = s.jtag := by
  unfold snetWrite
  simp

theorem execSnetNow_stays (s : State) (nx : State) (h : execSnetNow s = .next nx) :
    nx.pending = s.pending ∧ nx.dev = s.dev ∧ nx.jtag = s.jtag := by
  unfold execSnetNow at h
  cases h
  refine hostWrite_stays _ _ fun s => ?_
  simp

theorem execFcModeWrite_stays (data : W32) (s : State) (nx : State) (h : execFcModeWrite data s = .next nx) :
    nx.pending = s.pending ∧ nx.dev = s.dev ∧ nx.jtag = s.jtag := by
  unfold execFcModeWrite at h
  cases h
  refine hostWrite_stays _ _ fun s => ?_
  refine ⟨?_, ?_, ?_⟩ <;> ((repeat' split) <;> simp)

theorem execFcStickyClear_stays (k : Nat) (data : W32) (s : State) (nx : State) (h : execFcStickyClear k data s = .next nx) :
    nx.pending = s.pending ∧ nx.dev = s.dev ∧ nx.jtag = s.jtag := by
  unfold execFcStickyClear at h
  cases h
  refine hostWrite_stays _ _ fun s => ?_
  simp

@[simp] theorem fcPop_stays (s : State) :
    (fcPop s).pending = s.pending ∧ (fcPop s).dev = s.dev ∧ (fcPop s).jtag = s.jtag := by
  unfold fcPop
  refine ⟨?_, ?_, ?_⟩ <;> ((repeat' split) <;> simp)

theorem execPop_stays (s : State) (nx : State) (h : execPop s = .next nx) :
    nx.pending = s.pending ∧ nx.dev = s.dev ∧ nx.jtag = s.jtag := by
  unfold execPop at h
  cases h
  refine hostWrite_stays _ _ fun s => ?_
  simp

theorem execClear_stays (s : State) (nx : State) (h : execClear s = .next nx) :
    nx.pending = s.pending ∧ nx.dev = s.dev ∧ nx.jtag = s.jtag := by
  unfold execClear at h
  cases h
  refine hostWrite_stays _ _ fun s => ?_
  simp

theorem execFcRetire_stays (u : Half) (s : State) (nx : State) (h : execFcRetire u s = .next nx) :
    nx.pending = s.pending ∧ nx.dev = s.dev ∧ nx.jtag = s.jtag := by
  unfold execFcRetire at h
  cases h
  refine hostWrite_stays _ _ fun s => ?_
  simp

theorem execRetireWindowReset_stays (s : State) (nx : State) (h : execRetireWindowReset s = .next nx) :
    nx.pending = s.pending ∧ nx.dev = s.dev ∧ nx.jtag = s.jtag := by
  unfold execRetireWindowReset at h
  cases h
  refine unlessLocked_stays _ _ fun s => ?_
  simp

theorem execFaultInject_stays (s : State) (nx : State) (h : execFaultInject s = .next nx) :
    nx.pending = s.pending ∧ nx.dev = s.dev ∧ nx.jtag = s.jtag := by
  unfold execFaultInject at h
  cases h
  refine hostWrite_stays _ _ fun s => ?_
  simp

@[simp] theorem takeInjection_stays (s : State) :
    (takeInjection s).pending = s.pending ∧ (takeInjection s).dev = s.dev ∧ (takeInjection s).jtag = s.jtag := by
  unfold takeInjection
  refine ⟨?_, ?_, ?_⟩ <;> ((repeat' split) <;> simp)

theorem execCollectorParityError_stays (off : W64) (shadowFails : Bool) (s : State) (nx : State) (h : execCollectorParityError off shadowFails s = .next nx) :
    nx.pending = s.pending ∧ nx.dev = s.dev ∧ nx.jtag = s.jtag := by
  unfold execCollectorParityError at h
  cases h
  simp

theorem execLockstepMismatch_stays (pc0 : W64) (pc1 : W64) (s : State) (nx : State) (h : execLockstepMismatch pc0 pc1 s = .next nx) :
    nx.pending = s.pending ∧ nx.dev = s.dev ∧ nx.jtag = s.jtag := by
  unfold execLockstepMismatch at h
  cases h
  refine unlessLocked_stays _ _ fun s => ?_
  simp

/-! ### Rings -/

@[simp] theorem storeAct_stays (a : Act) (r : Nat) (s : State) :
    (storeAct a r s).pending = s.pending ∧ (storeAct a r s).dev = s.dev ∧ (storeAct a r s).jtag = s.jtag := by
  unfold storeAct
  simp

@[simp] theorem fillStore_stays (r : Nat) (s : State) :
    (fillStore r s).pending = s.pending ∧ (fillStore r s).dev = s.dev ∧ (fillStore r s).jtag = s.jtag := by
  unfold fillStore
  simp

@[simp] theorem releaseRing_stays (r : Nat) (s : State) :
    (releaseRing r s).pending = s.pending ∧ (releaseRing r s).dev = s.dev ∧ (releaseRing r s).jtag = s.jtag := by
  unfold releaseRing
  simp

@[simp] theorem unretireRing_stays (r : Nat) (s : State) :
    (unretireRing r s).pending = s.pending ∧ (unretireRing r s).dev = s.dev ∧ (unretireRing r s).jtag = s.jtag := by
  unfold unretireRing
  simp

@[simp] theorem holdRing_stays (r : Nat) (s : State) :
    (holdRing r s).pending = s.pending ∧ (holdRing r s).dev = s.dev ∧ (holdRing r s).jtag = s.jtag := by
  unfold holdRing
  simp

theorem execRingGo_stays (r : Nat) (s : State) (nx : State) (h : execRingGo r s = .next nx) :
    nx.pending = s.pending ∧ nx.dev = s.dev ∧ nx.jtag = s.jtag := by
  unfold execRingGo at h
  cases h
  refine hostWrite_stays _ _ fun s => ?_
  simp

/-! ### ActStore -/

theorem installAct_stays (h : ActHeader) (iid : Option Nat) (code : List Byte) (wish : Nat) (s : State) (nx : State)
    (e : installAct h iid code wish s = some nx) : nx.pending = s.pending ∧ nx.dev = s.dev ∧ nx.jtag = s.jtag := by
  unfold installAct at e
  split at e
  · contradiction
  · obtain ⟨off, -, rfl⟩ := Option.map_eq_some_iff.mp e
    simp


@[simp] theorem actLoadGo_stays (v : W64) (s : State) :
    (actLoadGo v s).pending = s.pending ∧ (actLoadGo v s).dev = s.dev ∧ (actLoadGo v s).jtag = s.jtag := by
  unfold actLoadGo
  simp

theorem execActLoad_stays (s : State) (nx : State) (h : execActLoad s = .next nx) :
    nx.pending = s.pending ∧ nx.dev = s.dev ∧ nx.jtag = s.jtag := by
  unfold execActLoad at h
  cases h
  refine hostWrite_stays _ _ fun s => ?_
  simp

@[simp] theorem unloadGo_stays (n : Half) (s : State) :
    (unloadGo n s).pending = s.pending ∧ (unloadGo n s).dev = s.dev ∧ (unloadGo n s).jtag = s.jtag := by
  unfold unloadGo
  simp

theorem execUnload_stays (n : Half) (s : State) (nx : State) (h : execUnload n s = .next nx) :
    nx.pending = s.pending ∧ nx.dev = s.dev ∧ nx.jtag = s.jtag := by
  unfold execUnload at h
  cases h
  refine hostWrite_stays _ _ fun s => ?_
  simp

@[simp] theorem actLoadOutcome_stays (rootPermitted : Bool) (verifies : Bool) (place : Nat) (s : State) :
    (actLoadOutcome rootPermitted verifies place s).2.pending = s.pending ∧
    (actLoadOutcome rootPermitted verifies place s).2.dev = s.dev ∧
    (actLoadOutcome rootPermitted verifies place s).2.jtag = s.jtag := by
  unfold actLoadOutcome
  dsimp only
  generalize (if (actHeader (readWin s.mem.loadWin 0 64)).code + (actHeader (readWin s.mem.loadWin 0 64)).ro ≤ 0x20000 then _ else _ : List Byte) = l
  (repeat' split) <;> first
    | exact ⟨rfl, rfl, rfl⟩
    | exact installAct_stays _ _ _ _ _ _ (by assumption)


theorem execActLoadDone_stays (rootPermitted : Bool) (verifies : Bool) (place : Nat) (s : State) (nx : State) (h : execActLoadDone rootPermitted verifies place s = .next nx) :
    nx.pending = s.pending ∧ nx.dev = s.dev ∧ nx.jtag = s.jtag := by
  unfold execActLoadDone at h
  cases h
  refine unlessLocked_stays _ _ fun s => ?_
  refine ⟨?_, ?_, ?_⟩ <;> ((repeat' split) <;> simp)

@[simp] theorem patchLoadGo_stays (keyFound : Bool) (verifies : Bool) (s : State) :
    (patchLoadGo keyFound verifies s).pending = s.pending ∧
    (patchLoadGo keyFound verifies s).dev = s.dev ∧
    (patchLoadGo keyFound verifies s).jtag = s.jtag := by
  unfold patchLoadGo
  refine ⟨?_, ?_, ?_⟩ <;> ((repeat' split) <;> simp)

theorem execPatchLoad_stays (keyFound : Bool) (verifies : Bool) (s : State) (nx : State) (h : execPatchLoad keyFound verifies s = .next nx) :
    nx.pending = s.pending ∧ nx.dev = s.dev ∧ nx.jtag = s.jtag := by
  unfold execPatchLoad at h
  cases h
  refine hostWrite_stays _ _ fun s => ?_
  simp

@[simp] theorem revertGo_stays (s : State) :
    (revertGo s).pending = s.pending ∧ (revertGo s).dev = s.dev ∧ (revertGo s).jtag = s.jtag := by
  unfold revertGo
  simp

theorem execRevert_stays (s : State) (nx : State) (h : execRevert s = .next nx) :
    nx.pending = s.pending ∧ nx.dev = s.dev ∧ nx.jtag = s.jtag := by
  unfold execRevert at h
  cases h
  refine hostWrite_stays _ _ fun s => ?_
  simp

theorem execPatchBroadcast_stays (s : State) (nx : State) (h : execPatchBroadcast s = .next nx) :
    nx.pending = s.pending ∧ nx.dev = s.dev ∧ nx.jtag = s.jtag := by
  unfold execPatchBroadcast at h
  cases h
  refine unlessLocked_stays _ _ fun s => ?_
  simp

/-! ### Reset -/

@[simp] theorem bootBegin_stays (s : State) :
    (bootBegin s).pending = s.pending ∧ (bootBegin s).dev = s.dev ∧ (bootBegin s).jtag = s.jtag := by
  unfold bootBegin
  simp

@[simp] theorem clearRings_stays (s : State) :
    (clearRings s).pending = s.pending ∧ (clearRings s).dev = s.dev ∧ (clearRings s).jtag = s.jtag := by
  unfold clearRings
  simp

@[simp] theorem clearTickets_stays (s : State) :
    (clearTickets s).pending = s.pending ∧ (clearTickets s).dev = s.dev ∧ (clearTickets s).jtag = s.jtag := by
  unfold clearTickets
  simp

@[simp] theorem endSafetyNet_stays (s : State) :
    (endSafetyNet s).pending = s.pending ∧ (endSafetyNet s).dev = s.dev ∧ (endSafetyNet s).jtag = s.jtag := by
  unfold endSafetyNet
  simp

@[simp] theorem warmReset_stays (cause : BitVec 4) (s : State) :
    (warmReset cause s).pending = s.pending ∧ (warmReset cause s).dev = s.dev ∧ (warmReset cause s).jtag = s.jtag := by
  unfold warmReset
  simp

@[simp] theorem warmWrite_stays (s : State) :
    (warmWrite s).pending = s.pending ∧ (warmWrite s).dev = s.dev ∧ (warmWrite s).jtag = s.jtag := by
  unfold warmWrite
  simp

theorem execWarm_stays (s : State) (nx : State) (h : execWarm s = .next nx) :
    nx.pending = s.pending ∧ nx.dev = s.dev ∧ nx.jtag = s.jtag := by
  unfold execWarm at h
  cases h
  refine hostWrite_stays _ _ fun s => ?_
  simp

theorem execWarmResetEntriesDone_stays (s : State) (nx : State) (h : execWarmResetEntriesDone s = .next nx) :
    nx.pending = s.pending ∧ nx.dev = s.dev ∧ nx.jtag = s.jtag := by
  unfold execWarmResetEntriesDone at h
  cases h
  refine unlessLocked_stays _ _ fun s => ?_
  simp

@[simp] theorem pcieReset_stays (held : Bool) (s : State) :
    (pcieReset held s).pending = s.pending ∧ (pcieReset held s).dev = s.dev ∧ (pcieReset held s).jtag = s.jtag := by
  unfold pcieReset
  simp

theorem execPerst_stays (kind : Nat) (s : State) (nx : State) (h : execPerst kind s = .next nx) :
    nx.pending = s.pending ∧ nx.dev = s.dev ∧ nx.jtag = s.jtag := by
  unfold execPerst at h
  cases h
  simp

theorem execPerstRelease_stays (s : State) (nx : State) (h : execPerstRelease s = .next nx) :
    nx.pending = s.pending ∧ nx.dev = s.dev ∧ nx.jtag = s.jtag := by
  unfold execPerstRelease at h
  cases h
  simp

@[simp] theorem powerReset_stays (cause : BitVec 4) (s : State) :
    (powerReset cause s).pending = s.pending ∧ (powerReset cause s).dev = s.dev ∧ (powerReset cause s).jtag = {} := ⟨rfl, rfl, rfl⟩

/-! ### LifeCycle -/

@[simp] theorem lcDecide_stays (s : State) :
    (lcDecide s).pending = s.pending ∧ (lcDecide s).dev = s.dev ∧ (lcDecide s).jtag = s.jtag := by
  unfold lcDecide
  dsimp only
  refine ⟨?_, ?_, ?_⟩ <;> ((repeat' split) <;> simp)

/-- Power-on reset selects IDCODE again. -/
theorem execPowerOnReset_stays (s : State) (nx : State) (h : execPowerOnReset s = .next nx) :
    nx.pending = s.pending ∧ nx.dev = s.dev ∧ nx.jtag = {} := by
  unfold execPowerOnReset at h
  cases h
  simp


theorem execPowerGoodLoss_stays (s : State) (nx : State) (h : execPowerGoodLoss s = .next nx) :
    nx.pending = s.pending ∧ nx.dev = s.dev ∧ (nx.jtag = s.jtag ∨ nx.jtag = {}) := by
  unfold execPowerGoodLoss at h
  cases h
  split <;> simp


theorem execPwrgoodRise_stays (s : State) (nx : State) (h : execPwrgoodRise s = .next nx) :
    nx.pending = s.pending ∧ nx.dev = s.dev ∧ nx.jtag = s.jtag := by
  unfold execPwrgoodRise at h
  cases h
  simp

@[simp] theorem lcRefuse_stays (r : Byte) (s : State) :
    (lcRefuse r s).pending = s.pending ∧ (lcRefuse r s).dev = s.dev ∧ (lcRefuse r s).jtag = s.jtag := by
  unfold lcRefuse
  simp

@[simp] theorem destroyAllKeys_stays (s : State) :
    (destroyAllKeys s).pending = s.pending ∧ (destroyAllKeys s).dev = s.dev ∧ (destroyAllKeys s).jtag = s.jtag := by
  unfold destroyAllKeys
  simp

@[simp] theorem lcBegin_stays (target : Nat) (s : State) :
    (lcBegin target s).pending = s.pending ∧ (lcBegin target s).dev = s.dev ∧ (lcBegin target s).jtag = s.jtag := by
  unfold lcBegin
  simp

@[simp] theorem lcsNextWrite_stays (target : Nat) (dap : Bool) (vddOtp : Bool) (s : State) :
    (lcsNextWrite target dap vddOtp s).pending = s.pending ∧
    (lcsNextWrite target dap vddOtp s).dev = s.dev ∧
    (lcsNextWrite target dap vddOtp s).jtag = s.jtag := by
  unfold lcsNextWrite
  simp

theorem execLcTransition_stays (target : Nat) (dap : Bool) (vddOtp : Bool) (s : State) (nx : State) (h : execLcTransition target dap vddOtp s = .next nx) :
    nx.pending = s.pending ∧ nx.dev = s.dev ∧ nx.jtag = s.jtag := by
  unfold execLcTransition at h
  cases h
  refine hostWrite_stays _ _ fun s => ?_
  simp

@[simp] theorem lcFinish_stays (s : State) :
    (lcFinish s).pending = s.pending ∧ (lcFinish s).dev = s.dev ∧ (lcFinish s).jtag = s.jtag := by
  unfold lcFinish
  simp

@[simp] theorem programRow_stays (row : OtpRow) (ok : Bool) (s : State) :
    (programRow row ok s).pending = s.pending ∧ (programRow row ok s).dev = s.dev ∧ (programRow row ok s).jtag = s.jtag := by
  unfold programRow
  dsimp only
  refine ⟨?_, ?_, ?_⟩ <;> ((repeat' split) <;> simp)

theorem execOtpRowProgrammed_stays (ok : Bool) (s : State) (nx : State) (h : execOtpRowProgrammed ok s = .next nx) :
    nx.pending = s.pending ∧ nx.dev = s.dev ∧ nx.jtag = s.jtag := by
  unfold execOtpRowProgrammed at h
  cases h
  refine ⟨?_, ?_, ?_⟩ <;> ((repeat' split) <;> simp)

@[simp] theorem rootCmdWrite_stays (data : W32) (vddOtp : Bool) (s : State) :
    (rootCmdWrite data vddOtp s).pending = s.pending ∧
    (rootCmdWrite data vddOtp s).dev = s.dev ∧
    (rootCmdWrite data vddOtp s).jtag = s.jtag := by
  unfold rootCmdWrite
  simp

theorem execRootProgram_stays (data : W32) (vddOtp : Bool) (s : State) (nx : State) (h : execRootProgram data vddOtp s = .next nx) :
    nx.pending = s.pending ∧ nx.dev = s.dev ∧ nx.jtag = s.jtag := by
  unfold execRootProgram at h
  cases h
  refine hostWrite_stays _ _ fun s => ?_
  simp

@[simp] theorem dbgRefused_stays (s : State) :
    (dbgRefused s).pending = s.pending ∧ (dbgRefused s).dev = s.dev ∧ (dbgRefused s).jtag = s.jtag := by
  unfold dbgRefused
  simp

@[simp] theorem dbgChallenge_stays (s : State) :
    (dbgChallenge s).pending = s.pending ∧ (dbgChallenge s).dev = s.dev ∧ (dbgChallenge s).jtag = s.jtag := by
  unfold dbgChallenge
  simp

theorem execChallenge_stays (s : State) (nx : State) (h : execChallenge s = .next nx) :
    nx.pending = s.pending ∧ nx.dev = s.dev ∧ nx.jtag = s.jtag := by
  unfold execChallenge at h
  cases h
  refine hostWrite_stays _ _ fun s => ?_
  simp

@[simp] theorem dbgVerify_stays (s : State) :
    (dbgVerify s).pending = s.pending ∧ (dbgVerify s).dev = s.dev ∧ (dbgVerify s).jtag = s.jtag := by
  unfold dbgVerify
  simp

theorem execVerify_stays (s : State) (nx : State) (h : execVerify s = .next nx) :
    nx.pending = s.pending ∧ nx.dev = s.dev ∧ nx.jtag = s.jtag := by
  unfold execVerify at h
  cases h
  refine hostWrite_stays _ _ fun s => ?_
  simp

theorem execVerifyDone_stays (keyOk : Bool) (verifies : Bool) (s : State) (nx : State) (h : execVerifyDone keyOk verifies s = .next nx) :
    nx.pending = s.pending ∧ nx.dev = s.dev ∧ nx.jtag = s.jtag := by
  unfold execVerifyDone at h
  cases h
  refine unlessLocked_stays _ _ fun s => ?_
  simp

@[simp] theorem dbgClose_stays (s : State) :
    (dbgClose s).pending = s.pending ∧ (dbgClose s).dev = s.dev ∧ (dbgClose s).jtag = s.jtag := by
  unfold dbgClose
  simp

theorem execDbgClose_stays (s : State) (nx : State) (h : execDbgClose s = .next nx) :
    nx.pending = s.pending ∧ nx.dev = s.dev ∧ nx.jtag = s.jtag := by
  unfold execDbgClose at h
  cases h
  refine hostWrite_stays _ _ fun s => ?_
  simp

@[simp] theorem dbgHold_stays (s : State) :
    (dbgHold s).pending = s.pending ∧ (dbgHold s).dev = s.dev ∧ (dbgHold s).jtag = s.jtag := by
  unfold dbgHold
  simp

theorem execHold_stays (s : State) (nx : State) (h : execHold s = .next nx) :
    nx.pending = s.pending ∧ nx.dev = s.dev ∧ nx.jtag = s.jtag := by
  unfold execHold at h
  cases h
  refine hostWrite_stays _ _ fun s => ?_
  simp

@[simp] theorem dbgRelease_stays (s : State) :
    (dbgRelease s).pending = s.pending ∧ (dbgRelease s).dev = s.dev ∧ (dbgRelease s).jtag = s.jtag := by
  unfold dbgRelease
  simp

theorem execRelease_stays (s : State) (nx : State) (h : execRelease s = .next nx) :
    nx.pending = s.pending ∧ nx.dev = s.dev ∧ nx.jtag = s.jtag := by
  unfold execRelease at h
  cases h
  refine hostWrite_stays _ _ fun s => ?_
  simp

/-! ### Boot -/

@[simp] theorem installBundle_stays (signer : Nat) (bundle : List Byte) (s : State) :
    (installBundle signer bundle s).pending = s.pending ∧ (installBundle signer bundle s).dev = s.dev ∧
    (installBundle signer bundle s).jtag = s.jtag := by
  have one (t : State) (l : List Byte) : ∀ u, ((installAct (actHeader l) none (actCode l (actHeader l)) 0 t).getD t) = u →
      u.pending = t.pending ∧ u.dev = t.dev ∧ u.jtag = t.jtag := by
    rintro _ rfl
    cases q : installAct (actHeader l) none (actCode l (actHeader l)) 0 t with
    | none => exact ⟨rfl, rfl, rfl⟩
    | some u => exact installAct_stays _ _ _ _ _ _ q
  unfold installBundle
  generalize bundleImages 2048 bundle = l
  induction l generalizing s with
  | nil => exact ⟨rfl, rfl, rfl⟩
  | cons b r ih =>
    rw [List.foldl_cons]
    dsimp only
    split
    · have q := one s b _ rfl
      simp [ih, q]
    · exact ih s


@[simp] theorem bootPatch_stays (l : List Byte) (v : BootVerdicts) (s : State) :
    (bootPatch l v s).pending = s.pending ∧ (bootPatch l v s).dev = s.dev ∧ (bootPatch l v s).jtag = s.jtag := by
  unfold bootPatch
  refine ⟨?_, ?_, ?_⟩ <;> ((repeat' split) <;> simp)

@[simp] theorem bootLoad_stays (slot : Nat) (l : List Byte) (v : BootVerdicts) (s : State) :
    (bootLoad slot l v s).pending = s.pending ∧ (bootLoad slot l v s).dev = s.dev ∧ (bootLoad slot l v s).jtag = s.jtag := by
  unfold bootLoad
  simp

@[simp] theorem slotFailed_stays (slot : Nat) (r : Byte) (s : State) :
    (slotFailed slot r s).pending = s.pending ∧ (slotFailed slot r s).dev = s.dev ∧ (slotFailed slot r s).jtag = s.jtag := by
  unfold slotFailed
  simp

theorem execBootSlotCheck_stays (dir : List Byte) (image : List Byte) (found : BootVerdicts) (s : State) (nx : State) (h : execBootSlotCheck dir image found s = .next nx) :
    nx.pending = s.pending ∧ nx.dev = s.dev ∧ nx.jtag = s.jtag := by
  unfold execBootSlotCheck at h
  cases h
  refine unlessLocked_stays _ _ fun s => ?_
  simp

theorem execFlashReadTimeout_stays (s : State) (nx : State) (h : execFlashReadTimeout s = .next nx) :
    nx.pending = s.pending ∧ nx.dev = s.dev ∧ nx.jtag = s.jtag := by
  unfold execFlashReadTimeout at h
  cases h
  refine unlessLocked_stays _ _ fun s => ?_
  refine ⟨?_, ?_, ?_⟩ <;> ((repeat' split) <;> simp)

@[simp] theorem bootCmdLoad_stays (found : BootVerdicts) (s : State) :
    (bootCmdLoad found s).pending = s.pending ∧ (bootCmdLoad found s).dev = s.dev ∧ (bootCmdLoad found s).jtag = s.jtag := by
  unfold bootCmdLoad
  simp

theorem execBootCmdLoad_stays (found : BootVerdicts) (s : State) (nx : State) (h : execBootCmdLoad found s = .next nx) :
    nx.pending = s.pending ∧ nx.dev = s.dev ∧ nx.jtag = s.jtag := by
  unfold execBootCmdLoad at h
  cases h
  refine hostWrite_stays _ _ fun s => ?_
  simp

@[simp] theorem openEpoch_stays (s : State) :
    (openEpoch s).pending = s.pending ∧ (openEpoch s).dev = s.dev ∧ (openEpoch s).jtag = s.jtag := by
  unfold openEpoch
  simp

theorem execRingRelease_stays (r : Nat) (s : State) (nx : State) (h : execRingRelease r s = .next nx) :
    nx.pending = s.pending ∧ nx.dev = s.dev ∧ nx.jtag = s.jtag := by
  unfold execRingRelease at h
  cases h
  refine unlessLocked_stays _ _ fun s => ?_
  simp

/-! ### Clocks -/

@[simp] theorem setDom_stays (d : Nat) (x : Domain) (s : State) :
    (setDom d x s).pending = s.pending ∧ (setDom d x s).dev = s.dev ∧ (setDom d x s).jtag = s.jtag := by
  unfold setDom
  simp

theorem execClockGateClose_stays (u : Half) (s : State) (nx : State) (h : execClockGateClose u s = .next nx) :
    nx.pending = s.pending ∧ nx.dev = s.dev ∧ nx.jtag = s.jtag := by
  unfold execClockGateClose at h
  cases h
  simp

@[simp] theorem requestSwitch_stays (d : Nat) (toTio : Bool) (s : State) :
    (requestSwitch d toTio s).pending = s.pending ∧ (requestSwitch d toTio s).dev = s.dev ∧ (requestSwitch d toTio s).jtag = s.jtag := by
  unfold requestSwitch
  simp

@[simp] theorem hubClockOn_stays (s : State) :
    (hubClockOn s).pending = s.pending ∧ (hubClockOn s).dev = s.dev ∧ (hubClockOn s).jtag = s.jtag := by
  unfold hubClockOn
  simp

theorem execClockSwitch_stays (d : Nat) (s : State) (nx : State) (h : execClockSwitch d s = .next nx) :
    nx.pending = s.pending ∧ nx.dev = s.dev ∧ nx.jtag = s.jtag := by
  unfold execClockSwitch at h
  cases h
  dsimp only
  refine ⟨?_, ?_, ?_⟩ <;> ((repeat' split) <;> simp)

theorem execTioStable_stays (s : State) (nx : State) (h : execTioStable s = .next nx) :
    nx.pending = s.pending ∧ nx.dev = s.dev ∧ nx.jtag = s.jtag := by
  unfold execTioStable at h
  cases h
  simp

theorem execTioMonitorTrip_stays (why : Nat) (s : State) (nx : State) (h : execTioMonitorTrip why s = .next nx) :
    nx.pending = s.pending ∧ nx.dev = s.dev ∧ nx.jtag = s.jtag := by
  unfold execTioMonitorTrip at h
  cases h
  simp

theorem execAonMonitorTrip_stays (why : Nat) (s : State) (nx : State) (h : execAonMonitorTrip why s = .next nx) :
    nx.pending = s.pending ∧ nx.dev = s.dev ∧ nx.jtag = s.jtag := by
  unfold execAonMonitorTrip at h
  cases h
  simp

@[simp] theorem clockRetire_stays (d : Nat) (s : State) :
    (clockRetire d s).pending = s.pending ∧ (clockRetire d s).dev = s.dev ∧ (clockRetire d s).jtag = s.jtag := by
  unfold clockRetire
  simp

theorem execFrozenDomainTrip_stays (d : Nat) (s : State) (nx : State) (h : execFrozenDomainTrip d s = .next nx) :
    nx.pending = s.pending ∧ nx.dev = s.dev ∧ nx.jtag = s.jtag := by
  unfold execFrozenDomainTrip at h
  cases h
  refine unlessLocked_stays _ _ fun s => ?_
  simp

@[simp] theorem pllTrip_stays (d : Nat) (why : Nat) (s : State) :
    (pllTrip d why s).pending = s.pending ∧ (pllTrip d why s).dev = s.dev ∧ (pllTrip d why s).jtag = s.jtag := by
  unfold pllTrip
  simp

theorem execPllTrip_stays (d : Nat) (why : Nat) (s : State) (nx : State) (h : execPllTrip d why s = .next nx) :
    nx.pending = s.pending ∧ nx.dev = s.dev ∧ nx.jtag = s.jtag := by
  unfold execPllTrip at h
  cases h
  refine unlessLocked_stays _ _ fun s => ?_
  simp

theorem execRef10Loss_stays (s : State) (nx : State) (h : execRef10Loss s = .next nx) :
    nx.pending = s.pending ∧ nx.dev = s.dev ∧ nx.jtag = s.jtag := by
  unfold execRef10Loss at h
  cases h
  refine unlessLocked_stays _ _ fun s => ?_
  simp

theorem execRef10Restored_stays (s : State) (nx : State) (h : execRef10Restored s = .next nx) :
    nx.pending = s.pending ∧ nx.dev = s.dev ∧ nx.jtag = s.jtag := by
  unfold execRef10Restored at h
  cases h
  simp

theorem execRefclkLoss_stays (s : State) (nx : State) (h : execRefclkLoss s = .next nx) :
    nx.pending = s.pending ∧ nx.dev = s.dev ∧ nx.jtag = s.jtag := by
  unfold execRefclkLoss at h
  cases h
  refine unlessLocked_stays _ _ fun s => ?_
  simp

theorem execRefclkRestored_stays (s : State) (nx : State) (h : execRefclkRestored s = .next nx) :
    nx.pending = s.pending ∧ nx.dev = s.dev ∧ nx.jtag = s.jtag := by
  unfold execRefclkRestored at h
  cases h
  simp

theorem execPllLock_stays (d : Nat) (s : State) (nx : State) (h : execPllLock d s = .next nx) :
    nx.pending = s.pending ∧ nx.dev = s.dev ∧ nx.jtag = s.jtag := by
  unfold execPllLock at h
  cases h
  dsimp only
  refine ⟨?_, ?_, ?_⟩ <;> ((repeat' split) <;> simp)

theorem execRecoveryAttempt_stays (d : Nat) (s : State) (nx : State) (h : execRecoveryAttempt d s = .next nx) :
    nx.pending = s.pending ∧ nx.dev = s.dev ∧ nx.jtag = s.jtag := by
  unfold execRecoveryAttempt at h
  cases h
  simp

theorem execRecoveryHoldDone_stays (d : Nat) (s : State) (nx : State) (h : execRecoveryHoldDone d s = .next nx) :
    nx.pending = s.pending ∧ nx.dev = s.dev ∧ nx.jtag = s.jtag := by
  unfold execRecoveryHoldDone at h
  cases h
  refine unlessLocked_stays _ _ fun s => ?_
  simp

@[simp] theorem clkRecoverWrite_stays (data : W32) (s : State) :
    (clkRecoverWrite data s).pending = s.pending ∧ (clkRecoverWrite data s).dev = s.dev ∧ (clkRecoverWrite data s).jtag = s.jtag := by
  unfold clkRecoverWrite
  simp

theorem execClkRecover_stays (data : W32) (s : State) (nx : State) (h : execClkRecover data s = .next nx) :
    nx.pending = s.pending ∧ nx.dev = s.dev ∧ nx.jtag = s.jtag := by
  unfold execClkRecover at h
  cases h
  refine hostWrite_stays _ _ fun s => ?_
  simp

@[simp] theorem setCode_stays (code : BitVec 20) (s : State) :
    (setCode code s).pending = s.pending ∧ (setCode code s).dev = s.dev ∧ (setCode code s).jtag = s.jtag := by
  unfold setCode
  simp

@[simp] theorem codeAfter_stays (step : Int) (s : State) :
    (codeAfter step s).2.pending = s.pending ∧ (codeAfter step s).2.dev = s.dev ∧ (codeAfter step s).2.jtag = s.jtag := by
  unfold codeAfter
  dsimp only
  refine ⟨?_, ?_, ?_⟩ <;> ((repeat' split) <;> simp)

@[simp] theorem trimStep_stays (step : Int) (s : State) :
    (trimStep step s).pending = s.pending ∧ (trimStep step s).dev = s.dev ∧ (trimStep step s).jtag = s.jtag := by
  unfold trimStep
  simp

@[simp] theorem tioTrimWrite_stays (data : W32) (s : State) :
    (tioTrimWrite data s).pending = s.pending ∧ (tioTrimWrite data s).dev = s.dev ∧ (tioTrimWrite data s).jtag = s.jtag := by
  unfold tioTrimWrite
  simp

theorem execTioTrimWrite_stays (data : W32) (s : State) (nx : State) (h : execTioTrimWrite data s = .next nx) :
    nx.pending = s.pending ∧ nx.dev = s.dev ∧ nx.jtag = s.jtag := by
  unfold execTioTrimWrite at h
  cases h
  refine hostWrite_stays _ _ fun s => ?_
  simp

theorem execTrimGate_stays (counted : Nat) (s : State) (nx : State) (h : execTrimGate counted s = .next nx) :
    nx.pending = s.pending ∧ nx.dev = s.dev ∧ nx.jtag = s.jtag := by
  unfold execTrimGate at h
  cases h
  refine unlessLocked_stays _ _ fun s => ?_
  simp

@[simp] theorem writeFreq_stays (f : Int) (s : State) :
    (writeFreq f s).pending = s.pending ∧ (writeFreq f s).dev = s.dev ∧ (writeFreq f s).jtag = s.jtag := by
  unfold writeFreq
  refine ⟨?_, ?_, ?_⟩ <;> ((repeat' split) <;> simp)

@[simp] theorem closeTrim_stays (s : State) :
    (closeTrim s).pending = s.pending ∧ (closeTrim s).dev = s.dev ∧ (closeTrim s).jtag = s.jtag := by
  unfold closeTrim
  simp

theorem execTrimPtpStep_stays (s : State) (nx : State) (h : execTrimPtpStep s = .next nx) :
    nx.pending = s.pending ∧ nx.dev = s.dev ∧ nx.jtag = s.jtag := by
  unfold execTrimPtpStep at h
  cases h
  refine unlessLocked_stays _ _ fun s => ?_
  simp

end Sys2Proof.Machine
end

