-- ==== Sys2Proof/Laws/Stays/Access.lean ====
section
/-!
SUPPORT. What leaves the queue, the part and the test access port alone: the operations of register access, loads, system instructions, commits, debug and the tick.
-/
namespace Sys2Proof.Machine

open Sys2Proof

/-! ### RegWrite -/

theorem ofOut_stays (o : Out) (s : State)
    (h : ∀ nx, o = .next nx → nx.pending = s.pending ∧ nx.dev = s.dev ∧ nx.jtag = s.jtag) :
    (ofOut o s).pending = s.pending ∧ (ofOut o s).dev = s.dev ∧ (ofOut o s).jtag = s.jtag := by
  unfold ofOut
  split
  · exact h _ rfl
  · exact ⟨rfl, rfl, rfl⟩

@[simp] theorem ofOut_execAbortStart (i : Nat) (tagHi : W32) (s : State) :
    (ofOut (execAbortStart i tagHi s) s).pending = s.pending ∧ (ofOut (execAbortStart i tagHi s) s).dev = s.dev ∧ (ofOut (execAbortStart i tagHi s) s).jtag = s.jtag :=
  ofOut_stays _ _ fun nx h => execAbortStart_stays _ _ _ nx h

@[simp] theorem ofOut_execAck (i : Nat) (s : State) :
    (ofOut (execAck i s) s).pending = s.pending ∧ (ofOut (execAck i s) s).dev = s.dev ∧ (ofOut (execAck i s) s).jtag = s.jtag :=
  ofOut_stays _ _ fun nx h => execAck_stays _ _ nx h

@[simp] theorem ofOut_execActivate (i : Nat) (s : State) :
    (ofOut (execActivate i s) s).pending = s.pending ∧ (ofOut (execActivate i s) s).dev = s.dev ∧ (ofOut (execActivate i s) s).jtag = s.jtag :=
  ofOut_stays _ _ fun nx h => execActivate_stays _ _ nx h

@[simp] theorem ofOut_execApply (s : State) :
    (ofOut (execApply s) s).pending = s.pending ∧ (ofOut (execApply s) s).dev = s.dev ∧ (ofOut (execApply s) s).jtag = s.jtag :=
  ofOut_stays _ _ fun nx h => execApply_stays _ nx h

@[simp] theorem ofOut_execAudRingTailWrite (data : W32) (s : State) :
    (ofOut (execAudRingTailWrite data s) s).pending = s.pending ∧ (ofOut (execAudRingTailWrite data s) s).dev = s.dev ∧ (ofOut (execAudRingTailWrite data s) s).jtag = s.jtag :=
  ofOut_stays _ _ fun nx h => execAudRingTailWrite_stays _ _ nx h

@[simp] theorem ofOut_execCancel (i : Nat) (s : State) :
    (ofOut (execCancel i s) s).pending = s.pending ∧ (ofOut (execCancel i s) s).dev = s.dev ∧ (ofOut (execCancel i s) s).jtag = s.jtag :=
  ofOut_stays _ _ fun nx h => execCancel_stays _ _ nx h

@[simp] theorem ofOut_execClear (s : State) :
    (ofOut (execClear s) s).pending = s.pending ∧ (ofOut (execClear s) s).dev = s.dev ∧ (ofOut (execClear s) s).jtag = s.jtag :=
  ofOut_stays _ _ fun nx h => execClear_stays _ nx h

@[simp] theorem ofOut_execCqDoorbell (i : Nat) (data : W32) (s : State) :
    (ofOut (execCqDoorbell i data s) s).pending = s.pending ∧ (ofOut (execCqDoorbell i data s) s).dev = s.dev ∧ (ofOut (execCqDoorbell i data s) s).jtag = s.jtag :=
  ofOut_stays _ _ fun nx h => execCqDoorbell_stays _ _ _ nx h

@[simp] theorem ofOut_execEpochNow (s : State) :
    (ofOut (execEpochNow s) s).pending = s.pending ∧ (ofOut (execEpochNow s) s).dev = s.dev ∧ (ofOut (execEpochNow s) s).jtag = s.jtag :=
  ofOut_stays _ _ fun nx h => execEpochNow_stays _ nx h

@[simp] theorem ofOut_execExchange (n : Nat) (s : State) :
    (ofOut (execExchange n s) s).pending = s.pending ∧ (ofOut (execExchange n s) s).dev = s.dev ∧ (ofOut (execExchange n s) s).jtag = s.jtag :=
  ofOut_stays _ _ fun nx h => execExchange_stays _ _ nx h

@[simp] theorem ofOut_execFaultInject (s : State) :
    (ofOut (execFaultInject s) s).pending = s.pending ∧ (ofOut (execFaultInject s) s).dev = s.dev ∧ (ofOut (execFaultInject s) s).jtag = s.jtag :=
  ofOut_stays _ _ fun nx h => execFaultInject_stays _ nx h

@[simp] theorem ofOut_execFcModeWrite (data : W32) (s : State) :
    (ofOut (execFcModeWrite data s) s).pending = s.pending ∧ (ofOut (execFcModeWrite data s) s).dev = s.dev ∧ (ofOut (execFcModeWrite data s) s).jtag = s.jtag :=
  ofOut_stays _ _ fun nx h => execFcModeWrite_stays _ _ nx h

@[simp] theorem ofOut_execFcRetire (u : Half) (s : State) :
    (ofOut (execFcRetire u s) s).pending = s.pending ∧ (ofOut (execFcRetire u s) s).dev = s.dev ∧ (ofOut (execFcRetire u s) s).jtag = s.jtag :=
  ofOut_stays _ _ fun nx h => execFcRetire_stays _ _ nx h

@[simp] theorem ofOut_execFcStickyClear (k : Nat) (data : W32) (s : State) :
    (ofOut (execFcStickyClear k data s) s).pending = s.pending ∧ (ofOut (execFcStickyClear k data s) s).dev = s.dev ∧ (ofOut (execFcStickyClear k data s) s).jtag = s.jtag :=
  ofOut_stays _ _ fun nx h => execFcStickyClear_stays _ _ _ nx h

@[simp] theorem ofOut_execHcActivate (n : Nat) (s : State) :
    (ofOut (execHcActivate n s) s).pending = s.pending ∧ (ofOut (execHcActivate n s) s).dev = s.dev ∧ (ofOut (execHcActivate n s) s).jtag = s.jtag :=
  ofOut_stays _ _ fun nx h => execHcActivate_stays _ _ nx h

@[simp] theorem ofOut_execHcDeactivate (n : Nat) (s : State) :
    (ofOut (execHcDeactivate n s) s).pending = s.pending ∧ (ofOut (execHcDeactivate n s) s).dev = s.dev ∧ (ofOut (execHcDeactivate n s) s).jtag = s.jtag :=
  ofOut_stays _ _ fun nx h => execHcDeactivate_stays _ _ nx h

@[simp] theorem ofOut_execInlineGo (i : Nat) (s : State) :
    (ofOut (execInlineGo i s) s).pending = s.pending ∧ (ofOut (execInlineGo i s) s).dev = s.dev ∧ (ofOut (execInlineGo i s) s).jtag = s.jtag :=
  ofOut_stays _ _ fun nx h => execInlineGo_stays _ _ nx h

@[simp] theorem ofOut_execInstReset (i : Nat) (s : State) :
    (ofOut (execInstReset i s) s).pending = s.pending ∧ (ofOut (execInstReset i s) s).dev = s.dev ∧ (ofOut (execInstReset i s) s).jtag = s.jtag :=
  ofOut_stays _ _ fun nx h => execInstReset_stays _ _ nx h

@[simp] theorem ofOut_execInstanceConfigWrite (i : Nat) (off : Nat) (data : W32) (s : State) :
    (ofOut (execInstanceConfigWrite i off data s) s).pending = s.pending ∧ (ofOut (execInstanceConfigWrite i off data s) s).dev = s.dev ∧ (ofOut (execInstanceConfigWrite i off data s) s).jtag = s.jtag :=
  ofOut_stays _ _ fun nx h => execInstanceConfigWrite_stays _ _ _ _ nx h

@[simp] theorem ofOut_execInstantiate (s : State) :
    (ofOut (execInstantiate s) s).pending = s.pending ∧ (ofOut (execInstantiate s) s).dev = s.dev ∧ (ofOut (execInstantiate s) s).jtag = s.jtag :=
  ofOut_stays _ _ fun nx h => execInstantiate_stays _ nx h

@[simp] theorem ofOut_execItCeilingWrite (i : Nat) (data : W32) (s : State) :
    (ofOut (execItCeilingWrite i data s) s).pending = s.pending ∧ (ofOut (execItCeilingWrite i data s) s).dev = s.dev ∧ (ofOut (execItCeilingWrite i data s) s).jtag = s.jtag :=
  ofOut_stays _ _ fun nx h => execItCeilingWrite_stays _ _ _ nx h

@[simp] theorem ofOut_execItShareWrite (i : Nat) (data : W32) (s : State) :
    (ofOut (execItShareWrite i data s) s).pending = s.pending ∧ (ofOut (execItShareWrite i data s) s).dev = s.dev ∧ (ofOut (execItShareWrite i data s) s).jtag = s.jtag :=
  ofOut_stays _ _ fun nx h => execItShareWrite_stays _ _ _ nx h

@[simp] theorem ofOut_execMbAck (i : Nat) (s : State) :
    (ofOut (execMbAck i s) s).pending = s.pending ∧ (ofOut (execMbAck i s) s).dev = s.dev ∧ (ofOut (execMbAck i s) s).jtag = s.jtag :=
  ofOut_stays _ _ fun nx h => execMbAck_stays _ _ nx h

@[simp] theorem ofOut_execMbSend (i : Nat) (s : State) :
    (ofOut (execMbSend i s) s).pending = s.pending ∧ (ofOut (execMbSend i s) s).dev = s.dev ∧ (ofOut (execMbSend i s) s).jtag = s.jtag :=
  ofOut_stays _ _ fun nx h => execMbSend_stays _ _ nx h

@[simp] theorem ofOut_execPop (s : State) :
    (ofOut (execPop s) s).pending = s.pending ∧ (ofOut (execPop s) s).dev = s.dev ∧ (ofOut (execPop s) s).jtag = s.jtag :=
  ofOut_stays _ _ fun nx h => execPop_stays _ nx h

@[simp] theorem ofOut_execPortDisable (p : Nat) (data : W32) (s : State) :
    (ofOut (execPortDisable p data s) s).pending = s.pending ∧ (ofOut (execPortDisable p data s) s).dev = s.dev ∧ (ofOut (execPortDisable p data s) s).jtag = s.jtag :=
  ofOut_stays _ _ fun nx h => execPortDisable_stays _ _ _ nx h

@[simp] theorem ofOut_execPortEnable (p : Nat) (data : W32) (s : State) :
    (ofOut (execPortEnable p data s) s).pending = s.pending ∧ (ofOut (execPortEnable p data s) s).dev = s.dev ∧ (ofOut (execPortEnable p data s) s).jtag = s.jtag :=
  ofOut_stays _ _ fun nx h => execPortEnable_stays _ _ _ nx h

@[simp] theorem ofOut_execRawCapture (data : W32) (s : State) :
    (ofOut (execRawCapture data s) s).pending = s.pending ∧ (ofOut (execRawCapture data s) s).dev = s.dev ∧ (ofOut (execRawCapture data s) s).jtag = s.jtag :=
  ofOut_stays _ _ fun nx h => execRawCapture_stays _ _ nx h

@[simp] theorem ofOut_execRemove (i : Nat) (s : State) :
    (ofOut (execRemove i s) s).pending = s.pending ∧ (ofOut (execRemove i s) s).dev = s.dev ∧ (ofOut (execRemove i s) s).jtag = s.jtag :=
  ofOut_stays _ _ fun nx h => execRemove_stays _ _ nx h

@[simp] theorem ofOut_execReseed (s : State) :
    (ofOut (execReseed s) s).pending = s.pending ∧ (ofOut (execReseed s) s).dev = s.dev ∧ (ofOut (execReseed s) s).jtag = s.jtag :=
  ofOut_stays _ _ fun nx h => execReseed_stays _ nx h

@[simp] theorem ofOut_execReseedBlocking (s : State) :
    (ofOut (execReseedBlocking s) s).pending = s.pending ∧ (ofOut (execReseedBlocking s) s).dev = s.dev ∧ (ofOut (execReseedBlocking s) s).jtag = s.jtag :=
  ofOut_stays _ _ fun nx h => execReseedBlocking_stays _ nx h

@[simp] theorem ofOut_execResume (i : Nat) (s : State) :
    (ofOut (execResume i s) s).pending = s.pending ∧ (ofOut (execResume i s) s).dev = s.dev ∧ (ofOut (execResume i s) s).jtag = s.jtag :=
  ofOut_stays _ _ fun nx h => execResume_stays _ _ nx h

@[simp] theorem ofOut_execResynch (n : Nat) (s : State) :
    (ofOut (execResynch n s) s).pending = s.pending ∧ (ofOut (execResynch n s) s).dev = s.dev ∧ (ofOut (execResynch n s) s).jtag = s.jtag :=
  ofOut_stays _ _ fun nx h => execResynch_stays _ _ nx h

@[simp] theorem ofOut_execRingGo (r : Nat) (s : State) :
    (ofOut (execRingGo r s) s).pending = s.pending ∧ (ofOut (execRingGo r s) s).dev = s.dev ∧ (ofOut (execRingGo r s) s).jtag = s.jtag :=
  ofOut_stays _ _ fun nx h => execRingGo_stays _ _ nx h

@[simp] theorem ofOut_execRngStatRead (src : Nat) (s : State) :
    (ofOut (execRngStatRead src s) s).pending = s.pending ∧ (ofOut (execRngStatRead src s) s).dev = s.dev ∧ (ofOut (execRngStatRead src s) s).jtag = s.jtag :=
  ofOut_stays _ _ fun nx h => execRngStatRead_stays _ _ nx h

@[simp] theorem ofOut_execSealNow (s : State) :
    (ofOut (execSealNow s) s).pending = s.pending ∧ (ofOut (execSealNow s) s).dev = s.dev ∧ (ofOut (execSealNow s) s).jtag = s.jtag :=
  ofOut_stays _ _ fun nx h => execSealNow_stays _ nx h

@[simp] theorem ofOut_execSend (i : Nat) (s : State) :
    (ofOut (execSend i s) s).pending = s.pending ∧ (ofOut (execSend i s) s).dev = s.dev ∧ (ofOut (execSend i s) s).jtag = s.jtag :=
  ofOut_stays _ _ fun nx h => execSend_stays _ _ nx h

@[simp] theorem ofOut_execSqDoorbell (i : Nat) (data : W32) (s : State) :
    (ofOut (execSqDoorbell i data s) s).pending = s.pending ∧ (ofOut (execSqDoorbell i data s) s).dev = s.dev ∧ (ofOut (execSqDoorbell i data s) s).jtag = s.jtag :=
  ofOut_stays _ _ fun nx h => execSqDoorbell_stays _ _ _ nx h

@[simp] theorem ofOut_execSrcEnWrite (data : W32) (s : State) :
    (ofOut (execSrcEnWrite data s) s).pending = s.pending ∧ (ofOut (execSrcEnWrite data s) s).dev = s.dev ∧ (ofOut (execSrcEnWrite data s) s).jtag = s.jtag :=
  ofOut_stays _ _ fun nx h => execSrcEnWrite_stays _ _ nx h

@[simp] theorem ofOut_execStop (i : Nat) (s : State) :
    (ofOut (execStop i s) s).pending = s.pending ∧ (ofOut (execStop i s) s).dev = s.dev ∧ (ofOut (execStop i s) s).jtag = s.jtag :=
  ofOut_stays _ _ fun nx h => execStop_stays _ _ nx h

@[simp] theorem ofOut_execTxtsPop (p : Nat) (s : State) :
    (ofOut (execTxtsPop p s) s).pending = s.pending ∧ (ofOut (execTxtsPop p s) s).dev = s.dev ∧ (ofOut (execTxtsPop p s) s).jtag = s.jtag :=
  ofOut_stays _ _ fun nx h => execTxtsPop_stays _ _ nx h


@[simp] theorem noRegister_stays (off : Nat) (v : W32) (s : State) :
    (noRegister off v s).pending = s.pending ∧ (noRegister off v s).dev = s.dev ∧ (noRegister off v s).jtag = s.jtag := by
  unfold noRegister
  simp

@[simp] theorem takeVerdict_stays (s : State) :
    (takeVerdict s).2.pending = s.pending ∧ (takeVerdict s).2.dev = s.dev ∧ (takeVerdict s).2.jtag = s.jtag := by
  unfold takeVerdict
  simp

@[simp] theorem msixWrite_stays (e : Nat) (k : Nat) (v : W32) (s : State) :
    (msixWrite e k v s).pending = s.pending ∧ (msixWrite e k v s).dev = s.dev ∧ (msixWrite e k v s).jtag = s.jtag := by
  have q := fun y => msixFlush_stays { s with pcie := { s.pcie with msix := Table.set {} s.pcie.msix e y } }
  exact q _


@[simp] theorem rstCtrlWrite_stays (v : W32) (s : State) :
    (rstCtrlWrite v s).pending = s.pending ∧ (rstCtrlWrite v s).dev = s.dev ∧ (rstCtrlWrite v s).jtag = s.jtag := by
  unfold rstCtrlWrite
  simp

@[simp] theorem actLoadWrite_stays (v : W32) (s : State) :
    (actLoadWrite v s).pending = s.pending ∧ (actLoadWrite v s).dev = s.dev ∧ (actLoadWrite v s).jtag = s.jtag := by
  unfold actLoadWrite
  simp

@[simp] theorem patchLoadWrite_stays (v : W32) (s : State) :
    (patchLoadWrite v s).pending = s.pending ∧ (patchLoadWrite v s).dev = s.dev ∧ (patchLoadWrite v s).jtag = s.jtag := by
  unfold patchLoadWrite
  simp

@[simp] theorem bootCmdWrite_stays (v : W32) (s : State) :
    (bootCmdWrite v s).pending = s.pending ∧ (bootCmdWrite v s).dev = s.dev ∧ (bootCmdWrite v s).jtag = s.jtag := by
  unfold bootCmdWrite
  simp

@[simp] theorem wrGlobal_stays (off : Nat) (v : W32) (s : State) :
    (wrGlobal off v s).pending = s.pending ∧ (wrGlobal off v s).dev = s.dev ∧ (wrGlobal off v s).jtag = s.jtag := by
  unfold wrGlobal
  refine ⟨?_, ?_, ?_⟩ <;> ((repeat' split) <;> simp)

@[simp] theorem itCmdWrite_stays (i : Nat) (v : W32) (s : State) :
    (itCmdWrite i v s).pending = s.pending ∧ (itCmdWrite i v s).dev = s.dev ∧ (itCmdWrite i v s).jtag = s.jtag := by
  unfold itCmdWrite
  refine ⟨?_, ?_, ?_⟩ <;> ((repeat' split) <;> simp)

@[simp] theorem itIrqWrite_stays (i : Nat) (v : W32) (s : State) :
    (itIrqWrite i v s).pending = s.pending ∧ (itIrqWrite i v s).dev = s.dev ∧ (itIrqWrite i v s).jtag = s.jtag := by
  unfold itIrqWrite
  simp

@[simp] theorem itWrite_stays (i : Nat) (off : Nat) (v : W32) (s : State) :
    (itWrite i off v s).pending = s.pending ∧ (itWrite i off v s).dev = s.dev ∧ (itWrite i off v s).jtag = s.jtag := by
  unfold itWrite
  refine ⟨?_, ?_, ?_⟩ <;> ((repeat' split) <;> simp)

@[simp] theorem mbOutWrite_stays (i : Nat) (k : Nat) (v : W32) (s : State) :
    (mbOutWrite i k v s).pending = s.pending ∧ (mbOutWrite i k v s).dev = s.dev ∧ (mbOutWrite i k v s).jtag = s.jtag := by
  unfold mbOutWrite
  simp

@[simp] theorem attnWrite_stays (k : Nat) (v : W32) (s : State) :
    (attnWrite k v s).pending = s.pending ∧ (attnWrite k v s).dev = s.dev ∧ (attnWrite k v s).jtag = s.jtag := by
  unfold attnWrite
  simp

@[simp] theorem wrInstance_stays (off : Nat) (v : W32) (s : State) :
    (wrInstance off v s).pending = s.pending ∧ (wrInstance off v s).dev = s.dev ∧ (wrInstance off v s).jtag = s.jtag := by
  unfold wrInstance
  refine ⟨?_, ?_, ?_⟩ <;> ((repeat' split) <;> simp)

@[simp] theorem pageMbCtrlWrite_stays (i : Nat) (v : W32) (s : State) :
    (pageMbCtrlWrite i v s).pending = s.pending ∧ (pageMbCtrlWrite i v s).dev = s.dev ∧ (pageMbCtrlWrite i v s).jtag = s.jtag := by
  unfold pageMbCtrlWrite
  simp

@[simp] theorem abortStatusWrite_stays (i : Nat) (v : W32) (s : State) :
    (abortStatusWrite i v s).pending = s.pending ∧ (abortStatusWrite i v s).dev = s.dev ∧ (abortStatusWrite i v s).jtag = s.jtag := by
  unfold abortStatusWrite
  simp

@[simp] theorem wrPage_stays (off : Nat) (v : W32) (s : State) :
    (wrPage off v s).pending = s.pending ∧ (wrPage off v s).dev = s.dev ∧ (wrPage off v s).jtag = s.jtag := by
  unfold wrPage
  dsimp only
  refine ⟨?_, ?_, ?_⟩ <;> ((repeat' split) <;> simp)

@[simp] theorem wrUsher_stays (off : Nat) (v : W32) (s : State) :
    (wrUsher off v s).pending = s.pending ∧ (wrUsher off v s).dev = s.dev ∧ (wrUsher off v s).jtag = s.jtag := by
  unfold wrUsher
  refine ⟨?_, ?_, ?_⟩ <;> ((repeat' split) <;> simp)

@[simp] theorem cerCtrlWrite_stays (v : W32) (s : State) :
    (cerCtrlWrite v s).pending = s.pending ∧ (cerCtrlWrite v s).dev = s.dev ∧ (cerCtrlWrite v s).jtag = s.jtag := by
  unfold cerCtrlWrite
  refine ⟨?_, ?_, ?_⟩ <;> ((repeat' split) <;> simp)

@[simp] theorem ksQuotaWrite_stays (i : Nat) (v : W32) (s : State) :
    (ksQuotaWrite i v s).pending = s.pending ∧ (ksQuotaWrite i v s).dev = s.dev ∧ (ksQuotaWrite i v s).jtag = s.jtag := by
  unfold ksQuotaWrite
  simp

@[simp] theorem wrKeyStore_stays (off : Nat) (v : W32) (s : State) :
    (wrKeyStore off v s).pending = s.pending ∧ (wrKeyStore off v s).dev = s.dev ∧ (wrKeyStore off v s).jtag = s.jtag := by
  unfold wrKeyStore
  refine ⟨?_, ?_, ?_⟩ <;> ((repeat' split) <;> simp)

@[simp] theorem fcCtrlWrite_stays (v : W32) (s : State) :
    (fcCtrlWrite v s).pending = s.pending ∧ (fcCtrlWrite v s).dev = s.dev ∧ (fcCtrlWrite v s).jtag = s.jtag := by
  unfold fcCtrlWrite
  simp

@[simp] theorem fcInjWrite_stays (v : W32) (s : State) :
    (fcInjWrite v s).pending = s.pending ∧ (fcInjWrite v s).dev = s.dev ∧ (fcInjWrite v s).jtag = s.jtag := by
  unfold fcInjWrite
  simp

@[simp] theorem wrCollector_stays (off : Nat) (v : W32) (s : State) :
    (wrCollector off v s).pending = s.pending ∧ (wrCollector off v s).dev = s.dev ∧ (wrCollector off v s).jtag = s.jtag := by
  unfold wrCollector
  refine ⟨?_, ?_, ?_⟩ <;> ((repeat' split) <;> simp)

@[simp] theorem schedWrite_stays (k : Nat) (o : Nat) (v : W32) (s : State) :
    (schedWrite k o v s).pending = s.pending ∧ (schedWrite k o v s).dev = s.dev ∧ (schedWrite k o v s).jtag = s.jtag := by
  unfold schedWrite
  refine ⟨?_, ?_, ?_⟩ <;> ((repeat' split) <;> simp)

@[simp] theorem clkCtrlWrite_stays (v : W32) (s : State) :
    (clkCtrlWrite v s).pending = s.pending ∧ (clkCtrlWrite v s).dev = s.dev ∧ (clkCtrlWrite v s).jtag = s.jtag := by
  unfold clkCtrlWrite
  simp

@[simp] theorem wrClocks_stays (off : Nat) (v : W32) (s : State) :
    (wrClocks off v s).pending = s.pending ∧ (wrClocks off v s).dev = s.dev ∧ (wrClocks off v s).jtag = s.jtag := by
  unfold wrClocks
  refine ⟨?_, ?_, ?_⟩ <;> ((repeat' split) <;> simp)

@[simp] theorem servoWrite_stays (who : Who) (off : Nat) (v : W32) (s : State) :
    (servoWrite who off v s).pending = s.pending ∧ (servoWrite who off v s).dev = s.dev ∧ (servoWrite who off v s).jtag = s.jtag := by
  unfold servoWrite
  refine ⟨?_, ?_, ?_⟩ <;> ((repeat' split) <;> simp)

@[simp] theorem wrRingmaster_stays (who : Who) (off : Nat) (v : W32) (s : State) :
    (wrRingmaster who off v s).pending = s.pending ∧ (wrRingmaster who off v s).dev = s.dev ∧ (wrRingmaster who off v s).jtag = s.jtag := by
  unfold wrRingmaster
  refine ⟨?_, ?_, ?_⟩ <;> ((repeat' split) <;> simp)

@[simp] theorem netCfgWrite_stays (v : W32) (s : State) :
    (netCfgWrite v s).pending = s.pending ∧ (netCfgWrite v s).dev = s.dev ∧ (netCfgWrite v s).jtag = s.jtag := by
  unfold netCfgWrite
  simp

@[simp] theorem portWrite_stays (p : Nat) (o : Nat) (v : W32) (s : State) :
    (portWrite p o v s).pending = s.pending ∧ (portWrite p o v s).dev = s.dev ∧ (portWrite p o v s).jtag = s.jtag := by
  unfold portWrite
  refine ⟨?_, ?_, ?_⟩ <;> ((repeat' split) <;> simp)

@[simp] theorem wrNetwork_stays (off : Nat) (v : W32) (s : State) :
    (wrNetwork off v s).pending = s.pending ∧ (wrNetwork off v s).dev = s.dev ∧ (wrNetwork off v s).jtag = s.jtag := by
  unfold wrNetwork
  refine ⟨?_, ?_, ?_⟩ <;> ((repeat' split) <;> simp)

@[simp] theorem dolCfgWrite_stays (v : W32) (s : State) :
    (dolCfgWrite v s).pending = s.pending ∧ (dolCfgWrite v s).dev = s.dev ∧ (dolCfgWrite v s).jtag = s.jtag := by
  unfold dolCfgWrite
  simp

@[simp] theorem dolIWrite_stays (i : Nat) (o : Nat) (v : W32) (s : State) :
    (dolIWrite i o v s).pending = s.pending ∧ (dolIWrite i o v s).dev = s.dev ∧ (dolIWrite i o v s).jtag = s.jtag := by
  unfold dolIWrite
  refine ⟨?_, ?_, ?_⟩ <;> ((repeat' split) <;> simp)

@[simp] theorem wrDolid_stays (off : Nat) (v : W32) (s : State) :
    (wrDolid off v s).pending = s.pending ∧ (wrDolid off v s).dev = s.dev ∧ (wrDolid off v s).jtag = s.jtag := by
  unfold wrDolid
  refine ⟨?_, ?_, ?_⟩ <;> ((repeat' split) <;> simp)

@[simp] theorem cutoffWrite_stays (v : W32) (s : State) :
    (cutoffWrite v s).pending = s.pending ∧ (cutoffWrite v s).dev = s.dev ∧ (cutoffWrite v s).jtag = s.jtag := by
  unfold cutoffWrite
  simp

@[simp] theorem wrEntropy_stays (off : Nat) (v : W32) (s : State) :
    (wrEntropy off v s).pending = s.pending ∧ (wrEntropy off v s).dev = s.dev ∧ (wrEntropy off v s).jtag = s.jtag := by
  unfold wrEntropy
  refine ⟨?_, ?_, ?_⟩ <;> ((repeat' split) <;> simp)

@[simp] theorem slotWrite_stays (n : Nat) (o : Nat) (v : W32) (s : State) :
    (slotWrite n o v s).pending = s.pending ∧ (slotWrite n o v s).dev = s.dev ∧ (slotWrite n o v s).jtag = s.jtag := by
  unfold slotWrite
  refine ⟨?_, ?_, ?_⟩ <;> ((repeat' split) <;> simp)

@[simp] theorem slotBufferWrite_stays (n : Nat) (o : Nat) (v : W32) (s : State) :
    (slotBufferWrite n o v s).pending = s.pending ∧ (slotBufferWrite n o v s).dev = s.dev ∧ (slotBufferWrite n o v s).jtag = s.jtag := by
  unfold slotBufferWrite
  simp

@[simp] theorem wrSlots_stays (off : Nat) (v : W32) (s : State) :
    (wrSlots off v s).pending = s.pending ∧ (wrSlots off v s).dev = s.dev ∧ (wrSlots off v s).jtag = s.jtag := by
  unfold wrSlots
  refine ⟨?_, ?_, ?_⟩ <;> ((repeat' split) <;> simp)

@[simp] theorem dbgCmdWrite_stays (v : W32) (s : State) :
    (dbgCmdWrite v s).pending = s.pending ∧ (dbgCmdWrite v s).dev = s.dev ∧ (dbgCmdWrite v s).jtag = s.jtag := by
  unfold dbgCmdWrite
  refine ⟨?_, ?_, ?_⟩ <;> ((repeat' split) <;> simp)

@[simp] theorem wrLifeCycle_stays (who : Who) (off : Nat) (v : W32) (s : State) :
    (wrLifeCycle who off v s).pending = s.pending ∧ (wrLifeCycle who off v s).dev = s.dev ∧ (wrLifeCycle who off v s).jtag = s.jtag := by
  unfold wrLifeCycle
  dsimp only
  refine ⟨?_, ?_, ?_⟩ <;> ((repeat' split) <;> simp)

@[simp] theorem audBaseWrite_stays (k : Nat) (v : W32) (s : State) :
    (audBaseWrite k v s).pending = s.pending ∧ (audBaseWrite k v s).dev = s.dev ∧ (audBaseWrite k v s).jtag = s.jtag := by
  unfold audBaseWrite
  simp

@[simp] theorem wrAudit_stays (off : Nat) (v : W32) (s : State) :
    (wrAudit off v s).pending = s.pending ∧ (wrAudit off v s).dev = s.dev ∧ (wrAudit off v s).jtag = s.jtag := by
  unfold wrAudit
  refine ⟨?_, ?_, ?_⟩ <;> ((repeat' split) <;> simp)

@[simp] theorem loadWinWrite_stays (off : Nat) (data : List Byte) (s : State) :
    (loadWinWrite off data s).pending = s.pending ∧ (loadWinWrite off data s).dev = s.dev ∧ (loadWinWrite off data s).jtag = s.jtag := by
  unfold loadWinWrite
  simp

@[simp] theorem wrBar0_stays (who : Who) (off : Nat) (v : W32) (s : State) :
    (wrBar0 who off v s).pending = s.pending ∧ (wrBar0 who off v s).dev = s.dev ∧ (wrBar0 who off v s).jtag = s.jtag := by
  unfold wrBar0
  refine ⟨?_, ?_, ?_⟩ <;> ((repeat' split) <;> simp)

@[simp] theorem wrWord_stays (who : Who) (bar : Nat) (off : Nat) (v : W32) (s : State) :
    (wrWord who bar off v s).pending = s.pending ∧ (wrWord who bar off v s).dev = s.dev ∧
    (wrWord who bar off v s).jtag = s.jtag := by
  unfold wrWord
  refine hostWrite_stays _ _ fun s => ?_
  (repeat' split) <;> simp


@[simp] theorem readEffect_stays (who : Who) (bar : Nat) (off : Nat) (s : State) :
    (readEffect who bar off s).pending = s.pending ∧ (readEffect who bar off s).dev = s.dev ∧ (readEffect who bar off s).jtag = s.jtag := by
  unfold readEffect
  refine ⟨?_, ?_, ?_⟩ <;> ((repeat' split) <;> simp)

/-! ### Bus -/

@[simp] theorem busWrite_stays (who : Who) (bar : Nat) (off : Nat) (data : List Byte) (s : State) :
    (busWrite who bar off data s).pending = s.pending ∧
    (busWrite who bar off data s).dev = s.dev ∧
    (busWrite who bar off data s).jtag = s.jtag := by
  unfold busWrite
  simp

@[simp] theorem busRead_stays (who : Who) (bar : Nat) (off : Nat) (n : Nat) (s : State) :
    (busRead who bar off n s).2.pending = s.pending ∧ (busRead who bar off n s).2.dev = s.dev ∧ (busRead who bar off n s).2.jtag = s.jtag := by
  unfold busRead
  refine ⟨?_, ?_, ?_⟩ <;> ((repeat' split) <;> simp)

@[simp] theorem cfgWrite_stays (bar : Nat) (off : Nat) (v : W32) (s : State) :
    (cfgWrite bar off v s).pending = s.pending ∧ (cfgWrite bar off v s).dev = s.dev ∧ (cfgWrite bar off v s).jtag = s.jtag := by
  have a := ofOut_stays (execD3hotEnter s) s fun nx h => execD3hotEnter_stays s nx h
  have b := ofOut_stays (execD0Return s) s fun nx h => execD0Return_stays s nx h
  unfold cfgWrite
  (repeat' split) <;> simp [a, b]


@[simp] theorem unsupported_stays (s : State) :
    (unsupported s).pending = s.pending ∧ (unsupported s).dev = s.dev ∧ (unsupported s).jtag = s.jtag := by
  unfold unsupported
  simp

theorem execRegisterWrite_stays (bar : Nat) (off : Nat) (data : List Byte) (s : State) (nx : State)
    (h : execRegisterWrite bar off data s = .next nx) : nx.pending = s.pending ∧ nx.dev = s.dev ∧ nx.jtag = s.jtag := by
  unfold execRegisterWrite at h
  cases h
  split
  · exact ⟨rfl, rfl, rfl⟩
  · split
    · simp
    · split
      · simp
      · split
        · refine hostWrite_stays _ _ fun s => ?_
          split <;> simp
        · split
          · simp
          · exact hostWrite_stays _ _ fun s => by simp


theorem execRcRegisterRead_stays (bar : Nat) (off : Nat) (bytes : Nat) (s : State) (nx : State) (h : execRcRegisterRead bar off bytes s = .next nx) :
    nx.pending = s.pending ∧ nx.dev = s.dev ∧ nx.jtag = s.jtag := by
  unfold execRcRegisterRead at h
  cases h
  simp

/-! ### LoadStore -/

theorem LRes.ite_ok {p : Prop} [Decidable p] {a b : LRes} {v : W64} {t : Tag} {nx : State} (h : (if p then a else b) = .ok v t nx) :
    a = .ok v t nx ∨ b = .ok v t nx := by
  split at h
  · exact .inl h
  · exact .inr h

theorem loadAt_stays (c : Nat) (a : W64) (n : Nat) (x : Core) (s : State) (v : W64) (t : Tag) (nx : State)
    (h : loadAt c a n x s = .ok v t nx) : nx.pending = s.pending ∧ nx.dev = s.dev ∧ nx.jtag = s.jtag := by
  unfold loadAt at h
  dsimp only at h
  obtain h | h := LRes.ite_ok h
  · contradiction
  · obtain h | h := LRes.ite_ok h
    · contradiction
    · split at h
      · cases h; exact ⟨rfl, rfl, rfl⟩
      · cases h; exact ⟨rfl, rfl, rfl⟩
      · obtain h | h := LRes.ite_ok h
        · contradiction
        · split at h
          · cases h; exact ⟨rfl, rfl, rfl⟩
          · contradiction
      · split at h
        · cases h; exact ⟨rfl, rfl, rfl⟩
        · contradiction
      · cases h; exact ⟨rfl, rfl, rfl⟩
      · cases h; exact ⟨rfl, rfl, rfl⟩
      · cases h; simp
      · split at h
        · cases h; exact ⟨rfl, rfl, rfl⟩
        · contradiction


theorem storeAt_stays (c : Nat) (a : W64) (n : Nat) (v : W64) (t : Tag) (x : Core) (s : State) (nx : State) (npc : W64)
    (h : storeAt c a n v t x s = .ok nx npc) : nx.pending = s.pending ∧ nx.dev = s.dev ∧ nx.jtag = s.jtag := by
  unfold storeAt at h
  dsimp only at h
  obtain h | h := IRes.ite_ok h
  · contradiction
  · obtain h | h := IRes.ite_ok h
    · contradiction
    · split at h
      · cases h; simp
      · contradiction
      · obtain h | h := IRes.ite_ok h
        · contradiction
        · revert h
          cases q : windowWrite c _ _ v t s with
          | ok u => intro h; cases h; exact windowWrite_stays _ _ _ _ _ _ _ q
          | exc a b => intro h; contradiction
          | stall => intro h; contradiction
      · exact csrWrite_stays (h := h) ..
      · contradiction
      · cases h; simp
      · obtain h | h := IRes.ite_ok h <;> (cases h; simp)
      · split at h
        · cases h; simp
        · contradiction


theorem bodyLoad_stays (c : Nat) (w : W32) (x : Core) (s : State) (nx : State) (npc : W64) (h : bodyLoad c w x s = .ok nx npc) :
    nx.pending = s.pending ∧ nx.dev = s.dev ∧ nx.jtag = s.jtag := by
  unfold bodyLoad at h
  dsimp only at h
  obtain h | h := IRes.ite_ok h
  · contradiction
  obtain h | h := IRes.ite_ok h
  · contradiction
  · split at h
    · contradiction
    · rename_i q
      have a := loadAt_stays _ _ _ _ _ _ _ _ q
      have b := retG_stays (h := h) ..
      simp [a, b]


theorem bodyStore_stays (c : Nat) (w : W32) (x : Core) (s : State) (nx : State) (npc : W64) (h : bodyStore c w x s = .ok nx npc) :
    nx.pending = s.pending ∧ nx.dev = s.dev ∧ nx.jtag = s.jtag := by
  unfold bodyStore at h
  (repeat' (split at h)) <;> first | contradiction | exact storeAt_stays (h := h) ..

theorem loadMulti_stays (c : Nat) (a : W64) (x : Core) (l : List Nat) (s : State) (nx : State) (npc : W64)
    (h : loadMulti c a x l s = .ok nx npc) : nx.pending = s.pending ∧ nx.dev = s.dev ∧ nx.jtag = s.jtag := by
  induction l generalizing a s with
  | nil => cases h; exact ⟨rfl, rfl, rfl⟩
  | cons r rs ih =>
    unfold loadMulti at h
    obtain h | h := IRes.ite_ok h
    · contradiction
    split at h
    · contradiction
    · rename_i q
      have a := loadAt_stays _ _ _ _ _ _ _ _ q
      have b := ih _ _ h
      simp [a, b]


theorem storeMulti_stays (c : Nat) (a : W64) (x : Core) (l : List Nat) (s : State) (nx : State) (npc : W64)
    (h : storeMulti c a x l s = .ok nx npc) : nx.pending = s.pending ∧ nx.dev = s.dev ∧ nx.jtag = s.jtag := by
  induction l generalizing a s with
  | nil => cases h; exact ⟨rfl, rfl, rfl⟩
  | cons r rs ih =>
    unfold storeMulti at h
    obtain h | h := IRes.ite_ok h
    · contradiction
    cases q : storeAt c a 8 (x.rg r) (x.tagG r) x s with
    | ok t pc =>
      rw [q] at h
      have a := storeAt_stays _ _ _ _ _ _ _ _ _ q
      have b := ih _ _ h
      simp [a, b]
    | exc a b => rw [q] at h; contradiction
    | stall a => rw [q] at h; contradiction
    | micro a b => rw [q] at h; contradiction
    | trapped a b d => rw [q] at h; contradiction
    | held a => rw [q] at h; contradiction


theorem bodyLdm_stays (c : Nat) (w : W32) (x : Core) (s : State) (nx : State) (npc : W64) (h : bodyLdm c w x s = .ok nx npc) :
    nx.pending = s.pending ∧ nx.dev = s.dev ∧ nx.jtag = s.jtag := by
  unfold bodyLdm at h
  split at h
  · contradiction
  · obtain h | h := IRes.ite_ok h
    · contradiction
    obtain h | h := IRes.ite_ok h
    · contradiction
    · exact loadMulti_stays _ _ _ _ _ _ _ h


theorem bodyStm_stays (c : Nat) (w : W32) (x : Core) (s : State) (nx : State) (npc : W64) (h : bodyStm c w x s = .ok nx npc) :
    nx.pending = s.pending ∧ nx.dev = s.dev ∧ nx.jtag = s.jtag := by
  unfold bodyStm at h
  split at h
  · contradiction
  · obtain h | h := IRes.ite_ok h
    · contradiction
    · exact storeMulti_stays _ _ _ _ _ _ _ h

/-! ### ActResults -/

@[simp] theorem offerForm_stays (c : Nat) (t : Ticket) (s : State) :
    (offerForm c t s).pending = s.pending ∧ (offerForm c t s).dev = s.dev ∧ (offerForm c t s).jtag = s.jtag := by
  unfold offerForm
  refine ⟨?_, ?_, ?_⟩ <;> ((repeat' split) <;> simp)

@[simp] theorem fillStaging_stays (c : Nat) (f : W32 × Nat × List Byte) (s : State) :
    (fillStaging c f s).pending = s.pending ∧ (fillStaging c f s).dev = s.dev ∧ (fillStaging c f s).jtag = s.jtag := by
  unfold fillStaging
  refine ⟨?_, ?_, ?_⟩ <;> ((repeat' split) <;> simp)

@[simp] theorem fillAll_stays (c : Nat) (o : ActOut) (s : State) :
    (fillAll c o s).pending = s.pending ∧ (fillAll c o s).dev = s.dev ∧ (fillAll c o s).jtag = s.jtag := by
  unfold fillAll
  simp

@[simp] theorem wsLines_stays (c : Nat) (t : Ticket) (l : List (Nat × List Byte × Tag)) (s : State) :
    (wsLines c t l s).pending = s.pending ∧ (wsLines c t l s).dev = s.dev ∧ (wsLines c t l s).jtag = s.jtag := by
  unfold wsLines
  simp

@[simp] theorem actReleases_stays (c : Nat) (t : Ticket) (o : ActOut) (s : State) :
    (actReleases c t o s).2.pending = s.pending ∧ (actReleases c t o s).2.dev = s.dev ∧ (actReleases c t o s).2.jtag = s.jtag := by
  unfold actReleases
  dsimp only
  refine ⟨?_, ?_, ?_⟩ <;> ((repeat' split) <;> simp)

@[simp] theorem sendOut_stays (c : Nat) (t : Ticket) (n off : Nat) (b : List Byte) (s : State) :
    (sendOut c t n off b s).pending = s.pending ∧ (sendOut c t n off b s).dev = s.dev ∧ (sendOut c t n off b s).jtag = s.jtag := by
  induction n generalizing off b s with
  | zero => exact ⟨rfl, rfl, rfl⟩
  | succ n ih =>
    unfold sendOut
    refine ⟨?_, ?_, ?_⟩ <;> ((repeat' split) <;> simp [ih])


@[simp] theorem actOutput_stays (c : Nat) (t : Ticket) (b : List Byte) (s : State) :
    (actOutput c t b s).pending = s.pending ∧ (actOutput c t b s).dev = s.dev ∧ (actOutput c t b s).jtag = s.jtag := by
  unfold actOutput
  simp

@[simp] theorem retryOutput_stays (c : Nat) (t : Ticket) (s : State) :
    (retryOutput c t s).pending = s.pending ∧ (retryOutput c t s).dev = s.dev ∧ (retryOutput c t s).jtag = s.jtag := by
  unfold retryOutput
  refine ⟨?_, ?_, ?_⟩ <;> ((repeat' split) <;> simp)

@[simp] theorem exitEnd_stays (s : State) (c : Nat) (t : Ticket) (status : Byte) (len : W32) :
    (exitEnd s c t status len).2.pending = s.pending ∧
    (exitEnd s c t status len).2.dev = s.dev ∧
    (exitEnd s c t status len).2.jtag = s.jtag := by
  unfold exitEnd
  by_cases hd : decidesEnd t.act = false ∨ status = stIntegrity
  · simp [hd]
  · simp only [hd, if_false]
    generalize actOutcome _ _ _ _ = o
    cases o with
    | none => simp
    | some o => refine ⟨?_, ?_, ?_⟩ <;> ((repeat' split) <;> simp)

/-! ### System -/

theorem levelA_ok {c : Nat} {f : IRes} {nx : State} {npc : W64} (h : levelA c f = .ok nx npc) : f = .ok nx npc := by
  unfold levelA at h
  split at h
  · contradiction
  · exact h

theorem bodyExit_stays (c : Nat) (w : W32) (x : Core) (s : State) (nx : State) (npc : W64) (h : bodyExit c w x s = .ok nx npc) :
    nx.pending = s.pending ∧ nx.dev = s.dev ∧ nx.jtag = s.jtag := by
  unfold bodyExit at h
  have h := levelA_ok h
  dsimp only at h
  obtain h | h := IRes.ite_ok h
  · contradiction
  · split at h
    · cases h; exact ⟨rfl, rfl, rfl⟩
    · obtain h | h := IRes.ite_ok h
      · contradiction
      · have q := exitEnd_stays s c (by assumption) ((x.rg (fA w)).setWidth 8) ((x.rg (fB w)).setWidth 32)
        split at h
        · rename_i e; rw [e] at q; cases h; simpa using q
        · rename_i e; rw [e] at q; cases h
          split <;> simpa using q


theorem bodyWait_stays (c : Nat) (x : Core) (s : State) (nx : State) (npc : W64) (h : bodyWait c x s = .ok nx npc) :
    nx.pending = s.pending ∧ nx.dev = s.dev ∧ nx.jtag = s.jtag := by
  unfold bodyWait at h
  (repeat' (split at h)) <;> (cases h; simp)

theorem bodyTret_stays (c : Nat) (x : Core) (s : State) (nx : State) (npc : W64) (h : bodyTret c x s = .ok nx npc) :
    nx.pending = s.pending ∧ nx.dev = s.dev ∧ nx.jtag = s.jtag := by
  unfold bodyTret at h
  cases h; simp

theorem bodyIret_stays (c : Nat) (s : State) (nx : State) (npc : W64) (h : bodyIret c s = .ok nx npc) :
    nx.pending = s.pending ∧ nx.dev = s.dev ∧ nx.jtag = s.jtag := by
  unfold bodyIret at h
  (repeat' (split at h)) <;> first | contradiction | (cases h; simp)

theorem bodyKeyget_stays (c : Nat) (w : W32) (x : Core) (s : State) (nx : State) (npc : W64) (h : bodyKeyget c w x s = .ok nx npc) :
    nx.pending = s.pending ∧ nx.dev = s.dev ∧ nx.jtag = s.jtag := by
  unfold bodyKeyget at h
  have h := levelA_ok h
  obtain h | h := IRes.ite_ok h
  · contradiction
  · cases h; simp


theorem bodyFormget_stays (c : Nat) (w : W32) (x : Core) (s : State) (nx : State) (npc : W64) (h : bodyFormget c w x s = .ok nx npc) :
    nx.pending = s.pending ∧ nx.dev = s.dev ∧ nx.jtag = s.jtag := by
  unfold bodyFormget at h
  have h := levelA_ok h
  dsimp only at h
  obtain h | h := IRes.ite_ok h
  · contradiction
  · split at h
    · cases h; exact ⟨rfl, rfl, rfl⟩
    · split at h
      · exact retG_stays (h := h) ..
      · obtain h | h := IRes.ite_ok h
        · exact retG_stays (h := h) ..
        · obtain h | h := IRes.ite_ok h
          · contradiction
          · split at h
            · exact retG_stays (h := h) ..
            · have q := retG_stays (h := h) ..
              simpa using q


theorem bodyFormput_stays (c : Nat) (w : W32) (x : Core) (s : State) (nx : State) (npc : W64) (h : bodyFormput c w x s = .ok nx npc) :
    nx.pending = s.pending ∧ nx.dev = s.dev ∧ nx.jtag = s.jtag := by
  unfold bodyFormput at h
  have h := levelA_ok h
  dsimp only at h
  obtain h | h := IRes.ite_ok h
  · contradiction
  · obtain h | h := IRes.ite_ok h
    · cases h; simp
    · contradiction


theorem execMgmtInterrupt_stays (k : Nat) (s : State) (nx : State) (h : execMgmtInterrupt k s = .next nx) :
    nx.pending = s.pending ∧ nx.dev = s.dev ∧ nx.jtag = s.jtag := by
  unfold execMgmtInterrupt at h
  cases h
  refine unlessLocked_stays _ _ fun s => ?_
  simp

theorem execTimecmpReached_stays (c : Nat) (s : State) (nx : State) (h : execTimecmpReached c s = .next nx) :
    nx.pending = s.pending ∧ nx.dev = s.dev ∧ nx.jtag = s.jtag := by
  unfold execTimecmpReached at h
  cases h
  refine unlessLocked_stays _ _ fun s => ?_
  simp

/-! ### Commit -/

@[simp] theorem reprice_stays (a : Act) (new : Rat) (s : State) :
    (reprice a new s).pending = s.pending ∧ (reprice a new s).dev = s.dev ∧ (reprice a new s).jtag = s.jtag := by
  unfold reprice
  simp

@[simp] theorem learnCost_stays (t : Ticket) (s : State) :
    (learnCost t s).pending = s.pending ∧ (learnCost t s).dev = s.dev ∧ (learnCost t s).jtag = s.jtag := by
  unfold learnCost
  refine ⟨?_, ?_, ?_⟩ <;> ((repeat' split) <;> simp)

@[simp] theorem addCopy_stays (q : Copy) (t : Ticket) (s : State) :
    (addCopy q t s).pending = s.pending ∧ (addCopy q t s).dev = s.dev ∧ (addCopy q t s).jtag = s.jtag := by
  unfold addCopy
  simp

@[simp] theorem keepGrant_stays (c : Nat) (k : Nat) (s : State) :
    (keepGrant c k s).pending = s.pending ∧ (keepGrant c k s).dev = s.dev ∧ (keepGrant c k s).jtag = s.jtag := by
  unfold keepGrant
  dsimp only
  refine ⟨?_, ?_, ?_⟩ <;> ((repeat' split) <;> simp)

@[simp] theorem takeOffer_stays (c : Nat) (t : Ticket) (s : State) :
    (takeOffer c t s).pending = s.pending ∧ (takeOffer c t s).dev = s.dev ∧ (takeOffer c t s).jtag = s.jtag := by
  unfold takeOffer
  dsimp only
  refine ⟨?_, ?_, ?_⟩ <;> ((repeat' split) <;> first | (simp; done) | (simp_all; done) | (have := roomFor_stays (h := by assumption) ..; simp_all; done))

@[simp] theorem commitLoad_stays (t : Ticket) (s : State) :
    (commitLoad t s).pending = s.pending ∧ (commitLoad t s).dev = s.dev ∧ (commitLoad t s).jtag = s.jtag := by
  unfold commitLoad
  dsimp only
  split
  · cases q : installAct (actHeader t.input) (some t.iid) (actCode t.input (actHeader t.input)) 0 s with
    | none => exact ⟨rfl, rfl, rfl⟩
    | some u => exact installAct_stays _ _ _ _ _ _ q
  · exact ⟨rfl, rfl, rfl⟩


@[simp] theorem commitUnload_stays (t : Ticket) (s : State) :
    (commitUnload t s).pending = s.pending ∧ (commitUnload t s).dev = s.dev ∧ (commitUnload t s).jtag = s.jtag := by
  unfold commitUnload
  simp

@[simp] theorem commitDone_stays (c : Nat) (t : Ticket) (s : State) :
    (commitDone c t s).pending = s.pending ∧ (commitDone c t s).dev = s.dev ∧ (commitDone c t s).jtag = s.jtag := by
  unfold commitDone
  simp

@[simp] theorem commitAs_stays (c : Nat) (t : Ticket) (status : Byte) (len : W32) (s : State) :
    (commitAs c t status len s).pending = s.pending ∧ (commitAs c t status len s).dev = s.dev ∧ (commitAs c t status len s).jtag = s.jtag := by
  unfold commitAs
  refine ⟨?_, ?_, ?_⟩ <;> ((repeat' split) <;> simp)

theorem ite_stays {p : Prop} [Decidable p] {a s : State} (h : a.pending = s.pending ∧ a.dev = s.dev ∧ a.jtag = s.jtag) :
    ((if p then a else s).pending = s.pending ∧ (if p then a else s).dev = s.dev ∧ (if p then a else s).jtag = s.jtag) ∧
    ((if p then s else a).pending = s.pending ∧ (if p then s else a).dev = s.dev ∧ (if p then s else a).jtag = s.jtag) := by
  constructor <;> split <;> first | exact h | exact ⟨rfl, rfl, rfl⟩

theorem execCommit_stays (c : Nat) (s : State) (nx : State) (h : execCommit c s = .next nx) :
    nx.pending = s.pending ∧ nx.dev = s.dev ∧ nx.jtag = s.jtag := by
  unfold execCommit at h
  cases h
  refine unlessLocked_stays _ _ fun s => ?_
  cases ticketOn s c with
  | none => exact ⟨rfl, rfl, rfl⟩
  | some t =>
    refine (ite_stays ?_).2
    generalize (core s c).run = r
    have d := fun st ln => commitAs_stays c t st ln s
    cases r with
    | exiting st ln =>
      have q := retryOutput_stays c t s
      have d := commitAs_stays c t st ln (retryOutput c t s)
      rw [q.1, q.2.1, q.2.2] at d
      dsimp only
      split
      · exact q
      · exact d
    | scrubbing =>
      cases q : t.signalled with
      | none => exact ⟨rfl, rfl, rfl⟩
      | some g => exact (ite_stays (d g.status g.len)).1
    | _ => exact ⟨rfl, rfl, rfl⟩

/-! ### Jtag -/

@[simp] theorem selectIr_stays (ir : Byte) (permitted : Bool) (s : State) : (selectIr ir permitted s).pending = s.pending ∧ (selectIr ir permitted s).dev = s.dev := by
  unfold selectIr
  simp

theorem execBypass_stays (s : State) (nx : State) (h : execBypass s = .next nx) : nx.pending = s.pending ∧ nx.dev = s.dev := by
  unfold execBypass at h
  cases h
  simp

theorem execIdcode_stays (s : State) (nx : State) (h : execIdcode s = .next nx) : nx.pending = s.pending ∧ nx.dev = s.dev := by
  unfold execIdcode at h
  cases h
  simp

theorem execSamplePreload_stays (s : State) (nx : State) (h : execSamplePreload s = .next nx) : nx.pending = s.pending ∧ nx.dev = s.dev := by
  unfold execSamplePreload at h
  cases h
  simp

theorem execExtest_stays (s : State) (nx : State) (h : execExtest s = .next nx) : nx.pending = s.pending ∧ nx.dev = s.dev := by
  unfold execExtest at h
  cases h
  simp

theorem execClamp_stays (s : State) (nx : State) (h : execClamp s = .next nx) : nx.pending = s.pending ∧ nx.dev = s.dev := by
  unfold execClamp at h
  cases h
  simp

theorem execHighz_stays (s : State) (nx : State) (h : execHighz s = .next nx) : nx.pending = s.pending ∧ nx.dev = s.dev := by
  unfold execHighz at h
  cases h
  simp

theorem execJtagReset_stays (s : State) (nx : State) (h : execJtagReset s = .next nx) : nx.pending = s.pending ∧ nx.dev = s.dev := by
  unfold execJtagReset at h
  cases h
  simp

@[simp] theorem dapDone_stays (v : W32) (s : State) : (dapDone v s).pending = s.pending ∧ (dapDone v s).dev = s.dev := by
  unfold dapDone
  simp

@[simp] theorem dapRefused_stays (addr : W32) (s : State) : (dapRefused addr s).pending = s.pending ∧ (dapRefused addr s).dev = s.dev := by
  unfold dapRefused
  simp

theorem dapRegWrite_stays (c : Nat) (r : DapReg) (v : W32) (s : State) (nx : State) (h : dapRegWrite c r v s = some nx) :
    nx.pending = s.pending ∧ nx.dev = s.dev ∧ nx.jtag = s.jtag := by
  unfold dapRegWrite at h
  dsimp only at h
  (repeat' (split at h)) <;> first | contradiction | (cases h; simp; done) | (simp_all; done) | (have := csrWrite_stays (h := by assumption) ..; simp_all; done)

@[simp] theorem dapControl_stays (c : Nat) (v : W32) (s : State) :
    (dapControl c v s).pending = s.pending ∧ (dapControl c v s).dev = s.dev ∧ (dapControl c v s).jtag = s.jtag := by
  unfold dapControl
  simp

@[simp] theorem dapRead_stays (space : Nat) (addr : W32) (s : State) : (dapRead space addr s).pending = s.pending ∧ (dapRead space addr s).dev = s.dev := by
  unfold dapRead
  refine ⟨?_, ?_⟩ <;> ((repeat' split) <;> simp)

@[simp] theorem dapWrite_stays (space : Nat) (addr : W32) (data : W32) (s : State) : (dapWrite space addr data s).pending = s.pending ∧ (dapWrite space addr data s).dev = s.dev := by
  unfold dapWrite
  dsimp only
  refine ⟨?_, ?_⟩ <;> ((repeat' split) <;> first | (simp; done) | (simp_all; done) | (have := dapRegWrite_stays (h := by assumption) ..; simp_all; done))

theorem withDap_stays (access : State → State) (s : State) (h : ∀ s, (access s).pending = s.pending ∧ (access s).dev = s.dev) :
    (withDap access s).pending = s.pending ∧ (withDap access s).dev = s.dev := by
  unfold withDap
  split
  · simp
  · simp [h]


theorem execDapRead_stays (space : Nat) (addr : W32) (s : State) (nx : State) (h : execDapRead space addr s = .next nx) :
    nx.pending = s.pending ∧ nx.dev = s.dev := by
  unfold execDapRead at h
  cases h
  exact withDap_stays _ _ fun s => by simp


theorem execDapWrite_stays (space : Nat) (addr : W32) (data : W32) (s : State) (nx : State)
    (h : execDapWrite space addr data s = .next nx) : nx.pending = s.pending ∧ nx.dev = s.dev := by
  unfold execDapWrite at h
  cases h
  exact withDap_stays _ _ fun s => by simp

/-! ### Tick -/

@[simp] theorem closeCycle_stays (s : State) :
    (closeCycle s).pending = s.pending ∧ (closeCycle s).dev = s.dev ∧ (closeCycle s).jtag = s.jtag := by
  unfold closeCycle
  simp

@[simp] theorem passTime_stays (d : Nat) (s : State) :
    (passTime d s).pending = s.pending ∧ (passTime d s).dev = s.dev ∧ (passTime d s).jtag = s.jtag := by
  unfold passTime
  simp

@[simp] theorem noRingEvent_stays (s : State) :
    (noRingEvent s).pending = s.pending ∧ (noRingEvent s).dev = s.dev ∧ (noRingEvent s).jtag = s.jtag := by
  unfold noRingEvent
  simp

theorem serveCore_stays (c : Nat) (a : State × List (BitVec 1024) × Option Nat) :
    (serveCore c a).1.pending = a.1.pending ∧ (serveCore c a).1.dev = a.1.dev ∧ (serveCore c a).1.jtag = a.1.jtag := by
  unfold serveCore
  dsimp only
  split
  · exact ⟨rfl, rfl, rfl⟩
  · simp

theorem serveCores_stays (l : List Nat) (a : State × List (BitVec 1024) × Option Nat) :
    (l.foldl (fun a c => serveCore c a) a).1.pending = a.1.pending ∧ (l.foldl (fun a c => serveCore c a) a).1.dev = a.1.dev ∧
    (l.foldl (fun a c => serveCore c a) a).1.jtag = a.1.jtag := by
  induction l generalizing a with
  | nil => exact ⟨rfl, rfl, rfl⟩
  | cons c r ih => rw [List.foldl_cons]; simp [ih, serveCore_stays]

@[simp] theorem mrgCycle_stays (r : Nat) (s : State) :
    (mrgCycle r s).pending = s.pending ∧ (mrgCycle r s).dev = s.dev ∧ (mrgCycle r s).jtag = s.jtag := by
  unfold mrgCycle
  dsimp only
  generalize List.filter _ (List.range 8) = up
  split
  · exact ⟨rfl, rfl, rfl⟩
  · generalize List.map _ (List.range 16) = l
    have q := serveCores_stays l
    split <;> simp [q]


@[simp] theorem countStall_stays (c : Nat) (s : State) :
    (countStall c s).pending = s.pending ∧ (countStall c s).dev = s.dev ∧ (countStall c s).jtag = s.jtag := by
  unfold countStall
  simp

@[simp] theorem ringCycle_stays (r : Nat) (s : State) :
    (ringCycle r s).pending = s.pending ∧ (ringCycle r s).dev = s.dev ∧ (ringCycle r s).jtag = s.jtag := by
  unfold ringCycle
  simp

@[simp] theorem ringCycles_stays (r : Nat) (t : Nat) (d : Nat) (s : State) :
    (ringCycles r t d s).pending = s.pending ∧ (ringCycles r t d s).dev = s.dev ∧ (ringCycles r t d s).jtag = s.jtag := by
  unfold ringCycles
  simp

@[simp] theorem tick_stays (s : State) :
    (tick s).pending = s.pending ∧ (tick s).dev = s.dev ∧ (tick s).jtag = s.jtag := by
  unfold tick
  simp

/-! ### MicroRun -/

theorem ires_microEnd_ok {m : Micro} {r : IRes} {m' : Micro} {t : State} (h : r.microEnd m = .ok m' t) : ∃ pc, r = .ok t pc := by
  cases r <;> cases h
  exact ⟨_, rfl⟩

theorem microAccess_stays (c : Nat) (req : Option (Bool × Nat × W64)) (cw : BitVec 160) (v : W64) (t : Tag) (m : Micro) (s : State)
    (m' : Micro) (nx : State) (h : microAccess c req cw v t m s = .ok m' nx) :
    nx.pending = s.pending ∧ nx.dev = s.dev ∧ nx.jtag = s.jtag := by
  unfold microAccess at h
  split at h
  · cases h; exact ⟨rfl, rfl, rfl⟩
  · split at h
    · cases h; exact loadAt_stays _ _ _ _ _ _ _ _ (by assumption)
    · contradiction
  · split at h
    · obtain ⟨pc, q⟩ := ires_microEnd_ok h
      exact storeAt_stays _ _ _ _ _ _ _ _ _ q
    · cases h; exact ⟨rfl, rfl, rfl⟩

theorem microCommit_stays (inRam : Bool) (c : Nat) (r : W32) (cw : BitVec 160) (rand : List (BitVec 1024)) (v : W64) (t : Tag) (m : Micro)
    (s : State) (m' : Micro) (nx : State) (h : microCommit inRam c r cw rand v t m s = .ok m' nx) :
    nx.pending = s.pending ∧ nx.dev = s.dev ∧ nx.jtag = s.jtag := by
  unfold microCommit at h
  dsimp only at h
  split at h
  · cases h; (repeat' split) <;> simp
  · split at h
    · cases h; (repeat' split) <;> simp
    · obtain ⟨pc, q⟩ := ires_microEnd_ok h
      have a := csrWrite_stays _ _ _ _ _ _ _ _ _ q
      rw [a.1, a.2.1, a.2.2]
      (repeat' split) <;> simp

theorem microWordRun_stays (inRam : Bool) (c : Nat) (r : W32) (cw : BitVec 160) (m : Micro) (s : State) (m' : Micro) (nx : State)
    (h : microWordRun inRam c r cw m s = .ok m' nx) : nx.pending = s.pending ∧ nx.dev = s.dev ∧ nx.jtag = s.jtag := by
  unfold microWordRun at h
  dsimp only at h
  split at h
  · contradiction
  · split at h
    · rename_i q1
      split at h
      · rename_i q2
        have a := microAccess_stays _ _ _ _ _ _ _ _ _ q1
        have b := microAccess_stays _ _ _ _ _ _ _ _ _ q2
        have d := microCommit_stays _ _ _ _ _ _ _ _ _ _ _ h
        simp_all
      · rename_i n; exact (n _ _ h).elim
    · rename_i n; exact (n _ _ h).elim

/-- A state that a routine leaves, at its end, at a word that waits or at a fault. -/
theorem microRun_stays (c : Nat) (r : W32) (n a : Nat) (p : MicroPath) (m : Micro) (s : State) (nx : State) (e : IRes)
    (h : microRun c r n a p m s = some e) (he : e.left? = some nx) :
    nx.pending = s.pending ∧ nx.dev = s.dev ∧ nx.jtag = s.jtag := by
  induction n generalizing a p m s with
  | zero =>
    unfold microRun at h
    split at h
    · cases h; cases he; simp
    · contradiction
  | succ n ih =>
    unfold microRun at h
    dsimp only at h
    (repeat' (split at h)) <;> first
      | contradiction
      | (cases h; cases he; done)
      | (cases h; cases he; simp; done)
      | (have b := ih _ _ _ _ h; simp [b]; done)
      | (have a := microWordRun_stays _ _ _ _ _ _ _ _ (by assumption)
         first
           | (cases h; cases he; simp [a]; done)
           | (have b := ih _ _ _ _ h; simp [a, b]))


theorem microEnd_stays (c : Nat) (r : W32) (s : State) (nx : State) (e : IRes) (h : microEnd c r s = some e) (he : e.left? = some nx) :
    nx.pending = s.pending ∧ nx.dev = s.dev ∧ nx.jtag = s.jtag := by
  unfold microEnd at h
  dsimp only at h
  split at h
  · contradiction
  · split at h
    · split at h
      · exact microRun_stays _ _ _ _ _ _ _ _ _ h he
      · cases h; cases he
    · split at h
      · cases h; cases he; exact ⟨rfl, rfl, rfl⟩
      · exact microRun_stays _ _ _ _ _ _ _ _ _ h he

/-! ### Scalar -/

theorem bodyRegArith_stays (c : Nat) (w : W32) (x : Core) (s : State) (nx : State) (npc : W64) (h : bodyRegArith c w x s = .ok nx npc) :
    nx.pending = s.pending ∧ nx.dev = s.dev ∧ nx.jtag = s.jtag := by
  unfold bodyRegArith at h
  dsimp only at h
  (repeat' (split at h)) <;> first | contradiction | (cases h; simp)

theorem bodyDivide_stays (c : Nat) (w : W32) (x : Core) (s : State) (nx : State) (npc : W64) (h : bodyDivide c w x s = .ok nx npc) :
    nx.pending = s.pending ∧ nx.dev = s.dev ∧ nx.jtag = s.jtag := by
  unfold bodyDivide at h
  (repeat' (split at h)) <;> first | contradiction | (cases h; simp)

theorem bodyImmArith_stays (c : Nat) (w : W32) (x : Core) (s : State) (nx : State) (npc : W64) (h : bodyImmArith c w x s = .ok nx npc) :
    nx.pending = s.pending ∧ nx.dev = s.dev ∧ nx.jtag = s.jtag := by
  unfold bodyImmArith at h
  (repeat' (split at h)) <;> first | contradiction | (cases h; simp)

theorem bodyShi_stays (c : Nat) (w : W32) (x : Core) (s : State) (nx : State) (npc : W64) (h : bodyShi c w x s = .ok nx npc) :
    nx.pending = s.pending ∧ nx.dev = s.dev ∧ nx.jtag = s.jtag := by
  unfold bodyShi at h
  (repeat' (split at h)) <;> first | contradiction | (cases h; simp)

theorem bodyLiz_stays (c : Nat) (w : W32) (x : Core) (s : State) (nx : State) (npc : W64) (h : bodyLiz c w x s = .ok nx npc) :
    nx.pending = s.pending ∧ nx.dev = s.dev ∧ nx.jtag = s.jtag := by
  unfold bodyLiz at h
  (repeat' (split at h)) <;> first | contradiction | (cases h; simp)

theorem bodyLik_stays (c : Nat) (w : W32) (x : Core) (s : State) (nx : State) (npc : W64) (h : bodyLik c w x s = .ok nx npc) :
    nx.pending = s.pending ∧ nx.dev = s.dev ∧ nx.jtag = s.jtag := by
  unfold bodyLik at h
  (repeat' (split at h)) <;> first | contradiction | (cases h; simp)

theorem bodyBranch_stays (w : W32) (x : Core) (s : State) (nx : State) (npc : W64) (h : bodyBranch w x s = .ok nx npc) :
    nx.pending = s.pending ∧ nx.dev = s.dev ∧ nx.jtag = s.jtag := by
  unfold bodyBranch at h
  dsimp only at h
  (repeat' (split at h)) <;> first | contradiction | (cases h; simp)

theorem bodyJmpl_stays (c : Nat) (w : W32) (x : Core) (s : State) (nx : State) (npc : W64) (h : bodyJmpl c w x s = .ok nx npc) :
    nx.pending = s.pending ∧ nx.dev = s.dev ∧ nx.jtag = s.jtag := by
  unfold bodyJmpl at h
  cases h; simp

theorem bodyJmplr_stays (c : Nat) (w : W32) (x : Core) (s : State) (nx : State) (npc : W64) (h : bodyJmplr c w x s = .ok nx npc) :
    nx.pending = s.pending ∧ nx.dev = s.dev ∧ nx.jtag = s.jtag := by
  unfold bodyJmplr at h
  dsimp only at h
  (repeat' (split at h)) <;> first | contradiction | (cases h; simp)

/-! ### VecMem -/

theorem bodyVload_stays (c : Nat) (w : W32) (x : Core) (s : State) (nx : State) (npc : W64) (h : bodyVload c w x s = .ok nx npc) :
    nx.pending = s.pending ∧ nx.dev = s.dev ∧ nx.jtag = s.jtag := by
  unfold bodyVload at h
  dsimp only at h
  (repeat' (split at h)) <;> first | contradiction | (cases h; simp)

theorem bodyVstore_stays (c : Nat) (w : W32) (x : Core) (s : State) (nx : State) (npc : W64) (h : bodyVstore c w x s = .ok nx npc) :
    nx.pending = s.pending ∧ nx.dev = s.dev ∧ nx.jtag = s.jtag := by
  unfold bodyVstore at h
  dsimp only at h
  (repeat' (split at h)) <;> first | contradiction | (cases h; simp)

@[simp] theorem recordCheck_stays (c : Nat) (s : State) :
    (recordCheck c s).pending = s.pending ∧ (recordCheck c s).dev = s.dev ∧ (recordCheck c s).jtag = s.jtag := by
  unfold recordCheck
  dsimp only
  refine ⟨?_, ?_, ?_⟩ <;> ((repeat' split) <;> simp)

theorem execVectorElementCheck_stays (c : Nat) (s : State) (nx : State) (h : execVectorElementCheck c s = .next nx) :
    nx.pending = s.pending ∧ nx.dev = s.dev ∧ nx.jtag = s.jtag := by
  unfold execVectorElementCheck at h
  cases h
  simp

/-! ### Rows -/

theorem throughRom_stays (c : Nat) (w : W32) (s : State) (body : Core → State → IRes) (x : Core) (nx : State)
    (h : ∀ npc, body x s = .ok nx npc → nx.pending = s.pending ∧ nx.dev = s.dev ∧ nx.jtag = s.jtag) (g : (body x s).ends = true)
    (e : (throughRom c w s body x).left? = some nx) :
    nx.pending = s.pending ∧ nx.dev = s.dev ∧ nx.jtag = s.jtag := by
  unfold throughRom at e
  split at e
  · cases q : body x s with
    | ok t pc => rw [q] at e; cases e; exact h _ q
    | exc a b => rw [q] at e; cases e
    | stall a => rw [q] at e; cases e
    | held t => simp [q, IRes.ends] at g
    | micro a t => simp [q, IRes.ends] at g
    | trapped t a b => simp [q, IRes.ends] at g
  · rename_i q
    exact microEnd_stays c w s nx _ q e


theorem runWord_stays (k : Klass) (c : Nat) (w : W32) (body : Core → State → IRes) (s : State)
    (h : ∀ x s nx npc, body x s = .ok nx npc → nx.pending = s.pending ∧ nx.dev = s.dev ∧ nx.jtag = s.jtag)
    (g : ∀ x s, (body x s).ends = true) :
    (runWord k c w body s).pending = s.pending ∧ (runWord k c w body s).dev = s.dev ∧ (runWord k c w body s).jtag = s.jtag := by
  unfold runWord
  split
  · exact issue_stays _ _ _ _ fun x nx e => throughRom_stays _ _ _ _ _ _ (by intro s e; contradiction) rfl e
  · split
    · exact issue_stays _ _ _ _ fun x nx e => throughRom_stays _ _ _ _ _ _ (fun s e => h _ _ _ _ e) (g _ _) e
    · exact ⟨rfl, rfl, rfl⟩


theorem execRegArith_stays (c : Nat) (w : W32) (s : State) (nx : State) (h : execRegArith c w s = .next nx) :
    nx.pending = s.pending ∧ nx.dev = s.dev ∧ nx.jtag = s.jtag := by
  unfold execRegArith at h
  cases h
  refine runWord_stays _ _ _ _ _ (fun x s nx npc h => ?_) (by simp)
  exact bodyRegArith_stays (h := h) ..

theorem execDivide_stays (c : Nat) (w : W32) (s : State) (nx : State) (h : execDivide c w s = .next nx) :
    nx.pending = s.pending ∧ nx.dev = s.dev ∧ nx.jtag = s.jtag := by
  unfold execDivide at h
  cases h
  refine runWord_stays _ _ _ _ _ (fun x s nx npc h => ?_) (by simp)
  exact bodyDivide_stays (h := h) ..

theorem execImmArith_stays (c : Nat) (w : W32) (s : State) (nx : State) (h : execImmArith c w s = .next nx) :
    nx.pending = s.pending ∧ nx.dev = s.dev ∧ nx.jtag = s.jtag := by
  unfold execImmArith at h
  cases h
  refine runWord_stays _ _ _ _ _ (fun x s nx npc h => ?_) (by simp)
  exact bodyImmArith_stays (h := h) ..

theorem execShi_stays (c : Nat) (w : W32) (s : State) (nx : State) (h : execShi c w s = .next nx) :
    nx.pending = s.pending ∧ nx.dev = s.dev ∧ nx.jtag = s.jtag := by
  unfold execShi at h
  cases h
  refine runWord_stays _ _ _ _ _ (fun x s nx npc h => ?_) (by simp)
  exact bodyShi_stays (h := h) ..

theorem execLiz_stays (c : Nat) (w : W32) (s : State) (nx : State) (h : execLiz c w s = .next nx) :
    nx.pending = s.pending ∧ nx.dev = s.dev ∧ nx.jtag = s.jtag := by
  unfold execLiz at h
  cases h
  refine runWord_stays _ _ _ _ _ (fun x s nx npc h => ?_) (by simp)
  exact bodyLiz_stays (h := h) ..

theorem execLik_stays (c : Nat) (w : W32) (s : State) (nx : State) (h : execLik c w s = .next nx) :
    nx.pending = s.pending ∧ nx.dev = s.dev ∧ nx.jtag = s.jtag := by
  unfold execLik at h
  cases h
  refine runWord_stays _ _ _ _ _ (fun x s nx npc h => ?_) (by simp)
  exact bodyLik_stays (h := h) ..

theorem execBranch_stays (c : Nat) (w : W32) (s : State) (nx : State) (h : execBranch c w s = .next nx) :
    nx.pending = s.pending ∧ nx.dev = s.dev ∧ nx.jtag = s.jtag := by
  unfold execBranch at h
  cases h
  refine runWord_stays _ _ _ _ _ (fun x s nx npc h => ?_) (by simp)
  exact bodyBranch_stays (h := h) ..

theorem execJmpl_stays (c : Nat) (w : W32) (s : State) (nx : State) (h : execJmpl c w s = .next nx) :
    nx.pending = s.pending ∧ nx.dev = s.dev ∧ nx.jtag = s.jtag := by
  unfold execJmpl at h
  cases h
  refine runWord_stays _ _ _ _ _ (fun x s nx npc h => ?_) (by simp)
  cases h; simp

theorem execJmplr_stays (c : Nat) (w : W32) (s : State) (nx : State) (h : execJmplr c w s = .next nx) :
    nx.pending = s.pending ∧ nx.dev = s.dev ∧ nx.jtag = s.jtag := by
  unfold execJmplr at h
  cases h
  refine runWord_stays _ _ _ _ _ (fun x s nx npc h => ?_) (by simp)
  exact bodyJmplr_stays (h := h) ..

theorem execVecAlu_stays (c : Nat) (w : W32) (s : State) (nx : State) (h : execVecAlu c w s = .next nx) :
    nx.pending = s.pending ∧ nx.dev = s.dev ∧ nx.jtag = s.jtag := by
  unfold execVecAlu at h
  cases h
  refine runWord_stays _ _ _ _ _ (fun x s nx npc h => ?_) (by simp)
  exact bodyVecAlu_stays (h := h) ..

theorem execVecMod_stays (c : Nat) (w : W32) (s : State) (nx : State) (h : execVecMod c w s = .next nx) :
    nx.pending = s.pending ∧ nx.dev = s.dev ∧ nx.jtag = s.jtag := by
  unfold execVecMod at h
  cases h
  refine runWord_stays _ _ _ _ _ (fun x s nx npc h => ?_) (by simp)
  exact bodyVecMod_stays (h := h) ..

theorem execVecReduce_stays (c : Nat) (w : W32) (s : State) (nx : State) (h : execVecReduce c w s = .next nx) :
    nx.pending = s.pending ∧ nx.dev = s.dev ∧ nx.jtag = s.jtag := by
  unfold execVecReduce at h
  cases h
  refine runWord_stays _ _ _ _ _ (fun x s nx npc h => ?_) (by simp)
  exact bodyVecReduce_stays (h := h) ..

theorem execVecGf_stays (c : Nat) (w : W32) (s : State) (nx : State) (h : execVecGf c w s = .next nx) :
    nx.pending = s.pending ∧ nx.dev = s.dev ∧ nx.jtag = s.jtag := by
  unfold execVecGf at h
  cases h
  refine runWord_stays _ _ _ _ _ (fun x s nx npc h => ?_) (by simp)
  exact bodyVecGf_stays (h := h) ..

theorem execVecPred_stays (c : Nat) (w : W32) (s : State) (nx : State) (h : execVecPred c w s = .next nx) :
    nx.pending = s.pending ∧ nx.dev = s.dev ∧ nx.jtag = s.jtag := by
  unfold execVecPred at h
  cases h
  refine runWord_stays _ _ _ _ _ (fun x s nx npc h => ?_) (by simp)
  exact bodyVecPred_stays (h := h) ..

theorem execVfence_stays (c : Nat) (w : W32) (s : State) (nx : State) (h : execVfence c w s = .next nx) :
    nx.pending = s.pending ∧ nx.dev = s.dev ∧ nx.jtag = s.jtag := by
  unfold execVfence at h
  cases h
  refine runWord_stays _ _ _ _ _ (fun x s nx npc h => ?_) (by simp)
  exact bodyVfence_stays (h := h) ..

@[simp] theorem noteRndWait_stays (c : Nat) (s : State) :
    (noteRndWait c s).pending = s.pending ∧ (noteRndWait c s).dev = s.dev ∧ (noteRndWait c s).jtag = s.jtag := by
  unfold noteRndWait
  simp

theorem runTriple_stays (k : Klass) (c : Nat) (w : W32) (s : State) (nx : State) (h : runTriple k c w s = .next nx) :
    nx.pending = s.pending ∧ nx.dev = s.dev ∧ nx.jtag = s.jtag := by
  have r := runWord_stays k c w (bodyTriple k c w) s (fun x s nx npc h => bodyTriple_stays _ _ _ _ _ _ _ h) (by simp)
  unfold runTriple at h
  dsimp only at h
  split at h <;> (cases h; simp [r])


theorem execVsxor_stays (c : Nat) (w : W32) (s : State) (nx : State) (h : execVsxor c w s = .next nx) :
    nx.pending = s.pending ∧ nx.dev = s.dev ∧ nx.jtag = s.jtag := runTriple_stays _ _ _ _ _ h


theorem execVsand_stays (c : Nat) (w : W32) (s : State) (nx : State) (h : execVsand c w s = .next nx) :
    nx.pending = s.pending ∧ nx.dev = s.dev ∧ nx.jtag = s.jtag := runTriple_stays _ _ _ _ _ h


theorem execVsadd_stays (c : Nat) (w : W32) (s : State) (nx : State) (h : execVsadd c w s = .next nx) :
    nx.pending = s.pending ∧ nx.dev = s.dev ∧ nx.jtag = s.jtag := runTriple_stays _ _ _ _ _ h


theorem execVsmmul_stays (c : Nat) (w : W32) (s : State) (nx : State) (h : execVsmmul c w s = .next nx) :
    nx.pending = s.pending ∧ nx.dev = s.dev ∧ nx.jtag = s.jtag := runTriple_stays _ _ _ _ _ h


theorem execVsref_stays (c : Nat) (w : W32) (s : State) (nx : State) (h : execVsref c w s = .next nx) :
    nx.pending = s.pending ∧ nx.dev = s.dev ∧ nx.jtag = s.jtag := runTriple_stays _ _ _ _ _ h


theorem execVsa2b_stays (c : Nat) (w : W32) (s : State) (nx : State) (h : execVsa2b c w s = .next nx) :
    nx.pending = s.pending ∧ nx.dev = s.dev ∧ nx.jtag = s.jtag := runTriple_stays _ _ _ _ _ h


theorem execVsb2a_stays (c : Nat) (w : W32) (s : State) (nx : State) (h : execVsb2a c w s = .next nx) :
    nx.pending = s.pending ∧ nx.dev = s.dev ∧ nx.jtag = s.jtag := runTriple_stays _ _ _ _ _ h


theorem execVld_stays (c : Nat) (w : W32) (s : State) (nx : State) (h : execVld c w s = .next nx) :
    nx.pending = s.pending ∧ nx.dev = s.dev ∧ nx.jtag = s.jtag := by
  unfold execVld at h
  cases h
  refine runWord_stays _ _ _ _ _ (fun x s nx npc h => ?_) (by simp)
  exact bodyVload_stays (h := h) ..

theorem execVlds_stays (c : Nat) (w : W32) (s : State) (nx : State) (h : execVlds c w s = .next nx) :
    nx.pending = s.pending ∧ nx.dev = s.dev ∧ nx.jtag = s.jtag := by
  unfold execVlds at h
  cases h
  refine runWord_stays _ _ _ _ _ (fun x s nx npc h => ?_) (by simp)
  exact bodyVload_stays (h := h) ..

theorem execVldx_stays (c : Nat) (w : W32) (s : State) (nx : State) (h : execVldx c w s = .next nx) :
    nx.pending = s.pending ∧ nx.dev = s.dev ∧ nx.jtag = s.jtag := by
  unfold execVldx at h
  cases h
  refine runWord_stays _ _ _ _ _ (fun x s nx npc h => ?_) (by simp)
  exact bodyVload_stays (h := h) ..

theorem execVst_stays (c : Nat) (w : W32) (s : State) (nx : State) (h : execVst c w s = .next nx) :
    nx.pending = s.pending ∧ nx.dev = s.dev ∧ nx.jtag = s.jtag := by
  unfold execVst at h
  cases h
  refine runWord_stays _ _ _ _ _ (fun x s nx npc h => ?_) (by simp)
  exact bodyVstore_stays (h := h) ..

theorem execVsts_stays (c : Nat) (w : W32) (s : State) (nx : State) (h : execVsts c w s = .next nx) :
    nx.pending = s.pending ∧ nx.dev = s.dev ∧ nx.jtag = s.jtag := by
  unfold execVsts at h
  cases h
  refine runWord_stays _ _ _ _ _ (fun x s nx npc h => ?_) (by simp)
  exact bodyVstore_stays (h := h) ..

theorem execVstx_stays (c : Nat) (w : W32) (s : State) (nx : State) (h : execVstx c w s = .next nx) :
    nx.pending = s.pending ∧ nx.dev = s.dev ∧ nx.jtag = s.jtag := by
  unfold execVstx at h
  cases h
  refine runWord_stays _ _ _ _ _ (fun x s nx npc h => ?_) (by simp)
  exact bodyVstore_stays (h := h) ..

theorem execFirstFaultLoad_stays (c : Nat) (w : W32) (s : State) (nx : State) (h : execFirstFaultLoad c w s = .next nx) :
    nx.pending = s.pending ∧ nx.dev = s.dev ∧ nx.jtag = s.jtag := by
  unfold execFirstFaultLoad at h
  cases h
  refine runWord_stays _ _ _ _ _ (fun x s nx npc h => ?_) (by simp)
  exact bodyVload_stays (h := h) ..

theorem execCsrr_stays (c : Nat) (w : W32) (s : State) (nx : State) (h : execCsrr c w s = .next nx) :
    nx.pending = s.pending ∧ nx.dev = s.dev ∧ nx.jtag = s.jtag := by
  unfold execCsrr at h
  cases h
  refine runWord_stays _ _ _ _ _ (fun x s nx npc h => ?_) (by simp)
  exact bodyCsrr_stays (h := h) ..

theorem execCsrw_stays (c : Nat) (w : W32) (s : State) (nx : State) (h : execCsrw c w s = .next nx) :
    nx.pending = s.pending ∧ nx.dev = s.dev ∧ nx.jtag = s.jtag := by
  unfold execCsrw at h
  cases h
  refine runWord_stays _ _ _ _ _ (fun x s nx npc h => ?_) (by simp)
  exact bodyCsrWrite_stays (h := h) ..

theorem execCsrs_stays (c : Nat) (w : W32) (s : State) (nx : State) (h : execCsrs c w s = .next nx) :
    nx.pending = s.pending ∧ nx.dev = s.dev ∧ nx.jtag = s.jtag := by
  unfold execCsrs at h
  cases h
  refine runWord_stays _ _ _ _ _ (fun x s nx npc h => ?_) (by simp)
  exact bodyCsrWrite_stays (h := h) ..

theorem execCsrc_stays (c : Nat) (w : W32) (s : State) (nx : State) (h : execCsrc c w s = .next nx) :
    nx.pending = s.pending ∧ nx.dev = s.dev ∧ nx.jtag = s.jtag := by
  unfold execCsrc at h
  cases h
  refine runWord_stays _ _ _ _ _ (fun x s nx npc h => ?_) (by simp)
  exact bodyCsrWrite_stays (h := h) ..

theorem execLoad_stays (c : Nat) (w : W32) (s : State) (nx : State) (h : execLoad c w s = .next nx) :
    nx.pending = s.pending ∧ nx.dev = s.dev ∧ nx.jtag = s.jtag := by
  unfold execLoad at h
  cases h
  refine runWord_stays _ _ _ _ _ (fun x s nx npc h => ?_) (by simp)
  exact bodyLoad_stays (h := h) ..

theorem execStore_stays (c : Nat) (w : W32) (s : State) (nx : State) (h : execStore c w s = .next nx) :
    nx.pending = s.pending ∧ nx.dev = s.dev ∧ nx.jtag = s.jtag := by
  unfold execStore at h
  cases h
  refine runWord_stays _ _ _ _ _ (fun x s nx npc h => ?_) (by simp)
  exact bodyStore_stays (h := h) ..

theorem execLdm_stays (c : Nat) (w : W32) (s : State) (nx : State) (h : execLdm c w s = .next nx) :
    nx.pending = s.pending ∧ nx.dev = s.dev ∧ nx.jtag = s.jtag := by
  unfold execLdm at h
  cases h
  refine runWord_stays _ _ _ _ _ (fun x s nx npc h => ?_) (by simp)
  exact bodyLdm_stays (h := h) ..

theorem execStm_stays (c : Nat) (w : W32) (s : State) (nx : State) (h : execStm c w s = .next nx) :
    nx.pending = s.pending ∧ nx.dev = s.dev ∧ nx.jtag = s.jtag := by
  unfold execStm at h
  cases h
  refine runWord_stays _ _ _ _ _ (fun x s nx npc h => ?_) (by simp)
  exact bodyStm_stays (h := h) ..

theorem execExit_stays (c : Nat) (w : W32) (s : State) (nx : State) (h : execExit c w s = .next nx) :
    nx.pending = s.pending ∧ nx.dev = s.dev ∧ nx.jtag = s.jtag := by
  unfold execExit at h
  cases h
  refine runWord_stays _ _ _ _ _ (fun x s nx npc h => ?_) (by simp)
  exact bodyExit_stays (h := h) ..

theorem execWait_stays (c : Nat) (w : W32) (s : State) (nx : State) (h : execWait c w s = .next nx) :
    nx.pending = s.pending ∧ nx.dev = s.dev ∧ nx.jtag = s.jtag := by
  unfold execWait at h
  cases h
  refine runWord_stays _ _ _ _ _ (fun x s nx npc h => ?_) (by simp)
  exact bodyWait_stays (h := h) ..

theorem execFence_stays (c : Nat) (w : W32) (s : State) (nx : State) (h : execFence c w s = .next nx) :
    nx.pending = s.pending ∧ nx.dev = s.dev ∧ nx.jtag = s.jtag := by
  unfold execFence at h
  cases h
  refine runWord_stays _ _ _ _ _ (fun x s nx npc h => ?_) (by simp)
  cases h; simp

theorem execTret_stays (c : Nat) (w : W32) (s : State) (nx : State) (h : execTret c w s = .next nx) :
    nx.pending = s.pending ∧ nx.dev = s.dev ∧ nx.jtag = s.jtag := by
  unfold execTret at h
  cases h
  refine runWord_stays _ _ _ _ _ (fun x s nx npc h => ?_) (by simp)
  cases h; simp

theorem execBrk_stays (c : Nat) (w : W32) (s : State) (nx : State) (h : execBrk c w s = .next nx) :
    nx.pending = s.pending ∧ nx.dev = s.dev ∧ nx.jtag = s.jtag := by
  unfold execBrk at h
  cases h
  refine runWord_stays _ _ _ _ _ (fun x s nx npc h => ?_) (by simp)
  (repeat' (split at h)) <;> first | contradiction | (cases h; simp)

theorem execIret_stays (c : Nat) (w : W32) (s : State) (nx : State) (h : execIret c w s = .next nx) :
    nx.pending = s.pending ∧ nx.dev = s.dev ∧ nx.jtag = s.jtag := by
  unfold execIret at h
  cases h
  refine runWord_stays _ _ _ _ _ (fun x s nx npc h => ?_) (by simp)
  exact bodyIret_stays (h := h) ..

theorem execKeyget_stays (c : Nat) (w : W32) (s : State) (nx : State) (h : execKeyget c w s = .next nx) :
    nx.pending = s.pending ∧ nx.dev = s.dev ∧ nx.jtag = s.jtag := by
  unfold execKeyget at h
  cases h
  refine runWord_stays _ _ _ _ _ (fun x s nx npc h => ?_) (by simp)
  exact bodyKeyget_stays (h := h) ..

theorem execFormget_stays (c : Nat) (w : W32) (s : State) (nx : State) (h : execFormget c w s = .next nx) :
    nx.pending = s.pending ∧ nx.dev = s.dev ∧ nx.jtag = s.jtag := by
  unfold execFormget at h
  cases h
  refine runWord_stays _ _ _ _ _ (fun x s nx npc h => ?_) (by simp)
  exact bodyFormget_stays (h := h) ..

theorem execFormput_stays (c : Nat) (w : W32) (s : State) (nx : State) (h : execFormput c w s = .next nx) :
    nx.pending = s.pending ∧ nx.dev = s.dev ∧ nx.jtag = s.jtag := by
  unfold execFormput at h
  cases h
  refine runWord_stays _ _ _ _ _ (fun x s nx npc h => ?_) (by simp)
  exact bodyFormput_stays (h := h) ..

end Sys2Proof.Machine
end

