-- ==== Sys2Proof/Laws/Exec.lean ====
section
/-!
SUPPORT. No command touches the queue of those that wait, or the part.
-/
namespace Sys2Proof.Machine

open Sys2Proof

theorem exec_keeps_queue_and_part (i : Instr) (s nx : State) (h : exec i s = .next nx) : nx.pending = s.pending ∧ nx.dev = s.dev := by
  cases i
  case registerWrite => have q := execRegisterWrite_stays _ _ _ _ _ h; exact ⟨q.1, q.2.1⟩
  case rcRegisterRead => have q := execRcRegisterRead_stays _ _ _ _ _ h; exact ⟨q.1, q.2.1⟩
  case flitReceive => have q := execFlitReceive_stays _ _ _ _ _ _ h; exact ⟨q.1, q.2.1⟩
  case creditReturn => have q := execCreditReturn_stays _ _ _ _ h; exact ⟨q.1, q.2.1⟩
  case transferDone => have q := execTransferDone_stays _ _ _ h; exact ⟨q.1, q.2.1⟩
  case memoryParityError => have q := execMemoryParityError_stays _ _ _ _ _ _ h; exact ⟨q.1, q.2.1⟩
  case rereadComplete => have q := execRereadComplete_stays _ _ _ _ _ h; exact ⟨q.1, q.2.1⟩
  case actStoreLineRewrite => have q := execActStoreLineRewrite_stays _ _ _ _ _ h; exact ⟨q.1, q.2.1⟩
  case d3hotEnter => have q := execD3hotEnter_stays _ _ h; exact ⟨q.1, q.2.1⟩
  case d0Return => have q := execD0Return_stays _ _ h; exact ⟨q.1, q.2.1⟩
  case instanceConfigWrite => have q := execInstanceConfigWrite_stays _ _ _ _ _ h; exact ⟨q.1, q.2.1⟩
  case itShareWrite => have q := execItShareWrite_stays _ _ _ _ h; exact ⟨q.1, q.2.1⟩
  case itCeilingWrite => have q := execItCeilingWrite_stays _ _ _ _ h; exact ⟨q.1, q.2.1⟩
  case activate => have q := execActivate_stays _ _ _ h; exact ⟨q.1, q.2.1⟩
  case stop => have q := execStop_stays _ _ _ h; exact ⟨q.1, q.2.1⟩
  case cancel => have q := execCancel_stays _ _ _ h; exact ⟨q.1, q.2.1⟩
  case resume => have q := execResume_stays _ _ _ h; exact ⟨q.1, q.2.1⟩
  case instReset => have q := execInstReset_stays _ _ _ h; exact ⟨q.1, q.2.1⟩
  case resetComplete => have q := execResetComplete_stays _ _ _ h; exact ⟨q.1, q.2.1⟩
  case remove => have q := execRemove_stays _ _ _ h; exact ⟨q.1, q.2.1⟩
  case removeComplete => have q := execRemoveComplete_stays _ _ _ h; exact ⟨q.1, q.2.1⟩
  case mbSend => have q := execMbSend_stays _ _ _ h; exact ⟨q.1, q.2.1⟩
  case mbAck => have q := execMbAck_stays _ _ _ h; exact ⟨q.1, q.2.1⟩
  case mbxSend => have q := execSend_stays _ _ _ h; exact ⟨q.1, q.2.1⟩
  case mbxAck => have q := execAck_stays _ _ _ h; exact ⟨q.1, q.2.1⟩
  case sqDoorbell => have q := execSqDoorbell_stays _ _ _ _ h; exact ⟨q.1, q.2.1⟩
  case cqDoorbell => have q := execCqDoorbell_stays _ _ _ _ h; exact ⟨q.1, q.2.1⟩
  case ticketFetch => have q := execTicketFetch_stays _ _ _ h; exact ⟨q.1, q.2.1⟩
  case ticketReadCompletion => have q := execTicketReadCompletion_stays _ _ _ _ _ h; exact ⟨q.1, q.2.1⟩
  case completionTimeout => have q := execCompletionTimeout_stays _ _ _ _ h; exact ⟨q.1, q.2.1⟩
  case hostReadCompletion => have q := execHostReadCompletion_stays _ _ _ _ _ h; exact ⟨q.1, q.2.1⟩
  case inlineGo => have q := execInlineGo_stays _ _ _ h; exact ⟨q.1, q.2.1⟩
  case inlineCopyDone => have q := execInlineCopyDone_stays _ _ _ h; exact ⟨q.1, q.2.1⟩
  case abortStart => have q := execAbortStart_stays _ _ _ _ h; exact ⟨q.1, q.2.1⟩
  case abortDone => have q := execAbortDone_stays _ _ _ h; exact ⟨q.1, q.2.1⟩
  case ticketEntry => have q := execTicketEntry_stays _ _ _ h; exact ⟨q.1, q.2.1⟩
  case entitlementRecompute => have q := execEntitlementRecompute_stays _ _ h; exact ⟨q.1, q.2.1⟩
  case deadlineExpiry => have q := execDeadlineExpiry_stays _ _ _ h; exact ⟨q.1, q.2.1⟩
  case dispatchPass => have q := execDispatchPass_stays _ _ _ h; exact ⟨q.1, q.2.1⟩
  case copyValid => have q := execCopyValid_stays _ _ _ _ _ h; exact ⟨q.1, q.2.1⟩
  case copyFreed => have q := execCopyFreed_stays _ _ _ _ _ h; exact ⟨q.1, q.2.1⟩
  case shareEpochBoundary => have q := execShareEpochBoundary_stays _ _ h; exact ⟨q.1, q.2.1⟩
  case epochNow => have q := execEpochNow_stays _ _ h; exact ⟨q.1, q.2.1⟩
  case commit => have q := execCommit_stays _ _ _ h; exact ⟨q.1, q.2.1⟩
  case regArith => have q := execRegArith_stays _ _ _ _ h; exact ⟨q.1, q.2.1⟩
  case divide => have q := execDivide_stays _ _ _ _ h; exact ⟨q.1, q.2.1⟩
  case immArith => have q := execImmArith_stays _ _ _ _ h; exact ⟨q.1, q.2.1⟩
  case shi => have q := execShi_stays _ _ _ _ h; exact ⟨q.1, q.2.1⟩
  case liz => have q := execLiz_stays _ _ _ _ h; exact ⟨q.1, q.2.1⟩
  case lik => have q := execLik_stays _ _ _ _ h; exact ⟨q.1, q.2.1⟩
  case load => have q := execLoad_stays _ _ _ _ h; exact ⟨q.1, q.2.1⟩
  case store => have q := execStore_stays _ _ _ _ h; exact ⟨q.1, q.2.1⟩
  case ldm => have q := execLdm_stays _ _ _ _ h; exact ⟨q.1, q.2.1⟩
  case stm => have q := execStm_stays _ _ _ _ h; exact ⟨q.1, q.2.1⟩
  case branch => have q := execBranch_stays _ _ _ _ h; exact ⟨q.1, q.2.1⟩
  case jmpl => have q := execJmpl_stays _ _ _ _ h; exact ⟨q.1, q.2.1⟩
  case jmplr => have q := execJmplr_stays _ _ _ _ h; exact ⟨q.1, q.2.1⟩
  case csrr => have q := execCsrr_stays _ _ _ _ h; exact ⟨q.1, q.2.1⟩
  case csrw => have q := execCsrw_stays _ _ _ _ h; exact ⟨q.1, q.2.1⟩
  case csrs => have q := execCsrs_stays _ _ _ _ h; exact ⟨q.1, q.2.1⟩
  case csrc => have q := execCsrc_stays _ _ _ _ h; exact ⟨q.1, q.2.1⟩
  case exit => have q := execExit_stays _ _ _ _ h; exact ⟨q.1, q.2.1⟩
  case wait => have q := execWait_stays _ _ _ _ h; exact ⟨q.1, q.2.1⟩
  case fence => have q := execFence_stays _ _ _ _ h; exact ⟨q.1, q.2.1⟩
  case tret => have q := execTret_stays _ _ _ _ h; exact ⟨q.1, q.2.1⟩
  case brk => have q := execBrk_stays _ _ _ _ h; exact ⟨q.1, q.2.1⟩
  case iret => have q := execIret_stays _ _ _ _ h; exact ⟨q.1, q.2.1⟩
  case keyget => have q := execKeyget_stays _ _ _ _ h; exact ⟨q.1, q.2.1⟩
  case formget => have q := execFormget_stays _ _ _ _ h; exact ⟨q.1, q.2.1⟩
  case formput => have q := execFormput_stays _ _ _ _ h; exact ⟨q.1, q.2.1⟩
  case mgmtInterrupt => have q := execMgmtInterrupt_stays _ _ _ h; exact ⟨q.1, q.2.1⟩
  case dmaStart => have q := execDmaStart_stays _ _ _ _ h; exact ⟨q.1, q.2.1⟩
  case dmaDone => have q := execDmaDone_stays _ _ _ h; exact ⟨q.1, q.2.1⟩
  case actLoad => have q := execActLoad_stays _ _ h; exact ⟨q.1, q.2.1⟩
  case unload => have q := execUnload_stays _ _ _ h; exact ⟨q.1, q.2.1⟩
  case actLoadDone => have q := execActLoadDone_stays _ _ _ _ _ h; exact ⟨q.1, q.2.1⟩
  case vecAlu => have q := execVecAlu_stays _ _ _ _ h; exact ⟨q.1, q.2.1⟩
  case vecMod => have q := execVecMod_stays _ _ _ _ h; exact ⟨q.1, q.2.1⟩
  case vecReduce => have q := execVecReduce_stays _ _ _ _ h; exact ⟨q.1, q.2.1⟩
  case vecGf => have q := execVecGf_stays _ _ _ _ h; exact ⟨q.1, q.2.1⟩
  case vsxor => have q := execVsxor_stays _ _ _ _ h; exact ⟨q.1, q.2.1⟩
  case vsand => have q := execVsand_stays _ _ _ _ h; exact ⟨q.1, q.2.1⟩
  case vsadd => have q := execVsadd_stays _ _ _ _ h; exact ⟨q.1, q.2.1⟩
  case vsmmul => have q := execVsmmul_stays _ _ _ _ h; exact ⟨q.1, q.2.1⟩
  case vsref => have q := execVsref_stays _ _ _ _ h; exact ⟨q.1, q.2.1⟩
  case vsa2b => have q := execVsa2b_stays _ _ _ _ h; exact ⟨q.1, q.2.1⟩
  case vsb2a => have q := execVsb2a_stays _ _ _ _ h; exact ⟨q.1, q.2.1⟩
  case vecPred => have q := execVecPred_stays _ _ _ _ h; exact ⟨q.1, q.2.1⟩
  case vfence => have q := execVfence_stays _ _ _ _ h; exact ⟨q.1, q.2.1⟩
  case vld => have q := execVld_stays _ _ _ _ h; exact ⟨q.1, q.2.1⟩
  case vlds => have q := execVlds_stays _ _ _ _ h; exact ⟨q.1, q.2.1⟩
  case vldx => have q := execVldx_stays _ _ _ _ h; exact ⟨q.1, q.2.1⟩
  case vst => have q := execVst_stays _ _ _ _ h; exact ⟨q.1, q.2.1⟩
  case vsts => have q := execVsts_stays _ _ _ _ h; exact ⟨q.1, q.2.1⟩
  case vstx => have q := execVstx_stays _ _ _ _ h; exact ⟨q.1, q.2.1⟩
  case firstFaultLoad => have q := execFirstFaultLoad_stays _ _ _ _ h; exact ⟨q.1, q.2.1⟩
  case vectorElementCheck => have q := execVectorElementCheck_stays _ _ _ h; exact ⟨q.1, q.2.1⟩
  case patchLoad => have q := execPatchLoad_stays _ _ _ _ h; exact ⟨q.1, q.2.1⟩
  case revert => have q := execRevert_stays _ _ h; exact ⟨q.1, q.2.1⟩
  case patchBroadcast => have q := execPatchBroadcast_stays _ _ h; exact ⟨q.1, q.2.1⟩
  case mrgSeedRequest => have q := execMrgSeedRequest_stays _ _ _ _ h; exact ⟨q.1, q.2.1⟩
  case mrgSeedArrival => have q := execMrgSeedArrival_stays _ _ _ _ h; exact ⟨q.1, q.2.1⟩
  case mrgInstanceStop => have q := execMrgInstanceStop_stays _ _ _ _ h; exact ⟨q.1, q.2.1⟩
  case randomnessWaitNotice => have q := execRandomnessWaitNotice_stays _ _ _ h; exact ⟨q.1, q.2.1⟩
  case dclGo => have q := execDclGo_stays _ _ _ _ h; exact ⟨q.1, q.2.1⟩
  case dclReleaseDone => have q := execDclReleaseDone_stays _ _ _ h; exact ⟨q.1, q.2.1⟩
  case heInit => have q := execHeInit_stays _ _ _ _ _ h; exact ⟨q.1, q.2.1⟩
  case heAbsorb => have q := execHeAbsorb_stays _ _ _ _ _ h; exact ⟨q.1, q.2.1⟩
  case heFinal => have q := execHeFinal_stays _ _ _ _ _ h; exact ⟨q.1, q.2.1⟩
  case heSqueeze => have q := execHeSqueeze_stays _ _ _ _ _ h; exact ⟨q.1, q.2.1⟩
  case heHash => have q := execHeHash_stays _ _ _ _ _ h; exact ⟨q.1, q.2.1⟩
  case heCopy => have q := execHeCopy_stays _ _ _ _ _ h; exact ⟨q.1, q.2.1⟩
  case heRandom => have q := execHeRandom_stays _ _ _ _ _ h; exact ⟨q.1, q.2.1⟩
  case heCmdDone => have q := execHeCmdDone_stays _ _ _ _ h; exact ⟨q.1, q.2.1⟩
  case meClaim => have q := execMeClaim_stays _ _ _ _ _ h; exact ⟨q.1, q.2.1⟩
  case meClaimGrant => have q := execMeClaimGrant_stays _ _ _ _ h; exact ⟨q.1, q.2.1⟩
  case meRelease => have q := execMeRelease_stays _ _ _ _ _ h; exact ⟨q.1, q.2.1⟩
  case meScrubDone => have q := execMeScrubDone_stays _ _ _ _ h; exact ⟨q.1, q.2.1⟩
  case meLoad => have q := execMeLoad_stays _ _ _ _ _ h; exact ⟨q.1, q.2.1⟩
  case meStore => have q := execMeStore_stays _ _ _ _ _ h; exact ⟨q.1, q.2.1⟩
  case meZero => have q := execMeZero_stays _ _ _ _ _ h; exact ⟨q.1, q.2.1⟩
  case aclr => have q := execAclr_stays _ _ _ _ _ h; exact ⟨q.1, q.2.1⟩
  case aload => have q := execAload_stays _ _ _ _ _ h; exact ⟨q.1, q.2.1⟩
  case astore => have q := execAstore_stays _ _ _ _ _ h; exact ⟨q.1, q.2.1⟩
  case ashr => have q := execAshr_stays _ _ _ _ _ h; exact ⟨q.1, q.2.1⟩
  case meMac => have q := execMeMac_stays _ _ _ _ _ h; exact ⟨q.1, q.2.1⟩
  case macl => have q := execMacl_stays _ _ _ _ _ h; exact ⟨q.1, q.2.1⟩
  case mrow => have q := execMrow_stays _ _ _ _ _ h; exact ⟨q.1, q.2.1⟩
  case meCmdDone => have q := execMeCmdDone_stays _ _ _ _ h; exact ⟨q.1, q.2.1⟩
  case ldkey => have q := execLdkey_stays _ _ _ _ _ h; exact ⟨q.1, q.2.1⟩
  case clrkey => have q := execClrkey_stays _ _ _ _ _ h; exact ⟨q.1, q.2.1⟩
  case derive => have q := execDerive_stays _ _ _ _ _ h; exact ⟨q.1, q.2.1⟩
  case enc => have q := execEnc_stays _ _ _ _ _ h; exact ⟨q.1, q.2.1⟩
  case dec => have q := execDec_stays _ _ _ _ _ h; exact ⟨q.1, q.2.1⟩
  case bcMac => have q := execBcMac_stays _ _ _ _ _ h; exact ⟨q.1, q.2.1⟩
  case pindec => have q := execPindec_stays _ _ _ _ _ h; exact ⟨q.1, q.2.1⟩
  case pinfmt => have q := execPinfmt_stays _ _ _ _ _ h; exact ⟨q.1, q.2.1⟩
  case pinenc => have q := execPinenc_stays _ _ _ _ _ h; exact ⟨q.1, q.2.1⟩
  case wrap => have q := execWrap_stays _ _ _ _ _ h; exact ⟨q.1, q.2.1⟩
  case unwrap => have q := execUnwrap_stays _ _ _ _ _ h; exact ⟨q.1, q.2.1⟩
  case bcCmdDone => have q := execBcCmdDone_stays _ _ _ _ h; exact ⟨q.1, q.2.1⟩
  case keyRequest => have q := execKeyRequest_stays _ _ _ _ h; exact ⟨q.1, q.2.1⟩
  case keyDeliveryComplete => have q := execKeyDeliveryComplete_stays _ _ _ h; exact ⟨q.1, q.2.1⟩
  case keyFillDone => have q := execKeyFillDone_stays _ _ _ h; exact ⟨q.1, q.2.1⟩
  case keyScrubDone => have q := execKeyScrubDone_stays _ _ _ h; exact ⟨q.1, q.2.1⟩
  case sweep => have q := execSweep_stays _ _ h; exact ⟨q.1, q.2.1⟩
  case ksDomainWrite => have q := execKsDomainWrite_stays _ _ _ _ _ h; exact ⟨q.1, q.2.1⟩
  case cerOpen => have q := execCerOpen_stays _ _ h; exact ⟨q.1, q.2.1⟩
  case component => have q := execComponent_stays _ _ h; exact ⟨q.1, q.2.1⟩
  case componentDone => have q := execComponentDone_stays _ _ h; exact ⟨q.1, q.2.1⟩
  case cerClose => have q := execCerClose_stays _ _ h; exact ⟨q.1, q.2.1⟩
  case cerCancel => have q := execCerCancel_stays _ _ h; exact ⟨q.1, q.2.1⟩
  case cerResume => have q := execCerResume_stays _ _ h; exact ⟨q.1, q.2.1⟩
  case portEnable => have q := execPortEnable_stays _ _ _ _ h; exact ⟨q.1, q.2.1⟩
  case portDisable => have q := execPortDisable_stays _ _ _ _ h; exact ⟨q.1, q.2.1⟩
  case linkRestart => have q := execLinkRestart_stays _ _ _ h; exact ⟨q.1, q.2.1⟩
  case linkUp => have q := execLinkUp_stays _ _ _ h; exact ⟨q.1, q.2.1⟩
  case linkDown => have q := execLinkDown_stays _ _ _ _ h; exact ⟨q.1, q.2.1⟩
  case frameReceive => have q := execFrameReceive_stays _ _ _ _ _ h; exact ⟨q.1, q.2.1⟩
  case dadTimeout => have q := execDadTimeout_stays _ _ _ h; exact ⟨q.1, q.2.1⟩
  case neighbourRetry => have q := execNeighbourRetry_stays _ _ _ _ h; exact ⟨q.1, q.2.1⟩
  case neighbourResolveFail => have q := execNeighbourResolveFail_stays _ _ _ _ h; exact ⟨q.1, q.2.1⟩
  case frameTransmit => have q := execFrameTransmit_stays _ _ _ _ h; exact ⟨q.1, q.2.1⟩
  case txtsPop => have q := execTxtsPop_stays _ _ _ h; exact ⟨q.1, q.2.1⟩
  case dolidInit => have q := execDolidInit_stays _ _ _ h; exact ⟨q.1, q.2.1⟩
  case dolidRequest => have q := execDolidRequest_stays _ _ _ _ h; exact ⟨q.1, q.2.1⟩
  case dolidAbort => have q := execDolidAbort_stays _ _ _ _ h; exact ⟨q.1, q.2.1⟩
  case dolidClose => have q := execDolidClose_stays _ _ _ _ h; exact ⟨q.1, q.2.1⟩
  case sessionIdleTimeout => have q := execSessionIdleTimeout_stays _ _ _ h; exact ⟨q.1, q.2.1⟩
  case cookieEpoch => have q := execCookieEpoch_stays _ _ h; exact ⟨q.1, q.2.1⟩
  case cookieDrawRetry => have q := execCookieDrawRetry_stays _ _ h; exact ⟨q.1, q.2.1⟩
  case txidHoldExpiry => have q := execTxidHoldExpiry_stays _ _ _ _ h; exact ⟨q.1, q.2.1⟩
  case peerRead => have q := execPeerRead_stays _ _ _ h; exact ⟨q.1, q.2.1⟩
  case peerWrite => have q := execPeerWrite_stays _ _ _ h; exact ⟨q.1, q.2.1⟩
  case peerClear => have q := execPeerClear_stays _ _ _ h; exact ⟨q.1, q.2.1⟩
  case gloveRefill => have q := execGloveRefill_stays _ _ h; exact ⟨q.1, q.2.1⟩
  case sourceSelect => have q := execSourceSelect_stays _ _ _ h; exact ⟨q.1, q.2.1⟩
  case ntSet => have q := execNtSet_stays _ _ _ h; exact ⟨q.1, q.2.1⟩
  case apply => have q := execApply_stays _ _ h; exact ⟨q.1, q.2.1⟩
  case slewDone => have q := execSlewDone_stays _ _ h; exact ⟨q.1, q.2.1⟩
  case ppsEdge => have q := execPpsEdge_stays _ _ h; exact ⟨q.1, q.2.1⟩
  case holdoverTimeout => have q := execHoldoverTimeout_stays _ _ h; exact ⟨q.1, q.2.1⟩
  case scheduleEntryWrite => have q := execScheduleEntryWrite_stays _ _ _ _ h; exact ⟨q.1, q.2.1⟩
  case scheduleFire => have q := execScheduleFire_stays _ _ _ h; exact ⟨q.1, q.2.1⟩
  case pulseEnd => have q := execPulseEnd_stays _ _ _ h; exact ⟨q.1, q.2.1⟩
  case sealNow => have q := execSealNow_stays _ _ h; exact ⟨q.1, q.2.1⟩
  case receiptHash => have q := execReceiptHash_stays _ _ h; exact ⟨q.1, q.2.1⟩
  case epochRootsDone => have q := execEpochRootsDone_stays _ _ h; exact ⟨q.1, q.2.1⟩
  case sealTicketEnd => have q := execSealTicketEnd_stays _ _ h; exact ⟨q.1, q.2.1⟩
  case sealCosignRetry => have q := execSealCosignRetry_stays _ _ h; exact ⟨q.1, q.2.1⟩
  case sealRecordWrite => have q := execSealRecordWrite_stays _ _ h; exact ⟨q.1, q.2.1⟩
  case audRingTailWrite => have q := execAudRingTailWrite_stays _ _ _ h; exact ⟨q.1, q.2.1⟩
  case clockGateClose => have q := execClockGateClose_stays _ _ _ h; exact ⟨q.1, q.2.1⟩
  case clockSwitch => have q := execClockSwitch_stays _ _ _ h; exact ⟨q.1, q.2.1⟩
  case frozenDomainTrip => have q := execFrozenDomainTrip_stays _ _ _ h; exact ⟨q.1, q.2.1⟩
  case pllTrip => have q := execPllTrip_stays _ _ _ _ h; exact ⟨q.1, q.2.1⟩
  case tioMonitorTrip => have q := execTioMonitorTrip_stays _ _ _ h; exact ⟨q.1, q.2.1⟩
  case aonMonitorTrip => have q := execAonMonitorTrip_stays _ _ _ h; exact ⟨q.1, q.2.1⟩
  case ref10Loss => have q := execRef10Loss_stays _ _ h; exact ⟨q.1, q.2.1⟩
  case refclkLoss => have q := execRefclkLoss_stays _ _ h; exact ⟨q.1, q.2.1⟩
  case pllLock => have q := execPllLock_stays _ _ _ h; exact ⟨q.1, q.2.1⟩
  case recoveryAttempt => have q := execRecoveryAttempt_stays _ _ _ h; exact ⟨q.1, q.2.1⟩
  case recoveryHoldDone => have q := execRecoveryHoldDone_stays _ _ _ h; exact ⟨q.1, q.2.1⟩
  case clkRecover => have q := execClkRecover_stays _ _ _ h; exact ⟨q.1, q.2.1⟩
  case tioTrimWrite => have q := execTioTrimWrite_stays _ _ _ h; exact ⟨q.1, q.2.1⟩
  case trimGate => have q := execTrimGate_stays _ _ _ h; exact ⟨q.1, q.2.1⟩
  case trimPtpStep => have q := execTrimPtpStep_stays _ _ h; exact ⟨q.1, q.2.1⟩
  case cardInsert => have q := execCardInsert_stays _ _ _ h; exact ⟨q.1, q.2.1⟩
  case cardRemove => have q := execCardRemove_stays _ _ _ h; exact ⟨q.1, q.2.1⟩
  case hcActivate => have q := execHcActivate_stays _ _ _ h; exact ⟨q.1, q.2.1⟩
  case hcDeactivate => have q := execHcDeactivate_stays _ _ _ h; exact ⟨q.1, q.2.1⟩
  case exchange => have q := execExchange_stays _ _ _ h; exact ⟨q.1, q.2.1⟩
  case resynch => have q := execResynch_stays _ _ _ h; exact ⟨q.1, q.2.1⟩
  case activationTimer => have q := execActivationTimer_stays _ _ _ _ h; exact ⟨q.1, q.2.1⟩
  case atrReceive => have q := execAtrReceive_stays _ _ _ _ _ h; exact ⟨q.1, q.2.1⟩
  case t1BlockReceive => have q := execT1BlockReceive_stays _ _ _ _ [] _ _ h; exact ⟨q.1, q.2.1⟩
  case t1Timeout => have q := execT1Timeout_stays _ _ _ h; exact ⟨q.1, q.2.1⟩
  case statusPoll => have q := execStatusPoll_stays _ _ _ h; exact ⟨q.1, q.2.1⟩
  case busyTimeout => have q := execBusyTimeout_stays _ _ _ h; exact ⟨q.1, q.2.1⟩
  case cardClockStop => have q := execCardClockStop_stays _ _ _ h; exact ⟨q.1, q.2.1⟩
  case cardVccFault => have q := execCardVccFault_stays _ _ _ h; exact ⟨q.1, q.2.1⟩
  case noiseWindowEnd => have q := execNoiseWindowEnd_stays _ _ _ _ h; exact ⟨q.1, q.2.1⟩
  case srcEnWrite => have q := execSrcEnWrite_stays _ _ _ h; exact ⟨q.1, q.2.1⟩
  case drbgKatDone => have q := execDrbgKatDone_stays _ _ _ h; exact ⟨q.1, q.2.1⟩
  case drbgInstantiateDone => have q := execDrbgInstantiateDone_stays _ _ _ h; exact ⟨q.1, q.2.1⟩
  case instantiate => have q := execInstantiate_stays _ _ h; exact ⟨q.1, q.2.1⟩
  case reseed => have q := execReseed_stays _ _ h; exact ⟨q.1, q.2.1⟩
  case reseedBlocking => have q := execReseedBlocking_stays _ _ h; exact ⟨q.1, q.2.1⟩
  case drbgReseedDone => have q := execDrbgReseedDone_stays _ _ _ h; exact ⟨q.1, q.2.1⟩
  case drbgRequest => have q := execDrbgRequest_stays _ _ _ h; exact ⟨q.1, q.2.1⟩
  case drbgRequestServed => have q := execDrbgRequestServed_stays _ _ _ h; exact ⟨q.1, q.2.1⟩
  case drbgHoldExpiry => have q := execDrbgHoldExpiry_stays _ _ _ h; exact ⟨q.1, q.2.1⟩
  case rngStatRead => have q := execRngStatRead_stays _ _ _ h; exact ⟨q.1, q.2.1⟩
  case rawCapture => have q := execRawCapture_stays _ _ _ h; exact ⟨q.1, q.2.1⟩
  case rawCaptureDone => have q := execRawCaptureDone_stays _ _ _ h; exact ⟨q.1, q.2.1⟩
  case faultEvent => have q := execFaultEvent_stays _ _ _ h; exact ⟨q.1, q.2.1⟩
  case faultRecordWrite => have q := execFaultRecordWrite_stays _ _ h; exact ⟨q.1, q.2.1⟩
  case snetNow => have q := execSnetNow_stays _ _ h; exact ⟨q.1, q.2.1⟩
  case fcModeWrite => have q := execFcModeWrite_stays _ _ _ h; exact ⟨q.1, q.2.1⟩
  case fcStickyClear => have q := execFcStickyClear_stays _ _ _ _ h; exact ⟨q.1, q.2.1⟩
  case pop => have q := execPop_stays _ _ h; exact ⟨q.1, q.2.1⟩
  case clear => have q := execClear_stays _ _ h; exact ⟨q.1, q.2.1⟩
  case fcRetire => have q := execFcRetire_stays _ _ _ h; exact ⟨q.1, q.2.1⟩
  case retireWindowReset => have q := execRetireWindowReset_stays _ _ h; exact ⟨q.1, q.2.1⟩
  case faultInject => have q := execFaultInject_stays _ _ h; exact ⟨q.1, q.2.1⟩
  case collectorParityError => have q := execCollectorParityError_stays _ _ _ _ h; exact ⟨q.1, q.2.1⟩
  case lockstepMismatch => have q := execLockstepMismatch_stays _ _ _ _ h; exact ⟨q.1, q.2.1⟩
  case lcTransition => have q := execLcTransition_stays _ _ _ _ _ h; exact ⟨q.1, q.2.1⟩
  case otpRowProgrammed => have q := execOtpRowProgrammed_stays _ _ _ h; exact ⟨q.1, q.2.1⟩
  case rootProgram => have q := execRootProgram_stays _ _ _ _ h; exact ⟨q.1, q.2.1⟩
  case challenge => have q := execChallenge_stays _ _ h; exact ⟨q.1, q.2.1⟩
  case verify => have q := execVerify_stays _ _ h; exact ⟨q.1, q.2.1⟩
  case verifyDone => have q := execVerifyDone_stays _ _ _ _ h; exact ⟨q.1, q.2.1⟩
  case dbgClose => have q := execDbgClose_stays _ _ h; exact ⟨q.1, q.2.1⟩
  case hold => have q := execHold_stays _ _ h; exact ⟨q.1, q.2.1⟩
  case release => have q := execRelease_stays _ _ h; exact ⟨q.1, q.2.1⟩
  case bypass => have q := execBypass_stays _ _ h; exact ⟨q.1, q.2⟩
  case idcode => have q := execIdcode_stays _ _ h; exact ⟨q.1, q.2⟩
  case samplePreload => have q := execSamplePreload_stays _ _ h; exact ⟨q.1, q.2⟩
  case extest => have q := execExtest_stays _ _ h; exact ⟨q.1, q.2⟩
  case clamp => have q := execClamp_stays _ _ h; exact ⟨q.1, q.2⟩
  case highz => have q := execHighz_stays _ _ h; exact ⟨q.1, q.2⟩
  case dapRead => have q := execDapRead_stays _ _ _ _ h; exact ⟨q.1, q.2⟩
  case dapWrite => have q := execDapWrite_stays _ _ _ _ _ h; exact ⟨q.1, q.2⟩
  case jtagReset => have q := execJtagReset_stays _ _ h; exact ⟨q.1, q.2⟩
  case powerOnReset => have q := execPowerOnReset_stays _ _ h; exact ⟨q.1, q.2.1⟩
  case powerGoodLoss => have q := execPowerGoodLoss_stays _ _ h; exact ⟨q.1, q.2.1⟩
  case perst => have q := execPerst_stays _ _ _ h; exact ⟨q.1, q.2.1⟩
  case warm => have q := execWarm_stays _ _ h; exact ⟨q.1, q.2.1⟩
  case warmResetEntriesDone => have q := execWarmResetEntriesDone_stays _ _ h; exact ⟨q.1, q.2.1⟩
  case ringGo => have q := execRingGo_stays _ _ _ h; exact ⟨q.1, q.2.1⟩
  case ringRelease => have q := execRingRelease_stays _ _ _ h; exact ⟨q.1, q.2.1⟩
  case bootSlotCheck => have q := execBootSlotCheck_stays _ _ _ _ _ h; exact ⟨q.1, q.2.1⟩
  case flashReadTimeout => have q := execFlashReadTimeout_stays _ _ h; exact ⟨q.1, q.2.1⟩
  case timecmpReached => have q := execTimecmpReached_stays _ _ _ h; exact ⟨q.1, q.2.1⟩
  case pwrgoodRise => have q := execPwrgoodRise_stays _ _ h; exact ⟨q.1, q.2.1⟩
  case tioStable => have q := execTioStable_stays _ _ h; exact ⟨q.1, q.2.1⟩
  case perstRelease => have q := execPerstRelease_stays _ _ h; exact ⟨q.1, q.2.1⟩
  case ref10Restored => have q := execRef10Restored_stays _ _ h; exact ⟨q.1, q.2.1⟩
  case refclkRestored => have q := execRefclkRestored_stays _ _ h; exact ⟨q.1, q.2.1⟩
  case lineError => have q := execLineError_stays _ _ _ h; exact ⟨q.1, q.2.1⟩
  case deactivationComplete => have q := execDeactivationComplete_stays _ _ _ h; exact ⟨q.1, q.2.1⟩
  case scrubComplete => have q := execScrubComplete_stays _ _ _ h; exact ⟨q.1, q.2.1⟩
  case bootCmdLoad => have q := execBootCmdLoad_stays _ _ _ h; exact ⟨q.1, q.2.1⟩

end Sys2Proof.Machine
end

