-- ==== Sys2Proof/Laws/Table.lean ====
section
/-!
SUPPORT. Laws of sparse tables: a read after a write, and that every operation keeps the canonical form.
-/
namespace Sys2Proof.Machine

open Sys2Proof

variable {α : Type}

theorem Table.get_erase_same (d : α) (t : Table α) (k : Nat) : Table.get d (Table.erase k t) k = d := by
  induction t with
  | nil => rfl
  | cons c r ih =>
    obtain ⟨a, v⟩ := c
    by_cases h : a = k
    · simpa [Table.erase, h] using ih
    · simpa [Table.erase, h, Table.get] using ih

theorem Table.get_erase_other (d : α) (t : Table α) {k j : Nat} (h : j ≠ k) :
    Table.get d (Table.erase k t) j = Table.get d t j := by
  induction t with
  | nil => rfl
  | cons c r ih =>
    obtain ⟨a, v⟩ := c
    by_cases hk : a = k
    · have hj : ¬ k = j := fun e => h e.symm
      simpa [Table.erase, hk, Table.get, hj] using ih
    · by_cases hj : a = j
      · subst hj; simp [Table.erase, hk, Table.get]
      · simpa [Table.erase, hk, Table.get, hj] using ih

theorem Table.get_ins_same (d : α) (t : Table α) (k : Nat) (v : α) (h : ∀ c ∈ t, c.1 ≠ k) :
    Table.get d (Table.ins k v t) k = v := by
  induction t with
  | nil => simp [Table.ins, Table.get]
  | cons c r ih =>
    obtain ⟨a, w⟩ := c
    have ha : a ≠ k := h (a, w) (by simp)
    by_cases hk : k < a
    · simp [Table.ins, hk, Table.get]
    · simpa [Table.ins, hk, Table.get, ha] using ih (fun c hc => h c (by simp [hc]))

theorem Table.get_ins_other (d : α) (t : Table α) {k j : Nat} (v : α) (h : j ≠ k) :
    Table.get d (Table.ins k v t) j = Table.get d t j := by
  have h' : ¬ k = j := fun e => h e.symm
  induction t with
  | nil => simp [Table.ins, Table.get, h']
  | cons c r ih =>
    obtain ⟨a, w⟩ := c
    by_cases hk : k < a
    · simp [Table.ins, hk, Table.get, h']
    · by_cases ha : a = j
      · subst ha; simp [Table.ins, hk, Table.get]
      · simpa [Table.ins, hk, Table.get, ha] using ih

/-- A read of the number written gives the value written. -/
@[simp] theorem Table.get_set_same [DecidableEq α] (d : α) (t : Table α) (k : Nat) (v : α) :
    Table.get d (Table.set d t k v) k = v := by
  unfold Table.set
  split
  · next h => rw [Table.get_erase_same, h]
  · exact Table.get_ins_same d _ k v (by intro c hc; simpa [Table.erase] using (List.mem_filter.mp hc).2)

/-- A write leaves every other number alone. -/
theorem Table.get_set_other [DecidableEq α] (d : α) (t : Table α) {k j : Nat} (v : α) (h : j ≠ k) :
    Table.get d (Table.set d t k v) j = Table.get d t j := by
  unfold Table.set
  split
  · exact Table.get_erase_other d t h
  · rw [Table.get_ins_other d _ v h, Table.get_erase_other d t h]

/-- What a table reads after a write. -/
theorem Table.get_set [DecidableEq α] (d : α) (t : Table α) (k j : Nat) (v : α) :
    Table.get d (Table.set d t k v) j = if j = k then v else Table.get d t j := by
  split
  · next h => subst h; simp
  · next h => exact Table.get_set_other d t v h

/-! ### The canonical form -/

theorem Table.wfFrom_mono [DecidableEq α] (d : α) (t : Table α) {m n : Nat} (h : m ≤ n) (w : Table.wfFrom d n t = true) :
    Table.wfFrom d m t = true := by
  cases t with
  | nil => rfl
  | cons c r =>
    obtain ⟨a, v⟩ := c
    simp only [Table.wfFrom, Bool.and_eq_true, decide_eq_true_eq] at w ⊢
    exact ⟨⟨Nat.le_trans h w.1.1, w.1.2⟩, w.2⟩

theorem Table.wfFrom_filter [DecidableEq α] (d : α) (p : Nat × α → Bool) (t : Table α) (n : Nat)
    (w : Table.wfFrom d n t = true) : Table.wfFrom d n (t.filter p) = true := by
  induction t generalizing n with
  | nil => rfl
  | cons c r ih =>
    obtain ⟨a, v⟩ := c
    simp only [Table.wfFrom, Bool.and_eq_true, decide_eq_true_eq] at w
    by_cases hp : p (a, v) = true
    · simp only [List.filter_cons, hp, if_true, Table.wfFrom, Bool.and_eq_true, decide_eq_true_eq]
      exact ⟨w.1, ih (a + 1) w.2⟩
    · simp only [List.filter_cons, hp]
      exact Table.wfFrom_mono d _ (Nat.le_succ_of_le w.1.1) (ih (a + 1) w.2)

theorem Table.wfFrom_ins [DecidableEq α] (d : α) (k : Nat) (v : α) (hv : v ≠ d) (t : Table α) (n : Nat) (hn : n ≤ k)
    (hk : ∀ c ∈ t, c.1 ≠ k) (w : Table.wfFrom d n t = true) : Table.wfFrom d n (Table.ins k v t) = true := by
  induction t generalizing n with
  | nil => simp [Table.ins, Table.wfFrom, hn, hv]
  | cons c r ih =>
    obtain ⟨a, x⟩ := c
    simp only [Table.wfFrom, Bool.and_eq_true, decide_eq_true_eq] at w
    have ha : a ≠ k := hk (a, x) (by simp)
    by_cases h : k < a
    · simp only [Table.ins, h, if_true, Table.wfFrom, Bool.and_eq_true, decide_eq_true_eq]
      exact ⟨⟨hn, hv⟩, ⟨h, w.1.2⟩, w.2⟩
    · simp only [Table.ins, h, if_false, Table.wfFrom, Bool.and_eq_true, decide_eq_true_eq]
      exact ⟨w.1, ih (a + 1) (by omega) (fun c hc => hk c (by simp [hc])) w.2⟩

theorem Table.wf_erase [DecidableEq α] (d : α) (t : Table α) (k : Nat) (w : Table.wf d t = true) :
    Table.wf d (Table.erase k t) = true := Table.wfFrom_filter d _ t 0 w

theorem Table.wf_clear [DecidableEq α] (d : α) (t : Table α) (lo n : Nat) (w : Table.wf d t = true) :
    Table.wf d (Table.clear t lo n) = true := Table.wfFrom_filter d _ t 0 w

theorem Table.wf_set [DecidableEq α] (d : α) (t : Table α) (k : Nat) (v : α) (w : Table.wf d t = true) :
    Table.wf d (Table.set d t k v) = true := by
  unfold Table.set
  split
  · exact Table.wf_erase d t k w
  · next hv =>
    exact Table.wfFrom_ins d k v hv _ 0 (Nat.zero_le k)
      (by intro c hc; simpa [Table.erase] using (List.mem_filter.mp hc).2) (Table.wf_erase d t k w)

theorem Table.erase_erase (t : Table α) (k : Nat) : Table.erase k (Table.erase k t) = Table.erase k t := by
  simp [Table.erase]

theorem Table.erase_ins (t : Table α) (k : Nat) (v : α) : Table.erase k (Table.ins k v t) = Table.erase k t := by
  induction t with
  | nil => simp [Table.ins, Table.erase]
  | cons c r ih =>
    obtain ⟨a, w⟩ := c
    unfold Table.ins
    split
    · simp [Table.erase]
    · simp only [Table.erase, List.filter_cons] at ih ⊢
      rw [ih]

/-- The later of two writes at one number stands. -/
@[simp] theorem Table.set_set [DecidableEq α] (d : α) (t : Table α) (k : Nat) (v w : α) :
    Table.set d (Table.set d t k v) k w = Table.set d t k w := by
  have e : Table.erase k (Table.set d t k v) = Table.erase k t := by
    unfold Table.set
    split
    · exact Table.erase_erase t k
    · rw [Table.erase_ins, Table.erase_erase]
  show (if w = d then Table.erase k (Table.set d t k v) else Table.ins k w (Table.erase k (Table.set d t k v))) = _
  rw [e]
  rfl

end Sys2Proof.Machine
end

