-- ==== Sys2Proof/Laws/State.lean ====
section
/-!
SUPPORT. What each update of State leaves alone, field by field, and what reads give after it. Every lemma is true by the definition.
-/
namespace Sys2Proof.Machine

open Sys2Proof

variable (s : State)

/-! ### setInst -/

@[simp] theorem setInst_dev (i : Nat) (x : Inst) : (setInst i x s).dev = s.dev := rfl
@[simp] theorem setInst_time (i : Nat) (x : Inst) : (setInst i x s).time = s.time := rfl
@[simp] theorem setInst_pcie (i : Nat) (x : Inst) : (setInst i x s).pcie = s.pcie := rfl
@[simp] theorem setInst_page (i : Nat) (x : Inst) : (setInst i x s).page = s.page := rfl
@[simp] theorem setInst_attn (i : Nat) (x : Inst) : (setInst i x s).attn = s.attn := rfl
@[simp] theorem setInst_tickets (i : Nat) (x : Inst) : (setInst i x s).tickets = s.tickets := rfl
@[simp] theorem setInst_nextTicket (i : Nat) (x : Inst) : (setInst i x s).nextTicket = s.nextTicket := rfl
@[simp] theorem setInst_ush (i : Nat) (x : Inst) : (setInst i x s).ush = s.ush := rfl
@[simp] theorem setInst_fabric (i : Nat) (x : Inst) : (setInst i x s).fabric = s.fabric := rfl
@[simp] theorem setInst_cores (i : Nat) (x : Inst) : (setInst i x s).cores = s.cores := rfl
@[simp] theorem setInst_corex (i : Nat) (x : Inst) : (setInst i x s).corex = s.corex := rfl
@[simp] theorem setInst_mgmt (i : Nat) (x : Inst) : (setInst i x s).mgmt = s.mgmt := rfl
@[simp] theorem setInst_mrg (i : Nat) (x : Inst) : (setInst i x s).mrg = s.mrg := rfl
@[simp] theorem setInst_mrgLast (i : Nat) (x : Inst) : (setInst i x s).mrgLast = s.mrgLast := rfl
@[simp] theorem setInst_mem (i : Nat) (x : Inst) : (setInst i x s).mem = s.mem := rfl
@[simp] theorem setInst_acts (i : Nat) (x : Inst) : (setInst i x s).acts = s.acts := rfl
@[simp] theorem setInst_patch (i : Nat) (x : Inst) : (setInst i x s).patch = s.patch := rfl
@[simp] theorem setInst_fc (i : Nat) (x : Inst) : (setInst i x s).fc = s.fc := rfl
@[simp] theorem setInst_fcq (i : Nat) (x : Inst) : (setInst i x s).fcq = s.fcq := rfl
@[simp] theorem setInst_hash (i : Nat) (x : Inst) : (setInst i x s).hash = s.hash := rfl
@[simp] theorem setInst_hashTurn (i : Nat) (x : Inst) : (setInst i x s).hashTurn = s.hashTurn := rfl
@[simp] theorem setInst_mewin (i : Nat) (x : Inst) : (setInst i x s).mewin = s.mewin := rfl
@[simp] theorem setInst_meng (i : Nat) (x : Inst) : (setInst i x s).meng = s.meng := rfl
@[simp] theorem setInst_bc (i : Nat) (x : Inst) : (setInst i x s).bc = s.bc := rfl
@[simp] theorem setInst_ks (i : Nat) (x : Inst) : (setInst i x s).ks = s.ks := rfl
@[simp] theorem setInst_net (i : Nat) (x : Inst) : (setInst i x s).net = s.net := rfl
@[simp] theorem setInst_dol (i : Nat) (x : Inst) : (setInst i x s).dol = s.dol := rfl
@[simp] theorem setInst_rm (i : Nat) (x : Inst) : (setInst i x s).rm = s.rm := rfl
@[simp] theorem setInst_aud (i : Nat) (x : Inst) : (setInst i x s).aud = s.aud := rfl
@[simp] theorem setInst_clk (i : Nat) (x : Inst) : (setInst i x s).clk = s.clk := rfl
@[simp] theorem setInst_hc (i : Nat) (x : Inst) : (setInst i x s).hc = s.hc := rfl
@[simp] theorem setInst_rng (i : Nat) (x : Inst) : (setInst i x s).rng = s.rng := rfl
@[simp] theorem setInst_lcs (i : Nat) (x : Inst) : (setInst i x s).lcs = s.lcs := rfl
@[simp] theorem setInst_jtag (i : Nat) (x : Inst) : (setInst i x s).jtag = s.jtag := rfl
@[simp] theorem setInst_boot (i : Nat) (x : Inst) : (setInst i x s).boot = s.boot := rfl
@[simp] theorem setInst_fresh (i : Nat) (x : Inst) : (setInst i x s).fresh = s.fresh := rfl
@[simp] theorem setInst_pending (i : Nat) (x : Inst) : (setInst i x s).pending = s.pending := rfl

/-! ### setPage -/

@[simp] theorem setPage_dev (i : Nat) (x : Page) : (setPage i x s).dev = s.dev := rfl
@[simp] theorem setPage_time (i : Nat) (x : Page) : (setPage i x s).time = s.time := rfl
@[simp] theorem setPage_pcie (i : Nat) (x : Page) : (setPage i x s).pcie = s.pcie := rfl
@[simp] theorem setPage_inst (i : Nat) (x : Page) : (setPage i x s).inst = s.inst := rfl
@[simp] theorem setPage_attn (i : Nat) (x : Page) : (setPage i x s).attn = s.attn := rfl
@[simp] theorem setPage_tickets (i : Nat) (x : Page) : (setPage i x s).tickets = s.tickets := rfl
@[simp] theorem setPage_nextTicket (i : Nat) (x : Page) : (setPage i x s).nextTicket = s.nextTicket := rfl
@[simp] theorem setPage_ush (i : Nat) (x : Page) : (setPage i x s).ush = s.ush := rfl
@[simp] theorem setPage_fabric (i : Nat) (x : Page) : (setPage i x s).fabric = s.fabric := rfl
@[simp] theorem setPage_cores (i : Nat) (x : Page) : (setPage i x s).cores = s.cores := rfl
@[simp] theorem setPage_corex (i : Nat) (x : Page) : (setPage i x s).corex = s.corex := rfl
@[simp] theorem setPage_mgmt (i : Nat) (x : Page) : (setPage i x s).mgmt = s.mgmt := rfl
@[simp] theorem setPage_mrg (i : Nat) (x : Page) : (setPage i x s).mrg = s.mrg := rfl
@[simp] theorem setPage_mrgLast (i : Nat) (x : Page) : (setPage i x s).mrgLast = s.mrgLast := rfl
@[simp] theorem setPage_mem (i : Nat) (x : Page) : (setPage i x s).mem = s.mem := rfl
@[simp] theorem setPage_acts (i : Nat) (x : Page) : (setPage i x s).acts = s.acts := rfl
@[simp] theorem setPage_patch (i : Nat) (x : Page) : (setPage i x s).patch = s.patch := rfl
@[simp] theorem setPage_fc (i : Nat) (x : Page) : (setPage i x s).fc = s.fc := rfl
@[simp] theorem setPage_fcq (i : Nat) (x : Page) : (setPage i x s).fcq = s.fcq := rfl
@[simp] theorem setPage_hash (i : Nat) (x : Page) : (setPage i x s).hash = s.hash := rfl
@[simp] theorem setPage_hashTurn (i : Nat) (x : Page) : (setPage i x s).hashTurn = s.hashTurn := rfl
@[simp] theorem setPage_mewin (i : Nat) (x : Page) : (setPage i x s).mewin = s.mewin := rfl
@[simp] theorem setPage_meng (i : Nat) (x : Page) : (setPage i x s).meng = s.meng := rfl
@[simp] theorem setPage_bc (i : Nat) (x : Page) : (setPage i x s).bc = s.bc := rfl
@[simp] theorem setPage_ks (i : Nat) (x : Page) : (setPage i x s).ks = s.ks := rfl
@[simp] theorem setPage_net (i : Nat) (x : Page) : (setPage i x s).net = s.net := rfl
@[simp] theorem setPage_dol (i : Nat) (x : Page) : (setPage i x s).dol = s.dol := rfl
@[simp] theorem setPage_rm (i : Nat) (x : Page) : (setPage i x s).rm = s.rm := rfl
@[simp] theorem setPage_aud (i : Nat) (x : Page) : (setPage i x s).aud = s.aud := rfl
@[simp] theorem setPage_clk (i : Nat) (x : Page) : (setPage i x s).clk = s.clk := rfl
@[simp] theorem setPage_hc (i : Nat) (x : Page) : (setPage i x s).hc = s.hc := rfl
@[simp] theorem setPage_rng (i : Nat) (x : Page) : (setPage i x s).rng = s.rng := rfl
@[simp] theorem setPage_lcs (i : Nat) (x : Page) : (setPage i x s).lcs = s.lcs := rfl
@[simp] theorem setPage_jtag (i : Nat) (x : Page) : (setPage i x s).jtag = s.jtag := rfl
@[simp] theorem setPage_boot (i : Nat) (x : Page) : (setPage i x s).boot = s.boot := rfl
@[simp] theorem setPage_fresh (i : Nat) (x : Page) : (setPage i x s).fresh = s.fresh := rfl
@[simp] theorem setPage_pending (i : Nat) (x : Page) : (setPage i x s).pending = s.pending := rfl

/-! ### setShare -/

@[simp] theorem setShare_dev (i : Nat) (x : Share) : (setShare i x s).dev = s.dev := rfl
@[simp] theorem setShare_time (i : Nat) (x : Share) : (setShare i x s).time = s.time := rfl
@[simp] theorem setShare_pcie (i : Nat) (x : Share) : (setShare i x s).pcie = s.pcie := rfl
@[simp] theorem setShare_inst (i : Nat) (x : Share) : (setShare i x s).inst = s.inst := rfl
@[simp] theorem setShare_page (i : Nat) (x : Share) : (setShare i x s).page = s.page := rfl
@[simp] theorem setShare_attn (i : Nat) (x : Share) : (setShare i x s).attn = s.attn := rfl
@[simp] theorem setShare_tickets (i : Nat) (x : Share) : (setShare i x s).tickets = s.tickets := rfl
@[simp] theorem setShare_nextTicket (i : Nat) (x : Share) : (setShare i x s).nextTicket = s.nextTicket := rfl
@[simp] theorem setShare_fabric (i : Nat) (x : Share) : (setShare i x s).fabric = s.fabric := rfl
@[simp] theorem setShare_cores (i : Nat) (x : Share) : (setShare i x s).cores = s.cores := rfl
@[simp] theorem setShare_corex (i : Nat) (x : Share) : (setShare i x s).corex = s.corex := rfl
@[simp] theorem setShare_mgmt (i : Nat) (x : Share) : (setShare i x s).mgmt = s.mgmt := rfl
@[simp] theorem setShare_mrg (i : Nat) (x : Share) : (setShare i x s).mrg = s.mrg := rfl
@[simp] theorem setShare_mrgLast (i : Nat) (x : Share) : (setShare i x s).mrgLast = s.mrgLast := rfl
@[simp] theorem setShare_mem (i : Nat) (x : Share) : (setShare i x s).mem = s.mem := rfl
@[simp] theorem setShare_acts (i : Nat) (x : Share) : (setShare i x s).acts = s.acts := rfl
@[simp] theorem setShare_patch (i : Nat) (x : Share) : (setShare i x s).patch = s.patch := rfl
@[simp] theorem setShare_fc (i : Nat) (x : Share) : (setShare i x s).fc = s.fc := rfl
@[simp] theorem setShare_fcq (i : Nat) (x : Share) : (setShare i x s).fcq = s.fcq := rfl
@[simp] theorem setShare_hash (i : Nat) (x : Share) : (setShare i x s).hash = s.hash := rfl
@[simp] theorem setShare_hashTurn (i : Nat) (x : Share) : (setShare i x s).hashTurn = s.hashTurn := rfl
@[simp] theorem setShare_mewin (i : Nat) (x : Share) : (setShare i x s).mewin = s.mewin := rfl
@[simp] theorem setShare_meng (i : Nat) (x : Share) : (setShare i x s).meng = s.meng := rfl
@[simp] theorem setShare_bc (i : Nat) (x : Share) : (setShare i x s).bc = s.bc := rfl
@[simp] theorem setShare_ks (i : Nat) (x : Share) : (setShare i x s).ks = s.ks := rfl
@[simp] theorem setShare_net (i : Nat) (x : Share) : (setShare i x s).net = s.net := rfl
@[simp] theorem setShare_dol (i : Nat) (x : Share) : (setShare i x s).dol = s.dol := rfl
@[simp] theorem setShare_rm (i : Nat) (x : Share) : (setShare i x s).rm = s.rm := rfl
@[simp] theorem setShare_aud (i : Nat) (x : Share) : (setShare i x s).aud = s.aud := rfl
@[simp] theorem setShare_clk (i : Nat) (x : Share) : (setShare i x s).clk = s.clk := rfl
@[simp] theorem setShare_hc (i : Nat) (x : Share) : (setShare i x s).hc = s.hc := rfl
@[simp] theorem setShare_rng (i : Nat) (x : Share) : (setShare i x s).rng = s.rng := rfl
@[simp] theorem setShare_lcs (i : Nat) (x : Share) : (setShare i x s).lcs = s.lcs := rfl
@[simp] theorem setShare_jtag (i : Nat) (x : Share) : (setShare i x s).jtag = s.jtag := rfl
@[simp] theorem setShare_boot (i : Nat) (x : Share) : (setShare i x s).boot = s.boot := rfl
@[simp] theorem setShare_fresh (i : Nat) (x : Share) : (setShare i x s).fresh = s.fresh := rfl
@[simp] theorem setShare_pending (i : Nat) (x : Share) : (setShare i x s).pending = s.pending := rfl

/-! ### setCore -/

@[simp] theorem setCore_dev (c : Nat) (x : Core) : (setCore c x s).dev = s.dev := rfl
@[simp] theorem setCore_time (c : Nat) (x : Core) : (setCore c x s).time = s.time := rfl
@[simp] theorem setCore_pcie (c : Nat) (x : Core) : (setCore c x s).pcie = s.pcie := rfl
@[simp] theorem setCore_inst (c : Nat) (x : Core) : (setCore c x s).inst = s.inst := rfl
@[simp] theorem setCore_page (c : Nat) (x : Core) : (setCore c x s).page = s.page := rfl
@[simp] theorem setCore_attn (c : Nat) (x : Core) : (setCore c x s).attn = s.attn := rfl
@[simp] theorem setCore_tickets (c : Nat) (x : Core) : (setCore c x s).tickets = s.tickets := rfl
@[simp] theorem setCore_nextTicket (c : Nat) (x : Core) : (setCore c x s).nextTicket = s.nextTicket := rfl
@[simp] theorem setCore_ush (c : Nat) (x : Core) : (setCore c x s).ush = s.ush := rfl
@[simp] theorem setCore_fabric (c : Nat) (x : Core) : (setCore c x s).fabric = s.fabric := rfl
@[simp] theorem setCore_corex (c : Nat) (x : Core) : (setCore c x s).corex = s.corex := rfl
@[simp] theorem setCore_mgmt (c : Nat) (x : Core) : (setCore c x s).mgmt = s.mgmt := rfl
@[simp] theorem setCore_mrg (c : Nat) (x : Core) : (setCore c x s).mrg = s.mrg := rfl
@[simp] theorem setCore_mrgLast (c : Nat) (x : Core) : (setCore c x s).mrgLast = s.mrgLast := rfl
@[simp] theorem setCore_mem (c : Nat) (x : Core) : (setCore c x s).mem = s.mem := rfl
@[simp] theorem setCore_acts (c : Nat) (x : Core) : (setCore c x s).acts = s.acts := rfl
@[simp] theorem setCore_patch (c : Nat) (x : Core) : (setCore c x s).patch = s.patch := rfl
@[simp] theorem setCore_fc (c : Nat) (x : Core) : (setCore c x s).fc = s.fc := rfl
@[simp] theorem setCore_fcq (c : Nat) (x : Core) : (setCore c x s).fcq = s.fcq := rfl
@[simp] theorem setCore_hash (c : Nat) (x : Core) : (setCore c x s).hash = s.hash := rfl
@[simp] theorem setCore_hashTurn (c : Nat) (x : Core) : (setCore c x s).hashTurn = s.hashTurn := rfl
@[simp] theorem setCore_mewin (c : Nat) (x : Core) : (setCore c x s).mewin = s.mewin := rfl
@[simp] theorem setCore_meng (c : Nat) (x : Core) : (setCore c x s).meng = s.meng := rfl
@[simp] theorem setCore_bc (c : Nat) (x : Core) : (setCore c x s).bc = s.bc := rfl
@[simp] theorem setCore_ks (c : Nat) (x : Core) : (setCore c x s).ks = s.ks := rfl
@[simp] theorem setCore_net (c : Nat) (x : Core) : (setCore c x s).net = s.net := rfl
@[simp] theorem setCore_dol (c : Nat) (x : Core) : (setCore c x s).dol = s.dol := rfl
@[simp] theorem setCore_rm (c : Nat) (x : Core) : (setCore c x s).rm = s.rm := rfl
@[simp] theorem setCore_aud (c : Nat) (x : Core) : (setCore c x s).aud = s.aud := rfl
@[simp] theorem setCore_clk (c : Nat) (x : Core) : (setCore c x s).clk = s.clk := rfl
@[simp] theorem setCore_hc (c : Nat) (x : Core) : (setCore c x s).hc = s.hc := rfl
@[simp] theorem setCore_rng (c : Nat) (x : Core) : (setCore c x s).rng = s.rng := rfl
@[simp] theorem setCore_lcs (c : Nat) (x : Core) : (setCore c x s).lcs = s.lcs := rfl
@[simp] theorem setCore_jtag (c : Nat) (x : Core) : (setCore c x s).jtag = s.jtag := rfl
@[simp] theorem setCore_boot (c : Nat) (x : Core) : (setCore c x s).boot = s.boot := rfl
@[simp] theorem setCore_fresh (c : Nat) (x : Core) : (setCore c x s).fresh = s.fresh := rfl
@[simp] theorem setCore_pending (c : Nat) (x : Core) : (setCore c x s).pending = s.pending := rfl

/-! ### setCorex -/

@[simp] theorem setCorex_dev (c : Nat) (x : CoreX) : (setCorex c x s).dev = s.dev := rfl
@[simp] theorem setCorex_time (c : Nat) (x : CoreX) : (setCorex c x s).time = s.time := rfl
@[simp] theorem setCorex_pcie (c : Nat) (x : CoreX) : (setCorex c x s).pcie = s.pcie := rfl
@[simp] theorem setCorex_inst (c : Nat) (x : CoreX) : (setCorex c x s).inst = s.inst := rfl
@[simp] theorem setCorex_page (c : Nat) (x : CoreX) : (setCorex c x s).page = s.page := rfl
@[simp] theorem setCorex_attn (c : Nat) (x : CoreX) : (setCorex c x s).attn = s.attn := rfl
@[simp] theorem setCorex_tickets (c : Nat) (x : CoreX) : (setCorex c x s).tickets = s.tickets := rfl
@[simp] theorem setCorex_nextTicket (c : Nat) (x : CoreX) : (setCorex c x s).nextTicket = s.nextTicket := rfl
@[simp] theorem setCorex_ush (c : Nat) (x : CoreX) : (setCorex c x s).ush = s.ush := rfl
@[simp] theorem setCorex_fabric (c : Nat) (x : CoreX) : (setCorex c x s).fabric = s.fabric := rfl
@[simp] theorem setCorex_cores (c : Nat) (x : CoreX) : (setCorex c x s).cores = s.cores := rfl
@[simp] theorem setCorex_mgmt (c : Nat) (x : CoreX) : (setCorex c x s).mgmt = s.mgmt := rfl
@[simp] theorem setCorex_mrg (c : Nat) (x : CoreX) : (setCorex c x s).mrg = s.mrg := rfl
@[simp] theorem setCorex_mrgLast (c : Nat) (x : CoreX) : (setCorex c x s).mrgLast = s.mrgLast := rfl
@[simp] theorem setCorex_mem (c : Nat) (x : CoreX) : (setCorex c x s).mem = s.mem := rfl
@[simp] theorem setCorex_acts (c : Nat) (x : CoreX) : (setCorex c x s).acts = s.acts := rfl
@[simp] theorem setCorex_patch (c : Nat) (x : CoreX) : (setCorex c x s).patch = s.patch := rfl
@[simp] theorem setCorex_fc (c : Nat) (x : CoreX) : (setCorex c x s).fc = s.fc := rfl
@[simp] theorem setCorex_fcq (c : Nat) (x : CoreX) : (setCorex c x s).fcq = s.fcq := rfl
@[simp] theorem setCorex_hash (c : Nat) (x : CoreX) : (setCorex c x s).hash = s.hash := rfl
@[simp] theorem setCorex_hashTurn (c : Nat) (x : CoreX) : (setCorex c x s).hashTurn = s.hashTurn := rfl
@[simp] theorem setCorex_mewin (c : Nat) (x : CoreX) : (setCorex c x s).mewin = s.mewin := rfl
@[simp] theorem setCorex_meng (c : Nat) (x : CoreX) : (setCorex c x s).meng = s.meng := rfl
@[simp] theorem setCorex_bc (c : Nat) (x : CoreX) : (setCorex c x s).bc = s.bc := rfl
@[simp] theorem setCorex_ks (c : Nat) (x : CoreX) : (setCorex c x s).ks = s.ks := rfl
@[simp] theorem setCorex_net (c : Nat) (x : CoreX) : (setCorex c x s).net = s.net := rfl
@[simp] theorem setCorex_dol (c : Nat) (x : CoreX) : (setCorex c x s).dol = s.dol := rfl
@[simp] theorem setCorex_rm (c : Nat) (x : CoreX) : (setCorex c x s).rm = s.rm := rfl
@[simp] theorem setCorex_aud (c : Nat) (x : CoreX) : (setCorex c x s).aud = s.aud := rfl
@[simp] theorem setCorex_clk (c : Nat) (x : CoreX) : (setCorex c x s).clk = s.clk := rfl
@[simp] theorem setCorex_hc (c : Nat) (x : CoreX) : (setCorex c x s).hc = s.hc := rfl
@[simp] theorem setCorex_rng (c : Nat) (x : CoreX) : (setCorex c x s).rng = s.rng := rfl
@[simp] theorem setCorex_lcs (c : Nat) (x : CoreX) : (setCorex c x s).lcs = s.lcs := rfl
@[simp] theorem setCorex_jtag (c : Nat) (x : CoreX) : (setCorex c x s).jtag = s.jtag := rfl
@[simp] theorem setCorex_boot (c : Nat) (x : CoreX) : (setCorex c x s).boot = s.boot := rfl
@[simp] theorem setCorex_fresh (c : Nat) (x : CoreX) : (setCorex c x s).fresh = s.fresh := rfl
@[simp] theorem setCorex_pending (c : Nat) (x : CoreX) : (setCorex c x s).pending = s.pending := rfl

/-! ### bump -/

@[simp] theorem bump_dev (reg f w : Nat) : (bump reg f w s).dev = s.dev := rfl
@[simp] theorem bump_pcie (reg f w : Nat) : (bump reg f w s).pcie = s.pcie := rfl
@[simp] theorem bump_inst (reg f w : Nat) : (bump reg f w s).inst = s.inst := rfl
@[simp] theorem bump_page (reg f w : Nat) : (bump reg f w s).page = s.page := rfl
@[simp] theorem bump_attn (reg f w : Nat) : (bump reg f w s).attn = s.attn := rfl
@[simp] theorem bump_tickets (reg f w : Nat) : (bump reg f w s).tickets = s.tickets := rfl
@[simp] theorem bump_nextTicket (reg f w : Nat) : (bump reg f w s).nextTicket = s.nextTicket := rfl
@[simp] theorem bump_ush (reg f w : Nat) : (bump reg f w s).ush = s.ush := rfl
@[simp] theorem bump_fabric (reg f w : Nat) : (bump reg f w s).fabric = s.fabric := rfl
@[simp] theorem bump_cores (reg f w : Nat) : (bump reg f w s).cores = s.cores := rfl
@[simp] theorem bump_corex (reg f w : Nat) : (bump reg f w s).corex = s.corex := rfl
@[simp] theorem bump_mgmt (reg f w : Nat) : (bump reg f w s).mgmt = s.mgmt := rfl
@[simp] theorem bump_mrg (reg f w : Nat) : (bump reg f w s).mrg = s.mrg := rfl
@[simp] theorem bump_mrgLast (reg f w : Nat) : (bump reg f w s).mrgLast = s.mrgLast := rfl
@[simp] theorem bump_mem (reg f w : Nat) : (bump reg f w s).mem = s.mem := rfl
@[simp] theorem bump_acts (reg f w : Nat) : (bump reg f w s).acts = s.acts := rfl
@[simp] theorem bump_patch (reg f w : Nat) : (bump reg f w s).patch = s.patch := rfl
@[simp] theorem bump_fc (reg f w : Nat) : (bump reg f w s).fc = s.fc := rfl
@[simp] theorem bump_fcq (reg f w : Nat) : (bump reg f w s).fcq = s.fcq := rfl
@[simp] theorem bump_hash (reg f w : Nat) : (bump reg f w s).hash = s.hash := rfl
@[simp] theorem bump_hashTurn (reg f w : Nat) : (bump reg f w s).hashTurn = s.hashTurn := rfl
@[simp] theorem bump_mewin (reg f w : Nat) : (bump reg f w s).mewin = s.mewin := rfl
@[simp] theorem bump_meng (reg f w : Nat) : (bump reg f w s).meng = s.meng := rfl
@[simp] theorem bump_bc (reg f w : Nat) : (bump reg f w s).bc = s.bc := rfl
@[simp] theorem bump_ks (reg f w : Nat) : (bump reg f w s).ks = s.ks := rfl
@[simp] theorem bump_net (reg f w : Nat) : (bump reg f w s).net = s.net := rfl
@[simp] theorem bump_dol (reg f w : Nat) : (bump reg f w s).dol = s.dol := rfl
@[simp] theorem bump_rm (reg f w : Nat) : (bump reg f w s).rm = s.rm := rfl
@[simp] theorem bump_aud (reg f w : Nat) : (bump reg f w s).aud = s.aud := rfl
@[simp] theorem bump_clk (reg f w : Nat) : (bump reg f w s).clk = s.clk := rfl
@[simp] theorem bump_hc (reg f w : Nat) : (bump reg f w s).hc = s.hc := rfl
@[simp] theorem bump_rng (reg f w : Nat) : (bump reg f w s).rng = s.rng := rfl
@[simp] theorem bump_lcs (reg f w : Nat) : (bump reg f w s).lcs = s.lcs := rfl
@[simp] theorem bump_jtag (reg f w : Nat) : (bump reg f w s).jtag = s.jtag := rfl
@[simp] theorem bump_boot (reg f w : Nat) : (bump reg f w s).boot = s.boot := rfl
@[simp] theorem bump_fresh (reg f w : Nat) : (bump reg f w s).fresh = s.fresh := rfl
@[simp] theorem bump_pending (reg f w : Nat) : (bump reg f w s).pending = s.pending := rfl

/-! ### rcClear -/

@[simp] theorem rcClear_dev (reg f : Nat) : (rcClear reg f s).dev = s.dev := rfl
@[simp] theorem rcClear_pcie (reg f : Nat) : (rcClear reg f s).pcie = s.pcie := rfl
@[simp] theorem rcClear_inst (reg f : Nat) : (rcClear reg f s).inst = s.inst := rfl
@[simp] theorem rcClear_page (reg f : Nat) : (rcClear reg f s).page = s.page := rfl
@[simp] theorem rcClear_attn (reg f : Nat) : (rcClear reg f s).attn = s.attn := rfl
@[simp] theorem rcClear_tickets (reg f : Nat) : (rcClear reg f s).tickets = s.tickets := rfl
@[simp] theorem rcClear_nextTicket (reg f : Nat) : (rcClear reg f s).nextTicket = s.nextTicket := rfl
@[simp] theorem rcClear_ush (reg f : Nat) : (rcClear reg f s).ush = s.ush := rfl
@[simp] theorem rcClear_fabric (reg f : Nat) : (rcClear reg f s).fabric = s.fabric := rfl
@[simp] theorem rcClear_cores (reg f : Nat) : (rcClear reg f s).cores = s.cores := rfl
@[simp] theorem rcClear_corex (reg f : Nat) : (rcClear reg f s).corex = s.corex := rfl
@[simp] theorem rcClear_mgmt (reg f : Nat) : (rcClear reg f s).mgmt = s.mgmt := rfl
@[simp] theorem rcClear_mrg (reg f : Nat) : (rcClear reg f s).mrg = s.mrg := rfl
@[simp] theorem rcClear_mrgLast (reg f : Nat) : (rcClear reg f s).mrgLast = s.mrgLast := rfl
@[simp] theorem rcClear_mem (reg f : Nat) : (rcClear reg f s).mem = s.mem := rfl
@[simp] theorem rcClear_acts (reg f : Nat) : (rcClear reg f s).acts = s.acts := rfl
@[simp] theorem rcClear_patch (reg f : Nat) : (rcClear reg f s).patch = s.patch := rfl
@[simp] theorem rcClear_fc (reg f : Nat) : (rcClear reg f s).fc = s.fc := rfl
@[simp] theorem rcClear_fcq (reg f : Nat) : (rcClear reg f s).fcq = s.fcq := rfl
@[simp] theorem rcClear_hash (reg f : Nat) : (rcClear reg f s).hash = s.hash := rfl
@[simp] theorem rcClear_hashTurn (reg f : Nat) : (rcClear reg f s).hashTurn = s.hashTurn := rfl
@[simp] theorem rcClear_mewin (reg f : Nat) : (rcClear reg f s).mewin = s.mewin := rfl
@[simp] theorem rcClear_meng (reg f : Nat) : (rcClear reg f s).meng = s.meng := rfl
@[simp] theorem rcClear_bc (reg f : Nat) : (rcClear reg f s).bc = s.bc := rfl
@[simp] theorem rcClear_ks (reg f : Nat) : (rcClear reg f s).ks = s.ks := rfl
@[simp] theorem rcClear_net (reg f : Nat) : (rcClear reg f s).net = s.net := rfl
@[simp] theorem rcClear_dol (reg f : Nat) : (rcClear reg f s).dol = s.dol := rfl
@[simp] theorem rcClear_rm (reg f : Nat) : (rcClear reg f s).rm = s.rm := rfl
@[simp] theorem rcClear_aud (reg f : Nat) : (rcClear reg f s).aud = s.aud := rfl
@[simp] theorem rcClear_clk (reg f : Nat) : (rcClear reg f s).clk = s.clk := rfl
@[simp] theorem rcClear_hc (reg f : Nat) : (rcClear reg f s).hc = s.hc := rfl
@[simp] theorem rcClear_rng (reg f : Nat) : (rcClear reg f s).rng = s.rng := rfl
@[simp] theorem rcClear_lcs (reg f : Nat) : (rcClear reg f s).lcs = s.lcs := rfl
@[simp] theorem rcClear_jtag (reg f : Nat) : (rcClear reg f s).jtag = s.jtag := rfl
@[simp] theorem rcClear_boot (reg f : Nat) : (rcClear reg f s).boot = s.boot := rfl
@[simp] theorem rcClear_fresh (reg f : Nat) : (rcClear reg f s).fresh = s.fresh := rfl
@[simp] theorem rcClear_pending (reg f : Nat) : (rcClear reg f s).pending = s.pending := rfl

/-! ### noteSet -/

@[simp] theorem noteSet_dev (reg : Nat) (b : W64) : (noteSet reg b s).dev = s.dev := rfl
@[simp] theorem noteSet_pcie (reg : Nat) (b : W64) : (noteSet reg b s).pcie = s.pcie := rfl
@[simp] theorem noteSet_inst (reg : Nat) (b : W64) : (noteSet reg b s).inst = s.inst := rfl
@[simp] theorem noteSet_page (reg : Nat) (b : W64) : (noteSet reg b s).page = s.page := rfl
@[simp] theorem noteSet_attn (reg : Nat) (b : W64) : (noteSet reg b s).attn = s.attn := rfl
@[simp] theorem noteSet_tickets (reg : Nat) (b : W64) : (noteSet reg b s).tickets = s.tickets := rfl
@[simp] theorem noteSet_nextTicket (reg : Nat) (b : W64) : (noteSet reg b s).nextTicket = s.nextTicket := rfl
@[simp] theorem noteSet_ush (reg : Nat) (b : W64) : (noteSet reg b s).ush = s.ush := rfl
@[simp] theorem noteSet_fabric (reg : Nat) (b : W64) : (noteSet reg b s).fabric = s.fabric := rfl
@[simp] theorem noteSet_cores (reg : Nat) (b : W64) : (noteSet reg b s).cores = s.cores := rfl
@[simp] theorem noteSet_corex (reg : Nat) (b : W64) : (noteSet reg b s).corex = s.corex := rfl
@[simp] theorem noteSet_mgmt (reg : Nat) (b : W64) : (noteSet reg b s).mgmt = s.mgmt := rfl
@[simp] theorem noteSet_mrg (reg : Nat) (b : W64) : (noteSet reg b s).mrg = s.mrg := rfl
@[simp] theorem noteSet_mrgLast (reg : Nat) (b : W64) : (noteSet reg b s).mrgLast = s.mrgLast := rfl
@[simp] theorem noteSet_mem (reg : Nat) (b : W64) : (noteSet reg b s).mem = s.mem := rfl
@[simp] theorem noteSet_acts (reg : Nat) (b : W64) : (noteSet reg b s).acts = s.acts := rfl
@[simp] theorem noteSet_patch (reg : Nat) (b : W64) : (noteSet reg b s).patch = s.patch := rfl
@[simp] theorem noteSet_fc (reg : Nat) (b : W64) : (noteSet reg b s).fc = s.fc := rfl
@[simp] theorem noteSet_fcq (reg : Nat) (b : W64) : (noteSet reg b s).fcq = s.fcq := rfl
@[simp] theorem noteSet_hash (reg : Nat) (b : W64) : (noteSet reg b s).hash = s.hash := rfl
@[simp] theorem noteSet_hashTurn (reg : Nat) (b : W64) : (noteSet reg b s).hashTurn = s.hashTurn := rfl
@[simp] theorem noteSet_mewin (reg : Nat) (b : W64) : (noteSet reg b s).mewin = s.mewin := rfl
@[simp] theorem noteSet_meng (reg : Nat) (b : W64) : (noteSet reg b s).meng = s.meng := rfl
@[simp] theorem noteSet_bc (reg : Nat) (b : W64) : (noteSet reg b s).bc = s.bc := rfl
@[simp] theorem noteSet_ks (reg : Nat) (b : W64) : (noteSet reg b s).ks = s.ks := rfl
@[simp] theorem noteSet_net (reg : Nat) (b : W64) : (noteSet reg b s).net = s.net := rfl
@[simp] theorem noteSet_dol (reg : Nat) (b : W64) : (noteSet reg b s).dol = s.dol := rfl
@[simp] theorem noteSet_rm (reg : Nat) (b : W64) : (noteSet reg b s).rm = s.rm := rfl
@[simp] theorem noteSet_aud (reg : Nat) (b : W64) : (noteSet reg b s).aud = s.aud := rfl
@[simp] theorem noteSet_clk (reg : Nat) (b : W64) : (noteSet reg b s).clk = s.clk := rfl
@[simp] theorem noteSet_hc (reg : Nat) (b : W64) : (noteSet reg b s).hc = s.hc := rfl
@[simp] theorem noteSet_rng (reg : Nat) (b : W64) : (noteSet reg b s).rng = s.rng := rfl
@[simp] theorem noteSet_lcs (reg : Nat) (b : W64) : (noteSet reg b s).lcs = s.lcs := rfl
@[simp] theorem noteSet_jtag (reg : Nat) (b : W64) : (noteSet reg b s).jtag = s.jtag := rfl
@[simp] theorem noteSet_boot (reg : Nat) (b : W64) : (noteSet reg b s).boot = s.boot := rfl
@[simp] theorem noteSet_fresh (reg : Nat) (b : W64) : (noteSet reg b s).fresh = s.fresh := rfl
@[simp] theorem noteSet_pending (reg : Nat) (b : W64) : (noteSet reg b s).pending = s.pending := rfl

/-! ### modTicket -/

@[simp] theorem modTicket_dev (k : Nat) (f : Ticket → Ticket) : (modTicket k f s).dev = s.dev := rfl
@[simp] theorem modTicket_time (k : Nat) (f : Ticket → Ticket) : (modTicket k f s).time = s.time := rfl
@[simp] theorem modTicket_pcie (k : Nat) (f : Ticket → Ticket) : (modTicket k f s).pcie = s.pcie := rfl
@[simp] theorem modTicket_inst (k : Nat) (f : Ticket → Ticket) : (modTicket k f s).inst = s.inst := rfl
@[simp] theorem modTicket_page (k : Nat) (f : Ticket → Ticket) : (modTicket k f s).page = s.page := rfl
@[simp] theorem modTicket_attn (k : Nat) (f : Ticket → Ticket) : (modTicket k f s).attn = s.attn := rfl
@[simp] theorem modTicket_nextTicket (k : Nat) (f : Ticket → Ticket) : (modTicket k f s).nextTicket = s.nextTicket := rfl
@[simp] theorem modTicket_ush (k : Nat) (f : Ticket → Ticket) : (modTicket k f s).ush = s.ush := rfl
@[simp] theorem modTicket_fabric (k : Nat) (f : Ticket → Ticket) : (modTicket k f s).fabric = s.fabric := rfl
@[simp] theorem modTicket_cores (k : Nat) (f : Ticket → Ticket) : (modTicket k f s).cores = s.cores := rfl
@[simp] theorem modTicket_corex (k : Nat) (f : Ticket → Ticket) : (modTicket k f s).corex = s.corex := rfl
@[simp] theorem modTicket_mgmt (k : Nat) (f : Ticket → Ticket) : (modTicket k f s).mgmt = s.mgmt := rfl
@[simp] theorem modTicket_mrg (k : Nat) (f : Ticket → Ticket) : (modTicket k f s).mrg = s.mrg := rfl
@[simp] theorem modTicket_mrgLast (k : Nat) (f : Ticket → Ticket) : (modTicket k f s).mrgLast = s.mrgLast := rfl
@[simp] theorem modTicket_mem (k : Nat) (f : Ticket → Ticket) : (modTicket k f s).mem = s.mem := rfl
@[simp] theorem modTicket_acts (k : Nat) (f : Ticket → Ticket) : (modTicket k f s).acts = s.acts := rfl
@[simp] theorem modTicket_patch (k : Nat) (f : Ticket → Ticket) : (modTicket k f s).patch = s.patch := rfl
@[simp] theorem modTicket_fc (k : Nat) (f : Ticket → Ticket) : (modTicket k f s).fc = s.fc := rfl
@[simp] theorem modTicket_fcq (k : Nat) (f : Ticket → Ticket) : (modTicket k f s).fcq = s.fcq := rfl
@[simp] theorem modTicket_hash (k : Nat) (f : Ticket → Ticket) : (modTicket k f s).hash = s.hash := rfl
@[simp] theorem modTicket_hashTurn (k : Nat) (f : Ticket → Ticket) : (modTicket k f s).hashTurn = s.hashTurn := rfl
@[simp] theorem modTicket_mewin (k : Nat) (f : Ticket → Ticket) : (modTicket k f s).mewin = s.mewin := rfl
@[simp] theorem modTicket_meng (k : Nat) (f : Ticket → Ticket) : (modTicket k f s).meng = s.meng := rfl
@[simp] theorem modTicket_bc (k : Nat) (f : Ticket → Ticket) : (modTicket k f s).bc = s.bc := rfl
@[simp] theorem modTicket_ks (k : Nat) (f : Ticket → Ticket) : (modTicket k f s).ks = s.ks := rfl
@[simp] theorem modTicket_net (k : Nat) (f : Ticket → Ticket) : (modTicket k f s).net = s.net := rfl
@[simp] theorem modTicket_dol (k : Nat) (f : Ticket → Ticket) : (modTicket k f s).dol = s.dol := rfl
@[simp] theorem modTicket_rm (k : Nat) (f : Ticket → Ticket) : (modTicket k f s).rm = s.rm := rfl
@[simp] theorem modTicket_aud (k : Nat) (f : Ticket → Ticket) : (modTicket k f s).aud = s.aud := rfl
@[simp] theorem modTicket_clk (k : Nat) (f : Ticket → Ticket) : (modTicket k f s).clk = s.clk := rfl
@[simp] theorem modTicket_hc (k : Nat) (f : Ticket → Ticket) : (modTicket k f s).hc = s.hc := rfl
@[simp] theorem modTicket_rng (k : Nat) (f : Ticket → Ticket) : (modTicket k f s).rng = s.rng := rfl
@[simp] theorem modTicket_lcs (k : Nat) (f : Ticket → Ticket) : (modTicket k f s).lcs = s.lcs := rfl
@[simp] theorem modTicket_jtag (k : Nat) (f : Ticket → Ticket) : (modTicket k f s).jtag = s.jtag := rfl
@[simp] theorem modTicket_boot (k : Nat) (f : Ticket → Ticket) : (modTicket k f s).boot = s.boot := rfl
@[simp] theorem modTicket_fresh (k : Nat) (f : Ticket → Ticket) : (modTicket k f s).fresh = s.fresh := rfl
@[simp] theorem modTicket_pending (k : Nat) (f : Ticket → Ticket) : (modTicket k f s).pending = s.pending := rfl

/-! ### dropTicket -/

@[simp] theorem dropTicket_dev (k : Nat) : (dropTicket k s).dev = s.dev := rfl
@[simp] theorem dropTicket_time (k : Nat) : (dropTicket k s).time = s.time := rfl
@[simp] theorem dropTicket_pcie (k : Nat) : (dropTicket k s).pcie = s.pcie := rfl
@[simp] theorem dropTicket_inst (k : Nat) : (dropTicket k s).inst = s.inst := rfl
@[simp] theorem dropTicket_page (k : Nat) : (dropTicket k s).page = s.page := rfl
@[simp] theorem dropTicket_attn (k : Nat) : (dropTicket k s).attn = s.attn := rfl
@[simp] theorem dropTicket_nextTicket (k : Nat) : (dropTicket k s).nextTicket = s.nextTicket := rfl
@[simp] theorem dropTicket_ush (k : Nat) : (dropTicket k s).ush = s.ush := rfl
@[simp] theorem dropTicket_fabric (k : Nat) : (dropTicket k s).fabric = s.fabric := rfl
@[simp] theorem dropTicket_cores (k : Nat) : (dropTicket k s).cores = s.cores := rfl
@[simp] theorem dropTicket_corex (k : Nat) : (dropTicket k s).corex = s.corex := rfl
@[simp] theorem dropTicket_mgmt (k : Nat) : (dropTicket k s).mgmt = s.mgmt := rfl
@[simp] theorem dropTicket_mrg (k : Nat) : (dropTicket k s).mrg = s.mrg := rfl
@[simp] theorem dropTicket_mrgLast (k : Nat) : (dropTicket k s).mrgLast = s.mrgLast := rfl
@[simp] theorem dropTicket_mem (k : Nat) : (dropTicket k s).mem = s.mem := rfl
@[simp] theorem dropTicket_acts (k : Nat) : (dropTicket k s).acts = s.acts := rfl
@[simp] theorem dropTicket_patch (k : Nat) : (dropTicket k s).patch = s.patch := rfl
@[simp] theorem dropTicket_fc (k : Nat) : (dropTicket k s).fc = s.fc := rfl
@[simp] theorem dropTicket_fcq (k : Nat) : (dropTicket k s).fcq = s.fcq := rfl
@[simp] theorem dropTicket_hash (k : Nat) : (dropTicket k s).hash = s.hash := rfl
@[simp] theorem dropTicket_hashTurn (k : Nat) : (dropTicket k s).hashTurn = s.hashTurn := rfl
@[simp] theorem dropTicket_mewin (k : Nat) : (dropTicket k s).mewin = s.mewin := rfl
@[simp] theorem dropTicket_meng (k : Nat) : (dropTicket k s).meng = s.meng := rfl
@[simp] theorem dropTicket_bc (k : Nat) : (dropTicket k s).bc = s.bc := rfl
@[simp] theorem dropTicket_ks (k : Nat) : (dropTicket k s).ks = s.ks := rfl
@[simp] theorem dropTicket_net (k : Nat) : (dropTicket k s).net = s.net := rfl
@[simp] theorem dropTicket_dol (k : Nat) : (dropTicket k s).dol = s.dol := rfl
@[simp] theorem dropTicket_rm (k : Nat) : (dropTicket k s).rm = s.rm := rfl
@[simp] theorem dropTicket_aud (k : Nat) : (dropTicket k s).aud = s.aud := rfl
@[simp] theorem dropTicket_clk (k : Nat) : (dropTicket k s).clk = s.clk := rfl
@[simp] theorem dropTicket_hc (k : Nat) : (dropTicket k s).hc = s.hc := rfl
@[simp] theorem dropTicket_rng (k : Nat) : (dropTicket k s).rng = s.rng := rfl
@[simp] theorem dropTicket_lcs (k : Nat) : (dropTicket k s).lcs = s.lcs := rfl
@[simp] theorem dropTicket_jtag (k : Nat) : (dropTicket k s).jtag = s.jtag := rfl
@[simp] theorem dropTicket_boot (k : Nat) : (dropTicket k s).boot = s.boot := rfl
@[simp] theorem dropTicket_fresh (k : Nat) : (dropTicket k s).fresh = s.fresh := rfl
@[simp] theorem dropTicket_pending (k : Nat) : (dropTicket k s).pending = s.pending := rfl

/-! ### Reads after updates -/

@[simp] theorem inst_setInst (i : Nat) (x : Inst) : inst (setInst i x s) i = x := by simp only [inst, setInst, Table.get_set_same]
theorem inst_setInst_other (i j : Nat) (x : Inst) (h : j ≠ i) : inst (setInst i x s) j = inst s j := by
  simp only [inst, setInst, Table.get_set_other _ _ _ h]
@[simp] theorem setInst_setInst (i : Nat) (x y : Inst) : setInst i x (setInst i y s) = setInst i x s := by simp only [setInst, Table.set_set]
@[simp] theorem inst_setPage (i j : Nat) (x : Page) : inst (setPage i x s) j = inst s j := rfl
@[simp] theorem inst_setShare (i j : Nat) (x : Share) : inst (setShare i x s) j = inst s j := rfl
@[simp] theorem inst_setCore (i j : Nat) (x : Core) : inst (setCore i x s) j = inst s j := rfl
@[simp] theorem inst_setCorex (i j : Nat) (x : CoreX) : inst (setCorex i x s) j = inst s j := rfl
@[simp] theorem inst_bump (r f w : Nat) (j : Nat) : inst (bump r f w s) j = inst s j := rfl
@[simp] theorem inst_noteSet (r : Nat) (b : W64) (j : Nat) : inst (noteSet r b s) j = inst s j := rfl
@[simp] theorem inst_modTicket (k : Nat) (f : Ticket → Ticket) (j : Nat) : inst (modTicket k f s) j = inst s j := rfl
@[simp] theorem inst_dropTicket (k : Nat) (j : Nat) : inst (dropTicket k s) j = inst s j := rfl

@[simp] theorem page_setPage (i : Nat) (x : Page) : page (setPage i x s) i = x := by simp only [page, setPage, Table.get_set_same]
theorem page_setPage_other (i j : Nat) (x : Page) (h : j ≠ i) : page (setPage i x s) j = page s j := by
  simp only [page, setPage, Table.get_set_other _ _ _ h]
@[simp] theorem setPage_setPage (i : Nat) (x y : Page) : setPage i x (setPage i y s) = setPage i x s := by simp only [setPage, Table.set_set]
@[simp] theorem page_setInst (i j : Nat) (x : Inst) : page (setInst i x s) j = page s j := rfl
@[simp] theorem page_setShare (i j : Nat) (x : Share) : page (setShare i x s) j = page s j := rfl
@[simp] theorem page_setCore (i j : Nat) (x : Core) : page (setCore i x s) j = page s j := rfl
@[simp] theorem page_setCorex (i j : Nat) (x : CoreX) : page (setCorex i x s) j = page s j := rfl
@[simp] theorem page_bump (r f w : Nat) (j : Nat) : page (bump r f w s) j = page s j := rfl
@[simp] theorem page_noteSet (r : Nat) (b : W64) (j : Nat) : page (noteSet r b s) j = page s j := rfl
@[simp] theorem page_modTicket (k : Nat) (f : Ticket → Ticket) (j : Nat) : page (modTicket k f s) j = page s j := rfl
@[simp] theorem page_dropTicket (k : Nat) (j : Nat) : page (dropTicket k s) j = page s j := rfl

@[simp] theorem share_setShare (i : Nat) (x : Share) : share (setShare i x s) i = x := by simp only [share, setShare, Table.get_set_same]
theorem share_setShare_other (i j : Nat) (x : Share) (h : j ≠ i) : share (setShare i x s) j = share s j := by
  simp only [share, setShare, Table.get_set_other _ _ _ h]
@[simp] theorem setShare_setShare (i : Nat) (x y : Share) : setShare i x (setShare i y s) = setShare i x s := by simp only [setShare, Table.set_set]
@[simp] theorem share_setInst (i j : Nat) (x : Inst) : share (setInst i x s) j = share s j := rfl
@[simp] theorem share_setPage (i j : Nat) (x : Page) : share (setPage i x s) j = share s j := rfl
@[simp] theorem share_setCore (i j : Nat) (x : Core) : share (setCore i x s) j = share s j := rfl
@[simp] theorem share_setCorex (i j : Nat) (x : CoreX) : share (setCorex i x s) j = share s j := rfl
@[simp] theorem share_bump (r f w : Nat) (j : Nat) : share (bump r f w s) j = share s j := rfl
@[simp] theorem share_noteSet (r : Nat) (b : W64) (j : Nat) : share (noteSet r b s) j = share s j := rfl
@[simp] theorem share_modTicket (k : Nat) (f : Ticket → Ticket) (j : Nat) : share (modTicket k f s) j = share s j := rfl
@[simp] theorem share_dropTicket (k : Nat) (j : Nat) : share (dropTicket k s) j = share s j := rfl

@[simp] theorem core_setCore (i : Nat) (x : Core) : core (setCore i x s) i = x := by simp only [core, setCore, Table.get_set_same]
theorem core_setCore_other (i j : Nat) (x : Core) (h : j ≠ i) : core (setCore i x s) j = core s j := by
  simp only [core, setCore, Table.get_set_other _ _ _ h]
@[simp] theorem setCore_setCore (i : Nat) (x y : Core) : setCore i x (setCore i y s) = setCore i x s := by simp only [setCore, Table.set_set]
@[simp] theorem core_setInst (i j : Nat) (x : Inst) : core (setInst i x s) j = core s j := rfl
@[simp] theorem core_setPage (i j : Nat) (x : Page) : core (setPage i x s) j = core s j := rfl
@[simp] theorem core_setShare (i j : Nat) (x : Share) : core (setShare i x s) j = core s j := rfl
@[simp] theorem core_setCorex (i j : Nat) (x : CoreX) : core (setCorex i x s) j = core s j := rfl
@[simp] theorem core_bump (r f w : Nat) (j : Nat) : core (bump r f w s) j = core s j := rfl
@[simp] theorem core_noteSet (r : Nat) (b : W64) (j : Nat) : core (noteSet r b s) j = core s j := rfl
@[simp] theorem core_modTicket (k : Nat) (f : Ticket → Ticket) (j : Nat) : core (modTicket k f s) j = core s j := rfl
@[simp] theorem core_dropTicket (k : Nat) (j : Nat) : core (dropTicket k s) j = core s j := rfl

@[simp] theorem corex_setCorex (i : Nat) (x : CoreX) : corex (setCorex i x s) i = x := by simp only [corex, setCorex, Table.get_set_same]
theorem corex_setCorex_other (i j : Nat) (x : CoreX) (h : j ≠ i) : corex (setCorex i x s) j = corex s j := by
  simp only [corex, setCorex, Table.get_set_other _ _ _ h]
@[simp] theorem setCorex_setCorex (i : Nat) (x y : CoreX) : setCorex i x (setCorex i y s) = setCorex i x s := by simp only [setCorex, Table.set_set]
@[simp] theorem corex_setInst (i j : Nat) (x : Inst) : corex (setInst i x s) j = corex s j := rfl
@[simp] theorem corex_setPage (i j : Nat) (x : Page) : corex (setPage i x s) j = corex s j := rfl
@[simp] theorem corex_setShare (i j : Nat) (x : Share) : corex (setShare i x s) j = corex s j := rfl
@[simp] theorem corex_setCore (i j : Nat) (x : Core) : corex (setCore i x s) j = corex s j := rfl
@[simp] theorem corex_bump (r f w : Nat) (j : Nat) : corex (bump r f w s) j = corex s j := rfl
@[simp] theorem corex_noteSet (r : Nat) (b : W64) (j : Nat) : corex (noteSet r b s) j = corex s j := rfl
@[simp] theorem corex_modTicket (k : Nat) (f : Ticket → Ticket) (j : Nat) : corex (modTicket k f s) j = corex s j := rfl
@[simp] theorem corex_dropTicket (k : Nat) (j : Nat) : corex (dropTicket k s) j = corex s j := rfl

end Sys2Proof.Machine
end

