-- ==== Sys2Proof/Laws/Issue.lean ====
section
/-!
SUPPORT. What the guards that most commands pass through come to under the conditions that statements name: a register write, an event, a
write of an instance's register, and the issue of one instruction.
-/
namespace Sys2Proof.Machine

open Sys2Proof

/-! ### Guards -/

theorem unlessLocked_live {f : State → State} {s : State} (h : Live s) : unlessLocked f s = f s := by
  simp [unlessLocked, h]

theorem unlessLocked_locked {f : State → State} {s : State} (h : s.fc.lock = true) : unlessLocked f s = s := by
  simp [unlessLocked, h]

theorem hostWrite_writable {f : State → State} {s : State} (h : Writable s) : hostWrite f s = f s := by
  simp [hostWrite, h.1, h.2]

theorem hostWrite_barred {f : State → State} {s : State} (h : ¬ Writable s) : hostWrite f s = s := by
  unfold hostWrite
  split
  · rfl
  · rename_i q
    exact absurd ⟨by simp_all, by simp_all⟩ h

theorem onInstance_present {f : State → State} {s : State} {i off : Nat} {v : W64} (h : Writable s) (p : iidPresent s i = true) :
    onInstance i off v f s = f s := by
  simp [onInstance, hostWrite_writable h, p]

theorem onInstance_absent {f : State → State} {s : State} {i off : Nat} {v : W64} (h : Writable s) (p : iidPresent s i = false) :
    onInstance i off v f s = ignoredWrite 0x13 off v none s := by
  simp [onInstance, hostWrite_writable h, p]

/-! ### Issue -/

/-- A word that issues is run by the body of its command. -/
theorem runWord_issues {k : Klass} {c : Nat} {w : W32} {s : State} (body : Core → State → IRes) (h : Issues k c w s) :
    runWord k c w body s = afterInstr c (match body (core s c) s with
      | .exc cause val => raise c cause val s
      | .micro addr t => takeMicroFault c addr t
      | .trapped t cause val => raise c cause val t
      | .stall excluded => if excluded then stallBegin c s else s
      | .held t => t
      | .ok t pc => completed c (coreNow s c) pc t) := by
  obtain ⟨hk, hi, hm, hs, ha, hf, hr, hh, hb, hx⟩ := h
  have hw : ¬ (klass w = .illegal ∨ (c = mgmtCore ∧ isVector w = true)) := by
    rintro (q | q)
    · exact hi (hk ▸ q)
    · exact hm q
  have b1 : ¬ (isBlockEnd w = true ∧ (corex s c).vec.checks ≠ []) := fun q => q.2 (hb q.1).1
  have b2 : ¬ (isBlockEnd w = true ∧ (corex s c).vec.pending = true) := fun q => by simp [(hb q.1).2] at q
  unfold runWord
  rw [if_neg hw, if_pos hk]
  unfold issue
  rw [if_neg (by simp [hs])]
  dsimp only
  rw [if_neg (by simp [ha]), if_neg (by simp [hf]), if_neg (by simp [hr]), if_neg (by simp [hh]), if_neg b1, if_neg b2]
  simp only [throughRom, hx]
  try rfl

theorem runWord_ok {k : Klass} {c : Nat} {w : W32} {s t : State} {pc : W64} (body : Core → State → IRes) (h : Issues k c w s)
    (e : body (core s c) s = .ok t pc) : runWord k c w body s = after c s t pc := by
  rw [runWord_issues body h, e]
  rfl

/-- On a core that is `Settled` an exception is taken at once. -/
theorem raise_settled {c : Nat} {s : State} (cause : Byte) (val : W64) (h : Settled c s) :
    raise c cause val s = takeTrap c cause val false s := by
  simp [raise, h.1, h.2]

theorem runWord_exc {k : Klass} {c : Nat} {w : W32} {s : State} {cause : Byte} {val : W64} (body : Core → State → IRes)
    (h : Issues k c w s) (q : Settled c s) (e : body (core s c) s = .exc cause val) :
    runWord k c w body s = afterInstr c (takeTrap c cause val false s) := by
  rw [runWord_issues body h, e]
  exact congrArg (afterInstr c) (raise_settled cause val q)

/-- An engine command's store issues as the window's own check decides. -/
theorem windowRow_atIssue {c : Nat} {s : State} (f : State → WRes) (h : AtIssue c s) :
    windowRow c f s = afterInstr c (match (f s).toIRes (core s c) with
      | .exc cause val => raise c cause val s
      | .micro addr t => takeMicroFault c addr t
      | .trapped t cause val => raise c cause val t
      | .stall excluded => if excluded then stallBegin c s else s
      | .held t => t
      | .ok t pc => completed c (coreNow s c) pc t) := by
  obtain ⟨hc, hs, ha, hf, hr, hh⟩ := h
  unfold windowRow
  rw [if_pos (by simpa [mgmtCore] using hc)]
  unfold issue
  rw [if_neg (by simp [hs])]
  dsimp only
  rw [if_neg (by simp [ha]), if_neg (by simp [hf]), if_neg (by simp [hr]), if_neg (by simp [hh]), if_neg (by simp), if_neg (by simp)]
  try rfl

end Sys2Proof.Machine
end

