-- ==== Sys2Proof/Laws/Memory.lean ====
section
/-!
SUPPORT. Laws of the byte and line-tag memories: a read after a write, and that every operation keeps the canonical form.
-/
namespace Sys2Proof.Machine

open Sys2Proof

theorem Memory.wf_iff (m : Memory) : Memory.wf m = true ↔
    Table.wf 0 m.coreMem = true ∧ Table.wf .pub m.coreTag = true ∧ Table.wf 0 m.ringMem = true ∧ Table.wf .pub m.ringTag = true
      ∧ Table.wf 0 m.workMem = true ∧ Table.wf .pub m.workTag = true ∧ Table.wf 0 m.loadWin = true
      ∧ Table.wf false m.coreParity = true ∧ Table.wf false m.ringParity = true ∧ Table.wf false m.workParity = true := by
  simp [Memory.wf, and_assoc]

/-! ### One byte -/

theorem readByte_writeByte_same (p : Place) (b : Byte) (s : State) : readByte (writeByte p b s) p = b := by
  cases p <;> simp [readByte, writeByte, Memory.put]

/-- Two places of one memory with different keys, or of different memories. -/
def Place.apart : Place → Place → Bool
  | .loc c o, .loc d n => (Place.loc c o).key != (Place.loc d n).key
  | .ring c o, .ring d n => (Place.ring c o).key != (Place.ring d n).key
  | .work o, .work n => (Place.work o).key != (Place.work n).key
  | _, _ => true

theorem readByte_writeByte_apart (p q : Place) (b : Byte) (s : State) (h : q.apart p = true) :
    readByte (writeByte p b s) q = readByte s q := by
  cases p <;> cases q <;> simp_all [readByte, writeByte, Memory.put, Place.apart, Table.get_set_other]

theorem writeByte_wf (p : Place) (b : Byte) (s : State) (h : s.mem.wf = true) : (writeByte p b s).mem.wf = true := by
  rw [Memory.wf_iff] at h ⊢
  cases p <;> simp_all [writeByte, Memory.put, withParity, Table.wf_set]

theorem setLineTag_wf (p : Place) (t : Tag) (s : State) (h : s.mem.wf = true) : (setLineTag p t s).mem.wf = true := by
  rw [Memory.wf_iff] at h ⊢
  cases p <;> simp_all [setLineTag, Table.wf_set]

/-! ### Many bytes -/

theorem writeBytes_wf (l : List Byte) (p : Place) (s : State) (h : s.mem.wf = true) : (writeBytes p l s).mem.wf = true := by
  induction l generalizing p s with
  | nil => exact h
  | cons b r ih => exact ih _ _ (writeByte_wf p b s h)

theorem foldl_wf {β : Type} (f : State → β → State) (hf : ∀ s b, s.mem.wf = true → (f s b).mem.wf = true) (l : List β) (s : State)
    (h : s.mem.wf = true) : (l.foldl f s).mem.wf = true := by
  induction l generalizing s with
  | nil => exact h
  | cons b r ih => exact ih _ (hf s b h)

theorem writeTagged_wf (p : Place) (l : List Byte) (t : Tag) (s : State) (h : s.mem.wf = true) :
    (writeTagged p l t s).mem.wf = true := by
  unfold writeTagged
  refine writeBytes_wf _ _ _ (foldl_wf _ ?_ _ _ h)
  intro s j hs
  dsimp only
  split <;> exact setLineTag_wf _ _ _ hs

theorem writeTaggedBy_wf (p : Place) (l : List Byte) (f : Nat → Tag) (s : State) (h : s.mem.wf = true) :
    (writeTaggedBy p l f s).mem.wf = true :=
  foldl_wf _ (fun _ _ hs => writeTagged_wf _ _ _ _ hs) _ _ h

theorem lineInTurn_wf (port j : Nat) (p : Place) (n : Nat) (before s : State) (h : s.mem.wf = true) :
    (lineInTurn port j p n before s).mem.wf = true := by
  unfold lineInTurn
  dsimp only
  have a : ((laterTurns before j port).foldl (fun s w => (List.range w.len).foldl
      (fun s k => writeByte ((p.lineStart j).add (w.off + k)) (readByte before ((p.lineStart j).add (w.off + k))) s) s)
      s).mem.wf = true :=
    foldl_wf _ (fun _ _ hs => foldl_wf _ (fun _ _ hs => writeByte_wf _ _ _ hs) _ _ hs) _ _ h
  split
  · exact a
  · split <;> exact setLineTag_wf _ _ _ a

/-- Serving the accesses of a cycle in their turn keeps the form. -/
theorem inTurn_wf (port : Nat) (p : Place) (n : Nat) (before s : State) (h : s.mem.wf = true) : (inTurn port p n before s).mem.wf = true := by
  cases p with
  | ring r o => exact foldl_wf _ (fun _ _ hs => lineInTurn_wf _ _ _ _ _ _ hs) _ _ h
  | _ => exact h

/-- Where no port whose turn comes later has written the lines, what this port wrote stands. -/
theorem inTurn_last (port : Nat) (p : Place) (n : Nat) (before s : State) (h : lastInTurn before port p n = true) :
    (inTurn port p n before s).mem = s.mem := by
  cases p with
  | ring r o =>
    have key : ∀ (l : List Nat) (s : State), (∀ j ∈ l, laterTurns before j port = []) →
        (l.foldl (fun s j => lineInTurn port j (.ring r o) n before s) s).mem = s.mem := by
      intro l
      induction l with
      | nil => intros; rfl
      | cons j l ih =>
        intro s hl
        rw [List.foldl_cons, ih _ fun k hk => hl k (List.mem_cons_of_mem j hk)]
        simp [lineInTurn, hl j List.mem_cons_self]
    exact key _ s (by simpa [lastInTurn] using h)
  | _ => rfl

theorem bankWrite_wf (port : Nat) (p : Place) (l : List Byte) (t : Tag) (s : State) (h : s.mem.wf = true) :
    (bankWrite port p l t s).mem.wf = true :=
  inTurn_wf _ _ _ _ _ (writeTagged_wf _ _ _ _ h)

theorem bankWriteBy_wf (port : Nat) (p : Place) (l : List Byte) (f : Nat → Tag) (s : State) (h : s.mem.wf = true) :
    (bankWriteBy port p l f s).mem.wf = true :=
  inTurn_wf _ _ _ _ _ (writeTaggedBy_wf _ _ _ _ h)

theorem moveLines_wf (q p : Place) (n : Nat) (s : State) (h : s.mem.wf = true) : (moveLines q p n s).mem.wf = true :=
  bankWriteBy_wf _ _ _ _ _ h

@[simp] theorem keepOld_mem (c : Nat) (p : Place) (n : Nat) (s : State) : (keepOld c p n s).mem = s.mem := rfl
@[simp] theorem dropOld_mem (c : Nat) (p : Place) (n : Nat) (s : State) : (dropOld c p n s).mem = s.mem := rfl
@[simp] theorem fenced_mem (c : Nat) (s : State) : (fenced c s).mem = s.mem := rfl

/-- What a core reads is its stores, those before its FENCE too. -/
theorem coreStore_wf (c : Nat) (p : Place) (l : List Byte) (t : Tag) (s : State) (h : s.mem.wf = true) :
    (coreStore c p l t s).mem.wf = true := by
  refine bankWrite_wf _ _ _ _ _ ?_
  split <;> exact h

theorem clearWork_wf (s : State) (h : s.mem.wf = true) : (clearWork s).mem.wf = true := by
  rw [Memory.wf_iff] at h ⊢
  simp_all [clearWork, Table.wf, Table.wfFrom]

theorem unwrite_wf (p : Place) (n : Nat) (s : State) (h : s.mem.wf = true) : (unwrite p n s).mem.wf = true := by
  rw [Memory.wf_iff] at h ⊢
  cases p <;> simp_all [unwrite, Table.wf_clear]

theorem writeWin_wf (l : List Byte) (t : Table Byte) (off : Nat) (h : Table.wf 0 t = true) :
    Table.wf 0 (writeWin t off l) = true := by
  induction l generalizing t off with
  | nil => exact h
  | cons b r ih => exact ih _ _ (Table.wf_set 0 t off b h)

theorem reset_memory_wf : State.reset.mem.wf = true := by decide

/-! ### Addresses outside the bytes written -/

/-- The byte at q is none of the n bytes from p on. -/
def Place.outside (q p : Place) (n : Nat) : Prop := ∀ k, k < n → q.apart (p.add k) = true

theorem Place.add_zero (p : Place) : p.add 0 = p := by cases p <;> rfl
theorem Place.add_add (p : Place) (a b : Nat) : (p.add a).add b = p.add (a + b) := by cases p <;> simp [Place.add, Nat.add_assoc]

theorem readByte_writeBytes_outside (l : List Byte) (p q : Place) (s : State) (h : q.outside p l.length) :
    readByte (writeBytes p l s) q = readByte s q := by
  induction l generalizing p s with
  | nil => rfl
  | cons b r ih =>
    have h0 := h 0 (by simp)
    rw [Place.add_zero] at h0
    rw [writeBytes, ih, readByte_writeByte_apart _ _ _ _ h0]
    intro k hk
    have := h (1 + k) (by simp at hk ⊢; omega)
    rwa [Place.add_add]

end Sys2Proof.Machine
end

