-- ==== Sys2Proof/Laws/Order.lean ====
section
/-!
SUPPORT. Queues with an order of their own: what inserting a request does, and what counting a frame's codewords leaves alone.
-/
namespace Sys2Proof.Machine

open Sys2Proof

/-- A request of an instant of its own goes to the end. -/
theorem insertReq_append (r : DrbgReq) (q : List DrbgReq) (h : ∀ x ∈ q, x.since ≠ r.since) : insertReq r q = q ++ [r] := by
  induction q with
  | nil => rfl
  | cons x q ih =>
    have hx : x.since ≠ r.since := h x List.mem_cons_self
    simp [insertReq, hx, ih (fun y hy => h y (List.mem_cons_of_mem x hy))]

/-- Nothing is lost and nothing comes twice, whatever the place. -/
theorem insertReq_perm (r : DrbgReq) (q : List DrbgReq) : (insertReq r q).Perm (r :: q) := by
  induction q with
  | nil => exact .refl _
  | cons x q ih =>
    unfold insertReq
    split
    · exact .refl _
    · exact (ih.cons x).trans (.swap r x q)

/-- The FEC counters are all that a frame's codewords move. -/
theorem fecCount_frame (p : Nat) (r : FrameRead) (s : State) : ∃ k, fecCount p r s = { s with time := k } := by
  unfold fecCount bumpN
  repeat' split
  all_goals exact ⟨_, rfl⟩

end Sys2Proof.Machine
end

