-- ==== Sys2Proof/Tests/Slice0.lean ====
section
/-!
SUPPORT. Tests of the model: what well-formedness refuses, concrete states that meet the premises of the statements, and single steps whose
results come from the rules.
-/
namespace Sys2Proof.Machine.Tests

open Sys2Proof Sys2Proof.Machine

-- Each test waits for the kernel; one at a time they hold one thread.
set_option Elab.async false

/-! ### States for the tests -/

/-- The state after reset with some fields set. -/
abbrev base : State := State.reset
/-- Boot over, ring 0 up, the device FIELDED. -/
def running : State :=
  { base with
    boot := { base.boot with stage := 5, ringUp := 1, powered := true, pwrGood := true }
    lcs := { base.lcs with st := 2 } }
/-- A device in MAKER. -/
def maker : State := { base with lcs := { base.lcs with st := 0 } }
def withInst (x : Inst) : State := setInst 0 x running
def active0 : Inst := { st := .active, pasidValid := true, sqLog2 := 4, cqLog2 := 4, weightEff := 1 }
def ticket0 : Ticket := { id := 7, iid := 0, origin := .queue, bytes := 0, phase := .entering }
def withTicket (t : Ticket) : State := { withInst active0 with tickets := [t] }

/-! ### Premises that can be met: queue, instances, tenant pages -/

theorem witness_stepRunsFrontCommand :
    ({ base with pending := [.slewDone] } : State).pending = .slewDone :: [] ∧ base.pending = [] := by decide +kernel

theorem witness_instanceConfigurationTakesEffect :
    Writable base ∧ iidPresent base 0 = true ∧ (inst base 0).st = .free ∧
    (inst (withInst { st := .stopped, drained := true }) 0).drained = true ∧
    (inst (withInst active0) 0).st = .active ∧
    (0x00010100 : W32).toNat / 65536 ≠ 0 ∧ (0x00010100 : W32).toNat % 512 ≤ 256 ∧
    (0x00000101 : W32).toNat / 65536 = 0 ∧ 256 < (0x00000101 : W32).toNat % 512 ∧
    1 ≤ (1 : W32).toNat % 8192 ∧ (4096 : W32).toNat % 8192 ≤ 4096 ∧ 4096 < (4097 : W32).toNat % 8192 ∧
    running.boot.stage = 5 ∧ (inst (withInst { pasidValid := true, sqLog2 := 4, cqLog2 := 12 }) 0).pasidValid = true ∧
    (∀ e ∈ (withInst { pasidValid := true }).inst, e.1 ≠ 0 → e.2.st ≠ .free → e.2.pasid ≠ 0) ∧
    (∃ e ∈ (setInst 1 { st := .active, pasidValid := true } running).inst, e.1 ≠ 0 ∧ e.2.st ≠ .free ∧
      e.2.pasid = (inst (setInst 1 { st := .active, pasidValid := true } running) 0).pasid) := by decide +kernel

theorem witness_instancesStopResumeAndReset :
    Writable (withTicket ticket0) ∧ (inst (withTicket ticket0) 0).st = .active ∧ hasWork (withTicket ticket0) 0 = true ∧
    hasWork (withInst active0) 0 = false ∧ (inst base 0).st ≠ .active ∧ (inst (withInst { st := .stopped }) 0).st = .stopped ∧
    (withInst { st := .stopped }).boot.stage = 5 ∧ (inst (withInst { st := .resetting }) 0).removing = false ∧
    hasWork (withInst { st := .resetting }) 0 = false ∧ (inst (withInst { st := .stopped, drained := true }) 0).drained = true ∧
    (inst (withInst { st := .resetting, removing := true }) 0).removing = true := by decide +kernel

theorem witness_tenantPagesPassMessagesAndPointers :
    Writable (withInst active0) ∧ iidPresent (withInst active0) 0 = true ∧ (page (withInst active0) 0).outFull = false ∧
    (page (withInst active0) 0).outAck ≠ some (withInst active0).time.cycle ∧
    (page (setPage 0 { outFull := true } (withInst active0)) 0).outFull = true ∧
    (page (withInst active0) 0).inFull = false ∧ (page (withInst active0) 0).inAck ≠ some (withInst active0).time.cycle ∧
    (inst base 0).st = .free ∧ (15 : W32).toNat % 4096 < 2 ^ (inst (withInst active0) 0).sqLog2.toNat ∧
    2 ^ (inst (withInst active0) 0).sqLog2.toNat ≤ (16 : W32).toNat % 4096 ∧
    (let s := withInst { active0 with cqHead := 15, unreleased := 1 }
     (0 : W32).toNat % 4096 < 2 ^ (inst s 0).cqLog2.toNat ∧ (inst s 0).cqHead < 2 ^ (inst s 0).cqLog2.toNat ∧ 1 ≤ (inst s 0).unreleased ∧
       1 < 2 ^ (inst s 0).cqLog2.toNat ∧ (0 : W32).toNat % 4096 = ((inst s 0).cqHead + 1) % 2 ^ (inst s 0).cqLog2.toNat) ∧
    2 ^ (inst (withInst active0) 0).cqLog2.toNat ≤ (16 : W32).toNat % 4096 := by decide +kernel

/-! ### Tickets -/

def ring0Core : State := setCore 0 { run := .running, ticket := some 7 } (withTicket { ticket0 with phase := .running 0 })

theorem witness_ticketsEnterTheBuffer :
    (let s := withInst { active0 with sqTail := 1 }
     Live s ∧ iidPresent s 0 = true ∧ s.boot.warm = false ∧ (inst s 0).st = .active ∧ fetchCount s 0 ≠ 0) ∧
    (let r : TicketRead := { slot := 0, count := 1, pool := 0 }
     let s := withInst { active0 with reads := [r, { r with slot := 1, void := true }] }
     (inst s 0).reads = r :: [{ r with slot := 1, void := true }] ∧ r.void = false ∧ r.abort = false ∧ (inst s 0).st ≠ .resetting ∧
       (inst (setInst 0 { inst s 0 with st := .resetting } s) 0).st = .resetting ∧ outcomeOf [.timeout 0] ≠ .ok ∧
       (inst s 0).st = .active ∧ r.since + timeoutTicks s.pcie.timeoutValue ≤ 6 * 40000000 ∧
       s.time.ticks < r.since + timeoutTicks s.pcie.timeoutValue ∧ r.unsent = false ∧ ({ r with unsent := true } : TicketRead).unsent = true) ∧
    (let r : TicketRead := { slot := 0, count := 1, pool := 0, void := true }
     let s := withInst { active0 with reads := [r] }
     (inst s 0).reads = r :: [] ∧ r.void = true ∧ outcomeOf [.unsupported 8] ≠ .ok) ∧
    (outcomeOf [.ok, .unsupported 8, .poisoned 64, .completerAbort 0, .poisoned 16] = .poisoned 16 ∧
      outcomeOf [.timeout 128, .unsupported 8] = .unsupported 8 ∧ isPoisoned (.unsupported 8) = false) ∧
    (let x : DmaXfer := { src := 0, dst := 0, len := 64, srcSpace := 2, dstSpace := 0 }
     let s := setCorex 0 { dma := { queue := [x] } } ring0Core
     (ticketOn s 0).isSome = true ∧ (∀ t, ticketOn s 0 = some t → t.phase = .running 0 ∧ x.awaits t = true) ∧
       (corex s 0).dma.queue = [] ++ x :: []) ∧
    (let x : MeCmd := { op := 1, len := 8, space := 2 }
     let s := setMeWin 0 0 { held := true, queue := [x] } ring0Core
     (∀ t, ticketOn s 0 = some t → x.awaits t = true) ∧ (meWin s 0 0).queue = [] ++ x :: []) ∧
    (let s := withInst active0
     (page s 0).copying = false ∧ freeSlots (inst s 0) ≠ 0 ∧ 0 < ownFree s 0) ∧
    (freeSlots (inst (withInst { active0 with reserved := 16 }) 0) = 0 ∧ (page (setPage 0 { copying := true } running) 0).copying = true) := by
  decide +kernel

theorem witness_entryChecksInTheirOrder :
    (let s := withTicket ticket0
     Live s ∧ ticket? s 7 = some ticket0 ∧ ticket0.phase = .entering ∧ ticket0.device = false ∧ s.fc.snet = false) ∧
    badTicket { ticket0 with bytes := BitVec.ofNat 512 (pack [(0xFFFF, 16)]) } = true := by decide +kernel

def act0 : Act := { number := 1, iid := none, hdrVersion := 1, offset := 0, codeSize := 64, roSize := 0, wsSize := 0, entryOff := 0,
                    costNs := 1000, expandNs := 0, form := 0, group := 0, signer := 0, version := 0, code := [] }
def ticketA : Ticket := { ticket0 with bytes := BitVec.ofNat 512 (pack [(1, 0), (0xFFFFFFFF, 32)]) }
def ticketD : Ticket := { ticketA with bytes := BitVec.ofNat 512 (pack [(1, 0), (0xFFFFFFFF, 32), (5, 256)]), phase := .queued }
def withAct (s : State) : State := { s with acts := { s.acts with acts := [act0] } }

theorem witness_entryChecksWithAnAct :
    badTicket ticketA = false ∧ actEnabled (withAct (withTicket ticketA)) 0 ticketA.act = some act0 ∧
    actEnabled (withTicket ticketA) 0 ticketA.act = none ∧ ticketA.handle = 0xFFFFFFFF ∧ ticketA.deadline = 0 ∧
    ({ withTicket ticketA with fc := { base.fc with snet := true } } : State).fc.snet = true := by decide +kernel

theorem witness_ticketsEndAndTheirWritesLeave :
    (let s := withTicket ticket0
     Writable s ∧ iidPresent s 0 = true ∧ (page s 0).abortBusy = false ∧
       (page (setPage 0 { abortBusy := true } s) 0).abortBusy = true ∧ (∀ t ∈ s.tickets, t.iid = 0 → t.aborting = false) ∧
       (∀ r ∈ (inst s 0).reads, r.abort = false) ∧ (∀ e ∈ s.pcie.heldEntries, e.1 = 0 → e.2.2 = false)) ∧
    (let s := { withTicket ticket0 with pcie := { base.pcie with heldEntries := [(0, 7, true)] } }
     Live s ∧ (0, 7, true) ∈ s.pcie.heldEntries) ∧
    (let t : Ticket := { ticket0 with phase := .stopping 0 0x30 }
     ticket? (withTicket t) 7 = some t ∧ readsAwaited (withTicket t) 0 t = false ∧
       workDone (withTicket t) 0 = true ∧ readsAwaited (setCorex 0 { dma := { queue := [{ src := 0, dst := 0, len := 64, srcSpace := 2, dstSpace := 0 }] } } (withTicket t)) 0 t
         = true) ∧
    (let s := setCore 0 { run := .exiting 0 0, ticket := some 7 } (withTicket { ticket0 with phase := .running 0 })
     (core s 0).run = .exiting 0 0 ∧ (ticketOn s 0).isSome = true ∧ workDone s 0 = true ∧ (corex s 0).micro.trapped = false ∧
       (corex s 0).micro.faulted = false ∧ controlReread s 0 = false ∧ (corex s 0).outPend = none ∧
       commitHeld s 0 = false ∧ Table.get 0 s.aud.counts 0 < 0xFFFFFFFD ∧ (core s 0).offer = none ∧ (core s 0).grants = []) ∧
    (let s := setCorex 0 { outPend := some (0, [1, 2]) }
       (setCore 0 { run := .exiting 0x20 2, ticket := some 7 } (withTicket { ticket0 with phase := .running 0 }))
     (corex s 0).outPend = some (0, [1, 2]) ∧ workDone s 0 = false ∧ commitHeld s 0 = false) ∧
    (let s := setCorex 0 { dma := { queue := [{ src := 0, dst := 0, len := 64, srcSpace := 0, dstSpace := 0 }] } }
       (setCore 0 { run := .exiting 0 0, ticket := some 7 } (withTicket { ticket0 with phase := .running 0 }))
     (corex s 0).outPend = none ∧ workDone s 0 = false) ∧
    (let e : Nat × Inst := (0, { active0 with reads := [{ slot := 0, count := 1, pool := 0, unsent := true }] })
     e ∈ (withInst e.2).inst ∧ ({ slot := 0, count := 1, pool := 0, unsent := true } : TicketRead) ∈ e.2.reads) ∧
    (let s := setCore 0 { run := .exiting 0 0, ticket := some 7 } (withTicket { ticket0 with origin := .handshake 3, phase := .running 0 })
     (ticketOn s 0).map Ticket.origin = some (.handshake 3)) ∧
    (let t : Ticket := { ticket0 with phase := .stopping 0 0x51, signalled := some { status := 0, len := 0, cycle := base.time.cycle } }
     let s := setCore 0 { run := .scrubbing, ticket := some 7 } (withTicket t)
     (core s 0).run = .scrubbing ∧ ticketOn s 0 = some t ∧ commitHeld s t.iid = false ∧ s.time.cycle ≠ s.time.cycle + 1) ∧
    (let s := { base with pcie := { base.pcie with d3hot := true } }
     s.pcie.inReset = false ∧ s.pcie.d3hot = true ∧ base.pcie.d3hot = false ∧ ticket0.irq = false) := by decide +kernel

theorem witness_usherDispatchesThePickedTicket :
    (let s := { running with ush := { running.ush with paused := true } }
     Live s ∧ s.ush.paused = true ∧ s.boot.warm = false ∧ ∀ k, k < coreCount base → coreIdle base k = false) ∧
    (0 < coreCount running ∧ coreIdle running 0 = true) ∧
    (let t := { ticketA with phase := .queued }
     let s := withAct (withTicket t)
     placeDevice s 0 = none ∧ pickInstance s = some 0 ∧ readyList s 0 = [t] ∧ actOf s t = some act0 ∧
       (pickCore s t act0 0).isSome = true ∧ ticket? s 7 = some t ∧ t.phase = .queued ∧ t ∈ s.tickets ∧
       (roomFor s 0 act0.wsSize 0 (neededForm s t act0)).isSome = true) ∧
    (let d : Ticket := { id := 9, iid := 0xFFFF, origin := .seal 0, phase := .queued,
                         bytes := BitVec.ofNat 512 (pack [(0x701, 0), (0xFFFFFFFF, 32)]) }
     let s := { running with tickets := [d], acts := { base.acts with acts := [{ act0 with number := 0x701 }] } }
     (placeDevice s 0).isSome = true ∧ 0 < coreCount s ∧ coreIdle s 0 = true) := by decide +kernel

theorem witness_entitlementsAndShareEpochs :
    (let s := withAct (withTicket ticketD)
     Live s ∧ ticket? s 7 = some ticketD ∧ ticketD.origin = .queue ∧ ticketD.phase = .queued ∧ ticketD.device = false ∧
       ticketD.aborting = false ∧ ticketD.irq = false ∧ (inst s 0).st = .active ∧ s.pcie.inReset = false ∧ s.pcie.d3hot = false ∧
       s.fc.snet = false ∧ ticketD.deadline ≤ ({ s with rm := { s.rm with nt := 5 } } : State).rm.nt.toNat) ∧
    (0 < iidCount running ∧ base.ush.minOvercommit = false ∧ minSum running ≤ usableCores running) ∧
    (let s := withInst { active0 with sharePend := true }
     (inst s 0).st ≠ .free ∧ (inst s 0).sharePend = true ∧ (inst s 1).sharePend = false) ∧
    ticketD.deadline ≠ 0 ∧ base.rm.nt.toNat < ticketD.deadline ∧
    (let s := { base with ush := { base.ush with epochAt := some 1000 } }
     s.ush.epochAt = some 1000 ∧ s.rm.nt.toNat < 1000 ∧ base.ush.epochAt = none ∧ (0 : W64).toNat ≤ base.rm.nt.toNat) := by decide +kernel

theorem witness_cachedCopiesBecomeValidAndGo :
    (let q : Copy := { ring := 0, handle := 5, kind := 0, addr := 0, size := 64, st := .filling, secret := true, uses := 0 }
     let s := { base with ush := { base.ush with copies := [q], cacheEff := 1 } }
     Live s ∧ cacheUsed s 0 ≤ s.ush.cacheEff.toNat * 65536 ∧ xfersDone s q.xfer.toList = true) ∧
    (let q : Copy := { ring := 0, handle := 5, kind := 0, addr := 0, size := 64, st := .draining, secret := true, uses := 0 }
     let s := { base with ush := { base.ush with copies := [q] } }
     s.ush.copies.find? (fun p => p.ring == q.ring && p.handle == q.handle && p.kind == q.kind && p.st == .draining && p.uses == 0)
       = some q ∧ q.uses = 0 ∧ base.ush.copies = []) := by decide +kernel

/-! ### Registers, fabric, collector -/

theorem witness_registersReadWriteAndIgnore :
    Writable base ∧ base.pcie.d3hot = false ∧ base.pcie.inReset = false ∧
    (Table.get {} base.time.rc (4 * fcCnt .f2)).base < 2 ^ 32 ∧
    ({ base with lcs := { base.lcs with st := 4 } } : State).lcs.st = 4 ∧ (bytesOf 1 4).length = 4 := by decide +kernel

theorem witness_fabricReplaysAndRetires :
    (flitUnit 0x2000).isSome = true ∧
    (let s := setRetry 0x2000 (some { xfer := 1, flit := 0, fails := 3 }) running
     Live s ∧ failsOf running 0x2000 1 0 = 0 ∧ failsOf s 0x2000 1 0 = 3 ∧ ownerAt s 0x2000 1 none = none ∧ accessCore 0x2000 none = none ∧
       accessCore 0x2000 (some 0) = some 0 ∧ (∀ y ∈ s.fabric.xfers, y.id ≠ 1) ∧
       ({ Flit.of 5 3 with data := 4 } : Flit).intact = false ∧ (Flit.of 5 3).intact = true) ∧
    (let s := setRetry 0x2000 (some { xfer := 1, flit := 0, fails := 3 }) { withTicket { ticket0 with phase := .running 0 } with
       fabric := { base.fabric with xfers := [{ id := 1, src := 0, dst := 1, dir := 0, held := 1, owner := some 7 }] } }
     ownerAt s 0x2000 1 none = some 7 ∧ (ticket? s 7).isSome = true ∧ (∃ y ∈ s.fabric.xfers, y.id = 1)) ∧
    creditsUsed base 0 1 = 0 ∧
    (let s := { base with fabric := { base.fabric with creditsUsed := Table.set 0 [] (creditKey 0 1) 1 } }
     creditsUsed s 0 1 ≠ 0 ∧ s.fabric.xfers = []) ∧
    (let x : Xfer := { id := 1, src := 0, dst := hubStop, dir := 0, held := 0, flying := 1, relay := some { dst := 5, dir := 0 } }
     x.relay.isSome = true ∧ 1 ≤ x.flying ∧ x.held = 0 ∧ x.injected = false ∧ creditsUsed base hubStop 5 = 0) ∧
    (let x : Xfer := { id := 1, src := 0, dst := 1, dir := 0, held := 0 }
     x ∈ ({ base with fabric := { base.fabric with xfers := [x] } } : State).fabric.xfers ∧ x.injected = true) ∧
    (let q : Reread := { mem := .coreLocal 0, line := 0, held := .unowned, core := none }
     let s := { base with fabric := { base.fabric with rereads := [q] } }
     s.fabric.rereads = [q] ∧ readerOf s .unowned none = none ∧ q.fails = 0) ∧
    (({ StoredWord.of 7 with parity := false } : StoredWord).intact = false ∧ (StoredWord.of 7).intact = true ∧
      writtenNow (.coreLocal 0) 0x104 .unowned base = false ∧ writtenNow (.controlStore 0) 0x1000 .unowned base = false ∧
      writtenNow (.keyRegister 6) 0 .unowned base = false ∧
      writtenNow (.coreLocal 0) 0x104 .unowned (writeByte (.loc 0 0x104) 1 base) = true) ∧
    (let s := { base with fabric := { base.fabric with rewrite := [(0, 64)] } }
     ((0, BitVec.ofNat 64 ((65 : W64).toNat / 64 * 64)) : Nat × W64) ∈ s.fabric.rewrite) := by decide +kernel

def ev1 : Event := { cls := .f1, source := 0x15, cause := 0x01 }
def full64 : State :=
  { base with fcq := { base.fcq with waiting := List.replicate 64 (stamped { ev1 with addr := 64 } base) } }

theorem witness_eventsAreRecordedAndActedOn :
    (Live base ∧ ev1.cls ≠ .f5 ∧ base.fcq.waiting.any (shadows (stamped ev1 base)) = false ∧ base.fcq.waiting.length < 64) ∧
    (64 ≤ full64.fcq.waiting.length) ∧ ({ base with fc := { base.fc with lock := true } } : State).fc.lock = true ∧
    ({ base with fcq := { base.fcq with waiting := [stamped ev1 base] } } : State).fcq.waiting = stamped ev1 base :: [] ∧
    base.fc.mode = false ∧ (stamped ev1 base).ev.cls ≠ .f0 ∧ ({ base with fc := { base.fc with mode := true } } : State).fc.mode = true ∧
    (let w := stamped { ev1 with cls := .f3, unit := unitCore 0 } running
     w.acts = true ∧ w.ev.cls = .f3 ∧ 0 < coreCount running ∧ w.ev.unit = unitCore 0 ∧ unitRetired running (unitCore 0) = false ∧
       ticketOn running 0 = none) ∧
    (let w := stamped { ev1 with cls := .f4 } running
     w.acts = true ∧ w.ev.cls = .f4 ∧ running.fc.snet = false ∧ running.tickets = []) := by decide +kernel

theorem witness_waitingEventsStayInOrder :
    ([stamped ev1 base] : List Waiting).Pairwise (fun a b => b.before a = false) := by decide +kernel

theorem witness_lockdownClearsSecretsAndStopsTheDevice :
    Live base ∧ ({ cls := .f5, source := 0x15, cause := 0x0F } : Event).cls = .f5 := by decide +kernel

theorem witness_collectorRegistersTakeAccesses :
    Writable base ∧ base.fc.snet = false ∧ ({ base with fc := { base.fc with snet := true } } : State).fc.snet = true ∧
    (0 : W32).getLsbD 0 = base.fc.mode ∧ (1 : W32).getLsbD 0 ≠ base.fc.mode ∧ unitPresent running (unitCore 0) = true ∧
    unitRetired running (unitCore 0) = false ∧ unitPresent running 0x1FFF = false ∧ maker.lcs.st = 0 ∧ running.lcs.st ≠ 0 ∧
    (let s := { base with fc := { base.fc with injClass := 5, injSource := 0x21 } }
     s.fc.injClass.toNat < 6 ∧ 1 ≤ s.fc.injSource.toNat ∧ s.fc.injSource.toNat ≤ 0x21) ∧
    base.dev.part = .kx512 ∧ ({ base with dev := { base.dev with part := .kx128 } } : State).dev.part = .kx128 ∧
    ({ base with mgmt := { held := false } } : State).mgmt.held = false ∧ ({ base with mgmt := { held := true } } : State).mgmt.held = true ∧
    (∀ k ∈ base.fcq.captured, k.cycle ≠ base.time.cycle) ∧
    (let k : Captured := { cycle := base.time.cycle, source := 7, bytes := 0, missed := false }
     let s := { base with fc := { base.fc with mode := true }, fcq := { base.fcq with captured := some k } }
     Writable s ∧ s.fc.mode = true ∧ s.fcq.captured = some k ∧ k.cycle = s.time.cycle) := by decide +kernel

/-! ### Instructions -/

/-- A word of format T, Y or VR. -/
def wT (op d a b f : Nat) : W32 := BitVec.ofNat 32 (op * 2 ^ 26 + d * 2 ^ 21 + a * 2 ^ 16 + b * 2 ^ 11 + f)
/-- A word of format I. -/
def wI (op d a imm : Nat) : W32 := BitVec.ofNat 32 (op * 2 ^ 26 + d * 2 ^ 21 + a * 2 ^ 16 + imm)
/-- Core 0 of ring 0 running ticket 7 in an act at its image's first word. -/
def coreG (g : Table W64) : Core :=
  { run := .running, ticket := some 7, pc := 0x2000000, imgBase := 0x2000000, imgSize := 64, wsBase := 0x100, wsSize := 0x100, g := g }
def go (g : Table W64) : State := setCore 0 (coreG g) (withTicket { ticket0 with phase := .running 0 })
/-- The management pair released, at the start of its ROM. -/
def goM (x : Core) : State := setCore 256 x { running with mgmt := { base.mgmt with held := false } }

/-- Every class of words can issue on a ring core. -/
theorem witness_issues : ∀ p ∈ [
    (Klass.regArith, wT 0x01 1 2 3 0), (.divide, wT 0x01 1 2 3 0x30), (.immArith, wI 0x02 1 2 5), (.shi, wI 0x08 1 2 3),
    (.liz, wI 0x09 1 1 5), (.lik, wI 0x0A 1 1 5), (.load, wI 0x13 1 2 8), (.store, wI 0x1B 1 2 8), (.ldm, wT 0x1E 5 2 3 0),
    (.stm, wT 0x1F 5 2 3 0), (.branch, wI 0x20 1 2 4), (.jmpl, wI 0x28 0 0 4), (.jmplr, wI 0x29 0 2 4), (.csrr, wI 0x2C 1 0 2),
    (.csrw, wI 0x2D 0 1 0x20), (.csrs, wI 0x2E 0 1 0x30), (.csrc, wI 0x2F 0 1 0x30), (.exit, wT 0x30 0 1 2 1), (.wait, wT 0x30 0 0 0 2),
    (.fence, wT 0x30 0 0 0 3), (.tret, wT 0x30 0 0 0 4), (.brk, wT 0x30 0 0 0 5), (.iret, wT 0x30 0 0 0 6), (.keyget, wT 0x30 1 2 3 8),
    (.formget, wT 0x30 1 2 0 9), (.formput, wT 0x30 0 2 3 10), (.vecAlu, wT 0x38 1 2 3 0), (.vecAlu, wT 0x39 1 2 3 0x40),
    (.vecMod, wT 0x3A 1 2 3 0x40), (.vecReduce, wT 0x3B 1 2 0 0), (.vecGf, wT 0x3C 1 2 3 0), (.vsxor, wT 0x3D 0 1 2 0),
    (.vsand, wT 0x3D 0 1 2 1), (.vsadd, wT 0x3D 0 1 2 2), (.vsmmul, wT 0x3D 0 1 2 0x43), (.vsref, wT 0x3D 0 1 0 4),
    (.vsa2b, wT 0x3D 0 1 0 5), (.vsb2a, wT 0x3D 0 1 0 6), (.vld, wT 0x3E 1 2 0 0), (.vlds, wT 0x3E 1 2 3 1), (.vldx, wT 0x3E 1 2 3 2),
    (.firstFault, wT 0x3E 1 2 0 0x20), (.vst, wT 0x3E 1 2 0 4), (.vsts, wT 0x3E 1 2 3 5), (.vstx, wT 0x3E 1 2 3 6),
    (.vfence, wT 0x3F 0 0 0 0x1F), (.vecPred, wT 0x3F 1 2 3 0)], Issues p.1 0 p.2 (go []) ∧ Settled 0 (go []) := by decide +kernel

/-- IRET and the scalar classes issue on the management pair. -/
theorem witness_issuesOnManagement :
    (∀ p ∈ [(Klass.iret, wT 0x30 0 0 0 6), (.store, wI 0x1B 1 2 8), (.csrw, wI 0x2D 0 1 0x802), (.exit, wT 0x30 0 1 2 1),
      (.brk, wT 0x30 0 0 0 5)], Issues p.1 256 p.2 (goM {}) ∧ Settled 256 (goM {})) ∧
    klass (wT 0x38 1 2 3 0) = .vecAlu ∧ 0x38 ≤ opcode (wT 0x38 1 2 3 0) ∧ mayIssue (goM {}) 256 = true := by decide +kernel

theorem witness_exceptionsEnterTheHandler :
    (let s := setCore 0 { coreG [] with trap := { vec := 0x2000010 } } (go [])
     (core s 0).trap.vec ≠ 0 ∧ (core s 0).trap.active = false) ∧
    (Live (go []) ∧ (core (go []) 0).trap.vec = 0 ∧ ticketOn (go []) 0 = some { ticket0 with phase := .running 0 }) ∧
    (let s := setCore 0 { coreG [] with trap := { vec := 0x2000010, active := true } } (go [])
     (core s 0).trap.active = true ∧ (ticketOn s 0).isSome = true) ∧
    ((core (goM {}) 256).trap.vec = 0 ∧ (core (goM { trap := { vec := 8, active := true } }) 256).trap.active = true) ∧
    klass (wT 0x00 0 0 0 0) = .illegal ∧ microEnd 0 (wT 0 0 0 0 0) (go []) = none ∧ fetchReread (go []) 0 = false ∧
    (let s := setCore 0 { coreG [] with pc := 0x2000002 } (go [])
     mayIssue s 0 = true ∧ (core s 0).pc.toNat % 4 ≠ 0) ∧
    (let s := setCore 0 { coreG [] with pc := 0x2000040 } (go [])
     mayIssue s 0 = true ∧ (core s 0).pc.toNat % 4 = 0 ∧ fetchable s 0 (core s 0).pc.toNat = false) := by decide +kernel

def publicTags : Core := coreG [(2, 5), (3, 7)]
def secretA : Core := { coreG [(2, 5), (3, 7)] with gtag := [(2, .secret)] }
def shareA : Core := { coreG [(2, 5), (3, 7)] with gtag := [(2, .share1)] }

theorem witness_scalarArithmeticResults :
    NoShare publicTags [2, 3, 1] ∧ NoShare secretA [2, 3, 1] ∧ secretA.tagG 2 ≠ .pub ∧ publicTags.tagG 2 = .pub ∧
    (shareA.tagG 2).isShare = true ∧ fFunct (wT 1 1 2 0 0x2F) = 0x2F ∧ fB (wT 1 1 2 0 0x28) = 0 ∧ fld (wI 8 1 2 0x033F) 8 8 = 3 ∧
    fld (wI 8 1 2 0x033F) 6 2 = 0 ∧ fld (wI 8 1 2 0x0040) 6 2 ≠ 0 ∧ 3 < fld (wI 8 1 2 0x0400) 8 8 ∧
    fld (wI 9 1 3 0xFFFF) 18 3 = 0 ∧ fld (wI 9 1 3 0xFFFF) 16 2 = 3 := by decide +kernel

theorem witness_bitCountsAreRight : (0x8000000000000000 : W64) ≠ 0 ∧ (7 : Nat) < 8 := by decide

theorem witness_controlTransfersGoToTheirTarget :
    publicTags.tagG 1 = .pub ∧ publicTags.rg 1 ≠ publicTags.rg 2 ∧ publicTags.rg 5 = publicTags.rg 6 ∧
    (publicTags.rg 2 + sImm (wI 0x29 0 2 3)).toNat % 4 = 0 ∧ (publicTags.rg 2 + sImm (wI 0x29 0 2 0)).toNat % 4 ≠ 0 ∧
    secretA.tagG (fA (wI 0x29 0 2 4)) ≠ .pub ∧ secretA.tagG (fD (wI 0x20 2 3 4)) ≠ .pub ∧
    place base 0 0x108 8 = .mem (.loc 0 0x108) ∧ place base 0 (0xF000000 + 8 * 0xFFF) 8 = .csr 0xFFF := by decide +kernel

theorem witness_csrSpaceWithoutCsr : csrRead 0 0xFFF (core base 0) base = .error (0x01, 0) := by rfl

def compatCore (g : Table W64) : State := setCore 0 { coreG g with compat := true } (go g)

theorem witness_loadsReadActMemory :
    (let s := go [(2, 0x100)]
     place s 0 0x108 8 = .mem (.loc 0 0x108) ∧ anyShare s (.loc 0 0x108) 8 = false ∧
       ((core s 0).rg 2 + sImm (wI 0x13 1 2 8)).toNat % 8 = 0) ∧
    place base 0 0x3FFF8 8 = .mem (.loc 0 0x3FFF8) ∧
    2 ^ 28 ≤ ((core (go [(2, 0x10000000)]) 0).rg 2 + sImm (wI 0x13 1 2 0)).toNat ∧
    ((core (go [(2, 0x10000001)]) 0).rg 2 + sImm (wI 0x13 1 2 0)).toNat % 8 ≠ 0 ∧
    (let s := compatCore [(5, 0x3FFF0), (2, 9), (3, 10)]
     Issues .ldm 0 (wT 0x1E 5 2 3 0) s ∧ Issues .stm 0 (wT 0x1F 5 2 3 0) s ∧ (core s 0).compat = true ∧
       ((core s 0).rg 5).toNat + 8 * (3 - 2 + 1) ≤ 0x40000 ∧ (∀ k ≤ 1, anyShare s (.loc 0 (0x3FFF0 + 8 * k)) 8 = false) ∧
       ((core s 0).rg 2 + sImm (wI 0x13 1 2 0)).toNat % 8 ≠ 0) ∧
    fA (wT 0x1E 5 0 3 0) = 0 ∧ fB (wT 0x1F 5 3 2 0) < fA (wT 0x1F 5 3 2 0) ∧ (core (go []) 0).compat = false := by decide +kernel

theorem witness_storesChangeOnlyTheirBytes :
    (let s := go [(2, 0x100), (1, 0x1234)]
     (core s 0).tagG 2 = .pub ∧ ((core s 0).tagG 1).isShare = false ∧ place s 0 0x108 8 = .mem (.loc 0 0x108) ∧
       lastInTurn s 0 (.loc 0 0x108) 8 = true ∧ Apart (.loc 0 0x108) 8 (.loc 0 0x110) ∧ (∀ l ∈ lineTags s (.loc 0 0x108) 8, (l.join ((core s 0).tagG 1)).isSome = true) ∧
       Table.get none (corex s 0).oldBytes (Place.loc 0 0x108).cell = none ∧ Tag.join .share0 .secret = none) ∧
    (let w : BankWrite := { line := 1, port := 3, off := 0, len := 8, tag := .pub }
     let s := { base with fabric := { base.fabric with bankNow := [w] } }
     w ∈ s.fabric.bankNow ∧ 7 < w.len ∧ w.line ∈ lineNos (Place.ring 0 0x40).key 8 ∧ turnOf s w.line 2 < turnOf s w.line w.port ∧
       lastInTurn s 2 (.ring 0 0x40) 8 = false) ∧
    (let s := goM { g := [(2, 0x10000000)] }
     Issues .store 256 (wI 0x1B 1 2 8) s ∧ ((core s 256).rg 2 + sImm (wI 0x1B 1 2 8)).toNat = 0x10000008 ∧ (0x10000008 : Nat) % 8 = 0 ∧
       (0x10000008 : Nat) + 8 ≤ 0x103C0000) := by
  refine ⟨⟨by decide +kernel, by decide +kernel, by decide +kernel, by decide +kernel, ?_, by decide +kernel, by decide +kernel, by decide +kernel⟩, by decide +kernel, by decide +kernel⟩
  intro k hk; simp only [Place.add, Place.key]; omega

theorem witness_csrReadsAndWrites :
    fld (wI 0x2C 1 0 0x002) 12 4 = 0 ∧ (csrRead 0 0x002 (core (go []) 0) (go [])).toOption = some (0, .pub) ∧
    (corex (go []) 0).vec.checks = [] ∧
    fld (wI 0x2C 1 0 0x1002) 12 4 ≠ 0 ∧ fld (wI 0x2C 1 0 0x005) 0 12 = 0x005 ∧
    (core (go [(1, 5)]) 0).tagG (fA (wI 0x2D 0 1 0x020)) = .pub ∧ secretA.tagG (fA (wI 0x2D 0 2 0x020)) ≠ .pub ∧
    (secretA.tagG (fA (wI 0x2D 0 2 0x024))).isShare = false ∧ fld (wI 0x2D 0 1 0x021) 0 12 = 0x021 ∧
    fld (wI 0x2E 0 1 0x031) 0 12 = 0x031 := by decide +kernel

theorem witness_systemInstructionsTakeEffect :
    (let t : Ticket := { ticketA with bytes := BitVec.ofNat 512 (pack [(0x1000, 0), (0xFFFFFFFF, 32)]), phase := .running 0 }
     let s := setCore 0 (coreG []) (withTicket t)
     Issues .exit 0 (wT 0x30 0 1 2 1) s ∧ ticketOn s 0 = some t ∧ t.act.toNat ≠ 1 ∧ t.act.toNat ≠ 2 ∧ (vendorAct t.act.toNat).isNone = true ∧
       exitOk t 0 0 = true ∧ exitOk t 0x77 0 = false ∧ t.act.toNat ≠ 0x601 ∧
       (exitEnd s 0 t 0 0).1 = some (0, 0) ∧ (exitEnd s 0 t 0x50 0).1 = some (0x50, 0)) ∧
    (core (go []) 0).evPend &&& (core (go []) 0).evMask = 0 ∧
    (let s := setCore 0 { coreG [] with evPend := 1, evMask := 1 } (go [])
     Issues .wait 0 (wT 0x30 0 0 0 2) s ∧ (core s 0).evPend &&& (core s 0).evMask ≠ 0) := by decide +kernel

theorem witness_keyAndFormInstructions :
    (let q : Copy := { ring := 0, handle := 5, kind := 0, addr := 0, size := 64, st := .valid, secret := true, uses := 1 }
     let t : Ticket := { ticket0 with phase := .running 0, uses := [(0, 5, 0)] }
     let s := setCore 0 { coreG [(2, 5)] with
         grants := [{ base := 0x1010000, size := 64, key := true, handle := 5, usage := 0, attr := 0, len := 64, secret := true, cached := none }] }
       { withTicket t with ush := { base.ush with copies := [q] }, acts := { base.acts with acts := [act0] } }
     Issues .formget 0 (wT 0x30 1 2 0 9) s ∧ ticketOn s 0 = some t ∧ q.handle = ((core s 0).rg 2).setWidth 32 ∧
       handleIid q.handle = t.iid ∧ (∃ g ∈ (core s 0).grants, g.key = true ∧ g.handle = q.handle) ∧ (core s 0).grants.length < 8 ∧
       (ringOf 0, q.handle, q.addr) ∈ t.uses) ∧
    (∀ q ∈ (go []).ush.copies, q.ring = 0 → q.st ≠ .valid) ∧
    (let s := go [(2, 0x100), (3, 0x100)]
     (core s 0).wsBase ≤ ((core s 0).rg 2).toNat ∧
       ((core s 0).rg 2).toNat + ((core s 0).rg 3).toNat ≤ (core s 0).wsBase + (core s 0).wsSize) ∧
    (let s := go [(2, 0x101), (3, 0x100)]
     (core s 0).wsBase + (core s 0).wsSize < ((core s 0).rg 2).toNat + ((core s 0).rg 3).toNat) := by decide +kernel

theorem witness_interruptsAndTimerEvents :
    (let s := { running with mgmt := { base.mgmt with held := false, intMask := 1, intVec := 64 } }
     Live s ∧ (s.mgmt.intPend ||| BitVec.ofNat 64 (2 ^ 0)) &&& s.mgmt.intMask ≠ 0 ∧ s.mgmt.intActive = false ∧ s.mgmt.held = false ∧
       (core s 256).run ≠ .waiting) ∧
    (base.mgmt.intPend ||| BitVec.ofNat 64 (2 ^ 11)) &&& base.mgmt.intMask = 0 ∧
    (let s := setCore 0 { coreG [] with run := .waiting, evMask := 0x200, timecmp := 0 } (go [])
     Live s ∧ 0 < coreCount s ∧ (core s 0).run = .waiting ∧ (core s 0).evMask.getLsbD 9 = true ∧
       (core s 0).timecmp.toNat ≤ cycles s 0) ∧
    (let s := setCore 0 { coreG [] with timecmp := 1 } (go [])
     cycles s 0 < (core s 0).timecmp.toNat) := by decide +kernel

theorem witness_dmaTransfersQueueAndComplete :
    (let s := setCorex 0 { dma := { src := 0x100, dst := 0x180, len := 64 } } (go [])
     let t := { ticket0 with phase := .running 0 }
     AtIssue 0 s ∧ ticketOn s 0 = some t ∧ (corex s 0).dma.queue.length < 4 ∧ (corex s 0).dma.len ≠ 0 ∧
       spaceFails s 0 t 0 (corex s 0).dma.src.toNat (corex s 0).dma.len.toNat false = none ∧
       spaceFails s 0 t 0 (corex s 0).dma.dst.toNat (corex s 0).dma.len.toNat true = none ∧
       (rangePlace s 0 0x100 64 false).toOption = some (.loc 0 0x100)) ∧
    (let x : DmaXfer := { src := 0x100, dst := 0x180, len := 64, srcSpace := 0, dstSpace := 0 }
     let s := setCorex 0 { dma := { queue := [x] } } (go [])
     let t := { ticket0 with phase := .running 0 }
     Live s ∧ ticketOn s 0 = some t ∧ (corex s 0).dma.queue = x :: [] ∧ xfersDone s x.xfers = true ∧
       xfersDone { s with fabric := { s.fabric with xfers := [{ id := 3, src := 0, dst := 0, dir := 2, held := 1 }] } } [3] = false ∧ (dmaPerform 0 t x s).2 = true ∧
       x.src.toNat + 64 ≤ 0x40000 ∧ x.dst.toNat + 64 ≤ 0x40000 ∧ (core s 0).run ≠ .waiting) := by decide +kernel

/-! ### Vectors and engines -/

def vsum : VecUnit := { v := [(1, 5), (2, 7)] }
def goV (u : VecUnit) (g : Table W64) : State := setVec 0 u (go g)

theorem witness_vectorElementsAreComputedOneByOne :
    (vsum.tagV 2).isShare = false ∧ ((core (go []) 0).tagG 3).isShare = false ∧ vFunct (wT 0x38 1 2 3 0x12) = 0x12 ∧
    vFunct (wT 0x38 1 2 3 0x16) = 0x16 ∧ vFunct (wT 0x3F 7 2 3 5) ≤ 5 ∧ fD (wT 0x3F 7 2 3 5) = 7 ∧ vFunct (wT 0x3F 1 2 3 8) = 8 ∧
    vFunct (wT 0x3F 1 2 3 0x10) = 0x10 ∧ 0x13 ≤ vFunct (wT 0x3F 1 2 3 0x13) ∧ 8 ≤ fD (wT 0x3F 8 2 3 0) ∧
    fld (wT 0x3F 0 0 0 0x1F) 5 21 = 0 ∧ (vec (goV { pending := true } []) 0).checks = [] ∧
    (vec (goV { checks := [{ addr := 0, fault := none }] } []) 0).checks ≠ [] ∧
    mayIssue (goV { checks := [{ addr := 0, fault := none }] } []) 0 = true := by decide +kernel

theorem witness_modularVectorResults :
    modulus (vEw (wT 0x3A 1 2 3 0x40)) = some 3329 ∧ modulus (vEw (wT 0x3A 1 2 3 0x83)) = some 8380417 ∧
    vFunct (wT 0x3A 1 2 3 0x83) = 3 ∧ vEw (wT 0x3A 1 2 3 0xC0) = 3 ∧ vFunct (wT 0x3B 1 2 3 1) = 1 ∧ 0x04 < vFunct (wT 0x3B 1 2 3 5) ∧
    (gfField 0).isSome = true ∧ (gfField 1).isSome = true ∧ 1 < vEw (wT 0x3C 1 2 3 0x80) ∧
    0x05 < vFunct (wT 0x3C 1 2 3 6) := by decide +kernel

theorem witness_triplesHoldTheComputedValue :
    (let s := setCorex 0 { corex (goV {} []) 0 with rndBuf := List.replicate 6 0 } (goV {} [])
     Issues .vsa2b 0 (wT 0x3D 9 1 0 5) s ∧ fD (wT 0x3D 9 1 0 5) < 10 ∧ tripleOk (vec s 0) 1 = true ∧ 6 ≤ (corex s 0).rndBuf.length) ∧
    Table.get kindUnknown ({ kind := [(1, 1)] } : VecUnit).kind 1 = 1 ∧ Table.get kindUnknown ({ kind := [(1, 0), (2, 2)] } : VecUnit).kind 1 = 0 ∧
    Table.get kindUnknown ({ kind := [(1, 0), (2, 2)] } : VecUnit).kind 2 = 2 ∧ Table.get kindUnknown ({} : VecUnit).kind 1 = kindUnknown ∧
    tripleOk { vtag := [(3, .share1)] } 1 = false ∧ tripleOk { vtag := [(3, .share0), (4, .share1), (5, .share2)] } 1 = true ∧
    10 ≤ fD (wT 0x3D 10 1 2 1) := by decide +kernel

theorem witness_vectorLoadsFillActiveElements :
    (let s := goV vsum [(2, 0x100), (3, 8)]
     vmLegal (wT 0x3E 1 2 0 0) true = true ∧ vmLegal (wT 0x3E 1 2 3 1) true = true ∧ vmLegal (wT 0x3E 1 2 3 0x82) true = true ∧
       vmTagged (wT 0x3E 1 2 3 0x82) (core s 0) (vec s 0) = false ∧ (vec s 0).tagV 1 = .pub ∧ vGroup (wT 0x3E 1 2 0 0) = 0 ∧
       (elemCheck s 0 false false 1 0x100).toOption = some (.loc 0 0x100) ∧
       (∀ g ∈ lineTags s (.loc 0 0x100) 1, g = .pub ∨ g = .secret)) ∧
    vmLegal (wT 0x3E 1 2 0 0x120) true = true ∧ vmLegal (wT 0x3E 1 2 3 2) true = false ∧
    secretA.tagG (fA (wT 0x3E 1 2 0 0)) ≠ .pub := by decide +kernel

theorem witness_vectorStoresWriteActiveElements :
    (let s := goV vsum [(2, 0x100), (3, 8)]
     vmLegal (wT 0x3E 1 2 0 4) false = true ∧ vmLegal (wT 0x3E 1 2 3 5) false = true ∧ vmLegal (wT 0x3E 1 2 3 0x86) false = true ∧
       vmTagged (wT 0x3E 1 2 0 4) (core s 0) (vec s 0) = false ∧
       (elemCheck s 0 false true 1 0x100).toOption = some (.loc 0 0x100) ∧ lineTag s (.loc 0 0x100) = .pub ∧
       lastInTurn s 0 (.loc 0 0x100) 1 = true) ∧
    vmLegal (wT 0x3E 1 2 1 4) false = false := by decide +kernel

theorem witness_vectorFaultsAreRecordedAndDelivered :
    (vec base 0).checks = [] ∧
    (vec (goV { checks := [{ addr := 4, fault := none }] } []) 0).checks = { addr := 4, fault := none } :: [] ∧
    (let s := goV { checks := [{ addr := 4, fault := some (3, 0x100, 1) }] } []
     (vec s 0).checks = { addr := 4, fault := some (3, 0x100, 1) } :: [] ∧ (vec s 0).pending = false ∧ (corex s 0).micro.trapped = false) ∧
    (corex (setCorex 0 { micro := { trapped := true } } (go [])) 0).micro.trapped = true ∧
    (vec (goV { checks := [{ addr := 4, fault := some (3, 0x100, 1) }], pending := true } []) 0).pending = true := by decide +kernel

def vendorTicket : Ticket :=
  { ticket0 with bytes := BitVec.ofNat 512 (pack [(0x0101, 0), (0xFFFFFFFF, 32)]), phase := .running 0 }
def userTicket : Ticket := { ticket0 with bytes := BitVec.ofNat 512 (pack [(0x1000, 0), (0xFFFFFFFF, 32)]), phase := .running 0 }
def goT (t : Ticket) : State := setCore 0 (coreG []) (withTicket t)
/-- A release at point 1, COMBINE 0, of 64 bytes. -/
def releasing : State := setDcl 0 { src := 0x1000, dst := 0x2000, len := 64, going := some 1 } (goT vendorTicket)
def upRing : State := running

theorem witness_declassificationAndMasks :
    (AtIssue 0 (goT vendorTicket) ∧ ticketOn (goT vendorTicket) 0 = some vendorTicket ∧ 1 ≤ vendorTicket.act.toNat ∧
      vendorTicket.act.toNat ≤ 0x0FFF ∧ Settled 0 (goT vendorTicket)) ∧
    (ticketOn (goT userTicket) 0 = some userTicket ∧ 0x1000 ≤ userTicket.act.toNat) ∧
    (Live releasing ∧ (dcl releasing 0).going = some 1 ∧ ticketOn releasing 0 = some vendorTicket ∧
      releaseFails releasing 0 vendorTicket (releaseOf (dcl releasing 0) 1) = none ∧
      workPlace releasing 0 0x2000 128 = some (.loc 0 0x2000) ∧ lastInTurn releasing 0 (.loc 0 0x2000) 128 = true ∧
      (corex releasing 0).micro.trapped = false ∧ (corex releasing 0).micro.faulted = false ∧ controlReread releasing 0 = false ∧ attemptOf releasing 0 (releaseOf (dcl releasing 0) 1) = some 0) ∧
    (let s := setDcl 0 { dcl releasing 0 with going := some 7 } releasing
     releaseFails s 0 vendorTicket (releaseOf (dcl s 0) 7) = some 7) ∧
    attemptOf releasing 0 { point := 0, combine := 1, attempts := 2, acc := 0, src := 0, dst := 0, len := 0, reserved := false } = none ∧
    (0 < ringCount upRing ∧ upRing.boot.ringUp.getLsbD 0 = true ∧ (stream upRing 0 7).requested = false ∧
      (stream upRing 0 7).seeded = false) ∧
    (stream (setStream 0 0 { producing := true, words := 2 ^ 30 } upRing) 0 0).producing = true ∧
    drbgAnswer { upRing with rng := { upRing.rng with answers := [(.mrgSeed 0 0, some [])] } } (.mrgSeed 0 0) = some (some []) ∧
    (let s := setCorex 0 { rndWait := some (0, false) } { goT vendorTicket with time := { base.time with ticks := 600000 } }
     (corex s 0).rndWait = some (0, false) ∧ 600000 ≤ s.time.ticks - 0) ∧
    (corex (setCorex 0 { rndWait := some (0, true) } base) 0).rndWait = some (0, true) := by decide +kernel

theorem witness_hashCommandsQueue :
    AtIssue 0 (go []) ∧
    (let g := hashEng (go []) 0 0
     let q : HashCmd := { op := 1, ctx := 0, alg := 5, src := 0, dst := 0, len := 0, out := 0 }
     field (0x501 : W64).toNat 0 4 = 1 ∧ field (0x501 : W64).toNat 14 50 = 0 ∧ outBad 0 q = false ∧
       phaseAllows 0 1 (Table.get {} (ctxView 0 g) 0) = true ∧ hashOutLen 0 q {} = 0 ∧ g.queue.length < 4) ∧
    (let s := setHashEng 0 0 { ctx := [(0, { phase := .absorbing })], src := 0x100, len := 64 } (go [])
     phaseAllows 0 2 (Table.get {} (ctxView 0 (hashEng s 0 0)) 0) = true ∧
       (rangePlace s 0 0x100 64 false).toOption = some (.loc 0 0x100) ∧ anyShare s (.loc 0 0x100) 64 = false) ∧
    5 < field (0x601 : W64).toNat 8 4 ∧ (Table.get {} (ctxView 0 (hashEng (go []) 0 0)) 0).phase ≠ .squeezing := by decide +kernel

theorem witness_hashCommandsComplete :
    (let q : HashCmd := { op := 1, ctx := 0, alg := 1, src := 0, dst := 0, len := 0, out := 0 }
     let s := setHashEng 0 0 { queue := [q] } (go [])
     Live s ∧ (hashEng s 0 0).queue = q :: [] ∧ (hePerform 0 0 q (heServe 0 0 s)).isSome = true ∧
       (hashTurn (heServe 0 0 s) 0 0).busy.contains (0 % 16) = true ∧ (hashTurn s 0 0).busy.length < hashUnits 0 ∧
       (hashTurn (heServe 0 0 (go [])) 0 0).busy.contains (0 % 16) = false) ∧
    (let q : HashCmd := { op := 1, ctx := 0, alg := 1, src := 0, dst := 0, len := 0, out := 0 }
     let s := setHashTurn 0 0 { last := 3 } (setHashEng 2 0 { queue := [q] } (setHashEng 5 0 { queue := [q] } (go [])))
     (hashEng s (16 * 0 + 5) 0).queue = q :: [] ∧ q.op ≠ 7 ∧ (hashTurn s 0 0).busy = [] ∧
       (∀ z, z < 16 → z ≠ 5 → (hashEng s (16 * 0 + z) 0).queue ≠ [] → (5 + 15 - (hashTurn s 0 0).last % 16) % 16
         < (z + 15 - (hashTurn s 0 0).last % 16) % 16)) ∧
    isShake 0 1 = false ∧ isShake 0 4 = true ∧ lastInTurn (go []) 20 (.loc 0 0x100) (digestLen 0 1) = true ∧ (rangePlace (go []) 0 0x100 (digestLen 0 1) true).toOption = some (.loc 0 0x100) ∧
    drbgAnswer (go []) (.hash 0 0) = none := by decide +kernel

def claimed (q : List MeCmd) : State := setMeWin 0 0 { held := true, pages := 1, limbs := 4, queue := q } (go [])

theorem witness_maelhoavoClaimsAndCommands :
    (AtIssue 0 (go []) ∧ field (0x8210 : W64).toNat 0 5 = 16 ∧ field (0x8210 : W64).toNat 8 8 = 130 ∧
      (meWin (go []) 0 3).held = false ∧ (meWin (go []) 0 3).pending = none) ∧
    (let s := setMeEng 0 0 { queue := [(0, 0)], pagesUsed := 15, limbsUsed := 128 } (setMeWin 0 0 { pending := some (1, 2) } running)
     (meEng s 0 0).queue = (0, 0) :: [] ∧ (meEng s 0 0).retired = false ∧ (meWin s 0 0).pending = some (1, 2) ∧
       (meEng s 0 0).pagesUsed + 1 ≤ 16 ∧ (meEng s 0 0).limbsUsed + 2 ≤ 130) ∧
    (let s := setMeEng 0 0 { queue := [(0, 0)], pagesUsed := 16 } running
     16 < (meEng s 0 0).pagesUsed + 1) ∧
    (AtIssue 0 (claimed []) ∧ (meWin (claimed []) 0 0).held = true ∧ (meWin (claimed []) 0 0).queue = []) ∧
    (meEng (setMeEng 0 0 { scrubs := [(0, 1, 2, none), (0, 1, 2, some 0)] } running) 0 0).scrubs = (0, 1, 2, none) :: [(0, 1, 2, some 0)] ∧
    (let v : W64 := 0x0000000000040005
     let q := meCmdOf (meWin (claimed []) 0 0) v
     field v.toNat 0 4 = 5 ∧ meLegal q 4 = true ∧ (∀ r ∈ meRanges q, r.1 % 8 = 0 ∧ r.1 + r.2 ≤ 1024 * 1) ∧
       (ticketOn (claimed []) 0).isSome = true) ∧
    (let q : MeCmd := { op := 4 }
     let s := claimed [q]
     let u := meServe 0 (engineOf s 0 0) s
     Live s ∧ (meWin s 0 0).queue = q :: [] ∧ (mePerform 0 0 q u).isSome = true ∧ meExecutes u 0 0 = true ∧ xfersDone u q.xfers = true ∧
       meExecutes (meServe 0 0 (claimed [])) 0 0 = false ∧ (meEng s 0 0).mul.busy.length ≤ 1 ∧ (meEng s 0 0).dma.busy.length ≤ 1) ∧
    (let w : MeWin := { limbs := 4, acc := 9, scratch := [(0, 3), (8, 2)] }
     w.acc + w.limbsAt 0 1 * w.limbsAt 8 1 * 2 ^ (64 * 0) < 2 ^ (64 * w.limbs - 1) ∧
       w.limbsAt 0 1 * (3 : W64).toNat * 2 ^ (64 * 0) ≤ w.acc) := by decide +kernel

theorem witness_maelhoavoStores :
    (let q : MeCmd := { op := 2, space := 0, dst := 0x100, len := 8 }
     q.op = 2 ∧ q.space ≤ 1 ∧ (rangePlace (claimed [q]) 0 q.dst q.len true).toOption = some (.loc 0 0x100) ∧
       lastInTurn (claimed [q]) (enginePort (engineOf (claimed [q]) 0 0)) (.loc 0 0x100) q.len = true) := by decide +kernel

theorem witness_montgomeryRowDividesExactly :
    (let w : MeWin := { limbs := 4, acc := 12345 }
     2 ≤ w.limbs ∧ (7 * 0x4924924924924925 + 1) % 2 ^ 64 = 4 ∧ ((2 ^ 64 - 1) * 1 + 1) % 2 ^ 64 = 0 ∧
       w.acc + 3 * 5 + (2 ^ 64 - 1) * 2 ^ 64 < 2 ^ (64 * w.limbs - 1)) := by decide +kernel

def aesKey : KeyReg := { key := List.replicate 16 1, alg := 2, usage := 4 }
def keyed : State := setBcEng 0 0 { kr := [(1, some aesKey)], view := [(1, some aesKey)], src := 0x100, dst := 0x200, len := 16 } (go [])

theorem witness_blockCipherCommandsQueueAndComplete :
    (AtIssue 0 keyed ∧ field (0x104 : W64).toNat 0 4 = 4 ∧ bcDefined 0 4 0 0 = true ∧
      bcKeysOk 0 4 0 (krAt (bcEng keyed 0 0).view 1) (krAt (bcEng keyed 0 0).view 0) = true ∧
      lastInTurn keyed 22 (.loc 0 0x200) 16 = true ∧ rangeFails keyed 0 0x100 16 false = none ∧ rangeFails keyed 0 0x200 16 true = none ∧
      (rangePlace keyed 0 0x100 16 false).toOption = some (.loc 0 0x100) ∧ anyShare keyed (.loc 0 0x100) 16 = false) ∧
    krAt (bcEng keyed 0 0).view 0 = none ∧ shareRange keyed 0 (bcEng keyed 0 0).src.toNat (bcEng keyed 0 0).len.toNat = false ∧
    krAt (bcEng keyed 0 0).kr 1 = some aesKey ∧ blockBytes 0 = 16 ∧
    (let g : Grant := { base := 0x1010000, size := 64, key := true, handle := 5, usage := 2, attr := BitVec.ofNat 64 (pack [(0x21, 8), (2, 16)]),
                        len := 16, secret := true }
     let s := setCore 0 { coreG [] with grants := [g] } keyed
     keyGrantAt s 0 0x1010000 = some g ∧
       bcLoad s 0 { op := 1, kr := 0, ks := 0, mode := 0, param := 0, src := 0x1010000, dst := 0, len := 0, aux := 0 }
         = some { alg := 2, usage := 2 } ∧ engineHas 0 2 = true) ∧
    (let q : BcCmd := { op := 2, kr := 1, ks := 0, mode := 0, param := 0, src := 0, dst := 0, len := 0, aux := 0 }
     let s := setBcEng 0 0 { bcEng keyed 0 0 with queue := [q] } keyed
     (bcEng s 0 0).queue = q :: [] ∧ (bcPerform 0 0 q s).isSome = true) ∧
    bcClass { op := 4, kr := 1, ks := 0, mode := 0, param := 0, src := 0, dst := 0, len := 16, aux := 0 } aesKey aesKey .pub .pub ≠ .secret ∧
    drbgAnswer keyed (.pinfmt 0 0) = none := by decide +kernel

theorem witness_pinFieldsParseToTheirDigits :
    ([1, 2, 3, 4] : List Nat).length = 4 ∧ ∀ x ∈ ([0, 9, 3, 4] : List Nat), x ≤ 9 := by decide

/-! ### Stores, keys, network and Dolid -/

def loaded : State := { running with mgmt := { base.mgmt with held := false }, acts := { base.acts with acts := [act0] } }

theorem witness_actsAndPatchesLoad :
    Writable loaded ∧ loaded.acts.busy = false ∧ loaded.patch.busy = false ∧ loaded.mgmt.held = false ∧ base.mgmt.held = true ∧
    (deviceAct loaded 1).isSome = true ∧ (deviceAct loaded 2).isSome = false ∧
    (let s := { loaded with acts := { loaded.acts with busy := true, unloading := some 1 } }
     s.acts.busy = true ∧ s.acts.unloading = some 1) ∧
    ({ loaded with acts := { loaded.acts with busy := true } } : State).acts.unloading = none ∧
    (match patchCheck (readWin loaded.mem.loadWin 0 2708) true true loaded with | .inl r => r == 2 | .inr _ => false) = true ∧ loaded.fc.snet = false ∧
    (∀ c, c < coreCount loaded → (core loaded c).run = .idle) ∧
    ({ loaded with patch := { loaded.patch with busy := true, waiting := some (1, [], []) } } : State).patch.waiting = some (1, [], []) ∧
    (let s := setCore 0 { run := .running } loaded
     0 < coreCount s ∧ coreUsable s 0 = true ∧ (core s 0).run ≠ .idle) := by decide +kernel

theorem witness_rootsThatSign :
    patchRootLocked loaded = true ∧ patchRootLocked maker = true ∧ actRootLocked loaded 0 = true ∧
    actRootLocked { loaded with lcs := { loaded.lcs with st := 1, rootLocked := [] } } 1 = false := by decide +kernel

/-- The attribute word of an AES-128 key for usages 1 and 2. -/
def aesWord : W64 := BitVec.ofNat 64 (pack [(0x21, 8), (2, 16), (2, 32), (3, 40)])
def keyed5 : State :=
  setKey 5 { st := .resident, attr := aesWord, data := List.replicate 16 1, lines := 1 }
    (setCore 0 { coreG [] with run := .keyget 1 5 2 } { goT userTicket with rm := { base.rm with established := true } })

theorem witness_keyRequests :
    (Live keyed5 ∧ (core keyed5 0).run = .keyget 1 5 2 ∧ ticketOn keyed5 0 = some userTicket ∧ userTicket.device = false) ∧
    keyVerdict keyed5 userTicket 0 5 2 = .accept ∧ keyTurn keyed5 0 [0] = true ∧ keyAsks keyed5 0 = true ∧
    ({ keyed5 with ks := { keyed5.ks with decided := true } } : State).ks.decided = true ∧ handleSlot 0x7FFFFF = 0x7FFFFF ∧
    (let s := setKey 5 { keyEntry keyed5 5 with st := .filling } keyed5
     keyVerdict s userTicket 0 5 2 = .wait) ∧
    (∃ n r, keyVerdict keyed5 userTicket 0 6 2 = .refuse n r) ∧ handleIid (mkHandle 1 0) ≠ userTicket.iid ∧
    (ownForm aesWord = some 0) := by
  refine ⟨by decide +kernel, by decide +kernel, by decide +kernel, by decide +kernel, by decide +kernel, by decide +kernel, by decide +kernel,
    ⟨4, stUsage, by decide +kernel⟩, by decide +kernel, by decide +kernel⟩

theorem witness_keyEntries :
    (let g : Grant := { base := 0x1010000, size := 64, key := true, handle := 5, usage := 2, attr := aesWord, len := 16, secret := true }
     (core (setCore 0 { coreG [] with run := .deliver 1 g (List.replicate 16 1) [.secret] } keyed5) 0).run
       = .deliver 1 g (List.replicate 16 1) [.secret]) ∧
    xfersDone keyed5 (corex keyed5 0).keyXfer.toList = true ∧
    (let s := { setCorex 0 { keyXfer := some 3 } base with fabric := { base.fabric with xfers := [{ id := 3, src := 16, dst := 0, dir := 0, held := 1 }] } }
     xfersDone s (corex s 0).keyXfer.toList = false ∧ xfersDone s ({ xfer := some 3 } : KeyEntry).xfer.toList = false) ∧
    (keyEntry (setKey 5 { st := .filling } base) 5).st = .filling ∧ (keyEntry base 5).st ≠ .filling ∧
    (keyEntry (setKey 5 { st := .destroying } base) 5).st = .destroying ∧ (keyEntry base 5).st ≠ .destroying ∧
    ({ running with ks := { running.ks with sweeping := true } } : State).ks.sweeping = true ∧
    (Writable running ∧ 0 < iidCount running ∧ keysOf running 0 = [] ∧ keysOf keyed5 0 ≠ []) := by decide +kernel

def ceremony : State :=
  { withInst active0 with ks := { base.ks with
      cer := { n := 2, target := 5, attr := aesWord }, inst := [(0, { quotaEntries := 4, quotaKib := 4 })] } }
def opened (c : Ceremony) : State := { ceremony with ks := { ceremony.ks with cer := { c with isOpen := true, slot := 5, word := aesWord } } }

theorem witness_custodianCeremonyAddsComponents :
    (Writable ceremony ∧ ceremony.ks.cer.busy = false ∧ ceremony.fc.snet = false ∧ ceremony.ks.cer.isOpen = false ∧ ceremony.lcs.st = 2 ∧
      ceremony.lcs.busy = false ∧ (inst ceremony (handleIid ceremony.ks.cer.target)).st = .active ∧ 2 ≤ ceremony.ks.cer.n.toNat ∧
      (keyEntry ceremony ceremony.ks.cer.target).st = .empty ∧ handleSlot ceremony.ks.cer.target ≠ 0x7FFFFF ∧
      noPlace ceremony ceremony.ks.cer.target (linesFor (reserveLen ceremony.ks.cer.attr)) = false ∧
      attrValid ceremony.ks.cer.attr = true ∧ attrFamily ceremony.ks.cer.attr = 0x21) ∧
    (let s := opened {}
     s.ks.cer.isOpen = true ∧ s.ks.cer.step < s.ks.cer.n.toNat ∧ s.ks.cer.resumePending = false ∧ s.ks.cer.rstep.toNat = s.ks.cer.step ∧
       s.ks.cer.resume = s.ks.cer.id) ∧
    (let s := setSlot 0 { stepEnd := some 0, component := List.replicate 16 7 } (opened { busy := true })
     s.ks.cer.busy = true ∧ (slotOf s 0).stepEnd = some 0 ∧ some (slotOf s 0).component.length = dataLen s.ks.cer.word) ∧
    (let s := setSlot 0 { stepEnd := some 0, component := List.replicate 15 7 } (opened { busy := true })
     some (slotOf s 0).component.length ≠ dataLen s.ks.cer.word) ∧
    (opened { step := 2 }).ks.cer.step = (opened { step := 2 }).ks.cer.n.toNat ∧
    (opened { rstep := 1 }).ks.cer.rstep.toNat ≠ (opened { rstep := 1 }).ks.cer.step := by decide +kernel

def port0 : Port := { mac := 0x021122334455, ip4 := 0x0A000001 }
def withPort (x : Port) : State := setPort 0 x { running with net := { running.net with pair := 0xAA } }
def nbr : Neigh := { addr := 9, tries := 2 }

theorem witness_portsLinksAndNeighbours :
    (Writable (withPort port0) ∧ portPresent (withPort port0) 0 = true ∧ (netPort (withPort port0) 0).en = false ∧
      (netPort (withPort port0) 0).enableBad = false ∧ (netPort (withPort {}) 0).enableBad = true) ∧
    (let s := withPort { port0 with en := true, ip6 := 1 }
     (netPort s 0).en = true ∧ (netPort s 0).link = false ∧ netRuns s = true ∧ (netPort s 0).ip4 ≠ 0 ∧ (netPort s 0).ip6 ≠ 0 ∧
       (netPort s 0).dadFail = false) ∧
    (netPort (withPort { port0 with en := true, link := true }) 0).link = true ∧
    (let s := withPort { port0 with en := true, link := true, neigh := [nbr] }
     (netPort s 0).neigh.find? (fun n => n.addr == 9 && n.mac.isNone) = some nbr ∧ nbr.tries < 3 ∧
       3 ≤ ({ nbr with tries := 3 } : Neigh).tries) := by decide +kernel

def linked : State := withPort { port0 with en := true, link := true }
def frameOf (dst : List Byte) (n : Nat) : List Byte := dst ++ List.replicate 6 1 ++ [0x12, 0x34] ++ List.replicate n 0

theorem witness_framesAreFilteredAndLeave :
    ((netPort linked 0).en = true ∧ (netPort linked 0).link = true ∧ netRuns linked = true ∧ (takeLines linked 0 (linesFor 64)).isSome = true ∧
      macAccepted (netPort linked 0) (macOf (frameOf [2, 0x11, 0x22, 0x33, 0x44, 0x55] 50) 0) = true ∧
      macAccepted (netPort linked 0) (macOf (frameOf [2, 0x11, 0x22, 0x33, 0x44, 0x56] 50) 0) = false ∧
      (frameOf [2, 0x11, 0x22, 0x33, 0x44, 0x55] 50).length = 64 ∧ (netPort linked 0).mtu.toNat + 18 < 1519 ∧
      halfAt (frameOf [2, 0x11, 0x22, 0x33, 0x44, 0x55] 50) 12 = 0x1234) ∧
    (let s := { linked with dol := { linked.dol with rxUsed := [(0, reserveLines)], sharedUsed := sharedLines linked } }
     takeLines s 0 (linesFor 64) = none) ∧
    (let f : TxFrame := { ethertype := 0x0806, body := [], pool := .none, iid := none, ptp := none }
     let s := withPort { port0 with en := true, link := true, tx := [f] }
     netRuns s = true ∧ (netPort s 0).tx = f :: [] ∧ gloveFrame s (netPort s 0) f = .passes) ∧
    gloveFrame linked port0 { ethertype := 0x0806, body := [], isPublic := false } = .refused 1 ∧
    ({ fcs := true, corrected := 2, uncorrected := 0 } : FrameRead).intact = true ∧
    ({ fcs := true, corrected := 0, uncorrected := 1 } : FrameRead).intact = false ∧
    (∀ e ∈ (netPort linked 0).txtsMissed, e.cycle ≠ linked.time.cycle) ∧ (∀ e ∈ (netPort linked 0).txts.head?, e.cycle ≠ linked.time.cycle) ∧
    (let e : TxTs := { nt := 5, frac := 0, stepped := false, unsync := false, ovf := false, seq := 1, msgType := 0, domain := 0, cycle := running.time.cycle }
     let s := withPort { port0 with txts := [e] }
     ∃ e ∈ (netPort s 0).txts.head?, e.cycle = s.time.cycle) ∧
    (let f : TxFrame := { ethertype := 0x0806, body := [], iid := some 0, order := 1 }
     let g : TxFrame := { ethertype := 0x0800, body := [], iid := some 0, order := 0 }
     let s : State := setDolInst 0 { rateNet := 1, rateNetEff := 1, burstNetEff := 1, levelNet := 0 } (withPort { port0 with link := true, tx := [g] })
     gloveFrame s (netPort s 0) g = .held ∧ heldBefore s f = true ∧ heldBefore linked { ethertype := 0x0806, body := [] } = false) ∧
    (let e : TxTs := { nt := 5, frac := 0, stepped := false, unsync := false, ovf := false, seq := 1, msgType := 0, domain := 0, cycle := running.time.cycle }
     let s := withPort { port0 with txtsMissed := some e }
     Writable s ∧ (netPort s 0).txtsMissed = some e ∧ e.cycle = s.time.cycle) := by decide +kernel

/-- A frame for the port of this Ethertype. -/
def typed (e : List Byte) : List Byte := [2, 0x11, 0x22, 0x33, 0x44, 0x55] ++ List.replicate 6 1 ++ e ++ List.replicate 50 0
/-- An ARP request of 10.0.0.9 for the port's address. -/
def arpMsg : List Byte := [0, 1, 8, 0, 6, 4, 0, 1, 2, 0, 0, 0, 0, 9, 10, 0, 0, 9, 0, 0, 0, 0, 0, 0, 10, 0, 0, 1]

theorem witness_framesThatPass :
    (∀ e ∈ ([[8, 6], [0x88, 0xF7], [8, 0], [0x86, 0xDD]] : List (List Byte)), (typed e).length = 64 ∧
      halfAt (typed e) 12 = beNat e ∧ macAccepted (netPort linked 0) (macOf (typed e) 0) = true ∧ (macOf (typed e) 0 == 0xFFFFFFFFFFFF) = false) ∧
    (let x := { port0 with ptpEn := true, l2 := true }
     x.ptpEn = true ∧ x.l2 = true ∧ port0.ptpEn = false) ∧
    (ip4At arpMsg 24 = ip4Of (netPort linked 0).ip4 ∧ ip4At arpMsg 14 ≠ ip4Of (netPort linked 0).ip4 ∧ halfAt arpMsg 6 = 1) ∧
    ptpVersionOk [0, 0x12] = true ∧ ({ linked with dol := { linked.dol with en := true } } : State).dol.en = true ∧
    dolidMalformed ([1, 0x20, 0, 20, 0, 0, 0, 7, 0, 0, 0, 0, 0, 0, 0, 1] ++ List.replicate 20 0) = false := by decide +kernel

def sess : Session :=
  { sid := 7, entry := 7, iid := 0, peer := 0, peerId := 1, cnonce := 0, keys := [], th := [], addr := 9, udp := 1, port := 0, accept := [],
    high := 3, seen := 1 }
def msgOf (ty seq : Byte) : DolMsg :=
  { port := 0, src := 9, udp := 1, bytes := [1, ty, 0, 0, 0, 0, 0, 7, 0, 0, 0, 0, 0, 0, 0, seq] ++ List.replicate 40 0, cycle := 0,
    reserved := 0, shared := 0 }
def hasInbox (m : DolMsg) : State := { running with dol := { running.dol with inbox := [m], sessions := [sess] } }

/-- A message with 4 bytes of plaintext that its tag verifies. -/
def goodMsg (ty seq : Byte) : DolMsg :=
  let h : List Byte := [1, ty, 0, 20, 0, 0, 0, 7, 0, 0, 0, 0, 0, 0, 0, seq]
  { msgOf ty seq with bytes := h ++ gcmSeal [] (dolidNonce (beNat (slice h 8 8))) h [5, 6, 7, 8] }

theorem opened_goodMsg (ty seq : Byte) : Sys2Proof.Machine.opened sess (goodMsg ty seq) = some [5, 6, 7, 8] :=
  gcm_round_trip _ _ _ _

theorem witness_dolidMessagesAreDecidedInOrder :
    (let s := hasInbox (msgOf 1 4)
     Live s ∧ s.boot.warm = false ∧ byteAt (msgOf 1 4).bytes 1 = 1 ∧ s.dol.key = none ∧ cookieValid s (msgOf 1 4) = false ∧
       (1 : Nat) ≠ (msgOf 1 4).port) ∧
    (let m := msgOf 1 4
     let h : Handshake := { n := 0, iid := 0, peer := 0, peerId := 0, cnonce := 0, addr := 9, udp := 1, port := 0, init := [], reserved := 0, shared := 0 }
     let s := { hasInbox m with dol := { (hasInbox m).dol with handshakes := [h] } }
     s.dol.handshakes.any (fun h => h.iid == 0 && h.peerId == BitVec.ofNat 64 (beNat (slice m.bytes 20 8))
       && h.cnonce == BitVec.ofNat 128 (beNat (slice m.bytes 28 16))) = true) ∧
    ((hasInbox (msgOf 1 4)).fc.snet = false ∧ (inst (withInst active0) 0).st = .active ∧ (dolInst base 0).kemValid = false ∧
      (dolInst (setDolInst 0 { kemValid := true, maxSess := 0 } base) 0).maxSess.toNat ≤ 0 ∧ beNat (slice (msgOf 1 4).bytes 44 16) = 0) ∧
    (∀ ty ∈ ([0x10, 0x12, 0x20] : List Byte), byteAt (msgOf ty 4).bytes 1 = ty.toNat) ∧
    dolSession? (hasInbox (msgOf 0x10 4)) (msgOf 0x10 4).sid = some sess ∧ (msgOf 0x10 4).src = sess.addr ∧ sess.keyOk = true ∧
    dolSession? base 7 = none ∧ (msgOf 0x10 4).udp = sess.udp ∧
    (replayed sess 4).isSome = true ∧ (replayed sess 3).isNone = true := by decide +kernel

/-- A valid cookie: its key and epoch are the current ones, and C is the one that the key gives. The sender is a valid peer of an enabled
instance, with the sessions l open. -/
theorem witness_dolidCookieIsValid (k : List Byte) (l : List Session) : ∃ (s : State) (m : DolMsg),
    s.dol.key.isSome = true ∧ s.dol.inbox = [m] ∧ cookieValid s m = true ∧ Live s ∧ s.boot.warm = false ∧ byteAt m.bytes 1 = 1 ∧
    (halfAt m.bytes 16 < iidCount s ∧ (dolInst s 0).en = true ∧ (inst s 0).st ≠ .free ∧ isV4 m.src = false ∧ (dolInst s 0).v6 = true) ∧
    (peerOf s 0 (BitVec.ofNat 64 (beNat (slice m.bytes 20 8)))).isSome = true ∧ s.dol.sessions = l := by
  let h : List Byte := [1, 1] ++ List.replicate 42 0
  let u : State := { withInst active0 with dol := { running.dol with
    key := some k, epoch := 1, inst := [(0, { en := true, v6 := true })], peers := [(3, { valid := true })], sessions := l } }
  let m0 : DolMsg := { msgOf 1 4 with bytes := h }
  let m : DolMsg := { m0 with bytes := h ++ [0, 0, 0, 1] ++ cookieMac k (cookieString m0) }
  refine ⟨{ u with dol := { u.dol with inbox := [m] } }, m, rfl, rfl, ?_, rfl, rfl, rfl,
    ⟨?_, rfl, ?_, ?_, rfl⟩, rfl, rfl⟩
  rotate_left
  · show 0 < 512
    decide
  · show InstState.active ≠ InstState.free
    decide
  · show isV4 9 = false
    decide
  have hl : (cookieMac k (cookieString m0)).length = 12 := by simp [cookieMac, bytesFrom]
  have hs : cookieString m = cookieString m0 := rfl
  have he : beNat (slice m.bytes 44 4) = 1 := rfl
  have hc : slice m.bytes 48 12 = cookieMac k (cookieString m0) := by
    have : m.bytes.drop 48 = cookieMac k (cookieString m0) := rfl
    rw [slice, this, ← hl, List.take_length]
  have hz : (beNat (slice m.bytes 44 16) != 0) = true := by
    have : slice m.bytes 44 16 = [0, 0, 0, 1] ++ cookieMac k (cookieString m0) := by
      have : m.bytes.drop 44 = [0, 0, 0, 1] ++ cookieMac k (cookieString m0) := rfl
      rw [slice, this, List.take_of_length_le (by simp [hl])]
    rw [this]
    simp only [bne_iff_ne, ne_eq]
    intro hn
    have hpos : ∀ l : List Byte, natOf (l ++ [1, 0, 0, 0]) ≠ 0 := by
      intro l
      induction l with
      | nil => decide
      | cons a l ih => simp only [List.cons_append, natOf]; omega
    exact hpos _ (by simpa [beNat] using hn)
  simp only [cookieValid, hz, he, hc, hs, Bool.true_and]
  show ((epochKey _ 1).any _) = true
  simp [epochKey, u]

theorem witness_dolidMessagesAccepted (ty : Byte) :
    acceptMsg (goodMsg ty 4) (hasInbox (goodMsg ty 4)) =
      .inr ({ sess with high := 4, seen := (1 <<< 1) ||| 1, last := 0, port := 0 }, [5, 6, 7, 8]) := by
  have h : dolSession? (hasInbox (goodMsg ty 4)) (goodMsg ty 4).sid = some sess := rfl
  have hs : beNat (slice (goodMsg ty 4).bytes 8 8) = 4 := rfl
  have hr : replayed sess 4 = some { sess with high := 4, seen := (1 <<< 1) ||| 1 } := by decide +kernel
  have ha : (goodMsg ty 4).src = sess.addr ∧ (goodMsg ty 4).udp = sess.udp ∧ sess.keyOk = true := ⟨rfl, rfl, rfl⟩
  have ht : (hasInbox (goodMsg ty 4)).time.ticks = 0 ∧ (goodMsg ty 4).port = 0 := ⟨rfl, rfl⟩
  simp only [acceptMsg, h, opened_goodMsg, hs, hr, ha, ht, ne_eq, not_true_eq_false, false_or, Bool.true_eq_false, if_false]

theorem witness_sequenceNumbersAreTakenOnce :
    (replayed sess 4).isSome = true ∧ (replayed sess 2).isSome = true ∧ replayed sess 3 = none ∧
    (replayed { sess with high := 5000 } 904).isNone = true ∧ (replayed { sess with high := 5000 } 905).isSome = true := by decide +kernel

def timed (n : Nat) (s : State) : State := { s with time := { s.time with ticks := n } }

theorem witness_dolidTimersAndPeerTable :
    (let s := timed (3600 * secondTicks) (hasInbox (msgOf 1 4))
     dolSession? s 7 = some sess ∧ sess.last + max 1 s.dol.idleS.toNat * secondTicks ≤ s.time.ticks ∧ s.tickets = []) ∧
    (let s := { running with dol := { running.dol with key := some [], draw := false }, rm := { running.rm with nt := 100000000000 } }
     s.dol.key.isSome = true ∧ s.dol.draw = false ∧ s.dol.redraw = false ∧ s.boot.warm = false ∧
       s.dol.epochFrom + max 1 s.dol.cookieS.toNat * 10 ^ 9 ≤ ntN s) ∧
    ({ running with dol := { running.dol with redraw := true } } : State).dol.redraw = true ∧
    (let r : Txn := { iid := 0, txid := 5, sid := 7, peer := 0, port := 0, final := some ([], 0) }
     let s := { running with dol := { running.dol with txns := [r] } }
     txn? s 0 5 = some r ∧ 0 < s.dol.holdMs.toNat * 6000000) ∧
    (iidCount { base with dev := { base.dev with part := .kx128 } } ≤ ({ base with dol := { base.dol with peerReg := { iid := 511 } } } : State).dol.peerReg.iid.toNat) ∧
    base.dol.peerReg.iid.toNat < iidCount base ∧
    (∃ e ∈ ({ base with dol := { base.dol with peers := [(1, { valid := true })] } } : State).dol.peers,
      e.1 ≠ (0 : W32).toNat % 8192 ∧ e.2.valid = true ∧ e.2.iid = base.dol.peerReg.iid ∧ e.2.id = base.dol.peerReg.id) ∧
    ((0, {}) ∈ ({ base with dol := { base.dol with inst := [(0, {})] } } : State).dol.inst) := by decide +kernel

/-! ### Time, audit, clocks, cards, entropy, life cycle, debug, reset and boot -/

def withRm (r : Ringmaster) : State := { running with rm := r, mgmt := { base.mgmt with held := false } }

theorem witness_networkTimeIsSetAndCorrected :
    (Writable running ∧ ((3 : W32).setWidth 2 : BitVec 2) = 3 ∧ ((0x40000001 : W32).setWidth 2 : BitVec 2) ≠ 3 ∧
      bit (0x40000001 : W32) 31 = false) ∧
    (let s := withRm { base.rm with setSec := 5 }
     ((0x80000000 : W32).setWidth 2 : BitVec 2) = 0 ∧ s.rm.src = 0 ∧ ntFine s ≤ setTarget s * 2 ^ 32) ∧
    (let s := withRm { base.rm with nt := 1 }
     s.rm.src = 0 ∧ setTarget s * 2 ^ 32 < ntFine s) ∧
    (let s := withRm { base.rm with src := 2, armed := true, setSec := 5 }
     ((0x80000002 : W32).setWidth 2 : BitVec 2) = 2 ∧ s.rm.src = 2 ∧ s.rm.lastPps = none ∧ s.rm.armed = true ∧
       ((s.rm.nt.toNat : Nat) : Int) ≤ ((setTarget s : Nat) : Int) + s.rm.ppsLat.toInt ∧
       ((ntFine s : Nat) : Int) ≤ (((setTarget s : Nat) : Int) + s.rm.ppsLat.toInt) * 2 ^ 32) ∧
    (let s := withRm { base.rm with src := 1, stepEn := false, established := true, adj := 5, due := [.apply 5, .servo 7] }
     s.mgmt.held = false ∧ s.rm.src = 1 ∧ s.rm.due = [.apply 5, .servo 7] ∧ (NtCorrection.apply 5).isApply = true ∧
       (NtCorrection.servo 7).isApply = false ∧ (s.rm.established = true ∧ s.rm.stepEn = false)) ∧
    base.rm.established = false ∧
    (withRm base.rm).rm.src ≠ 1 ∧
    (let s := withRm { base.rm with src := 2, lastPps := some 0 }
     s.rm.lastPps = some 0 ∧ s.time.ticks < 0 + 5400000000) ∧
    (timed 24000000000 (withRm { base.rm with src := 1 })).rm.lastApply + 24000000000 ≤ 24000000000 ∧
    (timed 0 (withRm { base.rm with src := 2 })).rm.lastPps = none ∧
    (let s := withRm { base.rm with src := 2, established := true }
     s.rm.lastPps = none ∧ s.rm.armed = false) := by decide +kernel

theorem witness_scheduleEntriesFire :
    (field (0xC6000005 : W32).toNat 24 4 < 8 ∧ field (0xC6000005 : W32).toNat 24 4 ≠ 1) ∧ 8 ≤ field (0x0F000000 : W32).toNat 24 4 ∧
    field (0x01000000 : W32).toNat 24 4 = 1 ∧
    (let s := setSched 255 { en := true, action := 6, arg := 2, fire := 10, period := 5 } (withRm { base.rm with nt := 12 })
     Live s ∧ due s 255 = true ∧ outsideOrder s 255 = true ∧ (sched s 255).action ≠ 7 ∧ (sched s 255).period ≠ 0) ∧
    (let s := setSched 1 { en := true, action := 3, fire := 10 } (withRm { base.rm with nt := 10 })
     due s 1 = true ∧ firstDue s 1 = true ∧ s.rm.fired = false ∧ (sched s 1).period = 0 ∧ outsideOrder s 1 = false) ∧
    due (setSched 1 { en := true, fire := 10 } (withRm { base.rm with nt := 9 })) 1 = false ∧
    (let s := withRm { base.rm with nt := 9, pulses := [(1, 10)] }
     (nt s).toNat < Table.get 0 s.rm.pulses 1 ∧ Table.get 0 s.rm.pulses 2 ≤ (nt s).toNat) := by decide +kernel

def sealing0 : Sealing := { epoch := 0, ntStart := 0, ntEnd := 5, flags := 0, uncMax := 0 }
def audited (a : Audit) : State := { running with aud := a }

theorem witness_auditEpochsAreSealedInOrder :
    (audited {}).aud.isOpen = false ∧
    (let s := { audited { isOpen := true } with rm := { base.rm with moved := true } }
     Writable s ∧ s.aud.isOpen = true ∧ s.rm.moved = true ∧ stagedCount s < 8 ∧ s.aud.pendFinal = false) ∧
    (audited { isOpen := true }).rm.moved = false ∧
    (let r : Receipt := { epoch := 0, iid := 0, index := 0, leaf := [] }
     let s := audited { isOpen := true, queue := [r] }
     s.aud.queue = r :: [] ∧ r.epoch = s.aud.epoch) ∧
    (let s := audited { sealings := [sealing0], bootReady := false }
     s.aud.sealings.find? (fun y => y.topRoot.isNone) = some sealing0 ∧ s.aud.bootReady = false) ∧
    (let x := { sealing0 with sign := { ended := some 0 } }
     (audited { sealings := [x] }).aud.sealings.find? (fun y => y.sign.ended.isSome || y.cosign.ended.isSome) = some x) ∧
    (let x := { sealing0 with cosign := { ended := some 0 } }
     (audited { sealings := [x] }).aud.sealings.find? (fun y => y.sign.ended.isSome || y.cosign.ended.isSome) = some x ∧ x.sign.ended = none) ∧
    (let x := { sealing0 with cosign := { retry := true } }
     (audited { sealings := [x] }).aud.sealings.find? (fun y => y.cosign.retry) = some x) ∧
    (let x := { sealing0 with staged := true }
     let s := audited { sealings := [x], ringLog2 := 1, head := 1 }
     s.aud.sealings = x :: [] ∧ (s.aud.head - s.aud.tail).toNat < ringSize s ∧ s.aud.irq = false ∧ s.rm.moved = false ∧
       (s.aud.head - 0xFFFFFFFF).toNat ≤ ringSize s ∧ ringSize s < (s.aud.head - 0xFFFFFFFE).toNat) := by decide +kernel

def withDom (d : Nat) (x : Domain) : State := setDom d x running

theorem witness_clockDomainsSwitchAndRecover :
    running.clk.gateDis = false ∧ unitBusy running 0x1000 = false ∧
    unitBusy (setCore 0 { run := .running } running) 0x1000 = true ∧
    (dom (withDom 1 { switching := some true, clocked := true }) 1).switching = some true ∧
    (let s := withDom 1 { switching := some false, clocked := false, lock := true }
     (dom s 1).switching = some false ∧ (dom s 1).clocked = false ∧ (dom s 1).lock = true) ∧
    (let s := withDom 1 { recovery := .locking, retired := true }
     1 < ringCount s ∧ s.boot.pwrGood = true ∧ (dom s 1).lock = false ∧ (dom s 1).recovery = .locking ∧ (dom s 1).retired = true) ∧
    (dom (withDom 1 {}) 1).recovery = .none ∧
    (let s := withDom 1 { recovery := .waiting, retired := true }
     (dom s 1).recovery = .waiting) ∧
    (dom (withDom 1 { recovery := .holding, retired := true, failed := 2 }) 1).recovery = .holding ∧
    max 1 running.clk.retry.toNat ≤ 2 + 1 ∧ 0 + 1 < max 1 running.clk.retry.toNat ∧
    (let s := withDom 15 { retired := true }
     Writable s ∧ 15 < ringCount s ∧ bit (0x8000 : W32) 15 = true ∧ (dom s 15).recovery = .none) ∧
    running.clk.ref10Ok = false := by decide +kernel

def trimmed (t : BitVec 2) (f : W32) : State :=
  { running with clk := { base.clk with trim := t, ref10Ok := true }, rm := { base.rm with src := 1, freq := f } }

theorem witness_clockMonitorsTripAndTrim :
    (Live (withDom 15 {}) ∧ 15 < ringCount (withDom 15 {}) ∧ (dom (withDom 15 {}) 15).retired = false ∧
      bit (withDom 15 {}).ush.ringRet 15 = false) ∧
    (trimmed 1 0).clk.ref10Ok = true ∧ ({ running with clk := { base.clk with refclkOk := true } } : State).clk.refclkOk = true ∧
    running.clk.trim ≠ 0 ∧ (trimmed 0 0).clk.trim = 0 ∧
    (let s := { trimmed 2 65537 with clk := { (trimmed 2 65537).clk with freqOver := some 0, codeWas := some 1 }, rm := { (trimmed 2 65537).rm with nt := 16000000000 } }
     freqLongOver s = true ∧ s.clk.codeWas = some 1) ∧ freqLongOver (trimmed 2 65537) = false ∧
    (let f := (0 : W32).toInt - (((1 : W32).setWidth 20 : BitVec 20).toInt - running.clk.code.toInt) * 4096
     f ≤ 32768000 ∧ -32768000 ≤ f) ∧
    (let f := (0 : W32).toInt - (((0x7FFFF : W32).setWidth 20 : BitVec 20).toInt - running.clk.code.toInt) * 4096
     f < -32768000) ∧
    trimMode (trimmed 1 0) = 1 ∧ trimMode (trimmed 0 0) ≠ 1 ∧ trimMode (trimmed 2 65537) = 2 ∧
    65536 < (trimmed 2 65537).rm.freq.toInt.natAbs ∧ trimMode (trimmed 1 0) ≠ 2 ∧
    (((400000025 : Nat) : Int) - 400000000).natAbs ≤ 25 ∧ 25 < (((400000026 : Nat) : Int) - 400000000).natAbs := by decide +kernel

def card (x : Slot) : State := setSlot 0 x running

theorem witness_cardSlotsActivate :
    (hcOperates (card {}) 0 = true ∧ (slotOf (card {}) 0).present = false ∧ (slotOf (card {}) 0).st = hcEmpty ∧
      (slotOf (card {}) 0).autoAct = false ∧ (slotOf (card {}) 0).ownerKs = false) ∧
    (slotOf (card { ownerKs := true }) 0).ownerKs = true ∧
    (let s := card { present := true, st := hcInserted }
     (slotOf s 0).st = hcInserted ∧ (slotOf s 0).classA = true) ∧
    (let s := card { present := true, st := hcReady, vccOn := true }
     (slotOf s 0).st = hcReady ∧ (slotOf s 0).stepWaits = false ∧ (slotOf s 0).st ≠ hcEmpty ∧ (slotOf s 0).st ≠ hcDeact) ∧
    (let s := card { present := true, st := hcDeact, after := hcInserted }
     (slotOf s 0).st = hcDeact ∧ (slotOf s 0).after ≠ hcActivating) ∧
    (slotOf (card { act := .supply }) 0).act = .supply ∧ (slotOf (card { act := .clock }) 0).act = .clock ∧
    (slotOf (card { act := .atr }) 0).act = .atr ∧
    ((slotOf (card { classA := true }) 0).clsA = false ∧ (slotOf (card { classA := true }) 0).tried.contains true = false ∧ (slotOf (card { clsA := true }) 0).clsA = true) ∧
    (let a : List Byte := [0x3B, 0x80, 0x01, 0x81]
     let gs := (atrParse a).getD []
     a.head? = some 0x3B ∧ (atrParse a).isSome = true ∧ gs.find? (fun g => g.t == 15) = none ∧
       (∃ g ∈ gs, ∃ b ∈ g.td.toList, b.toNat % 16 = 1) ∧ ((gs.drop 1).head?.bind (fun g => g.ta)) = none ∧
       gs.head?.bind (fun g => g.ta) = none) ∧
    (let a : List Byte := [0x3B, 0x90, 0x95, 0x01, 0x04]
     let gs := (atrParse a).getD []
     (atrParse a).isSome = true ∧ gs.head?.bind (fun g => g.ta) = some 0x95 ∧ (slotOf (card {}) 0).ppsFailed = false ∧
       4000 ≤ fmaxOf 9 * ({ clkdiv := 100 } : Slot).clkdiv.toNat ∧ fiOf 9 ≠ 0 ∧ diOf 5 ≠ 0) := by decide +kernel

theorem witness_cardSlotsExchange :
    (slotOf (card { txLen := 3 }) 0).txLen.toNat < 4 ∧ 261 < (slotOf (card { txLen := 262 }) 0).txLen.toNat ∧
    (let s := card { st := hcReady, txLen := 4 }
     filtered (slotOf s 0).command = false ∧ (slotOf s 0).command.length ≤ (slotOf s 0).ifsc.toNat) ∧
    filtered (slotOf (card { st := hcReady, txLen := 5, tx := [(0, 0x80), (1, 0xB2)] }) 0).command = true ∧
    (let s := card { st := hcExchange, wait := .response }
     (slotOf s 0).act = .none ∧ (slotOf s 0).wait = .response ∧ (slotOf s 0).errors = 0) ∧
    (let s := card { st := hcExchange, wait := .response }
     let b := t1Block false 0 [0x90, 0]
     b.length = 3 + (b.getD 2 0).toNat + (if (slotOf s 0).edc then 2 else 1) ∧ (b.getD 2 0).toNat ≤ 254 ∧ (b.getD 1 0).toNat < 128 ∧
       ((b.getD 1 0).toNat / 64 % 2 == 1) = (slotOf s 0).nr ∧ (b.getD 1 0).toNat / 32 % 2 = 0 ∧ (slotOf s 0).cmd = 0 ∧
       (slotOf s 0).stepWaits = false ∧ hcOperates s 0 = true) ∧
    ((slotOf (card { act := .ifs }) 0).act = .ifs ∧ ([] : List Byte) ≠ t1Block false 0xE1 [0xFE] ∧ (slotOf (card { act := .ifs, errors := 2 }) 0).errors = 2 ∧
      [1] ≠ (slotOf (card { act := .pps }) 0).lastBlock ∧ (slotOf (card { act := .pps }) 0).act = .pps) ∧
    (slotOf (card { st := hcExchange, wait := .response, errors := 2 }) 0).errors = 2 ∧
    (let s := card { st := hcExchange, cmd := 4, phase := .gap }
     (slotOf s 0).poll = false ∧ (slotOf s 0).left = [] ∧ (slotOf s 0).dataEnd ≤ s.time.ticks) ∧
    (let s := card { st := hcBusy, phase := .busy, poll := true }
     (slotOf s 0).phase = .busy ∧ (slotOf s 0).wait = .none ∧ (slotOf s 0).st = hcBusy) ∧
    (let s := card { st := hcReady, clkstopEn := true, xi := 1 }
     (slotOf s 0).xi ≠ 0 ∧ (slotOf s 0).wait = .none ∧ (slotOf s 0).stepWaits = false) := by decide +kernel

def noisy (g : Entropy) : State := { running with rng := g, clk := { base.clk with tioStable := true } }

theorem witness_noiseWindowsAreTestedAndPooled :
    (bit (noisy {}).rng.srcEn 3 = true ∧ (noisy {}).clk.tioStable = true ∧ Live (noisy {}) ∧ (noisy {}).rng.rawRunning = false ∧
      (noisy {}).rng.pool.length < 16) ∧
    (let s := noisy { rawRunning := true, rawSrc := 2 }
     s.rng.rawRunning = true ∧ s.rng.rawSrc.toNat = 2) ∧
    base.clk.tioStable = false ∧ (running.lcs.st ≠ 0 ∧ running.lcs.st ≠ 1) ∧ maker.lcs.st = 0 := by decide +kernel

def serving (g : Entropy) : State := setHashEng 0 0 { queue := [{ op := 7, ctx := 0, alg := 0, src := 0, dst := 0, len := 0, out := 16 }] } (noisy g)
def req0 : DrbgReq := { who := .hash 0 0, len := 16, pr := false, since := 0 }

theorem witness_generatorIsSeededAndServes :
    (let s := noisy { katRunning := true, pool := [0, 1, 2] }
     s.rng.katRunning = true ∧ s.rng.instRunning = false ∧ s.rng.reseedRunning = false ∧ s.rng.ready = false ∧ 3 ≤ s.rng.pool.length) ∧
    (let s := { noisy { instRunning := true, pool := [0, 1, 2] } with aud := { base.aud with bootReady := true } }
     s.rng.instRunning = true ∧ s.rng.reseedPending = false ∧ s.aud.bootReady = true ∧ s.rng.queue = []) ∧
    (let s := noisy { katPassed := true }
     Writable s ∧ s.rng.pool.length < 2 ∧ s.rng.ready = false ∧ s.rng.katPassed = true) ∧
    (let s := noisy { reseedRunning := true, pool := [0, 1] }
     s.rng.reseedRunning = true ∧ 2 ≤ s.rng.pool.length) ∧
    (let s := serving { ready := false }
     drbgWants s (.hash 0 0) = some (16, false) ∧ s.rng.queue = [] ∧ drbgAnswer s (.hash 0 0) = none ∧ isSeed (.hash 0 0) = false) ∧
    (let s := serving { ready := true, katPassed := true, holdUs := 1 }
     s.rng.ready = true ∧ s.rng.katPassed = true ∧ s.rng.holdUs ≠ 0) ∧
    (let s := serving { ready := true, katPassed := true, queue := [req0] }
     s.rng.queue = req0 :: [] ∧ s.rng.reseedRunning = false ∧ drbgMustWait s req0 = false) ∧
    (let s := serving { ready := true, katPassed := true, faulty := true, queue := [req0] }
     s.rng.queue.find? (fun r => r.who == .hash 0 0) = some req0 ∧ ∀ h ∈ s.rng.queue, drbgMustWait s h = true) := by decide +kernel

def lc (l : LifeCycle) : State := { base with lcs := l }

theorem witness_lifeCycleMovesForwardOnly :
    permittedTransition 2 1 = false ∧ permittedTransition 2 (4 % 8) = true ∧
    (Writable (lc {}) ∧ permittedTransition (lc {}).lcs.st (12 % 8) = true ∧ (lc {}).lcs.busy = false ∧ 12 % 8 ≠ 2) ∧
    (let s := lc { st := 1 }
     permittedTransition s.lcs.st 2 = true ∧ Table.get false s.lcs.rootLocked 0 = true ∧ Table.get false s.lcs.rootLocked 1 = true) ∧
    (let s := lc { rows := [.copy 0, .copy 1], target := 3 }
     Live s ∧ s.lcs.rows = .copy 0 :: .copy 1 :: [] ∧ s.lcs.atBoot = false) ∧
    (lc { rows := [.intent 2] }).lcs.rows = [.intent 2] ∧ (lc { rows := [.rootLock 1] }).lcs.rows = [.rootLock 1] ∧
    (let s := lc { st := 1, rootLocked := [] }
     Writable s ∧ s.lcs.rootBusy = false ∧ s.lcs.st = 1 ∧ Table.get false s.lcs.rootLocked (b2n (bit (0x100 : W32) 8)) = false ∧
       Table.get 0 s.lcs.roots (b2n (bit (0x100 : W32) 8)) = 0) ∧
    (lc {}).lcs.st ≠ 1 ∧ (lc { rootBusy := true }).lcs.rootBusy = true := by decide +kernel

def token : Table Byte := writeWin [] 0 (bytesOf 0x4144584B 4 ++ bytesOf 1 2 ++ bytesOf 0 2 ++ bytesOf (codeword 3).toNat 8 ++ bytesOf 0 48)
def challenged : State := lc { st := 3, verifying := true, chalFresh := true, chal := List.replicate 32 0, token := token }

theorem witness_debugIsGrantedAndChecked :
    (Writable (lc {}) ∧ (lc {}).lcs.dbgBusy = false ∧ (lc {}).lcs.busy = false ∧ (lc { dbgBusy := true }).lcs.dbgBusy = true) ∧
    (challenged.lcs.verifying = true ∧ tokenResult true true challenged = 0 ∧ tokenResult true false challenged ≠ 0) ∧
    (dbgMay (lc {}) 0 = false ∧ dbgMay (lc { st := 0 }) 0 = true ∧ (lc { st := 0, dbgHeld := true }).lcs.dbgHeld = true) ∧
    (scanMay (lc { st := 0, dbgHeld := true }) = true ∧ scanMay (lc {}) = false) ∧
    (lc { st := 4 }).lcs.st = 4 ∧ (lc {}).lcs.st = 2 ∧
    (let s := lc { st := 0 }
     dapMemory 0x0003FFFC s = some (.loc 0 0x3FFFC) ∧ lineTag s (.loc 0 0x3FFFC) = .pub) ∧
    (let s := setLineTag (.loc 0 0x3FFC0) .secret (lc { st := 0 })
     lineTag s (.loc 0 0x3FFFC) ≠ .pub) := by decide +kernel

theorem witness_resetsClearTheirScope :
    running.boot.powered = true ∧ base.boot.powered = false ∧ Live running ∧
    ({ running with fc := { base.fc with lock := true } } : State).fc.lock = true ∧
    (let s := { setDom 16 { clocked := true } running with boot := { running.boot with powered := true } }
     s.lcs.st ≠ lcScrapped ∧ hubClocked s = true ∧ s.lcs.atBoot = false ∧ s.boot.perstLow = false ∧ s.boot.warm = false ∧
       s.lcs.dbgHeld = false ∧ (Table.get {} s.clk.dom 16).recovery = .none) ∧
    (Writable running ∧ running.lcs.busy = false ∧ (lc { busy := true }).lcs.busy = true) ∧
    (let s := { withInst active0 with boot := { running.boot with warm := true } }
     Live s ∧ s.boot.warm = true ∧ s.boot.perstLow = false ∧ (inst s 0).st ≠ .free) := by decide +kernel

def directory : List Byte := bytesOf 0x4442584B 4 ++ bytesOf 1 4 ++ bytesOf 0x1000 4 ++ bytesOf 0x10000 4 ++ bytesOf 0 48
def image : List Byte := bytesOf 0x4942584B 4 ++ bytesOf 1 2 ++ bytesOf (stepLetter base) 1 ++ bytesOf 0 4684
def allOk : BootVerdicts :=
  { flashOk := true, keyOk := true, sigOk := true, patchKeyOk := true, patchSigOk := true, vendorOk := true, integratorOk := true }
def booting (b : BitVec 4) (t : Option Nat) : State :=
  { base with boot := { base.boot with stage := b, trying := t }, mgmt := { base.mgmt with held := false } }

theorem witness_bootLoadsAndReleasesRings :
    (Live (booting 2 none) ∧ (booting 2 none).boot.stage = stFlash ∧ (booting 2 none).mgmt.held = false ∧
      (booting 2 none).boot.trying = none ∧ dirValid directory = true ∧ dirValid [] = false) ∧
    (slotResult image (flashSlot directory (firstSlot directory)).length allOk (booting 2 none) = 0 ∧
      slotResult image 4690 allOk (booting 2 none) = 2 ∧
      slotResult image 4691 { allOk with keyOk := false } (booting 2 none) = 4) ∧
    (booting 2 (some 1)).boot.trying = some 1 ∧
    (Writable (booting 6 none) ∧ (booting 6 none).boot.stage = stRecovery ∧ (booting 2 none).boot.stage ≠ stRecovery) ∧
    (booting 4 none).boot.stage = stLoading ∧
    (let s := setDom 0 { lock := true } (booting 5 none)
     Live s ∧ s.boot.stage = stRunning ∧ ringReady s 0 = true) ∧
    (ringPresent running (16 % 16) = true ∧ bit running.ush.ringRet (16 % 16) = false ∧ bit running.boot.ringUp (16 % 16) = true ∧
      ringPresent ({ running with dev := { base.dev with part := .kx128 } } : State) (15 % 16) = false) := by decide +kernel

theorem witness_testPortStaysLegal :
    base.jtag.ir ∈ ([0xFF, 0x01, 0x02, 0x00, 0x04, 0x05, 0x20] : List Byte) ∧
    (base.jtag.outcome = 1 ∨ (base.jtag.outcome = 2 ∧ base.jtag.data = 0)) ∧ (∃ t, step base = .next t) := by
  refine ⟨by decide +kernel, by decide +kernel, ⟨tick base, rfl⟩⟩

/-! ### Ill-formed operands are refused, the largest well-formed ones are not -/

theorem test_illFormed : ∀ c ∈ ([
    .registerWrite 1 0 (List.replicate 4 0), .registerWrite 11 0 (List.replicate 4 0), .rcRegisterRead 7 0 4,
    .memoryParityError (.coreLocal 0) 2 .unowned ⟨none, .of 0, some ([1, 2, 3], .pub)⟩,
    .memoryParityError (.coreLocal 0) 0 .unowned ⟨none, .of 0, some ([], .pub)⟩, .registerWrite 0 0 (List.replicate 3 0), .registerWrite 0 2 (List.replicate 4 0),
    .rcRegisterRead 1 0 4, .rcRegisterRead 0 0 16, .rcRegisterRead 0 4 8, .creditReturn 17 0, .creditReturn 0 17,
    .actStoreLineRewrite 16 0 (List.replicate 64 0), .actStoreLineRewrite 0 0 [], .instanceConfigWrite 512 0 0,
    .instanceConfigWrite 0 64 0, .instanceConfigWrite 0 2 0, .itShareWrite 512 0, .activate 512, .ticketReadCompletion 512 [] [],
    .ticketReadCompletion 0 [] (List.replicate 65 0), .copyValid 16 0 0, .copyFreed 0 0 11, .ksDomainWrite 512 0 0,
    .ksDomainWrite 0 4 0, .txidHoldExpiry 512 0, .commit 256, .dmaStart 256 0, .timecmpReached 257, .regArith 257 0, .vecAlu 256 0,
    .mgmtInterrupt 12, .mrgSeedRequest 16 0, .mrgSeedArrival 0 8, .heInit 256 0 0, .heFinal 0 2 0, .ldkey 256 0 0, .wrap 0 2 0,
    .heCmdDone 0 2, .bcCmdDone 256 0, .meClaim 256 0 0, .mrow 0 4 0, .meCmdDone 0 4, .meClaimGrant 16 0, .meScrubDone 0 4, .ringGo 16,
    .portEnable 8 0, .linkRestart 8, .linkDown 8 false, .frameReceive 8 [] { fcs := true }, .neighbourRetry 8 0, .frameTransmit 8 none,
    .scheduleEntryWrite 256 0, .scheduleFire 256, .clockSwitch 18, .pllTrip 18 2, .pllTrip 0 1, .pllTrip 0 5, .tioMonitorTrip 2,
    .aonMonitorTrip 5, .cardInsert 2, .activationTimer 2 true, .atrReceive 2 [] true, .atrReceive 0 (List.replicate 34 0) true,
    .t1BlockReceive 2 [] true true [], .t1BlockReceive 0 (List.replicate 260 0) true true [], .noiseWindowEnd 4 0, .rngStatRead 4,
    .fcStickyClear 2 0, .lcTransition 8 false true, .perst 2, .dapRead 64 0, .dapRead 0 2, .dapWrite 0 1 0] : List Instr),
    c.wf = false := by decide +kernel

theorem test_wellFormed : ∀ c ∈ ([
    .registerWrite 2 4 (List.replicate 4 0), .registerWrite 8 4 (List.replicate 4 0), .rcRegisterRead 10 0 4,
    .memoryParityError (.coreLocal 0) 2 .unowned ⟨none, .of 0, some ([1, 2], .pub)⟩, .rcRegisterRead 0 8 8, .creditReturn 16 16, .instanceConfigWrite 511 60 0,
    .ticketReadCompletion 511 [] (List.replicate 64 0), .copyValid 15 0 10, .ksDomainWrite 511 3 0, .commit 255, .regArith 256 0,
    .vecAlu 255 0, .mgmtInterrupt 11, .mrow 255 3 0, .wrap 255 1 0, .portEnable 7 0, .scheduleEntryWrite 255 0, .clockSwitch 17,
    .pllTrip 17 4, .cardInsert 1, .noiseWindowEnd 3 0, .lcTransition 7 false true, .dapRead 0 4, .powerOnReset] : List Instr),
    c.wf = true := by decide +kernel

/-! ### One step at a time: the results come from the rules named -/

/-- What core c holds after one step of the command at the front. -/
def stepped (i : Instr) (s : State) : State :=
  match step { s with pending := [i] } with
  | .next t => t
  | _ => s
def gAfter (w : W32) (g : Table W64) (r : Nat) : W64 :=
  (core (stepped (match klass w with | .divide => .divide 0 w | .immArith => .immArith 0 w | .shi => .shi 0 w | _ => .regArith 0 w) (go g)) 0).rg r

/-- R105: addition wraps; the carry is the operation beside it. -/
theorem test_add_wraps : gAfter (wT 0x01 1 2 3 0x000) [(2, 0xFFFFFFFFFFFFFFFF), (3, 2)] 1 = 1 := by decide +kernel
theorem test_carry : gAfter (wT 0x01 1 2 3 0x014) [(2, 0xFFFFFFFFFFFFFFFF), (3, 2)] 1 = 1 := by decide +kernel
/-- R97: a write to g0 is discarded. -/
theorem test_g0_reads_zero : gAfter (wT 0x01 0 2 3 0x000) [(2, 5), (3, 2)] 0 = 0 := by decide +kernel
/-- R105: the destination is also a source. -/
theorem test_sub_in_place : gAfter (wT 0x01 2 2 2 0x001) [(2, 9)] 2 = 0 := by decide +kernel
/-- R105: MULH is the signed high half: −1 × −1 = 1, whose high half is 0. -/
theorem test_mulh : gAfter (wT 0x01 1 2 3 0x01A) [(2, 0xFFFFFFFFFFFFFFFF), (3, 0xFFFFFFFFFFFFFFFF)] 1 = 0 := by decide +kernel
/-- R106: division by 0 gives all ones. -/
theorem test_divu_by_zero : gAfter (wT 0x01 1 2 3 0x030) [(2, 7)] 1 = 0xFFFFFFFFFFFFFFFF := by decide +kernel
/-- R105: DIV rounds towards zero: −7 / 2 = −3. -/
theorem test_div_rounds_to_zero : gAfter (wT 0x01 1 2 3 0x032) [(2, 0xFFFFFFFFFFFFFFF9), (3, 2)] 1 = 0xFFFFFFFFFFFFFFFD := by decide +kernel
/-- R104: ADDI sign-extends its immediate. -/
theorem test_addi_negative : gAfter (wI 0x02 1 2 0xFFFF) [(2, 5)] 1 = 4 := by decide +kernel
/-- R104: SHI with 0x02 is the arithmetic shift. -/
theorem test_sra : gAfter (wI 0x08 1 2 0x023F) [(2, 0x8000000000000000)] 1 = 0xFFFFFFFFFFFFFFFF := by decide +kernel
/-- R104: an all-zero word is illegal; with no vector the act ends. -/
theorem test_zero_word_is_illegal : (core (stepped (.regArith 0 0) (go [])) 0).run = .exiting 0x20 0 := by decide +kernel
/-- R108: a store and the load of the same bytes, sign-extended. -/
theorem test_store_load :
    (core (stepped (.load 0 (wI 0x10 4 2 9)) (stepped (.store 0 (wI 0x1B 3 2 8)) (go [(2, 0x100), (3, 0x8180)]))) 0).rg 4
      = 0xFFFFFFFFFFFFFF81 := by decide +kernel
/-- R415: the cutoff of the adaptive proportion test is 917 at reset; 917 ones in a window that starts with 1 trip it. -/
def onesWindow (n : Nat) : BitVec 1024 := BitVec.ofNat 1024 (2 ^ n - 1)
theorem test_apt_trips : (Table.get {} (stepped (.noiseWindowEnd 0 (onesWindow 917)) (noisy {})).rng.src 0).aptTrip = true := by decide +kernel
theorem test_apt_passes : (Table.get {} (stepped (.noiseWindowEnd 0 (onesWindow 916)) (noisy {})).rng.src 0).aptTrip = false := by
  decide +kernel
/-- R62: a mailbox that is full drops the message. -/
theorem test_mailbox_drops :
    (page (stepped (.mbxSend 0) (stepped (.mbxSend 0) (withInst active0))) 0).dropped = true := by decide +kernel
/-- R443: Lockdown stands against a register write. -/
theorem test_lockdown_ignores :
    (inst (stepped (.stop 0) { withInst active0 with fc := { base.fc with lock := true } }) 0).st = .active := by decide +kernel
/-- R365: a PERIOD below 1,000 ns is taken as 1,000. -/
theorem test_period_minimum :
    (sched (stepped (.scheduleEntryWrite 1 0x80000000) (setSched 1 { periodStaged := 999 } running)) 1).period = 1000 := by decide +kernel
/-- R105: MUL keeps the low half of the product modulo 2^64. -/
theorem test_mul : gAfter (wT 0x01 1 2 3 0x018) [(2, 0x100000000), (3, 0x100000001)] 1 = 0x100000000 := by decide +kernel
/-- R137: products modulo 3,329 with each source reduced first: 3,330 × 3,331 = 1 × 2. -/
theorem test_vmul_mod :
    elem ((vec (stepped (.vecMod 0 (wT 0x3A 1 2 3 0x42)) (goV { v := [(2, 3330), (3, 3331)] } [])) 0).rv 1) 16 0 = 2 := by decide +kernel

theorem witness_registerWriteFrame : (255 : Nat) ≠ 256 ∧ (31 : Nat) ≠ 0 := by decide

end Sys2Proof.Machine.Tests
end

section
/-!
SUPPORT. The scalar instructions (R97, R104–R110): what a write of a g register leaves alone, what each row answers, and the statements
O17, O19 and O20.
-/
namespace Sys2Proof.Machine

/-! ### A write of a g register (R97) -/

@[simp] theorem rg_zero (x : Core) : x.rg 0 = 0 := rfl
@[simp] theorem tagG_zero (x : Core) : x.tagG 0 = .pub := rfl

theorem rg_wg_same (x : Core) {d : Nat} (v : W64) (t : Tag) (h : d ≠ 0) : (x.wg d v t).rg d = v := by
  simp [Core.wg, Core.rg, h]

theorem tagG_wg_same (x : Core) {d : Nat} (v : W64) (t : Tag) (h : d ≠ 0) : (x.wg d v t).tagG d = t := by
  simp [Core.wg, Core.tagG, h]

theorem rg_wg_other (x : Core) {d r : Nat} (v : W64) (t : Tag) (h : r ≠ d) : (x.wg d v t).rg r = x.rg r := by
  by_cases hd : d = 0
  · simp [Core.wg, hd]
  · simp [Core.wg, Core.rg, hd, Table.get_set_other _ _ _ h]

theorem tagG_wg_other (x : Core) {d r : Nat} (v : W64) (t : Tag) (h : r ≠ d) : (x.wg d v t).tagG r = x.tagG r := by
  by_cases hd : d = 0
  · simp [Core.wg, hd]
  · simp [Core.wg, Core.tagG, hd, Table.get_set_other _ _ _ h]

/-- Only the g registers and their tags move. -/
theorem wg_frame (x : Core) (d : Nat) (v : W64) (t : Tag) : ∃ g gtag, x.wg d v t = { x with g := g, gtag := gtag } := by
  unfold Core.wg
  split
  · exact ⟨x.g, x.gtag, rfl⟩
  · exact ⟨_, _, rfl⟩

/-- On a ring core the completion of an instruction sets the PC, counts INSTRET and ends a stall. -/
theorem after_ring {c : Nat} (s t : State) (pc : W64) (h : c ≠ 256) : ∃ n f, after c s t pc =
    setCore c { core t c with pc := pc, instret := (core t c).instret + 1, stalled := n, stallFrom := f } t := by
  simp only [after, afterInstr, completed, mgmtCore, h, if_false, or_false, false_and]
  split
  · exact ⟨_, _, rfl⟩
  · exact ⟨_, _, rfl⟩

/-- Settles O17: the write and the completion each change one core's record, and of it the fields named. -/
theorem registerWriteFrame : Obligations.RegisterWriteFrame := by
  unfold Obligations.RegisterWriteFrame
  intro s c d v pc t hc
  dsimp only
  obtain ⟨n, f, hu⟩ := after_ring s (setCore c ((core s c).wg d v t) s) pc hc
  rw [core_setCore, setCore_setCore] at hu
  obtain ⟨g, gt, hw⟩ := wg_frame (core s c) d v t
  rw [hu, core_setCore]
  refine ⟨fun hd => ⟨rg_wg_same _ v t hd, tagG_wg_same _ v t hd⟩, rfl, rfl,
    fun r hr => ⟨rg_wg_other _ v t hr, tagG_wg_other _ v t hr⟩, rfl, ?_, ?_, ?_, ?_, ?_, ?_,
    fun j hj => core_setCore_other s c j _ hj, rfl, rfl, rfl, rfl, rfl, rfl, rfl, rfl, rfl⟩
  all_goals rw [hw]

/-! ### The rows that run a word -/

/-- The command runs the word as one of class k with this body. -/
def RowRuns (mk : Nat → W32 → Instr) (k : Klass) (body : Nat → W32 → Core → State → IRes) : Prop :=
  ∀ c w s, exec (mk c w) s = .next (runWord k c w (body c w) s)

theorem regArith_runs : RowRuns .regArith .regArith bodyRegArith := fun _ _ _ => rfl
theorem divide_runs : RowRuns .divide .divide bodyDivide := fun _ _ _ => rfl
theorem immArith_runs : RowRuns .immArith .immArith bodyImmArith := fun _ _ _ => rfl
theorem shi_runs : RowRuns .shi .shi bodyShi := fun _ _ _ => rfl
theorem liz_runs : RowRuns .liz .liz bodyLiz := fun _ _ _ => rfl
theorem lik_runs : RowRuns .lik .lik bodyLik := fun _ _ _ => rfl
theorem branch_runs : RowRuns .branch .branch (fun _ => bodyBranch) := fun _ _ _ => rfl
theorem jmpl_runs : RowRuns .jmpl .jmpl bodyJmpl := fun _ _ _ => rfl
theorem jmplr_runs : RowRuns .jmplr .jmplr bodyJmplr := fun _ _ _ => rfl
theorem load_runs : RowRuns .load .load bodyLoad := fun _ _ _ => rfl
theorem store_runs : RowRuns .store .store bodyStore := fun _ _ _ => rfl

section
variable {mk : Nat → W32 → Instr} {k : Klass} {body : Nat → W32 → Core → State → IRes}

theorem RowRuns.completes (hr : RowRuns mk k body) {s t : State} {c : Nat} {w : W32} {pc : W64} (hi : Issues k c w s)
    (hb : body c w (core s c) s = .ok t pc) : Runs (mk c w) s (after c s t pc) :=
  (hr c w s).trans (congrArg _ (runWord_ok _ hi hb))

theorem RowRuns.gWrites (hr : RowRuns mk k body) {p : Core → W32 → Prop} {v : Core → W32 → W64} {t : Core → W32 → Tag}
    (hb : ∀ c w x s, p x w → body c w x s = retG c x s (fD w) (v x w) (t x w)) : GWrites mk k p v t :=
  fun s c w hi hp => hr.completes hi (hb c w (core s c) s hp)

theorem RowRuns.raises (hr : RowRuns mk k body) {p : Nat → State → W32 → Prop} {cause : Byte} {v : Core → W32 → W64}
    (hb : ∀ c w s, p c s w → body c w (core s c) s = .exc cause (v (core s c) w)) : Raises mk k p cause v :=
  fun s c w hi hq hp => (hr c w s).trans (congrArg _ (runWord_exc _ hi hq (hb c w s hp)))

theorem GWrites.of_imp {p q : Core → W32 → Prop} {v : Core → W32 → W64} {t : Core → W32 → Tag} (h : GWrites mk k p v t)
    (hq : ∀ x w, q x w → p x w) : GWrites mk k q v t :=
  fun s c w hi hp => h s c w hi (hq _ _ hp)

end

theorem shareRead_noShare {x : Core} {rs : List Nat} (h : NoShare x rs) : shareRead x rs = false := by
  simpa [shareRead] using h

/-! ### Register arithmetic (R105, R178) -/

/-- A funct of the family completes where its sources hold no share and their tags have a result. -/
theorem bodyRegArith_completes {w : W32} {x : Core} {v : W64} {t : Tag} (c : Nat) (s : State)
    (hv : aluOp (fFunct w) (x.rg (fA w)) (x.rg (fB w)) (x.rg (fD w)) = some v)
    (hb : aluSingle (fFunct w) = true → fB w = 0)
    (hn : NoShare x (if fFunct w = 0x020 then [fA w, fB w, fD w] else [fA w, fB w]))
    (ht : aluTag (fFunct w) (x.tagG (fA w)) (x.tagG (fB w)) (x.tagG (fD w)) = some t) :
    bodyRegArith c w x s = retG c x s (fD w) v t := by
  have hs : ¬ (aluSingle (fFunct w) = true ∧ fB w ≠ 0) := fun h => h.2 (hb h.1)
  simp only [bodyRegArith, hv, if_neg hs, shareRead_noShare hn, ht, Bool.false_eq_true, if_false]

/-- An operation of two sources, but XOR: the tag is the mixture of theirs. -/
theorem regArith_two {v : W64 → W64 → W64} {f : Nat} (hv : ∀ a b d, aluOp f a b d = some (v a b))
    (hf : f ≠ 0x004 ∧ f ≠ 0x020 ∧ aluSingle f = false) :
    GWrites .regArith .regArith (fun x w => fFunct w = f ∧ NoShare x [fA w, fB w])
      (fun x w => v (x.rg (fA w)) (x.rg (fB w))) (fun x w => mixTag [x.tagG (fA w), x.tagG (fB w)]) := by
  obtain ⟨hxor, hcmov, hsingle⟩ := hf
  refine regArith_runs.gWrites ?_
  rintro c w x s ⟨rfl, hn⟩
  refine bodyRegArith_completes c s (hv _ _ _) ?_ ?_ ?_
  · simp [hsingle]
  · rwa [if_neg hcmov]
  · simp [aluTag, hxor, hcmov, hsingle]

theorem regArith_xor :
    GWrites .regArith .regArith (fun x w => fFunct w = 0x004 ∧ NoShare x [fA w, fB w])
      (fun x w => x.rg (fA w) ^^^ x.rg (fB w)) (fun x w => xorTag [x.tagG (fA w), x.tagG (fB w)]) := by
  refine regArith_runs.gWrites ?_
  rintro c w x s ⟨hf, hn⟩
  refine bodyRegArith_completes c s ?_ ?_ ?_ ?_ <;> rw [hf]
  · rfl
  · exact fun h => absurd h (by decide)
  · exact hn
  · rfl

/-- CMOVNZ, with a result tag as R178 gives it. -/
theorem regArith_cmov {p : Core → W32 → Prop} {t : Core → W32 → Tag}
    (hp : ∀ x w, p x w → fFunct w = 0x020 ∧ NoShare x [fA w, fB w, fD w] ∧
      cmovTag (x.tagG (fA w)) (x.tagG (fB w)) (x.tagG (fD w)) = some (t x w)) :
    GWrites .regArith .regArith p (fun x w => if x.rg (fA w) ≠ 0 then x.rg (fB w) else x.rg (fD w)) t := by
  refine regArith_runs.gWrites fun c w x s h => ?_
  obtain ⟨hf, hn, ht⟩ := hp x w h
  refine bodyRegArith_completes c s ?_ ?_ ?_ ?_ <;> rw [hf]
  · rfl
  · exact fun h => absurd h (by decide)
  · exact hn
  · exact ht

theorem pub_join (t : Tag) : Tag.pub.join t = some t := by
  unfold Tag.join
  split
  · next h => rw [h]
  · rfl

/-- A PUBLIC condition and a PUBLIC source leave the old destination's tag. -/
theorem regArith_cmov_public :
    GWrites .regArith .regArith
      (fun x w => fFunct w = 0x020 ∧ NoShare x [fA w, fB w, fD w] ∧ x.tagG (fA w) = .pub ∧ x.tagG (fB w) = .pub)
      (fun x w => if x.rg (fA w) ≠ 0 then x.rg (fB w) else x.rg (fD w)) (fun x w => x.tagG (fD w)) := by
  refine regArith_cmov ?_
  rintro x w ⟨hf, hn, ha, hb⟩
  exact ⟨hf, hn, by rw [cmovTag, if_pos ha, hb, pub_join]⟩

/-- A tagged condition makes the result SECRET. -/
theorem regArith_cmov_tagged :
    GWrites .regArith .regArith
      (fun x w => fFunct w = 0x020 ∧ NoShare x [fA w, fB w, fD w] ∧ x.tagG (fA w) ≠ .pub)
      (fun x w => if x.rg (fA w) ≠ 0 then x.rg (fB w) else x.rg (fD w)) (fun _ _ => .secret) := by
  refine regArith_cmov ?_
  rintro x w ⟨hf, hn, ha⟩
  exact ⟨hf, hn, if_neg ha⟩

/-- An operation of one source, whose b is 0. -/
theorem regArith_single {v : W64 → W64} {f : Nat} (hv : ∀ a b d, aluOp f a b d = some (v a)) (hf : aluSingle f = true) :
    GWrites .regArith .regArith (fun x w => fFunct w = f ∧ fB w = 0 ∧ NoShare x [fA w, 0])
      (fun x w => v (x.rg (fA w))) (fun x w => mixTag [x.tagG (fA w)]) := by
  have hlow : 0x028 ≤ f := by simp [aluSingle] at hf; omega
  have hxor : f ≠ 0x004 := by omega
  have hcmov : f ≠ 0x020 := by omega
  refine regArith_runs.gWrites ?_
  rintro c w x s ⟨rfl, hb, hn⟩
  refine bodyRegArith_completes c s (hv _ _ _) (fun _ => hb) ?_ ?_
  · rwa [if_neg hcmov, hb]
  · simp [aluTag, hxor, hcmov, hf]

/-- The four operations of one source. -/
theorem regArith_bitCounts (v : W64 → W64) (f : Nat)
    (h : (v = clz ∧ f = 0x028) ∨ (v = ctz ∧ f = 0x029) ∨ (v = popc ∧ f = 0x02A) ∨ (v = bswap ∧ f = 0x02B)) :
    GWrites .regArith .regArith (fun x w => fFunct w = f ∧ fB w = 0 ∧ NoShare x [fA w, 0])
      (fun x w => v (x.rg (fA w))) (fun x w => mixTag [x.tagG (fA w)]) := by
  obtain ⟨rfl, rfl⟩ | ⟨rfl, rfl⟩ | ⟨rfl, rfl⟩ | ⟨rfl, rfl⟩ := h <;>
    exact regArith_single (fun _ _ _ => rfl) rfl

theorem aluOp_undefined {f : Nat} (h : 0x02C ≤ f ∧ f ≤ 0x02F) (a b d : W64) : aluOp f a b d = none := by
  obtain rfl | rfl | rfl | rfl : f = 0x02C ∨ f = 0x02D ∨ f = 0x02E ∨ f = 0x02F := by omega
  all_goals rfl

theorem regArith_undefined :
    Raises .regArith .regArith (fun _ _ w => 0x02C ≤ fFunct w ∧ fFunct w ≤ 0x02F) 0x01 (fun _ _ => 0) := by
  refine regArith_runs.raises fun c w s h => ?_
  rw [bodyRegArith, aluOp_undefined h]
  rfl

theorem regArith_add_share :
    Raises .regArith .regArith (fun c s w => fFunct w = 0x000 ∧ ((core s c).tagG (fA w)).isShare = true) 0x04 (fun _ _ => 0) := by
  refine regArith_runs.raises ?_
  rintro c w s ⟨hf, ha⟩
  have hs : shareRead (core s c) [fA w, fB w] = true := by simp [shareRead, ha]
  simp [bodyRegArith, hf, aluOp, aluSingle, hs, cTagged]

/-! ### Division, immediates, shifts, LIZ and LIK (R104–R106) -/

theorem divide_writes {v : W64 → W64 → W64} {f : Nat} (hv : ∀ a b, divOp f a b = v a b) :
    GWrites .divide .divide (fun x w => fFunct w = f ∧ NoShare x [fA w, fB w])
      (fun x w => v (x.rg (fA w)) (x.rg (fB w))) (fun x w => mixTag [x.tagG (fA w), x.tagG (fB w)]) := by
  refine divide_runs.gWrites ?_
  rintro c w x s ⟨rfl, hn⟩
  simp [bodyDivide, shareRead_noShare hn, hv]

theorem bodyImmArith_completes {w : W32} {x : Core} (c : Nat) (s : State) (hn : NoShare x [fA w]) :
    bodyImmArith c w x s = retG c x s (fD w) (immOp (opcode w) (x.rg (fA w)) w)
      (if opcode w = 0x05 then xorTag [x.tagG (fA w)] else mixTag [x.tagG (fA w)]) := by
  simp [bodyImmArith, shareRead_noShare hn]

theorem immArith_writes {v : W64 → W32 → W64} {op : Nat} (hv : ∀ a w, immOp op a w = v a w) (hop : op ≠ 0x05) :
    GWrites .immArith .immArith (fun x w => opcode w = op ∧ NoShare x [fA w]) (fun x w => v (x.rg (fA w)) w)
      (fun x w => mixTag [x.tagG (fA w)]) := by
  refine immArith_runs.gWrites ?_
  rintro c w x s ⟨rfl, hn⟩
  rw [bodyImmArith_completes c s hn, hv, if_neg hop]

theorem immArith_xori :
    GWrites .immArith .immArith (fun x w => opcode w = 0x05 ∧ NoShare x [fA w]) (fun x w => x.rg (fA w) ^^^ zImm w)
      (fun x w => xorTag [x.tagG (fA w)]) := by
  refine immArith_runs.gWrites ?_
  rintro c w x s ⟨hop, hn⟩
  rw [bodyImmArith_completes c s hn, if_pos hop, hop]
  rfl

theorem shi_writes {v : W64 → Nat → W64} {sel : Nat} (hv : ∀ a n, shiOp sel n a = some (v a n)) :
    GWrites .shi .shi (fun x w => fld w 8 8 = sel ∧ fld w 6 2 = 0 ∧ NoShare x [fA w]) (fun x w => v (x.rg (fA w)) (fld w 0 6))
      (fun x w => mixTag [x.tagG (fA w)]) := by
  refine shi_runs.gWrites ?_
  rintro c w x s ⟨rfl, hz, hn⟩
  simp [bodyShi, hz, hv, shareRead_noShare hn]

theorem shiOp_undefined {sel : Nat} (h : 3 < sel) (n : Nat) (a : W64) : shiOp sel n a = none := by
  unfold shiOp
  split
  case h_5 => rfl
  all_goals omega

theorem shi_undefined : Raises .shi .shi (fun _ _ w => fld w 6 2 ≠ 0 ∨ 3 < fld w 8 8) 0x01 (fun _ _ => 0) := by
  refine shi_runs.raises fun c w s h => ?_
  by_cases hz : fld w 6 2 = 0
  · have hsel : 3 < fld w 8 8 := h.resolve_left fun hn => hn hz
    simp [bodyShi, hz, shiOp_undefined hsel, cIllegal]
  · simp [bodyShi, hz, cIllegal]

theorem liz_writes :
    GWrites .liz .liz (fun _ w => fld w 18 3 = 0) (fun _ w => zImm w <<< (16 * fld w 16 2)) (fun _ _ => .pub) :=
  liz_runs.gWrites fun _ _ _ _ hz => if_neg fun hn => hn hz

theorem lik_writes :
    GWrites .lik .lik (fun x w => fld w 18 3 = 0 ∧ NoShare x [fD w])
      (fun x w => (x.rg (fD w) &&& ~~~((0xFFFF : W64) <<< (16 * fld w 16 2))) ||| (zImm w <<< (16 * fld w 16 2)))
      (fun x w => mixTag [x.tagG (fD w)]) := by
  refine lik_runs.gWrites ?_
  rintro c w x s ⟨hz, hn⟩
  simp [bodyLik, hz, shareRead_noShare hn]

/-! ### What the bit counts count (R105) -/

/-- CLZ counts down from bit 63 to the highest set bit. -/
theorem clz_highest (a : W64) (h : a ≠ 0) :
    ∃ n, n < 64 ∧ (clz a).toNat = 63 - n ∧ a.getLsbD n = true ∧ ∀ k, n < k → a.getLsbD k = false := by
  have h0 : a.toNat ≠ 0 := fun e => h (BitVec.eq_of_toNat_eq e)
  have hlt : a.toNat.log2 < 64 := (Nat.log2_lt h0).2 a.isLt
  refine ⟨a.toNat.log2, hlt, ?_, Nat.testBit_log2 h0, fun k hk => Nat.testBit_lt_two_pow ?_⟩
  · simp only [clz, if_neg h, BitVec.toNat_ofNat]
    omega
  · exact Nat.lt_of_lt_of_le Nat.lt_log2_self (Nat.pow_le_pow_right (by decide) hk)

/-- CTZ counts up from bit 0 to the lowest set bit. -/
theorem ctz_lowest (a : W64) (h : a ≠ 0) :
    ∃ n, n < 64 ∧ (ctz a).toNat = n ∧ a.getLsbD n = true ∧ ∀ k, k < n → a.getLsbD k = false := by
  cases hf : (List.range 64).find? (fun k => bit a k) with
  | none =>
    have hall := List.find?_range_eq_none.1 hf
    refine absurd (BitVec.eq_of_getLsbD_eq fun k hk => ?_) h
    simpa [bit] using hall k hk
  | some n =>
    obtain ⟨hn, hmem, hlow⟩ := List.find?_range_eq_some.1 hf
    have hlt : n < 64 := List.mem_range.1 hmem
    refine ⟨n, hlt, ?_, hn, fun k hk => by simpa [bit] using hlow k hk⟩
    simp only [ctz, hf, Option.getD_some, BitVec.toNat_ofNat]
    omega

theorem clz_zero : (clz 0).toNat = 64 := by simp [clz]

theorem ctz_zero : (ctz 0).toNat = 64 := by
  have hf : (List.range 64).find? (fun k => bit (0 : W64) k) = none :=
    List.find?_range_eq_none.2 fun k _ => by simp [bit]
  rw [ctz, hf]
  rfl

theorem popc_counts (a : W64) : (popc a).toNat = ((List.range 64).filter (fun k => a.getLsbD k)).length := by
  have hle := List.length_filter_le (fun k => a.getLsbD k) (List.range 64)
  rw [List.length_range] at hle
  simp only [popc, bit, BitVec.toNat_ofNat]
  omega

/-- The number that bytes spell fits them. -/
theorem natOf_lt (l : List Byte) : natOf l < 2 ^ (8 * l.length) := by
  induction l with
  | nil => decide
  | cons b r ih =>
    have hb : b.toNat < 2 ^ 8 := b.isLt
    rw [natOf, List.length_cons, Nat.mul_succ, Nat.pow_add]
    omega

/-- Byte k of the number that bytes spell is the byte at k. -/
theorem natOf_byte (l : List Byte) (k : Nat) : natOf l / 2 ^ (8 * k) % 256 = (l.getD k 0).toNat := by
  induction l generalizing k with
  | nil => simp [natOf]
  | cons b r ih =>
    have hb : b.toNat < 256 := b.isLt
    cases k with
    | zero => simp [natOf]; omega
    | succ k =>
      have hdrop : (b.toNat + 256 * natOf r) / 256 = natOf r := by omega
      rw [natOf, Nat.mul_succ, Nat.add_comm (8 * k), Nat.pow_add, ← Nat.div_div_eq_div_mul, hdrop, ih]
      rfl

theorem bswap_reverses (a : W64) (k : Nat) (hk : k < 8) :
    (bswap a).toNat / 2 ^ (8 * k) % 256 = a.toNat / 2 ^ (8 * (7 - k)) % 256 := by
  have hfit : natOf (bytesOf a.toNat 8).reverse < 2 ^ 64 := by
    simpa using natOf_lt (bytesOf a.toNat 8).reverse
  have hbyte : (bytesOf a.toNat 8).reverse.getD k 0 = byteOf a.toNat (7 - k) := by
    simp [bytesOf, List.getD_eq_getElem?_getD, hk]
  rw [bswap, BitVec.toNat_ofNat, Nat.mod_eq_of_lt hfit, natOf_byte, hbyte, byteOf, BitVec.toNat_ofNat]

/-! ### The operations of R105 and R106, each by its code -/

section
variable (a b d : W64) (w : W32) (n : Nat)

theorem aluOp_add : aluOp 0x000 a b d = some (a + b) := rfl
theorem aluOp_sub : aluOp 0x001 a b d = some (a - b) := rfl
theorem aluOp_and : aluOp 0x002 a b d = some (a &&& b) := rfl
theorem aluOp_or : aluOp 0x003 a b d = some (a ||| b) := rfl
theorem aluOp_andn : aluOp 0x005 a b d = some (a &&& ~~~b) := rfl
theorem aluOp_sll : aluOp 0x008 a b d = some (a <<< (b.toNat % 64)) := rfl
theorem aluOp_srl : aluOp 0x009 a b d = some (a >>> (b.toNat % 64)) := rfl
theorem aluOp_sra : aluOp 0x00A a b d = some (a.sshiftRight (b.toNat % 64)) := rfl
theorem aluOp_ror : aluOp 0x00B a b d = some (a.rotateRight (b.toNat % 64)) := rfl
theorem aluOp_slt : aluOp 0x010 a b d = some (if a.toInt < b.toInt then 1 else 0) := by simp [aluOp, BitVec.slt]
theorem aluOp_sltu : aluOp 0x011 a b d = some (if a.toNat < b.toNat then 1 else 0) := by simp [aluOp, BitVec.ult]
theorem aluOp_carry : aluOp 0x014 a b d = some (if 2 ^ 64 ≤ a.toNat + b.toNat then 1 else 0) := rfl
theorem aluOp_borrow : aluOp 0x015 a b d = some (if a.toNat < b.toNat then 1 else 0) := rfl
theorem aluOp_mul : aluOp 0x018 a b d = some (a * b) := rfl
theorem aluOp_mulhu : aluOp 0x019 a b d = some (BitVec.ofNat 64 (a.toNat * b.toNat / 2 ^ 64)) := rfl
theorem aluOp_mulh : aluOp 0x01A a b d = some (BitVec.ofInt 64 (a.toInt * b.toInt / 2 ^ 64)) := rfl

theorem divOp_divu : divOp 0x030 a b = if b = 0 then BitVec.allOnes 64 else a / b := rfl
theorem divOp_remu : divOp 0x031 a b = if b = 0 then a else a % b := rfl
theorem divOp_div : divOp 0x032 a b = if b = 0 then BitVec.allOnes 64 else BitVec.ofInt 64 (a.toInt.tdiv b.toInt) := rfl
theorem divOp_rem : divOp 0x033 a b = if b = 0 then a else BitVec.ofInt 64 (a.toInt.tmod b.toInt) := rfl

theorem immOp_addi : immOp 0x02 a w = a + sImm w := rfl
theorem immOp_andi : immOp 0x03 a w = a &&& zImm w := rfl
theorem immOp_ori : immOp 0x04 a w = a ||| zImm w := rfl
theorem immOp_slti : immOp 0x06 a w = if a.toInt < (sImm w).toInt then 1 else 0 := by simp [immOp, BitVec.slt]
theorem immOp_sltiu : immOp 0x07 a w = if a.toNat < (sImm w).toNat then 1 else 0 := by simp [immOp, BitVec.ult]

theorem shiOp_sll : shiOp 0 n a = some (a <<< n) := rfl
theorem shiOp_srl : shiOp 1 n a = some (a >>> n) := rfl
theorem shiOp_sra : shiOp 2 n a = some (a.sshiftRight n) := rfl
theorem shiOp_ror : shiOp 3 n a = some (a.rotateRight n) := rfl

end

/-- Settles O19, row by row of the scalar arithmetic: each code's operation, through the lemma of its row. -/
theorem scalarArithmeticResults : Obligations.ScalarArithmeticResults := by
  unfold Obligations.ScalarArithmeticResults
  dsimp only
  refine ⟨⟨
    (regArith_two aluOp_add (by decide) :), (regArith_two aluOp_sub (by decide) :), (regArith_two aluOp_and (by decide) :),
    (regArith_two aluOp_or (by decide) :), (regArith_two aluOp_andn (by decide) :), (regArith_two aluOp_sll (by decide) :),
    (regArith_two aluOp_srl (by decide) :), (regArith_two aluOp_sra (by decide) :), (regArith_two aluOp_ror (by decide) :),
    (regArith_two aluOp_slt (by decide) :), (regArith_two aluOp_sltu (by decide) :), (regArith_two aluOp_carry (by decide) :),
    (regArith_two aluOp_borrow (by decide) :), (regArith_two aluOp_mul (by decide) :), (regArith_two aluOp_mulhu (by decide) :),
    (regArith_two aluOp_mulh (by decide) :),
    regArith_xor, regArith_cmov_public, regArith_cmov_tagged, regArith_bitCounts, regArith_undefined, regArith_add_share⟩, ⟨
    (divide_writes divOp_divu :), (divide_writes divOp_remu :), (divide_writes divOp_div :), (divide_writes divOp_rem :),
    by decide, by decide,
    (immArith_writes immOp_addi (by decide) :), (immArith_writes immOp_andi (by decide) :), (immArith_writes immOp_ori (by decide) :),
    immArith_xori,
    (immArith_writes immOp_slti (by decide) :), (immArith_writes immOp_sltiu (by decide) :),
    (shi_writes shiOp_sll :), (shi_writes shiOp_srl :), (shi_writes shiOp_sra :), (shi_writes shiOp_ror :),
    shi_undefined, liz_writes, lik_writes⟩,
    clz_highest, ctz_lowest, clz_zero, ctz_zero, popc_counts, bswap_reverses⟩

/-! ### Control transfers (R108–R110) -/

/-- The branches' class holds format B's opcodes alone: with that range refused, no other arm of `klass` answers it. -/
theorem klass_branch {w : W32} (h : klass w = .branch) : 0x20 ≤ opcode w ∧ opcode w ≤ 0x25 := by
  refine Decidable.byContradiction fun hop => absurd h ?_
  rw [klass, if_neg hop]
  repeat' refine iteInduction (motive := (¬ · = Klass.branch)) (fun _ => ?_) (fun _ => ?_)
  all_goals repeat' split
  all_goals exact nofun

/-- The condition that each branch opcode tests. -/
theorem branchTaken_iff {op : Nat} (h : 0x20 ≤ op ∧ op ≤ 0x25) (a b : W64) : branchTaken (op - 0x20) a b = true ↔
    (op = 0x20 ∧ a = b) ∨ (op = 0x21 ∧ a ≠ b) ∨ (op = 0x22 ∧ a.toInt < b.toInt) ∨
      (op = 0x23 ∧ b.toInt ≤ a.toInt) ∨ (op = 0x24 ∧ a.toNat < b.toNat) ∨ (op = 0x25 ∧ b.toNat ≤ a.toNat) := by
  obtain rfl | rfl | rfl | rfl | rfl | rfl : op = 0x20 ∨ op = 0x21 ∨ op = 0x22 ∨ op = 0x23 ∨ op = 0x24 ∨ op = 0x25 := by omega
  all_goals simp [branchTaken, BitVec.slt, BitVec.ult]

theorem bodyBranch_public {w : W32} {x : Core} (s : State) (hd : x.tagG (fD w) = .pub) (ha : x.tagG (fA w) = .pub) :
    bodyBranch w x s =
      .ok s (if branchTaken (opcode w - 0x20) (x.rg (fD w)) (x.rg (fA w)) then x.pc + 4 * sImm w else x.pc + 4) := by
  simp only [bodyBranch, hd, ha, ne_eq, not_true_eq_false, or_self, if_false]
  split <;> rfl

theorem branch_tagged :
    Raises .branch .branch (fun c s w => (core s c).tagG (fD w) ≠ .pub ∨ (core s c).tagG (fA w) ≠ .pub) 0x04 (fun _ _ => 0) :=
  branch_runs.raises fun _ _ _ h => if_pos h

/-- A fetch outside the image ends the word before its own checks, the class of the word alone being known. -/
theorem runWord_unfetchable {k : Klass} {c : Nat} {w : W32} {s : State} (body : Core → State → IRes) (hm : mayIssue s c = true)
    (hk : klass w = k) (hi : k ≠ .illegal) (hv : isVector w = false) (hs : Settled c s) (ha : (core s c).pc.toNat % 4 = 0)
    (hf : fetchable s c (core s c).pc.toNat = false) :
    runWord k c w body s = afterInstr c (takeTrap c cAccess (core s c).pc false s) := by
  have hw : ¬ (klass w = .illegal ∨ (c = mgmtCore ∧ isVector w = true)) := by simp [hk, hi, hv]
  rw [runWord, if_neg hw, if_pos hk, issue, if_neg (by simp [hm])]
  simp only [ha, hf, ne_eq, not_true_eq_false, if_false, if_true, raise_settled cAccess _ hs]

theorem jmplr_completes {w : W32} {x : Core} (c : Nat) (s : State) (ht : x.tagG (fA w) = .pub)
    (ha : (x.rg (fA w) + sImm w).toNat % 4 = 0) :
    bodyJmplr c w x s = .ok (setCore c (x.wg (linkReg x w) (x.pc + 4) .pub) s) (x.rg (fA w) + sImm w) := by
  rw [bodyJmplr, if_neg (not_not_intro ht), if_neg (not_not_intro ha)]

theorem jmplr_misaligned :
    Raises .jmplr .jmplr (fun c s w => (core s c).tagG (fA w) = .pub ∧ ((core s c).rg (fA w) + sImm w).toNat % 4 ≠ 0) 0x02
      (fun x w => x.rg (fA w) + sImm w) := by
  refine jmplr_runs.raises ?_
  rintro c w s ⟨ht, ha⟩
  rw [bodyJmplr, if_neg (not_not_intro ht), if_pos ha]
  rfl

theorem jmplr_tagged : Raises .jmplr .jmplr (fun c s w => (core s c).tagG (fA w) ≠ .pub) 0x04 (fun _ _ => 0) :=
  jmplr_runs.raises fun _ _ _ h => if_pos h

/-! ### Loads and stores through a tagged base (R117, R119) -/

theorem loadIllegal_of_not_csr {s : State} {c n : Nat} {a : W64} (x : Core) (h : ∀ m, place s c a.toNat n ≠ .csr m) :
    loadIllegal c a n x s = false := by
  unfold loadIllegal
  split
  · next m hm => exact absurd hm (h m)
  · rfl

theorem storeIllegal_of_not_csr {s : State} {c n : Nat} {a : W64} (v : W64) (t : Tag) (x : Core)
    (h : ∀ m, place s c a.toNat n ≠ .csr m) : storeIllegal c a n v t x s = false := by
  unfold storeIllegal
  split
  · next m hm => exact absurd hm (h m)
  · rfl

theorem loadIllegal_of_csr {s : State} {c n m : Nat} {a v : W64} {x : Core} (hp : place s c a.toNat n = .csr m)
    (hr : csrRead c m x s = .error (0x01, v)) : loadIllegal c a n x s = true := by
  simp [loadIllegal, hp, hr, cIllegal]

theorem load_tagged :
    Raises .load .load (fun c s w => (core s c).tagG (fA w) ≠ .pub ∧
      ∀ m, place s c ((core s c).rg (fA w) + sImm w).toNat (loadForm (opcode w)).1 ≠ .csr m) 0x04 (fun _ _ => 0) := by
  refine load_runs.raises ?_
  rintro c w s ⟨ht, hp⟩
  rw [bodyLoad, if_pos ht, loadIllegal_of_not_csr _ hp]
  rfl

theorem store_tagged :
    Raises .store .store (fun c s w => (core s c).tagG (fA w) ≠ .pub ∧
      ∀ m, place s c ((core s c).rg (fA w) + sImm w).toNat (2 ^ (opcode w - 0x18)) ≠ .csr m) 0x04 (fun _ _ => 0) := by
  refine store_runs.raises ?_
  rintro c w s ⟨ht, hp⟩
  rw [bodyStore, if_pos ht, storeIllegal_of_not_csr _ _ _ hp]
  rfl

theorem load_tagged_illegal :
    Raises .load .load (fun c s w => c ≠ 256 ∧ (core s c).tagG (fA w) ≠ .pub ∧
      ∃ m v, place s c ((core s c).rg (fA w) + sImm w).toNat (loadForm (opcode w)).1 = .csr m ∧
        csrRead c m (core s c) s = .error (0x01, v)) 0x01 (fun _ _ => 0) := by
  refine load_runs.raises ?_
  rintro c w s ⟨-, ht, m, v, hp, hr⟩
  rw [bodyLoad, if_pos ht, loadIllegal_of_csr hp hr]
  rfl

/-- Settles O20: a branch's condition by its opcode, and what each transfer's body answers. -/
theorem controlTransfersGoToTheirTarget : Obligations.ControlTransfersGoToTheirTarget := by
  unfold Obligations.ControlTransfersGoToTheirTarget
  refine ⟨?_, branch_tagged, fun s c w hi => jmpl_runs.completes hi rfl,
    fun s c w hi ht ha => jmplr_runs.completes hi (jmplr_completes c s ht ha), jmplr_misaligned, jmplr_tagged, load_tagged, store_tagged,
    load_tagged_illegal, ?_, ?_, ?_⟩
  · intro s c w hi hd ha
    have hiff := branchTaken_iff (klass_branch hi.1) ((core s c).rg (fD w)) ((core s c).rg (fA w))
    have hb := bodyBranch_public s hd ha
    refine ⟨fun h => branch_runs.completes hi ?_, fun h => branch_runs.completes hi ?_⟩
    · rw [hb, if_pos (hiff.2 h)]
    · rw [hb, if_neg (mt hiff.1 h)]
  · refine (regArith_two (v := fun a b => a + b) (f := 0x000) (fun _ _ _ => rfl) (by decide)).of_imp ?_
    exact fun _ _ ⟨hf, _, hn⟩ => ⟨hf, hn⟩
  · refine regArith_cmov_tagged.of_imp ?_
    exact fun _ _ ⟨hf, ha, hn⟩ => ⟨hf, hn, by simp [ha]⟩
  · intro s c w hm hk hs ha hf
    have hv : isVector w = false := by
      have := klass_branch hk
      simp [isVector]
      omega
    exact (branch_runs c w s).trans (congrArg _ (runWord_unfetchable _ hm hk (by decide) hv hs ha hf))

end Sys2Proof.Machine
end

section
/-!
SUPPORT. The noise sources (R412–R419): what a window's end writes of its source and of the pool, what a write of SRC_EN does to each
source, and the statement O53.
-/
namespace Sys2Proof.Machine

open Sys2Proof

/-! ### A window's end (R413–R419) -/

/-- Source k samples: it is one of the four and enabled, TIO is stable, and the device is not locked down (R412, R443). -/
abbrev Samples (s : State) (k : Nat) : Prop :=
  k < 4 ∧ bit s.rng.srcEn k = true ∧ s.clk.tioStable = true ∧ Live s

/-- The adaptive proportion test trips: the bits that equal the window's first reach APT_C (R415). -/
def aptTrips (g : Entropy) (w : BitVec 1024) : Bool :=
  g.aptC.toNat ≤ if bit w 0 then onesOf w else 1024 - onesOf w

/-- The walk of the repetition-count test, begun with the run that source k's last window left (R414). -/
def windowWalk (g : Entropy) (k : Nat) (w : BitVec 1024) : Bool × Nat × Bool :=
  rctWalk w g.rctC.toNat 1024 (Table.get {} g.src k).runBit (Table.get {} g.src k).run false

/-- The window passes both tests (R416). -/
def windowPasses (g : Entropy) (k : Nat) (w : BitVec 1024) : Bool := !(windowWalk g k w).2.2 && !aptTrips g w

/-- Source k's record once its window w has ended. -/
def windowRecord (g : Entropy) (k : Nat) (w : BitVec 1024) : Noise :=
  { Table.get {} g.src k with
    runBit := (windowWalk g k w).1, run := (windowWalk g k w).2.1, next := (Table.get {} g.src k).next + 1,
    lastPass := windowPasses g k w, valid := true, ones := onesOf w, rctTrip := (windowWalk g k w).2.2,
    aptTrip := aptTrips g w, window := BitVec.ofNat 16 (Table.get {} g.src k).next,
    agree := (List.range 8).map fun i => agreeOf w (i + 1) }

/-- The pool once source k's window w has ended (R418, R419). -/
def windowPool (g : Entropy) (k : Nat) (w : BitVec 1024) : List (BitVec 1024) :=
  if (windowPasses g k w && !(g.rawRunning && g.rawSrc.toNat == k)) = true ∧ g.pool.length < 16 then g.pool ++ [w] else g.pool

theorem aptTrips_iff (g : Entropy) (w : BitVec 1024) :
    aptTrips g w = true ↔ g.aptC.toNat ≤ if bit w 0 then onesOf w else 1024 - onesOf w :=
  decide_eq_true_iff

theorem windowPasses_iff (g : Entropy) (k : Nat) (w : BitVec 1024) :
    windowPasses g k w = true ↔ aptTrips g w = false ∧ (windowWalk g k w).2.2 = false := by
  simp [windowPasses, and_comm]

theorem windowPool_of_fails {g : Entropy} {k : Nat} {w : BitVec 1024} (h : windowPasses g k w = false) : windowPool g k w = g.pool := by
  simp [windowPool, h]

theorem windowPool_of_captured {g : Entropy} {k : Nat} (w : BitVec 1024) (hr : g.rawRunning = true) (hk : g.rawSrc.toNat = k) :
    windowPool g k w = g.pool := by
  simp [windowPool, hr, hk]

theorem windowPool_of_passes {g : Entropy} {k : Nat} {w : BitVec 1024} (h : windowPasses g k w = true) (hr : g.rawRunning = false)
    (hl : g.pool.length < 16) : windowPool g k w = g.pool ++ [w] := by
  simp [windowPool, h, hr, hl]

/-- What an instantiation or a reseed begins with stays in the pool until it is done. -/
theorem drbgStart_keeps_noise (s : State) : (drbgStart s).rng.src = s.rng.src ∧ (drbgStart s).rng.pool = s.rng.pool := by
  unfold drbgStart
  dsimp only
  repeat' split
  all_goals exact ⟨rfl, rfl⟩

theorem rng_bump_if (c : Prop) [Decidable c] (reg f w : Nat) (s : State) : (if c then bump reg f w s else s).rng = s.rng := by
  split <;> rfl

theorem noiseWindowEnd_samples {s : State} {k : Nat} (w : BitVec 1024) (h : Samples s k) :
    ∃ t, Runs (.noiseWindowEnd k w) s t ∧ t.rng.src = Table.set {} s.rng.src k (windowRecord s.rng k w) ∧
      t.rng.pool = windowPool s.rng k w := by
  obtain ⟨hk, hen, hst, hl⟩ := h
  have hguard : ¬ (4 ≤ k ∨ bit s.rng.srcEn k = false ∨ s.clk.tioStable = false ∨ s.fc.lock = true) := by
    simp [hk, hen, hst, hl]
  refine ⟨_, congrArg Host.Outcome.next (if_neg hguard), ?_⟩
  dsimp only
  rw [(drbgStart_keeps_noise _).1, (drbgStart_keeps_noise _).2, rng_bump_if, rng_bump_if]
  rw [bump_rng, windowRecord, windowPool, windowPasses, windowWalk, aptTrips]
  dsimp only
  exact ⟨rfl, rfl⟩

theorem noiseWindowEnd_idle {s : State} {k : Nat} (w : BitVec 1024)
    (h : 4 ≤ k ∨ bit s.rng.srcEn k = false ∨ s.clk.tioStable = false ∨ s.fc.lock = true) : Runs (.noiseWindowEnd k w) s s :=
  congrArg Host.Outcome.next (if_pos h)

/-! ### SRC_EN, STAT and the raw capture (R413, R417, R418, R428) -/

theorem rngWritable_iff (s : State) : rngWritable s = true ↔ s.lcs.st = 0 ∨ s.lcs.st = 1 := by
  simp [rngWritable]

/-- The table with the repetition run of source j ended where c asks it: one source's part of a SRC_EN write (R413). -/
def endRunIf (c : Nat → Prop) [DecidablePred c] (t : Table Noise) (j : Nat) : Table Noise :=
  if c j then Table.set {} t j { Table.get {} t j with run := 0 } else t

theorem endRunIf_same (c : Nat → Prop) [DecidablePred c] (t : Table Noise) {k : Nat} (hc : c k) :
    (Table.get {} (endRunIf c t k) k).run = 0 := by
  rw [endRunIf, if_pos hc, Table.get_set_same]

theorem endRunIf_keeps_zero (c : Nat → Prop) [DecidablePred c] (t : Table Noise) (j : Nat) {k : Nat} (h : (Table.get {} t k).run = 0) :
    (Table.get {} (endRunIf c t j) k).run = 0 := by
  by_cases hj : k = j
  · unfold endRunIf
    subst hj
    split
    · rw [Table.get_set_same]
    · exact h
  · unfold endRunIf
    split
    · rwa [Table.get_set_other _ _ _ hj]
    · exact h

theorem foldl_endRunIf_keeps_zero (c : Nat → Prop) [DecidablePred c] (l : List Nat) (t : Table Noise) {k : Nat}
    (h : (Table.get {} t k).run = 0) : (Table.get {} (l.foldl (endRunIf c) t) k).run = 0 := by
  induction l generalizing t with
  | nil => exact h
  | cons j l ih => exact ih _ (endRunIf_keeps_zero c t j h)

/-- Each listed source that meets c has its repetition run ended. -/
theorem foldl_endRunIf_mem (c : Nat → Prop) [DecidablePred c] {l : List Nat} (t : Table Noise) {k : Nat} (hk : k ∈ l) (hc : c k) :
    (Table.get {} (l.foldl (endRunIf c) t) k).run = 0 := by
  induction l generalizing t with
  | nil => cases hk
  | cons j l ih =>
    rcases List.mem_cons.1 hk with rfl | hk
    · exact foldl_endRunIf_keeps_zero c l _ (endRunIf_same c t hc)
    · exact ih _ hk

theorem srcEnWrite_runs {s : State} (d : W32) (h : Writable s) (hw : rngWritable s = true) :
    Runs (.srcEnWrite d) s { s with rng := { s.rng with
      srcEn := d.setWidth 4
      src := (List.range 4).foldl (endRunIf fun k => bit s.rng.srcEn k = true ∧ bit (d.setWidth 4) k = false) s.rng.src } } :=
  congrArg Host.Outcome.next ((hostWrite_writable h).trans (if_neg (by simp [hw])))

theorem srcEnWrite_ignored {s : State} (d : W32) (h : Writable s) (hw : rngWritable s = false) :
    Runs (.srcEnWrite d) s (ignoredWrite 0x15 0x800000 (d.setWidth 64) none s) :=
  congrArg Host.Outcome.next ((hostWrite_writable h).trans (if_pos hw))

theorem rngStatRead_latches {s : State} {k : Nat} (hk : k < 4) (h : Writable s) :
    ∃ t, Runs (.rngStatRead k) s t ∧
      t.rng = { s.rng with src := Table.set {} s.rng.src k { Table.get {} s.rng.src k with latched := (Table.get {} s.rng.src k).agree } } := by
  have hguard : ¬ (4 ≤ k ∨ s.fc.lock = true ∨ s.lcs.st = 4) := by simp [hk, h.1, h.2]
  exact ⟨_, congrArg Host.Outcome.next (if_neg hguard), rfl⟩

theorem rawCapture_maker {s : State} (d : W32) (h : Writable s) (hm : s.lcs.st = 0) :
    Runs (.rawCapture d) s { s with rng := { s.rng with rawSrc := d.setWidth 2, rawRunning := true, rawDone := false } } :=
  congrArg Host.Outcome.next ((hostWrite_writable h).trans (if_pos hm))

theorem rawCapture_ignored {s : State} (d : W32) (h : Writable s) (hm : s.lcs.st ≠ 0) :
    Runs (.rawCapture d) s (ignoredWrite 0x15 0x800400 (d.setWidth 64) none s) :=
  congrArg Host.Outcome.next ((hostWrite_writable h).trans (if_neg hm))

/-- Settles O53: a window's end writes one source's record and the pool, and of the other commands each writes what its register says. -/
theorem noiseWindowsAreTestedAndPooled : Obligations.NoiseWindowsAreTestedAndPooled := by
  unfold Obligations.NoiseWindowsAreTestedAndPooled
  refine ⟨rfl, ?_, ?_, fun s k w h => noiseWindowEnd_idle w h, ?_, ?_, ?_,
    fun s d h => ⟨rawCapture_maker d h, rawCapture_ignored d h⟩, fun s b h => congrArg Host.Outcome.next (if_pos h)⟩
  · intro s k w hk hen hst hl hraw hsrc
    obtain ⟨t, ht, -, hpool⟩ := noiseWindowEnd_samples w ⟨hk, hen, hst, hl⟩
    exact ⟨t, ht, hpool.trans (windowPool_of_captured w hraw hsrc)⟩
  · intro s k w hk hen hst hl
    obtain ⟨t, ht, hsrc, hpool⟩ := noiseWindowEnd_samples w ⟨hk, hen, hst, hl⟩
    refine ⟨t, ht, ?_⟩
    rw [hsrc, hpool, Table.get_set_same]
    dsimp only [windowRecord]
    exact ⟨rfl, rfl, rfl, aptTrips_iff _ w, windowPasses_iff _ k w, windowPool_of_fails, windowPool_of_passes,
      fun j hj => Table.get_set_other _ _ _ hj⟩
  · intro s d h h0 h1
    refine srcEnWrite_ignored d h (Bool.eq_false_iff.2 ?_)
    simp [rngWritable_iff, h0, h1]
  · intro s d h hst
    refine ⟨_, srcEnWrite_runs d h ((rngWritable_iff s).2 hst), rfl, rfl, fun k hk hen hoff => ?_⟩
    have hoff' : bit (d.setWidth 4) k = false := by simpa [bit, BitVec.getLsbD_setWidth] using fun _ => hoff
    exact foldl_endRunIf_mem _ _ (List.mem_range.2 hk) ⟨hen, hoff'⟩
  · intro s k hk h
    obtain ⟨t, ht, hrng⟩ := rngStatRead_latches hk h
    refine ⟨t, ht, ?_⟩
    rw [hrng, Table.get_set_same]
    exact ⟨rfl, rfl, rfl⟩

end Sys2Proof.Machine
end

section
/-!
SUPPORT. The life cycle (R445–R453): what a transition's write and its rows change, what destroying the keys leaves alone, the roots, and
the statement O55.
-/
namespace Sys2Proof.Machine

open Sys2Proof

/-- What each step of a walk keeps, the walk keeps. -/
theorem foldl_keeps {α β : Type} (g : State → α) {f : State → β → State} (h : ∀ s b, g (f s b) = g s) (l : List β) (s : State) :
    g (l.foldl f s) = g s := by
  induction l generalizing s with
  | nil => rfl
  | cons b l ih => rw [List.foldl_cons, ih, h]

/-! ### A write of LCS_NEXT (R448) -/

theorem permittedTransition_iff (a b : Nat) : permittedTransition a b = true ↔
    (a = 0 ∧ (b = 1 ∨ b = 4)) ∨ (a = 1 ∧ (b = 2 ∨ b = 3 ∨ b = 4)) ∨ (a = 2 ∧ (b = 3 ∨ b = 4)) ∨ (a = 3 ∧ b = 4) := by
  match a with
  | 0 | 1 | 2 | 3 => simp [permittedTransition, or_assoc]
  | a + 4 => simp [permittedTransition]

/-- Both roots stand locked. -/
def RootsLocked (s : State) : Prop := Table.get false s.lcs.rootLocked 0 = true ∧ Table.get false s.lcs.rootLocked 1 = true

section
variable {s : State} {target : Nat}

theorem lcTransition_runs (n : Nat) (dap v : Bool) (h : Writable s) :
    Runs (.lcTransition n dap v) s (lcsNextWrite (n % 8) dap v s) :=
  congrArg Host.Outcome.next (hostWrite_writable h)

theorem lcsNextWrite_notPermitted (v : Bool) (h : permittedTransition s.lcs.st target = false) :
    lcsNextWrite target false v s = lcRefuse 1 s := by
  simp [lcsNextWrite, h]

theorem lcsNextWrite_rootsOpen (v : Bool) (h : permittedTransition s.lcs.st 2 = true) (hr : ¬ RootsLocked s) :
    lcsNextWrite 2 false v s = lcRefuse 2 s := by
  have hopen : (Table.get false s.lcs.rootLocked 0 && Table.get false s.lcs.rootLocked 1) = false := by
    simpa [RootsLocked] using hr
  simp [lcsNextWrite, h, hopen]

/-- Past the checks of the transition and of the roots, the supply and a transition that runs decide. -/
theorem lcsNextWrite_rootsPass (v : Bool) (h : permittedTransition s.lcs.st target = true) (hr : target = 2 → RootsLocked s) :
    lcsNextWrite target false v s =
      if v = false then lcRefuse 3 s else if s.lcs.busy = true then lcRefuse 5 s else lcBegin target s := by
  have hpass : ¬ (target = 2 ∧ (!(Table.get false s.lcs.rootLocked 0 && Table.get false s.lcs.rootLocked 1)) = true) := by
    rintro ⟨ht, ho⟩
    obtain ⟨h0, h1⟩ := hr ht
    simp [h0, h1] at ho
  simp only [lcsNextWrite, h, if_neg hpass, Bool.false_eq_true, Bool.true_eq_false, if_false]

end

/-! ### The transition's first steps (R449) -/

theorem endCeremony_lcs (r : Byte) (s : State) : (endCeremony r s).lcs = s.lcs := by
  unfold endCeremony
  dsimp only
  split
  · split <;> rfl
  · rfl

theorem destroyKey_lcs (h : W32) (s : State) : (destroyKey h s).lcs = s.lcs := by
  unfold destroyKey
  dsimp only
  split <;> rfl

/-- Destroying the keys leaves the life cycle's own record alone. -/
theorem destroyAllKeys_lcs (s : State) : (destroyAllKeys s).lcs = s.lcs :=
  (foldl_keeps State.lcs (fun s h => destroyKey_lcs (BitVec.ofNat 32 h) s) _ _).trans (endCeremony_lcs 7 s)

/-- The life cycle's record once a transition to the target has begun. -/
def transitionBegun (l : LifeCycle) (target : Nat) : LifeCycle :=
  { l with
    busy := true, target := target, result := 0, copyFails := 0, granted := false, perm := 0,
    rows := l.rows ++ .intent (target - 1) :: rowsFor target }

theorem lcBegin_lcs (target : Nat) (s : State) : (lcBegin target s).lcs = transitionBegun s.lcs target := by
  unfold lcBegin
  split
  · show transitionBegun (destroyAllKeys s).lcs target = _
    rw [destroyAllKeys_lcs]
  · rfl

theorem lcBegin_injection (target : Nat) (s : State) : (lcBegin target s).fcq.injection = none := rfl

/-! ### Rows (R446, R449) -/

/-- The rows still to program are q. -/
def withRows (q : List OtpRow) (s : State) : State := { s with lcs := { s.lcs with rows := q } }

theorem programRow_fc (row : OtpRow) (ok : Bool) (s : State) : (programRow row ok s).fc = s.fc := by
  cases row
  case root => unfold programRow; dsimp only; split <;> rfl
  all_goals rfl

/-- A row that is not the transition's last copy ends with its programming. -/
theorem otpRowProgrammed_runs {s : State} {row : OtpRow} {q : List OtpRow} (ok : Bool) (hl : Live s) (hr : s.lcs.rows = row :: q)
    (hq : q ≠ [] ∨ ∀ c, row ≠ .copy c) :
    Runs (.otpRowProgrammed ok) s (programRow row ok (withRows q s)) := by
  refine congrArg Host.Outcome.next ?_
  rw [hr]
  dsimp only
  rw [programRow_fc, if_neg (by simp [hl])]
  cases row
  case copy c =>
    have hne : q ≠ [] := hq.resolve_right fun h => h c rfl
    exact if_neg (by simpa [programRow, nextFresh] using hne)
  all_goals rfl

section
variable {s : State}

theorem programRow_copy (c : Nat) (h : s.lcs.atBoot = false) : (programRow (.copy c) true s).lcs =
    { s.lcs with copies := Table.set 0 s.lcs.copies c (lcCopy s c ||| codeword s.lcs.target) } := by
  simp [programRow, programmed, nextFresh, lcCopy, h]

theorem programRow_intent (k : Nat) (h : s.lcs.atBoot = false) : (programRow (.intent k) true s).lcs =
    { s.lcs with intents := Table.set 0 s.lcs.intents k (lcIntent s k ||| codeword s.lcs.target) } := by
  simp [programRow, programmed, nextFresh, lcIntent, h]

theorem programRow_rootLock (r : Nat) (ok : Bool) : (programRow (.rootLock r) ok s).lcs =
    { s.lcs with
      rootLocked := Table.set false s.lcs.rootLocked r ok, rootResult := if ok then 0 else 2, rootBusy := false } := rfl

/-! ### Roots (R453) -/

/-- GO, the bit that ROOT_PROGRAM sets, and ROOT, which it leaves (R453). -/
theorem bit_or_go (d : W32) : bit (d ||| 0x80000000) 31 = true := by simp [bit]
theorem bit_or_root (d : W32) : bit (d ||| 0x80000000) 8 = bit d 8 := by simp [bit]

theorem rootProgram_runs (d : W32) (v : Bool) (h : Writable s) : Runs (.rootProgram d v) s (rootCmdWrite (d ||| 0x80000000) v s) :=
  congrArg Host.Outcome.next (hostWrite_writable h)

section
variable {x : W32} {sel : Bool} (hgo : bit x 31 = true) (hsel : bit x 8 = sel)
include hgo

theorem rootCmdWrite_busy (v : Bool) (hb : s.lcs.rootBusy = true) :
    rootCmdWrite x v s = ignoredWrite 0x18 0xA00044 (x.setWidth 64) none s := by
  simp [rootCmdWrite, hgo, hb, lcsReg]

include hsel

/-- Only INTEGRATOR takes a root, and only one that is not locked. -/
theorem rootCmdWrite_refused (v : Bool) (hb : s.lcs.rootBusy = false)
    (h : s.lcs.st ≠ 1 ∨ Table.get false s.lcs.rootLocked (b2n sel) = true) :
    rootCmdWrite x v s = { s with lcs := { s.lcs with rootSel := sel, rootResult := 1 } } := by
  simp [rootCmdWrite, hgo, hsel, hb, lcIntegrator, h]

/-- A root still blank takes its digest, then its lock. -/
theorem rootCmdWrite_accepted (hb : s.lcs.rootBusy = false) (hs : s.lcs.st = 1)
    (hl : Table.get false s.lcs.rootLocked (b2n sel) = false) (hz : Table.get 0 s.lcs.roots (b2n sel) = 0) :
    rootCmdWrite x true s =
      { s with lcs := { s.lcs with
        rootSel := sel, rootBusy := true, rootResult := 0, rows := s.lcs.rows ++ [.root (b2n sel), .rootLock (b2n sel)] } } := by
  have hblank : Table.get 0#256 s.lcs.roots (b2n sel) = 0#256 := hz
  simp [rootCmdWrite, hgo, hsel, hb, lcIntegrator, hs, hl, hblank]

end

end

/-- Settles O55: a write of LCS_NEXT by the checks it passes, a row by what its programming writes, and the roots. -/
theorem lifeCycleMovesForwardOnly : Obligations.LifeCycleMovesForwardOnly := by
  unfold Obligations.LifeCycleMovesForwardOnly
  refine ⟨⟨permittedTransition_iff, fun s n v h => lcTransition_runs n true v h, ?_, ?_, ?_, ?_,
    fun s r => ⟨_, rfl, rfl, rfl, rfl⟩, ?_, ?_, ?_⟩, ?_, ?_, ?_, ?_⟩
  · intro s n v h hp
    exact lcsNextWrite_notPermitted v hp ▸ lcTransition_runs n false v h
  · intro s n h hp hr
    exact (lcTransition_runs n false false h).trans (congrArg _ (lcsNextWrite_rootsPass false hp hr))
  · intro s n v h hp hn hr
    have hopen : ¬ RootsLocked s := fun ⟨h0, h1⟩ => by simp [h0, h1] at hr
    rw [hn] at hp
    have hrun := lcTransition_runs n false v h
    rwa [hn, lcsNextWrite_rootsOpen v hp hopen] at hrun
  · intro s n h hp hb hr
    have hrun := lcTransition_runs n false true h
    rwa [lcsNextWrite_rootsPass true hp hr, if_neg (by simp), if_pos hb] at hrun
  · intro s n h hp hb hr
    have hrun := lcTransition_runs n false true h
    rw [lcsNextWrite_rootsPass true hp hr, if_neg (by simp), if_neg (by simp [hb])] at hrun
    refine ⟨_, hrun, ?_⟩
    rw [lcBegin_lcs]
    exact ⟨rfl, rfl, rfl, rfl, rfl, rfl, lcBegin_injection _ s, rfl⟩
  · intro s c r q hl hr hb
    refine ⟨_, otpRowProgrammed_runs true hl hr (.inl (by simp)), ?_⟩
    have hrow := programRow_copy (s := withRows (r :: q) s) c hb
    rw [lcCopy, hrow]
    refine ⟨rfl, Table.get_set_same .., fun d hd => ?_, rfl, rfl, rfl⟩
    rw [lcCopy, hrow]
    exact Table.get_set_other _ _ _ hd
  · intro s k hl hr hb
    refine ⟨_, otpRowProgrammed_runs true hl hr (.inr (by simp)), ?_⟩
    rw [lcIntent, programRow_intent (s := withRows [] s) k hb]
    exact ⟨rfl, Table.get_set_same ..⟩
  · intro s d v h hb hc
    exact rootCmdWrite_refused (bit_or_go d) (bit_or_root d) v hb hc ▸ rootProgram_runs d v h
  · intro s d v h hb
    exact rootCmdWrite_busy (bit_or_go d) v hb ▸ rootProgram_runs d v h
  · intro s d h hb hs hl hz
    exact rootCmdWrite_accepted (bit_or_go d) (bit_or_root d) hb hs hl hz ▸ rootProgram_runs d true h
  · intro s r ok hl hr
    refine ⟨_, otpRowProgrammed_runs ok hl hr (.inr (by simp)), ?_⟩
    rw [programRow_rootLock]
    exact ⟨Table.get_set_same .., rfl, rfl, rfl⟩

end Sys2Proof.Machine
end

section
/-!
SUPPORT. Debug (R456–R461): challenge, token, hold and release; what HOLD's reset leaves of the lock and of the boot record; the test
access port's instructions; debug accesses of memory; and the statement O56.
-/
namespace Sys2Proof.Machine

open Sys2Proof

/-! ### Challenge and token (R460) -/

section
variable {s : State}

theorem challenge_runs (h : Writable s) : Runs .challenge s (dbgChallenge s) := congrArg Host.Outcome.next (hostWrite_writable h)
theorem verify_runs (h : Writable s) : Runs .verify s (dbgVerify s) := congrArg Host.Outcome.next (hostWrite_writable h)
theorem hold_runs (h : Writable s) : Runs .hold s (dbgHold s) := congrArg Host.Outcome.next (hostWrite_writable h)
theorem release_runs (h : Writable s) : Runs .release s (dbgRelease s) := congrArg Host.Outcome.next (hostWrite_writable h)

/-- A check that would refuse has been passed where the answer is 0. -/
theorem passed_of_zero {c : Prop} [Decidable c] {r x : Byte} (hr : r ≠ 0) (h : (if c then r else x) = 0) : ¬ c ∧ x = 0 := by
  split at h
  · exact absurd h hr
  · next hc => exact ⟨hc, h⟩

/-- A token that grants has met each check of R460. -/
theorem tokenResult_grants {k v : Bool} (h : tokenResult k v s = 0) :
    k = true ∧ v = true ∧ s.lcs.chalFresh = true ∧ (s.lcs.st = 1 ∨ s.lcs.st = 3) := by
  obtain ⟨-, h⟩ := passed_of_zero (by decide) h
  obtain ⟨hstate, h⟩ := passed_of_zero (by decide) h
  obtain ⟨-, h⟩ := passed_of_zero (by decide) h
  obtain ⟨hchal, h⟩ := passed_of_zero (by decide) h
  obtain ⟨hkey, h⟩ := passed_of_zero (by decide) h
  obtain ⟨hsig, -⟩ := passed_of_zero (by decide) h
  simp only [not_or, Bool.not_eq_false] at hchal hkey hsig
  obtain ⟨hfresh, -⟩ := hchal
  obtain ⟨hk, -⟩ := hkey
  refine ⟨hk, hsig, hfresh, ?_⟩
  simpa [lcIntegrator, lcReturned, Classical.or_iff_not_imp_left] using hstate

/-- The life cycle's record once a VERIFY has ended with the token's result. -/
def verified (k v : Bool) (s : State) : LifeCycle :=
  { s.lcs with verifying := false, dbgBusy := false, chalFresh := false, dbgResult := tokenResult k v s }

theorem verifyDone_runs (k v : Bool) (hl : Live s) (hv : s.lcs.verifying = true) : Runs (.verifyDone k v) s
    { s with lcs := if tokenResult k v s = 0 then
        { verified k v s with granted := true, perm := BitVec.ofNat 4 (leAt (readWin s.lcs.token 6 2) 0 2) } else verified k v s } :=
  congrArg Host.Outcome.next ((unlessLocked_live hl).trans (if_neg (by simp [hv])))

end

/-! ### What a hold's reset leaves (R461, R467) -/

/-- A report goes to the collector's queue or to a counter. -/
theorem report_frame (ev : Event) (s : State) : ∃ k q, report ev s = { s with time := k, fcq := q } := by
  unfold report enqueueEvent bump
  dsimp only
  repeat' split
  all_goals exact ⟨_, _, rfl⟩

theorem report_fc (ev : Event) (s : State) : (report ev s).fc = s.fc := by
  obtain ⟨k, q, h⟩ := report_frame ev s
  rw [h]

theorem report_boot (ev : Event) (s : State) : (report ev s).boot = s.boot := by
  obtain ⟨k, q, h⟩ := report_frame ev s
  rw [h]

theorem freeFrame_fc (f : TxFrame) (s : State) : (freeFrame f s).fc = s.fc := by
  unfold freeFrame
  split <;> rfl

theorem dropUnlinked_fc (p : Nat) (f : TxFrame) (s : State) : (dropUnlinked p f s).fc = s.fc := by
  unfold dropUnlinked
  dsimp only
  split <;> exact freeFrame_fc f _

theorem linkLost_fc (p : Nat) (b : Bool) (s : State) : (linkLost p b s).fc = s.fc := by
  unfold linkLost
  dsimp only
  split
  · rfl
  · refine (report_fc _ _).trans ((foldl_keeps State.fc (fun s f => dropUnlinked_fc p f s) _ _).trans ?_)
    split <;> rfl

theorem linkCut_fc (s : State) (p : Nat) : (linkCut p s).fc = s.fc := by
  unfold linkCut
  split
  · exact linkLost_fc p _ _
  · rfl

theorem recompute_boot (s : State) : (recompute s).boot = s.boot := by
  unfold recompute
  dsimp only
  split
  · exact report_boot _ _
  · rfl

theorem unwrite_boot (p : Place) (n : Nat) (s : State) : (unwrite p n s).boot = s.boot := by cases p <;> rfl

theorem sweepActs_boot (s : State) : (sweepActs s).boot = s.boot :=
  foldl_keeps State.boot (fun s _ => foldl_keeps State.boot (fun s _ => unwrite_boot _ _ s) _ s) _ s

theorem warmReset_ringUp {s : State} (cause : BitVec 4) (h : Live s) : (warmReset cause s).boot.ringUp = 0 := by
  unfold warmReset
  rw [if_neg (by simp [h])]
  dsimp only
  rw [recompute_boot, sweepActs_boot]

/-- Every network port's link is lost. -/
def linksCut (s : State) : State := (List.range 8).foldl (fun s p => linkCut p s) s

theorem linksCut_live {s : State} (h : Live s) : Live (linksCut s) := by
  rw [Live, linksCut, foldl_keeps State.fc linkCut_fc, h]

/-- After the reset t of a hold the grant and the count of resets are those of before it, s, and the hold stands. -/
def heldAfter (s t : State) : State :=
  { t with
    lcs := { t.lcs with granted := s.lcs.granted, perm := s.lcs.perm, dbgHeld := true, dbgResult := 0 }
    boot := { t.boot with warmCount := s.boot.warmCount } }

theorem heldAfter_keeps (s t : State) : (heldAfter s t).lcs.dbgHeld = true ∧ (heldAfter s t).lcs.granted = s.lcs.granted ∧
    (heldAfter s t).lcs.perm = s.lcs.perm ∧ (heldAfter s t).lcs.dbgResult = 0 ∧ (heldAfter s t).boot.ringUp = t.boot.ringUp ∧
    (heldAfter s t).boot.warmCount = s.boot.warmCount :=
  ⟨rfl, rfl, rfl, rfl, rfl, rfl⟩

theorem dbgHold_ignored {s : State} (hm : dbgMay s 0 = false) : dbgHold s = ignoredWrite 0x18 0xA00100 4 none s := if_pos hm

theorem dbgHold_holds {s : State} (hm : dbgMay s 0 = true) (hh : s.lcs.dbgHeld = false) :
    dbgHold s = heldAfter s (warmReset s.boot.cause (linksCut s)) := by
  unfold dbgHold heldAfter linksCut
  rw [if_neg (by simp [hm]), if_neg (by simp [hh])]

/-! ### The test access port (R456) -/

theorem scanMay_iff {s : State} (h : s.lcs.st ≤ 4) : scanMay s = true ↔
    s.lcs.st = 0 ∨ ((s.lcs.st = 1 ∨ s.lcs.st = 3) ∧ s.lcs.granted = true ∧ bit s.lcs.perm 0 = true) := by
  have hst : s.lcs.st = 0 ∨ s.lcs.st = 1 ∨ s.lcs.st = 2 ∨ s.lcs.st = 3 ∨ s.lcs.st = 4 := by omega
  obtain h | h | h | h | h := hst <;> simp [scanMay, dbgMay, lcFielded, lcScrapped, lcMaker, h]

/-- The four fields of IDCODE do not meet. -/
theorem idcode_toNat (s : State) : (idcode s).toNat =
    s.dev.stepDigit.toNat * 2 ^ 28 + (0x4B00 + (if s.dev.part = .kx512 then 1 else 2)) * 2 ^ 12 + Config.vendorId.toNat * 2 + 1 := by
  have hstep := s.dev.stepDigit.isLt
  have hvendor := Config.vendorId.isLt
  have hpart : (if s.dev.part = .kx512 then 1 else 2) ≤ 2 := by split <;> decide
  simp only [idcode, pack, List.foldl_cons, List.foldl_nil, BitVec.toNat_ofNat]
  rw [Nat.mod_eq_of_lt (by omega)]
  omega

theorem dapRefused_jtag (a : W32) (s : State) : (dapRefused a s).jtag = { s.jtag with outcome := 2, data := 0 } :=
  (report_stays _ _).2.2

theorem dapRead_ir (space : Nat) (a : W32) (s : State) : (dapRead space a s).jtag.ir = s.jtag.ir := by
  unfold dapRead
  repeat' split
  all_goals simp [dapDone, dapRefused_jtag]

theorem dapWrite_ir (space : Nat) (a d : W32) (s : State) : (dapWrite space a d s).jtag.ir = s.jtag.ir := by
  unfold dapWrite
  dsimp only
  split
  · split <;> simp [dapDone, dapRefused_jtag]
  split
  · split
    · simp [dapRefused_jtag]
    split
    · simp [dapDone]
    split
    · split
      · next t ht =>
        obtain ⟨-, -, hj⟩ := dapRegWrite_stays _ _ _ _ t ht
        simp [dapDone, hj]
      · simp [dapRefused_jtag]
    · simp [dapRefused_jtag]
  split
  · split
    · split <;> simp [dapDone, dapRefused_jtag]
    · simp [dapRefused_jtag]
  · simp [dapRefused_jtag]

/-- EXTEST, CLAMP and HIGHZ ask for the SCAN permission and the hold. -/
theorem selectIr_permitted {s : State} (ir : Byte) (hm : scanMay s = true) (hh : s.lcs.dbgHeld = true) :
    selectIr ir (scanMay s && s.lcs.dbgHeld) s = { s with jtag := { s.jtag with ir := ir } } := by
  simp [selectIr, hm, hh]

theorem selectIr_barred {s : State} (ir : Byte) (h : scanMay s = false ∨ s.lcs.dbgHeld = false) :
    selectIr ir (scanMay s && s.lcs.dbgHeld) s = { s with jtag := { s.jtag with ir := 0xFF } } := by
  obtain h | h := h <;> simp [selectIr, irBypass, h]

section
variable {s : State} (space : Nat) (a d : W32)

/-- The state in which DAPACC is the instruction. -/
def inDap (s : State) : State := { s with jtag := { s.jtag with ir := 0x20 } }

theorem dapRead_runs (h : s.lcs.st ≠ 4) : Runs (.dapRead space a) s (dapRead space a (inDap s)) :=
  congrArg Host.Outcome.next (if_neg h)

theorem dapWrite_runs (h : s.lcs.st ≠ 4) : Runs (.dapWrite space a d) s (dapWrite space a d (inDap s)) :=
  congrArg Host.Outcome.next (if_neg h)

/-! ### Debug accesses (R458, R459) -/

theorem dapMay_maker (k : Nat) (h : s.lcs.st = 0) : dapMay k s = true := by simp [dapMay, lcMaker, h]
theorem dapMay_fielded (k : Nat) (h : s.lcs.st = 2) : dapMay k s = false := by
  simp [dapMay, lcMaker, lcGrantable, lcIntegrator, lcReturned, h]
theorem dapBarMay_fielded_write (off : Nat) (h : s.lcs.st = 2) : dapBarMay off true s = false := by
  simp [dapBarMay, lcMaker, lcGrantable, lcIntegrator, lcReturned, h]

theorem dapWrite_bar_fielded (h : s.lcs.st = 2) : dapWrite 0 a d s = dapRefused a s := by
  simp [dapWrite, dapBarMay_fielded_write _ h]
theorem dapRead_core_fielded (h : s.lcs.st = 2) : dapRead 1 a s = dapRefused a s := by
  simp [dapRead, dapMay_fielded _ h]
theorem dapRead_memory_fielded (h : s.lcs.st = 2) : dapRead 2 a s = dapRefused a s := by
  simp [dapRead, dapMay_fielded _ h]
theorem dapWrite_memory_fielded (h : s.lcs.st = 2) : dapWrite 2 a d s = dapRefused a s := by
  simp [dapWrite, dapMay_fielded _ h]

section
variable {p : Place} (hm : s.lcs.st = 0) (hp : dapMemory a s = some p)
include hm hp

theorem dapRead_memory : dapRead 2 a s = dapDone (showPublic (BitVec.ofNat 32 (natOf (readBytes s p 4))) (lineTag s p)) s := by
  simp [dapRead, dapMay_maker _ hm, hp]

theorem dapWrite_memory_public (ht : lineTag s p = .pub) :
    dapWrite 2 a d s = dapDone 0 (writeBytes p (bytesOf d.toNat 4) s) := by
  simp [dapWrite, dapMay_maker _ hm, hp, ht]

theorem dapWrite_memory_tagged (ht : lineTag s p ≠ .pub) : dapWrite 2 a d s = dapRefused a s := by
  simp [dapWrite, dapMay_maker _ hm, hp, ht]

end

end

/-! ### Bytes written and read again -/

theorem Place.apart_add (p : Place) {n : Nat} (h : n ≠ 0) : p.apart (p.add n) = true := by
  cases p <;> simp [Place.apart, Place.add, Place.key] <;> omega

/-- What was written is read. -/
theorem readBytes_writeBytes (l : List Byte) (p : Place) (s : State) : readBytes (writeBytes p l s) p l.length = l := by
  induction l generalizing p s with
  | nil => rfl
  | cons b l ih =>
    have hfirst : readByte (writeBytes (p.add 1) l (writeByte p b s)) p = b := by
      rw [readByte_writeBytes_outside _ _ _ _ fun k _ => ?_, readByte_writeByte_same]
      rw [Place.add_add]
      exact Place.apart_add p (by omega)
    have hrest := ih (p.add 1) (writeByte p b s)
    simp only [readBytes, Place.add_add, Nat.add_comm 1] at hrest
    simp [readBytes, writeBytes, List.range_succ_eq_map, Place.add_zero, hfirst, Function.comp_def, hrest]

theorem outside_of_apart {p q : Place} {n : Nat} (h : Apart p n q) : q.outside p n := by
  cases p <;> cases q <;> simp_all [Apart, Place.outside, Place.apart, Place.add]

/-- Settles O56: the debug commands by what each checks, the instructions by state and grant, and accesses by state and tag. -/
theorem debugIsGrantedAndChecked : Obligations.DebugIsGrantedAndChecked := by
  unfold Obligations.DebugIsGrantedAndChecked
  refine ⟨⟨?_, ?_, ?_, ?_, ?_, ?_, ?_, ?_, ?_⟩, ⟨fun s => rfl, fun s => rfl, fun s => rfl, ?_, ?_, ?_, ?_, fun s => scanMay_iff,
    ?_, idcode_toNat⟩, fun s sp a d h => ⟨congrArg _ (if_pos h), congrArg _ (if_pos h)⟩, ?_, ?_, ?_, ?_, ?_⟩
  · intro s h hd hb
    have hfree : ¬ (s.lcs.dbgBusy = true ∨ s.lcs.busy = true) := by simp [hd, hb]
    exact ⟨(challenge_runs h).trans (congrArg _ (if_neg hfree)), (verify_runs h).trans (congrArg _ (if_neg hfree))⟩
  · intro s h hb
    exact ⟨(challenge_runs h).trans (congrArg _ (if_pos hb)), (verify_runs h).trans (congrArg _ (if_pos hb))⟩
  · intro s k v hl hv hr
    obtain ⟨hk, hs, hc, hst⟩ := tokenResult_grants hr
    have hrun := verifyDone_runs k v hl hv
    rw [if_pos hr] at hrun
    exact ⟨hk, hs, hc, hst, _, hrun, rfl, hr, rfl, rfl, rfl, rfl⟩
  · intro s k v hl hv hr
    have hrun := verifyDone_runs k v hl hv
    rwa [if_neg hr] at hrun
  · intro s h
    exact congrArg _ (hostWrite_writable h)
  · intro s h hm
    exact dbgHold_ignored hm ▸ hold_runs h
  · intro s h hm hh
    have hrun := hold_runs h
    rw [dbgHold_holds hm hh] at hrun
    refine ⟨_, hrun, ?_⟩
    rw [← warmReset_ringUp s.boot.cause (linksCut_live h.1)]
    exact heldAfter_keeps s _
  · intro s h hh
    exact (release_runs h).trans (congrArg _ (if_neg (by simp [hh])))
  · intro s h hh
    exact (release_runs h).trans (congrArg _ (if_pos hh))
  · intro s hm hh
    have hir := fun ir => selectIr_permitted ir hm hh
    exact ⟨congrArg _ (hir irExtest), congrArg _ (hir irClamp), congrArg _ (hir irHighz)⟩
  · intro s hm
    exact ⟨_, congrArg Host.Outcome.next (if_pos hm), rfl, rfl, rfl, rfl, rfl, rfl⟩
  · intro s hm
    have hir := fun ir => selectIr_barred ir (.inl hm)
    exact ⟨congrArg _ (hir irExtest), congrArg _ (hir irClamp), congrArg _ (hir irHighz), congrArg _ (if_neg (by simp [hm]))⟩
  · intro s hh
    have hir := fun ir => selectIr_barred ir (.inr hh)
    exact ⟨congrArg _ (hir irExtest), congrArg _ (hir irClamp), congrArg _ (hir irHighz)⟩
  · intro s sp a d h
    exact ⟨⟨_, dapRead_runs sp a h, dapRead_ir sp a _⟩, _, dapWrite_runs sp a d h, dapWrite_ir sp a d _⟩
  · intro s a d h
    have hopen : s.lcs.st ≠ 4 := by omega
    have hdap : (inDap s).lcs.st = 2 := h
    exact ⟨dapWrite_bar_fielded a d hdap ▸ dapWrite_runs 0 a d hopen, dapRead_core_fielded a hdap ▸ dapRead_runs 1 a hopen,
      dapRead_memory_fielded a hdap ▸ dapRead_runs 2 a hopen, dapWrite_memory_fielded a d hdap ▸ dapWrite_runs 2 a d hopen⟩
  · intro s a p h hp
    have hrun := dapRead_runs 2 a (s := s) (by omega)
    rw [dapRead_memory a (s := inDap s) h hp] at hrun
    exact ⟨_, hrun, rfl, rfl, rfl, fun ht => if_pos ht, fun ht => if_neg ht⟩
  · intro s a d p h hp ht
    have hrun := dapWrite_runs 2 a d (s := s) (by omega)
    rw [dapWrite_memory_public a d (s := inDap s) h hp ht] at hrun
    refine ⟨_, hrun, rfl, ?_, fun q hq => ?_⟩
    · have hread := readBytes_writeBytes (bytesOf d.toNat 4) p (inDap s)
      rw [bytesOf_length] at hread
      exact hread
    · exact readByte_writeBytes_outside _ _ _ (inDap s) (outside_of_apart (by simpa using hq))
  · intro s a d p h hp ht
    exact dapWrite_memory_tagged a d (s := inDap s) h hp ht ▸ dapWrite_runs 2 a d (s := s) (by omega)
  · intro s a
    rw [dapRefused_jtag]
    exact ⟨rfl, rfl⟩

end Sys2Proof.Machine
end

section
/-!
SUPPORT. Commands and their queue, the values after reset, and the test access port: which commands write its record and what each leaves
there; the statements O1, O2, O59 and O60.
-/
namespace Sys2Proof.Machine

open Sys2Proof

/-- Settles O1: the step takes the front of the queue. -/
theorem stepRunsFrontCommand : Obligations.StepRunsFrontCommand := by
  intro s c r h
  simp only [step, State.rest, h, List.tail_cons]

/-- Every arm of the dispatch is a next state, whatever the command's operands. -/
theorem exec_next (c : Instr) (s : State) : ∃ t, Runs c s t := by
  cases c
  all_goals exact ⟨_, rfl⟩

/-- Settles O2: each command's meaning is a next state, and the empty queue is a tick. -/
theorem everyStepAnswersANextState : Obligations.EveryStepAnswersANextState :=
  ⟨fun s c => exec_next c s, fun s h => by simp only [step, h]⟩

/-- Settles O59: the tables that number tenants, ports and slots are empty after reset, and the other values are written there. -/
theorem resetValuesOfTheSpec : Obligations.ResetValuesOfTheSpec := by
  unfold Obligations.ResetValuesOfTheSpec
  refine ⟨⟨fun i => rfl, rfl, rfl, rfl, rfl, rfl, rfl, rfl, rfl, rfl, rfl, rfl, fun p => ⟨rfl, rfl⟩, fun n => rfl, rfl, rfl, rfl⟩,
    by decide, .inl rfl⟩

/-! ### The test access port (R456–R459) -/

/-- An instruction of R456 is selected, and a debug access that was refused returned 0. -/
def PortLegal (j : Jtag) : Prop :=
  j.ir ∈ ([0xFF, 0x01, 0x02, 0x00, 0x04, 0x05, 0x20] : List Byte) ∧ (j.outcome = 1 ∨ (j.outcome = 2 ∧ j.data = 0))

theorem portLegal_selectIr {s : State} {ir : Byte} (permitted : Bool)
    (hir : ir ∈ ([0xFF, 0x01, 0x02, 0x00, 0x04, 0x05, 0x20] : List Byte)) (h : PortLegal s.jtag) :
    PortLegal (selectIr ir permitted s).jtag := by
  refine ⟨?_, h.2⟩
  cases permitted
  · exact List.mem_cons_self
  · exact hir

/-- A debug access was performed, or was refused and returned 0. -/
def Answered (j : Jtag) : Prop := j.outcome = 1 ∨ (j.outcome = 2 ∧ j.data = 0)

theorem dapDone_answered (v : W32) (s : State) : Answered (dapDone v s).jtag := .inl rfl

theorem dapRefused_answered (a : W32) (s : State) : Answered (dapRefused a s).jtag := by
  rw [dapRefused_jtag]
  exact .inr ⟨rfl, rfl⟩

theorem dapRead_answered (space : Nat) (a : W32) (s : State) : Answered (dapRead space a s).jtag := by
  unfold dapRead
  repeat' split
  all_goals solve | exact dapDone_answered _ _ | exact dapRefused_answered _ _

theorem dapWrite_answered (space : Nat) (a d : W32) (s : State) : Answered (dapWrite space a d s).jtag := by
  unfold dapWrite
  dsimp only
  repeat' split
  all_goals solve | exact dapDone_answered _ _ | exact dapRefused_answered _ _

theorem portLegal_withDap {access : State → State} {s : State} (hir : ∀ u, (access u).jtag.ir = u.jtag.ir)
    (hans : ∀ u, Answered (access u).jtag) (h : PortLegal s.jtag) : PortLegal (withDap access s).jtag := by
  unfold withDap
  split
  · exact portLegal_selectIr _ (by decide) h
  · exact ⟨by rw [hir]; exact List.mem_of_elem_eq_true rfl, hans _⟩

theorem portLegal_samplePreload {s t : State} (h : PortLegal s.jtag) (ht : execSamplePreload s = .next t) : PortLegal t.jtag := by
  cases ht
  split
  · exact ⟨List.mem_of_elem_eq_true rfl, h.2⟩
  · exact portLegal_selectIr _ (by decide) h

/-- The commands of the test access port; another command leaves its record, or a power reset puts it at its reset value. -/
def portCommand : Instr → Bool
  | .bypass | .idcode | .samplePreload | .extest | .clamp | .highz | .jtagReset | .dapRead _ _ | .dapWrite _ _ _ => true
  | _ => false

theorem exec_jtag (i : Instr) (s nx : State) (hi : portCommand i = false) (h : exec i s = .next nx) :
    nx.jtag = s.jtag ∨ nx.jtag = {} := by
  cases i
  case registerWrite => exact .inl (execRegisterWrite_stays _ _ _ _ _ h).2.2
  case rcRegisterRead => exact .inl (execRcRegisterRead_stays _ _ _ _ _ h).2.2
  case flitReceive => exact .inl (execFlitReceive_stays _ _ _ _ _ _ h).2.2
  case creditReturn => exact .inl (execCreditReturn_stays _ _ _ _ h).2.2
  case transferDone => exact .inl (execTransferDone_stays _ _ _ h).2.2
  case memoryParityError => exact .inl (execMemoryParityError_stays _ _ _ _ _ _ h).2.2
  case rereadComplete => exact .inl (execRereadComplete_stays _ _ _ _ _ h).2.2
  case actStoreLineRewrite => exact .inl (execActStoreLineRewrite_stays _ _ _ _ _ h).2.2
  case d3hotEnter => exact .inl (execD3hotEnter_stays _ _ h).2.2
  case d0Return => exact .inl (execD0Return_stays _ _ h).2.2
  case instanceConfigWrite => exact .inl (execInstanceConfigWrite_stays _ _ _ _ _ h).2.2
  case itShareWrite => exact .inl (execItShareWrite_stays _ _ _ _ h).2.2
  case itCeilingWrite => exact .inl (execItCeilingWrite_stays _ _ _ _ h).2.2
  case activate => exact .inl (execActivate_stays _ _ _ h).2.2
  case stop => exact .inl (execStop_stays _ _ _ h).2.2
  case cancel => exact .inl (execCancel_stays _ _ _ h).2.2
  case resume => exact .inl (execResume_stays _ _ _ h).2.2
  case instReset => exact .inl (execInstReset_stays _ _ _ h).2.2
  case resetComplete => exact .inl (execResetComplete_stays _ _ _ h).2.2
  case remove => exact .inl (execRemove_stays _ _ _ h).2.2
  case removeComplete => exact .inl (execRemoveComplete_stays _ _ _ h).2.2
  case mbSend => exact .inl (execMbSend_stays _ _ _ h).2.2
  case mbAck => exact .inl (execMbAck_stays _ _ _ h).2.2
  case mbxSend => exact .inl (execSend_stays _ _ _ h).2.2
  case mbxAck => exact .inl (execAck_stays _ _ _ h).2.2
  case sqDoorbell => exact .inl (execSqDoorbell_stays _ _ _ _ h).2.2
  case cqDoorbell => exact .inl (execCqDoorbell_stays _ _ _ _ h).2.2
  case ticketFetch => exact .inl (execTicketFetch_stays _ _ _ h).2.2
  case ticketReadCompletion => exact .inl (execTicketReadCompletion_stays _ _ _ _ _ h).2.2
  case completionTimeout => exact .inl (execCompletionTimeout_stays _ _ _ _ h).2.2
  case hostReadCompletion => exact .inl (execHostReadCompletion_stays _ _ _ _ _ h).2.2
  case inlineGo => exact .inl (execInlineGo_stays _ _ _ h).2.2
  case inlineCopyDone => exact .inl (execInlineCopyDone_stays _ _ _ h).2.2
  case abortStart => exact .inl (execAbortStart_stays _ _ _ _ h).2.2
  case abortDone => exact .inl (execAbortDone_stays _ _ _ h).2.2
  case ticketEntry => exact .inl (execTicketEntry_stays _ _ _ h).2.2
  case entitlementRecompute => exact .inl (execEntitlementRecompute_stays _ _ h).2.2
  case deadlineExpiry => exact .inl (execDeadlineExpiry_stays _ _ _ h).2.2
  case dispatchPass => exact .inl (execDispatchPass_stays _ _ _ h).2.2
  case copyValid => exact .inl (execCopyValid_stays _ _ _ _ _ h).2.2
  case copyFreed => exact .inl (execCopyFreed_stays _ _ _ _ _ h).2.2
  case shareEpochBoundary => exact .inl (execShareEpochBoundary_stays _ _ h).2.2
  case epochNow => exact .inl (execEpochNow_stays _ _ h).2.2
  case commit => exact .inl (execCommit_stays _ _ _ h).2.2
  case regArith => exact .inl (execRegArith_stays _ _ _ _ h).2.2
  case divide => exact .inl (execDivide_stays _ _ _ _ h).2.2
  case immArith => exact .inl (execImmArith_stays _ _ _ _ h).2.2
  case shi => exact .inl (execShi_stays _ _ _ _ h).2.2
  case liz => exact .inl (execLiz_stays _ _ _ _ h).2.2
  case lik => exact .inl (execLik_stays _ _ _ _ h).2.2
  case load => exact .inl (execLoad_stays _ _ _ _ h).2.2
  case store => exact .inl (execStore_stays _ _ _ _ h).2.2
  case ldm => exact .inl (execLdm_stays _ _ _ _ h).2.2
  case stm => exact .inl (execStm_stays _ _ _ _ h).2.2
  case branch => exact .inl (execBranch_stays _ _ _ _ h).2.2
  case jmpl => exact .inl (execJmpl_stays _ _ _ _ h).2.2
  case jmplr => exact .inl (execJmplr_stays _ _ _ _ h).2.2
  case csrr => exact .inl (execCsrr_stays _ _ _ _ h).2.2
  case csrw => exact .inl (execCsrw_stays _ _ _ _ h).2.2
  case csrs => exact .inl (execCsrs_stays _ _ _ _ h).2.2
  case csrc => exact .inl (execCsrc_stays _ _ _ _ h).2.2
  case exit => exact .inl (execExit_stays _ _ _ _ h).2.2
  case wait => exact .inl (execWait_stays _ _ _ _ h).2.2
  case fence => exact .inl (execFence_stays _ _ _ _ h).2.2
  case tret => exact .inl (execTret_stays _ _ _ _ h).2.2
  case brk => exact .inl (execBrk_stays _ _ _ _ h).2.2
  case iret => exact .inl (execIret_stays _ _ _ _ h).2.2
  case keyget => exact .inl (execKeyget_stays _ _ _ _ h).2.2
  case formget => exact .inl (execFormget_stays _ _ _ _ h).2.2
  case formput => exact .inl (execFormput_stays _ _ _ _ h).2.2
  case mgmtInterrupt => exact .inl (execMgmtInterrupt_stays _ _ _ h).2.2
  case dmaStart => exact .inl (execDmaStart_stays _ _ _ _ h).2.2
  case dmaDone => exact .inl (execDmaDone_stays _ _ _ h).2.2
  case actLoad => exact .inl (execActLoad_stays _ _ h).2.2
  case unload => exact .inl (execUnload_stays _ _ _ h).2.2
  case actLoadDone => exact .inl (execActLoadDone_stays _ _ _ _ _ h).2.2
  case vecAlu => exact .inl (execVecAlu_stays _ _ _ _ h).2.2
  case vecMod => exact .inl (execVecMod_stays _ _ _ _ h).2.2
  case vecReduce => exact .inl (execVecReduce_stays _ _ _ _ h).2.2
  case vecGf => exact .inl (execVecGf_stays _ _ _ _ h).2.2
  case vsxor => exact .inl (execVsxor_stays _ _ _ _ h).2.2
  case vsand => exact .inl (execVsand_stays _ _ _ _ h).2.2
  case vsadd => exact .inl (execVsadd_stays _ _ _ _ h).2.2
  case vsmmul => exact .inl (execVsmmul_stays _ _ _ _ h).2.2
  case vsref => exact .inl (execVsref_stays _ _ _ _ h).2.2
  case vsa2b => exact .inl (execVsa2b_stays _ _ _ _ h).2.2
  case vsb2a => exact .inl (execVsb2a_stays _ _ _ _ h).2.2
  case vecPred => exact .inl (execVecPred_stays _ _ _ _ h).2.2
  case vfence => exact .inl (execVfence_stays _ _ _ _ h).2.2
  case vld => exact .inl (execVld_stays _ _ _ _ h).2.2
  case vlds => exact .inl (execVlds_stays _ _ _ _ h).2.2
  case vldx => exact .inl (execVldx_stays _ _ _ _ h).2.2
  case vst => exact .inl (execVst_stays _ _ _ _ h).2.2
  case vsts => exact .inl (execVsts_stays _ _ _ _ h).2.2
  case vstx => exact .inl (execVstx_stays _ _ _ _ h).2.2
  case firstFaultLoad => exact .inl (execFirstFaultLoad_stays _ _ _ _ h).2.2
  case vectorElementCheck => exact .inl (execVectorElementCheck_stays _ _ _ h).2.2
  case patchLoad => exact .inl (execPatchLoad_stays _ _ _ _ h).2.2
  case revert => exact .inl (execRevert_stays _ _ h).2.2
  case patchBroadcast => exact .inl (execPatchBroadcast_stays _ _ h).2.2
  case mrgSeedRequest => exact .inl (execMrgSeedRequest_stays _ _ _ _ h).2.2
  case mrgSeedArrival => exact .inl (execMrgSeedArrival_stays _ _ _ _ h).2.2
  case mrgInstanceStop => exact .inl (execMrgInstanceStop_stays _ _ _ _ h).2.2
  case randomnessWaitNotice => exact .inl (execRandomnessWaitNotice_stays _ _ _ h).2.2
  case dclGo => exact .inl (execDclGo_stays _ _ _ _ h).2.2
  case dclReleaseDone => exact .inl (execDclReleaseDone_stays _ _ _ h).2.2
  case heInit => exact .inl (execHeInit_stays _ _ _ _ _ h).2.2
  case heAbsorb => exact .inl (execHeAbsorb_stays _ _ _ _ _ h).2.2
  case heFinal => exact .inl (execHeFinal_stays _ _ _ _ _ h).2.2
  case heSqueeze => exact .inl (execHeSqueeze_stays _ _ _ _ _ h).2.2
  case heHash => exact .inl (execHeHash_stays _ _ _ _ _ h).2.2
  case heCopy => exact .inl (execHeCopy_stays _ _ _ _ _ h).2.2
  case heRandom => exact .inl (execHeRandom_stays _ _ _ _ _ h).2.2
  case heCmdDone => exact .inl (execHeCmdDone_stays _ _ _ _ h).2.2
  case meClaim => exact .inl (execMeClaim_stays _ _ _ _ _ h).2.2
  case meClaimGrant => exact .inl (execMeClaimGrant_stays _ _ _ _ h).2.2
  case meRelease => exact .inl (execMeRelease_stays _ _ _ _ _ h).2.2
  case meScrubDone => exact .inl (execMeScrubDone_stays _ _ _ _ h).2.2
  case meLoad => exact .inl (execMeLoad_stays _ _ _ _ _ h).2.2
  case meStore => exact .inl (execMeStore_stays _ _ _ _ _ h).2.2
  case meZero => exact .inl (execMeZero_stays _ _ _ _ _ h).2.2
  case aclr => exact .inl (execAclr_stays _ _ _ _ _ h).2.2
  case aload => exact .inl (execAload_stays _ _ _ _ _ h).2.2
  case astore => exact .inl (execAstore_stays _ _ _ _ _ h).2.2
  case ashr => exact .inl (execAshr_stays _ _ _ _ _ h).2.2
  case meMac => exact .inl (execMeMac_stays _ _ _ _ _ h).2.2
  case macl => exact .inl (execMacl_stays _ _ _ _ _ h).2.2
  case mrow => exact .inl (execMrow_stays _ _ _ _ _ h).2.2
  case meCmdDone => exact .inl (execMeCmdDone_stays _ _ _ _ h).2.2
  case ldkey => exact .inl (execLdkey_stays _ _ _ _ _ h).2.2
  case clrkey => exact .inl (execClrkey_stays _ _ _ _ _ h).2.2
  case derive => exact .inl (execDerive_stays _ _ _ _ _ h).2.2
  case enc => exact .inl (execEnc_stays _ _ _ _ _ h).2.2
  case dec => exact .inl (execDec_stays _ _ _ _ _ h).2.2
  case bcMac => exact .inl (execBcMac_stays _ _ _ _ _ h).2.2
  case pindec => exact .inl (execPindec_stays _ _ _ _ _ h).2.2
  case pinfmt => exact .inl (execPinfmt_stays _ _ _ _ _ h).2.2
  case pinenc => exact .inl (execPinenc_stays _ _ _ _ _ h).2.2
  case wrap => exact .inl (execWrap_stays _ _ _ _ _ h).2.2
  case unwrap => exact .inl (execUnwrap_stays _ _ _ _ _ h).2.2
  case bcCmdDone => exact .inl (execBcCmdDone_stays _ _ _ _ h).2.2
  case keyRequest => exact .inl (execKeyRequest_stays _ _ _ _ h).2.2
  case keyDeliveryComplete => exact .inl (execKeyDeliveryComplete_stays _ _ _ h).2.2
  case keyFillDone => exact .inl (execKeyFillDone_stays _ _ _ h).2.2
  case keyScrubDone => exact .inl (execKeyScrubDone_stays _ _ _ h).2.2
  case sweep => exact .inl (execSweep_stays _ _ h).2.2
  case ksDomainWrite => exact .inl (execKsDomainWrite_stays _ _ _ _ _ h).2.2
  case cerOpen => exact .inl (execCerOpen_stays _ _ h).2.2
  case component => exact .inl (execComponent_stays _ _ h).2.2
  case componentDone => exact .inl (execComponentDone_stays _ _ h).2.2
  case cerClose => exact .inl (execCerClose_stays _ _ h).2.2
  case cerCancel => exact .inl (execCerCancel_stays _ _ h).2.2
  case cerResume => exact .inl (execCerResume_stays _ _ h).2.2
  case portEnable => exact .inl (execPortEnable_stays _ _ _ _ h).2.2
  case portDisable => exact .inl (execPortDisable_stays _ _ _ _ h).2.2
  case linkRestart => exact .inl (execLinkRestart_stays _ _ _ h).2.2
  case linkUp => exact .inl (execLinkUp_stays _ _ _ h).2.2
  case linkDown => exact .inl (execLinkDown_stays _ _ _ _ h).2.2
  case frameReceive => exact .inl (execFrameReceive_stays _ _ _ _ _ h).2.2
  case dadTimeout => exact .inl (execDadTimeout_stays _ _ _ h).2.2
  case neighbourRetry => exact .inl (execNeighbourRetry_stays _ _ _ _ h).2.2
  case neighbourResolveFail => exact .inl (execNeighbourResolveFail_stays _ _ _ _ h).2.2
  case frameTransmit => exact .inl (execFrameTransmit_stays _ _ _ _ h).2.2
  case txtsPop => exact .inl (execTxtsPop_stays _ _ _ h).2.2
  case dolidInit => exact .inl (execDolidInit_stays _ _ _ h).2.2
  case dolidRequest => exact .inl (execDolidRequest_stays _ _ _ _ h).2.2
  case dolidAbort => exact .inl (execDolidAbort_stays _ _ _ _ h).2.2
  case dolidClose => exact .inl (execDolidClose_stays _ _ _ _ h).2.2
  case sessionIdleTimeout => exact .inl (execSessionIdleTimeout_stays _ _ _ h).2.2
  case cookieEpoch => exact .inl (execCookieEpoch_stays _ _ h).2.2
  case cookieDrawRetry => exact .inl (execCookieDrawRetry_stays _ _ h).2.2
  case txidHoldExpiry => exact .inl (execTxidHoldExpiry_stays _ _ _ _ h).2.2
  case peerRead => exact .inl (execPeerRead_stays _ _ _ h).2.2
  case peerWrite => exact .inl (execPeerWrite_stays _ _ _ h).2.2
  case peerClear => exact .inl (execPeerClear_stays _ _ _ h).2.2
  case gloveRefill => exact .inl (execGloveRefill_stays _ _ h).2.2
  case sourceSelect => exact .inl (execSourceSelect_stays _ _ _ h).2.2
  case ntSet => exact .inl (execNtSet_stays _ _ _ h).2.2
  case apply => exact .inl (execApply_stays _ _ h).2.2
  case slewDone => exact .inl (execSlewDone_stays _ _ h).2.2
  case ppsEdge => exact .inl (execPpsEdge_stays _ _ h).2.2
  case holdoverTimeout => exact .inl (execHoldoverTimeout_stays _ _ h).2.2
  case scheduleEntryWrite => exact .inl (execScheduleEntryWrite_stays _ _ _ _ h).2.2
  case scheduleFire => exact .inl (execScheduleFire_stays _ _ _ h).2.2
  case pulseEnd => exact .inl (execPulseEnd_stays _ _ _ h).2.2
  case sealNow => exact .inl (execSealNow_stays _ _ h).2.2
  case receiptHash => exact .inl (execReceiptHash_stays _ _ h).2.2
  case epochRootsDone => exact .inl (execEpochRootsDone_stays _ _ h).2.2
  case sealTicketEnd => exact .inl (execSealTicketEnd_stays _ _ h).2.2
  case sealCosignRetry => exact .inl (execSealCosignRetry_stays _ _ h).2.2
  case sealRecordWrite => exact .inl (execSealRecordWrite_stays _ _ h).2.2
  case audRingTailWrite => exact .inl (execAudRingTailWrite_stays _ _ _ h).2.2
  case clockGateClose => exact .inl (execClockGateClose_stays _ _ _ h).2.2
  case clockSwitch => exact .inl (execClockSwitch_stays _ _ _ h).2.2
  case frozenDomainTrip => exact .inl (execFrozenDomainTrip_stays _ _ _ h).2.2
  case pllTrip => exact .inl (execPllTrip_stays _ _ _ _ h).2.2
  case tioMonitorTrip => exact .inl (execTioMonitorTrip_stays _ _ _ h).2.2
  case aonMonitorTrip => exact .inl (execAonMonitorTrip_stays _ _ _ h).2.2
  case ref10Loss => exact .inl (execRef10Loss_stays _ _ h).2.2
  case refclkLoss => exact .inl (execRefclkLoss_stays _ _ h).2.2
  case pllLock => exact .inl (execPllLock_stays _ _ _ h).2.2
  case recoveryAttempt => exact .inl (execRecoveryAttempt_stays _ _ _ h).2.2
  case recoveryHoldDone => exact .inl (execRecoveryHoldDone_stays _ _ _ h).2.2
  case clkRecover => exact .inl (execClkRecover_stays _ _ _ h).2.2
  case tioTrimWrite => exact .inl (execTioTrimWrite_stays _ _ _ h).2.2
  case trimGate => exact .inl (execTrimGate_stays _ _ _ h).2.2
  case trimPtpStep => exact .inl (execTrimPtpStep_stays _ _ h).2.2
  case cardInsert => exact .inl (execCardInsert_stays _ _ _ h).2.2
  case cardRemove => exact .inl (execCardRemove_stays _ _ _ h).2.2
  case hcActivate => exact .inl (execHcActivate_stays _ _ _ h).2.2
  case hcDeactivate => exact .inl (execHcDeactivate_stays _ _ _ h).2.2
  case exchange => exact .inl (execExchange_stays _ _ _ h).2.2
  case resynch => exact .inl (execResynch_stays _ _ _ h).2.2
  case activationTimer => exact .inl (execActivationTimer_stays _ _ _ _ h).2.2
  case atrReceive => exact .inl (execAtrReceive_stays _ _ _ _ _ h).2.2
  case t1BlockReceive => exact .inl (execT1BlockReceive_stays _ _ _ _ [] _ _ h).2.2
  case t1Timeout => exact .inl (execT1Timeout_stays _ _ _ h).2.2
  case statusPoll => exact .inl (execStatusPoll_stays _ _ _ h).2.2
  case busyTimeout => exact .inl (execBusyTimeout_stays _ _ _ h).2.2
  case cardClockStop => exact .inl (execCardClockStop_stays _ _ _ h).2.2
  case cardVccFault => exact .inl (execCardVccFault_stays _ _ _ h).2.2
  case noiseWindowEnd => exact .inl (execNoiseWindowEnd_stays _ _ _ _ h).2.2
  case srcEnWrite => exact .inl (execSrcEnWrite_stays _ _ _ h).2.2
  case drbgKatDone => exact .inl (execDrbgKatDone_stays _ _ _ h).2.2
  case drbgInstantiateDone => exact .inl (execDrbgInstantiateDone_stays _ _ _ h).2.2
  case instantiate => exact .inl (execInstantiate_stays _ _ h).2.2
  case reseed => exact .inl (execReseed_stays _ _ h).2.2
  case reseedBlocking => exact .inl (execReseedBlocking_stays _ _ h).2.2
  case drbgReseedDone => exact .inl (execDrbgReseedDone_stays _ _ _ h).2.2
  case drbgRequest => exact .inl (execDrbgRequest_stays _ _ _ h).2.2
  case drbgRequestServed => exact .inl (execDrbgRequestServed_stays _ _ _ h).2.2
  case drbgHoldExpiry => exact .inl (execDrbgHoldExpiry_stays _ _ _ h).2.2
  case rngStatRead => exact .inl (execRngStatRead_stays _ _ _ h).2.2
  case rawCapture => exact .inl (execRawCapture_stays _ _ _ h).2.2
  case rawCaptureDone => exact .inl (execRawCaptureDone_stays _ _ _ h).2.2
  case faultEvent => exact .inl (execFaultEvent_stays _ _ _ h).2.2
  case faultRecordWrite => exact .inl (execFaultRecordWrite_stays _ _ h).2.2
  case snetNow => exact .inl (execSnetNow_stays _ _ h).2.2
  case fcModeWrite => exact .inl (execFcModeWrite_stays _ _ _ h).2.2
  case fcStickyClear => exact .inl (execFcStickyClear_stays _ _ _ _ h).2.2
  case pop => exact .inl (execPop_stays _ _ h).2.2
  case clear => exact .inl (execClear_stays _ _ h).2.2
  case fcRetire => exact .inl (execFcRetire_stays _ _ _ h).2.2
  case retireWindowReset => exact .inl (execRetireWindowReset_stays _ _ h).2.2
  case faultInject => exact .inl (execFaultInject_stays _ _ h).2.2
  case collectorParityError => exact .inl (execCollectorParityError_stays _ _ _ _ h).2.2
  case lockstepMismatch => exact .inl (execLockstepMismatch_stays _ _ _ _ h).2.2
  case lcTransition => exact .inl (execLcTransition_stays _ _ _ _ _ h).2.2
  case otpRowProgrammed => exact .inl (execOtpRowProgrammed_stays _ _ _ h).2.2
  case rootProgram => exact .inl (execRootProgram_stays _ _ _ _ h).2.2
  case challenge => exact .inl (execChallenge_stays _ _ h).2.2
  case verify => exact .inl (execVerify_stays _ _ h).2.2
  case verifyDone => exact .inl (execVerifyDone_stays _ _ _ _ h).2.2
  case dbgClose => exact .inl (execDbgClose_stays _ _ h).2.2
  case hold => exact .inl (execHold_stays _ _ h).2.2
  case release => exact .inl (execRelease_stays _ _ h).2.2
  case powerOnReset => exact .inr (execPowerOnReset_stays _ _ h).2.2
  case powerGoodLoss => exact (execPowerGoodLoss_stays _ _ h).2.2
  case perst => exact .inl (execPerst_stays _ _ _ h).2.2
  case warm => exact .inl (execWarm_stays _ _ h).2.2
  case warmResetEntriesDone => exact .inl (execWarmResetEntriesDone_stays _ _ h).2.2
  case ringGo => exact .inl (execRingGo_stays _ _ _ h).2.2
  case ringRelease => exact .inl (execRingRelease_stays _ _ _ h).2.2
  case bootSlotCheck => exact .inl (execBootSlotCheck_stays _ _ _ _ _ h).2.2
  case flashReadTimeout => exact .inl (execFlashReadTimeout_stays _ _ h).2.2
  case timecmpReached => exact .inl (execTimecmpReached_stays _ _ _ h).2.2
  case pwrgoodRise => exact .inl (execPwrgoodRise_stays _ _ h).2.2
  case tioStable => exact .inl (execTioStable_stays _ _ h).2.2
  case perstRelease => exact .inl (execPerstRelease_stays _ _ h).2.2
  case ref10Restored => exact .inl (execRef10Restored_stays _ _ h).2.2
  case refclkRestored => exact .inl (execRefclkRestored_stays _ _ h).2.2
  case lineError => exact .inl (execLineError_stays _ _ _ h).2.2
  case deactivationComplete => exact .inl (execDeactivationComplete_stays _ _ _ h).2.2
  case scrubComplete => exact .inl (execScrubComplete_stays _ _ _ h).2.2
  case bootCmdLoad => exact .inl (execBootCmdLoad_stays _ _ _ h).2.2
  all_goals cases hi

/-- Each command of the port selects an instruction of R456, or makes an access that is performed or refused. -/
theorem exec_portLegal {i : Instr} {s t : State} (h : PortLegal s.jtag) (ht : Runs i s t) : PortLegal t.jtag := by
  cases hi : portCommand i with
  | false =>
    obtain hkeep | hreset := exec_jtag i s t hi ht
    · rwa [hkeep]
    · rw [hreset]
      exact ⟨by decide, .inl rfl⟩
  | true =>
    cases i
    case samplePreload => exact portLegal_samplePreload h ht
    case bypass | jtagReset | extest | clamp | highz =>
      cases ht
      exact portLegal_selectIr _ (by decide) h
    case idcode =>
      cases ht
      exact ⟨List.mem_of_elem_eq_true rfl, h.2⟩
    case dapRead space a =>
      cases ht
      exact portLegal_withDap (fun u => dapRead_ir _ _ u) (fun u => dapRead_answered _ _ u) h
    case dapWrite space a d =>
      cases ht
      exact portLegal_withDap (fun u => dapWrite_ir _ _ _ u) (fun u => dapWrite_answered _ _ _ u) h
    all_goals cases hi

/-- Settles O60: a hub cycle leaves the port alone, and so does every command but the port's own. -/
theorem testPortStaysLegal : Obligations.TestPortStaysLegal := by
  intro s t h ht
  show PortLegal t.jtag
  cases hp : s.pending with
  | nil =>
    rw [step, hp] at ht
    cases ht
    rwa [(tick_stays s).2.2]
  | cons c r =>
    rw [stepRunsFrontCommand s c r hp] at ht
    exact exec_portLegal (s := { s with pending := r }) h ht

end Sys2Proof.Machine
end

section
/-!
SUPPORT. Facts of arithmetic: a row of Montgomery reduction (O36), clear PIN fields (O38) and the window of sequence numbers (O45).
-/
namespace Sys2Proof.Machine

open Sys2Proof

/-! ### The accumulator of a Maelhoavo engine (R231) -/

section
variable {l n : Nat}

theorem accInt_of_lt (h : n < 2 ^ (64 * l - 1)) : accInt l n = n := if_pos h

theorem unsigned_of_lt {w : Nat} (h : n < 2 ^ w) : unsigned w (n : Int) = n := by
  have hmod : (n : Int) % 2 ^ w = n := Int.emod_eq_of_lt (Int.natCast_nonneg n) (by exact_mod_cast h)
  rw [unsigned, hmod, Int.toNat_natCast]

/-- Half the range of the accumulator lies within it. -/
theorem lt_pow_of_lt_half (h : n < 2 ^ (64 * l - 1)) : n < 2 ^ (64 * l) :=
  Nat.lt_of_lt_of_le h (Nat.pow_le_pow_right (by decide) (Nat.sub_le _ _))

theorem accWrap_of_lt (h : n < 2 ^ (64 * l - 1)) : accWrap l (n : Int) = (n, false) := by
  simp [accWrap, unsigned_of_lt (lt_pow_of_lt_half h), accInt_of_lt h]

/-- A number in range is taken as it is. -/
theorem setAcc_of_lt {w : MeWin} (h : n < 2 ^ (64 * w.limbs - 1)) : w.setAcc (n : Int) = { w with acc := n } := by
  simp [MeWin.setAcc, accWrap_of_lt h]

end

/-- With np the negated inverse of m modulo b, t + m (t np mod b) is divisible by b. -/
theorem montgomery_dvd {t m np b : Nat} (h : (m * np + 1) % b = 0) : b ∣ t + m * (t % b * np % b) := by
  have hfact : t + m * (t * np) = (m * np + 1) * t := by
    rw [Nat.add_mul, Nat.one_mul, Nat.add_comm, Nat.mul_comm t np, Nat.mul_assoc]
  have hmod : (t + m * (t % b * np % b)) % b = (t + m * (t * np)) % b := by
    rw [Nat.mod_mul_mod, Nat.add_mod, Nat.mul_mod_mod, ← Nat.add_mod]
  refine Nat.dvd_of_mod_eq_zero ?_
  rw [hmod, hfact, Nat.mul_mod, h, Nat.zero_mul, Nat.zero_mod]

/-- A row within range: the sums do not wrap, and the quotient is the number divided by 2^64. -/
theorem mrowStep_of_lt {w : MeWin} {a m b np : Nat} (h : w.acc + a * b + m * 2 ^ 64 < 2 ^ (64 * w.limbs - 1)) :
    w.mrowStep a m b np = { w with acc := (w.acc + a * b + m * ((w.acc + a * b) % 2 ^ 64 * np % 2 ^ 64)) / 2 ^ 64 } := by
  have hq : m * ((w.acc + a * b) % 2 ^ 64 * np % 2 ^ 64) ≤ m * 2 ^ 64 := Nat.mul_le_mul_left m (Nat.le_of_lt (Nat.mod_lt _ (by decide)))
  generalize hx : m * ((w.acc + a * b) % 2 ^ 64 * np % 2 ^ 64) = x at hq
  have hacc : accInt w.limbs w.acc = w.acc := accInt_of_lt (by omega)
  have hfirst : accInt w.limbs w.acc + (a * b : Nat) = (w.acc + a * b : Nat) := by rw [hacc, Int.natCast_add]
  have hsecond : accInt w.limbs (w.acc + a * b) + (x : Nat) = (w.acc + a * b + x : Nat) := by
    rw [accInt_of_lt (by omega), Int.natCast_add (w.acc + a * b)]
  have hlt : w.acc + a * b + x < 2 ^ (64 * w.limbs - 1) := by omega
  have hquot : (w.acc + a * b + x) / 2 ^ 64 < 2 ^ (64 * w.limbs) := Nat.lt_of_le_of_lt (Nat.div_le_self _ _) (lt_pow_of_lt_half hlt)
  unfold MeWin.mrowStep
  rw [hfirst, setAcc_of_lt (by omega)]
  dsimp only
  rw [hx, hsecond, setAcc_of_lt (w := { w with acc := w.acc + a * b }) hlt]
  dsimp only
  rw [accInt_of_lt hlt]
  have hdiv : ((w.acc + a * b + x : Nat) : Int) / 2 ^ 64 = ((w.acc + a * b + x) / 2 ^ 64 : Nat) := by
    rw [Int.natCast_ediv]
    rfl
  rw [hdiv, unsigned_of_lt hquot]

/-- Settles O36: the row's sum is a multiple of 2^64 and nothing wraps. -/
theorem montgomeryRowDividesExactly : Obligations.MontgomeryRowDividesExactly := by
  intro w a m b np _ hnp h
  dsimp only
  rw [mrowStep_of_lt h]
  exact ⟨Nat.div_mul_cancel (montgomery_dvd hnp), rfl, rfl⟩

/-! ### Clear PIN fields (R269, R270) -/

theorem nibbles_ofNibbles (l : List Nat) (hlen : l.length % 2 = 0) (hl : ∀ x ∈ l, x < 16) : nibbles (ofNibbles l) = l := by
  match l with
  | [] => rfl
  | [_] => simp at hlen
  | a :: b :: r =>
    have ha : a < 16 := hl a (by simp)
    have hb : b < 16 := hl b (by simp)
    have hrest := nibbles_ofNibbles r (by simp only [List.length_cons] at hlen; omega) fun x hx => hl x (by simp [hx])
    simp only [nibbles, ofNibbles, List.map_cons, List.flatten_cons, BitVec.toNat_ofNat] at hrest ⊢
    rw [hrest, Nat.mod_eq_of_lt (by omega)]
    simp only [List.cons_append, List.nil_append, List.cons.injEq, and_true]
    omega

theorem nibbles_append (a b : List Byte) : nibbles (a ++ b) = nibbles a ++ nibbles b := by simp [nibbles]

theorem ofNibbles_length (l : List Nat) : (ofNibbles l).length = l.length / 2 := by
  match l with
  | [] => rfl
  | [_] => simp [ofNibbles]
  | _ :: _ :: r =>
    rw [ofNibbles, List.length_cons, ofNibbles_length r]
    simp only [List.length_cons]
    omega

/-- A field that is built is the format, the length, the digits and fill nibbles that the format takes; in format 4 eight free bytes follow. -/
theorem buildPin_eq {fmt : Nat} (d : List Nat) (drbg : List Byte) (hf : fmt = 0 ∨ fmt = 1 ∨ fmt = 3 ∨ fmt = 4) :
    ∃ fill tail, buildPin fmt d drbg = ofNibbles (fmt :: d.length :: d ++ fill) ++ tail ∧ fill.length = 14 - d.length ∧
      tail.length = (if fmt = 4 then 8 else 0) ∧ ∀ x ∈ fill, x < 16 ∧ fillOk fmt x = true := by
  refine ⟨_, _, rfl, by simp, by split <;> simp, fun x hx => ?_⟩
  obtain ⟨k, -, rfl⟩ := List.mem_map.1 hx
  have h6 := Nat.mod_lt (Config.pinDraw 6 drbg k) (show 0 < 6 by decide)
  have h16 := Nat.mod_lt (Config.pinDraw 16 drbg k) (show 0 < 16 by decide)
  obtain rfl | rfl | rfl | rfl := hf
  · simp [fillOk]
  · simp [fillOk, h16]
  · simp only [fillOk, decide_eq_true_eq]
    omega
  · simp [fillOk]

section
variable {fmt : Nat} {d : List Nat} (drbg : List Byte) (hf : fmt = 0 ∨ fmt = 1 ∨ fmt = 3 ∨ fmt = 4) (hhi : d.length ≤ 12)
include hf hhi

theorem buildPin_length : (buildPin fmt d drbg).length = if fmt = 4 then 16 else 8 := by
  obtain ⟨fill, tail, heq, hfill, htail, -⟩ := buildPin_eq d drbg hf
  have hfirst : (ofNibbles (fmt :: d.length :: d ++ fill)).length = 8 := by
    rw [ofNibbles_length]
    simp only [List.cons_append, List.length_cons, List.length_append]
    omega
  rw [heq, List.length_append, hfirst, htail]
  split <;> rfl

variable (hlo : 4 ≤ d.length) (hd : ∀ x ∈ d, x ≤ 9)
include hlo hd

/-- The first 16 nibbles are those laid down, and the digits stand before the fill. -/
theorem parsePin_buildPin : parsePin fmt (buildPin fmt d drbg) = some d := by
  obtain ⟨fill, tail, heq, hlen, -, hok⟩ := buildPin_eq d drbg hf
  have hsixteen : (fmt :: d.length :: d ++ fill).length = 16 := by
    simp only [List.cons_append, List.length_cons, List.length_append]
    omega
  have hsmall : ∀ x ∈ fmt :: d.length :: d ++ fill, x < 16 := by
    intro x hx
    simp only [List.cons_append, List.mem_cons, List.mem_append] at hx
    obtain rfl | rfl | hx | hx := hx
    · omega
    · omega
    · exact Nat.lt_of_le_of_lt (hd x hx) (by decide)
    · exact (hok x hx).1
  have hnibbles : (nibbles (buildPin fmt d drbg)).take 16 = fmt :: d.length :: (d ++ fill) := by
    rw [heq, nibbles_append, nibbles_ofNibbles _ (by rw [hsixteen]) hsmall, List.take_append_of_le_length (Nat.le_of_eq hsixteen.symm),
      List.take_of_length_le (Nat.le_of_eq hsixteen)]
    rfl
  have hdigits : d.all (fun x => decide (x ≤ 9)) = true := List.all_eq_true.2 fun x hx => decide_eq_true (hd x hx)
  have hfill : fill.all (fillOk fmt) = true := List.all_eq_true.2 fun x hx => (hok x hx).2
  unfold parsePin
  rw [hnibbles]
  simp [hlo, hhi, hdigits, hfill]

end

theorem pinDigits_pinRecord {d : List Nat} (hlo : 4 ≤ d.length) (hhi : d.length ≤ 12) (hd : ∀ x ∈ d, x ≤ 9) :
    pinDigits (pinRecord d) = some d := by
  have hn : (BitVec.ofNat 8 d.length).toNat = d.length := by
    rw [BitVec.toNat_ofNat]
    omega
  have hbytes : d.map ((fun b : Byte => b.toNat) ∘ BitVec.ofNat 8) = d := by
    refine (List.map_congr_left fun x hx => ?_).trans (List.map_id d)
    have := hd x hx
    simp only [Function.comp_apply, BitVec.toNat_ofNat, id_eq]
    omega
  have htake : ((d.map (BitVec.ofNat 8) ++ List.replicate (16 - (d.length + 1)) 0).take d.length).map (fun b : Byte => b.toNat) = d := by
    rw [List.take_append_of_le_length (by simp), List.take_of_length_le (by simp), List.map_map, hbytes]
  have hdigits : d.all (fun x => decide (x ≤ 9)) = true := List.all_eq_true.2 fun x hx => decide_eq_true (hd x hx)
  simp only [pinRecord, padTo, List.cons_append, List.length_cons, List.length_map, pinDigits, hn, htake]
  simp [hlo, hhi, hdigits]

/-- Settles O38: the nibbles of a field that is built are read back as they were laid down. -/
theorem pinFieldsParseToTheirDigits : Obligations.PinFieldsParseToTheirDigits := by
  intro fmt d drbg hf hlo hhi hd
  exact ⟨parsePin_buildPin drbg hf hhi hlo hd, buildPin_length drbg hf hhi, pinDigits_pinRecord hlo hhi hd⟩

/-! ### The window of sequence numbers (R340) -/

/-- What a session accepts: a number above HIGH, or one of the window that has not been seen. -/
theorem replayed_eq_some {x y : Session} {q : Nat} (h : replayed x q = some y) :
    (x.high < q ∧ y = { x with high := q, seen := (x.seen <<< (q - x.high)) ||| 1 }) ∨
    (q ≤ x.high ∧ x.high - q < 4096 ∧ y = { x with seen := x.seen ||| BitVec.ofNat 4096 (2 ^ (x.high - q)) }) := by
  unfold replayed at h
  split at h
  · next hlt => exact .inl ⟨hlt, (Option.some.inj h).symm⟩
  · next hle =>
    split at h
    · next hw => exact .inr ⟨Nat.le_of_not_lt hle, hw.1, (Option.some.inj h).symm⟩
    · cases h

/-- What it refuses: a number before the window, or one that it has seen. -/
theorem replayed_eq_none_iff {x : Session} {r : Nat} (h : r ≤ x.high) :
    replayed x r = none ↔ 4096 ≤ x.high - r ∨ bit x.seen (x.high - r) = true := by
  rw [replayed, if_neg (Nat.not_lt.2 h), ite_eq_right_iff]
  simp only [reduceCtorEq, imp_false, Decidable.not_and_iff_not_or_not, Nat.not_lt, Bool.not_eq_false]

theorem bit_shiftLeft_or_one (x : BitVec 4096) {n k : Nat} (hk : k < 4096) (hn : n ≤ k) (h : bit x (k - n) = true) :
    bit ((x <<< n) ||| 1) k = true := by
  simp only [bit, BitVec.getLsbD_or, BitVec.getLsbD_shiftLeft, Bool.or_eq_true, Bool.and_eq_true] at h ⊢
  exact .inl ⟨⟨decide_eq_true hk, by simpa using hn⟩, h⟩

theorem bit_or_pow (x : BitVec 4096) {n k : Nat} (hn : n < 4096) (h : bit x k = true ∨ k = n) :
    bit (x ||| BitVec.ofNat 4096 (2 ^ n)) k = true := by
  simp only [bit, BitVec.getLsbD_or, Bool.or_eq_true] at h ⊢
  obtain h | rfl := h
  · exact .inl h
  · refine .inr ?_
    rw [BitVec.getLsbD_ofNat, decide_eq_true hn, Nat.testBit_two_pow_self]
    rfl

/-- Settles O45: an accepted number is seen from then on, and the window keeps what was seen as it moves. -/
theorem sequenceNumbersAreTakenOnce : Obligations.SequenceNumbersAreTakenOnce := by
  intro x y q h
  obtain ⟨hlt, hy⟩ | ⟨hle, hw, hy⟩ := replayed_eq_some h
  · have hhigh : y.high = q := by rw [hy]
    have hseen : y.seen = (x.seen <<< (q - x.high)) ||| 1 := by rw [hy]
    refine ⟨(replayed_eq_none_iff (Nat.le_of_eq hhigh.symm)).2 (.inr ?_), by rw [hhigh, Nat.max_eq_right (Nat.le_of_lt hlt)], fun r hr hrx => ?_⟩
    · rw [hhigh, hseen]
      simp [bit]
    · refine (replayed_eq_none_iff (by omega)).2 ?_
      rw [hhigh, hseen]
      by_cases hwin : q - r < 4096
      · have hold : bit x.seen (x.high - r) = true := ((replayed_eq_none_iff hrx).1 hr).resolve_left (by omega)
        refine .inr (bit_shiftLeft_or_one x.seen hwin (by omega) ?_)
        rwa [show q - r - (q - x.high) = x.high - r by omega]
      · exact .inl (Nat.le_of_not_lt hwin)
  · have hhigh : y.high = x.high := by rw [hy]
    have hseen : y.seen = x.seen ||| BitVec.ofNat 4096 (2 ^ (x.high - q)) := by rw [hy]
    refine ⟨(replayed_eq_none_iff (hhigh ▸ hle)).2 (.inr ?_), by rw [hhigh, Nat.max_eq_left hle], fun r hr hrx =>
      (replayed_eq_none_iff (hhigh ▸ hrx)).2 ?_⟩
    · rw [hhigh, hseen]
      exact bit_or_pow x.seen hw (.inr rfl)
    · rw [hhigh, hseen]
      exact ((replayed_eq_none_iff hrx).1 hr).imp_right fun hold => bit_or_pow x.seen hw (.inl hold)

end Sys2Proof.Machine
end

section
/-!
SUPPORT. The fault collector (R434–R438, R443): which fields a record, the drain of the queue and a report in Lockdown move; the state that
a device enters Lockdown with; the manager's accesses of the collector; and the statements O15 and O16.
-/
namespace Sys2Proof.Machine

open Sys2Proof

/-! ### What each step of a record moves -/

theorem msix_frame (v : Nat) (s : State) : ∃ p, msix v s = { s with pcie := p } := by
  unfold msix emit
  repeat' split
  all_goals exact ⟨_, rfl⟩

theorem faultIrq_frame (cls : FaultClass) (s : State) : ∃ p q, faultIrq cls s = { s with pcie := p, fcq := q } := by
  unfold faultIrq
  split
  · obtain ⟨p, hp⟩ := msix_frame 513 { s with fcq := { s.fcq with irqCycle := some s.time.cycle } }
    exact ⟨p, _, hp⟩
  · exact ⟨_, _, rfl⟩

theorem capture_frame (src : Byte) (r : BitVec 512) (s : State) :
    ∃ k f q, capture src r s = { s with time := k, fc := f, fcq := q } ∧ f.mode = s.fc.mode ∧ f.log = s.fc.log ∧ f.lock = s.fc.lock := by
  unfold capture
  dsimp only
  repeat' split
  all_goals exact ⟨_, _, _, rfl, rfl, rfl, rfl⟩

theorem writeRecord_frame (w : Waiting) (s : State) : ∃ k f q b p,
    writeRecord w s = { s with time := k, fc := f, fcq := q, fabric := b, pcie := p } := by
  unfold writeRecord
  dsimp only
  generalize recordOf _ _ _ _ _ = r
  obtain ⟨k, f, q, hc, -⟩ := capture_frame w.ev.source r (bump (fcCnt w.ev.cls) 0 32
    { s with fc := { s.fc with selfMark := false }, fcq := { s.fcq with lastGroup := some w.cycle } })
  rw [hc]
  split
  · obtain ⟨p, q', hi⟩ := faultIrq_frame w.ev.cls { s with time := k, fc := f, fcq := q }
    exact ⟨k, f, q', s.fabric, p, hi⟩
  · obtain ⟨p, q', hi⟩ := faultIrq_frame w.ev.cls (logRecord r { s with time := k, fc := f, fcq := q })
    exact ⟨k, _, q', _, p, hi⟩

/-- A walk that counts moves the counters alone. -/
theorem foldl_bump_frame {α : Type} (reg f w : α → Nat) (l : List α) (s : State) :
    ∃ k, l.foldl (fun s x => bump (reg x) (f x) (w x) s) s = { s with time := k } := by
  induction l generalizing s with
  | nil => exact ⟨_, rfl⟩
  | cons x l ih =>
    obtain ⟨k, hk⟩ := ih (bump (reg x) (f x) (w x) s)
    exact ⟨k, hk⟩

theorem drainWaiting_frame (s : State) : ∃ k,
    drainWaiting s = { s with time := k, fcq := { s.fcq with waiting := [], heldAtSource := [] } } := by
  obtain ⟨k, hk⟩ := foldl_bump_frame (fun w : Waiting => fcCnt w.ev.cls) (fun _ => 0) (fun _ => 32)
    (s.fcq.waiting ++ s.fcq.heldAtSource) { s with fcq := { s.fcq with waiting := [], heldAtSource := [] } }
  exact ⟨k, hk⟩

/-- In Lockdown an event only counts (R443). -/
theorem report_locked {s : State} (ev : Event) (h : s.fc.lock = true) : ∃ k, report ev s = { s with time := k } := by
  unfold report
  rw [if_pos h]
  split
  all_goals exact ⟨_, rfl⟩

theorem unknownOutcome_locked {s : State} (n : Nat) (h : s.fc.lock = true) : ∃ k, unknownOutcome n s = { s with time := k } := by
  obtain ⟨k, hk⟩ := report_locked (s := hcCount n 0 s)
    { cls := .f0, source := 0x17, unit := BitVec.ofNat 16 (0x7000 + n), cause := 0x0B,
      detail0 := BitVec.ofNat 64 (hcReg n 4),
      detail1 := BitVec.ofNat 64 (s.ks.cer.id.toNat * 2 ^ 32 + s.ks.cer.step % 16) } h
  exact ⟨k, hk⟩

theorem hcReset_locked {s : State} (n : Nat) (h : s.fc.lock = true) : ∃ k x, hcReset n s = { s with time := k, hc := x } := by
  have hcut : ∀ c : Prop, [Decidable c] → ∃ k, (if c then unknownOutcome n s else s) = { s with time := k } := by
    intro c _
    split
    · exact unknownOutcome_locked n h
    · exact ⟨_, rfl⟩
  obtain ⟨k, hk⟩ := hcut ((slotOf s n).busy ∧ (slotOf s n).outcomeCut s.time.ticks = 3)
  unfold hcReset
  dsimp only
  rw [hk]
  exact ⟨k, _, rfl⟩

/-! ### Lockdown (R443) -/

/-- The record that an F5 event leaves in FC_LOCK. -/
def lockRecord (w : Waiting) (s : State) : BitVec 512 :=
  recordOf s.fc.logHead w (s.fcq.lastGroup == some w.cycle) s.fc.snet s.fc.selfMark

/-- The state in Lockdown: what R443 scrubs, holds and stops, with what the record and the slots' reset leave of other blocks. -/
def lockedDown (s : State) (k : Time) (f : Collector) (q : CollectorQ) (b : Fabric) (p : Pcie) (x : Table Slot) : State :=
  { scrubCentral (holdCores s) with
    time := k, fc := f, fcq := { q with waiting := [], heldAtSource := [] }, fabric := b, pcie := p, hc := x
    rng := { s.rng with pool := [], keyV := 0 }
    boot := { s.boot with ringUp := 0 }
    net := { s.net with port := s.net.port.map (fun p => (p.1, { p.2 with link := false, tx := [] })) } }

/-- A live device that locks down. -/
theorem lockdownAs_live {s : State} (w : Waiting) (whole : Bool) (h : Live s) : ∃ k f q b p x,
    lockdownAs w whole s = lockedDown s k f q b p x ∧ f.lock = true ∧ f.lockRec = lockRecord w s := by
  unfold lockdownAs
  rw [if_neg (by simp [h])]
  dsimp only
  obtain ⟨k, f, q, b, p, hrec⟩ := writeRecord_frame w s
  obtain ⟨k', hdrain⟩ := drainWaiting_frame { s with time := k, fc := f, fcq := q, fabric := b, pcie := p }
  rw [hrec, hdrain]
  have hirq : ∀ u : State, ∃ p', (if (s.fc.irqEn && u.fcq.irqCycle != some u.time.cycle) = true then msix 513 u else u) =
      { u with pcie := p' } := by
    intro u
    split
    · exact msix_frame 513 u
    · exact ⟨_, rfl⟩
  obtain ⟨p', hp⟩ := hirq { s with time := k', fc := f, fcq := { q with waiting := [], heldAtSource := [] }, fabric := b, pcie := p }
  rw [hp]
  generalize hu : ({ (_ : State) with fc := _, rng := _, boot := _, net := _ } : State) = u
  have hlock : u.fc.lock = true := by rw [← hu]
  have hrecd : u.fc.lockRec = lockRecord w s := by rw [← hu]; rfl
  obtain ⟨k0, x0, h0⟩ := hcReset_locked 0 hlock
  obtain ⟨k1, x1, h1⟩ := hcReset_locked (s := { u with time := k0, hc := x0 }) 1 hlock
  rw [h0, h1]
  refine ⟨k1, u.fc, q, b, p', x1, ?_, hlock, hrecd⟩
  rw [← hu]
  rfl

/-- Settles O15: what the Lockdown of an F5 event scrubs, holds and stops, read off the state it leaves. -/
theorem lockdownClearsSecretsAndStopsTheDevice : Obligations.LockdownClearsSecretsAndStopsTheDevice := by
  intro s ev h hcls
  obtain ⟨k, f, q, b, p, x, heq, hlock, hrec⟩ := lockdownAs_live (stamped ev s) false h
  have hrun : Runs (.faultEvent ev) s (lockedDown s k f q b p x) :=
    congrArg Host.Outcome.next ((if_pos hcls).trans heq)
  refine ⟨_, hrun, hlock, hrec, rfl, rfl, rfl, rfl, rfl, rfl, rfl, rfl, rfl, rfl, rfl, rfl, rfl, ?_, ?_, rfl, rfl, rfl⟩
  · intro e he
    obtain ⟨c, -, rfl⟩ := List.mem_map.1 he
    rfl
  · intro e he
    obtain ⟨c, -, rfl⟩ := List.mem_map.1 he
    rfl

/-! ### The manager's accesses (R435–R438, R441) -/

theorem capturedNow_none {s : State} (h : ∀ k ∈ s.fcq.captured, k.cycle ≠ s.time.cycle) : capturedNow s = none := by
  unfold capturedNow
  cases hc : s.fcq.captured with
  | none => rfl
  | some k => simp [Option.filter, h k (by simp [hc])]

theorem capturedNow_some {s : State} {k : Captured} (hc : s.fcq.captured = some k) (h : k.cycle = s.time.cycle) :
    capturedNow s = some k := by
  simp [capturedNow, hc, Option.filter, h]

/-- The state of the collector once FC_MODE changes. -/
def modeChanged (m : Bool) (s : State) : State :=
  { s with fc := { s.fc with mode := m, sticky := 0, first := 0, firstValid := false, hq := [] } }

section
variable {s : State} (h : Writable s)
include h

theorem fcModeWrite_same {d : W32} (hd : d.getLsbD 0 = s.fc.mode) : Runs (.fcModeWrite d) s s :=
  congrArg Host.Outcome.next ((hostWrite_writable h).trans (if_pos hd))

theorem fcModeWrite_alone {d : W32} (hd : d.getLsbD 0 ≠ s.fc.mode) (hc : capturedNow s = none) :
    Runs (.fcModeWrite d) s (modeChanged (d.getLsbD 0) s) := by
  refine congrArg Host.Outcome.next ((hostWrite_writable h).trans ((if_neg hd).trans ?_))
  rw [hc]
  rfl

theorem fcModeWrite_captures {d : W32} {k : Captured} (hd : d.getLsbD 0 ≠ s.fc.mode) (hc : capturedNow s = some k) :
    Runs (.fcModeWrite d) s (capture k.source k.bytes (modeChanged (d.getLsbD 0) s)) := by
  refine congrArg Host.Outcome.next ((hostWrite_writable h).trans ((if_neg hd).trans ?_))
  rw [hc]
  rfl

theorem pop_runs : Runs .pop s (fcPop s) := congrArg Host.Outcome.next (hostWrite_writable h)

end

theorem fcPop_alone {s : State} (h : s.fc.mode = false ∨ capturedNow s = none) :
    fcPop s = { s with fc := { s.fc with hq := s.fc.hq.drop 1 } } := by
  have hnone : (if s.fc.mode = true then capturedNow s else none) = none := by
    obtain h | h := h <;> simp [h]
  unfold fcPop
  dsimp only
  rw [hnone]

theorem fcPop_captured {s : State} {k : Captured} (hm : s.fc.mode = true) (hc : capturedNow s = some k) : ∃ t q,
    fcPop s = { s with time := t, fcq := q, fc := { s.fc with
      hq := (if k.missed then s.fc.hq else s.fc.hq.dropLast).drop 1 ++ [k.bytes] } } := by
  unfold fcPop
  dsimp only
  rw [if_pos hm, hc]
  dsimp only
  cases k.missed
  all_goals exact ⟨_, _, rfl⟩

/-! ### Write-one-to-clear of the sticky bits (R13, R435) -/

/-- Of two halves of 32 bits laid side by side, the lower bits are the lower half and the upper bits the upper one. -/
theorem getLsbD_halves (a b k n : Nat) (hk : k < 2) (ha : a < 2 ^ 32) (hb : b < 2 ^ 32) (hn : n < 32) :
    (BitVec.ofNat 64 (a * 2 ^ (32 * k) + b * 2 ^ (32 * (1 - k)))).getLsbD (32 * k + n) = a.testBit n := by
  have hk : k = 0 ∨ k = 1 := by omega
  rw [BitVec.getLsbD_ofNat, decide_eq_true (by omega), Bool.true_and]
  obtain rfl | rfl := hk
  · rw [show a * 2 ^ (32 * 0) + b * 2 ^ (32 * (1 - 0)) = 2 ^ 32 * b + a by omega, Nat.testBit_two_pow_mul_add _ ha,
      if_pos (by omega), Nat.mul_zero, Nat.zero_add]
  · rw [show a * 2 ^ (32 * 1) + b * 2 ^ (32 * (1 - 1)) = 2 ^ 32 * a + b by omega, Nat.testBit_two_pow_mul_add _ hb,
      if_neg (by omega), show 32 * 1 + n - 32 = n by omega]

theorem testBit_field (n lo len i : Nat) : (field n lo len).testBit i = (decide (i < len) && n.testBit (lo + i)) := by
  rw [field, Nat.testBit_mod_two_pow, Nat.testBit_div_two_pow, Nat.add_comm]

theorem field_lt (n lo len : Nat) : field n lo len < 2 ^ len := Nat.mod_lt _ (Nat.two_pow_pos len)

theorem and_toNat_le (x y : W64) : (x &&& y).toNat ≤ x.toNat := by
  rw [BitVec.toNat_and]
  exact Nat.and_le_left

/-- Half k of the sticky bits once it is written: the bits written as 1 go, but for those set in this hub cycle. -/
def stickyHalf (k : Nat) (d : W32) (s : State) : W64 :=
  w1c (stickyReg k) (BitVec.ofNat 64 (field s.fc.sticky.toNat (32 * k) 32)) (d.setWidth 64) s

theorem stickyHalf_lt (k : Nat) (d : W32) (s : State) : (stickyHalf k d s).toNat < 2 ^ 32 := by
  refine Nat.lt_of_le_of_lt (and_toNat_le _ _) ?_
  rw [BitVec.toNat_ofNat]
  exact Nat.lt_of_le_of_lt (Nat.mod_le _ _) (field_lt _ _ _)

theorem testBit_stickyHalf (k : Nat) (d : W32) (s : State) {n : Nat} (hn : n < 32) : (stickyHalf k d s).toNat.testBit n =
    (s.fc.sticky.getLsbD (32 * k + n) && (!d.getLsbD n || (Table.get 0 s.time.setNow (stickyReg k)).getLsbD n)) := by
  have hcur : (BitVec.ofNat 64 (field s.fc.sticky.toNat (32 * k) 32)).getLsbD n = s.fc.sticky.getLsbD (32 * k + n) := by
    rw [BitVec.getLsbD_ofNat, testBit_field, decide_eq_true (by omega), decide_eq_true hn, Bool.true_and, Bool.true_and]
    rfl
  have hones : (~~~(d.setWidth 64)).getLsbD n = !d.getLsbD n := by
    rw [BitVec.getLsbD_not, BitVec.getLsbD_setWidth, decide_eq_true (by omega), Bool.true_and, Bool.true_and]
  rw [← BitVec.getLsbD, stickyHalf, w1c, BitVec.getLsbD_and, BitVec.getLsbD_or, hcur, hones]

/-- All sticky bits once half k is written. -/
def stickyAll (k : Nat) (d : W32) (s : State) : W64 := BitVec.ofNat 64
  ((stickyHalf k d s).toNat * 2 ^ (32 * k) + field s.fc.sticky.toNat (32 * (1 - k)) 32 * 2 ^ (32 * (1 - k)))

theorem getLsbD_stickyAll {k n : Nat} (d : W32) (s : State) (hk : k < 2) (hn : n < 32) :
    (stickyAll k d s).getLsbD (32 * k + n) = (stickyHalf k d s).toNat.testBit n :=
  getLsbD_halves _ _ k n hk (stickyHalf_lt k d s) (field_lt _ _ _) hn

theorem getLsbD_stickyAll_other {k n : Nat} (d : W32) (s : State) (hk : k < 2) (hn : n < 32) :
    (stickyAll k d s).getLsbD (32 * (1 - k) + n) = s.fc.sticky.getLsbD (32 * (1 - k) + n) := by
  have hback : 1 - (1 - k) = k := by omega
  have hhalf := getLsbD_halves (field s.fc.sticky.toNat (32 * (1 - k)) 32) (stickyHalf k d s).toNat (1 - k) n (by omega)
    (field_lt _ _ _) (stickyHalf_lt k d s) hn
  rw [hback] at hhalf
  rw [stickyAll, Nat.add_comm, hhalf, testBit_field, decide_eq_true hn, Bool.true_and]
  rfl

theorem fcStickyClear_runs {s : State} {k : Nat} (d : W32) (h : Writable s) (hk : k < 2) : Runs (.fcStickyClear k d) s
    { s with fc := { s.fc with sticky := stickyAll k d s, firstValid := s.fc.firstValid && stickyAll k d s != 0 } } :=
  congrArg Host.Outcome.next ((hostWrite_writable h).trans (if_neg (by omega)))

/-! ### Retirement, injection, and the collector's own errors -/

theorem faultInject_runs {s : State} (h : Writable s) (hm : s.lcs.st = 0) (hc : s.fc.injClass.toNat < 6)
    (hlo : 1 ≤ s.fc.injSource.toNat) (hhi : s.fc.injSource.toNat ≤ 0x21) : Runs .faultInject s
      { s with fcq := { s.fcq with injection := some (
        { cls := FaultClass.ofCode s.fc.injClass.toNat, source := s.fc.injSource.setWidth 8, unit := s.fc.injUnit,
          cause := s.fc.injCause }, s.fc.injAct) } } := by
  have hlegal : ¬ (s.lcs.st ≠ 0 ∨ 6 ≤ s.fc.injClass.toNat ∨ s.fc.injSource.toNat = 0 ∨ 0x22 ≤ s.fc.injSource.toNat) := by
    rintro (hst | hcls | hsrc | hsrc)
    · exact hst hm
    all_goals omega
  rw [← BitVec.ofNat_toNat]
  exact congrArg Host.Outcome.next ((hostWrite_writable h).trans (if_neg hlegal))

/-- Settles O16: each access by the guard it passes; the sticky bits by halves; an error that locks down by the state Lockdown leaves. -/
theorem collectorRegistersTakeAccesses : Obligations.CollectorRegistersTakeAccesses := by
  unfold Obligations.CollectorRegistersTakeAccesses
  refine ⟨⟨?_, ?_, fun s d h => fcModeWrite_same h, ?_, ?_, ?_, ?_, ?_, ?_, ?_, fun s h => faultInject_runs h, ?_⟩, ?_, ?_, ?_, ?_, ?_⟩
  · intro s h hs
    exact congrArg Host.Outcome.next ((hostWrite_writable h).trans (if_neg (by simp [hs])))
  · intro s h hs
    exact congrArg Host.Outcome.next ((hostWrite_writable h).trans (if_pos hs))
  · intro s d h hd
    exact ⟨fun hc => fcModeWrite_alone h hd (capturedNow_none hc), fun k hk hc => fcModeWrite_captures h hd (capturedNow_some hk hc)⟩
  · intro s h hc
    rw [← fcPop_alone (hc.imp_right capturedNow_none)]
    exact pop_runs h
  · intro s k h hm hk hc
    obtain ⟨t, q, ht⟩ := fcPop_captured hm (capturedNow_some hk hc)
    have hrun := pop_runs h
    rw [ht] at hrun
    exact ⟨_, hrun, rfl, hm, rfl, rfl⟩
  · intro s h
    exact congrArg Host.Outcome.next (hostWrite_writable h)
  · intro s u h hp hr
    exact congrArg Host.Outcome.next ((hostWrite_writable h).trans (if_pos ⟨hp, hr⟩))
  · intro s u h hu
    exact congrArg Host.Outcome.next ((hostWrite_writable h).trans (if_neg (by rintro ⟨hp, hr⟩; simp [hp, hr] at hu)))
  · intro s h
    exact congrArg Host.Outcome.next (unlessLocked_live h)
  · intro s h hm
    exact congrArg Host.Outcome.next ((hostWrite_writable h).trans (if_pos (.inl hm)))
  · intro s k d h hk
    exact ⟨_, fcStickyClear_runs d h hk, fun n hn => (getLsbD_stickyAll d s hk hn).trans (testBit_stickyHalf k d s hn),
      fun n hn => getLsbD_stickyAll_other d s hk hn, rfl, rfl, rfl, rfl, rfl⟩
  · intro s a hp
    exact congrArg Host.Outcome.next (if_pos ⟨hp, rfl⟩)
  · intro s a b h hb
    obtain ⟨k, f, q, m, p, x, heq, hlock, hrec⟩ := lockdownAs_live (stamped { cls := .f5, source := 0x1F, cause := 0x0E, addr := a } s) false h
    have hlocks : ¬ (s.dev.part = .kx512 ∧ b = false) := by
      rintro ⟨hp, rfl⟩
      simp [hp] at hb
    exact ⟨_, congrArg Host.Outcome.next ((if_neg hlocks).trans heq), hlock, hrec⟩
  · intro s p q h hh
    exact congrArg Host.Outcome.next ((unlessLocked_live h).trans (if_neg (by simp [hh])))
  · intro s p q h hh
    exact congrArg Host.Outcome.next ((unlessLocked_live h).trans (if_pos hh))

end Sys2Proof.Machine
end

section
/-!
SUPPORT. Writes of bytes to the act memories (R16, R18, R180): what a tagged write, a port's write in its turn and a core's store leave in
each byte, and which fields of State they move; the scalar stores; and the statement O22.
-/
namespace Sys2Proof.Machine

open Sys2Proof

/-! ### Bytes under tags -/

@[simp] theorem readByte_setLineTag (p q : Place) (t : Tag) (s : State) : readByte (setLineTag p t s) q = readByte s q := by
  cases p <;> cases q <;> rfl

/-- The tags of the lines of a write, before its bytes are written. -/
def tagLines (p : Place) (n : Nat) (t : Tag) (s : State) : State :=
  (lineNos p.key n).foldl (fun s j =>
    let q : Place := p.add (64 * j - p.key)
    if p.key ≤ 64 * j ∧ 64 * j + 64 ≤ p.key + n then setLineTag q t s
    else setLineTag q ((lineTag s q).lineJoin t) s) s

theorem writeTagged_eq (p : Place) (l : List Byte) (t : Tag) (s : State) :
    writeTagged p l t s = writeBytes p l (tagLines p l.length t s) := rfl

/-- What no write of a line's tag at a place of a memory moves, tagging the lines of a write moves not either. -/
theorem tagLines_keeps {α : Type} {g : State → α} {P : Place → Prop} {p : Place} (h : ∀ k t s, P (p.add k) → g (setLineTag (p.add k) t s) = g s)
    (hp : ∀ k, P (p.add k)) (n : Nat) (t : Tag) (s : State) : g (tagLines p n t s) = g s := by
  refine foldl_keeps g (fun s j => ?_) _ s
  dsimp only
  split
  all_goals exact h _ _ _ (hp _)

theorem readByte_tagLines (p q : Place) (n : Nat) (t : Tag) (s : State) : readByte (tagLines p n t s) q = readByte s q :=
  tagLines_keeps (g := fun s => readByte s q) (P := fun _ => True) (fun _ _ _ _ => readByte_setLineTag _ _ _ _) (fun _ => trivial) n t s

theorem readByte_writeTagged_outside (l : List Byte) (t : Tag) (p q : Place) (s : State) (h : q.outside p l.length) :
    readByte (writeTagged p l t s) q = readByte s q := by
  rw [writeTagged_eq, readByte_writeBytes_outside _ _ _ _ h, readByte_tagLines]

theorem readBytes_writeTagged (l : List Byte) (t : Tag) (p : Place) (s : State) : readBytes (writeTagged p l t s) p l.length = l :=
  readBytes_writeBytes l p _

/-! ### The two memories that a write at a place leaves alone -/

/-- A place of the central working space. -/
def Place.isWork : Place → Bool
  | .work _ => true
  | _ => false

@[simp] theorem Place.isWork_add (p : Place) (k : Nat) : (p.add k).isWork = p.isWork := by cases p <;> rfl

/-- What a write outside the working space never touches. -/
def restOfMem (s : State) : Table Byte × Table Byte := (s.mem.workMem, s.mem.loadWin)

theorem writeByte_rest {p : Place} (h : p.isWork = false) (b : Byte) (s : State) : restOfMem (writeByte p b s) = restOfMem s := by
  cases p with
  | work o => cases h
  | loc c o | ring r o => rfl

theorem setLineTag_rest (p : Place) (t : Tag) (s : State) : restOfMem (setLineTag p t s) = restOfMem s := by cases p <;> rfl

theorem writeBytes_rest {p : Place} (h : p.isWork = false) (l : List Byte) (s : State) : restOfMem (writeBytes p l s) = restOfMem s := by
  induction l generalizing p s with
  | nil => rfl
  | cons b l ih => rw [writeBytes, ih (by simpa using h), writeByte_rest h]

theorem writeTagged_rest {p : Place} (h : p.isWork = false) (l : List Byte) (t : Tag) (s : State) :
    restOfMem (writeTagged p l t s) = restOfMem s := by
  rw [writeTagged_eq, writeBytes_rest h]
  exact tagLines_keeps (P := fun _ => True) (fun _ _ _ _ => setLineTag_rest _ _ _) (fun _ => trivial) _ t s

/-! ### A port's write in its turn (R18) -/

/-- The byte at q is as it was, or as it was before the access. -/
def KeptOrOld (before : State) (q : Place) (s t : State) : Prop := readByte t q = readByte s q ∨ readByte t q = readByte before q

section
variable {before : State} {q : Place}

theorem KeptOrOld.of_eq {s t : State} (h : readByte t q = readByte s q) : KeptOrOld before q s t := .inl h

theorem KeptOrOld.trans {s t u : State} (h : KeptOrOld before q s t) (h' : KeptOrOld before q t u) : KeptOrOld before q s u := by
  obtain h' | h' := h'
  · exact h.imp (h'.trans ·) (h'.trans ·)
  · exact .inr h'

theorem KeptOrOld.foldl {β : Type} {f : State → β → State} (h : ∀ s b, KeptOrOld before q s (f s b)) (l : List β) (s : State) :
    KeptOrOld before q s (l.foldl f s) := by
  induction l generalizing s with
  | nil => exact .of_eq rfl
  | cons b l ih => exact (h s b).trans (ih _)

theorem readByte_eq_of_not_apart {x q : Place} (h : q.apart x = false) (s : State) : readByte s q = readByte s x := by
  cases x <;> cases q <;> simp_all [Place.apart, readByte]

theorem KeptOrOld.restore (x : Place) (s : State) : KeptOrOld before q s (writeByte x (readByte before x) s) := by
  cases hx : q.apart x with
  | true => exact .inl (readByte_writeByte_apart _ _ _ _ hx)
  | false => exact .inr (by rw [readByte_eq_of_not_apart hx, readByte_writeByte_same, readByte_eq_of_not_apart hx])

end

/-- The bytes of a line that ports whose turn comes later wrote, as they were. -/
def restoreLater (port j : Nat) (p : Place) (before s : State) : State :=
  (laterTurns before j port).foldl (fun s w => (List.range w.len).foldl
    (fun s k => writeByte ((p.lineStart j).add (w.off + k)) (readByte before ((p.lineStart j).add (w.off + k))) s) s) s

theorem keptOrOld_restoreLater (port j : Nat) (p q : Place) (before s : State) :
    KeptOrOld before q s (restoreLater port j p before s) :=
  .foldl (fun s _ => .foldl (fun s _ => .restore _ s) _ s) _ s

theorem readByte_lineInTurn (port j : Nat) (p q : Place) (n : Nat) (before s : State) :
    readByte (lineInTurn port j p n before s) q = readByte (restoreLater port j p before s) q := by
  unfold lineInTurn
  dsimp only
  split
  · rfl
  · split
    all_goals exact readByte_setLineTag _ _ _ (restoreLater port j p before s)

/-- What an access in its turn makes of a byte: what the port has written, or what stood there before. -/
theorem keptOrOld_inTurn (port : Nat) (p q : Place) (n : Nat) (before s : State) : KeptOrOld before q s (inTurn port p n before s) := by
  cases p with
  | loc c o | work o => exact .of_eq rfl
  | ring r o =>
    refine .foldl (fun s j => ?_) _ s
    rw [KeptOrOld, readByte_lineInTurn]
    exact keptOrOld_restoreLater port j _ q before s

theorem readByte_bankWrite_outside (port : Nat) (l : List Byte) (t : Tag) (p q : Place) (s : State) (h : q.outside p l.length) :
    readByte (bankWrite port p l t s) q = readByte s q := by
  obtain hk | ho := keptOrOld_inTurn port p q l.length s (writeTagged p l t s)
  · exact hk.trans (readByte_writeTagged_outside l t p q s h)
  · exact ho

/-- A byte depends on the memory alone. -/
theorem readByte_congr {s t : State} (h : s.mem = t.mem) (q : Place) : readByte s q = readByte t q := by
  unfold readByte
  rw [h]

theorem readBytes_congr {s t : State} (h : ∀ q, readByte s q = readByte t q) (p : Place) (n : Nat) : readBytes s p n = readBytes t p n := by
  simp only [readBytes, h]

/-- A port that is served last leaves what it has written. -/
theorem readBytes_bankWrite (port : Nat) (l : List Byte) (t : Tag) (p : Place) (s : State) (h : lastInTurn s port p l.length = true) :
    readBytes (bankWrite port p l t s) p l.length = l := by
  rw [bankWrite, readBytes_congr (readByte_congr (inTurn_last _ _ _ _ _ h)), readBytes_writeTagged]

theorem lineInTurn_rest (port j : Nat) {p : Place} (hp : p.isWork = false) (n : Nat) (before s : State) :
    restOfMem (lineInTurn port j p n before s) = restOfMem s := by
  have hstart : (p.lineStart j).isWork = false := by
    cases p with
    | work o => cases hp
    | loc c o | ring r o => rfl
  have hrestore : restOfMem (restoreLater port j p before s) = restOfMem s :=
    foldl_keeps restOfMem (fun s w => foldl_keeps restOfMem (fun s k => writeByte_rest (by simpa using hstart) _ s) _ s) _ s
  unfold lineInTurn
  dsimp only
  split
  · exact hrestore
  · split
    all_goals exact (setLineTag_rest _ _ _).trans hrestore

theorem bankWrite_rest (port : Nat) {p : Place} (hp : p.isWork = false) (l : List Byte) (t : Tag) (s : State) :
    restOfMem (bankWrite port p l t s) = restOfMem s := by
  have hwrite := writeTagged_rest hp l t s
  cases p with
  | loc c o | work o => exact hwrite
  | ring r o => exact (foldl_keeps restOfMem (fun s j => lineInTurn_rest port j hp _ _ s) _ _).trans hwrite

/-! ### Which fields a write moves -/

/-- What writes of bytes move of State: the memories, and the note of the banks' accesses. -/
def MemFrame (s t : State) : Prop := ∃ m b, t = { s with mem := m, fabric := b }

theorem MemFrame.refl (s : State) : MemFrame s s := ⟨_, _, rfl⟩

theorem MemFrame.trans {s t u : State} (h : MemFrame s t) (h' : MemFrame t u) : MemFrame s u := by
  obtain ⟨m, b, rfl⟩ := h
  obtain ⟨m', b', rfl⟩ := h'
  exact ⟨m', b', rfl⟩

theorem MemFrame.foldl {β : Type} {f : State → β → State} (h : ∀ s b, MemFrame s (f s b)) (l : List β) (s : State) :
    MemFrame s (l.foldl f s) := by
  induction l generalizing s with
  | nil => exact .refl s
  | cons b l ih => exact (h s b).trans (ih _)

theorem writeByte_memFrame (p : Place) (b : Byte) (s : State) : MemFrame s (writeByte p b s) := ⟨_, _, rfl⟩

theorem setLineTag_memFrame (p : Place) (t : Tag) (s : State) : MemFrame s (setLineTag p t s) := by
  cases p
  all_goals exact ⟨_, _, rfl⟩

theorem writeBytes_memFrame (p : Place) (l : List Byte) (s : State) : MemFrame s (writeBytes p l s) := by
  induction l generalizing p s with
  | nil => exact .refl s
  | cons b l ih => exact (writeByte_memFrame p b s).trans (ih _ _)

theorem writeTagged_memFrame (p : Place) (l : List Byte) (t : Tag) (s : State) : MemFrame s (writeTagged p l t s) := by
  refine MemFrame.trans (.foldl (fun s j => ?_) _ s) (writeBytes_memFrame p l _)
  dsimp only
  split
  all_goals exact setLineTag_memFrame _ _ _

theorem lineInTurn_memFrame (port j : Nat) (p : Place) (n : Nat) (before s : State) : MemFrame s (lineInTurn port j p n before s) := by
  have hnote : ∀ (t : State) (b : Fabric), MemFrame t { t with fabric := b } := fun t b => ⟨_, b, rfl⟩
  have hrestore : MemFrame s (restoreLater port j p before s) :=
    .foldl (fun s w => .foldl (fun s k => writeByte_memFrame _ _ s) _ s) _ s
  unfold lineInTurn
  dsimp only
  refine MemFrame.trans ?_ (hnote _ _)
  split
  · exact hrestore
  · split
    all_goals exact hrestore.trans (setLineTag_memFrame _ _ _)

theorem inTurn_memFrame (port : Nat) (p : Place) (n : Nat) (before s : State) : MemFrame s (inTurn port p n before s) := by
  cases p with
  | loc c o | work o => exact .refl s
  | ring r o => exact .foldl (fun s j => lineInTurn_memFrame _ _ _ _ _ s) _ s

theorem bankWrite_memFrame (port : Nat) (p : Place) (l : List Byte) (t : Tag) (s : State) : MemFrame s (bankWrite port p l t s) :=
  (writeTagged_memFrame p l t s).trans (inTurn_memFrame _ _ _ _ _)

/-! ### A core's store (R109) -/

/-- The core's record once the old bytes of a store are kept for the others. -/
def keepingOld (s : State) (c : Nat) (p : Place) (n : Nat) : CoreX := corex (keepOld c p n s) c

theorem keepOld_eq (c : Nat) (p : Place) (n : Nat) (s : State) : keepOld c p n s = setCorex c (keepingOld s c p n) s := by
  rw [keepingOld, keepOld, corex_setCorex]

/-- Of the core's record only what others still see moves. -/
theorem keepingOld_frame (s : State) (c : Nat) (p : Place) (n : Nat) : keepingOld s c p n =
    { corex s c with oldBytes := (keepingOld s c p n).oldBytes, oldTags := (keepingOld s c p n).oldTags } := by
  rw [keepingOld, keepOld, corex_setCorex]

/-- The old bytes that others see once byte j of a write is kept. -/
def noteOld (s : State) (p : Place) (t : Table (Option Byte)) (j : Nat) : Table (Option Byte) :=
  if (Table.get none t (p.add j).cell).isSome then t else Table.set none t (p.add j).cell (some (readByte s (p.add j)))

theorem Place.cell_add_inj {p : Place} {j k : Nat} (h : (p.add j).cell = (p.add k).cell) : j = k := by
  cases p <;> simp [Place.cell, Place.add, Place.key] at h <;> omega

theorem noteOld_keeps {s : State} {p : Place} {t : Table (Option Byte)} {j cell : Nat} {b : Byte} (h : Table.get none t cell = some b) :
    Table.get none (noteOld s p t j) cell = some b := by
  unfold noteOld
  split
  · exact h
  · next hnone =>
    rw [Table.get_set_other _ _ _ ?_, h]
    rintro rfl
    simp [h] at hnone

theorem noteOld_notes {s : State} {p : Place} {t : Table (Option Byte)} {k : Nat} (h : Table.get none t (p.add k).cell = none) :
    Table.get none (noteOld s p t k) (p.add k).cell = some (readByte s (p.add k)) := by
  rw [noteOld, if_neg (by simp [h]), Table.get_set_same]

theorem noteOld_other {s : State} {p : Place} {t : Table (Option Byte)} {j k : Nat} (h : j ≠ k) :
    Table.get none (noteOld s p t j) (p.add k).cell = Table.get none t (p.add k).cell := by
  unfold noteOld
  split
  · rfl
  · exact Table.get_set_other _ _ _ fun he => h (Place.cell_add_inj he).symm

/-- A byte that no store since the last FENCE has kept is kept as it was. -/
theorem keepingOld_byte (s : State) (c : Nat) (p : Place) {n k : Nat} (hk : k < n)
    (h : Table.get none (corex s c).oldBytes (p.add k).cell = none) :
    Table.get none (keepingOld s c p n).oldBytes (p.add k).cell = some (readByte s (p.add k)) := by
  have hkept : ∀ (l : List Nat) (t : Table (Option Byte)), Table.get none t (p.add k).cell = some (readByte s (p.add k)) →
      Table.get none (l.foldl (noteOld s p) t) (p.add k).cell = some (readByte s (p.add k)) := by
    intro l
    induction l with
    | nil => exact fun t ht => ht
    | cons j l ih => exact fun t ht => ih _ (noteOld_keeps ht)
  have hnoted : ∀ (l : List Nat) (t : Table (Option Byte)), k ∈ l → Table.get none t (p.add k).cell = none →
      Table.get none (l.foldl (noteOld s p) t) (p.add k).cell = some (readByte s (p.add k)) := by
    intro l
    induction l with
    | nil => exact fun t hl => nomatch hl
    | cons j l ih =>
      intro t hl ht
      by_cases hj : j = k
      · subst hj
        exact hkept l _ (noteOld_notes ht)
      · exact ih _ ((List.mem_cons.1 hl).resolve_left (Ne.symm hj)) ((noteOld_other hj).trans ht)
  rw [keepingOld, keepOld, corex_setCorex]
  exact hnoted (List.range n) _ (List.mem_range.2 hk) h

section
variable {c : Nat} (hc : c ≠ 256) (p : Place) (l : List Byte) (t : Tag) (s : State)
include hc

theorem coreStore_ring : coreStore c p l t s = bankWrite (c % 16) p l t (setCorex c (keepingOld s c p l.length) s) := by
  rw [coreStore, if_neg (by exact hc), keepOld_eq]

theorem coreStore_frame : ∃ m b, coreStore c p l t s =
    { setCorex c (keepingOld s c p l.length) s with mem := m, fabric := b } := by
  rw [coreStore_ring hc]
  exact bankWrite_memFrame _ p l t _

theorem readByte_coreStore_outside {q : Place} (h : q.outside p l.length) : readByte (coreStore c p l t s) q = readByte s q := by
  rw [coreStore_ring hc]
  exact readByte_bankWrite_outside _ l t p q _ h

theorem readBytes_coreStore (h : lastInTurn s (c % 16) p l.length = true) : readBytes (coreStore c p l t s) p l.length = l := by
  rw [coreStore_ring hc]
  refine readBytes_bankWrite _ l t p _ ?_
  cases p with
  | loc c o | work o => rfl
  | ring r o => exact h

theorem coreStore_rest (hp : p.isWork = false) : restOfMem (coreStore c p l t s) = restOfMem s := by
  rw [coreStore_ring hc]
  exact bankWrite_rest _ hp l t _

end

/-! ### The map of level A (R99–R101) -/

/-- An address that a ring core may write names a byte of its local memory or of its ring. -/
theorem actPlace_mem {s : State} {c a n : Nat} {p : Place} (h : actPlace s c a n = .mem p) :
    p = .loc c a ∨ p = .ring (ringOf c) (a - 0x1000000) := by
  unfold actPlace at h
  dsimp only at h
  repeat' split at h
  all_goals first | exact .inl (Where.mem.inj h).symm | exact .inr (Where.mem.inj h).symm | cases h

theorem place_ring {c : Nat} (hc : c ≠ 256) (s : State) (a n : Nat) : place s c a n = actPlace s c a n := if_neg hc

theorem place_mem_isWork {s : State} {c a n : Nat} {p : Place} (hc : c ≠ 256) (h : place s c a n = .mem p) : p.isWork = false := by
  rw [place_ring hc] at h
  obtain rfl | rfl := actPlace_mem h
  all_goals rfl

theorem memPlace_of_mem {s : State} {c a n : Nat} {p : Place} (w : Bool) (h : place s c a n = .mem p) : memPlace s c a n w = .ok p := by
  rw [memPlace, h]

/-! ### Scalar stores (R108, R177, R178) -/

/-- A store that a place of an act memory takes. -/
theorem storeAt_mem {s : State} {c n : Nat} {a : W64} {p : Place} {t : Tag} {x : Core} (v : W64) (hp : place s c a.toNat n = .mem p)
    (ht : t.isShare = false) (hl : ∀ l ∈ lineTags s p n, (l.join t).isSome = true) (ha : a.toNat % n = 0 ∨ x.compat = true) :
    storeAt c a n v t x s = .ok (coreStore c p (bytesOf v.toNat n) t s) (x.pc + 4) := by
  have hjoin : (lineTags s p n).any (fun l => (l.join t).isNone) = false := by
    rw [List.any_eq_false]
    intro l hmem
    rw [Bool.not_eq_true, Option.isNone_eq_false_iff]
    exact hl l hmem
  have haligned : ¬ (a.toNat % n ≠ 0 ∧ x.compat = false) := by
    rintro ⟨h, hx⟩
    simp [h, hx] at ha
  simp only [storeAt, hp, memPlace_of_mem true hp, ht, hjoin, Bool.or_self, Bool.false_eq_true, if_false, if_neg haligned]

theorem storeAt_untaken {s : State} {c n : Nat} {a : W64} {p : Place} {t : Tag} (v : W64) (x : Core) (hp : place s c a.toNat n = .mem p)
    (h : t.isShare = true ∨ ∃ l ∈ lineTags s p n, l.join t = none) : storeAt c a n v t x s = .exc cTagged 0 := by
  have huntaken : (t.isShare || (lineTags s p n).any (fun l => (l.join t).isNone)) = true := by
    obtain h | ⟨l, hl, hj⟩ := h
    · simp [h]
    · rw [Bool.or_eq_true, List.any_eq_true]
      exact .inr ⟨l, hl, by simp [hj]⟩
  simp only [storeAt, hp, memPlace_of_mem true hp, huntaken, if_true]

/-- A store of the management pair to its working memory. -/
theorem storeAt_work {s : State} {n : Nat} {a : W64} {t : Tag} {x : Core} (v : W64) (ht : t.isShare = false) (ha : a.toNat % n = 0)
    (hlo : 0x10000000 ≤ a.toNat) (hhi : a.toNat + n ≤ 0x103C0000) :
    storeAt 256 a n v t x s = .ok (writeTagged (.work (a.toNat - 0x10000000)) (bytesOf v.toNat n) t s) (x.pc + 4) := by
  have hrom : inside a.toNat n 0 0x10000 = false := by simp [inside]; omega
  have hcsr : inside a.toNat n 0xF000000 0x8000 = false := by simp [inside]; omega
  have hwork : inside a.toNat n 0x10000000 0x3C0000 = true := by simp [inside]; omega
  have hp : place s 256 a.toNat n = .work (a.toNat - 0x10000000) := by
    rw [place, if_pos (show 256 = mgmtCore from rfl), fwPlace, if_neg (by simp [hrom]), if_neg (by simp [hcsr]), if_pos hwork]
  have hm : memPlace s 256 a.toNat n true = .error (BitVec.ofNat 64 a.toNat) := by
    rw [memPlace, hp]
    rfl
  have hstore : coreStore 256 (.work (a.toNat - 0x10000000)) (bytesOf v.toNat n) t s =
      writeTagged (.work (a.toNat - 0x10000000)) (bytesOf v.toNat n) t s := rfl
  simp only [storeAt, hp, hm, ht, Bool.or_self, Bool.false_eq_true, if_false, ha, ne_eq, not_true, false_and, hstore]

theorem bodyStore_public {w : W32} {x : Core} (c : Nat) (s : State) (h : x.tagG (fA w) = .pub) : bodyStore c w x s =
    storeAt c (x.rg (fA w) + sImm w) (2 ^ (opcode w - 0x18)) (x.rg (fD w)) (x.tagG (fD w)) x s :=
  if_neg (by simp [h])

/-! ### Accesses of one hub cycle to one line (R16, R18) -/

/-- What one element of a walk brings about, and every element keeps, holds at the walk's end. -/
theorem foldl_reaches {β : Type} {P : State → Prop} {f : State → β → State} {l : List β} {b : β} (hb : b ∈ l) (hf : ∀ s, P (f s b))
    (hk : ∀ s x, P s → P (f s x)) (s : State) : P (l.foldl f s) := by
  have hkeep : ∀ (l : List β) (s : State), P s → P (l.foldl f s) := by
    intro l
    induction l with
    | nil => exact fun s hs => hs
    | cons x l ih => exact fun s hs => ih _ (hk s x hs)
  induction l generalizing s with
  | nil => cases hb
  | cons x l ih =>
    obtain rfl | hb := List.mem_cons.1 hb
    · exact hkeep l _ (hf s)
    · exact ih hb _

theorem KeptOrOld.old {before s t : State} {q : Place} (h : KeptOrOld before q s t) (hs : readByte s q = readByte before q) :
    readByte t q = readByte before q := h.elim (·.trans hs) id

/-- Where the line of ring memory begins that a write touches. -/
theorem lineStart_ring {r o n j : Nat} (h : j ∈ lineNos (Place.ring r o).key n) :
    (Place.ring r o).lineStart j = .ring r (64 * j - r * 2 ^ 22) := by
  unfold lineNos at h
  split at h
  · cases h
  · obtain ⟨i, -, rfl⟩ := List.mem_map.1 h
    simp only [Place.lineStart, Place.key, Place.add, Place.ring.injEq, true_and]
    omega

/-- A byte that a port of a later turn wrote stands after an earlier port's write, whose command came after. -/
theorem readByte_bankWrite_later {s : State} {port r o k : Nat} {b : List Byte} (g : Tag) {w : BankWrite} (hw : w ∈ s.fabric.bankNow)
    (hk : k < w.len) (hl : w.line ∈ lineNos (Place.ring r o).key b.length) (ht : turnOf s w.line port < turnOf s w.line w.port) :
    readByte (bankWrite port (.ring r o) b g s) (.ring r (64 * w.line - r * 2 ^ 22 + w.off + k)) =
      readByte s (.ring r (64 * w.line - r * 2 ^ 22 + w.off + k)) := by
  generalize hq : Place.ring r (64 * w.line - r * 2 ^ 22 + w.off + k) = q
  have hplace : ((Place.ring r o).lineStart w.line).add (w.off + k) = q := by
    rw [lineStart_ring hl, ← hq]
    simp [Place.add, Nat.add_assoc]
  have hlater : w ∈ laterTurns s w.line port := by simp [laterTurns, hw, ht]
  refine foldl_reaches (P := fun t => readByte t q = readByte s q) hl (fun t => ?_) (fun t j h => ?_) _
  · rw [readByte_lineInTurn]
    refine foldl_reaches (P := fun t => readByte t q = readByte s q) hlater (fun t => ?_) (fun t w h => ?_) _
    · refine foldl_reaches (P := fun t => readByte t q = readByte s q) (List.mem_range.2 hk) (fun t => ?_) (fun t k h => ?_) _
      · rw [hplace, readByte_writeByte_same]
      · exact (KeptOrOld.restore _ t).old h
    · exact (KeptOrOld.foldl (fun t _ => .restore _ t) _ t).old h
  · rw [readByte_lineInTurn]
    exact (keptOrOld_restoreLater port j _ q s t).old h

/-- One access alone leaves its bank's pointer behind its port. -/
theorem turnsPass_one {s : State} {w : BankWrite} (hw : s.fabric.bankNow = [w]) (hp : w.port < 27) :
    (turnsPass s).fabric.bankTurn = Table.set 0 s.fabric.bankTurn (bankOf w.line) ((w.port + 1) % 27) := by
  have hset : Table.set 27 [] (bankOf w.line) w.port = [(bankOf w.line, w.port)] := by
    rw [Table.set, if_neg (by omega)]
    rfl
  simp [turnsPass, hw, Table.get, crossbarPorts, hset]

/-! ### What a completed instruction of a ring core leaves -/

/-- Core c of s has gone on to pc with its g registers as they were; the rest of its record, the memories and the fabric are these. -/
def wentOn (s : State) (c : Nat) (pc : W64) (n : Nat) (f : Option Nat) (y : CoreX) (m : Memory) (b : Fabric) : State :=
  { setCore c { core s c with pc := pc, instret := (core s c).instret + 1, stalled := n, stallFrom := f } (setCorex c y s) with
    mem := m, fabric := b }

section
variable (s : State) (c : Nat) (pc : W64) (n : Nat) (f : Option Nat) (y : CoreX) (m : Memory) (b : Fabric)

theorem core_wentOn : core (wentOn s c pc n f y m b) c =
    { core s c with pc := pc, instret := (core s c).instret + 1, stalled := n, stallFrom := f } := core_setCore _ _ _

theorem core_wentOn_other {d : Nat} (h : d ≠ c) : core (wentOn s c pc n f y m b) d = core s d := core_setCore_other _ _ _ _ h

@[simp] theorem corex_wentOn : corex (wentOn s c pc n f y m b) c = y := corex_setCorex _ _ _

theorem corex_wentOn_other {d : Nat} (h : d ≠ c) : corex (wentOn s c pc n f y m b) d = corex s d := corex_setCorex_other _ _ _ _ h

@[simp] theorem pc_wentOn : (core (wentOn s c pc n f y m b) c).pc = pc := by rw [core_wentOn]

theorem rg_wentOn (r : Nat) : (core (wentOn s c pc n f y m b) c).rg r = (core s c).rg r ∧
    (core (wentOn s c pc n f y m b) c).tagG r = (core s c).tagG r := by
  rw [core_wentOn]
  exact ⟨rfl, rfl⟩

@[simp] theorem mem_wentOn : (wentOn s c pc n f y m b).mem = m := rfl
@[simp] theorem tickets_wentOn : (wentOn s c pc n f y m b).tickets = s.tickets := rfl
@[simp] theorem mgmt_wentOn : (wentOn s c pc n f y m b).mgmt = s.mgmt := rfl
@[simp] theorem fc_wentOn : (wentOn s c pc n f y m b).fc = s.fc := rfl
@[simp] theorem fcq_wentOn : (wentOn s c pc n f y m b).fcq = s.fcq := rfl

end

/-- An instruction of a ring core whose effect is a new record beside its registers, and writes of bytes. -/
theorem after_wentOn {s t : State} {c : Nat} {y : CoreX} (hc : c ≠ 256) (h : MemFrame (setCorex c y s) t) (pc : W64) :
    ∃ n f b, after c s t pc = wentOn s c pc n f y t.mem b := by
  obtain ⟨n, f, hu⟩ := after_ring s t pc hc
  obtain ⟨m, b, rfl⟩ := h
  exact ⟨n, f, b, hu⟩

/-! ### The statement -/

/-- Settles O22: a store through what its write leaves in each byte, the turns by the accesses they put back, and the causes by the check that
finds them. -/
theorem storesChangeOnlyTheirBytes : Obligations.StoresChangeOnlyTheirBytes := by
  unfold Obligations.StoresChangeOnlyTheirBytes
  refine ⟨?_, fun s port r o b g w k hw hk hl ht => readByte_bankWrite_later g hw hk hl ht, ?_, ?_, ?_, ?_, ?_⟩
  · intro s c w p hi hc ha hd n a hp hl hal hlast
    have hrun := store_runs.completes hi ((bodyStore_public c s ha).trans (storeAt_mem ((core s c).rg (fD w)) hp hd hl hal))
    have hlen : (bytesOf ((core s c).rg (fD w)).toNat n).length = n := bytesOf_length _ _
    generalize bytesOf ((core s c).rg (fD w)).toNat n = b at hrun hlen ⊢
    generalize (core s c).tagG (fD w) = g at hrun
    obtain ⟨k, f, fb, hu⟩ := after_wentOn hc (coreStore_frame hc p b g s) ((core s c).pc + 4)
    have hrest := coreStore_rest hc p b g s (place_mem_isWork hc hp)
    have hbytes : ∀ q, readByte (after c s (coreStore c p b g s) ((core s c).pc + 4)) q = readByte (coreStore c p b g s) q :=
      readByte_congr (by rw [hu, mem_wentOn])
    refine ⟨_, hrun, ?_, fun q hq => ?_, ?_⟩
    · rw [readBytes_congr hbytes, ← hlen]
      exact readBytes_coreStore hc p b g s (by rwa [hlen])
    · rw [hbytes]
      exact readByte_coreStore_outside hc p b g s (by rw [hlen]; exact outside_of_apart hq)
    · rw [hu, corex_wentOn]
      refine ⟨congrArg Prod.fst hrest, congrArg Prod.snd hrest, fun r => rg_wentOn .., pc_wentOn .., fun d hcd =>
        ⟨core_wentOn_other _ _ _ _ _ _ _ _ hcd, corex_wentOn_other _ _ _ _ _ _ _ _ hcd⟩, keepingOld_frame _ _ _ _,
        fun j hj hnone => ?_, tickets_wentOn .., mgmt_wentOn .., fc_wentOn .., fcq_wentOn ..⟩
      rw [hlen]
      exact keepingOld_byte s c p hj hnone
  · intro s w hw hp
    rw [turnsPass_one hw hp]
    exact ⟨Table.get_set_same _ _ _ _, fun b hb => Table.get_set_other _ _ _ hb⟩
  · intro s w hi ha hd n a hal hlo hhi
    exact store_runs.completes hi ((bodyStore_public 256 s ha).trans (storeAt_work _ hd hal hlo hhi))
  · refine store_runs.raises fun c w s ⟨ha, hm⟩ => ?_
    have hlegal : storeIllegal c ((core s c).rg (fA w) + sImm w) (2 ^ (opcode w - 0x18)) ((core s c).rg (fD w)) ((core s c).tagG (fD w))
        (core s c) s = false := by
      unfold storeIllegal
      split
      · next m he => exact absurd he (hm m)
      · rfl
    rw [bodyStore]
    simp only [ne_eq, ha, not_false_eq_true, if_true, hlegal, Bool.false_eq_true, if_false]
    rfl
  · refine load_runs.raises fun c w s ⟨_, ha, m, v, hm, he⟩ => ?_
    have hillegal : loadIllegal c ((core s c).rg (fA w) + sImm w) (loadForm (opcode w)).1 (core s c) s = true := by
      rw [loadIllegal, hm]
      dsimp only
      rw [he]
      rfl
    rw [bodyLoad]
    simp only [ne_eq, ha, not_false_eq_true, if_true, hillegal]
    rfl
  · refine store_runs.raises fun c w s ⟨hc, ha, p, hp, hu⟩ => ?_
    exact (bodyStore_public c s ha).trans (storeAt_untaken _ _ hp hu)

end Sys2Proof.Machine
end

section
/-!
SUPPORT. Vector registers (R130–R133): the elements of a register built from them, predicates, what a write of one register leaves alone,
and what an instruction that writes vector and predicate registers only leaves of the machine.
-/
namespace Sys2Proof.Machine

open Sys2Proof

/-! ### Elements (R130) -/

/-- The number that elements of w bits spell, the first lowest. -/
def spell (w cnt : Nat) (f : Nat → Nat) : Nat := (List.range cnt).foldl (fun a e => a + f e % 2 ^ w * 2 ^ (w * e)) 0

theorem spell_succ (w cnt : Nat) (f : Nat → Nat) : spell w (cnt + 1) f = spell w cnt f + f cnt % 2 ^ w * 2 ^ (w * cnt) := by
  rw [spell, List.range_succ, List.foldl_append]
  rfl

theorem spell_lt (w cnt : Nat) (f : Nat → Nat) : spell w cnt f < 2 ^ (w * cnt) := by
  induction cnt with
  | zero => simp [spell]
  | succ cnt ih =>
    have hd := Nat.mod_lt (f cnt) (Nat.two_pow_pos w)
    calc spell w (cnt + 1) f = spell w cnt f + f cnt % 2 ^ w * 2 ^ (w * cnt) := spell_succ w cnt f
      _ < 2 ^ (w * cnt) + f cnt % 2 ^ w * 2 ^ (w * cnt) := Nat.add_lt_add_right ih _
      _ = (f cnt % 2 ^ w + 1) * 2 ^ (w * cnt) := by rw [Nat.succ_mul, Nat.add_comm]
      _ ≤ 2 ^ w * 2 ^ (w * cnt) := Nat.mul_le_mul_right _ hd
      _ = 2 ^ (w * (cnt + 1)) := by rw [← Nat.pow_add, Nat.mul_succ, Nat.add_comm]

/-- Element e of the number is what was spelled there. -/
theorem field_spell {w cnt e : Nat} (f : Nat → Nat) (he : e < cnt) : field (spell w cnt f) (w * e) w = f e % 2 ^ w := by
  induction cnt with
  | zero => omega
  | succ cnt ih =>
    rw [spell_succ, field]
    obtain rfl | hlt := Nat.eq_or_lt_of_le (Nat.lt_succ_iff.1 he)
    · rw [Nat.add_mul_div_right _ _ (Nat.two_pow_pos _), Nat.div_eq_of_lt (spell_lt w e f), Nat.zero_add, Nat.mod_mod]
    · obtain ⟨k, rfl⟩ : ∃ k, cnt = e + 1 + k := ⟨cnt - (e + 1), by omega⟩
      have hsplit : f (e + 1 + k) % 2 ^ w * 2 ^ (w * (e + 1 + k)) = 2 ^ w * (f (e + 1 + k) % 2 ^ w * 2 ^ (w * k)) * 2 ^ (w * e) := by
        rw [show w * (e + 1 + k) = w + w * k + w * e by rw [Nat.mul_add, Nat.mul_add, Nat.mul_one]; omega, Nat.pow_add, Nat.pow_add]
        ac_rfl
      rw [hsplit, Nat.add_mul_div_right _ _ (Nat.two_pow_pos _), Nat.add_mul_mod_self_left]
      exact ih hlt

theorem elem_lt {n : Nat} (x : BitVec n) (w e : Nat) : elem x w e < 2 ^ w := field_lt _ _ _

theorem ofElems_eq (n w cnt : Nat) (f : Nat → Nat) : ofElems n w cnt f = BitVec.ofNat n (spell w cnt f) := rfl

theorem elem_ofElems {n w cnt e : Nat} (f : Nat → Nat) (he : e < cnt) (hn : w * cnt ≤ n) : elem (ofElems n w cnt f) w e = f e % 2 ^ w := by
  rw [elem, ofElems_eq, BitVec.toNat_ofNat,
    Nat.mod_eq_of_lt (Nat.lt_of_lt_of_le (spell_lt w cnt f) (Nat.pow_le_pow_right (by decide) hn)), field_spell f he]

/-- The elements of a width fill a register. -/
theorem ewBits_mul_ewCount (w : W32) : ewBits (vEw w) * ewCount (vEw w) = 1024 := by
  have h : vEw w < 4 := field_lt _ _ _
  have h4 : vEw w = 0 ∨ vEw w = 1 ∨ vEw w = 2 ∨ vEw w = 3 := by omega
  obtain h | h | h | h := h4 <;> rw [h] <;> rfl

theorem ewCount_le (w : W32) : ewCount (vEw w) ≤ 128 := Nat.div_le_self _ _

theorem elem_merge {w : W32} {e : Nat} (pg : BitVec 128) (z : Bool) (old : BitVec 1024) (f : Nat → Nat) (he : e < ewCount (vEw w)) :
    elem (merge (ewBits (vEw w)) (ewCount (vEw w)) pg z old f) (ewBits (vEw w)) e =
      if pg.getLsbD e then f e % 2 ^ ewBits (vEw w) else if z then 0 else elem old (ewBits (vEw w)) e := by
  rw [merge, elem_ofElems _ he (Nat.le_of_eq (ewBits_mul_ewCount w))]
  unfold bit
  split
  · rfl
  · split
    · exact Nat.zero_mod _
    · exact Nat.mod_eq_of_lt (elem_lt _ _ _)

/-! ### Predicates (R132) -/

theorem getLsbD_predOf {cnt : Nat} (f : Nat → Bool) (hcnt : cnt ≤ 128) (e : Nat) :
    (predOf cnt f).getLsbD e = (decide (e < cnt) && f e) := by
  have hbits : ∀ cnt, (List.range cnt).foldl (fun a e => a + b2n (f e) * 2 ^ e) 0 = spell 1 cnt (fun e => b2n (f e)) := by
    intro cnt
    induction cnt with
    | zero => rfl
    | succ cnt ih =>
      rw [spell_succ, List.range_succ, List.foldl_append, ih]
      cases hf : f cnt
      all_goals simp [b2n, hf]
  have hlt : spell 1 cnt (fun e => b2n (f e)) < 2 ^ cnt := by simpa using spell_lt 1 cnt (fun e => b2n (f e))
  rw [predOf, hbits, BitVec.getLsbD_ofNat]
  by_cases he : e < cnt
  · have hfield := field_spell (w := 1) (fun e => b2n (f e)) he
    rw [decide_eq_true (by omega), decide_eq_true he, Bool.true_and, Bool.true_and, Nat.testBit_eq_decide_div_mod_eq]
    simp only [field, Nat.one_mul, Nat.pow_one] at hfield
    rw [hfield]
    cases f e <;> rfl
  · rw [decide_eq_false he, Bool.false_and,
      Nat.testBit_lt_two_pow (Nat.lt_of_lt_of_le hlt (Nat.pow_le_pow_right (by decide) (by omega))), Bool.and_false]

/-! ### One register written -/

section
variable (u : VecUnit) (r : Nat) (x : BitVec 1024) (t : Tag)

@[simp] theorem rv_wv_same : (u.wv r x t).rv r = x := Table.get_set_same _ _ _ _
@[simp] theorem tagV_wv_same : (u.wv r x t).tagV r = t := Table.get_set_same _ _ _ _
theorem rv_wv_other {j : Nat} (h : j ≠ r) : (u.wv r x t).rv j = u.rv j := Table.get_set_other _ _ _ h
theorem tagV_wv_other {j : Nat} (h : j ≠ r) : (u.wv r x t).tagV j = u.tagV j := Table.get_set_other _ _ _ h

end

@[simp] theorem predTag_isShare (b : Bool) : (predTag b).isShare = false := by cases b <;> rfl

/-! ### What a vector instruction leaves of the machine -/

/-- An instruction of a ring core that answers a new record of its units and perhaps takes a free value. -/
theorem vectorFrame_after {s : State} {c : Nat} {y : CoreX} (hc : c ≠ 256) (hdma : y.dma = (corex s c).dma) (hdcl : y.dcl = (corex s c).dcl)
    (k : Nat) : VectorFrame c s (after c s { setCorex c y s with fresh := k } ((core s c).pc + 4)) ∧
      corex (after c s { setCorex c y s with fresh := k } ((core s c).pc + 4)) c = y := by
  obtain ⟨n, f, hu⟩ := after_ring s { setCorex c y s with fresh := k } ((core s c).pc + 4) hc
  rw [hu]
  generalize hx : ({ core { setCorex c y s with fresh := k } c with
    pc := (core s c).pc + 4, instret := (core { setCorex c y s with fresh := k } c).instret + 1, stalled := n, stallFrom := f } : Core) = x
  have hpc : x.pc = (core s c).pc + 4 := by rw [← hx]
  have hg : ∀ r, x.rg r = (core s c).rg r ∧ x.tagG r = (core s c).tagG r := by
    rw [← hx]
    exact fun r => ⟨rfl, rfl⟩
  have hy : corex (setCore c x { setCorex c y s with fresh := k }) c = y := corex_setCorex s c y
  refine ⟨⟨?_, ?_, fun d hd => ⟨core_setCore_other s c d x hd, corex_setCorex_other s c d y hd⟩, rfl, rfl, rfl, rfl, rfl, ?_, ?_⟩, hy⟩
  · rw [core_setCore, hpc]
  · rw [core_setCore]
    exact hg
  · rw [hy, hdma]
  · rw [hy, hdcl]

/-- Opcodes 0x38 to 0x3F. -/
def Klass.vector : Klass → Bool
  | .vecAlu | .vecMod | .vecReduce | .vecGf | .vsxor | .vsand | .vsadd | .vsmmul | .vsref | .vsa2b | .vsb2a
  | .vecPred | .vfence | .vld | .vlds | .vldx | .vst | .vsts | .vstx | .firstFault => true
  | _ => false

/-- The class of a word of opcode 0x3D (R140). -/
def tripleKlass : Nat → Klass
  | 0 => .vsxor | 1 => .vsand | 2 => .vsadd | 3 => .vsmmul | 4 => .vsref | 5 => .vsa2b | 6 => .vsb2a | _ => .illegal

/-- The class of a word of opcode 0x3E (R142, R150). -/
def memoryKlass (mode : Nat) (ff : Bool) : Klass :=
  match mode with
  | 0 => if ff then .firstFault else .vld
  | 1 => if ff then .firstFault else .vlds
  | 2 => if ff then .firstFault else .vldx
  | 4 => .vst | 5 => .vsts | 6 => .vstx | _ => .illegal

/-- The class of a word by its opcode, as far as vector words go. -/
theorem klass_cases {w : W32} {motive : Klass → Prop} (scalar : ∀ k, k.vector = false → motive k)
    (alu : opcode w = 0x38 ∨ opcode w = 0x39 → motive .vecAlu)
    (other : 0x38 ≤ opcode w → ∀ k ∈ [Klass.vecMod, .vecReduce, .vecGf, .vecPred, .vfence], motive k)
    (triple : 0x38 ≤ opcode w → motive (tripleKlass (vFunct w)))
    (memory : 0x38 ≤ opcode w → motive (memoryKlass (vMode w) (bit w 5))) : motive (klass w) := by
  have hsystem : ∀ n : Nat, (match n with
      | 1 => Klass.exit | 2 => .wait | 3 => .fence | 4 => .tret | 5 => .brk | 6 => .iret
      | 8 => .keyget | 9 => .formget | 10 => .formput | _ => .illegal).vector = false := by
    intro n
    split <;> rfl
  unfold klass
  dsimp only
  repeat' refine iteInduction (fun _ => ?_) (fun _ => ?_)
  all_goals first
    | exact scalar _ rfl | exact scalar _ (hsystem _) | exact alu ‹_› | exact triple (by omega) | exact memory (by omega)
    | exact other (by omega) _ (by decide)

theorem klass_not_vector {w : W32} (h : opcode w < 0x38) : (klass w).vector = false := by
  refine klass_cases (fun _ hk => hk) (fun _ => ?_) (fun _ => ?_) (fun _ => ?_) (fun _ => ?_)
  all_goals omega

theorem isVector_of_klass {w : W32} (h : (klass w).vector = true) : isVector w = true := by
  refine Decidable.byContradiction fun hv => ?_
  rw [klass_not_vector (by simpa [isVector] using hv)] at h
  cases h

/-- A vector word issues on a ring core (R104). -/
theorem Issues.ring {k : Klass} {c : Nat} {w : W32} {s : State} (h : Issues k c w s) (hk : k.vector = true) : c ≠ 256 := by
  obtain ⟨rfl, -, hm, -⟩ := h
  exact fun hc => hm ⟨hc, isVector_of_klass hk⟩

/-- What a word leaves that writes vector and predicate registers only. -/
theorem vectorFrame_retV {s : State} {c : Nat} (hc : c ≠ 256) (u : VecUnit) :
    VectorFrame c s (after c s (setVec c u s) ((core s c).pc + 4)) ∧ vec (after c s (setVec c u s) ((core s c).pc + 4)) c = u := by
  obtain ⟨hf, hy⟩ := vectorFrame_after (s := s) (y := { corex s c with vec := u }) hc rfl rfl s.fresh
  exact ⟨hf, congrArg CoreX.vec hy⟩

end Sys2Proof.Machine
end

section
/-!
SUPPORT. Element-wise vector arithmetic, predicates and moves (R136, R141, R147).
-/
namespace Sys2Proof.Machine

open Sys2Proof

theorem vecAlu_runs : RowRuns .vecAlu .vecAlu bodyVecAlu := fun _ _ _ => rfl
theorem vecPred_runs : RowRuns .vecPred .vecPred bodyVecPred := fun _ _ _ => rfl
theorem vfence_runs : RowRuns .vfence .vfence (fun _ => bodyVfence) := fun _ _ _ => rfl

/-- A word that writes vector and predicate registers only. -/
theorem RowRuns.vectorWrites {mk : Nat → W32 → Instr} {k : Klass} {body : Nat → W32 → Core → State → IRes} (hr : RowRuns mk k body)
    {s : State} {c : Nat} {w : W32} {u : VecUnit} (hi : Issues k c w s) (hk : k.vector = true)
    (hb : body c w (core s c) s = retV c (core s c) s u) : ∃ t, Runs (mk c w) s t ∧ VectorFrame c s t ∧ vec t c = u := by
  obtain ⟨hf, hu⟩ := vectorFrame_retV (hi.ring hk) u
  exact ⟨_, hr.completes hi hb, hf, hu⟩

theorem any_isShare_ite {p : Prop} [Decidable p] {t : Tag} (h : t.isShare = false) :
    (if p then [t] else []).any Tag.isShare = false := by
  split
  · simp [h]
  · rfl

/-! ### Element-wise operations (R136) -/

/-- The second operand of element e: an element of b, or the scalar's low bits. -/
def secondOperand (s : State) (c : Nat) (w : W32) (e : Nat) : Nat :=
  if opcode w = 0x39 then ((core s c).rg (fB w)).toNat % 2 ^ ewBits (vEw w) else elem ((vec s c).rv (fB w)) (ewBits (vEw w)) e

theorem secondOperand_lt (s : State) (c : Nat) (w : W32) (e : Nat) : secondOperand s c w e < 2 ^ ewBits (vEw w) := by
  unfold secondOperand
  split
  · exact Nat.mod_lt _ (Nat.two_pow_pos _)
  · exact elem_lt _ _ _

theorem bodyVecAlu_elementwise {s : State} {c f : Nat} {w : W32} {g : Nat → Nat → Nat → Nat} (hf : vFunct w = f)
    (hg : ∀ wd a b, vecElem f wd a b = some (g wd a b)) (ha : ((vec s c).tagV (fA w)).isShare = false)
    (hb : (if opcode w = 0x39 then (core s c).tagG (fB w) else (vec s c).tagV (fB w)).isShare = false)
    (hd : ((vec s c).tagV (fD w)).isShare = false) :
    ∃ t, bodyVecAlu c w (core s c) s = retV c (core s c) s ((vec s c).wv (fD w)
      (merge (ewBits (vEw w)) (ewCount (vEw w)) ((vec s c).rp (vPg w)) (vZ w) ((vec s c).rv (fD w))
        (fun e => g (ewBits (vEw w)) (elem ((vec s c).rv (fA w)) (ewBits (vEw w)) e) (secondOperand s c w e))) t) := by
  have hother : ∀ k, vecElem k 0 0 0 = none → f ≠ k := by
    rintro k hk rfl
    rw [hg] at hk
    cases hk
  have hn : ¬ (((vec s c).tagV (fA w)).isShare = true ∨
      (if opcode w = 0x39 then (core s c).tagG (fB w) else (vec s c).tagV (fB w)).isShare = true ∨
      (if keepsOld ((vec s c).rp (vPg w)) (vZ w) (ewCount (vEw w)) then [(vec s c).tagV (fD w)] else []).any Tag.isShare = true) := by
    simp [ha, hb, any_isShare_ite hd]
  apply Exists.intro
  unfold bodyVecAlu
  simp only [hf, hg]
  rw [if_neg (hother _ rfl), if_neg (hother _ rfl), if_neg (hother _ rfl), if_neg (hother _ rfl), if_neg hn]
  rfl

/-- The operation of funct f gives active elements of d this function of their operands. -/
def VecGives (f : Nat) (g : Nat → Nat → Nat → Nat) : Prop :=
  ∀ (s : State) (c : Nat) (w : W32), Issues .vecAlu c w s → vFunct w = f →
    ((vec s c).tagV (fA w)).isShare = false → (opcode w = 0x38 → ((vec s c).tagV (fB w)).isShare = false) →
    (opcode w = 0x39 → ((core s c).tagG (fB w)).isShare = false) → ((vec s c).tagV (fD w)).isShare = false →
    ∃ t, Runs (.vecAlu c w) s t ∧ VectorFrame c s t ∧
      (∀ e, e < ewCount (vEw w) → elem ((vec t c).rv (fD w)) (ewBits (vEw w)) e =
        if ((vec s c).rp (vPg w)).getLsbD e then
          g (ewBits (vEw w)) (elem ((vec s c).rv (fA w)) (ewBits (vEw w)) e) (secondOperand s c w e)
        else if vZ w then 0 else elem ((vec s c).rv (fD w)) (ewBits (vEw w)) e) ∧
      (∀ r, r ≠ fD w → (vec t c).rv r = (vec s c).rv r ∧ (vec t c).tagV r = (vec s c).tagV r) ∧
      (vec t c).p = (vec s c).p ∧ (vec t c).ptag = (vec s c).ptag ∧
      (vec t c).checks = (vec s c).checks ∧ (vec t c).pending = (vec s c).pending

theorem klass_vecAlu {w : W32} : klass w = .vecAlu → opcode w = 0x38 ∨ opcode w = 0x39 := by
  refine klass_cases (motive := fun k => k = .vecAlu → _) (fun k hk he => ?_) (fun h _ => h) (fun _ => by simp) (fun _ => ?_) (fun _ => ?_)
  · rw [he] at hk
    cases hk
  · unfold tripleKlass
    split <;> nofun
  · cases bit w 5
    all_goals
      unfold memoryKlass
      split <;> nofun

theorem vecGives {f : Nat} {g : Nat → Nat → Nat → Nat} (hg : ∀ wd a b, vecElem f wd a b = some (g wd a b))
    (hlt : ∀ wd a b, 8 ≤ wd → a < 2 ^ wd → b < 2 ^ wd → g wd a b < 2 ^ wd) : VecGives f g := by
  intro s c w hi hf ha hb hs hd
  have hsecond : (if opcode w = 0x39 then (core s c).tagG (fB w) else (vec s c).tagV (fB w)).isShare = false := by
    split
    · next h => exact hs h
    · next h => exact hb ((klass_vecAlu hi.1).resolve_right h)
  obtain ⟨t, ht⟩ := bodyVecAlu_elementwise hf hg ha hsecond hd
  obtain ⟨t', hrun, hframe, hvec⟩ := vecAlu_runs.vectorWrites hi rfl ht
  refine ⟨t', hrun, hframe, ?_, ?_, ?_⟩
  · intro e he
    have hwd : 8 ≤ ewBits (vEw w) := Nat.le_mul_of_pos_right 8 (Nat.two_pow_pos _)
    rw [hvec, rv_wv_same, elem_merge _ _ _ _ he, Nat.mod_eq_of_lt (hlt _ _ _ hwd (elem_lt _ _ _) (secondOperand_lt s c w e))]
  · intro r hr
    rw [hvec]
    exact ⟨rv_wv_other _ _ _ _ hr, tagV_wv_other _ _ _ _ hr⟩
  · rw [hvec]
    exact ⟨rfl, rfl, rfl, rfl⟩

theorem unsigned_lt (wd : Nat) (x : Int) : unsigned wd x < 2 ^ wd := by
  have hp : (0 : Int) < 2 ^ wd := Int.pow_pos (by decide)
  have hlt := Int.emod_lt_of_pos x hp
  have hnonneg := Int.emod_nonneg x (Int.ne_of_gt hp)
  exact (Int.toNat_lt hnonneg).2 (by exact_mod_cast hlt)

/-! ### Predicates (R132, R141) -/

theorem rp_wp_same (u : VecUnit) {r : Nat} (x : BitVec 128) (t : Bool) (h : r ≠ 0) : (u.wp r x t).rp r = x := by
  simp [VecUnit.wp, VecUnit.rp, h, Table.get_set_same]

theorem rp_wp_other (u : VecUnit) {r j : Nat} (x : BitVec 128) (t : Bool) (h : j ≠ r) : (u.wp r x t).rp j = u.rp j := by
  unfold VecUnit.wp VecUnit.rp
  split
  · rfl
  · split
    · rfl
    · exact Table.get_set_other _ _ _ h

theorem wp_v (u : VecUnit) (r : Nat) (x : BitVec 128) (t : Bool) : (u.wp r x t).v = u.v := by
  unfold VecUnit.wp
  split <;> rfl

theorem vcmp_iff {k wd a b : Nat} (h : k ≤ 5) : vcmp k wd a b = true ↔
    (k = 0 ∧ a = b) ∨ (k = 1 ∧ a ≠ b) ∨ (k = 2 ∧ a < b) ∨ (k = 3 ∧ signed wd a < signed wd b) ∨ (k = 4 ∧ b ≤ a) ∨
      (k = 5 ∧ signed wd b ≤ signed wd a) := by
  obtain rfl | rfl | rfl | rfl | rfl | rfl : k = 0 ∨ k = 1 ∨ k = 2 ∨ k = 3 ∨ k = 4 ∨ k = 5 := by omega
  all_goals simp [vcmp]

theorem compare_gives {s : State} {c : Nat} {w : W32} (hi : Issues .vecPred c w s) (hf : vFunct w ≤ 5) (hd : 1 ≤ fD w) (hd8 : fD w < 8)
    (ha : ((vec s c).tagV (fA w)).isShare = false) (hb : ((vec s c).tagV (fB w)).isShare = false) :
    ∃ t, Runs (.vecPred c w) s t ∧ VectorFrame c s t ∧ (vec t c).v = (vec s c).v ∧
      (∀ e, e < 128 → (((vec t c).rp (fD w)).getLsbD e = true ↔ e < ewCount (vEw w) ∧ ((vec s c).rp (vPg w)).getLsbD e = true ∧
        vcmp (vFunct w) (ewBits (vEw w)) (elem ((vec s c).rv (fA w)) (ewBits (vEw w)) e)
          (elem ((vec s c).rv (fB w)) (ewBits (vEw w)) e) = true)) ∧
      (∀ r, r ≠ fD w → (vec t c).rp r = (vec s c).rp r) := by
  have hbody : ∃ v t, bodyVecPred c w (core s c) s = retV c (core s c) s ((vec s c).wp (fD w) v t) ∧
      v = predOf (ewCount (vEw w)) (fun e => bit ((vec s c).rp (vPg w)) e && vcmp (vFunct w) (ewBits (vEw w))
        (elem ((vec s c).rv (fA w)) (ewBits (vEw w)) e) (elem ((vec s c).rv (fB w)) (ewBits (vEw w)) e)) := by
    refine ⟨_, mixTag [(vec s c).tagV (fA w), (vec s c).tagV (fB w), predTag ((vec s c).tagP (vPg w))] != .pub, ?_, rfl⟩
    simp [bodyVecPred, hf, ha, hb, Nat.not_le.2 hd8]
  obtain ⟨v, t, hv, rfl⟩ := hbody
  obtain ⟨t', hrun, hframe, hvec⟩ := vecPred_runs.vectorWrites hi rfl hv
  refine ⟨t', hrun, hframe, hvec ▸ wp_v _ _ _ _, fun e _ => ?_, fun r hr => hvec ▸ rp_wp_other _ _ _ hr⟩
  rw [hvec, rp_wp_same _ _ _ (by omega), getLsbD_predOf _ (ewCount_le w)]
  simp [bit]

/-! ### VFENCE (R147, R148) -/

/-- What a block end of a ring core comes to before its own effect. -/
theorem vfence_held {s : State} {c : Nat} {w : W32} (hm : mayIssue s c = true) (hc : c < 256) (hk : klass w = .vfence)
    (ha : (core s c).pc.toNat % 4 = 0) (hf : fetchable s c (core s c).pc.toNat = true) (hr : fetchReread s c = false)
    (hh : fetchHeld s c (core s c).pc.toNat = false) :
    ((vec s c).checks ≠ [] → Runs (.vfence c w) s s) ∧
      ((vec s c).checks = [] → (vec s c).pending = true → Runs (.vfence c w) s (deliverVector c s)) := by
  have hring : c ≠ mgmtCore := fun h => by simp [h, mgmtCore] at hc
  have hend : isBlockEnd w = true := by simp [isBlockEnd, hk]
  have hword : runWord .vfence c w (bodyVfence w) s = issue c true (throughRom c w s (bodyVfence w)) s := by
    unfold runWord
    rw [if_neg (by simp [hk, hring]), if_pos hk, hend]
  have hissue : ∃ t, runWord .vfence c w (bodyVfence w) s =
      if (vec s c).checks ≠ [] then s else if (vec s c).pending = true then deliverVector c s else t := by
    rw [hword]
    unfold issue afterInstr
    rw [if_neg (by simp [hm]), if_neg hring]
    dsimp only
    rw [if_neg (by simp [ha]), if_neg (by simp [hf]), if_neg (by simp [hr]), if_neg (by simp [hh])]
    simp only [true_and]
    exact ⟨_, rfl⟩
  obtain ⟨t, ht⟩ := hissue
  refine ⟨fun h => ?_, fun h hp => ?_⟩
  · exact congrArg Host.Outcome.next (ht.trans (if_pos h))
  · exact congrArg Host.Outcome.next (ht.trans ((if_neg (by simp [h])).trans (if_pos hp)))

/-! ### The obligation -/

theorem predicates_and {s : State} {c : Nat} {w : W32} (hi : Issues .vecPred c w s) (hf : vFunct w = 0x08) (hd : 1 ≤ fD w) (hd8 : fD w < 8)
    (ha : fA w < 8) (hb : fB w < 8) (hew : vEw w = 0) (hpg : vPg w = 0) :
    ∃ t, Runs (.vecPred c w) s t ∧ VectorFrame c s t ∧ (vec t c).rp (fD w) = (vec s c).rp (fA w) &&& (vec s c).rp (fB w) ∧
      (vec t c).v = (vec s c).v := by
  have hbody : bodyVecPred c w (core s c) s = retV c (core s c) s ((vec s c).wp (fD w) ((vec s c).rp (fA w) &&& (vec s c).rp (fB w))
      (mixTag [predTag ((vec s c).tagP (fA w)), predTag ((vec s c).tagP (fB w))] != .pub)) := by
    simp [bodyVecPred, hf, hew, hpg, Nat.not_le.2 hd8, Nat.not_le.2 ha, Nat.not_le.2 hb]
  obtain ⟨t, hrun, hframe, hvec⟩ := vecPred_runs.vectorWrites hi rfl hbody
  exact ⟨t, hrun, hframe, hvec ▸ rp_wp_same _ _ _ (by omega), hvec ▸ wp_v _ _ _ _⟩

theorem element_read (s : State) (c : Nat) (w : W32) (hi : Issues .vecPred c w s) (hf : vFunct w = 0x10)
    (hb : (core s c).tagG (fB w) = .pub) (ha : ((vec s c).tagV (fA w)).isShare = false) :
    Runs (.vecPred c w) s (after c s (setCore c ((core s c).wg (fD w)
      (BitVec.ofNat 64 (elem ((vec s c).rv (fA w)) (ewBits (vEw w)) (((core s c).rg (fB w)).toNat % ewCount (vEw w))))
      (((vec s c).tagV (fA w)).lineJoin (predTag ((vec s c).tagP (vPg w))))) s) ((core s c).pc + 4)) :=
  vecPred_runs.completes hi (by simp [bodyVecPred, hf, hb, ha, retG])

theorem vecAlu_no_funct : Raises .vecAlu .vecAlu (fun _ _ w => vFunct w = 0x16 ∨ vFunct w = 0x1F) 0x01 (fun _ _ => 0) :=
  vecAlu_runs.raises (by
    rintro c w s (h | h)
    · simp [bodyVecAlu, h, vecElem, cIllegal]
    · simp [bodyVecAlu, h, vecElem, cIllegal])

theorem vecPred_no_funct :
    Raises .vecPred .vecPred (fun _ _ w => 0x13 ≤ vFunct w ∨ (vFunct w ≤ 5 ∧ 8 ≤ fD w)) 0x01 (fun _ _ => 0) :=
  vecPred_runs.raises (by
    rintro c w s (h | ⟨h, hd⟩)
    · have hne : ∀ k, k < 0x13 → vFunct w ≠ k := by omega
      have hle : ∀ k, k < 0x13 → ¬ vFunct w ≤ k := by omega
      simp [bodyVecPred, hne, hle, cIllegal]
    · simp [bodyVecPred, h, hd, cIllegal])

/-- Settles O27: each operation's body answers one register of merged elements, or one predicate of computed bits. -/
theorem vectorElementsAreComputedOneByOne : Obligations.VectorElementsAreComputedOneByOne := by
  unfold Obligations.VectorElementsAreComputedOneByOne
  have hmod : ∀ wd a : Nat, a % 2 ^ wd < 2 ^ wd := fun wd a => Nat.mod_lt _ (Nat.two_pow_pos _)
  have hdiv : ∀ {wd a : Nat} (n : Nat), a < 2 ^ wd → a / n < 2 ^ wd := fun n h => Nat.lt_of_le_of_lt (Nat.div_le_self _ n) h
  have hhigh : ∀ {wd a b : Nat}, a < 2 ^ wd → b < 2 ^ wd → a * b / 2 ^ wd < 2 ^ wd := fun ha hb =>
    Nat.div_lt_of_lt_mul (Nat.mul_lt_mul'' ha hb)
  refine ⟨⟨?_, ?_, ?_, ?_, ?_, ?_, ?_, ?_, ?_, ?_, ?_, ?_, ?_, ?_, ?_, ?_, ?_, vecAlu_no_funct⟩, ?_⟩
  · change VecGives 0x00 fun w a b => (a + b) % 2 ^ w
    exact vecGives (fun _ _ _ => rfl) (fun w a b _ _ _ => hmod w _)
  · change VecGives 0x01 fun w a b => (a + 2 ^ w - b) % 2 ^ w
    exact vecGives (fun _ _ _ => rfl) (fun w a b _ _ _ => hmod w _)
  · change VecGives 0x02 fun w a b => a &&& b
    exact vecGives (fun _ _ _ => rfl) (fun w a b _ _ hb => Nat.and_lt_two_pow a hb)
  · change VecGives 0x03 fun w a b => a ||| b
    exact vecGives (fun _ _ _ => rfl) (fun w a b _ ha hb => Nat.or_lt_two_pow ha hb)
  · change VecGives 0x04 fun w a b => a ^^^ b
    exact vecGives (fun _ _ _ => rfl) (fun w a b _ ha hb => Nat.xor_lt_two_pow ha hb)
  · change VecGives 0x05 fun w a b => a &&& (2 ^ w - 1 - b)
    exact vecGives (fun _ _ _ => rfl) (fun w a b _ _ hb => Nat.and_lt_two_pow a (by omega))
  · change VecGives 0x06 fun w a b => a * 2 ^ (b % w) % 2 ^ w
    exact vecGives (fun _ _ _ => rfl) (fun w a b _ _ _ => hmod w _)
  · change VecGives 0x07 fun w a b => a / 2 ^ (b % w)
    exact vecGives (fun _ _ _ => rfl) (fun w a b _ ha _ => hdiv _ ha)
  · change VecGives 0x08 fun w a b => unsigned w (signed w a / 2 ^ (b % w))
    exact vecGives (fun _ _ _ => rfl) (fun w a b _ _ _ => unsigned_lt w _)
  · change VecGives 0x0A fun w a b => a * b % 2 ^ w
    exact vecGives (fun _ _ _ => rfl) (fun w a b _ _ _ => hmod w _)
  · change VecGives 0x0B fun w a b => a * b / 2 ^ w
    exact vecGives (fun _ _ _ => rfl) (fun w a b _ ha hb => hhigh ha hb)
  · change VecGives 0x0C fun w a b => unsigned w (signed w a * signed w b / 2 ^ w)
    exact vecGives (fun _ _ _ => rfl) (fun w a b _ _ _ => unsigned_lt w _)
  · change VecGives 0x0E fun w a b => min a b
    exact vecGives (fun _ _ _ => rfl) (fun w a b _ ha _ => Nat.lt_of_le_of_lt (Nat.min_le_left a b) ha)
  · change VecGives 0x0F fun w a b => max a b
    exact vecGives (fun _ _ _ => rfl) (fun w a b _ ha hb => Nat.max_lt.2 ⟨ha, hb⟩)
  · change VecGives 0x10 fun w a b => if signed w a ≤ signed w b then a else b
    exact vecGives (fun _ _ _ => rfl) (fun w a b _ ha hb => by split <;> assumption)
  · change VecGives 0x11 fun w a b => if signed w a ≤ signed w b then b else a
    exact vecGives (fun _ _ _ => rfl) (fun w a b _ ha hb => by split <;> assumption)
  · change VecGives 0x12 fun w a b => if a ≤ b then b - a else a - b
    exact vecGives (fun _ _ _ => rfl) (fun w a b _ ha hb => by split <;> omega)
  refine ⟨?_, ?_, element_read, fun u => ⟨rfl, fun _ _ => rfl⟩, vecPred_no_funct, ?_, ?_⟩
  · intro s c w hi hf hd hd8 ha hb
    obtain ⟨t, hrun, hframe, hv, hp, hother⟩ := compare_gives hi hf hd hd8 ha hb
    refine ⟨t, hrun, hframe, hv, fun e he => ?_, hother⟩
    rw [hp e he, vcmp_iff hf]
  · exact fun s c w hi hf hd hd8 ha hb hew hpg => predicates_and hi hf hd hd8 ha hb hew hpg
  · exact fun s c w hi hz => vfence_runs.completes hi (if_neg (not_not_intro hz))
  · exact fun s c w hm hc hk ha hf hr hh => vfence_held hm hc hk ha hf hr hh

end Sys2Proof.Machine
end

section
/-!
SUPPORT. Vector arithmetic modulo q, reductions, and products in bit-sliced fields (R137–R139).
-/
namespace Sys2Proof.Machine

open Sys2Proof

theorem vecMod_runs : RowRuns .vecMod .vecMod bodyVecMod := fun _ _ _ => rfl
theorem vecReduce_runs : RowRuns .vecReduce .vecReduce bodyVecReduce := fun _ _ _ => rfl
theorem vecGf_runs : RowRuns .vecGf .vecGf bodyVecGf := fun _ _ _ => rfl

/-! ### Arithmetic modulo q (R137) -/

theorem modulus_cases {ew q : Nat} (h : modulus ew = some q) : (ew = 1 ∧ q = 3329) ∨ (ew = 2 ∧ q = 8380417) := by
  unfold modulus at h
  split at h
  · exact .inl ⟨rfl, (Option.some.inj h).symm⟩
  · exact .inr ⟨rfl, (Option.some.inj h).symm⟩
  · cases h

theorem modulus_pos {ew q : Nat} (h : modulus ew = some q) : 0 < q := by
  obtain ⟨-, rfl⟩ | ⟨-, rfl⟩ := modulus_cases h
  all_goals decide

/-- A residue fits in an element. -/
theorem residue_lt {ew q : Nat} (h : modulus ew = some q) (x : Nat) : x % q < 2 ^ ewBits ew := by
  refine Nat.lt_trans (Nat.mod_lt x (modulus_pos h)) ?_
  obtain ⟨rfl, rfl⟩ | ⟨rfl, rfl⟩ := modulus_cases h
  all_goals decide

/-- The register of merged elements that a modular operation leaves. -/
def modResult (u : VecUnit) (w : W32) (r : Nat) (g : Nat → Nat) : BitVec 1024 :=
  merge (ewBits (vEw w)) (ewCount (vEw w)) (u.rp (vPg w)) (vZ w) (u.rv r) g

theorem elem_modResult {u : VecUnit} {w : W32} {q e : Nat} (h : modulus (vEw w) = some q) (r : Nat) (g : Nat → Nat)
    (he : e < ewCount (vEw w)) : elem (modResult u w r (fun k => g k % q)) (ewBits (vEw w)) e =
      if (u.rp (vPg w)).getLsbD e then g e % q else if vZ w then 0 else elem (u.rv r) (ewBits (vEw w)) e := by
  rw [modResult, elem_merge _ _ _ _ he, Nat.mod_eq_of_lt (residue_lt h _)]

/-- The operation of funct f gives active elements of d this function of the residues of their operands. -/
def ModGives (f : Nat) (g : Nat → Nat → Nat → Nat) : Prop :=
  ∀ (s : State) (c q : Nat) (w : W32), Issues .vecMod c w s → vFunct w = f → modulus (vEw w) = some q →
    ((vec s c).tagV (fA w)).isShare = false → ((vec s c).tagV (fB w)).isShare = false → ((vec s c).tagV (fD w)).isShare = false →
    ∃ t, Runs (.vecMod c w) s t ∧ VectorFrame c s t ∧
      (∀ e, e < ewCount (vEw w) → elem ((vec t c).rv (fD w)) (ewBits (vEw w)) e =
        if ((vec s c).rp (vPg w)).getLsbD e then
          g q (elem ((vec s c).rv (fA w)) (ewBits (vEw w)) e % q) (elem ((vec s c).rv (fB w)) (ewBits (vEw w)) e % q)
        else if vZ w then 0 else elem ((vec s c).rv (fD w)) (ewBits (vEw w)) e) ∧
      (∀ r, r ≠ fD w → (vec t c).rv r = (vec s c).rv r ∧ (vec t c).tagV r = (vec s c).tagV r) ∧ (vec t c).p = (vec s c).p

theorem modGives {f : Nat} {g : Nat → Nat → Nat → Nat}
    (hb : ∀ (s : State) (c q : Nat) (w : W32), vFunct w = f → modulus (vEw w) = some q →
      ((vec s c).tagV (fA w)).isShare = false → ((vec s c).tagV (fB w)).isShare = false → ((vec s c).tagV (fD w)).isShare = false →
      ∃ t, bodyVecMod c w (core s c) s = retV c (core s c) s ((vec s c).wv (fD w) (modResult (vec s c) w (fD w)
        (fun e => g q (elem ((vec s c).rv (fA w)) (ewBits (vEw w)) e % q) (elem ((vec s c).rv (fB w)) (ewBits (vEw w)) e % q) % q)) t))
    (hq : ∀ q a b, g q a b % q = g q a b) : ModGives f g := by
  intro s c q w hi hf hm ha hb' hd
  obtain ⟨t, ht⟩ := hb s c q w hf hm ha hb' hd
  obtain ⟨t', hrun, hframe, hvec⟩ := vecMod_runs.vectorWrites hi rfl ht
  refine ⟨t', hrun, hframe, fun e he => ?_, fun r hr => ?_, hvec ▸ rfl⟩
  · rw [hvec, rv_wv_same, elem_modResult hm _ _ he, hq]
  · rw [hvec]
    exact ⟨rv_wv_other _ _ _ _ hr, tagV_wv_other _ _ _ _ hr⟩

/-- The three operations of two sources. -/
theorem bodyVecMod_elementwise {s : State} {c q : Nat} {w : W32} (hm : modulus (vEw w) = some q)
    (ha : ((vec s c).tagV (fA w)).isShare = false) (hb : ((vec s c).tagV (fB w)).isShare = false)
    (hd : ((vec s c).tagV (fD w)).isShare = false) :
    let e (r k : Nat) : Nat := elem ((vec s c).rv r) (ewBits (vEw w)) k % q
    ∃ t, (vFunct w = 0 → bodyVecMod c w (core s c) s = retV c (core s c) s ((vec s c).wv (fD w) (modResult (vec s c) w (fD w)
        (fun k => (e (fA w) k + e (fB w) k) % q)) t)) ∧
      (vFunct w = 1 → bodyVecMod c w (core s c) s = retV c (core s c) s ((vec s c).wv (fD w) (modResult (vec s c) w (fD w)
        (fun k => (e (fA w) k + q - e (fB w) k) % q)) t)) ∧
      (vFunct w = 2 → bodyVecMod c w (core s c) s = retV c (core s c) s ((vec s c).wv (fD w) (modResult (vec s c) w (fD w)
        (fun k => e (fA w) k * e (fB w) k % q)) t)) := by
  refine ⟨mixTag ([(vec s c).tagV (fA w), (vec s c).tagV (fB w)] ++ [predTag ((vec s c).tagP (vPg w))] ++
    if keepsOld ((vec s c).rp (vPg w)) (vZ w) (ewCount (vEw w)) then [(vec s c).tagV (fD w)] else []), ?_, ?_, ?_⟩
  all_goals
    intro hf
    simp [bodyVecMod, hf, hm, ha, hb, hd, modResult]

/-- The butterfly's two results. -/
theorem bodyVecMod_butterfly {s : State} {c q : Nat} {w : W32} (hm : modulus (vEw w) = some q) (hf : vFunct w = 3) (hda : fD w ≠ fA w)
    (ha : ((vec s c).tagV (fA w)).isShare = false) (hb : ((vec s c).tagV (fB w)).isShare = false)
    (hd : ((vec s c).tagV (fD w)).isShare = false) :
    let e (r k : Nat) : Nat := elem ((vec s c).rv r) (ewBits (vEw w)) k % q
    ∃ t t', bodyVecMod c w (core s c) s = retV c (core s c) s
      (((vec s c).wv (fD w) (modResult (vec s c) w (fD w) (fun k => (e (fD w) k + e (fB w) k * e (fA w) k) % q)) t).wv (fA w)
        (modResult (vec s c) w (fA w) (fun k => (e (fD w) k + q - e (fB w) k * e (fA w) k % q) % q)) t') := by
  refine ⟨mixTag ([(vec s c).tagV (fD w), (vec s c).tagV (fA w), (vec s c).tagV (fB w)] ++ [predTag ((vec s c).tagP (vPg w))] ++
    if keepsOld ((vec s c).rp (vPg w)) (vZ w) (ewCount (vEw w)) then [(vec s c).tagV (fD w)] else []),
    mixTag ([(vec s c).tagV (fD w), (vec s c).tagV (fA w), (vec s c).tagV (fB w)] ++ [predTag ((vec s c).tagP (vPg w))] ++
    if keepsOld ((vec s c).rp (vPg w)) (vZ w) (ewCount (vEw w)) then [(vec s c).tagV (fA w)] else []), ?_⟩
  simp [bodyVecMod, hf, hm, ha, hb, hd, hda, modResult]

theorem butterfly_sum (q d a b : Nat) : (d % q + b % q * (a % q)) % q = (d + b * a) % q := by
  rw [Nat.add_mod d, Nat.mul_mod b, Nat.add_mod (d % q), Nat.mod_mod]

theorem butterfly_difference {q : Nat} (hq : 0 < q) (d a b : Nat) : ((d % q + q - b % q * (a % q) % q) % q + b * a) % q = d % q := by
  have hlt := Nat.le_of_lt (Nat.mod_lt (b * a) hq)
  rw [← Nat.mul_mod, Nat.mod_add_mod, ← Nat.add_mod_mod, show d % q + q - b * a % q + b * a % q = d % q + q by omega,
    Nat.add_mod_right, Nat.mod_mod]

theorem butterfly {s : State} {c q : Nat} {w : W32} (hi : Issues .vecMod c w s) (hf : vFunct w = 3) (hm : modulus (vEw w) = some q)
    (hda : fD w ≠ fA w) (ha : ((vec s c).tagV (fA w)).isShare = false) (hb : ((vec s c).tagV (fB w)).isShare = false)
    (hd : ((vec s c).tagV (fD w)).isShare = false) :
    let e (r k : Nat) : Nat := elem ((vec s c).rv r) (ewBits (vEw w)) k
    ∃ t, Runs (.vecMod c w) s t ∧ VectorFrame c s t ∧
      (∀ k, k < ewCount (vEw w) → ((vec s c).rp (vPg w)).getLsbD k = true →
        elem ((vec t c).rv (fD w)) (ewBits (vEw w)) k = (e (fD w) k + e (fB w) k * e (fA w) k) % q ∧
        (elem ((vec t c).rv (fA w)) (ewBits (vEw w)) k + e (fB w) k * e (fA w) k) % q = e (fD w) k % q) ∧
      (∀ r, r ≠ fD w → r ≠ fA w → (vec t c).rv r = (vec s c).rv r) := by
  intro e
  obtain ⟨t, t', ht⟩ := bodyVecMod_butterfly hm hf hda ha hb hd
  obtain ⟨x, hrun, hframe, hvec⟩ := vecMod_runs.vectorWrites hi rfl ht
  refine ⟨x, hrun, hframe, fun k hk hact => ⟨?_, ?_⟩, fun r hrd hra => ?_⟩
  · rw [hvec, rv_wv_other _ _ _ _ hda, rv_wv_same, elem_modResult hm _ _ hk, if_pos hact, butterfly_sum]
  · rw [hvec, rv_wv_same, elem_modResult hm _ _ hk, if_pos hact, butterfly_difference (modulus_pos hm)]
  · rw [hvec, rv_wv_other _ _ _ _ hra, rv_wv_other _ _ _ _ hrd]

theorem vecMod_illegal : Raises .vecMod .vecMod (fun _ _ w => vEw w = 0 ∨ vEw w = 3 ∨ 0x05 < vFunct w) 0x01 (fun _ _ => 0) :=
  vecMod_runs.raises (by
    intro c w s h
    unfold bodyVecMod
    cases hm : modulus (vEw w) with
    | none => rfl
    | some q =>
      have hew := modulus_cases hm
      have hf : 0x05 < vFunct w := by omega
      simp [hf, cIllegal])

/-! ### Reductions (R138) -/

theorem foldl_add_eq_sum {α β : Type} [Add β] [Zero β] [Std.Associative (α := β) (· + ·)]
    [Std.LawfulRightIdentity (α := β) (· + ·) 0] (l : List α) (g : α → β) (z : β) :
    l.foldl (fun n e => n + g e) z = z + (l.map g).sum := by
  induction l generalizing z with
  | nil => exact (Std.LawfulRightIdentity.right_id z).symm
  | cons a l ih => rw [List.foldl_cons, ih, List.map_cons, List.sum_cons]; exact Std.Associative.assoc _ _ _

theorem vecReduce_sum (s : State) (c : Nat) (w : W32) (hi : Issues .vecReduce c w s) (hf : vFunct w = 0)
    (ha : ((vec s c).tagV (fA w)).isShare = false) :
    let val (e : Nat) : Int := if vZ w then signed (ewBits (vEw w)) (elem ((vec s c).rv (fA w)) (ewBits (vEw w)) e)
      else elem ((vec s c).rv (fA w)) (ewBits (vEw w)) e
    Runs (.vecReduce c w) s (after c s (setCore c ((core s c).wg (fD w)
      (BitVec.ofInt 64 (((List.range (ewCount (vEw w))).filter (fun e => ((vec s c).rp (vPg w)).getLsbD e)).map val).sum)
      (mixTag [(vec s c).tagV (fA w), predTag ((vec s c).tagP (vPg w))])) s) ((core s c).pc + 4)) := by
  intro val
  refine vecReduce_runs.completes hi ?_
  rw [← Int.zero_add (List.sum _), ← foldl_add_eq_sum]
  simp only [bodyVecReduce, hf]
  simp [ha, retG, bit, val]

theorem vecReduce_differences (s : State) (c : Nat) (w : W32) (hi : Issues .vecReduce c w s) (hf : vFunct w = 1)
    (ha : ((vec s c).tagV (fA w)).isShare = false) (hb : ((vec s c).tagV (fB w)).isShare = false) (hz : vZ w = false) :
    let d (e : Nat) : Nat := ((elem ((vec s c).rv (fA w)) (ewBits (vEw w)) e : Int) - elem ((vec s c).rv (fB w)) (ewBits (vEw w)) e).natAbs
    Runs (.vecReduce c w) s (after c s (setCore c ((core s c).wg (fD w)
      (BitVec.ofNat 64 (((List.range (ewCount (vEw w))).filter (fun e => ((vec s c).rp (vPg w)).getLsbD e)).map d).sum)
      (mixTag [(vec s c).tagV (fA w), predTag ((vec s c).tagP (vPg w)), (vec s c).tagV (fB w)])) s) ((core s c).pc + 4)) := by
  intro d
  refine vecReduce_runs.completes hi ?_
  rw [← Nat.zero_add (List.sum _), ← foldl_add_eq_sum]
  simp only [bodyVecReduce, hf]
  simp [ha, hb, hz, retG, bit, d, absDiff]

theorem vecReduce_illegal : Raises .vecReduce .vecReduce (fun _ _ w => 0x04 < vFunct w) 0x01 (fun _ _ => 0) :=
  vecReduce_runs.raises (by
    intro c w s h
    unfold bodyVecReduce
    exact if_pos (.inl h))

/-! ### Bit-sliced fields (R139) -/

theorem testBit_spell {w cnt e j : Nat} (f : Nat → Nat) (he : e < cnt) (hj : j < w) :
    (spell w cnt f).testBit (w * e + j) = (f e).testBit j := by
  have h := congrArg (fun n => n.testBit j) (field_spell (w := w) f he)
  simpa only [field, Nat.testBit_mod_two_pow, hj, decide_true, Bool.true_and, Nat.testBit_div_two_pow, Nat.add_comm j] using h

/-- Element j of a sliced register as the number its bits spell. -/
theorem sliced_eq_spell (m : Nat) (v : BitVec 1024) (j : Nat) : sliced m v j = spell 1 m (fun i => b2n (bit v (64 * i + j))) := by
  unfold sliced spell
  congr 1
  funext n i
  have hlt : ∀ b, b2n b < 2 := by decide
  rw [Nat.one_mul, Nat.pow_one, Nat.mod_eq_of_lt (hlt _)]

theorem sliced_lt (m : Nat) (v : BitVec 1024) (j : Nat) : sliced m v j < 2 ^ m := by
  simpa only [sliced_eq_spell, Nat.one_mul] using spell_lt 1 m fun i => b2n (bit v (64 * i + j))

theorem testBit_sliced {m i : Nat} (v : BitVec 1024) (j : Nat) (hi : i < m) : (sliced m v j).testBit i = bit v (64 * i + j) := by
  have h := testBit_spell (fun i => b2n (bit v (64 * i + j))) hi Nat.one_pos
  rw [Nat.one_mul, Nat.add_zero] at h
  rw [sliced_eq_spell, h]
  cases bit v (64 * i + j) <;> rfl

theorem sum_map_add {α : Type} (l : List α) (g h : α → Nat) : (l.map (fun a => g a + h a)).sum = (l.map g).sum + (l.map h).sum := by
  induction l with
  | nil => rfl
  | cons a l ih =>
    simp only [List.map_cons, List.sum_cons, ih]
    omega

theorem sum_map_zero {α : Type} (l : List α) : (l.map (fun _ => 0)).sum = 0 := by
  induction l with
  | nil => rfl
  | cons a l ih => rw [List.map_cons, List.sum_cons, ih]

theorem sum_map_mul {α : Type} (l : List α) (g : α → Nat) (c : Nat) : (l.map g).sum * c = (l.map (fun a => g a * c)).sum := by
  induction l with
  | nil => exact Nat.zero_mul c
  | cons a l ih => rw [List.map_cons, List.sum_cons, Nat.add_mul, ih, List.map_cons, List.sum_cons]

/-- A rectangle of numbers adds up the same by rows and by columns. -/
theorem sum_sum_comm {α β : Type} (l : List α) (k : List β) (h : α → β → Nat) :
    (l.map (fun a => (k.map (h a)).sum)).sum = (k.map (fun b => (l.map (fun a => h a b)).sum)).sum := by
  induction l with
  | nil => exact (sum_map_zero k).symm
  | cons a l ih => simp only [List.map_cons, List.sum_cons, ih, sum_map_add]

/-- Bit i of element j lies at place i n + j: word i spells bit i of each element. -/
theorem slices_eq_spell (n m : Nat) (f : Nat → Nat) :
    (List.range n).foldl (fun a j => (List.range m).foldl (fun a i => a + f j / 2 ^ i % 2 * 2 ^ (n * i + j)) a) 0 =
      spell n m (fun i => spell 1 n (fun j => f j / 2 ^ i)) := by
  have hword : ∀ i, spell 1 n (fun j => f j / 2 ^ i) % 2 ^ n * 2 ^ (n * i) =
      ((List.range n).map (fun j => f j / 2 ^ i % 2 * 2 ^ (n * i + j))).sum := by
    intro i
    have hlt := spell_lt 1 n fun j => f j / 2 ^ i
    rw [Nat.one_mul] at hlt
    rw [Nat.mod_eq_of_lt hlt, spell, foldl_add_eq_sum, Nat.zero_add, sum_map_mul]
    refine congrArg List.sum (List.map_congr_left fun j _ => ?_)
    rw [Nat.pow_one, Nat.one_mul, Nat.pow_add]
    ac_rfl
  rw [spell]
  simp only [foldl_add_eq_sum, Nat.zero_add, hword]
  exact sum_sum_comm _ _ _

theorem toSlices_eq (m : Nat) (f : Nat → Nat) :
    toSlices m f = BitVec.ofNat 1024 (spell 64 m (fun i => spell 1 64 (fun j => f j / 2 ^ i))) :=
  congrArg (BitVec.ofNat 1024) (slices_eq_spell 64 m f)

theorem sliced_toSlices {m j : Nat} (f : Nat → Nat) (hm : m ≤ 16) (hj : j < 64) (hf : f j < 2 ^ m) : sliced m (toSlices m f) j = f j := by
  refine Nat.eq_of_testBit_eq fun i => ?_
  by_cases hi : i < m
  · have hbit : (f j / 2 ^ i).testBit 0 = (f j).testBit i := by rw [Nat.testBit_div_two_pow, Nat.zero_add]
    have hword : (spell 1 64 (fun j => f j / 2 ^ i)).testBit j = (f j / 2 ^ i).testBit 0 := by
      simpa using testBit_spell (w := 1) (fun j => f j / 2 ^ i) hj Nat.one_pos
    rw [testBit_sliced _ _ hi, toSlices_eq, bit, BitVec.getLsbD_ofNat, testBit_spell _ hi hj, hword, hbit,
      decide_eq_true (by omega), Bool.true_and]
  · have hle : 2 ^ m ≤ 2 ^ i := Nat.pow_le_pow_right (by decide) (by omega)
    rw [Nat.testBit_lt_two_pow (Nat.lt_of_lt_of_le (sliced_lt _ _ _) hle), Nat.testBit_lt_two_pow (Nat.lt_of_lt_of_le hf hle)]

/-- The sum of two numbers of the same highest bit lacks it. -/
theorem xor_lt_of_highest {m x y : Nat} (hx : 2 ^ m ≤ x) (hx' : x < 2 ^ (m + 1)) (hy : 2 ^ m ≤ y) (hy' : y < 2 ^ (m + 1)) :
    x ^^^ y < 2 ^ m := by
  refine Nat.lt_pow_two_of_testBit _ fun i hi => ?_
  obtain rfl | hlt := Nat.eq_or_lt_of_le hi
  · rw [Nat.testBit_xor, Nat.testBit_of_two_pow_le_and_two_pow_add_one_gt hx hx', Nat.testBit_of_two_pow_le_and_two_pow_add_one_gt hy hy']
    rfl
  · exact Nat.testBit_lt_two_pow (Nat.lt_of_lt_of_le (Nat.xor_lt_two_pow hx' hy') (Nat.pow_le_pow_right (by decide) hlt))

theorem foldl_inv {α β : Type} {p : β → Prop} {f : β → α → β} (hf : ∀ b a, p b → p (f b a)) (l : List α) {b : β} (hb : p b) :
    p (l.foldl f b) := by
  induction l generalizing b with
  | nil => exact hb
  | cons a l ih => exact ih (hf b a hb)

theorem gfMul_lt {m poly a : Nat} (b : Nat) (hp : 2 ^ m ≤ poly) (hp' : poly < 2 ^ (m + 1)) (ha : a < 2 ^ m) : gfMul m poly a b < 2 ^ m := by
  refine foldl_inv (p := fun r => r < 2 ^ m) (fun r k hr => ?_) _ (Nat.two_pow_pos m)
  have hdouble : (if 2 ^ m ≤ 2 * r then 2 * r ^^^ poly else 2 * r) < 2 ^ m := by
    split
    · next h => exact xor_lt_of_highest h (by omega) hp hp'
    · next h => exact Nat.lt_of_not_le h
  dsimp only
  split
  · exact Nat.xor_lt_two_pow hdouble ha
  · exact hdouble

theorem gfField_bounds {ew m poly : Nat} (h : gfField ew = some (m, poly)) : m ≤ 16 ∧ 2 ^ m ≤ poly ∧ poly < 2 ^ (m + 1) := by
  unfold gfField at h
  split at h
  · cases h
    decide
  · cases h
    decide
  · cases h

theorem vecGf_results {s : State} {c m poly : Nat} {w : W32} (hi : Issues .vecGf c w s) (hg : gfField (vEw w) = some (m, poly))
    (hf : vFunct w ≤ 1) (hz : vZ w = false) (hpg : vPg w = 0) (ha : ((vec s c).tagV (fA w)).isShare = false)
    (hb : ((vec s c).tagV (fB w)).isShare = false) :
    ∃ t, Runs (.vecGf c w) s t ∧ VectorFrame c s t ∧
      (∀ j, j < 64 → sliced m ((vec t c).rv (fD w)) j =
        if vFunct w = 0 then sliced m ((vec s c).rv (fA w)) j ^^^ sliced m ((vec s c).rv (fB w)) j
        else gfMul m poly (sliced m ((vec s c).rv (fA w)) j) (sliced m ((vec s c).rv (fB w)) j)) ∧
      (∀ r, r ≠ fD w → (vec t c).rv r = (vec s c).rv r) := by
  obtain ⟨hm, hp, hp'⟩ := gfField_bounds hg
  have hbody : bodyVecGf c w (core s c) s = retV c (core s c) s ((vec s c).wv (fD w) (toSlices m (fun j =>
      if vFunct w = 0 then sliced m ((vec s c).rv (fA w)) j ^^^ sliced m ((vec s c).rv (fB w)) j
      else gfMul m poly (sliced m ((vec s c).rv (fA w)) j) (sliced m ((vec s c).rv (fB w)) j)))
      (mixTag [(vec s c).tagV (fA w), (vec s c).tagV (fB w)])) := by
    obtain h | h : vFunct w = 0 ∨ vFunct w = 1 := by omega
    all_goals simp [bodyVecGf, hg, h, hz, hpg, ha, hb]
  obtain ⟨t, hrun, hframe, hvec⟩ := vecGf_runs.vectorWrites hi rfl hbody
  refine ⟨t, hrun, hframe, fun j hj => ?_, fun r hr => hvec ▸ rv_wv_other _ _ _ _ hr⟩
  rw [hvec, rv_wv_same, sliced_toSlices _ hm hj]
  split
  · exact Nat.xor_lt_two_pow (sliced_lt _ _ _) (sliced_lt _ _ _)
  · exact gfMul_lt _ hp hp' (sliced_lt _ _ _)

theorem vecGf_illegal : Raises .vecGf .vecGf (fun _ _ w => 1 < vEw w ∨ 0x05 < vFunct w) 0x01 (fun _ _ => 0) :=
  vecGf_runs.raises (by
    intro c w s h
    unfold bodyVecGf
    cases hg : gfField (vEw w) with
    | none => rfl
    | some p =>
      have hew : ¬ 1 < vEw w := fun h => by
        have hnone : gfField (vEw w) = none := by
          unfold gfField
          split <;> first | omega | rfl
        rw [hnone] at hg
        cases hg
      exact if_pos (.inl (h.resolve_left hew)))

/-- Settles O28: residues fit in their elements; a sliced register gives back elements below 2^m, and products are below 2^m. -/
theorem modularVectorResults : Obligations.ModularVectorResults := by
  unfold Obligations.ModularVectorResults
  refine ⟨⟨rfl, rfl, ?_, ?_, ?_, fun s c q w hi hf hm hda ha hb hd => butterfly hi hf hm hda ha hb hd, vecMod_illegal⟩,
    vecReduce_sum, vecReduce_differences, vecReduce_illegal,
    fun s c m poly w hi hg hf hz hpg ha hb => vecGf_results hi hg hf hz hpg ha hb, vecGf_illegal⟩
  · change ModGives 0 fun q a b => (a + b) % q
    refine modGives (fun s c q w hf hm ha hb hd => ?_) fun q a b => Nat.mod_mod _ _
    obtain ⟨t, h, -, -⟩ := bodyVecMod_elementwise hm ha hb hd
    exact ⟨t, by simpa only [Nat.mod_mod] using h hf⟩
  · change ModGives 1 fun q a b => (a + q - b) % q
    refine modGives (fun s c q w hf hm ha hb hd => ?_) fun q a b => Nat.mod_mod _ _
    obtain ⟨t, -, h, -⟩ := bodyVecMod_elementwise hm ha hb hd
    exact ⟨t, by simpa only [Nat.mod_mod] using h hf⟩
  · change ModGives 2 fun q a b => a * b % q
    refine modGives (fun s c q w hf hm ha hb hd => ?_) fun q a b => Nat.mod_mod _ _
    obtain ⟨t, -, -, h⟩ := bodyVecMod_elementwise hm ha hb hd
    exact ⟨t, by simpa only [Nat.mod_mod] using h hf⟩

end Sys2Proof.Machine
end

section
/-!
SUPPORT. The share-triple instructions (R140, R183–R186): the shares each one writes, and the value that they recover.
-/
namespace Sys2Proof.Machine

open Sys2Proof

/-! ### Values that shares recover -/

theorem shareElem_lt (u : VecUnit) (wd k j e : Nat) : shareElem u wd k j e < 2 ^ wd := elem_lt _ _ _

theorem boolVal_lt (u : VecUnit) (wd k e : Nat) : boolVal u wd k e < 2 ^ wd :=
  Nat.xor_lt_two_pow (Nat.xor_lt_two_pow (shareElem_lt _ _ _ _ _) (shareElem_lt _ _ _ _ _)) (shareElem_lt _ _ _ _ _)

theorem freshShares_boolean_lt {wd : Nat} {val : Nat → Nat} (hv : ∀ e, val e < 2 ^ wd) (r0 r1 : BitVec 1024) (j e : Nat) :
    freshShares wd 0 r0 r1 val j e < 2 ^ wd := by
  have hx := Nat.xor_lt_two_pow (Nat.xor_lt_two_pow (hv e) (elem_lt r0 wd e)) (elem_lt r1 wd e)
  unfold freshShares
  rw [if_pos rfl]
  split
  · exact elem_lt _ _ _
  · exact elem_lt _ _ _
  · exact hx

theorem freshShares_modular_lt {wd m : Nat} (val : Nat → Nat) (hm : 0 < m) (hle : m ≤ 2 ^ wd) (r0 r1 : BitVec 1024) (j e : Nat) :
    freshShares wd m r0 r1 val j e < 2 ^ wd := by
  unfold freshShares
  rw [if_neg (Nat.ne_of_gt hm)]
  split <;> exact Nat.lt_of_lt_of_le (Nat.mod_lt _ hm) hle

/-- The third Boolean share makes up for the two free ones. -/
theorem freshShares_boolean (wd : Nat) (r0 r1 : BitVec 1024) (val : Nat → Nat) (e : Nat) :
    freshShares wd 0 r0 r1 val 0 e ^^^ freshShares wd 0 r0 r1 val 1 e ^^^ freshShares wd 0 r0 r1 val 2 e = val e := by
  change elem r0 wd e ^^^ elem r1 wd e ^^^ (val e ^^^ elem r0 wd e ^^^ elem r1 wd e) = val e
  rw [Nat.xor_assoc (val e), Nat.xor_comm (val e), ← Nat.xor_assoc, Nat.xor_self, Nat.zero_xor]

/-- The third share modulo m makes up for the two free ones. -/
theorem freshShares_modular {m : Nat} (hm : 0 < m) (wd : Nat) (r0 r1 : BitVec 1024) (val : Nat → Nat) (e : Nat) :
    (freshShares wd m r0 r1 val 0 e % m + freshShares wd m r0 r1 val 1 e % m + freshShares wd m r0 r1 val 2 e % m) % m = val e % m := by
  have ha := Nat.mod_lt (elem r0 wd e) hm
  have hb := Nat.mod_lt (elem r1 wd e) hm
  simp only [freshShares, if_neg (Nat.ne_of_gt hm), Nat.mod_mod]
  rw [Nat.add_mod_mod, show elem r0 wd e % m + elem r1 wd e % m + (val e + 2 * m - elem r0 wd e % m - elem r1 wd e % m) = val e + m * 2 by
    omega, Nat.add_mul_mod_self_left]

/-! ### A triple written (R183, R185) -/

section
variable (u : VecUnit) (w : W32) (k kind : Nat) (f : Nat → Nat → Nat)

/-- Member j of the triple as the instruction leaves it. -/
def memberResult (j : Nat) : BitVec 1024 :=
  merge (ewBits (vEw w)) (ewCount (vEw w)) (u.rp (vPg w)) (vZ w) (u.rv (shareReg k j)) (f j)

theorem putTriple_eq : putTriple u w k kind f = (((u.wv (shareReg k 0) (memberResult u w k f 0) (shareTag 0)).wv (shareReg k 1)
    (memberResult u w k f 1) (shareTag 1)).wv (shareReg k 2) (memberResult u w k f 2) (shareTag 2)).setKind k kind := rfl

@[simp] theorem rv_setKind (r : Nat) : (u.setKind k kind).rv r = u.rv r := rfl
@[simp] theorem tagV_setKind (r : Nat) : (u.setKind k kind).tagV r = u.tagV r := rfl

theorem shareReg_ne {i j : Nat} (h : i ≠ j) : shareReg k i ≠ shareReg k j := fun e => h (Nat.add_left_cancel e)

theorem putTriple_member {j : Nat} (hj : j < 3) : (putTriple u w k kind f).rv (shareReg k j) = memberResult u w k f j ∧
    (putTriple u w k kind f).tagV (shareReg k j) = shareTag j := by
  have h01 := shareReg_ne k (i := 0) (j := 1) (by decide)
  have h02 := shareReg_ne k (i := 0) (j := 2) (by decide)
  have h12 := shareReg_ne k (i := 1) (j := 2) (by decide)
  rw [putTriple_eq]
  obtain rfl | rfl | rfl : j = 0 ∨ j = 1 ∨ j = 2 := by omega
  · simp only [rv_setKind, tagV_setKind, rv_wv_other _ _ _ _ h02, rv_wv_other _ _ _ _ h01, tagV_wv_other _ _ _ _ h02,
      tagV_wv_other _ _ _ _ h01, rv_wv_same, tagV_wv_same, and_self]
  · simp only [rv_setKind, tagV_setKind, rv_wv_other _ _ _ _ h12, tagV_wv_other _ _ _ _ h12, rv_wv_same, tagV_wv_same, and_self]
  · simp only [rv_setKind, tagV_setKind, rv_wv_same, tagV_wv_same, and_self]

theorem putTriple_other {r : Nat} (hr : r < 3 * k ∨ 3 * k + 2 < r) :
    (putTriple u w k kind f).rv r = u.rv r ∧ (putTriple u w k kind f).tagV r = u.tagV r := by
  have hne : ∀ j, j < 3 → r ≠ shareReg k j := fun j hj h => by
    unfold shareReg at h
    omega
  rw [putTriple_eq]
  simp only [rv_setKind, tagV_setKind, rv_wv_other _ _ _ _ (hne 2 (by decide)), rv_wv_other _ _ _ _ (hne 1 (by decide)),
    rv_wv_other _ _ _ _ (hne 0 (by decide)), tagV_wv_other _ _ _ _ (hne 2 (by decide)), tagV_wv_other _ _ _ _ (hne 1 (by decide)),
    tagV_wv_other _ _ _ _ (hne 0 (by decide)), and_self]

/-- An active element of a member is what the instruction wrote there. -/
theorem shareElem_putTriple {j e : Nat} (hj : j < 3) (he : e < ewCount (vEw w)) (ha : (u.rp (vPg w)).getLsbD e = true)
    (hf : f j e < 2 ^ ewBits (vEw w)) : shareElem (putTriple u w k kind f) (ewBits (vEw w)) k j e = f j e := by
  rw [shareElem, (putTriple_member u w k kind f hj).1, memberResult, elem_merge _ _ _ _ he, if_pos ha, Nat.mod_eq_of_lt hf]

end

/-! ### One triple instruction -/

/-- The state after a triple instruction that wrote these shares. -/
def tripleDone (c : Nat) (w : W32) (s : State) (words kind : Nat) (f : Nat → Nat → Nat) : State :=
  { setCorex c { corex s c with vec := putTriple (vec s c) w (fD w) kind f, rndBuf := (corex s c).rndBuf.drop words, rndWait := none } s with
    fresh := s.fresh + 1 }

/-- With the randomness at hand a triple instruction issues as any other. -/
theorem runTriple_issues {k : Klass} {c : Nat} {w : W32} {s : State} (hi : Issues k c w s)
    (h : ∀ b, bodyTriple k c w (core s c) s ≠ .stall b) : runTriple k c w s = .next (runWord k c w (bodyTriple k c w) s) := by
  obtain ⟨-, -, -, -, -, -, -, -, -, hm⟩ := hi
  have hw : waitsForRnd k c w s = false := by
    unfold waitsForRnd throughRom
    simp only [hm]
    cases hb : bodyTriple k c w (core s c) s with
    | stall b => exact absurd hb (h b)
    | ok t pc => simp
    | exc cause val => simp
    | micro addr t => simp
    | trapped t cause val => simp
    | held t => simp
  unfold runTriple
  rw [hw]
  rfl

/-- What a triple instruction leaves: its shares in d, its words taken, all else as before. -/
theorem triple_leaves {k : Klass} {c words kind : Nat} {w : W32} {s : State} {f : Nat → Nat → Nat} (hi : Issues k c w s)
    (hk : k.vector = true) (hb : bodyTriple k c w (core s c) s = .ok (tripleDone c w s words kind f) ((core s c).pc + 4)) :
    ∃ t, runTriple k c w s = .next t ∧ VectorFrame c s t ∧ (corex t c).rndBuf = (corex s c).rndBuf.drop words ∧
      vec t c = putTriple (vec s c) w (fD w) kind f := by
  obtain ⟨hframe, hx⟩ := vectorFrame_after (s := s) (y := { corex s c with
    vec := putTriple (vec s c) w (fD w) kind f, rndBuf := (corex s c).rndBuf.drop words, rndWait := none }) (hi.ring hk) rfl rfl
    (s.fresh + 1)
  refine ⟨_, (runTriple_issues hi fun b h => ?_).trans (congrArg Host.Outcome.next (runWord_ok _ hi hb)), hframe, ?_, ?_⟩
  · rw [hb] at h
    cases h
  · exact congrArg CoreX.rndBuf hx
  · exact congrArg CoreX.vec hx

/-- The instruction of class k leaves in the triple d shares of which the goal holds. -/
def TripleResult (mk : Nat → W32 → Instr) (k : Klass) (two : Bool) (words : Nat) (ok : VecUnit → W32 → Prop)
    (goal : VecUnit → VecUnit → W32 → Nat → Nat → Prop) : Prop :=
  ∀ (s : State) (c : Nat) (w : W32), Issues k c w s → fD w < 10 → fA w < 10 → fB w < 10 → (two = false → fB w = 0) →
    tripleOk (vec s c) (fA w) = true → (two = true → tripleOk (vec s c) (fB w) = true) → words ≤ (corex s c).rndBuf.length →
    ok (vec s c) w →
    ∃ t, Runs (mk c w) s t ∧ VectorFrame c s t ∧ (corex t c).rndBuf = (corex s c).rndBuf.drop words ∧
      (∀ e, e < ewCount (vEw w) → ((vec s c).rp (vPg w)).getLsbD e = true → goal (vec s c) (vec t c) w (ewBits (vEw w)) e) ∧
      (∀ j, j < 3 → (vec t c).tagV (3 * fD w + j) = shareTag j) ∧
      (∀ r, (r < 3 * fD w ∨ 3 * fD w + 2 < r) → (vec t c).rv r = (vec s c).rv r ∧ (vec t c).tagV r = (vec s c).tagV r)

/-- Triple numbers, tags and randomness that let a triple instruction complete. -/
structure TripleReady (k : Klass) (two : Bool) (c : Nat) (w : W32) (s : State) : Prop where
  dest : fD w < 10
  first : fA w < 10
  second : fB w < 10
  single : two = false → fB w = 0
  firstOk : tripleOk (vec s c) (fA w) = true
  secondOk : two = true → tripleOk (vec s c) (fB w) = true
  words : rndWords k ≤ (corex s c).rndBuf.length

/-! ### The shares of each instruction (R183–R186) -/

/-- How the instruction takes its first source to be shared: by the recorded kind, or by a free choice where none is (assumption 9). -/
def kindTaken (k : Klass) (u : VecUnit) (a fresh : Nat) : Nat :=
  if Table.get kindUnknown u.kind a = kindUnknown then Config.shareKind fresh % (if k = .vsref then 3 else 2) + (if k = .vsref then 0 else 1)
  else Table.get kindUnknown u.kind a

/-- The modulus of shares of this kind, 0 for Boolean ones. -/
def kindModulus (kind ew : Nat) : Nat :=
  if kind = 0 then 0 else if kind = 2 then (modulus ew).getD (2 ^ ewBits ew) else 2 ^ ewBits ew

/-- Kind and shares that an instruction writes, from its sources and two free registers. -/
def tripleShares (k : Klass) (u : VecUnit) (w : W32) (kindA : Nat) (r0 r1 : BitVec 1024) : Nat × (Nat → Nat → Nat) :=
  let wd := ewBits (vEw w)
  let a := fA w
  let b := fB w
  let modA := kindModulus kindA (vEw w)
  let q := (modulus (vEw w)).getD 1
  match k with
  | .vsxor => (0, fun j e => shareElem u wd a j e ^^^ shareElem u wd b j e)
  | .vsadd => (1, fun j e => (shareElem u wd a j e + shareElem u wd b j e) % 2 ^ wd)
  | .vsand => (0, freshShares wd 0 r0 r1 (fun e => boolVal u wd a e &&& boolVal u wd b e))
  | .vsmmul => (2, freshShares wd q r0 r1 (fun e => arithVal u wd q a e * arithVal u wd q b e % q))
  | .vsref => (kindA, freshShares wd modA r0 r1 (fun e => if modA = 0 then boolVal u wd a e else arithVal u wd modA a e))
  | .vsa2b => (0, freshShares wd 0 r0 r1 (fun e => arithVal u wd (if modA = 0 then 2 ^ wd else modA) a e))
  | _ => (1, freshShares wd (2 ^ wd) r0 r1 (fun e => boolVal u wd a e))

/-- Whether b names a second triple. -/
def Klass.twoTriples (k : Klass) : Bool := k = .vsxor ∨ k = .vsand ∨ k = .vsadd ∨ k = .vsmmul

theorem bodyTriple_ready {k : Klass} {c : Nat} {w : W32} {s : State} (h : TripleReady k k.twoTriples c w s)
    (hq : k = .vsmmul → modulus (vEw w) ≠ none) : ∃ r0 r1, bodyTriple k c w (core s c) s =
      .ok (tripleDone c w s (rndWords k) (tripleShares k (vec s c) w (kindTaken k (vec s c) (fA w) s.fresh) r0 r1).1
        (tripleShares k (vec s c) w (kindTaken k (vec s c) (fA w) s.fresh) r0 r1).2) ((core s c).pc + 4) := by
  obtain ⟨hd, ha, hb, hs, hao, hbo, hw⟩ := h
  have hnumbers : ¬ (10 ≤ fD w ∨ 10 ≤ fA w ∨ 10 ≤ fB w ∨ (¬ (k = .vsxor ∨ k = .vsand ∨ k = .vsadd ∨ k = .vsmmul) ∧ fB w ≠ 0) ∨
      (k = .vsmmul ∧ modulus (vEw w) = none)) := by
    rintro (h | h | h | ⟨h, h0⟩ | ⟨h, h0⟩)
    · omega
    · omega
    · omega
    · exact h0 (hs (by simpa [Klass.twoTriples] using h))
    · exact hq h h0
  have htags : ¬ (tripleOk (vec s c) (fA w) = false ∨
      ((k = .vsxor ∨ k = .vsand ∨ k = .vsadd ∨ k = .vsmmul) ∧ tripleOk (vec s c) (fB w) = false)) := by
    rintro (h | ⟨h, h0⟩)
    · simp [hao] at h
    · simp [hbo (by simpa [Klass.twoTriples] using h)] at h0
  refine ⟨Config.shareBits ((corex s c).rndBuf.take (rndWords k)) 0, Config.shareBits ((corex s c).rndBuf.take (rndWords k)) 1, ?_⟩
  unfold bodyTriple
  rw [if_neg hnumbers, if_neg htags, if_neg (Nat.not_lt.2 hw)]
  rfl

/-- Shares that fit in their elements, and what holds of a unit whose triple d they are. -/
def SharesGive (w : W32) (f : Nat → Nat → Nat) (goal : VecUnit → Nat → Prop) : Prop :=
  (∀ j e, f j e < 2 ^ ewBits (vEw w)) ∧
    ∀ v e, (∀ j, j < 3 → shareElem v (ewBits (vEw w)) (fD w) j e = f j e) → goal v e

theorem SharesGive.imp {w : W32} {f : Nat → Nat → Nat} {goal goal' : VecUnit → Nat → Prop} (h : SharesGive w f goal)
    (hg : ∀ v e, goal v e → goal' v e) : SharesGive w f goal' := ⟨h.1, fun v e hv => hg v e (h.2 v e hv)⟩

theorem tripleResult {mk : Nat → W32 → Instr} {k : Klass} {ok : VecUnit → W32 → Prop}
    {goal : VecUnit → VecUnit → W32 → Nat → Nat → Prop} (hmk : ∀ c w s, exec (mk c w) s = runTriple k c w s) (hk : k.vector = true)
    (hq : ∀ u w, ok u w → k = .vsmmul → modulus (vEw w) ≠ none)
    (hb : ∀ u w n r0 r1, ok u w → SharesGive w (tripleShares k u w (kindTaken k u (fA w) n) r0 r1).2 (fun v e =>
      goal u v w (ewBits (vEw w)) e)) :
    TripleResult mk k k.twoTriples (rndWords k) ok goal := by
  intro s c w hi hd ha hb2 hs hao hbo hw hok
  obtain ⟨r0, r1, hbody⟩ := bodyTriple_ready ⟨hd, ha, hb2, hs, hao, hbo, hw⟩ (hq _ _ hok)
  obtain ⟨hlt, hgoal⟩ := hb (vec s c) w s.fresh r0 r1 hok
  obtain ⟨t, hrun, hframe, hrnd, hvec⟩ := triple_leaves hi hk hbody
  refine ⟨t, (hmk c w s).trans hrun, hframe, hrnd, fun e he hact => hgoal _ e fun j hj => ?_, fun j hj => ?_, fun r hr => ?_⟩
  · rw [hvec, shareElem_putTriple _ _ _ _ _ hj he hact (hlt j e)]
  · rw [hvec]
    exact (putTriple_member _ _ _ _ _ hj).2
  · rw [hvec]
    exact putTriple_other _ _ _ _ _ hr

/-- Fresh Boolean shares of a value. -/
theorem freshShares_give_boolVal {w : W32} {val : Nat → Nat} (hv : ∀ e, val e < 2 ^ ewBits (vEw w)) (r0 r1 : BitVec 1024) :
    SharesGive w (freshShares (ewBits (vEw w)) 0 r0 r1 val) (fun v e => boolVal v (ewBits (vEw w)) (fD w) e = val e) := by
  refine ⟨freshShares_boolean_lt hv r0 r1, fun v e h => ?_⟩
  change boolVal v _ _ e = _
  rw [boolVal, h 0 (by decide), h 1 (by decide), h 2 (by decide), freshShares_boolean]

/-- Fresh shares modulo m of a value. -/
theorem freshShares_give_arithVal {w : W32} {m : Nat} {val : Nat → Nat} (hm : 0 < m) (hle : m ≤ 2 ^ ewBits (vEw w)) (hv : ∀ e, val e < m)
    (r0 r1 : BitVec 1024) :
    SharesGive w (freshShares (ewBits (vEw w)) m r0 r1 val) (fun v e => arithVal v (ewBits (vEw w)) m (fD w) e = val e) := by
  refine ⟨freshShares_modular_lt val hm hle r0 r1, fun v e h => ?_⟩
  change arithVal v _ _ _ e = _
  rw [arithVal, h 0 (by decide), h 1 (by decide), h 2 (by decide), freshShares_modular hm, Nat.mod_eq_of_lt (hv e)]

theorem arithVal_lt (u : VecUnit) (wd k e : Nat) {m : Nat} (hm : 0 < m) : arithVal u wd m k e < m := Nat.mod_lt _ hm

theorem modulus_le {ew q : Nat} (h : modulus ew = some q) : q ≤ 2 ^ ewBits ew := by
  have hlt := residue_lt h (q - 1)
  have hp := modulus_pos h
  rw [Nat.mod_eq_of_lt (by omega)] at hlt
  omega

theorem xor_of_members (a0 a1 a2 b0 b1 b2 : Nat) :
    (a0 ^^^ b0) ^^^ (a1 ^^^ b1) ^^^ (a2 ^^^ b2) = (a0 ^^^ a1 ^^^ a2) ^^^ (b0 ^^^ b1 ^^^ b2) := by
  ac_rfl

theorem sum_of_members (m a0 a1 a2 b0 b1 b2 : Nat) :
    ((a0 + b0) % m % m + (a1 + b1) % m % m + (a2 + b2) % m % m) % m =
      ((a0 % m + a1 % m + a2 % m) % m + (b0 % m + b1 % m + b2 % m) % m) % m := by
  have hsplit : a0 + b0 + (a1 + b1) + (a2 + b2) = a0 + a1 + a2 + (b0 + b1 + b2) := by omega
  have hthree (x y z : Nat) : (x % m + y % m + z % m) % m = (x + y + z) % m := by
    rw [Nat.add_mod_mod, Nat.add_right_comm, Nat.add_mod_mod, Nat.add_right_comm, Nat.add_assoc, Nat.mod_add_mod, Nat.add_assoc]
  rw [Nat.mod_mod, Nat.mod_mod, Nat.mod_mod, hthree, hthree, hthree, ← Nat.add_mod, hsplit]

/-! ### The seven instructions -/

theorem vsxor_result : TripleResult .vsxor .vsxor true 0 (fun _ _ => True) (fun u v w wd e =>
    boolVal v wd (fD w) e = boolVal u wd (fA w) e ^^^ boolVal u wd (fB w) e) :=
  tripleResult (fun _ _ _ => rfl) rfl (fun _ _ _ => nofun) fun u w n r0 r1 _ => by
    refine ⟨fun j e => Nat.xor_lt_two_pow (shareElem_lt _ _ _ _ _) (shareElem_lt _ _ _ _ _), fun v e h => ?_⟩
    change boolVal v _ _ e = _
    rw [boolVal, h 0 (by decide), h 1 (by decide), h 2 (by decide)]
    exact xor_of_members _ _ _ _ _ _

theorem vsadd_result : TripleResult .vsadd .vsadd true 0 (fun _ _ => True) (fun u v w wd e => arithVal v wd (2 ^ wd) (fD w) e =
    (arithVal u wd (2 ^ wd) (fA w) e + arithVal u wd (2 ^ wd) (fB w) e) % 2 ^ wd) :=
  tripleResult (fun _ _ _ => rfl) rfl (fun _ _ _ => nofun) fun u w n r0 r1 _ => by
    refine ⟨fun j e => Nat.mod_lt _ (Nat.two_pow_pos _), fun v e h => ?_⟩
    change arithVal v _ _ _ e = _
    rw [arithVal, h 0 (by decide), h 1 (by decide), h 2 (by decide)]
    exact sum_of_members _ _ _ _ _ _ _

theorem vsand_result : TripleResult .vsand .vsand true 3 (fun _ _ => True) (fun u v w wd e =>
    boolVal v wd (fD w) e = boolVal u wd (fA w) e &&& boolVal u wd (fB w) e) :=
  tripleResult (fun _ _ _ => rfl) rfl (fun _ _ _ => nofun) fun _ _ _ r0 r1 _ =>
    freshShares_give_boolVal (fun _ => Nat.and_lt_two_pow _ (boolVal_lt _ _ _ _)) r0 r1

theorem vsmmul_result {q : Nat} : TripleResult .vsmmul .vsmmul true 3 (fun _ w => modulus (vEw w) = some q) (fun u v w wd e =>
    arithVal v wd q (fD w) e = arithVal u wd q (fA w) e * arithVal u wd q (fB w) e % q) :=
  tripleResult (fun _ _ _ => rfl) rfl (fun u w h _ hn => by simp [hn] at h) fun u w n r0 r1 h => by
    simp only [tripleShares, h, Option.getD_some]
    exact freshShares_give_arithVal (modulus_pos h) (modulus_le h) (fun e => Nat.mod_lt _ (modulus_pos h)) r0 r1

theorem vsb2a_result : TripleResult .vsb2a .vsb2a false 4 (fun _ _ => True) (fun u v w wd e =>
    arithVal v wd (2 ^ wd) (fD w) e = boolVal u wd (fA w) e) :=
  tripleResult (fun _ _ _ => rfl) rfl (fun _ _ _ => nofun) fun _ _ _ r0 r1 _ =>
    freshShares_give_arithVal (Nat.two_pow_pos _) (Nat.le_refl _) (fun _ => boolVal_lt _ _ _ _) r0 r1

/-- A refresh of shares taken as Boolean ones, or modulo what their kind says. -/
theorem refresh_gives (u : VecUnit) (w : W32) (kind : Nat) (r0 r1 : BitVec 1024) :
    SharesGive w (tripleShares .vsref u w kind r0 r1).2 (fun v e =>
      if kindModulus kind (vEw w) = 0 then boolVal v (ewBits (vEw w)) (fD w) e = boolVal u (ewBits (vEw w)) (fA w) e
      else arithVal v (ewBits (vEw w)) (kindModulus kind (vEw w)) (fD w) e =
        arithVal u (ewBits (vEw w)) (kindModulus kind (vEw w)) (fA w) e) := by
  have hle : kindModulus kind (vEw w) ≤ 2 ^ ewBits (vEw w) := by
    unfold kindModulus
    split
    · exact Nat.zero_le _
    · split
      · cases hm : modulus (vEw w) with
        | none => exact Nat.le_refl _
        | some q => exact modulus_le hm
      · exact Nat.le_refl _
  simp only [tripleShares]
  by_cases h0 : kindModulus kind (vEw w) = 0
  · simp only [h0, if_true]
    exact freshShares_give_boolVal (fun e => boolVal_lt _ _ _ _) r0 r1
  · simp only [if_neg h0]
    exact freshShares_give_arithVal (Nat.pos_of_ne_zero h0) hle (fun e => arithVal_lt _ _ _ _ (Nat.pos_of_ne_zero h0)) r0 r1

theorem kindModulus_two {ew q : Nat} (h : modulus ew = some q) : kindModulus 2 ew = q := by simp [kindModulus, h]

theorem kindModulus_one (ew : Nat) : kindModulus 1 ew = 2 ^ ewBits ew := rfl

theorem kindTaken_known {k : Klass} {u : VecUnit} {a kind : Nat} (h : Table.get kindUnknown u.kind a = kind) (hk : kind ≠ kindUnknown)
    (n : Nat) : kindTaken k u a n = kind := by
  unfold kindTaken
  rw [h, if_neg hk]

theorem TripleResult.imp {mk : Nat → W32 → Instr} {k : Klass} {two : Bool} {words : Nat} {ok ok' : VecUnit → W32 → Prop}
    {goal goal' : VecUnit → VecUnit → W32 → Nat → Nat → Prop} (h : TripleResult mk k two words ok goal) (hok : ∀ u w, ok' u w → ok u w)
    (hg : ∀ u v w e, ok' u w → goal u v w (ewBits (vEw w)) e → goal' u v w (ewBits (vEw w)) e) : TripleResult mk k two words ok' goal' := by
  intro s c w hi hd ha hb hs hao hbo hw hk
  obtain ⟨t, hrun, hframe, hrnd, hgoal, hrest⟩ := h s c w hi hd ha hb hs hao hbo hw (hok _ _ hk)
  exact ⟨t, hrun, hframe, hrnd, fun e he hact => hg _ _ _ _ hk (hgoal e he hact), hrest⟩

/-- The triple d has the value of triple a under this kind of sharing. -/
def KeepsValue (kind : Nat) (u v : VecUnit) (w : W32) (wd e : Nat) : Prop :=
  if kindModulus kind (vEw w) = 0 then boolVal v wd (fD w) e = boolVal u wd (fA w) e
  else arithVal v wd (kindModulus kind (vEw w)) (fD w) e = arithVal u wd (kindModulus kind (vEw w)) (fA w) e

theorem keepsValue_one {u v : VecUnit} {w : W32} {wd e : Nat} (h : KeepsValue 1 u v w wd e) :
    arithVal v wd (2 ^ ewBits (vEw w)) (fD w) e = arithVal u wd (2 ^ ewBits (vEw w)) (fA w) e := by
  rwa [KeepsValue, kindModulus_one, if_neg (Nat.ne_of_gt (Nat.two_pow_pos _))] at h

theorem keepsValue_two {u v : VecUnit} {w : W32} {wd e q : Nat} (hm : modulus (vEw w) = some q) (h : KeepsValue 2 u v w wd e) :
    arithVal v wd q (fD w) e = arithVal u wd q (fA w) e := by
  rwa [KeepsValue, kindModulus_two hm, if_neg (Nat.ne_of_gt (modulus_pos hm))] at h

/-- A refresh of shares of recorded kind keeps their value of that kind. -/
theorem vsref_known {kind : Nat} (hk : kind ≠ kindUnknown) : TripleResult .vsref .vsref false 3
    (fun u w => Table.get kindUnknown u.kind (fA w) = kind) (KeepsValue kind) :=
  tripleResult (fun _ _ _ => rfl) rfl (fun _ _ _ => nofun) fun u w n r0 r1 hkind => by
    rw [kindTaken_known hkind hk]
    exact refresh_gives u w kind r0 r1

/-- A refresh of shares of unknown kind keeps their value of one of the kinds (assumption 9). -/
theorem vsref_unknown : TripleResult .vsref .vsref false 3 (fun u w => Table.get kindUnknown u.kind (fA w) = kindUnknown)
    (fun u v w wd e => boolVal v wd (fD w) e = boolVal u wd (fA w) e ∨ arithVal v wd (2 ^ wd) (fD w) e = arithVal u wd (2 ^ wd) (fA w) e ∨
      ∃ q, modulus (vEw w) = some q ∧ arithVal v wd q (fD w) e = arithVal u wd q (fA w) e) :=
  tripleResult (fun _ _ _ => rfl) rfl (fun _ _ _ => nofun) fun u w n r0 r1 hkind => by
    have hlt : kindTaken .vsref u (fA w) n < 3 := by
      unfold kindTaken
      rw [if_pos hkind]
      exact Nat.mod_lt _ (by decide)
    refine (refresh_gives u w (kindTaken .vsref u (fA w) n) r0 r1).imp fun v e h => ?_
    change KeepsValue _ u v w _ e at h
    generalize kindTaken .vsref u (fA w) n = kind at hlt h
    obtain rfl | rfl | rfl : kind = 0 ∨ kind = 1 ∨ kind = 2 := by omega
    · exact .inl h
    · exact .inr (.inl (keepsValue_one h))
    · cases hm : modulus (vEw w) with
      | none =>
        have hone : kindModulus 2 (vEw w) = kindModulus 1 (vEw w) := by simp [kindModulus, hm]
        refine .inr (.inl (keepsValue_one ?_))
        rwa [KeepsValue, ← hone]
      | some q => exact .inr (.inr ⟨q, rfl, keepsValue_two hm h⟩)

/-- A conversion of shares of recorded arithmetic kind. -/
theorem vsa2b_known {kind : Nat} (hk : kind ≠ kindUnknown) (hpos : ∀ ew, 0 < kindModulus kind ew ∧ kindModulus kind ew ≤ 2 ^ ewBits ew) :
    TripleResult .vsa2b .vsa2b false 6 (fun u w => Table.get kindUnknown u.kind (fA w) = kind)
      (fun u v w wd e => boolVal v wd (fD w) e = arithVal u wd (kindModulus kind (vEw w)) (fA w) e) :=
  tripleResult (fun _ _ _ => rfl) rfl (fun _ _ _ => nofun) fun u w n r0 r1 hkind => by
    obtain ⟨h0, hle⟩ := hpos (vEw w)
    simp only [tripleShares, kindTaken_known hkind hk, if_neg (Nat.ne_of_gt h0)]
    exact freshShares_give_boolVal (fun e => Nat.lt_of_lt_of_le (arithVal_lt _ _ _ _ h0) hle) r0 r1

theorem kindModulus_bounds {kind : Nat} (h : kind ≠ 0) (ew : Nat) : 0 < kindModulus kind ew ∧ kindModulus kind ew ≤ 2 ^ ewBits ew := by
  unfold kindModulus
  rw [if_neg h]
  split
  · cases hm : modulus ew with
    | none => exact ⟨Nat.two_pow_pos _, Nat.le_refl _⟩
    | some q => exact ⟨modulus_pos hm, modulus_le hm⟩
  · exact ⟨Nat.two_pow_pos _, Nat.le_refl _⟩

/-! ### Refusals (R183, R185) -/

theorem vsand_raises {p : Nat → State → W32 → Prop} {cause : Byte}
    (hb : ∀ c w s, p c s w → bodyTriple .vsand c w (core s c) s = .exc cause 0) : Raises .vsand .vsand p cause (fun _ _ => 0) := by
  intro s c w hi hs hp
  have hbody := hb c w s hp
  refine (runTriple_issues hi fun b h => ?_).trans (congrArg Host.Outcome.next (runWord_exc _ hi hs hbody))
  rw [hbody] at h
  cases h

theorem vsref_boolean : TripleResult .vsref .vsref false 3 (fun u w => Table.get kindUnknown u.kind (fA w) = 0)
    (fun u v w wd e => boolVal v wd (fD w) e = boolVal u wd (fA w) e) :=
  vsref_known (kind := 0) (by decide)

theorem vsref_power : TripleResult .vsref .vsref false 3 (fun u w => Table.get kindUnknown u.kind (fA w) = 1)
    (fun u v w wd e => arithVal v wd (2 ^ wd) (fD w) e = arithVal u wd (2 ^ wd) (fA w) e) :=
  (vsref_known (kind := 1) (by decide)).imp (fun _ _ h => h) fun _ _ _ _ _ h => keepsValue_one h

theorem vsref_field {q : Nat} : TripleResult .vsref .vsref false 3
    (fun u w => Table.get kindUnknown u.kind (fA w) = 2 ∧ modulus (vEw w) = some q)
    (fun u v w wd e => arithVal v wd q (fD w) e = arithVal u wd q (fA w) e) :=
  (vsref_known (kind := 2) (by decide)).imp (fun _ _ h => h.1) fun _ _ _ _ hm h => keepsValue_two hm.2 h

theorem vsa2b_power : TripleResult .vsa2b .vsa2b false 6 (fun u w => Table.get kindUnknown u.kind (fA w) = 1)
    (fun u v w wd e => boolVal v wd (fD w) e = arithVal u wd (2 ^ wd) (fA w) e) :=
  (vsa2b_known (kind := 1) (by decide) (kindModulus_bounds (by decide))).imp (fun _ _ h => h) fun _ _ _ _ _ h => h

theorem vsa2b_field {q : Nat} : TripleResult .vsa2b .vsa2b false 6
    (fun u w => Table.get kindUnknown u.kind (fA w) = 2 ∧ modulus (vEw w) = some q)
    (fun u v w wd e => boolVal v wd (fD w) e = arithVal u wd q (fA w) e) := by
  refine (vsa2b_known (kind := 2) (by decide) (kindModulus_bounds (by decide))).imp (fun _ _ h => h.1) fun _ _ _ _ hm h => ?_
  rwa [kindModulus_two hm.2] at h

/-- Settles O29: the third share makes up for the two free ones. -/
theorem triplesHoldTheComputedValue : Obligations.TriplesHoldTheComputedValue := by
  unfold Obligations.TriplesHoldTheComputedValue
  refine ⟨vsxor_result, vsand_result, vsadd_result, fun _ _ => vsmmul_result, vsref_boolean, vsref_power, fun _ _ => vsref_field,
    vsref_unknown, vsa2b_power, fun _ _ => vsa2b_field, vsb2a_result, vsand_raises fun c w s h => ?_, vsand_raises fun c w s h => ?_⟩
  · have hnumbers : 10 ≤ fD w ∨ 10 ≤ fA w ∨ 10 ≤ fB w ∨ (¬ (Klass.vsand = .vsxor ∨ Klass.vsand = .vsand ∨ Klass.vsand = .vsadd ∨
        Klass.vsand = .vsmmul) ∧ fB w ≠ 0) ∨ (Klass.vsand = .vsmmul ∧ modulus (vEw w) = none) :=
      h.imp id (Or.imp id Or.inl)
    unfold bodyTriple
    exact if_pos hnumbers
  · obtain ⟨hd, ha, hb, hok⟩ := h
    simp [bodyTriple, Nat.not_le.2 hd, Nat.not_le.2 ha, Nat.not_le.2 hb, hok, cTagged]

end Sys2Proof.Machine
end

section
/-!
SUPPORT. Vector loads (R142–R146, R150): the elements that one loads, and what each register, predicate and check is after it.
-/
namespace Sys2Proof.Machine

open Sys2Proof

theorem vld_runs : RowRuns .vld .vld bodyVload := fun _ _ _ => rfl
theorem vlds_runs : RowRuns .vlds .vlds bodyVload := fun _ _ _ => rfl
theorem vldx_runs : RowRuns .vldx .vldx bodyVload := fun _ _ _ => rfl
theorem firstFault_runs : RowRuns .firstFaultLoad .firstFault bodyVload := fun _ _ _ => rfl

/-! ### Elements and their checks (R142, R143) -/

theorem elemBytes (w : W32) : ewBits (vEw w) / 8 = 2 ^ vEw w := Nat.mul_div_cancel_left _ (by decide)

theorem elemAddr_modes (w : W32) (x : Core) (u : VecUnit) (e : Nat) :
    (vMode w % 4 = 0 → elemAddr w x u e = x.rg (fA w) + BitVec.ofNat 64 (e * 2 ^ vEw w)) ∧
    (vMode w % 4 = 1 → elemAddr w x u e = x.rg (fA w) + BitVec.ofNat 64 e * x.rg (fB w)) ∧
    (vMode w % 4 = 2 → elemAddr w x u e =
      x.rg (fA w) + BitVec.ofNat 64 (elem (u.rv (fB w)) (ewBits (vEw w)) e * 2 ^ vEw w)) := by
  refine ⟨fun h => ?_, fun h => ?_, fun h => ?_⟩
  all_goals simp only [elemAddr, h, elemBytes]

/-- The check of element e of a vector access of core c. -/
def checkElem (s : State) (c : Nat) (w : W32) (store : Bool) (e : Nat) : Except Byte Place :=
  elemCheck s c (core s c).compat store (ewBits (vEw w) / 8) (elemAddr w (core s c) (vec s c) e)

def goodElem (s : State) (c : Nat) (w : W32) (e : Nat) : Bool :=
  match checkElem s c w false e with
  | .ok _ => true
  | .error _ => false

theorem goodElem_iff {s : State} {c e : Nat} {w : W32} : goodElem s c w e = true ↔ ∃ p, checkElem s c w false e = .ok p := by
  unfold goodElem
  cases checkElem s c w false e <;> simp

/-- The elements of one register that the governing predicate makes active. -/
def activeElems (u : VecUnit) (w : W32) : List Nat := (List.range (ewCount (vEw w))).filter (fun e => (u.rp (vPg w)).getLsbD e)

theorem mem_activeElems {u : VecUnit} {w : W32} {e : Nat} :
    e ∈ activeElems u w ↔ e < ewCount (vEw w) ∧ (u.rp (vPg w)).getLsbD e = true := by
  simp [activeElems]

/-- Counting through one register, an element's number is its place there. -/
theorem activeElems_eq (u : VecUnit) (w : W32) :
    (List.range (ewCount (vEw w))).filter (fun e => bit (u.rp (vPg w)) (e % ewCount (vEw w))) = activeElems u w := by
  refine List.filter_congr fun e he => ?_
  rw [Nat.mod_eq_of_lt (List.mem_range.1 he)]
  rfl

theorem activeElems_sorted (u : VecUnit) (w : W32) : (activeElems u w).Pairwise (· < ·) := List.pairwise_lt_range.filter _

theorem mem_takeWhile_of_sorted {l : List Nat} (hl : l.Pairwise (· < ·)) (p : Nat → Bool) (e : Nat) :
    e ∈ l.takeWhile p ↔ e ∈ l ∧ ∀ d, d ∈ l → d ≤ e → p d = true := by
  induction l with
  | nil => simp
  | cons a l ih =>
    obtain ⟨ha, hl⟩ := List.pairwise_cons.1 hl
    cases hp : p a with
    | false =>
      simp only [List.takeWhile_cons, hp, Bool.false_eq_true, if_false, List.not_mem_nil, false_iff, not_and]
      intro he h
      have hle : a ≤ e := by
        obtain rfl | he := List.mem_cons.1 he
        · exact Nat.le_refl _
        · exact Nat.le_of_lt (ha e he)
      simp [h a List.mem_cons_self hle] at hp
    | true =>
      simp only [List.takeWhile_cons, hp, if_true, List.mem_cons, ih hl]
      constructor
      · rintro (rfl | ⟨he, h⟩)
        · refine ⟨.inl rfl, fun d hd hde => ?_⟩
          obtain rfl | hd := hd
          · exact hp
          · exact absurd (ha d hd) (Nat.not_lt.2 hde)
        · refine ⟨.inr he, fun d hd hde => ?_⟩
          obtain rfl | hd := hd
          · exact hp
          · exact h d hd hde
      · rintro ⟨rfl | he, h⟩
        · exact .inl rfl
        · exact .inr ⟨he, fun d hd hde => h d (.inr hd) hde⟩

/-! ### What a load leaves -/

/-- The elements that the load fills: all good ones, or under first-fault those before the first failing one (R150). -/
def loadedElems (s : State) (c : Nat) (w : W32) : List Nat :=
  if bit w 5 then (activeElems (vec s c) w).takeWhile (goodElem s c w) else (activeElems (vec s c) w).filter (goodElem s c w)

def loadValue (s : State) (c : Nat) (w : W32) (e : Nat) : Nat :=
  match checkElem s c w false e with
  | .ok p => elemRead s p (ewBits (vEw w) / 8)
  | .error _ => 0

/-- The tags that the load joins: of each loaded element's lines, and the register's own where an element keeps its old value. -/
def loadTags (s : State) (c : Nat) (w : W32) : List Tag :=
  (((loadedElems s c w).filter (fun e => e / ewCount (vEw w) == 0)).map (fun e =>
    match checkElem s c w false e with
    | .ok p => lineTags s p (ewBits (vEw w) / 8)
    | .error _ => [])).flatten ++
  if ((loadedElems s c w).filter (fun e => e / ewCount (vEw w) == 0)).length = ewCount (vEw w) then [] else [(vec s c).tagV (fD w)]

/-- The register that the load leaves. -/
def loadResult (s : State) (c : Nat) (w : W32) : BitVec 1024 :=
  ofElems 1024 (ewBits (vEw w)) (ewCount (vEw w)) (fun e =>
    if (loadedElems s c w).contains e then loadValue s c w e else elem ((vec s c).rv (fD w)) (ewBits (vEw w)) e)

def loadCheck (s : State) (c : Nat) (w : W32) : VecCheck :=
  if bit w 5 then { addr := (core s c).pc, fault := none }
  else checkOf w (core s c).pc (elemAddr w (core s c) (vec s c)) (checkElem s c w false) (activeElems (vec s c) w)

/-- The unit once the register is filled and the check left. -/
def filledUnit (s : State) (c : Nat) (w : W32) : VecUnit :=
  { (vec s c).wv (fD w) (loadResult s c w) ((joinAll (loadTags s c w)).getD .secret) with checks := (vec s c).checks ++ [loadCheck s c w] }

def loadedUnit (s : State) (c : Nat) (w : W32) : VecUnit :=
  if bit w 5 ∧ (loadedElems s c w).length < (activeElems (vec s c) w).length then
    (filledUnit s c w).wp (vPg w) (predOf (ewCount (vEw w)) (fun e => (loadedElems s c w).contains e)) false
  else filledUnit s c w

/-- A legal load of one register with untagged operands completes where its tags join and no share is read. -/
theorem bodyVload_eq {s : State} {c : Nat} {w : W32} (hl : vmLegal w true = true) (hg : vGroup w = 0)
    (ht : vmTagged w (core s c) (vec s c) = false) : bodyVload c w (core s c) s =
      if ((((loadedElems s c w).filter (fun e => e / ewCount (vEw w) == 0)).length != ewCount (vEw w) && ((vec s c).tagV (fD w)).isShare) ||
        (joinAll (loadTags s c w)).isNone) = true then .exc cTagged 0
      else retV c (core s c) s (loadedUnit s c w) := by
  have ht' : vmTagged w (core s c) (corex s c).vec = false := ht
  unfold bodyVload
  simp only [hl, ht', hg, groupRegs, Nat.pow_zero, List.range_one, List.any_cons, List.any_nil, List.map_cons, List.map_nil, Nat.one_mul,
    Nat.add_zero, Bool.or_false, List.foldl_cons, List.foldl_nil, Nat.zero_mul, Nat.zero_add, Bool.true_eq_false, Bool.false_eq_true,
    if_false, activeElems_eq]
  rfl

/-! ### Tags that join (R177) -/

/-- Tags that are no share and no class of their own. -/
def Plain (t : Tag) : Prop := t = .pub ∨ t = .secret

theorem Plain.join {x y : Tag} (hx : Plain x) (hy : Plain y) : ∃ t, x.join y = some t ∧ Plain t := by
  obtain rfl | rfl := hx <;> obtain rfl | rfl := hy
  · exact ⟨_, rfl, .inl rfl⟩
  · exact ⟨_, rfl, .inr rfl⟩
  · exact ⟨_, rfl, .inr rfl⟩
  · exact ⟨_, rfl, .inr rfl⟩

theorem Plain.isShare {t : Tag} (h : Plain t) : t.isShare = false := by obtain rfl | rfl := h <;> rfl

theorem joinAll_plain {l : List Tag} (h : ∀ t ∈ l, Plain t) : ∃ t, joinAll l = some t ∧ Plain t := by
  induction l with
  | nil => exact ⟨_, rfl, .inl rfl⟩
  | cons x l ih =>
    obtain ⟨t, ht, hp⟩ := ih fun y hy => h y (List.mem_cons_of_mem _ hy)
    obtain ⟨t', ht', hp'⟩ := (h x List.mem_cons_self).join hp
    exact ⟨t', by rw [joinAll, ht]; exact ht', hp'⟩

theorem loadTags_plain {s : State} {c : Nat} {w : W32} (hd : Plain ((vec s c).tagV (fD w)))
    (hl : ∀ e p, checkElem s c w false e = .ok p → ∀ g ∈ lineTags s p (ewBits (vEw w) / 8), Plain g) :
    ∀ t ∈ loadTags s c w, Plain t := by
  intro t ht
  obtain ht | ht := List.mem_append.1 ht
  · obtain ⟨l, hmem, htl⟩ := List.mem_flatten.1 ht
    obtain ⟨e, -, rfl⟩ := List.mem_map.1 hmem
    cases hp : checkElem s c w false e with
    | ok p =>
      rw [hp] at htl
      exact hl e p hp t htl
    | error k =>
      rw [hp] at htl
      cases htl
  · split at ht
    · cases ht
    · obtain rfl := List.mem_singleton.1 ht
      exact hd

/-- A load of plain tags completes. -/
theorem bodyVload_completes {s : State} {c : Nat} {w : W32} (hl : vmLegal w true = true) (hg : vGroup w = 0)
    (ht : vmTagged w (core s c) (vec s c) = false) (hd : Plain ((vec s c).tagV (fD w)))
    (hp : ∀ e p, checkElem s c w false e = .ok p → ∀ g ∈ lineTags s p (ewBits (vEw w) / 8), Plain g) :
    bodyVload c w (core s c) s = retV c (core s c) s (loadedUnit s c w) := by
  obtain ⟨t, hj, -⟩ := joinAll_plain (loadTags_plain hd hp)
  rw [bodyVload_eq hl hg ht, if_neg]
  simp [hd.isShare, hj]

/-! ### The filled register -/

theorem loadValue_lt (s : State) (c : Nat) (w : W32) (e : Nat) : loadValue s c w e < 2 ^ ewBits (vEw w) := by
  unfold loadValue
  split
  · next p _ =>
    have h := natOf_lt (readBytes s p (ewBits (vEw w) / 8))
    have hlen : 8 * (readBytes s p (ewBits (vEw w) / 8)).length = ewBits (vEw w) := by
      rw [readBytes, List.length_map, List.length_range, elemBytes]
      rfl
    rwa [hlen] at h
  · exact Nat.two_pow_pos _

theorem elem_loadResult {s : State} {c e : Nat} {w : W32} (he : e < ewCount (vEw w)) :
    elem (loadResult s c w) (ewBits (vEw w)) e =
      if e ∈ loadedElems s c w then loadValue s c w e else elem ((vec s c).rv (fD w)) (ewBits (vEw w)) e := by
  rw [loadResult, elem_ofElems _ he (Nat.le_of_eq (ewBits_mul_ewCount w))]
  simp only [List.contains_iff_mem]
  split
  · exact Nat.mod_eq_of_lt (loadValue_lt _ _ _ _)
  · exact Nat.mod_eq_of_lt (elem_lt _ _ _)

section
variable (s : State) (c : Nat) (w : W32)

theorem rv_filledUnit : (filledUnit s c w).rv (fD w) = loadResult s c w := rv_wv_same _ _ _ ((joinAll (loadTags s c w)).getD .secret)
theorem rv_filledUnit_other {r : Nat} (h : r ≠ fD w) : (filledUnit s c w).rv r = (vec s c).rv r :=
  rv_wv_other _ _ _ ((joinAll (loadTags s c w)).getD .secret) h

theorem wp_frame (u : VecUnit) (r : Nat) (x : BitVec 128) (t : Bool) : (∀ j, (u.wp r x t).rv j = u.rv j) ∧
    (u.wp r x t).pending = u.pending ∧ (u.wp r x t).checks = u.checks := by
  unfold VecUnit.wp
  split
  all_goals exact ⟨fun _ => rfl, rfl, rfl⟩

theorem loadedUnit_frame : (∀ r, (loadedUnit s c w).rv r = (filledUnit s c w).rv r) ∧ (loadedUnit s c w).pending = (vec s c).pending ∧
    (loadedUnit s c w).checks = (vec s c).checks ++ [loadCheck s c w] := by
  unfold loadedUnit
  split
  · exact wp_frame _ _ _ _
  · exact ⟨fun _ => rfl, rfl, rfl⟩

end

/-! ### The statements -/

/-- What an ordinary vector load of one register does. -/
def Loads (mk : Nat → W32 → Instr) (k : Klass) (m : Nat) : Prop :=
  ∀ (s : State) (c : Nat) (w : W32), Issues k c w s → vMode w = m → vmLegal w true = true → vGroup w = 0 →
    vmTagged w (core s c) (vec s c) = false → ((vec s c).tagV (fD w) = .pub ∨ (vec s c).tagV (fD w) = .secret) →
    (∀ e p, checkElem s c w false e = .ok p → ∀ g ∈ lineTags s p (ewBits (vEw w) / 8), g = .pub ∨ g = .secret) →
    ∃ t, Runs (mk c w) s t ∧ VectorFrame c s t ∧
      (∀ e, e < ewCount (vEw w) → elem ((vec t c).rv (fD w)) (ewBits (vEw w)) e =
        match (if ((vec s c).rp (vPg w)).getLsbD e then some (checkElem s c w false e) else none) with
        | some (.ok p) => natOf (readBytes s p (ewBits (vEw w) / 8))
        | _ => elem ((vec s c).rv (fD w)) (ewBits (vEw w)) e) ∧
      (∀ r, r ≠ fD w → (vec t c).rv r = (vec s c).rv r) ∧ (vec t c).p = (vec s c).p ∧ (vec t c).pending = (vec s c).pending ∧
      (vec t c).checks = (vec s c).checks ++ [checkOf w (core s c).pc (elemAddr w (core s c) (vec s c)) (checkElem s c w false)
        ((List.range (ewCount (vEw w))).filter (fun e => ((vec s c).rp (vPg w)).getLsbD e))]

theorem loads {mk : Nat → W32 → Instr} {k : Klass} {m : Nat} (hr : RowRuns mk k bodyVload) (hk : k.vector = true)
    (hff : ∀ w, klass w = k → bit w 5 = false) : Loads mk k m := by
  intro s c w hi _ hl hg ht hd hp
  obtain ⟨t, hrun, hframe, hvec⟩ := hr.vectorWrites hi hk (bodyVload_completes hl hg ht hd hp)
  have hplain := hff w hi.1
  have hunit : loadedUnit s c w = filledUnit s c w := if_neg (by simp [hplain])
  have hcheck : loadCheck s c w = checkOf w (core s c).pc (elemAddr w (core s c) (vec s c)) (checkElem s c w false)
    (activeElems (vec s c) w) := if_neg (by simp [hplain])
  have hloaded : ∀ e, e ∈ loadedElems s c w ↔ (e < ewCount (vEw w) ∧ ((vec s c).rp (vPg w)).getLsbD e = true) ∧ goodElem s c w e = true := by
    intro e
    rw [loadedElems, if_neg (by simp [hplain]), List.mem_filter, mem_activeElems]
  rw [hunit] at hvec
  refine ⟨t, hrun, hframe, fun e he => ?_, fun r hne => ?_, ?_, ?_, ?_⟩
  · rw [hvec, rv_filledUnit, elem_loadResult he]
    simp only [hloaded, he, true_and, goodElem, loadValue]
    cases ((vec s c).rp (vPg w)).getLsbD e with
    | false => simp
    | true => cases checkElem s c w false e <;> simp [elemRead]
  · rw [hvec, rv_filledUnit_other _ _ _ hne]
  · rw [hvec]
    rfl
  · rw [hvec]
    rfl
  · rw [hvec, filledUnit, hcheck]
    rfl

/-- Of the loads, the words with bit 5 are first-fault ones. -/
theorem klass_firstFault_iff {w : W32} :
    klass w ∈ [Klass.vld, .vlds, .vldx, .firstFault] → (klass w = .firstFault ↔ bit w 5 = true) := by
  refine klass_cases (motive := fun k => k ∈ [Klass.vld, .vlds, .vldx, .firstFault] → (k = .firstFault ↔ _))
    (fun k hk hmem => ?_) (fun _ hmem => absurd hmem (by decide)) (fun _ k hk hmem => ?_) (fun _ => ?_) (fun _ => ?_)
  · have hnot : ∀ k ∈ [Klass.vld, .vlds, .vldx, .firstFault], k.vector = true := by decide
    rw [hnot k hmem] at hk
    cases hk
  · have hnot : ∀ k ∈ [Klass.vecMod, .vecReduce, .vecGf, .vecPred, .vfence], k ∉ [Klass.vld, .vlds, .vldx, .firstFault] := by decide
    exact absurd hmem (hnot k hk)
  · unfold tripleKlass
    split <;> exact fun h => absurd h (by decide)
  · cases bit w 5
    all_goals
      unfold memoryKlass
      split <;> decide

theorem not_firstFault {w : W32} {k : Klass} (h : klass w = k) (hk : k ∈ [Klass.vld, .vlds, .vldx]) : bit w 5 = false := by
  have hn : k ≠ .firstFault := by
    rintro rfl
    exact absurd hk (by decide)
  have hmem : klass w ∈ [Klass.vld, .vlds, .vldx, .firstFault] := h ▸ List.mem_append_left [Klass.firstFault] hk
  refine Decidable.byContradiction fun hb => ?_
  exact hn (h ▸ (klass_firstFault_iff hmem).2 (by simpa using hb))

/-- A first-fault load is of one register and under a predicate of p1 to p7 (R142). -/
theorem firstFault_legal {w : W32} (hb : bit w 5 = true) (hl : vmLegal w true = true) : vGroup w = 0 ∧ vPg w ≠ 0 := by
  simp only [vmLegal, hb, Bool.and_eq_true] at hl
  obtain ⟨⟨⟨-, hff⟩, -⟩, -⟩ := hl
  simpa using hff

theorem length_takeWhile_lt {l : List Nat} {p : Nat → Bool} : (l.takeWhile p).length < l.length ↔ ∃ e ∈ l, p e = false := by
  induction l with
  | nil => simp
  | cons a l ih =>
    cases h : p a
    · rw [List.takeWhile_cons_of_neg (by simp [h])]
      simp [h]
    · rw [List.takeWhile_cons_of_pos h, List.length_cons, List.length_cons, Nat.succ_lt_succ_iff, ih]
      simp [h]

theorem firstFaultLoads {s : State} {c : Nat} {w : W32} (hi : Issues .firstFault c w s) (hl : vmLegal w true = true)
    (ht : vmTagged w (core s c) (vec s c) = false) (hd : Plain ((vec s c).tagV (fD w)))
    (hp : ∀ e p, checkElem s c w false e = .ok p → ∀ g ∈ lineTags s p (ewBits (vEw w) / 8), Plain g) :
    let loaded (e : Nat) : Prop := ((vec s c).rp (vPg w)).getLsbD e = true ∧
      ∀ d, d ≤ e → ((vec s c).rp (vPg w)).getLsbD d = true → goodElem s c w d = true
    ∃ t, Runs (.firstFaultLoad c w) s t ∧ VectorFrame c s t ∧ (vec t c).pending = (vec s c).pending ∧
      (∀ e, e < ewCount (vEw w) → ¬ loaded e →
        elem ((vec t c).rv (fD w)) (ewBits (vEw w)) e = elem ((vec s c).rv (fD w)) (ewBits (vEw w)) e) ∧
      (∀ e, e < ewCount (vEw w) → loaded e → ∃ p, checkElem s c w false e = .ok p ∧
        elem ((vec t c).rv (fD w)) (ewBits (vEw w)) e = natOf (readBytes s p (ewBits (vEw w) / 8))) ∧
      ((∃ e, e < ewCount (vEw w) ∧ ((vec s c).rp (vPg w)).getLsbD e = true ∧ goodElem s c w e = false) →
        ∀ e, e < ewCount (vEw w) → (((vec t c).rp (vPg w)).getLsbD e = true ↔ loaded e)) ∧
      ((∀ e, e < ewCount (vEw w) → ((vec s c).rp (vPg w)).getLsbD e = true → goodElem s c w e = true) →
        (vec t c).rp (vPg w) = (vec s c).rp (vPg w)) ∧
      (vec t c).checks = (vec s c).checks ++ [{ addr := (core s c).pc, fault := none }] := by
  intro loaded
  have hff : bit w 5 = true := (klass_firstFault_iff (by rw [hi.1]; decide)).1 hi.1
  obtain ⟨hg, hpg⟩ := firstFault_legal hff hl
  obtain ⟨t, hrun, hframe, hvec⟩ := firstFault_runs.vectorWrites hi rfl (bodyVload_completes hl hg ht hd hp)
  obtain ⟨hrv, hpending, hchecks⟩ := loadedUnit_frame s c w
  have hloaded : ∀ e, e < ewCount (vEw w) → (e ∈ loadedElems s c w ↔ loaded e) := by
    intro e he
    rw [loadedElems, if_pos hff, mem_takeWhile_of_sorted (activeElems_sorted _ _)]
    simp only [mem_activeElems, he, true_and, loaded]
    exact and_congr_right fun _ => ⟨fun h d hde hact => h d ⟨by omega, hact⟩ hde, fun h d hact hde => h d hde hact.2⟩
  have hnarrow : (loadedElems s c w).length < (activeElems (vec s c) w).length ↔
      ∃ e, e < ewCount (vEw w) ∧ ((vec s c).rp (vPg w)).getLsbD e = true ∧ goodElem s c w e = false := by
    rw [loadedElems, if_pos hff, length_takeWhile_lt]
    simp only [mem_activeElems, and_assoc]
  have helem : ∀ e, e < ewCount (vEw w) → elem ((vec t c).rv (fD w)) (ewBits (vEw w)) e =
      if e ∈ loadedElems s c w then loadValue s c w e else elem ((vec s c).rv (fD w)) (ewBits (vEw w)) e := by
    intro e he
    rw [hvec, hrv, rv_filledUnit, elem_loadResult he]
  refine ⟨t, hrun, hframe, hvec ▸ hpending, fun e he hn => ?_, fun e he hy => ?_, fun hbad e he => ?_, fun hall => ?_, ?_⟩
  · rw [helem e he, if_neg (by rwa [hloaded e he])]
  · obtain ⟨p, hok⟩ := goodElem_iff.1 (hy.2 e (Nat.le_refl _) hy.1)
    refine ⟨p, hok, ?_⟩
    rw [helem e he, if_pos ((hloaded e he).2 hy), loadValue, hok]
    rfl
  · rw [hvec, loadedUnit, if_pos ⟨hff, hnarrow.2 hbad⟩, rp_wp_same _ _ _ hpg, getLsbD_predOf _ (ewCount_le w), ← hloaded e he]
    simp [he]
  · have hnot : ¬ (loadedElems s c w).length < (activeElems (vec s c) w).length := by
      rw [hnarrow]
      rintro ⟨e, he, hact, hbad⟩
      simp [hall e he hact] at hbad
    rw [hvec, loadedUnit, if_neg fun h => hnot h.2]
    rfl
  · rw [hvec, hchecks, loadCheck, if_pos hff]

theorem vld_illegal : Raises .vld .vld (fun _ _ w => vmLegal w true = false) 0x01 (fun _ _ => 0) :=
  vld_runs.raises fun _ _ _ h => if_pos h

theorem vld_tagged : Raises .vld .vld (fun c s w => vmLegal w true = true ∧ (core s c).tagG (fA w) ≠ .pub) 0x04 (fun _ _ => 0) :=
  vld_runs.raises (by
    rintro c w s ⟨hl, ht⟩
    have htagged : vmTagged w (core s c) (corex s c).vec = true := by simp [vmTagged, ht]
    unfold bodyVload
    rw [if_neg (by simp [hl]), if_pos htagged]
    rfl)

/-- Settles O30: one loaded register is merged of the loaded elements and the old ones; under first-fault the loaded are the first of them in order. -/
theorem vectorLoadsFillActiveElements : Obligations.VectorLoadsFillActiveElements := by
  unfold Obligations.VectorLoadsFillActiveElements
  refine ⟨elemAddr_modes, ⟨?_, ?_, ?_, vld_illegal, vld_tagged⟩, fun s c w hi hl ht hd hp => firstFaultLoads hi hl ht hd hp⟩
  · exact loads vld_runs rfl fun w h => not_firstFault h (by decide)
  · exact loads vlds_runs rfl fun w h => not_firstFault h (by decide)
  · exact loads vldx_runs rfl fun w h => not_firstFault h (by decide)

end Sys2Proof.Machine
end

section
/-!
SUPPORT. Vector stores (R142–R146, R180): the elements that one writes, in ascending order, and what stands in memory after them.
-/
namespace Sys2Proof.Machine

open Sys2Proof

theorem vst_runs : RowRuns .vst .vst bodyVstore := fun _ _ _ => rfl
theorem vsts_runs : RowRuns .vsts .vsts bodyVstore := fun _ _ _ => rfl
theorem vstx_runs : RowRuns .vstx .vstx bodyVstore := fun _ _ _ => rfl

/-! ### What a store of one register writes -/

/-- The elements written, in ascending order, with their places. -/
def storeWrites (s : State) (c : Nat) (w : W32) : List (Nat × Place) :=
  (activeElems (vec s c) w).filterMap (fun e =>
    match checkElem s c w true e with
    | .ok p => some (e, p)
    | .error _ => none)

/-- Every byte written, with the tag of its data. -/
def storeCells (s : State) (c : Nat) (w : W32) : List (Place × Tag) :=
  ((storeWrites s c w).map (fun q => (List.range (ewBits (vEw w) / 8)).map (fun k =>
    (q.2.add k, (vec s c).tagV (fD w + q.1 / ewCount (vEw w)))))).flatten

/-- A number for the line of a place, of its kind of memory. -/
def lineId (p : Place) : Nat := 3 * (p.key / 64) + p.wordKey % 3

def cellsInLine (s : State) (c : Nat) (w : W32) (p : Place) : List (Place × Tag) :=
  (storeCells s c w).filter (fun q => lineId q.1 == lineId p)

/-- The first byte written of every line. -/
def storeFirsts (s : State) (c : Nat) (w : W32) : List Place :=
  (((storeCells s c w).map (fun q => lineId q.1)).eraseDups).filterMap (fun l =>
    ((storeCells s c w).find? (fun q => lineId q.1 == l)).map (fun q => q.1))

/-- The line's tag after the store (R180). -/
def storeTag (s : State) (c : Nat) (w : W32) (p : Place) : Option Tag :=
  (cellsInLine s c w p).foldl (fun t q => t.bind (fun t => t.join q.2))
    (some (if covers ((cellsInLine s c w p).map (fun q => q.1.key)) (p.key / 64) then .pub else lineTag s p))

/-- What the others see kept, and the lines tagged. -/
def storeTagged (s : State) (c : Nat) (w : W32) : State :=
  (storeFirsts s c w).foldl (fun t p => setLineTag p ((storeTag s c w p).getD .secret) t)
    ((storeWrites s c w).foldl (fun t q => keepOld c q.2 (ewBits (vEw w) / 8) t) s)

/-- Then the elements written. -/
def storeWritten (s : State) (c : Nat) (w : W32) : State :=
  (storeWrites s c w).foldl (fun t q => writeBytes q.2 (bytesOf (elem ((vec s c).rv (fD w + q.1 / ewCount (vEw w))) (ewBits (vEw w))
    (q.1 % ewCount (vEw w))) (ewBits (vEw w) / 8)) t) (storeTagged s c w)

/-- Then each access in its port's turn. -/
def storeServed (s : State) (c : Nat) (w : W32) : State :=
  (storeWrites s c w).foldl (fun t q => inTurn (c % 16) q.2 (ewBits (vEw w) / 8) s t) (storeWritten s c w)

/-- The unit with the store's check left outstanding. -/
def storeUnit (s : State) (c : Nat) (w : W32) : VecUnit :=
  { vec s c with checks := (vec s c).checks ++
      [checkOf w (core s c).pc (elemAddr w (core s c) (vec s c)) (checkElem s c w true) (activeElems (vec s c) w)] }

theorem bodyVstore_eq {s : State} {c : Nat} {w : W32} (hl : vmLegal w false = true) (hg : vGroup w = 0)
    (ht : vmTagged w (core s c) (vec s c) = false) : bodyVstore c w (core s c) s =
      if (storeFirsts s c w).any (fun p => (storeTag s c w p).isNone) = true then .exc cTagged 0
      else .ok (setVec c (storeUnit s c w) (storeServed s c w)) ((core s c).pc + 4) := by
  have ht' : vmTagged w (core s c) (corex s c).vec = false := ht
  unfold bodyVstore
  simp only [hl, ht', hg, groupRegs, Nat.pow_zero, Nat.one_mul, Bool.true_eq_false, Bool.false_eq_true, if_false, activeElems_eq]
  rfl

/-! ### Which elements, and where -/

/-- Element e is written at place p. -/
def Writes (s : State) (c : Nat) (w : W32) (e : Nat) (p : Place) : Prop :=
  e < ewCount (vEw w) ∧ ((vec s c).rp (vPg w)).getLsbD e = true ∧ checkElem s c w true e = .ok p

theorem mem_storeWrites {s : State} {c : Nat} {w : W32} {q : Nat × Place} : q ∈ storeWrites s c w ↔ Writes s c w q.1 q.2 := by
  obtain ⟨e, p⟩ := q
  rw [storeWrites, List.mem_filterMap]
  constructor
  · rintro ⟨d, hd, h⟩
    cases hc : checkElem s c w true d with
    | ok r =>
      rw [hc] at h
      obtain ⟨rfl, rfl⟩ := Prod.mk.inj (Option.some.inj h)
      obtain ⟨hlt, hact⟩ := mem_activeElems.1 hd
      exact ⟨hlt, hact, hc⟩
    | error k =>
      rw [hc] at h
      cases h
  · rintro ⟨hlt, hact, hc⟩
    exact ⟨e, mem_activeElems.2 ⟨hlt, hact⟩, by rw [hc]⟩

theorem storeWrites_sorted (s : State) (c : Nat) (w : W32) : (storeWrites s c w).Pairwise (fun a b => a.1 < b.1) := by
  refine (activeElems_sorted (vec s c) w).filterMap _ fun d d' hlt q hq q' hq' => ?_
  have hfst : ∀ d (q : Nat × Place), (match checkElem s c w true d with
      | .ok p => some (d, p)
      | .error _ => none) = some q → q.1 = d := by
    intro d q h
    split at h
    · rw [← Option.some.inj h]
    · cases h
  rw [hfst d q hq, hfst d' q' hq']
  exact hlt

/-- A place that the map of level A names is in the core's local memory or its ring. -/
theorem actPlace_notWork {s : State} {c a n : Nat} {p : Place} (h : actPlace s c a n = .mem p ∨ actPlace s c a n = .readOnly p) :
    p.isWork = false := by
  unfold actPlace at h
  dsimp only at h
  repeat' split at h
  all_goals simp at h
  all_goals subst h
  all_goals rfl

theorem rangePlace_notWork {s : State} {c a n : Nat} {wr : Bool} {p : Place} (h : rangePlace s c a n wr = .ok p) : p.isWork = false := by
  unfold rangePlace at h
  split at h
  · next q hq => exact actPlace_notWork (.inl (hq.trans (congrArg Where.mem (Except.ok.inj h))))
  · next q hq =>
    split at h
    · cases h
    · exact actPlace_notWork (.inr (hq.trans (congrArg Where.readOnly (Except.ok.inj h))))
  · split at h
    · cases h
    · split at h
      · next q hq => exact actPlace_notWork (.inl (hq.trans (congrArg Where.mem (Except.ok.inj h))))
      · next q hq => exact actPlace_notWork (.inr (hq.trans (congrArg Where.readOnly (Except.ok.inj h))))
      · cases h

theorem Writes.notWork {s : State} {c e : Nat} {w : W32} {p : Place} (h : Writes s c w e p) : p.isWork = false := by
  obtain ⟨-, -, h⟩ := h
  unfold checkElem elemCheck at h
  split at h
  · cases h
  · split at h
    · next q hq =>
      obtain rfl := Except.ok.inj h
      exact rangePlace_notWork hq
    · cases h

/-! ### Tags of a store (R177, R180) -/

theorem foldl_join_plain {l : List (Place × Tag)} (h : ∀ q ∈ l, Plain q.2) {t : Tag} (ht : Plain t) :
    ∃ t', l.foldl (fun t q => t.bind (fun t => t.join q.2)) (some t) = some t' := by
  induction l generalizing t with
  | nil => exact ⟨t, rfl⟩
  | cons q l ih =>
    obtain ⟨t', hj, hp⟩ := ht.join (h q List.mem_cons_self)
    rw [List.foldl_cons, Option.bind_some, hj]
    exact ih (fun q hq => h q (List.mem_cons_of_mem _ hq)) hp

theorem mem_storeCells {s : State} {c : Nat} {w : W32} {q : Place × Tag} (h : q ∈ storeCells s c w) :
    ∃ e p k, Writes s c w e p ∧ k < ewBits (vEw w) / 8 ∧ q = (p.add k, (vec s c).tagV (fD w)) := by
  obtain ⟨l, hl, hq⟩ := List.mem_flatten.1 h
  obtain ⟨⟨e, p⟩, hw, rfl⟩ := List.mem_map.1 hl
  obtain ⟨k, hk, rfl⟩ := List.mem_map.1 hq
  have hwrites := mem_storeWrites.1 hw
  refine ⟨e, p, k, hwrites, List.mem_range.1 hk, ?_⟩
  rw [Nat.div_eq_of_lt hwrites.1]
  rfl

theorem mem_storeFirsts {s : State} {c : Nat} {w : W32} {p : Place} (h : p ∈ storeFirsts s c w) : ∃ t, (p, t) ∈ storeCells s c w := by
  obtain ⟨l, -, hl⟩ := List.mem_filterMap.1 h
  obtain ⟨⟨q, t⟩, hfind, rfl⟩ := Option.map_eq_some_iff.1 hl
  exact ⟨t, List.mem_of_find?_eq_some hfind⟩

/-- A store of plain data to plain lines completes. -/
theorem bodyVstore_completes {s : State} {c : Nat} {w : W32} (hl : vmLegal w false = true) (hg : vGroup w = 0)
    (ht : vmTagged w (core s c) (vec s c) = false) (hd : Plain ((vec s c).tagV (fD w)))
    (hp : ∀ e p k, Writes s c w e p → k < ewBits (vEw w) / 8 → Plain (lineTag s (p.add k))) :
    bodyVstore c w (core s c) s = .ok (setVec c (storeUnit s c w) (storeServed s c w)) ((core s c).pc + 4) := by
  rw [bodyVstore_eq hl hg ht, if_neg]
  rw [Bool.not_eq_true, List.any_eq_false]
  intro p hmem
  obtain ⟨t, hcell⟩ := mem_storeFirsts hmem
  obtain ⟨e, q, k, hw, hk, hq⟩ := mem_storeCells hcell
  obtain ⟨rfl, -⟩ := Prod.mk.inj hq
  have hcells : ∀ r ∈ cellsInLine s c w (q.add k), Plain r.2 := by
    intro r hr
    obtain ⟨_, _, _, -, -, rfl⟩ := mem_storeCells (List.mem_filter.1 hr).1
    exact hd
  have hstart : ∀ b : Bool, Plain (if b then .pub else lineTag s (q.add k)) := by
    intro b
    cases b with
    | true => exact .inl rfl
    | false => exact hp e q k hw hk
  obtain ⟨t', ht'⟩ := foldl_join_plain hcells (hstart _)
  rw [storeTag, ht']
  simp

/-! ### The bytes after a store -/

theorem readByte_storeTagged (s : State) (c : Nat) (w : W32) (q : Place) : readByte (storeTagged s c w) q = readByte s q := by
  rw [storeTagged, foldl_keeps (fun t => readByte t q) (fun t p => readByte_setLineTag p q _ t)]
  exact foldl_keeps (fun t => readByte t q) (f := fun t (r : Nat × Place) => keepOld c r.2 (ewBits (vEw w) / 8) t) (fun t r => rfl) _ s

theorem foldl_writeBytes_outside {α : Type} (at_ : α → Place) (data : α → List Byte) {l : List α} {q : Place}
    (h : ∀ x ∈ l, q.outside (at_ x) (data x).length) (s : State) :
    readByte (l.foldl (fun t x => writeBytes (at_ x) (data x) t) s) q = readByte s q := by
  induction l generalizing s with
  | nil => rfl
  | cons x l ih =>
    rw [List.foldl_cons, ih fun y hy => h y (List.mem_cons_of_mem _ hy)]
    exact readByte_writeBytes_outside _ _ _ _ (h x List.mem_cons_self)

/-- An element that no later one overlaps stands as it was written. -/
theorem foldl_writeBytes_last {α : Type} (at_ : α → Place) (data : α → List Byte) {l : List α} {x : α} (hx : x ∈ l) {lt : α → α → Prop}
    (hl : l.Pairwise lt) (h : ∀ y ∈ l, lt x y → ∀ n, n < (data x).length → ((at_ x).add n).outside (at_ y) (data y).length) (s : State) :
    readBytes (l.foldl (fun t x => writeBytes (at_ x) (data x) t) s) (at_ x) (data x).length = data x := by
  obtain ⟨l₁, l₂, rfl⟩ := List.append_of_mem hx
  have hafter : ∀ y ∈ l₂, lt x y := (List.pairwise_cons.1 (List.pairwise_append.1 hl).2.1).1
  rw [List.foldl_append, List.foldl_cons]
  refine Eq.trans (List.map_congr_left fun n hn => ?_) (readBytes_writeBytes (data x) (at_ x) (l₁.foldl (fun t x => writeBytes (at_ x) (data x) t) s))
  exact foldl_writeBytes_outside at_ data (fun y hy => h y (by simp [hy]) (hafter y hy) n (List.mem_range.1 hn)) _

theorem mem_storeServed {s : State} {c : Nat} {w : W32}
    (h : ∀ e p, Writes s c w e p → lastInTurn s (c % 16) p (ewBits (vEw w) / 8) = true) :
    (storeServed s c w).mem = (storeWritten s c w).mem := by
  have hfold : ∀ (l : List (Nat × Place)) (t : State), (∀ q ∈ l, lastInTurn s (c % 16) q.2 (ewBits (vEw w) / 8) = true) →
      (l.foldl (fun t q => inTurn (c % 16) q.2 (ewBits (vEw w) / 8) s t) t).mem = t.mem := by
    intro l
    induction l with
    | nil => exact fun _ _ => rfl
    | cons q l ih =>
      intro t hl
      rw [List.foldl_cons, ih _ fun r hr => hl r (List.mem_cons_of_mem _ hr)]
      exact inTurn_last _ _ _ _ _ (hl q List.mem_cons_self)
  exact hfold _ _ fun q hq => h _ _ (mem_storeWrites.1 hq)

/-! ### The rest of the machine -/

/-- Beside core c's record and the memories, the state is as before. -/
def CoreOnly (c : Nat) (s t : State) : Prop := ∀ y, MemFrame (setCorex c y s) (setCorex c y t)

theorem MemFrame.coreOnly {c : Nat} {s t : State} (h : MemFrame s t) : CoreOnly c s t := by
  obtain ⟨m, b, rfl⟩ := h
  exact fun y => ⟨m, b, rfl⟩

theorem CoreOnly.trans {c : Nat} {s t u : State} (h : CoreOnly c s t) (h' : CoreOnly c t u) : CoreOnly c s u :=
  fun y => (h y).trans (h' y)

theorem CoreOnly.foldl {c : Nat} {β : Type} {f : State → β → State} (h : ∀ s b, CoreOnly c s (f s b)) (l : List β) (s : State) :
    CoreOnly c s (l.foldl f s) := by
  induction l generalizing s with
  | nil => exact fun _ => .refl _
  | cons b l ih => exact (h s b).trans (ih _)

theorem keepOld_coreOnly (c : Nat) (p : Place) (n : Nat) (s : State) : CoreOnly c s (keepOld c p n s) := by
  intro y
  rw [keepOld_eq, setCorex_setCorex]
  exact .refl _

theorem storeServed_coreOnly (s : State) (c : Nat) (w : W32) : CoreOnly c s (storeServed s c w) := by
  have hkept := CoreOnly.foldl (c := c) (fun t (q : Nat × Place) => keepOld_coreOnly c q.2 (ewBits (vEw w) / 8) t) (storeWrites s c w) s
  have htagged := MemFrame.foldl (fun t p => setLineTag_memFrame p ((storeTag s c w p).getD .secret) t) (storeFirsts s c w)
    ((storeWrites s c w).foldl (fun t q => keepOld c q.2 (ewBits (vEw w) / 8) t) s)
  have hwritten := MemFrame.foldl (fun t (q : Nat × Place) => writeBytes_memFrame q.2 (bytesOf (elem ((vec s c).rv (fD w + q.1 / ewCount (vEw w)))
    (ewBits (vEw w)) (q.1 % ewCount (vEw w))) (ewBits (vEw w) / 8)) t) (storeWrites s c w) (storeTagged s c w)
  have hserved := MemFrame.foldl (fun t (q : Nat × Place) => inTurn_memFrame (c % 16) q.2 (ewBits (vEw w) / 8) s t) (storeWrites s c w)
    (storeWritten s c w)
  exact hkept.trans ((htagged.trans (hwritten.trans hserved)).coreOnly)

theorem storeWritten_rest (s : State) (c : Nat) (w : W32) : restOfMem (storeWritten s c w) = restOfMem s := by
  have hwritten : ∀ (l : List (Nat × Place)) (t : State), (∀ q ∈ l, q.2.isWork = false) → restOfMem (l.foldl (fun t q => writeBytes q.2
      (bytesOf (elem ((vec s c).rv (fD w + q.1 / ewCount (vEw w))) (ewBits (vEw w)) (q.1 % ewCount (vEw w))) (ewBits (vEw w) / 8)) t) t) =
      restOfMem t := by
    intro l
    induction l with
    | nil => exact fun _ _ => rfl
    | cons q l ih =>
      intro t hl
      rw [List.foldl_cons, ih _ fun r hr => hl r (List.mem_cons_of_mem _ hr)]
      exact writeBytes_rest (hl q List.mem_cons_self) _ _
  rw [storeWritten, hwritten _ _ fun q hq => (mem_storeWrites.1 hq).notWork, storeTagged,
    foldl_keeps restOfMem (fun t p => setLineTag_rest _ _ t)]
  exact foldl_keeps restOfMem (f := fun t (q : Nat × Place) => keepOld c q.2 (ewBits (vEw w) / 8) t) (fun t q => rfl) _ s

/-! ### The statement -/

/-- What a vector store of one register does. -/
def Stores (mk : Nat → W32 → Instr) (k : Klass) (m : Nat) : Prop :=
  ∀ (s : State) (c : Nat) (w : W32), Issues k c w s → vMode w = m → vmLegal w false = true → vGroup w = 0 →
    vmTagged w (core s c) (vec s c) = false → ((vec s c).tagV (fD w) = .pub ∨ (vec s c).tagV (fD w) = .secret) →
    (∀ e p k, Writes s c w e p → k < ewBits (vEw w) / 8 → lineTag s (p.add k) = .pub ∨ lineTag s (p.add k) = .secret) →
    (∀ e p, Writes s c w e p → lastInTurn s (c % 16) p (ewBits (vEw w) / 8) = true) →
    ∃ t, Runs (mk c w) s t ∧ (vec t c).v = (vec s c).v ∧ (vec t c).p = (vec s c).p ∧ (core t c).pc = (core s c).pc + 4 ∧
      (∀ r, (core t c).rg r = (core s c).rg r) ∧ (∀ d, d ≠ c → core t d = core s d ∧ corex t d = corex s d) ∧
      (∀ q, (∀ e p, Writes s c w e p → Apart p (ewBits (vEw w) / 8) q) → readByte t q = readByte s q) ∧
      (∀ e p, Writes s c w e p → (∀ f r, Writes s c w f r → e < f → ∀ n, n < ewBits (vEw w) / 8 →
          Apart r (ewBits (vEw w) / 8) (p.add n)) →
        readBytes t p (ewBits (vEw w) / 8) = bytesOf (elem ((vec s c).rv (fD w)) (ewBits (vEw w)) e) (ewBits (vEw w) / 8)) ∧
      (vec t c).checks = (vec s c).checks ++ [checkOf w (core s c).pc (elemAddr w (core s c) (vec s c)) (checkElem s c w true)
        ((List.range (ewCount (vEw w))).filter (fun e => ((vec s c).rp (vPg w)).getLsbD e))] ∧
      t.tickets = s.tickets ∧ t.mgmt = s.mgmt ∧ t.fc = s.fc ∧ t.fcq = s.fcq ∧ t.mem.workMem = s.mem.workMem

theorem readByte_storeWritten_outside {s : State} {c : Nat} {w : W32} {q : Place}
    (h : ∀ e p, Writes s c w e p → Apart p (ewBits (vEw w) / 8) q) : readByte (storeWritten s c w) q = readByte s q := by
  refine (foldl_writeBytes_outside (fun x : Nat × Place => x.2) _ (fun x hx => ?_) _).trans (readByte_storeTagged s c w q)
  rw [bytesOf_length]
  exact outside_of_apart (h _ _ (mem_storeWrites.1 hx))

theorem readBytes_storeWritten {s : State} {c e : Nat} {w : W32} {p : Place} (hw : Writes s c w e p)
    (h : ∀ f r, Writes s c w f r → e < f → ∀ n, n < ewBits (vEw w) / 8 → Apart r (ewBits (vEw w) / 8) (p.add n)) :
    readBytes (storeWritten s c w) p (ewBits (vEw w) / 8) =
      bytesOf (elem ((vec s c).rv (fD w)) (ewBits (vEw w)) e) (ewBits (vEw w) / 8) := by
  have hlast := foldl_writeBytes_last (fun x : Nat × Place => x.2) (fun q => bytesOf (elem ((vec s c).rv (fD w + q.1 / ewCount (vEw w)))
    (ewBits (vEw w)) (q.1 % ewCount (vEw w))) (ewBits (vEw w) / 8)) (x := (e, p)) (mem_storeWrites.2 hw) (storeWrites_sorted s c w)
    (fun y hy hlt n hn => by
      rw [bytesOf_length] at hn ⊢
      exact outside_of_apart (h _ _ (mem_storeWrites.1 hy) hlt n hn)) (storeTagged s c w)
  simpa only [storeWritten, bytesOf_length, Nat.div_eq_of_lt hw.1, Nat.mod_eq_of_lt hw.1, Nat.add_zero] using hlast

theorem stores {mk : Nat → W32 → Instr} {k : Klass} {m : Nat} (hr : RowRuns mk k bodyVstore) (hk : k.vector = true) : Stores mk k m := by
  intro s c w hi _ hl hg ht hd hp hlast
  obtain ⟨n, f, b, hu⟩ := after_wentOn (hi.ring hk)
    (storeServed_coreOnly s c w { corex (storeServed s c w) c with vec := storeUnit s c w }) ((core s c).pc + 4)
  have hmem := mem_storeServed hlast
  have hbytes : ∀ q, readByte (after c s (setVec c (storeUnit s c w) (storeServed s c w)) ((core s c).pc + 4)) q =
      readByte (storeWritten s c w) q := readByte_congr ((congrArg State.mem hu).trans hmem)
  have hvec : vec (after c s (setVec c (storeUnit s c w) (storeServed s c w)) ((core s c).pc + 4)) c = storeUnit s c w :=
    (congrArg (fun t => vec t c) hu).trans (congrArg CoreX.vec (corex_wentOn s c _ _ _ _ _ _))
  refine ⟨_, hr.completes hi (bodyVstore_completes hl hg ht hd hp), ?_⟩
  refine ⟨?_, ?_, ?_, fun r => ?_, fun d hne => ?_, fun q hq => ?_, fun e p hw h => ?_, ?_, ?_⟩
  · rw [hvec]
    rfl
  · rw [hvec]
    rfl
  · exact (congrArg (fun t => (core t c).pc) hu).trans (pc_wentOn ..)
  · exact (congrArg (fun t => (core t c).rg r) hu).trans (rg_wentOn ..).1
  · exact ⟨(congrArg (fun t => core t d) hu).trans (core_wentOn_other _ _ _ _ _ _ _ _ hne),
      (congrArg (fun t => corex t d) hu).trans (corex_wentOn_other _ _ _ _ _ _ _ _ hne)⟩
  · exact (hbytes q).trans (readByte_storeWritten_outside hq)
  · exact (readBytes_congr hbytes _ _).trans (readBytes_storeWritten hw h)
  · exact congrArg VecUnit.checks hvec
  · refine ⟨(congrArg State.tickets hu).trans (tickets_wentOn ..), (congrArg State.mgmt hu).trans (mgmt_wentOn ..),
      (congrArg State.fc hu).trans (fc_wentOn ..), (congrArg State.fcq hu).trans (fcq_wentOn ..), ?_⟩
    exact (congrArg (fun t => t.mem.workMem) hu).trans ((congrArg Memory.workMem hmem).trans (congrArg Prod.fst (storeWritten_rest s c w)))

theorem vst_illegal : Raises .vst .vst (fun _ _ w => vmLegal w false = false) 0x01 (fun _ _ => 0) :=
  vst_runs.raises fun _ _ _ h => if_pos h

/-- Settles O31: writes of apart elements commute, and an overlapped one stands as the last wrote it. -/
theorem vectorStoresWriteActiveElements : Obligations.VectorStoresWriteActiveElements := by
  unfold Obligations.VectorStoresWriteActiveElements
  exact ⟨stores vst_runs rfl, stores vsts_runs rfl, stores vstx_runs rfl, vst_illegal⟩

end Sys2Proof.Machine
end

section
/-!
SUPPORT. The key store (R290–R297, R302, R311): what an accepted request implies, its decision and its delivery, sweeps and domains.
-/
namespace Sys2Proof.Machine

open Sys2Proof

/-! ### The checks in their order (R290) -/

theorem refuse_or_accept {p : Prop} [Decidable p] {n : Nat} {r : Byte} {v : KeyVerdict} :
    (if p then .refuse n r else v) = .accept ↔ ¬ p ∧ v = .accept := by
  split
  · next h => simp [h]
  · next h => simp [h]

theorem wait_or_accept {p : Prop} [Decidable p] {v : KeyVerdict} : (if p then .wait else v) = .accept ↔ ¬ p ∧ v = .accept := by
  split
  · next h => simp [h]
  · next h => simp [h]

/-- What lets a tenant's request pass checks 1 to 5, but for the attestation key's. -/
theorem keyVerdict_tenant {s : State} {t : Ticket} {c u : Nat} {h : W32} (hd : t.device = false) (hu : u ≠ 0x38)
    (hv : keyVerdict s t c h u = .accept) : (s.lcs.st = 2 ∧ s.lcs.busy = false) ∧ handleIid h = t.iid ∧
      ((u = 0x30 ∨ u = 0x36 ∨ u = 0x37) → handleSlot h ≠ 0x7FFFFF) ∧
      (u ≠ 0x30 → u ≠ 0x36 → u ≠ 0x37 → (keyEntry s h).st ≠ .empty ∧ (keyEntry s h).st ≠ .reserved ∧ (keyEntry s h).st ≠ .destroying) ∧
      (keyEntry s h).st ≠ .filling ∧ keyChecks s t c h u = .accept := by
  unfold keyVerdict at hv
  simp only [hd, Bool.false_eq_true, if_false, if_neg hu, refuse_or_accept, wait_or_accept] at hv
  obtain ⟨-, hst, hiid, hreserve, hrestore, hother, hfilling, hchecks⟩ := hv
  refine ⟨?_, Decidable.not_not.1 hiid, fun hmakes hslot => ?_, fun h0 h6 h7 => ?_, hfilling, hchecks⟩
  · simpa using hst
  · obtain rfl | rfl | rfl := hmakes
    · exact hreserve ⟨rfl, .inr hslot⟩
    · exact hreserve ⟨rfl, .inr hslot⟩
    · exact hrestore ⟨rfl, .inl hslot⟩
  · have hn : ¬ ((keyEntry s h).st = .empty ∨ (keyEntry s h).st = .reserved ∨ (keyEntry s h).st = .destroying) :=
      fun hst => hother ⟨by simp [h0, h6], h7, hst⟩
    simpa using hn

/-- What lets the use of a key pass checks 6 to 9. -/
theorem keyChecks_use {s : State} {t : Ticket} {c u : Nat} {h : W32} (h1 : 1 ≤ u) (h6 : u ≤ 6) (hv : keyChecks s t c h u = .accept) :
    (keyEntry s h).st ≠ .evicted ∧ bit (keyEntry s h).attr (39 + u) = true ∧ windowFails s (keyEntry s h) = false := by
  have hcode : codeBit u = some (u - 1) := if_pos ⟨h1, h6⟩
  have hne : ∀ k, 7 ≤ k → u ≠ k := by omega
  unfold keyChecks at hv
  simp only [refuse_or_accept, hcode, Option.isSome_some, Bool.true_or, true_or, true_and] at hv
  obtain ⟨hevicted, -, -, husage, -, hwindow, -⟩ := hv
  refine ⟨fun he => hevicted ⟨he, hne _ (by decide), hne _ (by decide), hne _ (by decide)⟩, ?_, by simpa using hwindow⟩
  rw [usageGranted, hcode] at husage
  simpa [show 40 + (u - 1) = 39 + u by omega] using husage

theorem window_of_not_fails {s : State} {e : KeyEntry} (h : windowFails s e = false) :
    e.notBefore.toNat ≤ (nt s).toNat ∧ (nt s).toNat ≤ e.notAfter.toNat := by
  simp only [windowFails, Bool.or_eq_false_iff] at h
  obtain ⟨⟨hb, ha⟩, -⟩ := h
  simp only [BitVec.ult, decide_eq_false_iff_not] at hb ha
  omega

theorem accepted_use {s : State} {t : Ticket} {c u : Nat} {h : W32} (hd : t.device = false) (h1 : 1 ≤ u) (h6 : u ≤ 6)
    (hv : keyVerdict s t c h u = .accept) :
    s.lcs.st = 2 ∧ s.lcs.busy = false ∧ handleIid h = t.iid ∧ (keyEntry s h).st = .resident ∧ bit (keyEntry s h).attr (39 + u) = true ∧
      (keyEntry s h).notBefore.toNat ≤ (nt s).toNat ∧ (nt s).toNat ≤ (keyEntry s h).notAfter.toNat := by
  obtain ⟨⟨hst, hbusy⟩, hiid, -, hlive, hfilling, hchecks⟩ := keyVerdict_tenant hd (by omega) hv
  obtain ⟨hevicted, husage, hwindow⟩ := keyChecks_use h1 h6 hchecks
  obtain ⟨hempty, hreserved, hdestroying⟩ := hlive (by omega) (by omega) (by omega)
  refine ⟨hst, hbusy, hiid, ?_, husage, window_of_not_fails hwindow⟩
  cases he : (keyEntry s h).st <;> simp_all

/-! ### Decision and delivery (R112, R295) -/

/-- What a request leaves of the state by its verdict. -/
def keyAnswer (c d : Nat) (h : W32) (u : Byte) (t : Ticket) (s : State) : KeyVerdict → State
  | .wait => s
  | .refuse order status => keyRefused c order status t (decided s)
  | .accept => keyAccept c d h u.toNat t (decided s)

section
variable {s : State} {c d : Nat} {h : W32} {u : Byte} {t : Ticket} (l : List Nat) (hl : Live s) (hr : (core s c).run = .keyget d h u)
  (ht : ticketOn s c = some t)
include hl hr ht

theorem keyRequest_undecided (hturn : keyTurn s c l = false) : Runs (.keyRequest c l) s s := by
  refine congrArg Host.Outcome.next ((unlessLocked_live hl).trans ?_)
  simp only [hr, ht, hturn, if_true]

theorem keyRequest_decided (hturn : keyTurn s c l = true) :
    Runs (.keyRequest c l) s (nonceTaken c u.toNat (keyAnswer c d h u t s (keyVerdict s t c h u.toNat))) := by
  refine congrArg Host.Outcome.next ((unlessLocked_live hl).trans ?_)
  simp only [hr, ht, hturn, Bool.true_eq_false, if_false]
  rfl

end

theorem keyTurn_lost {s : State} {c : Nat} {l : List Nat} (h : s.ks.decided = true ∨ ∃ e ∈ l, e < c ∧ keyAsks s e = true) :
    keyTurn s c l = false := by
  obtain h | ⟨e, he, hlt, hasks⟩ := h
  · simp [keyTurn, h]
  · have hall : l.all (fun d => !keyAsks s d || c ≤ d) = false := by
      rw [List.all_eq_false]
      exact ⟨e, he, by simp [hasks, hlt]⟩
    simp [keyTurn, hall]

theorem keyTurn_won {s : State} {c : Nat} {l : List Nat} (hd : s.ks.decided = false) (h : ∀ e ∈ l, keyAsks s e = true → c ≤ e) :
    keyTurn s c l = true := by
  simp only [keyTurn, hd, Bool.not_false, Bool.true_and, List.all_eq_true, Bool.or_eq_true, Bool.not_eq_true', decide_eq_true_eq]
  intro e he
  cases hasks : keyAsks s e with
  | false => exact .inl rfl
  | true => exact .inr (h e he hasks)

theorem unwrite_memFrame (p : Place) (n : Nat) (s : State) : MemFrame s (unwrite p n s) := by
  cases p
  all_goals exact ⟨_, _, rfl⟩

/-- The copy of a delivery laid into ring memory. -/
def deliveredCopy (c : Nat) (g : Grant) (data : List Byte) (tags : List Tag) (s : State) : State :=
  (List.range (linesFor data.length)).foldl (fun s j =>
    bankWrite stopPort ((Place.ring (ringOf c) (g.base - 0x1000000)).add (64 * j)) (slice data (64 * j) 64) (tags.getD j .pub) s)
    (unwrite (.ring (ringOf c) (g.base - 0x1000000)) (roundUp g.size 64) s)

theorem deliveredCopy_memFrame (c : Nat) (g : Grant) (data : List Byte) (tags : List Tag) (s : State) :
    MemFrame s (deliveredCopy c g data tags s) :=
  (unwrite_memFrame _ _ s).trans (.foldl (fun s _ => bankWrite_memFrame _ _ _ _ s) _ _)

/-- Core c after KEYGET with the grant. -/
def grantedCore (s : State) (c d : Nat) (g : Grant) (now : Nat) : Core :=
  { ((({ core s c with grants := (core s c).grants ++ [g] } : Core).wg d (BitVec.ofNat 64 g.base) .pub).stallEnd now) with
    run := .running, pc := (core s c).pc + 4 }

theorem keygetDone_grant (t : State) (c d : Nat) (g : Grant) : ∃ now,
    keygetDone c d (BitVec.ofNat 64 g.base) (setCore c { core t c with grants := (core t c).grants ++ [g] } t) =
      setCore c (grantedCore t c d g now) t := by
  refine ⟨coreNow (setCore c { core t c with grants := (core t c).grants ++ [g] } t) c, ?_⟩
  obtain ⟨r, q, hw⟩ := wg_frame ({ core t c with grants := (core t c).grants ++ [g] }) d (BitVec.ofNat 64 g.base) .pub
  rw [keygetDone, core_setCore, setCore_setCore, grantedCore, hw]

theorem grantedCore_fields (s : State) (c d : Nat) (g : Grant) (now : Nat) :
    (grantedCore s c d g now).run = .running ∧ (grantedCore s c d g now).pc = (core s c).pc + 4 ∧
      (grantedCore s c d g now).grants = (core s c).grants ++ [g] ∧
      (d ≠ 0 → (grantedCore s c d g now).rg d = BitVec.ofNat 64 g.base) := by
  refine ⟨rfl, rfl, ?_, fun hd => rg_wg_same _ _ _ hd⟩
  obtain ⟨r, q, hw⟩ := wg_frame ({ core s c with grants := (core s c).grants ++ [g] }) d (BitVec.ofNat 64 g.base) .pub
  rw [grantedCore, hw]
  rfl

theorem keyDelivery_done {s : State} {c d : Nat} {g : Grant} {data : List Byte} {tags : List Tag} (hl : Live s)
    (hr : (core s c).run = .deliver d g data tags) (hx : xfersDone s (corex s c).keyXfer.toList = true) :
    ∃ t, Runs (.keyDeliveryComplete c) s t ∧ (core t c).run = .running ∧ (core t c).pc = (core s c).pc + 4 ∧
      (core t c).grants = (core s c).grants ++ [g] ∧ (d ≠ 0 → d < 32 → (core t c).rg d = BitVec.ofNat 64 g.base) ∧
      t.ks = s.ks ∧ t.tickets = s.tickets := by
  have hrun : Runs (.keyDeliveryComplete c) s (keygetDone c d (BitVec.ofNat 64 g.base)
      (setCore c { core (deliveredCopy c g data tags s) c with grants := (core (deliveredCopy c g data tags s) c).grants ++ [g] }
        (deliveredCopy c g data tags s))) := by
    refine congrArg Host.Outcome.next ((unlessLocked_live hl).trans ?_)
    simp only [hr, hx, Bool.true_eq_false, if_false]
    rfl
  obtain ⟨now, hdone⟩ := keygetDone_grant (deliveredCopy c g data tags s) c d g
  obtain ⟨m, b, hcopy⟩ := deliveredCopy_memFrame c g data tags s
  have hcore : core (deliveredCopy c g data tags s) c = core s c := by rw [hcopy]; rfl
  rw [hdone] at hrun
  obtain ⟨hrunning, hpc, hgrants, hrg⟩ := grantedCore_fields (deliveredCopy c g data tags s) c d g now
  rw [hcore] at hpc hgrants
  refine ⟨_, hrun, ?_⟩
  rw [core_setCore]
  refine ⟨hrunning, hpc, hgrants, fun hd _ => hrg hd, ?_, ?_⟩
  all_goals
    rw [hcopy]
    rfl

/-! ### Sweeps (R294) -/

/-- One step of a sweep: an expired entry's copies drain and the entry is counted. -/
def sweepEntry (s : State) (e : Nat × KeyEntry) : State := bump (ksReg 0xC) 1 16 (drainCopies (fun h => h.toNat == e.1) s)

/-- The expired entries. -/
def sweptEntries (s : State) : List (Nat × KeyEntry) :=
  s.ks.entries.filter (fun e => e.2.st != .empty && e.2.st != .destroying && e.2.notAfter.ult (nt s))

/-- The scan is no longer asked for. -/
def sweepBegun (s : State) : State := { s with ks := { s.ks with sweeping := false } }

theorem sweep_runs {s : State} (hl : Live s) (hs : s.ks.sweeping = true) :
    Runs .sweep s (bump (ksReg 0xC) 0 16 ((sweptEntries s).foldl sweepEntry (sweepBegun s))) := by
  refine congrArg Host.Outcome.next ((unlessLocked_live hl).trans ?_)
  rw [if_neg (by simp [hs])]
  rfl

/-- An entry that is there stands in the table. -/
theorem keyEntry_mem {s : State} {h : W32} (hst : (keyEntry s h).st ≠ .empty) : (h.toNat, keyEntry s h) ∈ s.ks.entries := by
  have hget : ∀ (t : Table KeyEntry) (k : Nat), (Table.get {} t k).st ≠ .empty → (k, Table.get {} t k) ∈ t := by
    intro t k
    induction t with
    | nil => exact fun h => absurd rfl h
    | cons e t ih =>
      obtain ⟨a, v⟩ := e
      rw [Table.get]
      split
      · next ha => exact fun _ => ha ▸ List.mem_cons_self
      · exact fun h => List.mem_cons_of_mem _ (ih h)
  exact hget _ _ hst

/-- Copies of this handle are DRAINING. -/
def Drained (n : Nat) (s : State) : Prop := ∀ k ∈ s.ush.copies, k.handle.toNat = n → k.st = .draining

theorem mem_copies_sweepEntry {s : State} {e : Nat × KeyEntry} {k : Copy} (h : k ∈ (sweepEntry s e).ush.copies) :
    ∃ q ∈ s.ush.copies, k = if q.handle.toNat == e.1 then { q with st := .draining } else q := by
  obtain ⟨q, hq, rfl⟩ := List.mem_map.1 (show k ∈ s.ush.copies.map _ from h)
  exact ⟨q, hq, rfl⟩

theorem sweepEntry_drains (s : State) (e : Nat × KeyEntry) : Drained e.1 (sweepEntry s e) := by
  intro k hk hn
  obtain ⟨q, -, rfl⟩ := mem_copies_sweepEntry hk
  by_cases h : (q.handle.toNat == e.1) = true
  · rw [if_pos h]
  · rw [if_neg h] at hn
    simp [hn] at h

theorem sweepEntry_keeps_drained {s : State} {n : Nat} (e : Nat × KeyEntry) (h : Drained n s) : Drained n (sweepEntry s e) := by
  intro k hk hn
  obtain ⟨q, hq, rfl⟩ := mem_copies_sweepEntry hk
  by_cases he : (q.handle.toNat == e.1) = true
  · rw [if_pos he]
  · rw [if_neg he] at hn ⊢
    exact h q hq hn

theorem sweep_done {s : State} (hl : Live s) (hs : s.ks.sweeping = true) :
    ∃ t, Runs .sweep s t ∧ t.ks.sweeping = false ∧ t.ks.entries = s.ks.entries ∧ t.ks.cer = s.ks.cer ∧
      (∀ k ∈ t.ush.copies, (keyEntry s k.handle).st = .resident → (keyEntry s k.handle).notAfter.ult (nt s) = true →
        k.st = .draining) ∧ t.mem = s.mem ∧ t.tickets = s.tickets := by
  have hkeeps : ∀ {α : Type} (g : State → α), (∀ t e, g (sweepEntry t e) = g t) → ∀ t, g ((sweptEntries s).foldl sweepEntry t) = g t :=
    fun g hg t => foldl_keeps g hg _ t
  refine ⟨_, sweep_runs hl hs, hkeeps (fun t => t.ks.sweeping) (fun _ _ => rfl) _, hkeeps (fun t => t.ks.entries) (fun _ _ => rfl) _,
    hkeeps (fun t => t.ks.cer) (fun _ _ => rfl) _, fun k hk hst hexp => ?_, hkeeps State.mem (fun _ _ => rfl) _,
    hkeeps State.tickets (fun _ _ => rfl) _⟩
  · have hswept : (k.handle.toNat, keyEntry s k.handle) ∈ sweptEntries s :=
      List.mem_filter.2 ⟨keyEntry_mem (by simp [hst]), by simp [hst, hexp]⟩
    have hdrained : Drained k.handle.toNat ((sweptEntries s).foldl sweepEntry (sweepBegun s)) :=
      foldl_reaches (P := Drained k.handle.toNat) hswept (fun t => sweepEntry_drains t _) (fun t e h => sweepEntry_keeps_drained e h) _
    exact hdrained k hk rfl

/-! ### Storage domains (R302, R313) -/

/-- The domain with word k written. -/
def domainWith (x : BitVec 128) (k : Nat) (d : W32) : BitVec 128 :=
  BitVec.ofNat 128 (x.toNat - field x.toNat (32 * k) 32 * 2 ^ (32 * k) + d.toNat * 2 ^ (32 * k))

theorem field_domainWith (x : BitVec 128) (d : W32) {k j : Nat} (hk : k < 4) (hj : j < 4) :
    field (domainWith x k d).toNat (32 * j) 32 = if j = k then d.toNat else field x.toNat (32 * j) 32 := by
  have hx : x.toNat < 340282366920938463463374607431768211456 := x.isLt
  have hd : d.toNat < 4294967296 := d.isLt
  rw [domainWith, BitVec.toNat_ofNat]
  unfold field
  generalize x.toNat = n at hx ⊢
  generalize d.toNat = m at hd ⊢
  obtain rfl | rfl | rfl | rfl : k = 0 ∨ k = 1 ∨ k = 2 ∨ k = 3 := by omega
  all_goals
    obtain rfl | rfl | rfl | rfl : j = 0 ∨ j = 1 ∨ j = 2 ∨ j = 3 := by omega
    all_goals
      split
      all_goals omega

theorem domainWrite_runs {s : State} {i k : Nat} (d : W32) (hw : Writable s) (hi : i < iidCount s) (hk : k < 4) (h : keysOf s i = []) :
    Runs (.ksDomainWrite i k d) s (setKsInst i { ksInst s i with domain := domainWith (ksInst s i).domain k d } s) := by
  refine congrArg Host.Outcome.next ((hostWrite_writable hw).trans ?_)
  simp only [domainWrite, hi, hk, and_self, if_true, h, ne_eq, not_true, if_false]
  rfl

theorem domainWrite_barred {s : State} {i k : Nat} (d : W32) (hw : Writable s) (hi : i < iidCount s) (hk : k < 4) (h : keysOf s i ≠ []) :
    Runs (.ksDomainWrite i k d) s (ignoredWrite 0x0F (0x301000 + 0x20 * i + 4 * k) (d.setWidth 64) none s) :=
  congrArg Host.Outcome.next ((hostWrite_writable hw).trans ((if_pos ⟨hi, hk⟩).trans (if_pos h)))

theorem ksInst_setKsInst (s : State) (i : Nat) (x : KsInst) : ksInst (setKsInst i x s) i = x := Table.get_set_same _ _ _ _
theorem ksInst_setKsInst_other (s : State) {i j : Nat} (x : KsInst) (h : j ≠ i) : ksInst (setKsInst i x s) j = ksInst s j :=
  Table.get_set_other _ _ _ h

/-! ### The statement -/

/-- Settles O40: verdicts by the checks passed, turns by the lower core, and each end of a transfer, scrub or sweep by its guard. -/
theorem keyRequestsAndEntries : Obligations.KeyRequestsAndEntries := by
  unfold Obligations.KeyRequestsAndEntries
  refine ⟨⟨fun s c d h u l t hl hr ht hturn => ?_, fun s c d h u l t hl hr ht hlost => keyRequest_undecided l hl hr ht (keyTurn_lost hlost),
    fun s c l hd h => keyTurn_won hd h, fun s t c u h hd h1 h6 hv => accepted_use hd h1 h6 hv, fun s t c u h hd hu hiid hv => ?_,
    fun s t c u h hd hu hslot hv => ?_⟩, fun s c d g data tags hl hr hx => keyDelivery_done hl hr hx, fun s c d g data tags hl hr hx => ?_,
    fun s h hl hst hx => ?_, fun s h hl hnot => ?_, fun s h hl hst => ?_, fun s h hl hst => ?_, fun s hl hs => sweep_done hl hs,
    fun s i k d hw hi hk hkeys => ?_, fun s i k d hw hi hk hkeys => domainWrite_barred d hw hi hk hkeys⟩
  · have hrun := keyRequest_decided l hl hr ht hturn
    refine ⟨fun hv => ?_, fun n r hv => ?_, fun hv => ?_⟩
    all_goals
      rw [hv] at hrun
      exact hrun
  · exact hiid (keyVerdict_tenant hd hu hv).2.1
  · obtain ⟨-, -, hne, -⟩ := keyVerdict_tenant hd (by rintro rfl; simp at hu) hv
    exact hne hu hslot
  · refine congrArg Host.Outcome.next ((unlessLocked_live hl).trans ?_)
    simp only [hr, hx, if_true]
  · exact congrArg Host.Outcome.next ((unlessLocked_live hl).trans (if_pos ⟨hst, hx⟩))
  · refine congrArg Host.Outcome.next ((unlessLocked_live hl).trans (if_neg ?_))
    rintro ⟨hst, hx⟩
    simp [hst, hx] at hnot
  · exact congrArg Host.Outcome.next ((unlessLocked_live hl).trans (if_pos hst))
  · exact congrArg Host.Outcome.next ((unlessLocked_live hl).trans (if_neg hst))
  · refine ⟨_, domainWrite_runs d hw hi hk hkeys, ?_, fun j hj hjk => ?_, fun j hj => ksInst_setKsInst_other s _ hj, rfl, rfl⟩
    · rw [ksInst_setKsInst, field_domainWith _ _ hk hk, if_pos rfl]
    · rw [ksInst_setKsInst, field_domainWith _ _ hk hj, if_neg hjk]

end Sys2Proof.Machine
end

section
/-!
SUPPORT. Instances and their pages (R43–R46, R50, R57, R61–R64, R79): configuration, shares, activation, the mailbox and the doorbells.
-/
namespace Sys2Proof.Machine

open Sys2Proof

section
variable {s : State} {i : Nat} (hw : Writable s) (hp : iidPresent s i = true)
include hw hp

/-- A register write that reaches a present one. -/
theorem onInstance_next {off : Nat} {v : W64} {f : State → State} {t : State} (h : f s = t) :
    Host.Outcome.next (onInstance i off v f s) = (.next t : Out) :=
  congrArg Host.Outcome.next ((onInstance_present hw hp).trans h)

theorem instCommand_accepted {cmd : Nat} {ok : Inst → Bool} {f : State → State} {t : State} (hok : ok (inst s i) = true)
    (h : f (setErr i 0 s) = t) : instCommand i cmd ok f s = .next t :=
  onInstance_next hw hp ((if_pos hok).trans h)

theorem instCommand_refused {cmd : Nat} {ok : Inst → Bool} {f : State → State} (hok : ok (inst s i) = false) :
    instCommand i cmd ok f s = .next (setInst i { inst s i with err := 1 } s) :=
  onInstance_next hw hp (if_neg (by simp [hok]))

/-! ### Configuration and shares (R44, R45, R79) -/

theorem configWrite_taken (off : Nat) (d : W32) (h : (inst s i).st = .free ∨ ((inst s i).st = .stopped ∧ (inst s i).drained = true)) :
    Runs (.instanceConfigWrite i off d) s (setInst i ((inst s i).configured off d) s) :=
  onInstance_next hw hp (if_pos h)

theorem configWrite_refused (off : Nat) (d : W32)
    (h : (inst s i).st = .active ∨ (inst s i).st = .resetting ∨ ((inst s i).st = .stopped ∧ (inst s i).drained = false)) :
    Runs (.instanceConfigWrite i off d) s (setInst i { inst s i with err := 1 } s) := by
  refine onInstance_next hw hp (if_neg ?_)
  obtain h | h | ⟨h, hd⟩ := h
  · simp [h]
  · simp [h]
  · simp [h, hd]

theorem shareWrite_taken (d : W32) (hweight : d.toNat / 65536 ≠ 0) (hcores : d.toNat % 512 ≤ 256) :
    Runs (.itShareWrite i d) s (setInst i { inst s i with
      weight := BitVec.ofNat 16 (d.toNat / 65536), minCores := BitVec.ofNat 9 (d.toNat % 512), sharePend := true } s) := by
  have hpending : ((inst s i).sharePend || d.toNat / 65536 != 0 || decide (d.toNat % 512 ≤ 256)) = true := by simp [hcores]
  refine onInstance_next hw hp ?_
  simp [hweight, Nat.not_lt.2 hcores, hpending]

theorem shareWrite_refused (d : W32) (hweight : d.toNat / 65536 = 0) (hcores : 256 < d.toNat % 512) :
    Runs (.itShareWrite i d) s (setInst i { inst s i with err := 6 } s) := by
  refine onInstance_next hw hp ?_
  simp [hweight, hcores, Nat.not_le.2 hcores, errBadShare]

theorem ceilingWrite_taken (d : W32) (hlo : 1 ≤ d.toNat % 8192) (hhi : d.toNat % 8192 ≤ 4096) :
    Runs (.itCeilingWrite i d) s (setInst i { inst s i with ceiling := BitVec.ofNat 13 (d.toNat % 8192), sharePend := true } s) :=
  onInstance_next hw hp (if_neg (by omega))

theorem ceilingWrite_refused (d : W32) (h : d.toNat % 8192 = 0 ∨ 4096 < d.toNat % 8192) :
    Runs (.itCeilingWrite i d) s (setInst i { inst s i with err := 6 } s) :=
  onInstance_next hw hp (if_pos h)

/-! ### Activation (R45, R64) -/

theorem activate_refused (h : (inst s i).st ≠ .free ∨ s.boot.stage ≠ 5) :
    Runs (.activate i) s (setInst i { inst s i with err := 1 } s) :=
  onInstance_next hw hp (if_pos h)

theorem activate_noPasid (hst : (inst s i).st = .free) (hb : s.boot.stage = 5) (h : (inst s i).pasidValid = false) :
    Runs (.activate i) s (setInst i { inst s i with err := 7 } s) :=
  onInstance_next hw hp ((if_neg (by simp [hst, hb])).trans (if_pos h))

theorem activate_pasidHeld (hst : (inst s i).st = .free) (hb : s.boot.stage = 5) (hv : (inst s i).pasidValid = true)
    (h : ∃ e ∈ s.inst, e.1 ≠ i ∧ e.2.st ≠ .free ∧ e.2.pasid = (inst s i).pasid) :
    Runs (.activate i) s (setInst i { inst s i with err := 2 } s) := by
  have hheld : s.inst.any (fun e => e.1 != i && e.2.st != .free && e.2.pasid == (inst s i).pasid) = true := by
    simpa [and_assoc] using h
  exact onInstance_next hw hp ((if_neg (by simp [hst, hb])).trans ((if_neg (by simp [hv])).trans (if_pos hheld)))

theorem activate_taken (hst : (inst s i).st = .free) (hb : s.boot.stage = 5) (hv : (inst s i).pasidValid = true)
    (hfree : ∀ e ∈ s.inst, e.1 ≠ i → e.2.st ≠ .free → e.2.pasid ≠ (inst s i).pasid) (hsq : 4 ≤ (inst s i).sqLog2.toNat)
    (hle : (inst s i).sqLog2.toNat ≤ (inst s i).cqLog2.toNat) (hcq : (inst s i).cqLog2.toNat ≤ 12) :
    Runs (.activate i) s (setShare i { share s i with vt := 0, dispatched := 0, passedOver := false }
      (setInst i { inst s i with
        weightEff := (inst s i).weight, minCoresEff := (inst s i).minCores, ceilingEff := (inst s i).ceiling, sharePend := false,
        st := .active, err := 0, drained := false } s)) := by
  have hnot : ¬ s.inst.any (fun e => e.1 != i && e.2.st != .free && e.2.pasid == (inst s i).pasid) = true := by
    simpa using fun a x hmem hne hst => hfree (a, x) hmem hne hst
  exact onInstance_next hw hp ((if_neg (by simp [hst, hb])).trans ((if_neg (by simp [hv])).trans ((if_neg hnot).trans (if_neg (by omega)))))

end

/-- Settles O3: each command by the first of its conditions that fails. -/
theorem instanceConfigurationTakesEffect : Obligations.InstanceConfigurationTakesEffect := by
  unfold Obligations.InstanceConfigurationTakesEffect
  exact ⟨fun s i off d hw hp h => configWrite_taken hw hp off d h, fun s i off d hw hp h => configWrite_refused hw hp off d h,
    fun s i d hw hp h h' => shareWrite_taken hw hp d h h', fun s i d hw hp h h' => shareWrite_refused hw hp d h h',
    fun s i d hw hp h h' => ceilingWrite_taken hw hp d h h', fun s i d hw hp h => ceilingWrite_refused hw hp d h,
    fun s i hw hp hst hb hv hfree hsq hle hcq => activate_taken hw hp hst hb hv hfree hsq hle hcq,
    fun s i hw hp h => activate_refused hw hp h,
    fun s i hw hp hst hb => ⟨activate_noPasid hw hp hst hb, activate_pasidHeld hw hp hst hb⟩⟩

/-! ### The mailbox (R61–R63) -/

theorem mailboxOpen_iff (x : Inst) : mailboxOpen x = true ↔ x.st = .active ∨ x.st = .stopped := by simp [mailboxOpen]

theorem mailbox_shut {x : Inst} (h : x.st = .free ∨ x.st = .resetting) : mailboxOpen x = false := by
  obtain h | h := h <;> simp [mailboxOpen, h]

section
variable {s : State} {i : Nat} (hw : Writable s) (hp : iidPresent s i = true)
include hw hp

theorem send_shut (h : (inst s i).st = .free ∨ (inst s i).st = .resetting) : Runs (.mbxSend i) s s :=
  onInstance_next hw hp (if_pos (mailbox_shut h))

theorem ack_shut (h : (inst s i).st = .free ∨ (inst s i).st = .resetting) : Runs (.mbxAck i) s s :=
  onInstance_next hw hp (if_neg (by simp [mailbox_shut h]))

theorem mbSend_refused (h : (inst s i).st = .free ∨ (inst s i).st = .resetting) :
    Runs (.mbSend i) s (setInst i { inst s i with err := 1 } s) := by
  change execMbSend i s = _
  exact instCommand_refused hw hp (mailbox_shut h)

section
variable (ho : (inst s i).st = .active ∨ (inst s i).st = .stopped)
include ho

theorem send_fills (hf : (page s i).outFull = false) (ha : (page s i).outAck ≠ some s.time.cycle) :
    Runs (.mbxSend i) s (attention i (setPage i { page s i with outFull := true } s)) :=
  onInstance_next hw hp ((if_neg (by simp [(mailboxOpen_iff _).2 ho])).trans (if_neg (by simp [hf, ha])))

theorem send_dropped (hf : (page s i).outFull = true ∨ (page s i).outAck = some s.time.cycle) :
    Runs (.mbxSend i) s (noteSet (pgReg i 0x20) 0x20000000 (setPage i { page s i with dropped := true } s)) :=
  onInstance_next hw hp ((if_neg (by simp [(mailboxOpen_iff _).2 ho])).trans (if_pos hf))

theorem ack_empties : Runs (.mbxAck i) s (setPage i { page s i with
    inFull := false, inAck := if (page s i).inFull then some s.time.cycle else (page s i).inAck } s) :=
  onInstance_next hw hp (if_pos ((mailboxOpen_iff _).2 ho))

theorem mbAck_empties : Runs (.mbAck i) s (setPage i { page s i with
    outFull := false, outAck := if (page s i).outFull then some s.time.cycle else (page s i).outAck }
    (setInst i { inst s i with err := 0 } s)) :=
  instCommand_accepted hw hp ((mailboxOpen_iff _).2 ho) rfl

theorem mbSend_fills (hf : (page s i).inFull = false) (ha : (page s i).inAck ≠ some s.time.cycle) :
    Runs (.mbSend i) s ((if (inst s i).irqEn then msix (inst s i).irqVector.toNat else id)
      (setPage i { page s i with inFull := true } (setInst i { inst s i with err := 0 } s))) := by
  change execMbSend i s = _
  refine instCommand_accepted hw hp ((mailboxOpen_iff _).2 ho) ?_
  have hnot : ¬ ((page s i).inFull = true ∨ (page s i).inAck = some s.time.cycle) := by simp [hf, ha]
  refine (if_neg hnot).trans ?_
  simp only [setErr, inst_setInst, page_setInst]
  split <;> rfl

end

/-! ### Doorbells (R50, R57) -/

theorem sqDoorbell_taken (d : W32) (h : d.toNat % 4096 < 2 ^ (inst s i).sqLog2.toNat) :
    Runs (.sqDoorbell i d) s (setInst i { inst s i with sqTail := d.toNat % 4096 } s) :=
  onInstance_next hw hp (if_neg (Nat.not_le.2 h))

theorem sqDoorbell_bad (d : W32) (h : 2 ^ (inst s i).sqLog2.toNat ≤ d.toNat % 4096) :
    Runs (.sqDoorbell i d) s (ignoredWrite 0x14 (0x1000 * i) (d.setWidth 64) (some i)
      (bump (itReg i 0x38) 0 16 (setInst i { inst s i with err := 4 } s))) :=
  onInstance_next hw hp (if_pos h)

theorem cqDoorbell_bad (d : W32) (h : 2 ^ (inst s i).cqLog2.toNat ≤ d.toNat % 4096) :
    Runs (.cqDoorbell i d) s (ignoredWrite 0x14 (0x1000 * i + 4) (d.setWidth 64) (some i)
      (bump (itReg i 0x38) 0 16 (setInst i { inst s i with err := 4 } s))) :=
  onInstance_next hw hp (if_pos (.inl h))

end

/-- The distance from the head to a value n places on, in a queue of m. -/
theorem distance_of_head {m h n : Nat} (hm : h < m) (hn : n < m) : ((h + n) % m + m - h % m) % m = n := by
  rw [Nat.mod_eq_of_lt hm]
  obtain hlt | hge := Nat.lt_or_ge (h + n) m
  · rw [Nat.mod_eq_of_lt hlt, show h + n + m - h = n + m by omega, Nat.add_mod_right, Nat.mod_eq_of_lt hn]
  · have hwrap : (h + n) % m = h + n - m := by rw [Nat.mod_eq_sub_mod hge, Nat.mod_eq_of_lt (by omega)]
    rw [hwrap, show h + n - m + m - h = n by omega, Nat.mod_eq_of_lt hn]

theorem cqDoorbell_taken {s : State} {i : Nat} (hw : Writable s) (hp : iidPresent s i = true) (d : W32) (n : Nat) (hlt : d.toNat % 4096 < 2 ^ (inst s i).cqLog2.toNat)
    (hhead : (inst s i).cqHead < 2 ^ (inst s i).cqLog2.toNat) (hn : n ≤ (inst s i).unreleased)
    (hn' : n < 2 ^ (inst s i).cqLog2.toNat) (hd : d.toNat % 4096 = ((inst s i).cqHead + n) % 2 ^ (inst s i).cqLog2.toNat) :
    Runs (.cqDoorbell i d) s (setInst i { inst s i with cqHead := d.toNat % 4096, unreleased := (inst s i).unreleased - n } s) := by
  have hdist : (d.toNat % 4096 + cqSize (inst s i) - (inst s i).cqHead % cqSize (inst s i)) % cqSize (inst s i) = n := by
    rw [hd]
    exact distance_of_head hhead hn'
  refine onInstance_next hw hp ((if_neg ?_).trans ?_)
  · rw [hdist]
    exact fun h => h.elim (Nat.not_le.2 hlt) (Nat.not_lt.2 hn)
  · rw [hdist]

/-- Settles O5: the mailbox by what is open and full, a doorbell by whether its value lies in the queue. -/
theorem tenantPagesPassMessagesAndPointers : Obligations.TenantPagesPassMessagesAndPointers := by
  unfold Obligations.TenantPagesPassMessagesAndPointers
  exact ⟨⟨fun s i hw hp ho hf ha => send_fills hw hp ho hf ha, fun s i hw hp ho hf => send_dropped hw hp ho hf,
    fun s i hw hp ho => ack_empties hw hp ho, fun s i hw hp ho => mbAck_empties hw hp ho,
    fun s i hw hp ho hf ha => mbSend_fills hw hp ho hf ha,
    fun s i hw hp h => ⟨send_shut hw hp h, ack_shut hw hp h, mbSend_refused hw hp h, instCommand_refused hw hp (mailbox_shut h)⟩⟩,
    fun s i d hw hp h => sqDoorbell_taken hw hp d h, fun s i d hw hp h => sqDoorbell_bad hw hp d h,
    fun s i d n hw hp hlt hhead hn hn' hd => cqDoorbell_taken hw hp d n hlt hhead hn hn' hd,
    fun s i d hw hp h => cqDoorbell_bad hw hp d h⟩

end Sys2Proof.Machine
end

section
/-!
SUPPORT. Instance commands (R64–R68): stop, cancel, resume, reset and removal; what messages sent on closing sessions and destroyed keys
leave alone of the rest.
-/
namespace Sys2Proof.Machine

open Sys2Proof

/-! ### What the network leaves alone (R320, R321) -/

/-- The state but for ports, Dolid block, notes of lines written, and counters. -/
def besideNet (s : State) : State := { s with net := {}, dol := {}, fabric := {}, time := {} }

section
variable (s : State) (p : Nat)

@[simp] theorem besideNet_bump (reg f w : Nat) : besideNet (bump reg f w s) = besideNet s := rfl
@[simp] theorem besideNet_setPort (x : Port) : besideNet (setPort p x s) = besideNet s := rfl
@[simp] theorem besideNet_dol (d : Dolid) : besideNet { s with dol := d } = besideNet s := rfl
@[simp] theorem besideNet_dolLost : besideNet (dolLost s) = besideNet s := rfl
@[simp] theorem besideNet_freeLines (a b : Nat) : besideNet (freeLines p a b s) = besideNet s := rfl
@[simp] theorem besideNet_modSession (sid : W32) (f : Session → Session) : besideNet (modSession sid f s) = besideNet s := rfl

@[simp] theorem besideNet_freeFrame (f : TxFrame) : besideNet (freeFrame f s) = besideNet s := by
  unfold freeFrame
  split <;> rfl

@[simp] theorem besideNet_noResolve (f : TxFrame) : besideNet (noResolve p f s) = besideNet s := besideNet_freeFrame _ f

@[simp] theorem besideNet_dropUnlinked (f : TxFrame) : besideNet (dropUnlinked p f s) = besideNet s := by
  unfold dropUnlinked
  dsimp only
  split
  · exact besideNet_freeFrame _ f
  · exact besideNet_freeFrame _ f

@[simp] theorem besideNet_enqueueTx (f : TxFrame) : besideNet (enqueueTx p f s) = besideNet s := by
  unfold enqueueTx
  dsimp only
  split
  · exact besideNet_noResolve s p f
  · split
    · rfl
    · exact besideNet_dropUnlinked s p f

@[simp] theorem besideNet_resolveTx (f : TxFrame) : besideNet (resolveTx p f s) = besideNet s := by
  unfold resolveTx
  dsimp only
  repeat' split
  all_goals simp

@[simp] theorem besideNet_sendIp (dst : Ip) (f : TxFrame) : besideNet (sendIp p dst f s) = besideNet s := by
  unfold sendIp
  split
  · exact besideNet_noResolve s p f
  · exact besideNet_resolveTx s p _

@[simp] theorem besideNet_dolSend (dst : Ip) (udp : Nat) (iid : Option Nat) (refusal : Bool) (m : List Byte) :
    besideNet (dolSend p dst udp iid refusal m s) = besideNet s := by
  unfold dolSend
  dsimp only
  split
  · rfl
  · split
    · rfl
    · rw [besideNet_sendIp]
      split <;> rfl

@[simp] theorem besideNet_sessionFrame (x : Session) (ty : Nat) (refusal : Bool) (plain : List Byte) :
    besideNet (sessionFrame x p ty refusal plain s) = besideNet s := besideNet_dolSend _ _ _ _ _ _ _

@[simp] theorem besideNet_closeSession (sid : W32) (reason : Option Nat) : besideNet (closeSession sid reason s) = besideNet s := by
  unfold closeSession
  split
  · rfl
  · rw [besideNet_dol]
    split
    · exact besideNet_sessionFrame _ _ _ _ _ _
    · rfl

end

/-! ### What the key store leaves alone (R310, R311) -/

/-- The state but for keys, cached copies and the generator. -/
def besideKeys (s : State) : State := { s with ks := {}, ush := {}, rng := {} }

section
variable (s : State)

@[simp] theorem besideKeys_drainCopies (p : W32 → Bool) : besideKeys (drainCopies p s) = besideKeys s := rfl

@[simp] theorem besideKeys_destroyKey (h : W32) : besideKeys (destroyKey h s) = besideKeys s := by
  unfold destroyKey
  dsimp only
  split <;> rfl

@[simp] theorem besideKeys_endCeremony (r : Byte) : besideKeys (endCeremony r s) = besideKeys s := by
  unfold endCeremony
  dsimp only
  repeat' split
  all_goals rfl

@[simp] theorem besideKeys_destroyKeysOf (i : Nat) : besideKeys (destroyKeysOf i s) = besideKeys s := by
  unfold destroyKeysOf
  dsimp only
  refine (foldl_keeps besideKeys (fun s e => besideKeys_destroyKey s _) _ _).trans ?_
  split
  · exact besideKeys_endCeremony _ _
  · rfl

end

/-! ### Stop, cancel, resume (R64, R65) -/

theorem hasWork_setInst {s : State} {i : Nat} {x : Inst} (hr : x.reads = (inst s i).reads) (hp : x.pasid = (inst s i).pasid) :
    hasWork (setInst i x s) i = hasWork s i := by
  unfold hasWork
  rw [inst_setInst, hr, hp]
  rfl

/-- What STOP makes of it. -/
def Inst.afterStop (x : Inst) (drained : Bool) : Inst := { x with st := .stopped, drained := drained, err := 0 }

theorem hasWork_afterStop (s : State) (i : Nat) (d : Bool) : hasWork (setInst i ((inst s i).afterStop d) s) i = hasWork s i :=
  hasWork_setInst rfl rfl

section
variable {s : State} {i : Nat} (hw : Writable s) (hp : iidPresent s i = true)
include hw hp

theorem stop_runs (h : (inst s i).st = .active) : Runs (.stop i) s (checkDrained i (setInst i ((inst s i).afterStop false) s)) := by
  change execStop i s = _
  refine instCommand_accepted hw hp (by simp [h]) ?_
  simp only [setErr, inst_setInst, setInst_setInst, Inst.afterStop]

theorem stop_working (h : (inst s i).st = .active) (hwork : hasWork s i = true) :
    Runs (.stop i) s (setInst i ((inst s i).afterStop false) s) := by
  refine (stop_runs hw hp h).trans (congrArg Host.Outcome.next (if_neg ?_))
  rw [hasWork_afterStop]
  simp [hwork]

theorem stop_idle (h : (inst s i).st = .active) (hwork : hasWork s i = false) :
    Runs (.stop i) s (attention i (setInst i ((inst s i).afterStop true) s)) := by
  refine (stop_runs hw hp h).trans (congrArg Host.Outcome.next ((if_pos ?_).trans ?_))
  · rw [hasWork_afterStop, inst_setInst]
    exact ⟨rfl, rfl, hwork⟩
  · rw [inst_setInst, setInst_setInst]
    rfl

theorem stop_refused (h : (inst s i).st ≠ .active) : Runs (.stop i) s (setInst i { inst s i with err := 1 } s) := by
  change execStop i s = _
  exact instCommand_refused hw hp (by simpa using h)

theorem cancel_taken (h : (inst s i).st = .stopped) : Runs (.cancel i) s
    ((undispatched s i).foldl (fun t tid => finishQueued tid { status := 0x30 } t) (setInst i { inst s i with err := 0 } s)) := by
  change execCancel i s = _
  exact instCommand_accepted hw hp (by simp [h]) rfl

theorem resume_taken (h : (inst s i).st = .stopped) (hb : s.boot.stage = 5) :
    Runs (.resume i) s (setInst i { inst s i with st := .active, drained := false, err := 0 } s) := by
  change execResume i s = _
  refine instCommand_accepted hw hp (by simp [h, hb]) ?_
  simp only [setErr, inst_setInst, setInst_setInst]

theorem cancel_resume_refused (h : (inst s i).st ≠ .stopped) :
    Runs (.cancel i) s (setInst i { inst s i with err := 1 } s) ∧ Runs (.resume i) s (setInst i { inst s i with err := 1 } s) := by
  refine ⟨?_, ?_⟩
  · change execCancel i s = _
    exact instCommand_refused hw hp (by simpa using h)
  · change execResume i s = _
    exact instCommand_refused hw hp (by simp [h])

end

/-! ### Reset and removal (R66–R68) -/

theorem inst_congr {s t : State} (h : t.inst = s.inst) (i : Nat) : inst t i = inst s i := by rw [inst, h, inst]
theorem page_congr {s t : State} (h : t.page = s.page) (i : Nat) : page t i = page s i := by rw [page, h, page]

section
variable {s : State} {i : Nat} (hw : Writable s) (hp : iidPresent s i = true)
include hw hp

theorem instReset_refused (h : (inst s i).st = .free ∨ (inst s i).st = .resetting) :
    Runs (.instReset i) s (setInst i { inst s i with err := 1 } s) := by
  change execInstReset i s = _
  refine instCommand_refused hw hp ?_
  obtain h | h := h <;> simp [h]

theorem remove_refused (h : (inst s i).st ≠ .stopped ∨ (inst s i).drained = false) :
    Runs (.remove i) s (setInst i { inst s i with err := 1 } s) := by
  change execRemove i s = _
  refine instCommand_refused hw hp ?_
  obtain h | h := h <;> simp [h]

/-- Sessions closed, keys destroyed. -/
def disowned (i : Nat) (s : State) : State :=
  drainCopies (fun h => handleIid h == i) (destroyKeysOf i
    ((s.dol.sessions.filter (fun z => z.iid == i)).foldl (fun s z => closeSession z.sid (some 5) s) s))

omit hw hp in
theorem disowned_frame (i : Nat) (s : State) : besideKeys (besideNet (disowned i s)) = besideKeys (besideNet s) := by
  have hkeys : ∀ t, besideKeys (besideNet (drainCopies (fun h => handleIid h == i) (destroyKeysOf i t))) = besideKeys (besideNet t) := by
    intro t
    have h := besideKeys_destroyKeysOf t i
    exact congrArg besideNet h
  have hsessions := foldl_keeps besideNet (f := fun s (z : Session) => closeSession z.sid (some 5) s)
    (fun t z => besideNet_closeSession t z.sid (some 5)) (s.dol.sessions.filter (fun z => z.iid == i)) s
  exact (hkeys _).trans (congrArg besideKeys hsessions)

theorem remove_taken (hst : (inst s i).st = .stopped) (hd : (inst s i).drained = true) :
    ∃ t, Runs (.remove i) s t ∧ (inst t i).st = .resetting ∧ (inst t i).removing = true ∧ (inst t i).drained = false ∧
      (inst t i).err = 0 ∧ page t i = (page s i).mailboxCleared ∧ t.acts.acts = s.acts.acts.filter (fun a => a.iid ≠ some i) ∧
      (∀ j, j ≠ i → inst t j = inst s j ∧ page t j = page s j) ∧ t.tickets = s.tickets ∧ t.mem = s.mem := by
  have hframe := disowned_frame i (setErr i 0 s)
  generalize hu : disowned i (setErr i 0 s) = u at hframe
  have hinst : u.inst = (setErr i 0 s).inst := (congrArg State.inst hframe :)
  have hpage : u.page = s.page := (congrArg State.page hframe :)
  have hacts : u.acts = s.acts := (congrArg State.acts hframe :)
  have htickets : u.tickets = s.tickets := (congrArg State.tickets hframe :)
  have hmem : u.mem = s.mem := (congrArg State.mem hframe :)
  have hrun : Runs (.remove i) s (setPage i (page u i).mailboxCleared (setInst i { inst u i with st := .resetting, removing := true, drained := false }
      { u with acts := { u.acts with acts := u.acts.acts.filter (fun a => a.iid != some i) } })) := by
    change execRemove i s = _
    refine instCommand_accepted hw hp (by simp [hst, hd]) ?_
    rw [← hu]
    rfl
  have hself : inst u i = { inst s i with err := 0 } := (inst_congr hinst i).trans (inst_setInst _ _ _)
  refine ⟨_, hrun, ?_⟩
  simp only [inst_setPage, inst_setInst, page_setPage, true_and]
  refine ⟨congrArg Inst.err hself, congrArg Page.mailboxCleared (page_congr hpage i), ?_, fun j hj => ⟨?_, ?_⟩, htickets, hmem⟩
  · refine (congrArg (fun a => a.acts.filter (fun a => a.iid != some i)) hacts).trans (List.filter_congr fun a _ => ?_)
    rw [Bool.eq_iff_iff]
    simp
  · rw [inst_setInst_other _ _ _ _ hj]
    exact (inst_congr hinst j).trans (inst_setInst_other _ _ _ _ hj)
  · rw [page_setPage_other _ _ _ _ hj]
    exact page_congr hpage j

end

/-- RESET step 1: admission ends, and an abort in progress is taken over. -/
def resetBegun (i : Nat) (s : State) : State :=
  setPage i { page s i with abortResult := if (page s i).abortBusy then 0x31 else (page s i).abortResult, abortAny := false }
    (setInst i { inst s i with
      st := .resetting, drained := false, err := 0, reads := (inst s i).reads.map (fun r => { r with abort := false }) } s)

/-- No ticket of it is being aborted any more. -/
def abortsForgotten (i : Nat) (s : State) : State :=
  { s with tickets := s.tickets.map (fun (t : Ticket) => if t.iid = i ∧ t.device = false then { t with aborting := false } else t) }

/-- RESET step 2: its undispatched tickets complete, and step 3: its dispatched ones leave their acts. -/
def resetTickets (i : Nat) (s : State) : State :=
  let u := (undispatched s i).foldl (fun u tid => finishQueued tid { status := 0x51 } u) s
  (onCores u i).foldl (fun u tid => stopTicket tid 0x51 u) u

theorem instReset_taken {s : State} {i : Nat} (hw : Writable s) (hp : iidPresent s i = true)
    (h : (inst s i).st = .active ∨ (inst s i).st = .stopped) :
    Runs (.instReset i) s (resetTickets i (abortsForgotten i (resetBegun i s))) := by
  change execInstReset i s = _
  refine instCommand_accepted hw hp (by simpa using h) ?_
  have hbegun : setPage i { page (setErr i 0 s) i with
        abortResult := if (page (setErr i 0 s) i).abortBusy then stNothing else (page (setErr i 0 s) i).abortResult, abortAny := false }
      (setInst i { inst (setErr i 0 s) i with
        st := .resetting, drained := false, reads := (inst (setErr i 0 s) i).reads.map (fun r => { r with abort := false }) }
        (setErr i 0 s)) = resetBegun i s := by
    simp only [setErr, inst_setInst, setInst_setInst, page_setInst]
    rfl
  rw [← hbegun]
  rfl

theorem resetComplete_runs {s : State} {i : Nat} (hl : Live s) (hst : (inst s i).st = .resetting) (hr : (inst s i).removing = false)
    (hwork : hasWork s i = false) :
    Runs (.resetComplete i) s (attention i (setPage i { page s i with
        mbOut := [], mbIn := [], outFull := false, inFull := false, abortTag := 0, abortFor := 0, abortBusy := false, abortOverrun := false }
      (setInst i { inst s i with
        sqHead := 0, cqTail := 0, cqHead := 0, unreleased := 0, reserved := 0, st := .stopped, drained := true }
      ((s.dol.txns.filter (fun r => r.iid == i)).foldl (fun u r => dropTxn r u) s)))) :=
  congrArg Host.Outcome.next ((unlessLocked_live hl).trans (if_neg (by simp [hst, hr, hwork])))

theorem removeComplete_runs {s : State} {i : Nat} (hl : Live s) (hr : (inst s i).removing = true) :
    Runs (.removeComplete i) s (causeEarly 2 (setInst i {
        sqHead := (inst s i).sqHead, sqTail := (inst s i).sqTail, cqHead := (inst s i).cqHead, cqTail := (inst s i).cqTail,
        unreleased := (inst s i).unreleased, reserved := (inst s i).reserved, err := (inst s i).err }
      { s with ks := { s.ks with entries := s.ks.entries.filter (fun e => e.1 / 2 ^ 23 != i) } })) :=
  congrArg Host.Outcome.next ((unlessLocked_live hl).trans (if_neg (by simp [hr])))

/-- Settles O4: each command by the states that accept it, and removal through what sessions and keys leave alone. -/
theorem instancesStopResumeAndReset : Obligations.InstancesStopResumeAndReset := by
  unfold Obligations.InstancesStopResumeAndReset
  exact ⟨⟨fun s i hw hp h hwork => stop_working hw hp h hwork, fun s i hw hp h hwork => stop_idle hw hp h hwork,
      fun s i hw hp h => stop_refused hw hp h, fun s i hw hp h => cancel_taken hw hp h, fun s i hw hp h hb => resume_taken hw hp h hb,
      fun s i hw hp h => cancel_resume_refused hw hp h⟩,
    fun s i hw hp h => instReset_taken hw hp h, fun s i hw hp => ⟨instReset_refused hw hp, remove_refused hw hp⟩,
    fun s i hl hst hr hwork => resetComplete_runs hl hst hr hwork, fun s i hw hp hst hd => remove_taken hw hp hst hd,
    fun s i hl hr => removeComplete_runs hl hr⟩

end Sys2Proof.Machine
end

section
/-!
SUPPORT. What an exception leaves (R120, R122, R147), the words of no row and the fetch checks (R104, R119), the recording and delivery of
vector faults (R146, R147), the interrupts of the management pair and TIMECMP (R117, R121, R122).
-/
namespace Sys2Proof.Machine

open Sys2Proof

/-! ### One ticket among the tickets -/

theorem ticket?_id {s : State} {k : Nat} {t : Ticket} (h : ticket? s k = some t) : t.id = k := by
  simpa using List.find?_some h

theorem ticketOn_id {s : State} {c : Nat} {t : Ticket} (h : ticketOn s c = some t) : (core s c).ticket = some t.id := by
  obtain ⟨k, hk, ht⟩ := Option.bind_eq_some_iff.1 h
  rw [hk, ticket?_id ht]

theorem ticketOn_ticket {s : State} {c : Nat} {t : Ticket} (h : ticketOn s c = some t) : ticket? s t.id = some t := by
  obtain ⟨k, hk, ht⟩ := Option.bind_eq_some_iff.1 h
  rwa [ticket?_id ht]

/-- A change of the named ticket that keeps its number changes what the number finds, and nothing of the others. -/
theorem ticket?_modTicket (s : State) (k j : Nat) (f : Ticket → Ticket) (hf : ∀ t, (f t).id = t.id) :
    ticket? (modTicket k f s) j = (ticket? s j).map (fun t => if t.id = k then f t else t) := by
  unfold ticket? modTicket
  rw [List.find?_map]
  refine congrArg (fun p => Option.map _ (List.find? p s.tickets)) (funext fun t => ?_)
  by_cases h : t.id = k <;> simp [h, hf]

theorem ticket?_modTicket_same {s : State} {k : Nat} {t : Ticket} (f : Ticket → Ticket) (hf : ∀ t, (f t).id = t.id)
    (h : ticket? s k = some t) : ticket? (modTicket k f s) k = some (f t) := by
  rw [ticket?_modTicket s k k f hf, h, Option.map_some, if_pos (ticket?_id h)]

theorem ticket?_modTicket_other (s : State) {k j : Nat} (f : Ticket → Ticket) (hf : ∀ t, (f t).id = t.id) (hj : j ≠ k) :
    ticket? (modTicket k f s) j = ticket? s j := by
  rw [ticket?_modTicket s k j f hf]
  cases h : ticket? s j with
  | none => rfl
  | some t => rw [Option.map_some, if_neg (by rw [ticket?_id h]; exact hj)]

theorem ticket?_dropTicket_same (s : State) (k : Nat) : ticket? (dropTicket k s) k = none := by
  unfold ticket? dropTicket
  simp [List.find?_eq_none]

/-! ### What a waiting routine's end and an event leave alone -/

theorem endWaiting_frame (c : Nat) (s : State) : ∃ x, endWaiting c s = { s with corex := x } := by
  unfold endWaiting
  dsimp only
  split
  · exact ⟨_, rfl⟩
  · exact ⟨s.corex, rfl⟩

theorem core_endWaiting (c d : Nat) (s : State) : core (endWaiting c s) d = core s d := by
  obtain ⟨x, h⟩ := endWaiting_frame c s
  rw [h]; rfl

theorem corex_endWaiting (c : Nat) (s : State) :
    corex (endWaiting c s) c = { corex s c with micro := { (corex s c).micro with waiting := none } } := by
  unfold endWaiting
  dsimp only
  split
  · exact corex_setCorex _ _ _
  next h =>
    have hn : (corex s c).micro.waiting = none := by simpa using h
    rw [← hn]

theorem corex_endWaiting_other {c d : Nat} (s : State) (h : d ≠ c) : corex (endWaiting c s) d = corex s d := by
  unfold endWaiting
  dsimp only
  split
  · exact corex_setCorex_other _ _ _ _ h
  · rfl

/-! ### Taking an exception (R120, R122) -/

/-- With a handler set and none active the core enters it. -/
theorem takeTrap_enters {c : Nat} {cause : Byte} {v : W64} {b : Bool} {s : State} (hv : (core s c).trap.vec ≠ 0)
    (ha : (core s c).trap.active = false) : takeTrap c cause v b s = setCore c { core s c with
      trap := { (core s c).trap with cause := cause.setWidth 64, pc := (core s c).pc, val := v, active := true },
      pc := (core s c).trap.vec } (endWaiting c s) := by
  unfold takeTrap
  dsimp only
  rw [core_endWaiting, if_pos ⟨hv, ha⟩]

/-- Without one a ring core's act ends with INVALID_INPUT. -/
theorem takeTrap_ends {c : Nat} (cause : Byte) (v : W64) {s : State} (hc : c ≠ 256)
    (hn : (core s c).trap.vec = 0 ∨ (core s c).trap.active = true) :
    ∃ ev, takeTrap c cause v false s = endActFault c stInvalid ev (endWaiting c s) := by
  unfold takeTrap
  dsimp only
  rw [core_endWaiting, if_neg (by rintro ⟨hv, ha⟩; rcases hn with h | h <;> simp_all), if_neg (show ¬ c = mgmtCore from hc)]
  exact ⟨_, rfl⟩

/-- Without one the management pair goes into reset with an F4 event. -/
theorem takeTrap_holds {cause : Byte} {v : W64} {s : State} (hn : (core s 256).trap.vec = 0 ∨ (core s 256).trap.active = true) :
    takeTrap 256 cause v false s = report
      { cls := .f4, source := 0x1E, unit := 0x1100, cause := 0x06, addr := v,
        detail0 := (core s 256).pc, detail1 := BitVec.ofNat 64 cause.toNat }
      { endWaiting 256 s with mgmt := { s.mgmt with held := true } } := by
  obtain ⟨x, h⟩ := endWaiting_frame 256 s
  unfold takeTrap
  dsimp only
  rw [core_endWaiting, if_neg (by rintro ⟨hv, ha⟩; rcases hn with h | h <;> simp_all), h]
  rfl

/-- The act of a ticket that runs on the core ends. -/
theorem endAct_exits {c : Nat} (st : Byte) (n : W32) {s : State} {q : Ticket} (hq : ticketOn s c = some q) (hp : q.phase = .running c) :
    endAct c st n s = setCore c { core s c with run := .exiting st n, stallFrom := some (coreNow s c) } s := by
  unfold endAct
  dsimp only
  rw [if_pos (by rw [hq]; simp [hp])]

theorem ticketOn_report (ev : Event) (s : State) (c : Nat) : ticketOn (report ev s) c = ticketOn s c := by
  obtain ⟨k, b, hr⟩ := report_frame ev s
  rw [hr]; rfl

/-- A fault of a ticket's operation leaves its class with the ticket. -/
theorem ticketOn_touch {s : State} {c : Nat} {q : Ticket} (f : FaultClass) (h : ticketOn s c = some q) :
    ticketOn (touch q.id f s) c = some { q with fault := max q.fault f.rank } := by
  show (core s c).ticket.bind (ticket? (touch q.id f s)) = _
  rw [ticketOn_id h]
  exact ticket?_modTicket_same _ (fun _ => rfl) (ticketOn_ticket h)

/-- An act that ends for a fault: its core exits, its ticket keeps its phase and holds the fault's class. -/
theorem endActFault_exits {c : Nat} (st : Byte) (ev : Event) {s : State} {q : Ticket} (hq : ticketOn s c = some q)
    (hp : q.phase = .running c) : (core (endActFault c st ev s) c).run = .exiting st 0 ∧
      ticketOn (endActFault c st ev s) c = some { q with fault := max q.fault 2 } ∧ (endActFault c st ev s).mem = s.mem := by
  have ho := (ticketOn_report (Event.naming ev q) _ c).trans (ticketOn_touch .f2 hq)
  obtain ⟨k, b, hr⟩ := report_frame (Event.naming ev q) (touch q.id .f2 s)
  have he : endActFault c st ev s = endAct c st 0 (report (Event.naming ev q) (touch q.id .f2 s)) := by
    unfold endActFault
    rw [hq]
  rw [he, endAct_exits st 0 ho hp]
  refine ⟨by rw [core_setCore], ?_, by rw [hr]; rfl⟩
  rw [ticketOn, core_setCore]
  exact ho

/-- What a handler that is entered finds, and what is left alone. -/
theorem takeTrap_entered (s : State) (c : Nat) (cause : Byte) (v : W64) (hv : (core s c).trap.vec ≠ 0)
    (ha : (core s c).trap.active = false) :
    let t := takeTrap c cause v false s
    (core t c).pc = (core s c).trap.vec ∧ (core t c).trap.pc = (core s c).pc ∧ (core t c).trap.cause = cause.setWidth 64 ∧
    (core t c).trap.val = v ∧ (core t c).trap.active = true ∧ (core t c).g = (core s c).g ∧ (core t c).gtag = (core s c).gtag ∧
    (core t c).trap.vec = (core s c).trap.vec ∧ (core t c).trap.scratch = (core s c).trap.scratch ∧
    (∀ d, d ≠ c → core t d = core s d ∧ corex t d = corex s d) ∧
    corex t c = { corex s c with micro := { (corex s c).micro with waiting := none } } ∧
    t.mem = s.mem ∧ t.tickets = s.tickets ∧ t.mgmt = s.mgmt ∧ t.fcq = s.fcq := by
  obtain ⟨x, hx⟩ := endWaiting_frame c s
  dsimp only
  rw [takeTrap_enters hv ha, core_setCore]
  refine ⟨rfl, rfl, rfl, rfl, rfl, rfl, rfl, rfl, rfl,
    fun d hd => ⟨(core_setCore_other _ _ _ _ hd).trans (core_endWaiting c d s), corex_endWaiting_other s hd⟩, corex_endWaiting c s, ?_⟩
  rw [hx]
  exact ⟨rfl, rfl, rfl, rfl⟩

/-! ### Words of no row and the fetch checks (R104, R119) -/

/-- On a core with no check outstanding and no fault pending an instruction's exception is taken at once. -/
theorem issue_raises {c : Nat} {s : State} (b : Bool) {body : Core → IRes} {cause : Byte} {v : W64} (hs : mayIssue s c = true)
    (ha : (core s c).pc.toNat % 4 = 0) (hf : fetchable s c (core s c).pc.toNat = true) (hr : fetchReread s c = false)
    (hh : fetchHeld s c (core s c).pc.toNat = false) (q : Settled c s) (e : body (core s c) = .exc cause v) :
    issue c b body s = afterInstr c (takeTrap c cause v false s) := by
  unfold issue
  rw [if_neg (by simp [hs])]
  dsimp only
  rw [if_neg (by simp [ha]), if_neg (by simp [hf]), if_neg (by simp [hr]), if_neg (by simp [hh]), if_neg (by simp [q.1]),
    if_neg (by simp [q.2]), e]
  exact congrArg (afterInstr c) (raise_settled cause v q)

/-- A word of no row, and a vector word on the management pair, run as ILLEGAL_INSTRUCTION under every command. -/
theorem runWord_noRow {c : Nat} {w : W32} {s : State} (hs : mayIssue s c = true)
    (ha : (core s c).pc.toNat % 4 = 0) (hf : fetchable s c (core s c).pc.toNat = true) (hr : fetchReread s c = false)
    (hh : fetchHeld s c (core s c).pc.toNat = false) (q : Settled c s) (hm : microEnd c w s = none)
    (hw : klass w = .illegal ∨ (c = 256 ∧ 0x38 ≤ opcode w)) (k : Klass) (body : Core → State → IRes) :
    runWord k c w body s = afterInstr c (takeTrap c cIllegal 0 false s) := by
  unfold runWord
  rw [if_pos (by simpa [isVector, mgmtCore] using hw)]
  exact issue_raises _ hs ha hf hr hh q (by simp [throughRom, hm])

/-- A word at a misaligned PC raises MISALIGNED (R119). -/
theorem runWord_misaligned {k : Klass} {c : Nat} {w : W32} {s : State} (body : Core → State → IRes) (hm : mayIssue s c = true)
    (hk : klass w = k) (hi : k ≠ .illegal) (hv : isVector w = false) (hs : Settled c s) (ha : (core s c).pc.toNat % 4 ≠ 0) :
    runWord k c w body s = afterInstr c (takeTrap c cMisaligned (core s c).pc false s) := by
  have hw : ¬ (klass w = .illegal ∨ (c = mgmtCore ∧ isVector w = true)) := by simp [hk, hi, hv]
  rw [runWord, if_neg hw, if_pos hk, issue, if_neg (by simp [hm])]
  simp only [ha, ne_eq, not_false_eq_true, if_true, raise_settled cMisaligned _ hs]

theorem klass_regArith {w : W32} (h : klass w = .regArith) : opcode w = 0x01 := by
  refine Decidable.byContradiction fun hop => absurd h ?_
  rw [klass, if_neg hop]
  repeat' refine iteInduction (motive := (¬ · = Klass.regArith)) (fun _ => ?_) (fun _ => ?_)
  all_goals repeat' split
  all_goals exact nofun

theorem csrr_runs : RowRuns .csrr .csrr bodyCsrr := fun _ _ _ => rfl
theorem exit_runs : RowRuns .exit .exit bodyExit := fun _ _ _ => rfl

/-- Settles O18, by whether a handler can be entered, and by the order of what is checked at issue. -/
theorem exceptionsEnterTheHandler : Obligations.ExceptionsEnterTheHandler := by
  unfold Obligations.ExceptionsEnterTheHandler
  refine ⟨⟨takeTrap_entered, ?_, ?_⟩, ?_, ?_⟩
  · intro s c cause v q _ hc hn hq hp
    dsimp only
    obtain ⟨ev, he⟩ := takeTrap_ends cause v hc hn
    obtain ⟨x, hx⟩ := endWaiting_frame c s
    have hq' : ticketOn (endWaiting c s) c = some q := by rw [hx]; exact hq
    obtain ⟨hrun, ht, hm⟩ := endActFault_exits stInvalid ev hq' hp
    rw [he]
    exact ⟨hrun, ⟨_, ht, Nat.le_max_right _ _, hp⟩, by rw [hm, hx]⟩
  · intro s cause v _ hn
    rw [takeTrap_holds hn]
    rfl
  · intro s c w hs ha hf hr hh q hm hw
    have h := runWord_noRow hs ha hf hr hh q hm hw
    exact ⟨(regArith_runs c w s).trans (congrArg _ (h _ _)), (load_runs c w s).trans (congrArg _ (h _ _)),
      (exit_runs c w s).trans (congrArg _ (h _ _)), (vecAlu_runs c w s).trans (congrArg _ (h _ _)),
      (csrr_runs c w s).trans (congrArg _ (h _ _))⟩
  · intro s c w hm hk q
    have hv : isVector w = false := by simp [isVector, klass_regArith hk]
    exact ⟨fun ha => (regArith_runs c w s).trans (congrArg _ (runWord_misaligned _ hm hk (by decide) hv q ha)),
      fun ha hf => (regArith_runs c w s).trans (congrArg _ (runWord_unfetchable _ hm hk (by decide) hv q ha hf))⟩

/-! ### Vector faults (R146, R147) -/

/-- Settles O32: the oldest check by whether it faults and whether a fault is pending; delivery enters the handler. -/
theorem vectorFaultsAreRecordedAndDelivered : Obligations.VectorFaultsAreRecordedAndDelivered := by
  unfold Obligations.VectorFaultsAreRecordedAndDelivered
  refine ⟨?_, ?_, ?_, ?_, ?_, ?_⟩
  · intro s c h
    show Host.Outcome.next (recordCheck c s) = _
    simp [recordCheck, show (corex s c).vec.checks = [] from h]
  · intro s c k r h hf ht
    show Host.Outcome.next (recordCheck c s) = _
    simp [recordCheck, show (corex s c).vec.checks = k :: r from h, hf, ht, vec]
  · intro s c ht
    show Host.Outcome.next (recordCheck c s) = _
    simp [recordCheck, ht]
  · intro s c k r cause a m h hf hp ht
    show Host.Outcome.next (recordCheck c s) = _
    simp [recordCheck, show (corex s c).vec.checks = k :: r from h, hf, ht, show (corex s c).vec.pending = false from hp, vec]
  · intro s c k r f h hf hp ht
    show Host.Outcome.next (recordCheck c s) = _
    simp [recordCheck, show (corex s c).vec.checks = k :: r from h, hf, ht, show (corex s c).vec.pending = true from hp, vec]
  · intro s c hv ha
    dsimp only [deliverVector]
    rw [takeTrap_enters (by exact hv) (by exact ha), core_setCore]
    refine ⟨rfl, rfl, rfl, rfl, ?_, ?_⟩
    all_goals
      rw [vec, corex_setCore, corex_endWaiting, corex_setCorex]
      try rfl

/-! ### Interrupts of the management pair and TIMECMP (R117, R121, R122) -/

theorem deliverInt_intPend (s : State) : (deliverInt s).mgmt.intPend = s.mgmt.intPend := by
  unfold deliverInt
  dsimp only
  split <;> rfl

/-- An unmasked interrupt outside a handler is delivered to a pair that runs. -/
theorem deliverInt_delivers {s : State} (h : s.mgmt.intPend &&& s.mgmt.intMask ≠ 0 ∧ s.mgmt.intActive = false ∧ s.mgmt.held = false ∧
      (core s 256).run ≠ .waiting) :
    (deliverInt s).mgmt.intActive = true ∧ (deliverInt s).mgmt.intPc = (core s 256).pc ∧
      (core (deliverInt s) 256).pc = s.mgmt.intVec := by
  have he : deliverInt s = setCore 256 { core s 256 with pc := s.mgmt.intVec }
      { s with mgmt := { s.mgmt with intPc := (core s 256).pc, intActive := true } } := if_pos h
  rw [he, core_setCore]
  exact ⟨rfl, rfl, rfl⟩

theorem deliverInt_waits {s : State} (h : s.mgmt.intPend &&& s.mgmt.intMask = 0 ∨ s.mgmt.intActive = true ∨ s.mgmt.held = true) :
    deliverInt s = s := by
  refine if_neg ?_
  rintro ⟨hp, ha, hh, -⟩
  rcases h with h | h | h <;> simp_all

/-- WAIT ends, or nothing happens. -/
theorem wake_cases (c : Nat) (s : State) :
    ((core s c).run = .waiting ∧ (core s c).evPend &&& (core s c).evMask ≠ 0 ∧
      ∃ n, wake c s = setCore c { core s c with run := .running, stalled := n, stallFrom := none } s) ∨
    (¬ ((core s c).run = .waiting ∧ (core s c).evPend &&& (core s c).evMask ≠ 0) ∧ wake c s = s) := by
  unfold wake
  dsimp only
  split
  next h => exact .inl ⟨h.1, h.2, _, rfl⟩
  next h => exact .inr ⟨h, rfl⟩

theorem core_setEvent (c k : Nat) (s : State) :
    core (setEvent c k s) c = { core s c with evPend := (core s c).evPend ||| BitVec.ofNat 10 (2 ^ k) } := by
  unfold setEvent
  dsimp only
  rw [core_noteSet, core_setCore]

theorem core_setEvent_other {c d : Nat} (k : Nat) (s : State) (h : d ≠ c) : core (setEvent c k s) d = core s d := by
  unfold setEvent
  dsimp only
  rw [core_noteSet, core_setCore_other _ _ _ _ h]

/-- TIMECMP's event at a core: its bit is set, a core that waits for it runs again, and nothing else of it moves. -/
theorem raiseEvent_timecmp (s : State) (c : Nat) :
    (core (raiseEvent c 9 s) c).evPend = (core s c).evPend ||| 0x200 ∧
    ((core s c).run = .waiting → (core s c).evMask.getLsbD 9 = true → (core (raiseEvent c 9 s) c).run = .running) ∧
    ((core s c).run ≠ .waiting → (core (raiseEvent c 9 s) c).run = (core s c).run) ∧
    (core (raiseEvent c 9 s) c).pc = (core s c).pc ∧ (∀ d, d ≠ c → core (raiseEvent c 9 s) d = core s d) ∧
    (raiseEvent c 9 s).corex = s.corex ∧ (raiseEvent c 9 s).mem = s.mem := by
  have hset := core_setEvent c 9 s
  unfold raiseEvent
  rcases wake_cases c (setEvent c 9 s) with ⟨hw, -, n, he⟩ | ⟨hw, he⟩
  · rw [he, core_setCore, hset]
    rw [hset] at hw
    exact ⟨rfl, fun _ _ => rfl, fun h => absurd hw h, rfl,
      fun d hd => (core_setCore_other _ _ _ _ hd).trans (core_setEvent_other 9 s hd), rfl, rfl⟩
  · rw [he, hset]
    rw [hset] at hw
    refine ⟨rfl, fun hr hm => absurd ⟨hr, fun hz => ?_⟩ hw, fun _ => rfl, rfl, fun d hd => core_setEvent_other 9 s hd, rfl, rfl⟩
    have hbit := congrArg (BitVec.getLsbD · 9) hz
    simp at hbit
    simp [hbit] at hm

/-- Settles O25: the interrupt by what `deliverInt` asks, TIMECMP by whether CYCLE has reached it and the core waits. -/
theorem interruptsAndTimerEvents : Obligations.InterruptsAndTimerEvents := by
  unfold Obligations.InterruptsAndTimerEvents
  refine ⟨?_, ?_, ?_⟩
  · intro s k hl hk
    refine ⟨deliverInt { s with mgmt := { s.mgmt with intPend := s.mgmt.intPend ||| BitVec.ofNat 64 (2 ^ k) } }, ?_,
      deliverInt_intPend _, ?_, ?_⟩
    · exact congrArg Host.Outcome.next ((unlessLocked_live hl).trans (if_neg (by omega)))
    · exact fun h => deliverInt_delivers h
    · exact fun h => deliverInt_waits h
  · intro s c hl h
    exact congrArg Host.Outcome.next ((unlessLocked_live hl).trans (if_neg (fun hp => by omega)))
  · intro s c hl hc hm h
    exact ⟨raiseEvent c 9 s, congrArg Host.Outcome.next ((unlessLocked_live hl).trans
      ((if_pos ⟨by simp [corePresent, hc], h⟩).trans (if_neg (Nat.ne_of_lt hm)))), raiseEvent_timecmp s c⟩

end Sys2Proof.Machine
end

section
/-!
SUPPORT. The control and status registers (R117, R122, R151, R182, R191): what reads answer and what CSRW, CSRS and CSRC leave.
-/
namespace Sys2Proof.Machine

open Sys2Proof

theorem csrw_runs : RowRuns .csrw .csrw (bodyCsrWrite .write) := fun _ _ _ => rfl
theorem csrs_runs : RowRuns .csrs .csrs (bodyCsrWrite .set) := fun _ _ _ => rfl
theorem csrc_runs : RowRuns .csrc .csrc (bodyCsrWrite .clear) := fun _ _ _ => rfl

theorem csrNo_of_field {w : W32} (h : fld w 12 4 = 0) : csrNo w = some (fld w 0 12) := if_pos h
theorem csrNo_of_high {w : W32} (h : fld w 12 4 ≠ 0) : csrNo w = none := if_neg h

/-! ### Reads -/

theorem bodyCsrr_reads {c : Nat} {w : W32} {x : Core} {s : State} {v : W64 × Tag} (h : fld w 12 4 = 0)
    (hw : vectorWait c (fld w 0 12) s = false) (hr : csrRead c (fld w 0 12) x s = .ok v) :
    bodyCsrr c w x s = retG c x s (fD w) v.1 v.2 := by
  rw [bodyCsrr, csrNo_of_field h]
  dsimp only
  rw [hw, hr]
  rfl

theorem bodyCsrr_illegal {c : Nat} {w : W32} {x : Core} {s : State}
    (h : fld w 12 4 ≠ 0 ∨ fld w 0 12 = 0x005 ∨ fld w 0 12 = 0x0FF) : bodyCsrr c w x s = .exc cIllegal 0 := by
  by_cases hz : fld w 12 4 = 0
  · have hn : fld w 0 12 = 0x005 ∨ fld w 0 12 = 0x0FF := h.resolve_left (not_not_intro hz)
    rw [bodyCsrr, csrNo_of_field hz]
    rcases hn with hn | hn
    all_goals
      rw [hn]
      rfl
  · rw [bodyCsrr, csrNo_of_high hz]

/-- The CSRs that hold a field of the core. -/
theorem csrRead_fields (s : State) (c n : Nat) (v : W64) (t : Tag) (hc : c < 256) :
    let x := core s c
    ((n = 0x002 ∧ v = BitVec.ofNat 64 (cycles s c) ∧ t = .pub) ∨ (n = 0x003 ∧ v = BitVec.ofNat 64 x.instret ∧ t = .pub) ∨
      (n = 0x004 ∧ v = s.rm.nt ∧ t = .pub) ∨ (n = 0x020 ∧ v = x.trap.vec ∧ t = .pub) ∨ (n = 0x021 ∧ v = x.trap.cause ∧ t = .pub) ∨
      (n = 0x022 ∧ v = x.trap.pc ∧ t = .pub) ∨ (n = 0x023 ∧ v = x.trap.val ∧ t = .pub) ∨
      (n = 0x024 ∧ v = x.trap.scratch ∧ t = x.trap.scratchTag) ∨ (n = 0x030 ∧ v = x.evMask.setWidth 64 ∧ t = .pub) ∨
      (n = 0x031 ∧ v = x.evPend.setWidth 64 ∧ t = .pub) ∨ (n = 0x032 ∧ v = x.timecmp ∧ t = .pub) ∨
      (n = 0x040 ∧ v = BitVec.ofNat 64 x.wsBase ∧ t = .pub) ∨ (n = 0x041 ∧ v = BitVec.ofNat 64 x.wsSize ∧ t = .pub) ∨
      (n = 0x101 ∧ v = (corex s c).vec.mask.setWidth 64 ∧ t = .pub) ∨ (n = 0x102 ∧ v = (corex s c).vec.faddr ∧ t = .pub) ∨
      (n = 0x103 ∧ v = (corex s c).vec.fval ∧ t = .pub) ∨ (n = 0x205 ∧ v = (corex s c).dcl.tagAddr ∧ t = .pub)) →
    csrRead c n x s = .ok (v, t) := by
  have hm : c ≠ mgmtCore := Nat.ne_of_lt hc
  intro x h
  rcases h with ⟨rfl, rfl, rfl⟩ | ⟨rfl, rfl, rfl⟩ | ⟨rfl, rfl, rfl⟩ | ⟨rfl, rfl, rfl⟩ | ⟨rfl, rfl, rfl⟩ | ⟨rfl, rfl, rfl⟩ | ⟨rfl, rfl, rfl⟩ |
    ⟨rfl, rfl, rfl⟩ | ⟨rfl, rfl, rfl⟩ | ⟨rfl, rfl, rfl⟩ | ⟨rfl, rfl, rfl⟩ | ⟨rfl, rfl, rfl⟩ | ⟨rfl, rfl, rfl⟩ | h
  iterate 13 rfl
  rcases h with ⟨rfl, rfl, rfl⟩ | ⟨rfl, rfl, rfl⟩ | ⟨rfl, rfl, rfl⟩ | ⟨rfl, rfl, rfl⟩
  all_goals
    simp only [csrRead, hm]
    rfl

/-! ### Writes -/

/-- A write to an RW register, of data it takes. -/
theorem csrWrite_puts {k : CsrOp} {c n : Nat} {v old : W64} {t ot : Tag} {x : Core} {s u : State} (hr : csrRead c n x s = .ok (old, ot))
    (hn : n ≠ 0x214) (ht : t.isShare = false) (hp : t = .pub ∨ n = 0x024)
    (hu : csrPut c n (k.apply old v) (mixTag (if k = .write then [t] else [t, ot])) x s = some u) :
    csrWrite k c n v t x s = .ok u (x.pc + 4) := by
  unfold csrWrite
  rw [hr]
  dsimp only
  rw [if_neg (fun h => hn h.1), hu]
  refine if_neg ?_
  rintro (h | ⟨h, h'⟩)
  · simp [ht] at h
  · exact hp.elim h h'

/-- CSRW of a register that clears the bits written as 1. -/
theorem csrWrite_clears {c n : Nat} {v old : W64} {ot : Tag} {x : Core} {s u : State} (hr : csrRead c n x s = .ok (old, ot))
    (hn : n ≠ 0x214) (hp : csrPut c n v (mixTag [.pub]) x s = none) (hu : csrClear c n v x s = some u) :
    csrWrite .write c n v .pub x s = .ok u (x.pc + 4) := by
  unfold csrWrite
  rw [hr]
  dsimp only [CsrOp.apply]
  rw [if_neg (fun h => hn h.1), if_pos rfl, hp, if_pos rfl, hu]
  rfl

theorem csrWrite_illegal {k : CsrOp} {c n : Nat} {v old : W64} {t ot : Tag} {x : Core} {s : State} (hr : csrRead c n x s = .ok (old, ot))
    (hn : n ≠ 0x214) (hp : ∀ a b, csrPut c n a b x s = none) (hu : k = .write → csrClear c n v x s = none) :
    csrWrite k c n v t x s = .exc cIllegal 0 := by
  unfold csrWrite
  rw [hr]
  dsimp only
  rw [if_neg (fun h => hn h.1), hp]
  dsimp only
  split
  next h => rw [hu h]
  · rfl

theorem bodyCsrWrite_field {k : CsrOp} {c : Nat} {w : W32} {x : Core} {s : State} {n : Nat} (h : fld w 12 4 = 0) (hn : fld w 0 12 = n)
    {v : W64 × Tag} (hr : csrRead c n x s = .ok v) :
    bodyCsrWrite k c w x s = csrWrite k c n (x.rg (fA w)) (x.tagG (fA w)) x s := by
  subst hn
  rw [bodyCsrWrite, csrNo_of_field h]
  dsimp only
  rw [hr]

theorem bodyCsrWrite_high {k : CsrOp} {c : Nat} {w : W32} {x : Core} {s : State} (h : fld w 12 4 ≠ 0) :
    bodyCsrWrite k c w x s = .exc cIllegal 0 := by
  rw [bodyCsrWrite, csrNo_of_high h]

/-- CSRW, CSRS or CSRC of public data to an RW register completes with the register written. -/
theorem runs_csrPut {mk : Nat → W32 → Instr} {kl : Klass} {k : CsrOp} (hrow : RowRuns mk kl (bodyCsrWrite k)) {s u : State} {c n : Nat}
    {w : W32} {old : W64} {ot : Tag} (hi : Issues kl c w s) (ht : (core s c).tagG (fA w) = .pub) (h0 : fld w 12 4 = 0)
    (hn : fld w 0 12 = n) (hg : n ≠ 0x214) (hr : csrRead c n (core s c) s = .ok (old, ot))
    (hu : csrPut c n (k.apply old ((core s c).rg (fA w))) (mixTag (if k = .write then [.pub] else [.pub, ot])) (core s c) s = some u) :
    Runs (mk c w) s (after c s u ((core s c).pc + 4)) := by
  refine hrow.completes hi ((bodyCsrWrite_field h0 hn hr).trans ?_)
  rw [ht]
  exact csrWrite_puts hr hg rfl (.inl rfl) hu

theorem setWidth_or_setWidth (a : BitVec 10) (v : W64) : ((a.setWidth 64) ||| v).setWidth 10 = a ||| v.setWidth 10 := by
  ext i hi
  simp

theorem setWidth_andNot_setWidth (a : BitVec 10) (v : W64) : ((a.setWidth 64) &&& ~~~v).setWidth 10 = a &&& ~~~(v.setWidth 10) := by
  ext i hi
  simp [show i < 64 by omega]

/-- Settles O23: reads by the register's field, writes by what `csrPut` and `csrClear` answer for its number. -/
theorem csrReadsAndWrites : Obligations.CsrReadsAndWrites := by
  unfold Obligations.CsrReadsAndWrites
  refine ⟨⟨?_, csrRead_fields, fun s => ⟨rfl, rfl, rfl, rfl⟩, csrr_runs.raises fun _ _ _ h => bodyCsrr_illegal h⟩,
    ?_, ?_, ?_, ?_, ?_, ?_, ?_, ?_, ?_, ?_⟩
  · intro s c w v hi h0 hv hr
    refine csrr_runs.completes hi (bodyCsrr_reads h0 ?_ hr)
    unfold vectorWait
    by_cases h : 0x100 ≤ fld w 0 12 ∧ fld w 0 12 ≤ 0x103 <;> simp [h, hv]
  · rintro s c w v t hi ht rfl h0 (⟨hn, rfl⟩ | ⟨hn, rfl⟩ | ⟨hn, rfl⟩)
    all_goals exact runs_csrPut csrw_runs hi ht h0 hn (by decide) rfl rfl
  · intro s c w hi ht h0 hn
    exact csrw_runs.completes hi ((bodyCsrWrite_field h0 hn rfl).trans (csrWrite_puts rfl (by decide) ht (.inr rfl) rfl))
  · intro s c w hi ht h0
    refine ⟨fun hn => runs_csrPut csrw_runs hi ht h0 hn (by decide) rfl rfl,
      fun hn => runs_csrPut csrw_runs hi ht h0 hn (by decide) rfl rfl, fun hn => ?_⟩
    refine csrw_runs.completes hi ((bodyCsrWrite_field h0 hn rfl).trans ?_)
    rw [ht]
    exact csrWrite_clears rfl (by decide) rfl rfl
  · intro s c w hi ht h0 hn
    rw [← setWidth_or_setWidth]
    exact runs_csrPut csrs_runs hi ht h0 hn (by decide) rfl rfl
  · intro s c w hi ht h0 hn
    rw [← setWidth_andNot_setWidth]
    exact runs_csrPut csrc_runs hi ht h0 hn (by decide) rfl rfl
  · intro s w hi ht h0 hn
    exact runs_csrPut csrw_runs hi ht h0 hn (by decide) rfl rfl
  · refine csrw_runs.raises ?_
    rintro c w s ⟨h0, hn, ht⟩
    refine (bodyCsrWrite_field h0 hn rfl).trans ?_
    exact if_pos (.inr ⟨ht, by decide⟩)
  · refine csrw_runs.raises ?_
    rintro c w s h
    by_cases h0 : fld w 12 4 = 0
    · rcases h.resolve_left (not_not_intro h0) with hn | hn
      all_goals exact (bodyCsrWrite_field h0 hn rfl).trans (csrWrite_illegal rfl (by decide) (fun _ _ => rfl) (fun _ => rfl))
    · exact bodyCsrWrite_high h0
  · refine csrs_runs.raises ?_
    rintro c w s ⟨-, h0, hn⟩
    exact (bodyCsrWrite_field h0 hn rfl).trans (csrWrite_illegal rfl (by decide) (fun _ _ => rfl) nofun)
  · refine csrc_runs.raises ?_
    rintro c w s ⟨-, h0, hn⟩
    exact (bodyCsrWrite_field h0 hn rfl).trans (csrWrite_illegal rfl (by decide) (fun _ _ => rfl) nofun)

end Sys2Proof.Machine
end

section
/-!
SUPPORT. The system instructions (R111–R113): EXIT, WAIT, FENCE, TRET, BRK, IRET, and the key and form instructions.
-/
namespace Sys2Proof.Machine

open Sys2Proof

theorem wait_runs : RowRuns .wait .wait (fun c _ => bodyWait c) := fun _ _ _ => rfl
theorem fence_runs : RowRuns .fence .fence (fun c _ x s => .ok (fenced c s) (x.pc + 4)) := fun _ _ _ => rfl
theorem tret_runs : RowRuns .tret .tret (fun c _ => bodyTret c) := fun _ _ _ => rfl
theorem brk_runs : RowRuns .brk .brk (fun _ _ _ _ => .exc cBreak 0) := fun _ _ _ => rfl
theorem iret_runs : RowRuns .iret .iret (fun c _ _ s => bodyIret c s) := fun _ _ _ => rfl
theorem keyget_runs : RowRuns .keyget .keyget bodyKeyget := fun _ _ _ => rfl
theorem formget_runs : RowRuns .formget .formget bodyFormget := fun _ _ _ => rfl
theorem formput_runs : RowRuns .formput .formput bodyFormput := fun _ _ _ => rfl

theorem levelA_ring {c : Nat} (f : IRes) (h : c ≠ 256) : levelA c f = f := if_neg h
theorem levelA_mgmt (f : IRes) : levelA 256 f = .exc cIllegal 0 := rfl

theorem taggedOf_one {x : Core} {a : Nat} (h : x.tagG a = .pub) : taggedOf x [a] = false := by simp [taggedOf, h]
theorem taggedOf_two {x : Core} {a b : Nat} (ha : x.tagG a = .pub) (hb : x.tagG b = .pub) : taggedOf x [a, b] = false := by
  simp [taggedOf, ha, hb]
theorem taggedOf_not_two {x : Core} {a b : Nat} (h : x.tagG a ≠ .pub ∨ x.tagG b ≠ .pub) : taggedOf x [a, b] = true := by
  simpa [taggedOf] using h

/-! ### EXIT (R113) -/

/-- An EXIT that R113 lets pass ends as the act's own checks decide. -/
def exitResult (c : Nat) (x : Core) (t : Ticket) (e : Option (Byte × W32) × State) : IRes :=
  match e with
  | (none, s) => .ok (egressBlocked c t.outIova s) x.pc
  | (some (status, len), s) => .ok (endAct c status len (if status = stIntegrity then
      report (Event.naming { cls := .f2, source := 0x08, unit := unitCore c, cause := 0x08, addr := x.pc } t) (touch t.id .f2 s)
    else s)) x.pc

theorem exitResult_ended {c : Nat} {x : Core} {t : Ticket} {st : Byte} {n : W32} {s : State} (h : st ≠ 0x50) :
    exitResult c x t (some (st, n), s) = .ok (endAct c st n s) x.pc :=
  congrArg (fun u => IRes.ok (endAct c st n u) x.pc) (if_neg h)

theorem bodyExit_exits {c : Nat} {w : W32} {x : Core} {s : State} {t : Ticket} (hc : c ≠ 256) (ha : x.tagG (fA w) = .pub)
    (hb : x.tagG (fB w) = .pub) (ht : ticketOn s c = some t)
    (hok : exitOk t ((x.rg (fA w)).setWidth 8) ((x.rg (fB w)).setWidth 32) = true) :
    bodyExit c w x s = exitResult c x t (exitEnd s c t ((x.rg (fA w)).setWidth 8) ((x.rg (fB w)).setWidth 32)) := by
  unfold bodyExit
  rw [levelA_ring _ hc]
  dsimp only
  rw [taggedOf_two ha hb, if_neg Bool.false_ne_true, ht]
  dsimp only
  rw [if_neg (by simp [hok])]
  unfold exitResult
  rfl

theorem bodyExit_bad {c : Nat} {w : W32} {x : Core} {s : State} {t : Ticket} (hc : c ≠ 256) (ha : x.tagG (fA w) = .pub)
    (hb : x.tagG (fB w) = .pub) (ht : ticketOn s c = some t)
    (hok : exitOk t ((x.rg (fA w)).setWidth 8) ((x.rg (fB w)).setWidth 32) = false) : bodyExit c w x s = .exc cBadExit 0 := by
  unfold bodyExit
  rw [levelA_ring _ hc]
  dsimp only
  rw [taggedOf_two ha hb, if_neg Bool.false_ne_true, ht]
  exact if_pos hok

theorem bodyExit_tagged {c : Nat} {w : W32} {x : Core} {s : State} (hc : c ≠ 256)
    (h : x.tagG (fA w) ≠ .pub ∨ x.tagG (fB w) ≠ .pub) : bodyExit c w x s = .exc cTagged 0 := by
  unfold bodyExit
  rw [levelA_ring _ hc]
  exact if_pos (taggedOf_not_two h)

/-- An act that no chapter decides ends as its operands say. -/
theorem exitEnd_plain {s : State} {c : Nat} {t : Ticket} {st : Byte} {n : W32} (h : decidesEnd t.act = false) :
    exitEnd s c t st n = (some (st, n), s) := if_pos (.inl h)

/-! ### FORMGET -/

/-- The copy that FORMGET finds. -/
def formFound (s : State) (c : Nat) (t : Ticket) (h : W32) : Option Copy :=
  (formOf s t h).bind (fun k => s.ush.copies.find? (fun q => q.ring == ringOf c && q.handle == h && q.kind == k && q.st == .valid))

theorem formFound_none {s : State} {c : Nat} {h : W32} (t : Ticket)
    (hn : ∀ q ∈ s.ush.copies, q.ring = ringOf c → q.handle = h → q.st ≠ .valid) : formFound s c t h = none := by
  unfold formFound
  cases formOf s t h with
  | none => rfl
  | some k =>
    refine List.find?_eq_none.2 fun q hq => ?_
    simp only [Bool.and_eq_true, beq_iff_eq, not_and]
    exact fun hr => hn q hq hr.1.1 hr.1.2

theorem formFound_only {s : State} {c k : Nat} {t : Ticket} {q : Copy} (hk : formOf s t q.handle = some k) (hq : s.ush.copies = [q])
    (hr : q.ring = ringOf c) (hkind : q.kind = k) (hst : q.st = .valid) : formFound s c t q.handle = some q := by
  unfold formFound
  simp [hk, hq, hr, hkind, hst]

theorem bodyFormget_none {c : Nat} {w : W32} {x : Core} {s : State} {t : Ticket} (hc : c ≠ 256) (ha : x.tagG (fA w) = .pub)
    (ht : ticketOn s c = some t) (hf : formFound s c t ((x.rg (fA w)).setWidth 32) = none) :
    bodyFormget c w x s = retG c x s (fD w) 0 .pub := by
  unfold bodyFormget
  rw [levelA_ring _ hc]
  dsimp only
  rw [taggedOf_one ha, if_neg Bool.false_ne_true, ht]
  dsimp only
  rw [← formFound, hf]

/-- The grant that FORMGET gives of a copy. -/
def formGrant (s : State) (q : Copy) : Grant :=
  { base := 0x1000000 + q.addr, size := roundUp q.size 64, key := false, handle := q.handle, usage := 0,
    attr := (keyEntry s q.handle).attr, len := q.size, secret := q.secret, cached := some q.kind }

theorem bodyFormget_granted {c : Nat} {w : W32} {x : Core} {s : State} {t : Ticket} {q : Copy} (hc : c ≠ 256) (ha : x.tagG (fA w) = .pub)
    (ht : ticketOn s c = some t) (hh : q.handle = (x.rg (fA w)).setWidth 32) (hf : formFound s c t q.handle = some q)
    (hiid : handleIid q.handle = t.iid) (hg : ∃ g ∈ x.grants, g.key = true ∧ g.handle = q.handle) (hl : x.grants.length < 8)
    (hm : (ringOf c, q.handle, q.addr) ∈ t.uses) :
    bodyFormget c w x s = retG c { x with grants := x.grants ++ [formGrant s q] } s (fD w) (BitVec.ofNat 64 (0x1000000 + q.addr)) .pub := by
  have hholds : x.grants.any (fun g => g.key && g.handle == q.handle) = true := by simpa using hg
  unfold bodyFormget
  rw [levelA_ring _ hc]
  dsimp only
  rw [taggedOf_one ha, if_neg Bool.false_ne_true, ht, ← hh]
  dsimp only
  rw [← formFound, hf]
  dsimp only
  rw [if_neg (by simp [hiid, hholds]), if_neg (by omega), if_pos (by simpa using hm)]
  rfl

/-! ### The statement -/

theorem seenBeside_fenced (c : Nat) (s : State) : seenBeside (fenced c s) c = fenced c s := by
  unfold seenBeside
  rw [fenced, corex_setCorex]
  rfl

theorem bodyWait_passes {c : Nat} {x : Core} {s : State} (h : x.evPend &&& x.evMask ≠ 0) : bodyWait c x s = .ok s (x.pc + 4) := if_pos h

theorem bodyWait_waits {c : Nat} {x : Core} {s : State} (h : x.evPend &&& x.evMask = 0) :
    bodyWait c x s = .ok (setCore c { x with run := .waiting, stallFrom := some (coreNow s c) } s) (x.pc + 4) :=
  if_neg (not_not_intro h)

theorem decidesEnd_plain {a : Half} (h1 : a.toNat ≠ 1) (h2 : a.toNat ≠ 2) (h3 : a.toNat ≠ 0x601) (hv : vendorAct a.toNat = none) :
    decidesEnd a = false := by
  have hne : ∀ b : Half, a.toNat ≠ b.toNat → (a == b) = false := fun b hb => by simpa using fun he : a = b => hb (congrArg _ he)
  unfold decidesEnd
  rw [hne 0x0001 h1, hne 0x0002 h2, hne 0x0601 h3, hv]
  rfl

theorem bodyKeyget_asks {c : Nat} {w : W32} {x : Core} {s : State} (hc : c ≠ 256) (ha : x.tagG (fA w) = .pub)
    (hb : x.tagG (fB w) = .pub) : bodyKeyget c w x s = .ok (setCore c { x with
      run := .keyget (fD w) ((x.rg (fA w)).setWidth 32) ((x.rg (fB w)).setWidth 8), stallFrom := some (coreNow s c) } s) x.pc := by
  unfold bodyKeyget
  rw [levelA_ring _ hc, taggedOf_two ha hb]
  rfl

theorem bodyKeyget_tagged {c : Nat} {w : W32} {x : Core} {s : State} (hc : c ≠ 256) (ha : x.tagG (fA w) ≠ .pub) :
    bodyKeyget c w x s = .exc cTagged 0 := by
  unfold bodyKeyget
  rw [levelA_ring _ hc]
  exact if_pos (taggedOf_not_two (.inl ha))

/-- FORMPUT by whether its range lies in the working set. -/
theorem bodyFormput_cases {c : Nat} {w : W32} {x : Core} {s : State} (hc : c ≠ 256) (ha : x.tagG (fA w) = .pub)
    (hb : x.tagG (fB w) = .pub) : bodyFormput c w x s =
      if inside (x.rg (fA w)).toNat (x.rg (fB w)).toNat x.wsBase x.wsSize then
        .ok (setCore c { x with offer := some ((x.rg (fA w)).toNat, (x.rg (fB w)).toNat) } s) (x.pc + 4)
      else .exc cAccess (x.rg (fA w)) := by
  unfold bodyFormput
  rw [levelA_ring _ hc]
  dsimp only
  rw [taggedOf_two ha hb]
  rfl

/-- Settles O24, by what each instruction's body answers under its premises. -/
theorem systemInstructionsTakeEffect : Obligations.SystemInstructionsTakeEffect := by
  unfold Obligations.SystemInstructionsTakeEffect
  refine ⟨⟨?_, ?_, ?_, ?_, brk_runs.raises fun _ _ _ _ => rfl, ?_, iret_runs.raises fun _ _ _ h => if_neg h, ?_, ?_, ?_, ?_⟩,
    ?_, ?_, ?_, ?_, ?_, ?_⟩
  · intro s c w t hi hc ha hb ht hp h1 h2 h3 hv
    dsimp only
    intro hok hst
    refine exit_runs.completes hi ((bodyExit_exits (Nat.ne_of_lt hc) ha hb ht hok).trans ?_)
    rw [exitEnd_plain (decidesEnd_plain h1 h2 h3 hv), exitResult_ended hst, endAct_exits _ _ ht hp]
  · intro s c w hi
    exact ⟨fun h => wait_runs.completes hi (bodyWait_passes h), fun h => wait_runs.completes hi (bodyWait_waits h)⟩
  · intro s c w hi
    exact ⟨fence_runs.completes hi rfl, seenBeside_fenced c s⟩
  · intro s c w hi
    exact tret_runs.completes hi rfl
  · intro s w hi
    exact iret_runs.completes hi rfl
  · refine exit_runs.raises ?_
    rintro c w s rfl
    exact levelA_mgmt _
  · exact exit_runs.raises fun c w s h => bodyExit_tagged h.1 h.2
  · intro s c w t hi hc ha hb ht
    dsimp only
    intro hok
    have hbody := bodyExit_exits (Nat.ne_of_lt hc) ha hb ht hok
    generalize exitEnd s c t (((core s c).rg (fA w)).setWidth 8) (((core s c).rg (fB w)).setWidth 32) = e at hbody
    obtain ⟨r, u⟩ := e
    refine ⟨?_, ?_, ?_⟩
    · rintro z m (rfl : r = _) hz
      exact exit_runs.completes hi (hbody.trans (exitResult_ended hz))
    · rintro m (rfl : r = _)
      exact exit_runs.completes hi (hbody.trans rfl)
    · rintro (rfl : r = _)
      exact exit_runs.completes hi (hbody.trans rfl)
  · refine exit_runs.raises ?_
    rintro c w s ⟨hc, ha, hb, t, ht, hok⟩
    exact bodyExit_bad hc ha hb ht hok
  · intro s c w hi hc ha hb
    exact keyget_runs.completes hi (bodyKeyget_asks hc ha hb)
  · intro s c w t hi hc ha ht hn
    exact formget_runs.completes hi (bodyFormget_none hc ha ht (formFound_none t hn))
  · intro s c k w t q hi hc ha ht hk hq hr hh hkind hst hiid hg hl hm
    rw [← hh] at hk
    exact formget_runs.completes hi (bodyFormget_granted hc ha ht hh (formFound_only hk hq hr hkind hst) hiid hg hl hm)
  · intro s c w hi hc ha hb hlo hhi
    refine formput_runs.completes hi ((bodyFormput_cases hc ha hb).trans (if_pos ?_))
    simpa [inside] using ⟨hlo, hhi⟩
  · refine formput_runs.raises ?_
    rintro c w s ⟨hc, ha, hb, h⟩
    refine (bodyFormput_cases hc ha hb).trans (if_neg ?_)
    simp only [inside, Bool.and_eq_true, decide_eq_true_eq, not_and]
    omega
  · exact keyget_runs.raises fun c w s h => bodyKeyget_tagged h.1 h.2

end Sys2Proof.Machine
end

section
/-!
SUPPORT. Scalar loads (R99–R101, R107–R109, R119) and the moves of a range of registers, LDM and STM (R129).
-/
namespace Sys2Proof.Machine

open Sys2Proof

/-! ### Loads -/

theorem place_local {c : Nat} (hc : c ≠ 256) (s : State) {a n : Nat} (h : a + n ≤ 0x40000) : place s c a n = .mem (.loc c a) := by
  rw [place_ring hc, actPlace, if_neg (by omega), if_pos (by simpa [inside] using h)]

/-- A place that a load may read. -/
def Reads (s : State) (c a n : Nat) (p : Place) : Prop := place s c a n = .mem p ∨ place s c a n = .readOnly p

theorem shareLine_reads {s : State} {c a n : Nat} {p : Place} (h : Reads s c a n p) : shareLine s c a n = anyShare s p n := by
  rw [shareLine, memPlace]
  rcases h with h | h <;> simp [h]

theorem loadWaits_reads {s : State} {c : Nat} {a : W64} {n : Nat} {p : Place} (h : Reads s c a.toNat n p) : loadWaits c a n s = false := by
  rw [loadWaits]
  rcases h with h | h <;> simp [h]

theorem wordOnly_reads {s : State} {c : Nat} {a : W64} {p : Place} (h : Reads s c a.toNat 8 p) : wordOnly s c a = false := by
  rw [wordOnly]
  rcases h with h | h <;> simp [h]

/-- A load at a readable place gives its bytes and their tag. -/
theorem loadAt_reads {s : State} {c : Nat} {a : W64} {n : Nat} {p : Place} {x : Core} (h : Reads s c a.toNat n p)
    (hs : anyShare s p n = false) (ha : a.toNat % n = 0 ∨ x.compat = true) :
    loadAt c a n x s = .ok (BitVec.ofNat 64 (natOf (readBytes s p n))) (tagOver s p n) s := by
  unfold loadAt
  dsimp only
  rw [shareLine_reads h, hs, if_neg Bool.false_ne_true, if_neg (by rintro ⟨h0, h1⟩; rcases ha with h | h <;> simp_all)]
  rcases h with h | h <;> simp only [h]

theorem natOf_readBytes_lt {s : State} {p : Place} {n : Nat} (h : n ≤ 8) : natOf (readBytes s p n) < 2 ^ 64 := by
  refine Nat.lt_of_lt_of_le (natOf_lt _) (Nat.pow_le_pow_right (by decide) ?_)
  simp only [readBytes, List.length_map, List.length_range]
  omega

theorem bodyLoad_public {c : Nat} {w : W32} {x : Core} {s : State} (ht : x.tagG (fA w) = .pub)
    (hw : loadWaits c (x.rg (fA w) + sImm w) (loadForm (opcode w)).1 s = false) {v : W64} {t : Tag}
    (hl : loadAt c (x.rg (fA w) + sImm w) (loadForm (opcode w)).1 x s = .ok v t s) :
    bodyLoad c w x s = retG c (core s c) s (fD w) (if (loadForm (opcode w)).2 then sext64 v.toNat (8 * (loadForm (opcode w)).1) else v) t := by
  unfold bodyLoad
  dsimp only
  rw [if_neg (not_not_intro ht), hw, if_neg Bool.false_ne_true, hl]

/-- From 2^28 on nothing lies in the map of a ring core. -/
theorem memPlace_nowhere {s : State} {c a n : Nat} (w : Bool) (hc : c ≠ 256) (ha : 2 ^ 28 ≤ a) (hn : n ≠ 0) :
    place s c a n = .nowhere ∧ memPlace s c a n w = .error (BitVec.ofNat 64 a) := by
  have hplace : ∀ b m, 2 ^ 28 ≤ b → actPlace s c b m = .nowhere := fun b m hb => if_pos hb
  have hbyte : byteOk s c w a = false := by rw [byteOk, hplace _ _ ha]
  have hfind : (List.range n).find? (fun k => !byteOk s c w (a + k)) = some 0 := by
    obtain ⟨m, rfl⟩ := Nat.exists_eq_succ_of_ne_zero hn
    rw [List.range_succ_eq_map, List.find?_cons_of_pos (by simp [hbyte])]
  refine ⟨(place_ring hc s a n).trans (hplace a n ha), ?_⟩
  rw [memPlace, place_ring hc, hplace a n ha]
  dsimp only
  rw [if_neg (by exact hc), rangePlace, hplace a n ha]
  dsimp only
  rw [hfind]
  rfl

theorem loadAt_beyond {s : State} {c : Nat} {a : W64} (x : Core) (hc : c ≠ 256) (ha : 2 ^ 28 ≤ a.toNat) :
    loadAt c a 8 x s = .exc (if a.toNat % 8 ≠ 0 ∧ x.compat = false then cMisaligned else cAccess) a := by
  obtain ⟨hp, hm⟩ := memPlace_nowhere (s := s) false hc ha (by decide : (8 : Nat) ≠ 0)
  unfold loadAt shareLine
  dsimp only
  rw [hm, if_neg Bool.false_ne_true, hp]
  dsimp only
  rw [BitVec.ofNat_toNat, BitVec.setWidth_eq]
  split <;> rfl

theorem bodyLoad_beyond {c : Nat} {w : W32} {x : Core} {s : State} (hc : c ≠ 256) (hop : opcode w = 0x13) (ht : x.tagG (fA w) = .pub)
    (ha : 2 ^ 28 ≤ (x.rg (fA w) + sImm w).toNat) : bodyLoad c w x s =
      .exc (if (x.rg (fA w) + sImm w).toNat % 8 ≠ 0 ∧ x.compat = false then cMisaligned else cAccess) (x.rg (fA w) + sImm w) := by
  have hform : loadForm (opcode w) = (8, false) := by rw [hop]; rfl
  have hwait : loadWaits c (x.rg (fA w) + sImm w) 8 s = false := by
    rw [loadWaits, (memPlace_nowhere (s := s) false hc ha (by decide : (8 : Nat) ≠ 0)).1]
  unfold bodyLoad
  dsimp only
  rw [if_neg (not_not_intro ht), hform, hwait, if_neg Bool.false_ne_true, loadAt_beyond x hc ha]

/-! ### LDM (R129) -/

theorem ldm_runs : RowRuns .ldm .ldm bodyLdm := fun _ _ _ => rfl
theorem stm_runs : RowRuns .stm .stm bodyStm := fun _ _ _ => rfl

theorem multiRange_compat {w : W32} {x : Core} (hc : x.compat = true) (h1 : 1 ≤ fA w) (h2 : fA w ≤ fB w) :
    multiRange w x = some (List.range' (fA w) (fB w - fA w + 1)) := by
  unfold multiRange
  dsimp only
  rw [if_neg (by simp [hc]; omega), List.range'_eq_map_range]

theorem multiRange_illegal {w : W32} {x : Core} (h : x.compat = false ∨ fA w = 0 ∨ fB w < fA w) : multiRange w x = none := if_pos h

/-- The words of a range of local memory. -/
def word (c : Nat) (a k : Nat) : Place := .loc c (a + 8 * k)

theorem toNat_next {a : W64} {n : Nat} (h : a.toNat + 8 * (n + 1) ≤ 0x40000) : (a + 8).toNat = a.toNat + 8 := by
  rw [BitVec.toNat_add, show (8 : W64).toNat = 8 from rfl, Nat.mod_eq_of_lt (by omega)]

/-- A state whose core c has other g registers and tags, and all else the same. -/
def GChanged (c : Nat) (s t : State) : Prop :=
  ∃ cs g gt, t = { s with cores := cs } ∧ core t c = { core s c with g := g, gtag := gt } ∧ ∀ d, d ≠ c → core t d = core s d

theorem GChanged.refl (c : Nat) (s : State) : GChanged c s s := ⟨s.cores, _, _, rfl, rfl, fun _ _ => rfl⟩

theorem GChanged.wg {c : Nat} {s t : State} (r : Nat) (v : W64) (g : Tag) (h : GChanged c (setCore c ((core s c).wg r v g) s) t) :
    GChanged c s t := by
  obtain ⟨cs, g1, gt1, ht, hcore, hother⟩ := h
  obtain ⟨g2, gt2, hw⟩ := wg_frame (core s c) r v g
  rw [core_setCore, hw] at hcore
  exact ⟨cs, g1, gt1, ht, hcore, fun d hd => (hother d hd).trans (core_setCore_other _ _ _ _ hd)⟩

/-- Registers f to f + n − 1 take the words from A on, and no other register changes. -/
theorem loadMulti_local {c : Nat} (hc : c ≠ 256) {x : Core} (hx : x.compat = true) (n f : Nat) (A : W64) (s : State) (hf : 1 ≤ f)
    (hA : A.toNat + 8 * n ≤ 0x40000) (hs : ∀ k, k < n → anyShare s (word c A.toNat k) 8 = false) :
    ∃ t, loadMulti c A x (List.range' f n) s = .ok t (x.pc + 4) ∧ GChanged c s t ∧
      (∀ k, k < n → (core t c).rg (f + k) = BitVec.ofNat 64 (natOf (readBytes s (word c A.toNat k) 8))) ∧
      (∀ r, (r < f ∨ f + n ≤ r) → (core t c).rg r = (core s c).rg r ∧ (core t c).tagG r = (core s c).tagG r) := by
  induction n generalizing f A s with
  | zero => exact ⟨s, rfl, GChanged.refl c s, fun k hk => absurd hk (by omega), fun _ _ => ⟨rfl, rfl⟩⟩
  | succ n ih =>
    have hread : Reads s c A.toNat 8 (word c A.toNat 0) := .inl (place_local hc s (by omega))
    have hnext := toNat_next hA
    have hword : ∀ k, word c (A + 8).toNat k = word c A.toNat (k + 1) := fun k => by
      rw [word, word, hnext]
      exact congrArg _ (by omega)
    let v : W64 := BitVec.ofNat 64 (natOf (readBytes s (word c A.toNat 0) 8))
    let g := tagOver s (word c A.toNat 0) 8
    have hstep : loadMulti c A x (List.range' f (n + 1)) s =
        loadMulti c (A + 8) x (List.range' (f + 1) n) (setCore c ((core s c).wg f v g) s) := by
      rw [List.range'_succ, loadMulti, wordOnly_reads hread, if_neg Bool.false_ne_true,
        loadAt_reads hread (hs 0 (by omega)) (.inr hx)]
    obtain ⟨t, ht, hch, hin, hout⟩ := ih (f + 1) (A + 8) (setCore c ((core s c).wg f v g) s) (by omega) (by omega)
      (fun k hk => by rw [hword]; exact hs (k + 1) (by omega))
    rw [core_setCore] at hout
    refine ⟨t, hstep.trans ht, hch.wg, fun k hk => ?_, fun r hr => ?_⟩
    · cases k with
      | zero =>
        rw [Nat.add_zero, (hout f (.inl (by omega))).1]
        exact rg_wg_same _ _ _ (by omega)
      | succ k =>
        rw [show f + (k + 1) = f + 1 + k by omega, hin k (by omega), hword]
        rfl
    · obtain ⟨hg, htag⟩ := hout r (by omega)
      exact ⟨hg.trans (rg_wg_other _ _ _ (by omega)), htag.trans (tagG_wg_other _ _ _ (by omega))⟩

/-! ### STM (R129) -/

theorem lineTag_setLineTag_cases (p q : Place) (t : Tag) (s : State) :
    lineTag (setLineTag p t s) q = lineTag s q ∨ lineTag (setLineTag p t s) q = t ∧ lineTag s q = lineTag s p := by
  cases p <;> cases q
  case loc.ring | loc.work | ring.loc | ring.work | work.loc | work.ring => exact .inl rfl
  all_goals
    simp only [lineTag, setLineTag, Table.get_set]
    split
    next h => exact .inr ⟨rfl, by rw [h]⟩
    next => exact .inl rfl

theorem lineTag_writeByte (p q : Place) (b : Byte) (s : State) : lineTag (writeByte p b s) q = lineTag s q := by
  cases p <;> cases q <;> rfl

theorem lineTag_writeBytes (p q : Place) (l : List Byte) (s : State) : lineTag (writeBytes p l s) q = lineTag s q := by
  induction l generalizing p s with
  | nil => rfl
  | cons b l ih => exact (ih _ _).trans (lineTag_writeByte p q b s)

theorem lineJoin_noShare {x y : Tag} (hx : x.isShare = false) (hy : y.isShare = false) : (x.lineJoin y).isShare = false := by
  revert hx hy
  cases x <;> cases y <;> decide

theorem join_noShare {x y : Tag} (hx : x.isShare = false) (hy : y.isShare = false) : (x.join y).isSome = true := by
  revert hx hy
  cases x <;> cases y <;> decide

theorem join_public (x : Tag) : (x.join .pub).isSome = true := by cases x <;> rfl

/-- Data that is no share leaves a line that is no share. -/
theorem noShare_writeTagged {t : Tag} (ht : t.isShare = false) (p q : Place) (l : List Byte) {s : State}
    (h : (lineTag s q).isShare = false) : (lineTag (writeTagged p l t s) q).isShare = false := by
  rw [writeTagged_eq, lineTag_writeBytes]
  refine foldl_inv (p := fun u : State => (lineTag u q).isShare = false) (fun u j hu => ?_) _ h
  dsimp only
  split
  · rcases lineTag_setLineTag_cases (p.add (64 * j - p.key)) q t u with he | ⟨he, -⟩
    · rw [he]; exact hu
    · rw [he]; exact ht
  · rcases lineTag_setLineTag_cases (p.add (64 * j - p.key)) q ((lineTag u (p.add (64 * j - p.key))).lineJoin t) u with he | ⟨he, hsame⟩
    · rw [he]; exact hu
    · rw [he]; exact lineJoin_noShare (hsame ▸ hu) ht

theorem coreStore_local {c : Nat} (hc : c ≠ 256) (a : Nat) (l : List Byte) (t : Tag) (s : State) : coreStore c (.loc c a) l t s =
    writeTagged (.loc c a) l t (setCorex c (keepingOld s c (.loc c a) l.length) s) := coreStore_ring hc _ _ _ _

theorem noShare_coreStore {c : Nat} (hc : c ≠ 256) {t : Tag} (ht : t.isShare = false) (a b n : Nat) (l : List Byte) {s : State}
    (h : anyShare s (.loc c b) n = false) : anyShare (coreStore c (.loc c a) l t s) (.loc c b) n = false := by
  rw [coreStore_local hc]
  unfold anyShare lineTags at h ⊢
  rw [List.any_map, List.any_eq_false] at h ⊢
  intro j hj
  have hold := h j hj
  rw [Bool.not_eq_true] at hold ⊢
  exact noShare_writeTagged ht _ _ l hold

theorem ringMem_writeTagged_local (c a : Nat) (l : List Byte) (t : Tag) (s : State) :
    (writeTagged (.loc c a) l t s).mem.ringMem = s.mem.ringMem := by
  have hbytes : ∀ (l : List Byte) (b : Nat) (u : State), (writeBytes (.loc c b) l u).mem.ringMem = u.mem.ringMem := by
    intro l
    induction l with
    | nil => exact fun _ _ => rfl
    | cons x l ih => exact fun b u => ih (b + 1) _
  rw [writeTagged_eq, hbytes]
  exact tagLines_keeps (g := fun u : State => u.mem.ringMem) (P := fun p => ∃ b, p = .loc c b) (by rintro k g u ⟨b, hb⟩; rw [hb]; rfl)
    (fun k => ⟨_, rfl⟩) _ _ _

theorem ringMem_coreStore_local {c : Nat} (hc : c ≠ 256) (a : Nat) (l : List Byte) (t : Tag) (s : State) :
    (coreStore c (.loc c a) l t s).mem.ringMem = s.mem.ringMem ∧ (coreStore c (.loc c a) l t s).cores = s.cores := by
  obtain ⟨m, b, h⟩ := coreStore_frame hc (.loc c a) l t s
  refine ⟨?_, by rw [h]; rfl⟩
  rw [coreStore_local hc, ringMem_writeTagged_local]
  rfl

/-- What the words of an STM may meet: no share among the values, and no share's line or only public values. -/
def Storable (c : Nat) (x : Core) (n f A : Nat) (s : State) : Prop :=
  (∀ k, k < n → (x.tagG (f + k)).isShare = false) ∧
    ((∀ k, k < n → anyShare s (word c A k) 8 = false) ∨ ∀ k, k < n → x.tagG (f + k) = .pub)

theorem outside_word {c a b : Nat} (h : a < b ∨ b + 8 ≤ a) : (Place.loc c a).outside (.loc c b) 8 := by
  intro k hk
  simp only [Place.add, Place.apart, Place.key, bne_iff_ne, ne_eq]
  omega

/-- The words from A on take registers f to f + n − 1, and no other byte changes. -/
theorem storeMulti_local {c : Nat} (hc : c ≠ 256) {x : Core} (hx : x.compat = true) (n f : Nat) (A : W64) (s : State)
    (hA : A.toNat + 8 * n ≤ 0x40000) (hs : Storable c x n f A.toNat s) :
    ∃ t, storeMulti c A x (List.range' f n) s = .ok t (x.pc + 4) ∧
      (∀ k, k < n → readBytes t (word c A.toNat k) 8 = bytesOf (x.rg (f + k)).toNat 8) ∧
      (∀ a, (a < A.toNat ∨ A.toNat + 8 * n ≤ a) → readByte t (.loc c a) = readByte s (.loc c a)) ∧
      t.mem.ringMem = s.mem.ringMem ∧ t.cores = s.cores := by
  induction n generalizing f A s with
  | zero => exact ⟨s, rfl, fun k hk => absurd hk (by omega), fun _ _ => rfl, rfl, rfl⟩
  | succ n ih =>
    obtain ⟨hval, hline⟩ := hs
    have hplace : place s c A.toNat 8 = .mem (word c A.toNat 0) := place_local hc s (by omega)
    have hnext := toNat_next hA
    have hword : ∀ k, word c (A + 8).toNat k = word c A.toNat (k + 1) := fun k => by
      rw [word, word, hnext]
      exact congrArg _ (by omega)
    have hfirst : (x.tagG f).isShare = false := hval 0 (by omega)
    have hjoin : ∀ l ∈ lineTags s (word c A.toNat 0) 8, (l.join (x.tagG f)).isSome = true := by
      intro l hl
      rcases hline with h | h
      · refine join_noShare ?_ hfirst
        have hnone := h 0 (by omega)
        rw [anyShare, List.any_eq_false] at hnone
        simpa using hnone l hl
      · rw [show x.tagG f = .pub from h 0 (by omega)]
        exact join_public l
    let u := coreStore c (word c A.toNat 0) (bytesOf (x.rg f).toNat 8) (x.tagG f) s
    have hstep : storeMulti c A x (List.range' f (n + 1)) s = storeMulti c (A + 8) x (List.range' (f + 1) n) u := by
      rw [List.range'_succ, storeMulti, wordOnly_reads (.inl hplace), if_neg Bool.false_ne_true,
        storeAt_mem (x.rg f) hplace hfirst hjoin (.inr hx)]
    have hmove : ∀ k, f + 1 + k = f + (k + 1) := fun k => by omega
    obtain ⟨t, ht, hin, hout, hring, hcores⟩ := ih (f + 1) (A + 8) u (by omega)
      ⟨fun k hk => by rw [hmove]; exact hval (k + 1) (by omega), hline.imp
        (fun h k hk => noShare_coreStore hc hfirst _ _ _ _ (by rw [← word, hword]; exact h (k + 1) (by omega)))
        (fun h k hk => by rw [hmove]; exact h (k + 1) (by omega))⟩
    rw [hnext] at hout
    obtain ⟨huring, hucores⟩ := ringMem_coreStore_local hc A.toNat (bytesOf (x.rg f).toNat 8) (x.tagG f) s
    refine ⟨t, hstep.trans ht, fun k hk => ?_, fun a ha => ?_, hring.trans huring, hcores.trans hucores⟩
    · cases k with
      | zero =>
        have hkept : readBytes t (word c A.toNat 0) 8 = readBytes u (word c A.toNat 0) 8 :=
          List.map_congr_left fun k hk => hout _ (.inl (by rw [List.mem_range] at hk; omega))
        exact hkept.trans (readBytes_coreStore hc (word c A.toNat 0) (bytesOf (x.rg f).toNat 8) (x.tagG f) s rfl)
      | succ k =>
        rw [← hword, ← hmove]
        exact hin k (by omega)
    · rw [hout a (by omega)]
      refine readByte_coreStore_outside hc _ _ _ _ ?_
      rw [bytesOf_length]
      exact outside_word (by omega)

/-! ### The statement -/

theorem bodyLdm_local {c : Nat} {w : W32} {x : Core} {s : State} (hc : c ≠ 256) (hx : x.compat = true) (h1 : 1 ≤ fA w) (h2 : fA w ≤ fB w)
    (ht : x.tagG (fD w) = .pub) (hA : (x.rg (fD w)).toNat + 8 * (fB w - fA w + 1) ≤ 0x40000) :
    bodyLdm c w x s = loadMulti c (x.rg (fD w)) x (List.range' (fA w) (fB w - fA w + 1)) s := by
  unfold bodyLdm
  rw [multiRange_compat hx h1 h2]
  dsimp only
  rw [if_neg (not_not_intro ht), List.length_range', if_neg]
  rw [Bool.not_eq_true, List.any_eq_false]
  intro k hk
  rw [List.mem_range] at hk
  have haddr : (x.rg (fD w) + BitVec.ofNat 64 (8 * k)).toNat = (x.rg (fD w)).toNat + 8 * k := by
    rw [BitVec.toNat_add, BitVec.toNat_ofNat, Nat.mod_eq_of_lt (by omega : 8 * k < 2 ^ 64), Nat.mod_eq_of_lt (by omega)]
  rw [Bool.not_eq_true]
  exact loadWaits_reads (.inl (place_local hc s (by omega)))

theorem bodyStm_local {c : Nat} {w : W32} {x : Core} {s : State} (hx : x.compat = true) (h1 : 1 ≤ fA w) (h2 : fA w ≤ fB w)
    (ht : x.tagG (fD w) = .pub) (hv : ∀ k, k ≤ fB w - fA w → (x.tagG (fA w + k)).isShare = false) :
    bodyStm c w x s = storeMulti c (x.rg (fD w)) x (List.range' (fA w) (fB w - fA w + 1)) s := by
  have hnone : shareRead x (List.range' (fA w) (fB w - fA w + 1)) = false := by
    refine shareRead_noShare fun r hr => ?_
    obtain ⟨k, hk, rfl⟩ := List.mem_range'.1 hr
    simpa using hv k (by omega)
  unfold bodyStm
  rw [multiRange_compat hx h1 h2]
  dsimp only
  rw [if_neg (by simp [ht, hnone])]

/-- Settles O21: loads by their place, LDM and STM by induction on the registers that are left. -/
theorem loadsReadActMemory : Obligations.LoadsReadActMemory := by
  unfold Obligations.LoadsReadActMemory
  refine ⟨⟨?_, fun s c a n hc h => place_local hc s h, load_tagged, ?_, ?_⟩, ?_, ?_, ?_, ?_⟩
  · intro op n sg hform s c w p hi hop ht
    dsimp only
    intro hp hs ha
    have hf : loadForm (opcode w) = (n, sg) ∧ n ≤ 8 := by
      rw [hop]
      rcases hform with ⟨rfl, rfl, rfl⟩ | ⟨rfl, rfl, rfl⟩ | ⟨rfl, rfl, rfl⟩ | ⟨rfl, rfl, rfl⟩ | ⟨rfl, rfl, rfl⟩ | ⟨rfl, rfl, rfl⟩ | ⟨rfl, rfl, rfl⟩
      all_goals exact ⟨rfl, by decide⟩
    have hl := loadAt_reads (x := core s c) hp hs ha
    have hw := loadWaits_reads hp
    obtain ⟨hf, hn⟩ := hf
    have hbody := bodyLoad_public ht (by rw [hf]; exact hw) (by rw [hf]; exact hl)
    rw [hf, BitVec.toNat_ofNat, Nat.mod_eq_of_lt (natOf_readBytes_lt hn)] at hbody
    exact load_runs.completes hi hbody
  · refine load_runs.raises ?_
    rintro c w s ⟨hc, hop, ht, hx, hm, ha⟩
    exact (bodyLoad_beyond hc hop ht ha).trans (by rw [if_pos ⟨hm, hx⟩]; rfl)
  · refine load_runs.raises ?_
    rintro c w s ⟨hc, hop, ht, hm, ha⟩
    exact (bodyLoad_beyond hc hop ht ha).trans (by rw [if_neg (fun h => h.1 hm)]; rfl)
  · intro s c w hi hc hx h1 h2 ht hA hs
    obtain ⟨u, hu, ⟨cs, g, gt, hframe, hcore, hother⟩, hin, hout⟩ := loadMulti_local hc hx (fB w - fA w + 1) (fA w) ((core s c).rg (fD w)) s h1 hA
      (fun k hk => hs k (by omega))
    obtain ⟨m, f, hafter⟩ := after_ring s u ((core s c).pc + 4) hc
    refine ⟨_, ldm_runs.completes hi ((bodyLdm_local hc hx h1 h2 ht hA).trans hu), ?_⟩
    rw [hafter, core_setCore]
    refine ⟨fun k hk => hin k (by omega), fun r hr => hout r (by omega), rfl, ?_, ?_, fun d hd => (core_setCore_other _ _ _ _ hd).trans (hother d hd)⟩
    all_goals
      rw [hframe]
      rfl
  · intro s c w hi hc hx h1 h2 ht hA hv hs
    obtain ⟨u, hu, hin, hout, hring, hcores⟩ := storeMulti_local hc hx (fB w - fA w + 1) (fA w) ((core s c).rg (fD w)) s hA
      ⟨fun k hk => hv k (by omega), hs.imp (fun h k hk => h k (by omega)) (fun h k hk => h k (by omega))⟩
    obtain ⟨m, f, hafter⟩ := after_ring s u ((core s c).pc + 4) hc
    have hcore : ∀ d, core u d = core s d := fun d => by rw [core, core, hcores]
    refine ⟨_, stm_runs.completes hi ((bodyStm_local hx h1 h2 ht hv).trans hu), ?_⟩
    rw [hafter, core_setCore, hcore]
    exact ⟨fun k hk => hin k (by omega), fun a ha _ => hout a ha, hring, fun _ => rfl, rfl,
      fun d hd => (core_setCore_other _ _ _ _ hd).trans (hcore d)⟩
  · refine ldm_runs.raises ?_
    intro c w s h
    rw [bodyLdm, multiRange_illegal h]
    rfl
  · refine stm_runs.raises ?_
    intro c w s h
    rw [bodyStm, multiRange_illegal h]
    rfl

end Sys2Proof.Machine
end

section
/-!
SUPPORT. The DMA channel of a core (R115, R116): how a transfer is queued and completed, and what a local transfer copies.
-/
namespace Sys2Proof.Machine

open Sys2Proof

/-! ### Writes whose bytes have tags of their own (R180) -/

theorem readByte_writeTagged_inside (l : List Byte) (t : Tag) (p : Place) (s : State) {k : Nat} (hk : k < l.length) :
    readByte (writeTagged p l t s) (p.add k) = l[k] := by
  have h := congrArg (fun x : List Byte => x[k]?) (readBytes_writeTagged l t p s)
  simpa [readBytes, hk] using h

/-- The part of such a write that lies in line j. -/
def writeLinePart (p : Place) (b : List Byte) (tagAt : Nat → Tag) (s : State) (j : Nat) : State :=
  writeTagged (p.add (max p.key (64 * j) - p.key))
    (slice b (max p.key (64 * j) - p.key) (min (p.key + b.length) (64 * j + 64) - max p.key (64 * j)))
    (lineAfter .pub j p.key b.length tagAt) s

theorem writeTaggedBy_eq (p : Place) (b : List Byte) (tagAt : Nat → Tag) (s : State) :
    writeTaggedBy p b tagAt s = (lineNos p.key b.length).foldl (writeLinePart p b tagAt) s := rfl

theorem slice_length {l : List Byte} {o n : Nat} (h : o + n ≤ l.length) : (slice l o n).length = n := by
  simp only [slice, List.length_take, List.length_drop]
  omega

theorem apart_add_add (p : Place) {j k : Nat} (h : j ≠ k) : (p.add j).apart (p.add k) = true := by
  cases p <;> simp [Place.apart, Place.add, Place.key, h]

theorem readByte_writeLinePart (p : Place) (b : List Byte) (tagAt : Nat → Tag) (s : State) (j : Nat) {k : Nat} (hk : k < b.length) :
    readByte (writeLinePart p b tagAt s j) (p.add k) = b[k] ∨
      (p.key + k) / 64 ≠ j ∧ readByte (writeLinePart p b tagAt s j) (p.add k) = readByte s (p.add k) := by
  generalize hd : max p.key (64 * j) - p.key = d
  generalize hm : min (p.key + b.length) (64 * j + 64) - max p.key (64 * j) = m
  by_cases hj : (p.key + k) / 64 = j
  · have hlen : (slice b d m).length = m := slice_length (by omega)
    have hin := readByte_writeTagged_inside (slice b d m) (lineAfter .pub j p.key b.length tagAt) (p.add d) s (k := k - d) (by omega)
    rw [Place.add_add, Nat.add_sub_cancel' (by omega)] at hin
    refine .inl ?_
    rw [writeLinePart, hd, hm, hin]
    simp only [slice, List.getElem_take, List.getElem_drop]
    exact getElem_congr_idx (by omega)
  · refine .inr ⟨hj, ?_⟩
    rw [writeLinePart, hd, hm]
    refine readByte_writeTagged_outside _ _ _ _ _ fun i hi => ?_
    have hi' : i < m := Nat.lt_of_lt_of_le hi (List.length_take_le _ _)
    rw [Place.add_add]
    exact apart_add_add p (by omega)

theorem mem_lineNos {key n k : Nat} (hk : k < n) : (key + k) / 64 ∈ lineNos key n := by
  rw [lineNos, if_neg (by omega), List.mem_map]
  exact ⟨(key + k) / 64 - key / 64, by rw [List.mem_range]; omega, by omega⟩

theorem readByte_writeTaggedBy_inside (p : Place) (b : List Byte) (tagAt : Nat → Tag) (s : State) {k : Nat} (hk : k < b.length) :
    readByte (writeTaggedBy p b tagAt s) (p.add k) = b[k] := by
  rw [writeTaggedBy_eq]
  refine foldl_reaches (P := fun u : State => readByte u (p.add k) = b[k]) (mem_lineNos hk) (fun u => ?_) (fun u j hu => ?_) s
  · exact (readByte_writeLinePart p b tagAt u _ hk).resolve_right (fun h => h.1 rfl)
  · exact (readByte_writeLinePart p b tagAt u j hk).elim id (fun h => h.2.trans hu)

theorem readBytes_writeTaggedBy (p : Place) (b : List Byte) (tagAt : Nat → Tag) (s : State) :
    readBytes (writeTaggedBy p b tagAt s) p b.length = b := by
  refine List.ext_getElem (by simp [readBytes]) fun k hk _ => ?_
  simp only [readBytes, List.length_map, List.length_range] at hk
  simpa [readBytes] using readByte_writeTaggedBy_inside p b tagAt s hk

theorem readByte_writeTaggedBy_outside (p q : Place) (b : List Byte) (tagAt : Nat → Tag) (s : State) (h : q.outside p b.length) :
    readByte (writeTaggedBy p b tagAt s) q = readByte s q := by
  rw [writeTaggedBy_eq]
  refine foldl_keeps (fun u => readByte u q) (fun u j => ?_) _ s
  generalize hd : max p.key (64 * j) - p.key = d
  generalize hm : min (p.key + b.length) (64 * j + 64) - max p.key (64 * j) = m
  rw [writeLinePart, hd, hm]
  refine readByte_writeTagged_outside _ _ _ _ _ fun i hi => ?_
  have hi' : i < m := Nat.lt_of_lt_of_le hi (List.length_take_le _ _)
  rw [Place.add_add]
  exact h _ (by omega)

theorem ringMem_writeTaggedBy_local (c a : Nat) (b : List Byte) (tagAt : Nat → Tag) (s : State) :
    (writeTaggedBy (.loc c a) b tagAt s).mem.ringMem = s.mem.ringMem := by
  rw [writeTaggedBy_eq]
  refine foldl_keeps (fun u => u.mem.ringMem) (fun u j => ?_) _ s
  rw [writeLinePart]
  generalize max (Place.loc c a).key (64 * j) - (Place.loc c a).key = d
  exact ringMem_writeTagged_local c (a + d) _ _ u

/-! ### The channel (R115, R116) -/

theorem dmaCommand_queues {s : State} {c : Nat} {t : Ticket} {v : W64} (ht : ticketOn s c = some t)
    (hsrc : field v.toNat 0 3 ≤ 1) (hdst : field v.toNat 4 3 ≤ 1) (hq : (corex s c).dma.queue.length < 4) (hl : (corex s c).dma.len ≠ 0)
    (hfs : spaceFails s c t (field v.toNat 0 3) (corex s c).dma.src.toNat (corex s c).dma.len.toNat false = none)
    (hfd : spaceFails s c t (field v.toNat 4 3) (corex s c).dma.dst.toNat (corex s c).dma.len.toNat true = none)
    {x : DmaXfer} (hx : x = {
      srcSpace := field v.toNat 0 3, dstSpace := field v.toNat 4 3, src := (corex s c).dma.src, dst := (corex s c).dma.dst,
      len := (corex s c).dma.len.toNat, xfers := [s.fabric.nextXfer], since := s.time.ticks, unsent := s.pcie.d3hot })
    {u : State} (hu : u = setCorex c { corex s c with dma := { (corex s c).dma with queue := (corex s c).dma.queue ++ [x] } } s)
    {p : Place} (hp : rangePlace u c x.src.toNat x.len false = .ok p) :
    dmaCommand c v s = .ok (beginXfer (ringOf c) (ringOf c) x.len (some t.id) (readBytes (seenBeside u c) p x.len) u) := by
  have hlen : (corex s c).dma.len.toNat ≠ 0 := fun h => hl (BitVec.eq_of_toNat_eq h)
  have hn : x.len = (corex s c).dma.len.toNat := by rw [hx]
  have hdata : ((dmaSource u c t x).map (fun b => b.1)).getD [] = readBytes (seenBeside u c) p x.len := by
    rw [dmaSource, if_neg (by rw [hx]; dsimp only; omega), hp]
    rfl
  unfold dmaCommand dma setDma
  rw [ht]
  dsimp only
  rw [if_neg (by omega)]
  simp only [hlen, and_false, if_false, hfs, hfd]
  rw [if_neg (by omega), if_neg (by omega), if_neg (by omega)]
  simp only [decide_eq_true_eq]
  rw [if_neg (by omega), if_neg (by omega), ← hx, ← hu, ← hdata, hn]

theorem dmaStart_issues {s u : State} {c : Nat} {v : W64} (hi : AtIssue c s) (h : dmaCommand c v s = .ok u) :
    Runs (.dmaStart c v) s (after c s u ((core s c).pc + 4)) := by
  refine congrArg Host.Outcome.next ((windowRow_atIssue _ hi).trans ?_)
  rw [h]
  rfl

/-- DMA_DONE of a transfer at the head whose flits have come. -/
def dmaEnded (c : Nat) (l : List DmaXfer) (r : State × Bool) : State :=
  if r.2 then dmaCount c (setDma c { dma r.1 c with queue := l } r.1) else r.1

theorem dmaDone_head {s : State} {c : Nat} {x : DmaXfer} {l : List DmaXfer} {t : Ticket} (hl : Live s) (ht : ticketOn s c = some t)
    (hq : (corex s c).dma.queue = x :: l) : Runs (.dmaDone c) s
      (if t.phase = .running c ∧ xfersDone s x.xfers = true then dmaEnded c l (dmaPerform c t x s) else s) := by
  refine congrArg Host.Outcome.next ((unlessLocked_live hl).trans ?_)
  rw [show (dma s c).queue = x :: l from hq, ht]
  rfl

theorem dmaDone_idle {s : State} {c : Nat} (hl : Live s) (ht : ticketOn s c = none) : Runs (.dmaDone c) s s := by
  refine congrArg Host.Outcome.next ((unlessLocked_live hl).trans ?_)
  rw [ht]
  split
  next h => cases h
  · rfl

theorem rangePlace_local (s : State) (c : Nat) {a n : Nat} (w : Bool) (h : a + n ≤ 0x40000) : rangePlace s c a n w = .ok (.loc c a) := by
  have hplace : actPlace s c a n = .mem (.loc c a) := by
    rw [actPlace, if_neg (by omega), if_pos (by simpa [inside] using h)]
  rw [rangePlace, hplace]

/-- A transfer within local memory writes what the core's last FENCE left at its source. -/
theorem dmaPerform_local {s : State} {c a b n : Nat} (t : Ticket) {x : DmaXfer} (h0 : x.srcSpace = 0) (h1 : x.dstSpace = 0)
    (ha : x.src.toNat = a) (hb : x.dst.toNat = b) (hn : x.len = n) (hA : a + n ≤ 0x40000) (hB : b + n ≤ 0x40000) :
    dmaPerform c t x s = (writeTaggedBy (.loc c b) (readBytes (seenBeside s c) (.loc c a) n)
      (fun k => lineTag (seenBeside s c) ((Place.loc c a).add k)) (dropOld c (.loc c b) n s), true) := by
  have hsrc : dmaSource s c t x = some (readBytes (seenBeside s c) (.loc c a) n,
      fun k => lineTag (seenBeside s c) ((Place.loc c a).add k)) := by
    rw [dmaSource, if_neg (by omega), ha, hn, rangePlace_local s c false hA]
  unfold dmaPerform
  rw [hsrc]
  dsimp only
  rw [if_neg (by omega), if_neg (by omega), hb, hn, rangePlace_local s c true hB]
  simp only [readBytes, List.length_map, List.length_range]
  rfl

theorem dmaCount_done (s : State) (c : Nat) (h : (core s c).run ≠ .waiting) :
    (dma (dmaCount c s) c).done = (dma s c).done + 1 ∧ (core (dmaCount c s) c).evPend = (core s c).evPend ||| 1 := by
  have hset := core_setEvent c 0 (setDma c { dma s c with done := (dma s c).done + 1 } s)
  unfold dmaCount raiseEvent
  rcases wake_cases c (setEvent c 0 (setDma c { dma s c with done := (dma s c).done + 1 } s)) with ⟨hw, -⟩ | ⟨-, he⟩
  · rw [hset] at hw
    exact absurd hw h
  · rw [he, hset]
    refine ⟨?_, rfl⟩
    rw [dma, setEvent, corex_noteSet, corex_setCore, setDma, corex_setCorex]

/-- Settles O26: the command by its checks, the end by the transfer at the head, and a local copy by its bytes. -/
theorem dmaTransfersQueueAndComplete : Obligations.DmaTransfersQueueAndComplete := by
  unfold Obligations.DmaTransfersQueueAndComplete
  refine ⟨?_, ?_, ?_, ?_, ?_, dmaCount_done⟩
  · intro s c t v hi ht hsrc hdst hq hl hfs hfd
    dsimp only
    intro p hp
    exact dmaStart_issues hi (dmaCommand_queues ht hsrc hdst hq hl hfs hfd rfl rfl hp)
  · intro s c t x l hl ht hp hq hx hd
    have h := dmaDone_head hl ht hq
    rw [if_pos ⟨hp, hx⟩, dmaEnded, if_pos hd] at h
    exact h
  · intro s c x l hl hq hx
    cases ht : ticketOn s c with
    | none => exact dmaDone_idle hl ht
    | some t =>
      have h := dmaDone_head hl ht hq
      rwa [if_neg (by simp [hx])] at h
  · intro s c hb ht
    rw [seenBeside, hb, ht]
    rfl
  · intro s c a b n t x h0 h1 ha hb hn hA hB _
    rw [dmaPerform_local t h0 h1 ha hb hn hA hB]
    have hlen : (readBytes (seenBeside s c) (.loc c a) n).length = n := by simp [readBytes]
    refine ⟨rfl, ?_, fun k _ hk => ?_, ringMem_writeTaggedBy_local _ _ _ _ _⟩
    · have h := readBytes_writeTaggedBy (.loc c b) (readBytes (seenBeside s c) (.loc c a) n)
        (fun k => lineTag (seenBeside s c) ((Place.loc c a).add k)) (dropOld c (.loc c b) n s)
      rwa [hlen] at h
    · refine readByte_writeTaggedBy_outside _ _ _ _ _ ?_
      rw [hlen]
      intro i hi
      simp only [Place.add, Place.apart, Place.key, bne_iff_ne, ne_eq]
      omega

end Sys2Proof.Machine
end

section
/-!
SUPPORT. Releases by DCL_GO (R190–R197), and the seeding and stopping of the mask-randomness streams (R186–R189).
-/
namespace Sys2Proof.Machine

open Sys2Proof

/-! ### Writes of whole lines (R180) -/

theorem foldl_reaches_mem {β : Type} {P : State → Prop} {f : State → β → State} {l : List β} {b : β} (hb : b ∈ l) (hf : ∀ s, P (f s b))
    (hk : ∀ x ∈ l, ∀ s, P s → P (f s x)) (s : State) : P (l.foldl f s) := by
  have hkeep : ∀ (m : List β), (∀ x ∈ m, x ∈ l) → ∀ s, P s → P (m.foldl f s) := by
    intro m
    induction m with
    | nil => exact fun _ s hs => hs
    | cons x m ih =>
      exact fun hm s hs => ih (fun y hy => hm y (List.mem_cons_of_mem x hy)) _ (hk x (hm x List.mem_cons_self) s hs)
  obtain ⟨l₁, l₂, rfl⟩ := List.append_of_mem hb
  rw [List.foldl_append, List.foldl_cons]
  exact hkeep l₂ (fun x hx => by simp [hx]) _ (hf _)

theorem lineTag_setLineTag_add (p : Place) (d k : Nat) (t : Tag) (s : State) : lineTag (setLineTag (p.add d) t s) (p.add k) =
    if (p.key + k) / 64 = (p.key + d) / 64 then t else lineTag s (p.add k) := by
  cases p
  case loc c o | ring c o => simp only [lineTag, setLineTag, Place.add, Place.key, Table.get_set, Nat.add_assoc]
  case work o => exact Table.get_set _ _ _ _ _

/-- A write of whole lines gives each its tag. -/
theorem lineTag_writeTagged_whole (p : Place) (l : List Byte) (t : Tag) (s : State) (hp : p.key % 64 = 0) (hl : l.length % 64 = 0) {k : Nat}
    (hk : k < l.length) : lineTag (writeTagged p l t s) (p.add k) = t := by
  rw [writeTagged_eq, lineTag_writeBytes]
  have hmem : ∀ j ∈ lineNos p.key l.length, p.key ≤ 64 * j ∧ 64 * j + 64 ≤ p.key + l.length := by
    intro j hj
    rw [lineNos, if_neg (by omega), List.mem_map] at hj
    obtain ⟨i, hi, rfl⟩ := hj
    rw [List.mem_range] at hi
    omega
  have hstep : ∀ j ∈ lineNos p.key l.length, ∀ u : State, (lineTag u (p.add k) = t ∨ (p.key + k) / 64 = j) →
      lineTag (setLineTag (p.add (64 * j - p.key)) t u) (p.add k) = t := by
    intro j hj u h
    have hin := hmem j hj
    rw [lineTag_setLineTag_add]
    split
    next => rfl
    next hne => exact h.resolve_right (fun he => hne (by omega))
  have hline := mem_lineNos (key := p.key) hk
  refine foldl_reaches_mem (P := fun u : State => lineTag u (p.add k) = t) hline (fun u => ?_) (fun j hj u hu => ?_) s
  · dsimp only
    rw [if_pos (hmem _ hline)]
    exact hstep _ hline u (.inr rfl)
  · dsimp only
    rw [if_pos (hmem j hj)]
    exact hstep j hj u (.inl hu)

theorem lineTag_congr {s t : State} (h : s.mem = t.mem) (q : Place) : lineTag s q = lineTag t q := by
  cases q <;> simp only [lineTag, h]

theorem lineTag_bankWrite_whole (port : Nat) (p : Place) (l : List Byte) (t : Tag) (s : State) (hp : p.key % 64 = 0) (hl : l.length % 64 = 0)
    (h : lastInTurn s port p l.length = true) {k : Nat} (hk : k < l.length) : lineTag (bankWrite port p l t s) (p.add k) = t :=
  (lineTag_congr (inTurn_last port p l.length s _ h) _).trans (lineTag_writeTagged_whole p l t s hp hl hk)

/-! ### What a release that passes its checks has (R192–R194) -/

theorem Release.size_mod (r : Release) : r.size % 64 = 0 := by
  unfold Release.size roundUp
  omega

theorem Release.len_le_size (r : Release) : r.len ≤ r.size := by
  unfold Release.size roundUp
  omega

theorem releaseFails_none_aligned {s : State} {c : Nat} {t : Ticket} {r : Release} (h : releaseFails s c t r = none) : r.dst % 64 = 0 := by
  unfold releaseFails at h
  dsimp only at h
  refine Decidable.byContradiction fun hd => ?_
  split at h
  · cases h
  · rw [if_pos (.inr (.inl hd))] at h
    cases h

theorem workPlace_aligned {s : State} {c a n : Nat} {p : Place} (h : workPlace s c a n = some p) (ha : a % 64 = 0) : p.key % 64 = 0 := by
  unfold workPlace at h
  dsimp only at h
  split at h
  · obtain rfl := Option.some.inj h
    simp only [Place.key]
    omega
  · split at h
    · obtain rfl := Option.some.inj h
      simp only [Place.key]
      omega
    · cases h

theorem releasedBytes_length (s : State) (c : Nat) (r : Release) (a : Nat) : (releasedBytes s c r a).length = r.size := by
  have h := r.len_le_size
  unfold releasedBytes padTo
  simp only [List.length_append, List.length_replicate, List.length_take]
  omega

/-- The free bytes that a release's destination holds meanwhile. -/
def unreleased (s : State) (r : Release) : List Byte := bytesOf (Config.freeBits (8 * r.size) s.fresh).toNat r.size

theorem unreleased_length (s : State) (r : Release) : (unreleased s r).length = r.size := bytesOf_length _ _

theorem releaseBegins_passes {s : State} {c : Nat} {v : W64} {t : Ticket} {p : Place} (ht : ticketOn s c = some t)
    (hf : releaseFails s c t (releaseOf (dcl s c) v) = none)
    (hp : workPlace s c (releaseOf (dcl s c) v).dst (releaseOf (dcl s c) v).size = some p) :
    releaseBegins c v s = bankWrite (c % 16) p (unreleased s (releaseOf (dcl s c) v)) .secret (nextFresh s).2 := by
  unfold releaseBegins
  dsimp only
  rw [ht, hp]
  dsimp only
  rw [hf]
  rfl

theorem releaseBegins_fails {s : State} {c : Nat} {v : W64} {t : Ticket} (ht : ticketOn s c = some t)
    (hf : releaseFails s c t (releaseOf (dcl s c) v) ≠ none) : releaseBegins c v s = s := by
  unfold releaseBegins
  dsimp only
  rw [ht]
  cases workPlace s c (releaseOf (dcl s c) v).dst (releaseOf (dcl s c) v).size with
  | none => rfl
  | some p => exact if_neg (by simpa using hf)

/-! ### The command and the routine's end (R191, R196) -/

theorem isVendor_iff (a : Half) : isVendor a = true ↔ 1 ≤ a.toNat ∧ a.toNat ≤ 0x0FFF := by simp [isVendor]

theorem dclGoWrite_starts {s : State} {c : Nat} {v : W64} {t : Ticket} (x : Core) (ht : ticketOn s c = some t) (hv : isVendor t.act = true)
    (hs : Settled c s) : dclGoWrite c v x s = .ok (setDcl c { dcl s c with going := some v } (releaseBegins c v s)) (x.pc + 4) := by
  obtain ⟨hchecks, hpending⟩ := hs
  unfold dclGoWrite
  dsimp only
  rw [ht, if_neg (by simp [hv]), if_neg (not_not_intro hchecks), if_neg (by simp [hpending])]

theorem dclGoWrite_illegal {s : State} {c : Nat} {v : W64} {t : Ticket} (x : Core) (ht : ticketOn s c = some t) (hv : isVendor t.act = false) :
    dclGoWrite c v x s = .exc cIllegal 0 := by
  unfold dclGoWrite
  rw [ht]
  exact if_pos (by simp [hv])

/-- An instruction that a command of its own stands for completes. -/
theorem issue_completes {c : Nat} {s t : State} {body : Core → IRes} {pc : W64} (hi : AtIssue c s) (e : body (core s c) = .ok t pc) :
    issue c false body s = after c s t pc := by
  obtain ⟨-, hs, ha, hf, hr, hh⟩ := hi
  unfold issue
  rw [if_neg (by simp [hs])]
  dsimp only
  rw [if_neg (by simp [ha]), if_neg (by simp [hf]), if_neg (by simp [hr]), if_neg (by simp [hh]), if_neg (by simp), if_neg (by simp), e]
  rfl

theorem afterInstr_ring {c : Nat} (h : c < 256) (s : State) : afterInstr c s = s := if_neg (Nat.ne_of_lt h)

theorem issue_raises_at {c : Nat} {s : State} {body : Core → IRes} {cause : Byte} {v : W64} (hi : AtIssue c s) (q : Settled c s)
    (e : body (core s c) = .exc cause v) : issue c false body s = takeTrap c cause v false s := by
  obtain ⟨⟨hc, -⟩, hs, ha, hf, hr, hh⟩ := hi
  exact (issue_raises false hs ha hf hr hh q e).trans (afterInstr_ring hc _)

theorem dclGo_issues {s : State} {c : Nat} (v : W64) (hi : AtIssue c s) : exec (.dclGo c v) s = .next (issue c false (fun x => dclGoWrite c v x s) s) :=
  congrArg Host.Outcome.next (if_pos hi.1)

theorem releaseDone_runs {s : State} {c : Nat} {v : W64} {t : Ticket} (hl : Live s) (hg : (dcl s c).going = some v)
    (ht : ticketOn s c = some t) (hm : (corex s c).micro.trapped = false) (hf : (corex s c).micro.faulted = false)
    (hr : controlReread s c = false) : Runs (.dclReleaseDone c) s (releaseDone c t v s) := by
  refine congrArg Host.Outcome.next ((unlessLocked_live hl).trans ?_)
  rw [hg, ht]
  exact if_neg (by simp [hm, hf, hr])

theorem releaseDone_refused {s : State} {c : Nat} {v : W64} {t : Ticket} {e : Byte} (h : releaseFails s c t (releaseOf (dcl s c) v) = some e) :
    releaseDone c t v s = releaseRefused c t (releaseOf (dcl s c) v) e s := by
  unfold releaseDone
  dsimp only
  rw [h]

theorem releaseDone_accepted {s : State} {c a : Nat} {v : W64} {t : Ticket} {p : Place} (hf : releaseFails s c t (releaseOf (dcl s c) v) = none)
    (hp : workPlace s c (releaseOf (dcl s c) v).dst (releaseOf (dcl s c) v).size = some p)
    (ha : attemptOf s c (releaseOf (dcl s c) v) = some a) : releaseDone c t v s = releaseCounted c (releaseOf (dcl s c) v) a
      (bankWrite (c % 16) p (releasedBytes s c (releaseOf (dcl s c) v) a) .pub s) := by
  unfold releaseDone
  dsimp only
  rw [hf, hp]
  dsimp only
  rw [ha]

theorem releaseDone_none {s : State} {c : Nat} {v : W64} {t : Ticket} {p : Place} (hf : releaseFails s c t (releaseOf (dcl s c) v) = none)
    (hp : workPlace s c (releaseOf (dcl s c) v).dst (releaseOf (dcl s c) v).size = some p)
    (ha : attemptOf s c (releaseOf (dcl s c) v) = none) : releaseDone c t v s = setDcl c { dcl s c with attempt := 15, result := 1, going := none }
      (bankWrite (c % 16) p (unreleased s (releaseOf (dcl s c) v)) .secret (nextFresh s).2) := by
  unfold releaseDone
  dsimp only
  rw [hf, hp]
  dsimp only
  rw [ha]
  rfl

theorem dcl_setDcl (c : Nat) (d : Dcl) (s : State) : dcl (setDcl c d s) c = d := by rw [dcl, setDcl, corex_setCorex]

theorem dcl_bankWrite (port c : Nat) (p : Place) (l : List Byte) (t : Tag) (s : State) : dcl (bankWrite port p l t s) c = dcl s c := by
  obtain ⟨m, b, h⟩ := bankWrite_memFrame port p l t s
  rw [h]
  rfl

/-- The statement's premises of a release that ends. -/
theorem releaseDone_ends {s : State} {c : Nat} {v : W64} {t : Ticket} {e : Byte}
    (h : releaseFails s c t (releaseOf (dcl s c) v) = some e) : dcl (releaseDone c t v s) c = { dcl s c with result := e, going := none } ∧
      (releaseDone c t v s).mem = s.mem ∧ (releaseDone c t v s).cores = s.cores := by
  rw [releaseDone_refused h, releaseRefused]
  dsimp only
  generalize Event.naming _ t = ev
  obtain ⟨k, q, hr⟩ := report_frame ev (setDcl c { dcl s c with result := e, going := none } s)
  rw [hr]
  exact ⟨dcl_setDcl _ _ _, rfl, rfl⟩

/-- A release of an accepted attempt writes its bytes as PUBLIC and counts them. -/
theorem releaseDone_writes {s : State} {c a : Nat} {v : W64} {t : Ticket} {p : Place}
    (hf : releaseFails s c t (releaseOf (dcl s c) v) = none)
    (hp : workPlace s c (releaseOf (dcl s c) v).dst (releaseOf (dcl s c) v).size = some p)
    (ha : attemptOf s c (releaseOf (dcl s c) v) = some a) (hlast : lastInTurn s (c % 16) p (releaseOf (dcl s c) v).size = true) :
    let r := releaseOf (dcl s c) v
    let u := releaseDone c t v s
    (dcl u c).attempt = BitVec.ofNat 4 a ∧ (dcl u c).result = 0 ∧ (dcl u c).going = none ∧
       readBytes u p r.size = releasedBytes s c r a ∧ (∀ q, Apart p r.size q → readByte u q = readByte s q) ∧
       (∀ k, k < r.size → lineTag u (p.add k) = .pub) ∧
       (r.point = 1 → (dcl u c).released = (dcl s c).released + BitVec.ofNat 32 r.len) ∧
       (r.point ≠ 1 → (dcl u c).released = (dcl s c).released) ∧ u.cores = s.cores ∧ u.tickets = s.tickets := by
  intro r u
  have hu : u = releaseCounted c r a (bankWrite (c % 16) p (releasedBytes s c r a) .pub s) := releaseDone_accepted hf hp ha
  have hlen := releasedBytes_length s c r a
  have hdcl := dcl_bankWrite (c % 16) c p (releasedBytes s c r a) .pub s
  have hbytes := readBytes_bankWrite (c % 16) (releasedBytes s c r a) .pub p s (by rw [hlen]; exact hlast)
  have htag : ∀ k, k < r.size → lineTag (bankWrite (c % 16) p (releasedBytes s c r a) .pub s) (p.add k) = .pub := fun k hk =>
    lineTag_bankWrite_whole _ _ _ _ _ (workPlace_aligned hp (releaseFails_none_aligned hf)) (by rw [hlen]; exact r.size_mod)
      (by rw [hlen]; exact hlast) (by rw [hlen]; exact hk)
  have hout : ∀ q, Apart p r.size q → readByte (bankWrite (c % 16) p (releasedBytes s c r a) .pub s) q = readByte s q := fun q hq =>
    readByte_bankWrite_outside _ _ _ _ _ _ (by rw [hlen]; exact outside_of_apart hq)
  obtain ⟨m, b, hframe⟩ := bankWrite_memFrame (c % 16) p (releasedBytes s c r a) .pub s
  have hcores : (bankWrite (c % 16) p (releasedBytes s c r a) .pub s).cores = s.cores := by rw [hframe]
  have htickets : (bankWrite (c % 16) p (releasedBytes s c r a) .pub s).tickets = s.tickets := by rw [hframe]
  generalize bankWrite (c % 16) p (releasedBytes s c r a) .pub s = x at hu hdcl hbytes htag hout hcores htickets
  rw [hlen] at hbytes
  have hd : dcl u c = _ := (congrArg (dcl · c) hu).trans (dcl_setDcl _ _ _)
  rw [hdcl] at hd
  have hmem : u.mem = x.mem := by rw [hu]; rfl
  rw [hd]
  refine ⟨rfl, rfl, rfl, (readBytes_congr (readByte_congr hmem) p r.size).trans hbytes, fun q hq => (readByte_congr hmem q).trans (hout q hq),
    fun k hk => (lineTag_congr hmem _).trans (htag k hk), fun h => if_pos h, fun h => if_neg h, ?_, ?_⟩
  · rw [hu]; exact hcores
  · rw [hu]; exact htickets

/-! ### The mask-randomness streams (R187–R189) -/

theorem streamUp_of {s : State} {r k : Nat} (hr : r < ringCount s) (hk : k < 8) (h : s.boot.ringUp.getLsbD r = true) : streamUp s r k = true := by
  have hb : bit s.boot.ringUp r = true := h
  simp [streamUp, hr, hk, hb]

/-- Settles O33: releases by their checks and attempts, the streams by what they have produced. -/
theorem declassificationAndMasks : Obligations.DeclassificationAndMasks := by
  unfold Obligations.DeclassificationAndMasks
  refine ⟨⟨?_, ?_, ?_, ?_, ?_, ?_, ?_⟩, ?_, ?_, ?_⟩
  · intro s c v t hi ht h1 h2 hs
    exact (dclGo_issues v hi).trans (congrArg _ (issue_completes hi (dclGoWrite_starts _ ht ((isVendor_iff _).2 ⟨h1, h2⟩) hs)))
  · intro s c v t p ht
    dsimp only
    intro hf hp hlast
    have hlen := unreleased_length s (releaseOf (dcl s c) v)
    rw [releaseBegins_passes ht hf hp]
    refine ⟨fun k hk => lineTag_bankWrite_whole _ _ _ _ _ (workPlace_aligned hp (releaseFails_none_aligned hf))
      (by rw [hlen]; exact Release.size_mod _) ?_ (by rw [hlen]; exact hk), fun q hq => ?_⟩
    · rw [hlen]
      exact hlast
    · exact readByte_bankWrite_outside _ _ _ _ _ _ (by rw [hlen]; exact outside_of_apart hq)
  · exact fun s c v t ht hf => releaseBegins_fails ht hf
  · intro s c v t hi ht h1 hs
    have hv : isVendor t.act = false := by
      rw [← Bool.not_eq_true, isVendor_iff]
      omega
    exact (dclGo_issues v hi).trans (congrArg _ (issue_raises_at hi hs (dclGoWrite_illegal _ ht hv)))
  · intro s c v t e hl hg ht hm hf hr he
    exact ⟨_, releaseDone_runs hl hg ht hm hf hr, releaseDone_ends he⟩
  · intro s c a v t p hl hg ht hm hf hr
    dsimp only
    intro hfail hp ha hlast
    exact ⟨_, releaseDone_runs hl hg ht hm hf hr, releaseDone_writes hfail hp ha hlast⟩
  · intro s c v t p hl hg ht hm hf hr
    dsimp only
    intro hfail hp ha
    refine ⟨_, releaseDone_runs hl hg ht hm hf hr, ?_⟩
    rw [releaseDone_none hfail hp ha, dcl_setDcl]
    refine ⟨rfl, rfl, rfl, fun q hq => ?_⟩
    exact readByte_bankWrite_outside _ _ _ _ _ _ (by rw [unreleased_length]; exact outside_of_apart hq)
  · intro s r k hl hr hk hup
    have hstream := streamUp_of hr hk hup
    refine ⟨fun h1 h2 => ?_, fun b hb => ?_, fun h1 h2 => ?_, fun h1 h2 => ?_⟩
    · exact congrArg Host.Outcome.next ((unlessLocked_live hl).trans (if_pos ⟨hstream, h1, h2⟩))
    · refine congrArg Host.Outcome.next ((unlessLocked_live hl).trans ?_)
      rw [hb]
      exact if_pos hstream
    · exact congrArg Host.Outcome.next ((unlessLocked_live hl).trans (if_pos ⟨hstream, h1, h2⟩))
    · exact congrArg Host.Outcome.next ((unlessLocked_live hl).trans (if_neg (fun h => absurd h.2.2 (Nat.not_le_of_lt h2))))
  · intro s c n t hl ht hw hn
    refine congrArg Host.Outcome.next ((unlessLocked_live hl).trans ?_)
    rw [hw, ht]
    exact if_pos hn
  · intro s c n hl hw
    refine congrArg Host.Outcome.next ((unlessLocked_live hl).trans ?_)
    rw [hw]

end Sys2Proof.Machine
end

section
/-!
SUPPORT. The hash engines (R224–R230): which commands queue, which core a free unit takes next, and what each command leaves.
-/
namespace Sys2Proof.Machine

open Sys2Proof

/-! ### The units' turns (R229) -/

/-- A free unit takes the first core in turn that has a command. -/
def Turn.takeOne (n : Nat) (next : Nat → Option Nat) (core : Nat → Nat) (t : Turn) : Turn :=
  if n ≤ t.busy.length then t
  else match nextInTurn t.last (fun y => (next y).filter (fun k => !t.busy.contains k)) with
    | none => t
    | some k => { busy := t.busy ++ [k], last := core k }

theorem Turn.serve_eq (n : Nat) (next : Nat → Option Nat) (core : Nat → Nat) (t : Turn) :
    t.serve n next core = (List.range n).foldl (fun t _ => t.takeOne n next core) t := by
  unfold Turn.serve Turn.takeOne
  rfl

theorem Turn.takeOne_cases (n : Nat) (next : Nat → Option Nat) (core : Nat → Nat) (t : Turn) :
    t.takeOne n next core = t ∨ t.busy.length < n ∧ ∃ k, t.takeOne n next core = { busy := t.busy ++ [k], last := core k } := by
  unfold Turn.takeOne
  split
  · exact .inl rfl
  next h =>
    split
    · exact .inl rfl
    · exact .inr ⟨by omega, _, rfl⟩

theorem Turn.serve_le {n : Nat} (next : Nat → Option Nat) (core : Nat → Nat) {t : Turn} (h : t.busy.length ≤ n) :
    (t.serve n next core).busy.length ≤ n := by
  rw [Turn.serve_eq]
  refine foldl_inv (p := fun t : Turn => t.busy.length ≤ n) (fun t _ ht => ?_) _ h
  rcases t.takeOne_cases n next core with he | ⟨hlt, k, he⟩
  · rw [he]
    exact ht
  · rw [he, List.length_append]
    exact hlt

theorem Turn.serve_takes {n y : Nat} (next : Nat → Option Nat) (core : Nat → Nat) {t : Turn} (h : t.busy.length < n)
    (hy : nextInTurn t.last (fun z => (next z).filter (fun k => !t.busy.contains k)) = some y) :
    y ∈ (t.serve n next core).busy := by
  obtain ⟨m, rfl⟩ := Nat.exists_eq_succ_of_ne_zero (Nat.ne_of_gt (Nat.zero_lt_of_lt h))
  have hfirst : t.takeOne (m + 1) next core = { busy := t.busy ++ [y], last := core y } := by
    rw [Turn.takeOne, if_neg (by omega), hy]
  rw [Turn.serve_eq, List.range_succ_eq_map, List.foldl_cons, hfirst]
  refine foldl_inv (p := fun t : Turn => y ∈ t.busy) (fun t _ ht => ?_) _ (by simp)
  rcases t.takeOne_cases (m + 1) next core with he | ⟨-, k, he⟩
  · rw [he]
    exact ht
  · rw [he]
    exact List.mem_append_left _ ht

/-- The place of core y in the order that begins after `last`. -/
def turnRank (last y : Nat) : Nat := (y + 15 - last % 16) % 16

theorem nextInTurn_first {last y : Nat} {next : Nat → Option Nat} (hy : y < 16) (hn : next y = some y)
    (hfirst : ∀ z, z < 16 → turnRank last z < turnRank last y → next z = none) : nextInTurn last next = some y := by
  have hrank : turnRank last y < 16 := Nat.mod_lt _ (by decide)
  have hat : (last + 1 + turnRank last y) % 16 = y := by unfold turnRank; omega
  unfold nextInTurn
  rw [List.findSome?_map]
  obtain ⟨l₁, l₂, hl⟩ := List.append_of_mem (List.mem_range.2 hrank)
  have hbefore : ∀ j ∈ l₁, next ((last + 1 + j) % 16) = none := by
    intro j hj
    have hjlt : j < turnRank last y := by
      have hsorted : (l₁ ++ turnRank last y :: l₂).Pairwise (· < ·) := hl ▸ List.pairwise_lt_range
      exact (List.pairwise_append.1 hsorted).2.2 j hj _ List.mem_cons_self
    refine hfirst _ (Nat.mod_lt _ (by decide)) ?_
    have : turnRank last ((last + 1 + j) % 16) = j := by unfold turnRank; omega
    omega
  rw [hl, List.findSome?_append, List.findSome?_cons]
  simp only [Function.comp_apply, hat, hn]
  have hnone : l₁.findSome? (next ∘ fun j => (last + 1 + j) % 16) = none := List.findSome?_eq_none_iff.2 hbefore
  rw [hnone]
  rfl

/-! ### Who is served (R229) -/

/-- The oldest command of core y of the ring. -/
def hashHead (s : State) (r e y : Nat) : Option HashCmd := (hashEng s (16 * r + y) e).queue.head?

/-- Core y, where its oldest command needs a unit now. -/
def hashNext (s : State) (r e y : Nat) : Option Nat := (hashHead s r e y).bind (fun q =>
    if q.op = 7 ∧ (drbgAnswer s (.hash (16 * r + y) e)).isNone then none else some y)

/-- The units once free ones have taken commands. -/
def hashServed (s : State) (r e : Nat) : Turn :=
  { hashTurn s r e with busy := (hashTurn s r e).busy.filter (fun y => (hashHead s r e y).isSome) }.serve (hashUnits e)
    (hashNext s r e) (fun y => y)

theorem heServe_eq (r e : Nat) (s : State) :
    heServe r e s = if hashServed s r e = hashTurn s r e then s else setHashTurn r e (hashServed s r e) s := rfl

theorem hashTurn_heServe (r e : Nat) (s : State) : hashTurn (heServe r e s) r e = hashServed s r e := by
  rw [heServe_eq]
  split
  next h => exact h.symm
  · rw [hashTurn, setHashTurn, Table.get_set_same]

theorem heServe_frame (r e : Nat) (s : State) : ∃ t, heServe r e s = { s with hashTurn := t } := by
  rw [heServe_eq]
  split
  · exact ⟨s.hashTurn, rfl⟩
  · exact ⟨_, rfl⟩

theorem hashEng_heServe (r e c k : Nat) (s : State) : hashEng (heServe r e s) c k = hashEng s c k := by
  obtain ⟨t, h⟩ := heServe_frame r e s
  rw [h]
  rfl

theorem hashServed_le (s : State) (r e : Nat) (h : (hashTurn s r e).busy.length ≤ hashUnits e) :
    (hashServed s r e).busy.length ≤ hashUnits e :=
  Turn.serve_le _ _ (Nat.le_trans (List.length_filter_le _ _) h)

theorem hashHead_isSome {s : State} {r e y : Nat} : (hashHead s r e y).isSome = true ↔ (hashEng s (16 * r + y) e).queue ≠ [] := by
  unfold hashHead
  cases (hashEng s (16 * r + y) e).queue <;> simp

theorem hashServed_takes (s : State) (r e y : Nat) (hy : y < 16) (hlen : (hashTurn s r e).busy.length < hashUnits e)
    (hfree : (hashTurn s r e).busy.contains y = false) (hbusy : ∀ z ∈ (hashTurn s r e).busy, (hashEng s (16 * r + z) e).queue ≠ [])
    (hq : ∃ q l, (hashEng s (16 * r + y) e).queue = q :: l ∧ q.op ≠ 7)
    (hfirst : ∀ z, z < 16 → z ≠ y → (hashEng s (16 * r + z) e).queue ≠ [] → (hashTurn s r e).busy.contains z = false →
      turnRank (hashTurn s r e).last y < turnRank (hashTurn s r e).last z) : (hashServed s r e).busy.contains y = true := by
  have hfilter : (hashTurn s r e).busy.filter (fun y => (hashHead s r e y).isSome) = (hashTurn s r e).busy :=
    List.filter_eq_self.2 fun z hz => hashHead_isSome.2 (hbusy z hz)
  rw [List.contains_iff_mem, hashServed, hfilter]
  refine Turn.serve_takes _ _ hlen (nextInTurn_first hy ?_ fun z hz hr => ?_)
  · obtain ⟨q, l, hql, hop⟩ := hq
    have hn : hashNext s r e y = some y := by
      rw [hashNext, hashHead, hql]
      exact if_neg (fun h => hop h.1)
    rw [hn, Option.filter_some, if_pos (by rw [hfree]; rfl)]
  · cases hn : hashNext s r e z with
    | none => rfl
    | some k =>
      obtain ⟨q, hhead, hk⟩ := Option.bind_eq_some_iff.1 hn
      have hkz : k = z := by
        split at hk
        · cases hk
        · exact (Option.some.inj hk).symm
      rw [hkz, Option.filter_some, if_neg]
      intro hnot
      have hr' : turnRank (hashTurn s r e).last z < turnRank (hashTurn s r e).last y := hr
      have hlt := hfirst z hz (by rintro rfl; omega) (hashHead_isSome.1 (by rw [hhead]; rfl)) (by simpa using hnot)
      omega

/-! ### A store to HE_CMD (R226, R227) -/

/-- The command that a value stored to HE_CMD means. -/
def hashCmdOf (s : State) (c e : Nat) (v : W64) (op : Nat) : HashCmd :=
  { op := op, ctx := field v.toNat 12 2, alg := field v.toNat 8 4, src := (hashEng s c e).src.toNat, dst := (hashEng s c e).dst.toNat,
    len := (hashEng s c e).len.toNat, out := field (hashEng s c e).aux.toNat 0 32, pr := bit (hashEng s c e).aux 32 }

/-- The context that the command meets once the core's earlier ones are done. -/
def hashCtxOf (s : State) (c e : Nat) (v : W64) : HashCtx := Table.get {} (ctxView e (hashEng s c e)) (field v.toNat 12 2)

/-- The command reads its source: ABSORB and HASH. -/
def hashReads (op : Nat) : Bool := op == 2 || op == 5

theorem heCommand_queues {s : State} {c e op : Nat} {v : W64} (hop : field v.toNat 0 4 = op) (hrange : 1 ≤ op ∧ op ≤ 7)
    (h4 : field v.toNat 4 4 = 0) (h14 : field v.toNat 14 50 = 0) (halg : field v.toNat 8 4 ≤ 5)
    (hal : field v.toNat 8 4 = 0 ∨ op = 1 ∨ op = 5) (hr7 : op ≠ 7 ∨ e = 0) (hout : outBad e (hashCmdOf s c e v op) = false)
    (hph : phaseAllows e op (hashCtxOf s c e v) = true)
    (hsrc : (op = 2 ∨ op = 5) → (hashEng s c e).len.toNat ≤ 4194304 ∧ ((hashEng s c e).len.toNat = 0 ∨
      ∃ p, rangePlace s c (hashEng s c e).src.toNat (hashEng s c e).len.toNat false = .ok p ∧ anyShare s p (hashEng s c e).len.toNat = false))
    (hdst : hashOutLen e (hashCmdOf s c e v op) (hashCtxOf s c e v) = 0 ∨ ∃ p, rangePlace s c (hashEng s c e).dst.toNat
      (hashOutLen e (hashCmdOf s c e v op) (hashCtxOf s c e v)) true = .ok p) (hq : (hashEng s c e).queue.length < 4) :
    heCommand c e v s = .ok (heServe (ringOf c) e (openGate (unitEngine (ringOf c) (4 + e))
      (setHashEng c e { hashEng s c e with queue := (hashEng s c e).queue ++ [hashCmdOf s c e v op] } s))) := by
  subst hop
  have hshare : (hashReads (field v.toNat 0 4) && shareRange s c (hashEng s c e).src.toNat
      (min (hashEng s c e).len.toNat 4194305)) = false := by
    cases hr : hashReads (field v.toNat 0 4) with
    | false => rfl
    | true =>
      obtain ⟨hle, h⟩ := hsrc (by simpa [hashReads] using hr)
      rw [Nat.min_eq_left (by omega), shareRange]
      rcases h with h | ⟨p, hp, hs⟩
      · simp [h]
      · simp [hp, hs]
  have hread : ∃ p, (if hashReads (field v.toNat 0 4) = true ∧ min (hashEng s c e).len.toNat 4194305 ≠ 0 then
      rangePlace s c (hashEng s c e).src.toNat (min (hashEng s c e).len.toNat 4194305) false else .ok (.loc c 0)) = .ok p := by
    by_cases hr : hashReads (field v.toNat 0 4) = true ∧ min (hashEng s c e).len.toNat 4194305 ≠ 0
    · obtain ⟨hle, h⟩ := hsrc (by simpa [hashReads] using hr.1)
      rw [if_pos hr, Nat.min_eq_left (by omega)]
      rcases h with h | ⟨p, hp, -⟩
      · exact absurd (by omega) hr.2
      · exact ⟨p, hp⟩
    · exact ⟨_, if_neg hr⟩
  have hbad : (field v.toNat 14 50 != 0 || field v.toNat 4 4 != 0 || field v.toNat 0 4 == 0 || decide (7 < field v.toNat 0 4)
      || decide (5 < field v.toNat 8 4) || (field v.toNat 8 4 != 0 && field v.toNat 0 4 != 1 && field v.toNat 0 4 != 5)
      || (field v.toNat 0 4 == 7 && e == 1) || outBad e (hashCmdOf s c e v (field v.toNat 0 4))
      || !phaseAllows e (field v.toNat 0 4) (hashCtxOf s c e v)) = false := by
    simp [h14, h4, hout, hph]
    omega
  obtain ⟨p, hp⟩ := hread
  unfold heCommand
  dsimp only
  refine (if_neg ?_).trans ((if_neg ?_).trans ?_)
  · exact fun h => Bool.false_ne_true (hshare.symm.trans h)
  · exact fun h => Bool.false_ne_true (hbad.symm.trans h)
  · have hp' : (if (field v.toNat 0 4 == 2 || field v.toNat 0 4 == 5) = true ∧ min (hashEng s c e).len.toNat 4194305 ≠ 0 then
        rangePlace s c (hashEng s c e).src.toNat (min (hashEng s c e).len.toNat 4194305) false else .ok (.loc c 0)) = .ok p := hp
    rw [hp']
    dsimp only
    unfold hashCmdOf hashCtxOf at hdst
    rcases hdst with h | ⟨d, hd⟩
    · rw [if_pos h]
      exact if_neg (by omega)
    · rw [hd]
      dsimp only
      rw [ite_self]
      exact if_neg (by omega)

theorem heCommand_bad {s : State} {c e op : Nat} {v : W64} (hop : field v.toNat 0 4 = op) (hr : hashReads op = false)
    (hbad : 5 < field v.toNat 8 4 ∨ phaseAllows e op (hashCtxOf s c e v) = false) : heCommand c e v s = .exc cAccess 0 := by
  subst hop
  unfold heCommand
  dsimp only
  refine (if_neg ?_).trans (if_pos ?_)
  · exact fun h => by
      have h' := (Bool.and_eq_true _ _).mp h
      exact Bool.false_ne_true (hr.symm.trans h'.1)
  · rcases hbad with h | h
    · simp [h]
    · have h' : phaseAllows e (field v.toNat 0 4) (Table.get {} (ctxView e (hashEng s c e)) (field v.toNat 12 2)) = false := h
      simp [h']

theorem heRow_of {s : State} {c e op : Nat} {v : W64} (he : e < 2) (hop : field v.toNat 0 4 = op) :
    heRow op c e v s = windowRow c (heCommand c e v) s := if_pos ⟨he, hop⟩

/-- A store to an engine's command register whose checks pass completes. -/
theorem windowRow_ok {s u : State} {c : Nat} {f : State → WRes} (hi : AtIssue c s) (h : f s = .ok u) :
    windowRow c f s = after c s u ((core s c).pc + 4) := by
  rw [windowRow_atIssue f hi, h]
  rfl

/-- One whose checks fail raises their exception. -/
theorem windowRow_exc {s : State} {c : Nat} {f : State → WRes} {cause : Byte} {v : W64} (hi : AtIssue c s) (hs : Settled c s)
    (h : f s = .exc cause v) : windowRow c f s = takeTrap c cause v false s := by
  rw [windowRow_atIssue f hi, h]
  exact (afterInstr_ring hi.1.1 _).trans (raise_settled cause v hs)

/-! ### The commands at their end (R226, R228) -/

theorem hashEng_setHashEng (c e : Nat) (g : HashEng) (s : State) : hashEng (setHashEng c e g s) c e = g := Table.get_set_same _ _ _ _

theorem HashEng.at_setCtx (g : HashEng) (k : Nat) (x : HashCtx) : (g.setCtx k x).at k = x := Table.get_set_same _ _ _ _

/-- What the engine writes moves no engine's registers. -/
theorem hashEng_bankWrite (port c e : Nat) (p : Place) (l : List Byte) (t : Tag) (s : State) :
    hashEng (bankWrite port p l t s) c e = hashEng s c e := by
  obtain ⟨m, b, h⟩ := bankWrite_memFrame port p l t s
  rw [h]
  rfl

/-- The context of a command once it is put back. -/
def ctxPut (c e : Nat) (q : HashCmd) (y : HashCtx) (s : State) : State := setHashEng c e ((hashEng s c e).setCtx q.ctx y) s

theorem at_ctxPut (c e : Nat) (q : HashCmd) (y : HashCtx) (s : State) : (hashEng (ctxPut c e q y s) c e).at q.ctx = y := by
  rw [ctxPut, hashEng_setHashEng, HashEng.at_setCtx]

theorem hePerform_init {s : State} {c e : Nat} {q : HashCmd} (h : q.op = 1) :
    hePerform c e q s = some (ctxPut c e q { alg := q.alg, phase := .absorbing } s) := by
  unfold hePerform
  rw [h]
  rfl

theorem hePerform_absorb {s : State} {c e : Nat} {q : HashCmd} (h : q.op = 2) : hePerform c e q s =
    some (ctxPut c e q { (hashEng s c e).at q.ctx with
      msg := ((hashEng s c e).at q.ctx).msg ++ (engineRead s c q.src q.len).1,
      tag := (((hashEng s c e).at q.ctx).tag.lineJoin (engineRead s c q.src q.len).2).plain } s) := by
  unfold hePerform
  rw [h]
  rfl

theorem hePerform_final {s : State} {c e : Nat} {q : HashCmd} (h : q.op = 3) (hs : isShake e ((hashEng s c e).at q.ctx).alg = false) :
    hePerform c e q s = some (engineWrite c (4 + e) q.dst
      (bytesFrom (hashByte e ((hashEng s c e).at q.ctx).alg ((hashEng s c e).at q.ctx).msg) (digestLen e ((hashEng s c e).at q.ctx).alg))
      ((hashEng s c e).at q.ctx).tag (ctxPut c e q { tag := ((hashEng s c e).at q.ctx).tag } s)) := by
  unfold hePerform
  rw [h]
  dsimp only
  rw [if_neg (by simp [hs])]
  rfl

theorem hePerform_copy {s : State} {c e : Nat} {q : HashCmd} (h : q.op = 6) :
    hePerform c e q s = some (setHashEng c e ((hashEng s c e).setCtx (q.out % 4) ((hashEng s c e).at q.ctx)) s) := by
  unfold hePerform
  rw [h]
  rfl

theorem hePerform_random_waits {s : State} {c e : Nat} {q : HashCmd} (h : q.op = 7) (ha : drbgAnswer s (.hash c e) = none) :
    hePerform c e q s = none := by
  unfold hePerform
  rw [h, ha]
  rfl

/-- An engine's write to a place that its check found. -/
theorem engineWrite_at {s : State} {c k dst : Nat} {b : List Byte} {t : Tag} {p : Place} (h : rangePlace s c dst b.length true = .ok p) :
    engineWrite c k dst b t s = bankWrite (enginePort k) p b t (dropOld c p b.length s) := by
  rw [engineWrite, h]

theorem bytesFrom_length (f : Nat → Byte) (n : Nat) : (bytesFrom f n).length = n := by simp [bytesFrom]

/-- FINAL writes the digest of what was absorbed and frees its context. -/
theorem hePerform_final_writes {s : State} {c e : Nat} {q : HashCmd} {p : Place} (he : e < 2) (h : q.op = 3)
    (hs : isShake e ((hashEng s c e).at q.ctx).alg = false)
    (hp : rangePlace s c q.dst (digestLen e ((hashEng s c e).at q.ctx).alg) true = .ok p)
    (hl : lastInTurn s (20 + e) p (digestLen e ((hashEng s c e).at q.ctx).alg) = true) :
    ∃ t, hePerform c e q s = some t ∧ readBytes t p (digestLen e ((hashEng s c e).at q.ctx).alg) =
        (List.range (digestLen e ((hashEng s c e).at q.ctx).alg)).map (hashByte e ((hashEng s c e).at q.ctx).alg ((hashEng s c e).at q.ctx).msg) ∧
      ((hashEng t c e).at q.ctx).phase = .idle ∧ ((hashEng t c e).at q.ctx).msg = [] := by
  generalize hx : (hashEng s c e).at q.ctx = x at hs hp hl
  have hlen := bytesFrom_length (hashByte e x.alg x.msg) (digestLen e x.alg)
  have hput := at_ctxPut c e q { tag := x.tag } s
  have hport : enginePort (4 + e) = 20 + e := by unfold enginePort; omega
  have hperf := hePerform_final h (by rw [hx]; exact hs)
  rw [hx, engineWrite_at (by rw [hlen]; exact hp), hport, hlen] at hperf
  refine ⟨_, hperf, ?_, ?_⟩
  · have hb := readBytes_bankWrite (20 + e) (bytesFrom (hashByte e x.alg x.msg) (digestLen e x.alg)) x.tag p
      (dropOld c p (digestLen e x.alg) (ctxPut c e q { tag := x.tag } s)) (by rw [hlen]; exact hl)
    rw [hlen] at hb
    exact hb
  · rw [hashEng_bankWrite]
    have hdrop : hashEng (dropOld c p (digestLen e x.alg) (ctxPut c e q { tag := x.tag } s)) c e =
        hashEng (ctxPut c e q { tag := x.tag } s) c e := rfl
    rw [hdrop, hput]
    exact ⟨rfl, rfl⟩

/-- The state after a completed command. -/
def hashDone (c e : Nat) (l : List HashCmd) (s : State) : State :=
  raiseEvent c (5 + e) (heServe (ringOf c) e (setHashEng c e { hashEng s c e with queue := l, done := (hashEng s c e).done + 1 }
    (setHashTurn (ringOf c) e { hashTurn s (ringOf c) e with
      busy := (hashTurn s (ringOf c) e).busy.filter (fun y => y != c % 16) } s)))

theorem heCmdDone_completes {s s' : State} {c e : Nat} {q : HashCmd} {l : List HashCmd} (hl : Live s) (he : e < 2)
    (hq : (hashEng s c e).queue = q :: l) (hb : (hashTurn (heServe (ringOf c) e s) (ringOf c) e).busy.contains (c % 16) = true)
    (hp : hePerform c e q (heServe (ringOf c) e s) = some s') : Runs (.heCmdDone c e) s (hashDone c e l s') := by
  refine congrArg Host.Outcome.next ((unlessLocked_live hl).trans ?_)
  dsimp only
  rw [hashEng_heServe, hq]
  dsimp only
  rw [if_neg (by rw [hb]; decide), if_pos he, hp]
  rfl

theorem heCmdDone_waits {s : State} {c e : Nat} (hl : Live s)
    (hb : (hashTurn (heServe (ringOf c) e s) (ringOf c) e).busy.contains (c % 16) = false) :
    Runs (.heCmdDone c e) s (heServe (ringOf c) e s) := by
  refine congrArg Host.Outcome.next ((unlessLocked_live hl).trans ?_)
  dsimp only
  split
  · rfl
  · exact if_pos hb

/-- Settles O34: the store by its checks, the units by their turns, and each command by what it performs. -/
theorem hashCommandsQueueAndComplete : Obligations.HashCommandsQueueAndComplete := by
  unfold Obligations.HashCommandsQueueAndComplete
  refine ⟨⟨?_, ?_, ?_⟩, ?_, ?_, ?_, ?_, ?_, ?_, ?_, ?_, fun s c e q h ha => hePerform_random_waits h ha⟩
  · intro mk op hmk s c e v hi he hop
    dsimp only
    intro h4 h14 halg hal hr7 hout hph hsrc hdst hq
    have hrange : 1 ≤ op ∧ op ≤ 7 := by omega
    have hrow : exec (mk c e v) s = .next (heRow op c e v s) := by
      rcases hmk with ⟨rfl, rfl⟩ | ⟨rfl, rfl⟩ | ⟨rfl, rfl⟩ | ⟨rfl, rfl⟩ | ⟨rfl, rfl⟩ | ⟨rfl, rfl⟩ | ⟨rfl, rfl⟩
      all_goals rfl
    refine hrow.trans (congrArg _ ((heRow_of he hop).trans (windowRow_ok hi ?_)))
    exact heCommand_queues hop hrange h4 h14 halg hal hr7 hout hph hsrc hdst hq
  · intro s c e v hi hs he hop halg
    exact congrArg Host.Outcome.next ((heRow_of he hop).trans (windowRow_exc hi hs (heCommand_bad hop rfl (.inl halg))))
  · intro s c e v hi hs he hop hph
    refine congrArg Host.Outcome.next ((heRow_of he hop).trans (windowRow_exc hi hs (heCommand_bad hop rfl (.inr ?_))))
    simp [phaseAllows, hashCtxOf, hph]
  · intro s s' c e q l hl he hq
    dsimp only
    exact fun hb hp => heCmdDone_completes hl he hq hb hp
  · exact fun s c e hl hb => heCmdDone_waits hl hb
  · intro s r e h
    rw [hashTurn_heServe]
    exact hashServed_le s r e h
  · intro s r e y hy hlen hfree hbusy hq hfirst
    rw [hashTurn_heServe]
    exact hashServed_takes s r e y hy hlen hfree hbusy hq hfirst
  · intro s c e q _ _ hop
    exact ⟨_, hePerform_init hop, at_ctxPut _ _ _ _ _, rfl⟩
  · intro s c e q p _ hop hp
    refine ⟨_, hePerform_absorb hop, rfl, ?_⟩
    rw [at_ctxPut, engineRead, hp]
  · intro s c e q p he hop hs _
    dsimp only
    exact fun hp hl => hePerform_final_writes he hop hs hp hl
  · intro s c e q _ hop hout
    refine ⟨_, hePerform_copy hop, ?_, rfl⟩
    rw [hashEng_setHashEng, Nat.mod_eq_of_lt hout, HashEng.at_setCtx]

end Sys2Proof.Machine
end

section
/-!
SUPPORT. The Maelhoavo engines (R231–R239): claims and their scrubs, which commands queue and execute, and what they leave.
-/
namespace Sys2Proof.Machine

open Sys2Proof

/-! ### Windows and engines -/

theorem meWin_setMeWin (c k : Nat) (w : MeWin) (s : State) : meWin (setMeWin c k w s) c k = w := Table.get_set_same _ _ _ _
theorem meEng_setMeEng (r e : Nat) (g : MeEngine) (s : State) : meEng (setMeEng r e g s) r e = g := Table.get_set_same _ _ _ _

/-- An event at a core moves its record and the clock alone. -/
theorem raiseEvent_frame (c k : Nat) (s : State) : ∃ cs tm, raiseEvent c k s = { s with cores := cs, time := tm } := by
  unfold raiseEvent
  rcases wake_cases c (setEvent c k s) with ⟨-, -, n, he⟩ | ⟨-, he⟩
  · rw [he]
    exact ⟨_, _, rfl⟩
  · rw [he]
    exact ⟨_, _, rfl⟩

/-- The units of an engine with the commands that they execute. -/
theorem meServe_frame (r e : Nat) (s : State) :
    meServe r e s = s ∨ ∃ mul dma, meServe r e s = setMeEng r e { meEng s r e with mul := mul, dma := dma } s := by
  unfold meServe
  dsimp only
  split
  · exact .inl rfl
  · exact .inr ⟨_, _, rfl⟩

theorem meWin_meServe (r e c k : Nat) (s : State) : meWin (meServe r e s) c k = meWin s c k := by
  rcases meServe_frame r e s with h | ⟨mul, dma, h⟩
  all_goals
    rw [h]
    try rfl

theorem retired_meServe (r e i : Nat) (s : State) : (Table.get {} (meServe r e s).meng i).retired = (Table.get {} s.meng i).retired := by
  rcases meServe_frame r e s with h | ⟨mul, dma, h⟩
  · rw [h]
  · rw [h, setMeEng, Table.get_set]
    split
    next hi => rw [hi]; rfl
    next => rfl

theorem engineOf_congr {s t : State} (h : ∀ i, (Table.get {} s.meng i).retired = (Table.get {} t.meng i).retired) (r k : Nat) :
    engineOf s r k = engineOf t r k := by
  unfold engineOf
  simp only [h]

theorem engineOf_meServe (r e k q : Nat) (s : State) : engineOf (meServe r e s) q k = engineOf s q k :=
  engineOf_congr (fun i => retired_meServe r e i s) q k

/-! ### One command for each unit (R231, R238) -/

theorem meServe_busy (s : State) (r e : Nat) (hm : (meEng s r e).mul.busy.length ≤ 1) (hd : (meEng s r e).dma.busy.length ≤ 1) :
    (meEng (meServe r e s) r e).mul.busy.length ≤ 1 ∧ (meEng (meServe r e s) r e).dma.busy.length ≤ 1 := by
  unfold meServe
  dsimp only
  split
  · exact ⟨hm, hd⟩
  · rw [meEng_setMeEng]
    exact ⟨Turn.serve_le _ _ (Nat.le_trans (List.length_filter_le _ _) hm), Turn.serve_le _ _ (Nat.le_trans (List.length_filter_le _ _) hd)⟩

/-! ### Claims (R232, R233) -/

theorem claimWrite_claims {s : State} {c k : Nat} {v : W64} (h1 : 1 ≤ field v.toNat 0 5) (h2 : field v.toNat 0 5 ≤ 16)
    (h3 : field v.toNat 5 3 = 0) (h4 : 2 ≤ field v.toNat 8 8) (h5 : field v.toNat 8 8 ≤ 130) (h6 : field v.toNat 16 48 = 0)
    (hh : (meWin s c k).held = false) (hp : (meWin s c k).pending = none) :
    let e := engineOf s (ringOf c) k
    let g := meEng s (ringOf c) e
    let later (q : Nat × Nat) : Bool := (meWin s q.1 q.2).asked == s.time.ticks && (meWin s q.1 q.2).pending.isSome && c < q.1
    claimWrite c k v s = .ok (openGate (unitEngine (ringOf c) e) (setMeWin c k { meWin s c k with
      pending := some (field v.toNat 0 5, field v.toNat 8 8), asked := s.time.ticks } (setMeEng (ringOf c) e { g with
        queue := g.queue.takeWhile (fun q => !later q) ++ [(c, k)] ++ g.queue.dropWhile (fun q => !later q) } s))) := by
  unfold claimWrite
  dsimp only
  rw [if_neg (by omega), if_neg (by omega), if_neg]
  rw [hh, hp]
  simp only [Bool.false_eq_true, Option.isSome_none, false_or]
  omega

theorem claimWrite_releases {s : State} {c k : Nat} {v : W64} (h0 : field v.toNat 0 8 = 0) (h6 : field v.toNat 16 48 = 0)
    (hh : (meWin s c k).held = true) (hq : (meWin s c k).queue = []) : claimWrite c k v s = .ok (endClaim c k s) := by
  have h5 : field v.toNat 0 5 = 0 := by
    simp only [field] at h0 ⊢
    omega
  have h3 : field v.toNat 5 3 = 0 := by
    simp only [field] at h0 ⊢
    omega
  unfold claimWrite
  dsimp only
  rw [if_neg (by omega), if_pos h5, if_neg (by simp [hq]), if_pos (.inl hh)]

theorem claimGrant_grants {s : State} {r e c k p l : Nat} {rest : List (Nat × Nat)} (hq : (meEng s r e).queue = (c, k) :: rest)
    (hr : (meEng s r e).retired = false) (hp : (meWin s c k).pending = some (p, l)) (hpages : (meEng s r e).pagesUsed + p ≤ 16)
    (hlimbs : (meEng s r e).limbsUsed + l ≤ 130) :
    (meWin (claimGrant r e s) c k).held = true ∧ (meWin (claimGrant r e s) c k).pages = p ∧ (meWin (claimGrant r e s) c k).limbs = l ∧
      (meWin (claimGrant r e s) c k).acc = 0 ∧ (meWin (claimGrant r e s) c k).scratch = [] ∧ (meWin (claimGrant r e s) c k).pending = none ∧
      (meEng (claimGrant r e s) r e).queue = rest ∧ (meEng (claimGrant r e s) r e).pagesUsed = (meEng s r e).pagesUsed + p ∧
      (meEng (claimGrant r e s) r e).limbsUsed = (meEng s r e).limbsUsed + l ∧ (claimGrant r e s).mem = s.mem := by
  have hgrant : ∃ w u, claimGrant r e s = raiseEvent c (1 + e) (setMeWin c k w u) ∧
      u = setMeEng r e { meEng s r e with queue := rest, pagesUsed := (meEng s r e).pagesUsed + p, limbsUsed := (meEng s r e).limbsUsed + l } s ∧
      w.held = true ∧ w.pages = p ∧ w.limbs = l ∧ w.acc = 0 ∧ w.scratch = [] ∧ w.pending = none := by
    unfold claimGrant
    dsimp only
    rw [hq]
    dsimp only
    rw [hp]
    dsimp only
    rw [if_neg (by simp only [hr, Bool.false_eq_true, false_or]; omega)]
    exact ⟨_, _, rfl, rfl, rfl, rfl, rfl, rfl, rfl, rfl⟩
  obtain ⟨w, u, hg, hu, h1, h2, h3, h4, h5, h6⟩ := hgrant
  obtain ⟨cs, tm, hev⟩ := raiseEvent_frame c (1 + e) (setMeWin c k w u)
  have hwin : meWin (claimGrant r e s) c k = w := by
    rw [hg, hev]
    exact meWin_setMeWin c k w u
  have heng : meEng (claimGrant r e s) r e = meEng u r e := by
    rw [hg, hev]
    rfl
  have hmem : (claimGrant r e s).mem = s.mem := by
    rw [hg, hev, hu]
    rfl
  rw [hwin, heng, hu, meEng_setMeEng]
  exact ⟨h1, h2, h3, h4, h5, h6, rfl, rfl, rfl, hmem⟩

theorem claimGrant_waits {s : State} {r e c k p l : Nat} {rest : List (Nat × Nat)} (hq : (meEng s r e).queue = (c, k) :: rest)
    (hp : (meWin s c k).pending = some (p, l)) (h : 16 < (meEng s r e).pagesUsed + p ∨ 130 < (meEng s r e).limbsUsed + l) :
    claimGrant r e s = s := by
  unfold claimGrant
  dsimp only
  rw [hq]
  dsimp only
  rw [hp]
  exact if_pos (.inr h)

/-! ### The commands' results on a claim (R236) -/

theorem readWin_writeWin (t : Table Byte) (o : Nat) (l : List Byte) : readWin (writeWin t o l) o l.length = l := by
  have hbefore : ∀ (l : List Byte) (t : Table Byte) (a b : Nat), b < a → Table.get 0 (writeWin t a l) b = Table.get 0 t b := by
    intro l
    induction l with
    | nil => exact fun _ _ _ _ => rfl
    | cons x l ih => exact fun t a b h => (ih _ _ _ (by omega)).trans (Table.get_set_other _ _ _ (by omega))
  induction l generalizing t o with
  | nil => rfl
  | cons x l ih =>
    have htail : readWin (writeWin (Table.set 0 t o x) (o + 1) l) (o + 1) l.length = l := ih _ _
    rw [List.length_cons, readWin, List.range_succ_eq_map, List.map_cons, List.map_map, writeWin]
    refine congr (congrArg List.cons ?_) ?_
    · rw [hbefore _ _ _ _ (by omega)]
      exact Table.get_set_same _ _ _ _
    · refine Eq.trans (List.map_congr_left fun k _ => ?_) htail
      exact congrArg (Table.get 0 _) (by rw [Nat.succ_eq_add_one]; omega)

theorem bytesOf_succ (x n : Nat) : bytesOf x (n + 1) = byteOf x 0 :: bytesOf (x / 256) n := by
  rw [bytesOf, List.range_succ_eq_map, List.map_cons, List.map_map]
  refine congrArg _ (List.map_congr_left fun k _ => ?_)
  simp only [Function.comp_apply, byteOf, Nat.succ_eq_add_one]
  rw [Nat.div_div_eq_div_mul, Nat.mul_succ, Nat.pow_add, Nat.mul_comm]

theorem natOf_bytesOf (x n : Nat) : natOf (bytesOf x n) = x % 2 ^ (8 * n) := by
  induction n generalizing x with
  | zero => exact (Nat.mod_one x).symm
  | succ n ih =>
    have hbyte : (byteOf x 0).toNat = x % 256 := by simp [byteOf]
    rw [bytesOf_succ, natOf, ih, hbyte, Nat.mul_succ, Nat.add_comm (8 * n), Nat.pow_add, Nat.mod_mul]

theorem meCompute_store {q : MeCmd} {w : MeWin} (h : q.op = 6) :
    natOf (readWin (meCompute q w).scratch q.dst (8 * q.na)) = w.acc / 2 ^ (64 * q.sh) % 2 ^ (64 * q.na) ∧ (meCompute q w).acc = w.acc := by
  have hc : meCompute q w = w.write q.dst (bytesOf (w.acc / 2 ^ (64 * q.sh)) (8 * q.na)) (fun _ => w.accTag) := by
    unfold meCompute
    rw [h]
    rfl
  have hread := readWin_writeWin w.scratch q.dst (bytesOf (w.acc / 2 ^ (64 * q.sh)) (8 * q.na))
  rw [bytesOf_length] at hread
  rw [hc]
  refine ⟨?_, rfl⟩
  rw [MeWin.write, hread, natOf_bytesOf, show 8 * (8 * q.na) = 64 * q.na by omega]

theorem meCompute_shift {q : MeCmd} {w : MeWin} (h : q.op = 7) (ha : w.acc < 2 ^ (64 * w.limbs - 1)) :
    (meCompute q w).acc = w.acc / 2 ^ (64 * q.sh) := by
  have hc : meCompute q w = { w with acc := unsigned (64 * w.limbs) (accInt w.limbs w.acc / 2 ^ (64 * q.sh)) } := by
    unfold meCompute
    rw [h]
    rfl
  have hdiv : (w.acc : Int) / 2 ^ (64 * q.sh) = (w.acc / 2 ^ (64 * q.sh) : Nat) := by
    rw [Int.natCast_ediv]
    simp
  rw [hc]
  dsimp only
  rw [accInt_of_lt ha, hdiv, unsigned_of_lt (Nat.lt_of_le_of_lt (Nat.div_le_self _ _) (lt_pow_of_lt_half ha))]

theorem meCompute_add {q : MeCmd} {w : MeWin} (h : q.op = 8) (hs : q.sub = false) {p : Nat}
    (hp : p = w.limbsAt q.opa q.na * w.limbsAt q.opb q.nb * 2 ^ (64 * q.sh)) (ha : w.acc + p < 2 ^ (64 * w.limbs - 1)) :
    (meCompute q w).acc = w.acc + p ∧ (meCompute q w).ovf = w.ovf := by
  have hc : ∃ t, meCompute q w = { w.setAcc (accInt w.limbs w.acc + ((p : Nat) : Int)) with accTag := t } := by
    unfold meCompute
    rw [h, hs, hp]
    exact ⟨_, rfl⟩
  obtain ⟨t, hc⟩ := hc
  have hsum : accInt w.limbs w.acc + ((p : Nat) : Int) = (w.acc + p : Nat) := by
    rw [accInt_of_lt (by omega), Int.natCast_add]
  rw [hc, hsum, setAcc_of_lt ha]
  exact ⟨rfl, rfl⟩

theorem meCompute_sub {q : MeCmd} {w : MeWin} (h : q.op = 9) (hs : q.sub = true) (hw : w.acc < 2 ^ (64 * w.limbs - 1)) {p : Nat}
    (hp : p = w.limbsAt q.opa q.na * q.limb.toNat * 2 ^ (64 * q.sh)) (ha : p ≤ w.acc) :
    (meCompute q w).acc = w.acc - p ∧ (meCompute q w).ovf = w.ovf := by
  have hc : ∃ t, meCompute q w = { w.setAcc (accInt w.limbs w.acc + -((p : Nat) : Int)) with accTag := t } := by
    unfold meCompute
    rw [h, hs, hp]
    exact ⟨_, rfl⟩
  obtain ⟨t, hc⟩ := hc
  have hdiff : accInt w.limbs w.acc + -((p : Nat) : Int) = (w.acc - p : Nat) := by
    rw [accInt_of_lt hw]
    omega
  rw [hc, hdiff, setAcc_of_lt (by omega)]
  exact ⟨rfl, rfl⟩

/-! ### A store to ME_CMD (R235–R237) -/

/-- The command as it is queued. -/
def meAsked (s : State) (c : Nat) (q : MeCmd) : MeCmd :=
  { q with order := (core s c).instret, since := s.time.ticks, unsent := s.pcie.d3hot,
           xfers := if q.op = 1 ∨ q.op = 2 then xferIds s q.len else [] }

/-- The state with the command queued and free units served. -/
def meQueued (s : State) (c k : Nat) (q : MeCmd) : State :=
  openGate (unitEngine (ringOf c) (engineOf s (ringOf c) k)) (meServe (ringOf c) (engineOf s (ringOf c) k)
    (setMeWin c k { meWin s c k with queue := (meWin s c k).queue ++ [meAsked s c q] } s))

/-- The bytes that the flits of a LOAD or STORE carry. -/
def meData (s : State) (c k : Nat) (t : Ticket) (q : MeCmd) : List Byte :=
  if q.op = 2 then (meWin s c k).read q.src q.len
  else if decide (q.op = 1 ∧ q.space = 2) then (inputBytes t q.src q.len none).getD []
  else match rangePlace s c q.src q.len false with
    | .ok p => readBytes (seenBeside s c) p q.len
    | .error _ => []

/-- A LOAD or STORE begins its transfer. -/
def meBegun (s : State) (c k : Nat) (t : Ticket) (q : MeCmd) : State :=
  if decide (q.op = 1 ∧ q.space = 2) then
    beginXfer hubStop (ringOf c) q.len (some t.id) (meData s c k t q) (askInput t q.src q.len (meQueued s c k q))
  else if decide (q.op = 2 ∧ q.space = 3) then beginXfer (ringOf c) hubStop q.len (some t.id) (meData s c k t q) (meQueued s c k q)
  else if q.op = 1 ∨ q.op = 2 then beginXfer (ringOf c) (ringOf c) q.len (some t.id) (meData s c k t q) (meQueued s c k q)
  else meQueued s c k q

theorem meCommand_queues {s : State} {c k : Nat} {v : W64} {t : Ticket} {q : MeCmd} (hq : meCmdOf (meWin s c k) v = q)
    (ht : ticketOn s c = some t) (hh : (meWin s c k).held = true) (h5 : field v.toNat 5 3 = 0) (h11 : field v.toNat 11 5 = 0)
    (h36 : field v.toNat 36 4 = 0) (h48 : field v.toNat 48 16 = 0) (hlegal : meLegal q (meWin s c k).limbs = true)
    (hr : ∀ r ∈ meRanges q, r.1 % 8 = 0 ∧ r.1 + r.2 ≤ 1024 * (meWin s c k).pages) (hlen : (meWin s c k).queue.length < 4)
    (h1 : q.op = 1 → spaceFails s c t q.space q.src q.len false = none ∧
      (q.space ≤ 1 → ∃ p, rangePlace s c q.src q.len false = .ok p ∧ anyShare s p q.len = false))
    (h2 : q.op = 2 → spaceFails s c t q.space q.dst q.len true = none) : meCommand c k v s = .ok (meBegun s c k t q) := by
  have hshare : ¬ (q.op = 1 ∧ q.space ≤ 1 ∧ q.len ≤ 16384 ∧ shareRange s c q.src q.len = true) := by
    rintro ⟨hop, hsp, -, hs⟩
    obtain ⟨p, hp, hn⟩ := (h1 hop).2 hsp
    simp [shareRange, hp, hn] at hs
  have hbad : ¬ ((meWin s c k).held = false ∨ field v.toNat 5 3 ≠ 0 ∨ field v.toNat 11 5 ≠ 0 ∨ field v.toNat 36 4 ≠ 0 ∨
      field v.toNat 48 16 ≠ 0 ∨ meLegal q (meWin s c k).limbs = false) := by simp [hh, h5, h11, h36, h48, hlegal]
  have hfind : (meRanges q).find? (fun r => r.1 % 8 != 0 || decide (1024 * (meWin s c k).pages < r.1 + r.2)) = none := by
    refine List.find?_eq_none.2 fun r hmem => ?_
    obtain ⟨ha, hb⟩ := hr r hmem
    simp [ha]
    omega
  have hout : (if q.op = 1 then spaceFails s c t q.space q.src q.len false
      else if q.op = 2 then spaceFails s c t q.space q.dst q.len true else none) = none := by
    split
    next h => exact (h1 h).1
    · split
      next h => exact h2 h
      · rfl
  unfold meCommand
  dsimp only
  rw [hq, if_neg hshare, if_neg hbad, hfind]
  dsimp only
  rw [ht]
  dsimp only
  rw [hout]
  dsimp only
  rw [if_neg (by omega), engineOf_meServe]
  unfold meBegun meData meQueued meAsked
  rfl

theorem meCommand_unclaimed {s : State} {c k : Nat} {v : W64} (hop : field v.toNat 0 4 = 4) (hh : (meWin s c k).held = false) :
    meCommand c k v s = .exc cAccess 0 := by
  unfold meCommand
  dsimp only
  rw [if_neg, if_pos (.inl hh)]
  rintro ⟨h, -⟩
  rw [show (meCmdOf (meWin s c k) v).op = field v.toNat 0 4 from rfl, hop] at h
  cases h

theorem meRow_of {s : State} {c k op : Nat} {v : W64} (hk : k < 4) (hop : field v.toNat 0 4 = op) :
    meRow op c k v s = windowRow c (meCommand c k v) s := if_pos ⟨hk, hop⟩

/-! ### Completion (R236, R238, R239) -/

theorem mePerform_computes {s : State} {c k : Nat} {q : MeCmd} (h : 3 ≤ q.op) :
    mePerform c k q s = some (setMeWin c k (meCompute q (meWin s c k)) s) := by
  unfold mePerform
  dsimp only
  split
  next h1 => omega
  next h2 => omega
  · rfl

theorem readBytes_bankWriteBy (port : Nat) (p : Place) (b : List Byte) (f : Nat → Tag) (s : State)
    (h : lastInTurn s port p b.length = true) : readBytes (bankWriteBy port p b f s) p b.length = b := by
  rw [bankWriteBy, readBytes_congr (readByte_congr (inTurn_last _ _ _ _ _ h)), readBytes_writeTaggedBy]

theorem readByte_bankWriteBy_outside (port : Nat) (p q : Place) (b : List Byte) (f : Nat → Tag) (s : State) (h : q.outside p b.length) :
    readByte (bankWriteBy port p b f s) q = readByte s q := by
  obtain hk | ho := keptOrOld_inTurn port p q b.length s (writeTaggedBy p b f s)
  · exact hk.trans (readByte_writeTaggedBy_outside p q b f s h)
  · exact ho

theorem mePerform_stores {s : State} {c k : Nat} {q : MeCmd} {t : Ticket} {p : Place} (hop : q.op = 2) (hsp : q.space ≤ 1)
    (ht : ticketOn s c = some t) (hp : rangePlace s c q.dst q.len true = .ok p)
    (hl : lastInTurn s (enginePort (engineOf s (ringOf c) k)) p q.len = true) :
    ∃ u, mePerform c k q s = some u ∧ readBytes u p q.len = (meWin s c k).read q.src q.len ∧
      (∀ x, Apart p q.len x → readByte u x = readByte s x) := by
  have hlen : ((meWin s c k).read q.src q.len).length = q.len := by simp [MeWin.read, readWin]
  have hu : mePerform c k q s = some (bankWriteBy (enginePort (engineOf s (ringOf c) k)) p ((meWin s c k).read q.src q.len)
      (fun j => (meWin s c k).lineTag (q.src + j)) (dropOld c p ((meWin s c k).read q.src q.len).length s)) := by
    unfold mePerform
    dsimp only
    rw [hop, ht]
    exact (if_neg (by omega)).trans (by rw [hp])
  refine ⟨_, hu, ?_, fun x hx => ?_⟩
  · have h := readBytes_bankWriteBy (enginePort (engineOf s (ringOf c) k)) p ((meWin s c k).read q.src q.len)
      (fun j => (meWin s c k).lineTag (q.src + j)) (dropOld c p ((meWin s c k).read q.src q.len).length s) (by rw [hlen]; exact hl)
    rwa [hlen] at h ⊢
  · exact readByte_bankWriteBy_outside _ _ _ _ _ _ (by rw [hlen]; exact outside_of_apart hx)

/-- A completed command leaves its window's queue, its unit is free, and the core has its event. -/
def meDone (c k : Nat) (l : List MeCmd) (s : State) : State :=
  meUnitFree c k (setMeWin c k { meWin s c k with queue := l, done := (meWin s c k).done + 1 } s)

theorem meCmdDone_completes {s s' : State} {c k : Nat} {q : MeCmd} {l : List MeCmd} (hq : (meWin s c k).queue = q :: l)
    (he : meExecutes (meServe (ringOf c) (engineOf s (ringOf c) k) s) c k = true)
    (hx : xfersDone (meServe (ringOf c) (engineOf s (ringOf c) k) s) q.xfers = true)
    (hp : mePerform c k q (meServe (ringOf c) (engineOf s (ringOf c) k) s) = some s') (hr : (meWin s' c k).releasing = false) :
    meCmdDone c k s = raiseEvent c (1 + engineOf (meDone c k l s') (ringOf c) k) (meDone c k l s') := by
  unfold meCmdDone
  dsimp only
  rw [meWin_meServe, hq]
  dsimp only
  rw [if_neg (by simp [he, hx]), hp]
  dsimp only
  rw [if_neg (by simp [hr])]
  rfl

theorem meCmdDone_waits {s : State} {c k : Nat} (h : meExecutes (meServe (ringOf c) (engineOf s (ringOf c) k) s) c k = false ∨
      ∃ q l, (meWin (meServe (ringOf c) (engineOf s (ringOf c) k) s) c k).queue = q :: l ∧
        xfersDone (meServe (ringOf c) (engineOf s (ringOf c) k) s) q.xfers = false) :
    meCmdDone c k s = meServe (ringOf c) (engineOf s (ringOf c) k) s := by
  unfold meCmdDone
  dsimp only
  cases hq : (meWin (meServe (ringOf c) (engineOf s (ringOf c) k) s) c k).queue with
  | nil => rfl
  | cons q l =>
    refine if_pos (h.imp id ?_)
    rintro ⟨q', l', he, hx⟩
    rw [hq] at he
    obtain ⟨rfl, rfl⟩ := List.cons.inj he
    exact hx

/-! ### The statement -/

theorem meRow_runs {mk : Nat → Nat → W64 → Instr} {op : Nat}
    (h : (mk = .meZero ∧ op = 3) ∨ (mk = .aclr ∧ op = 4) ∨ (mk = .aload ∧ op = 5) ∨ (mk = .astore ∧ op = 6) ∨ (mk = .ashr ∧ op = 7) ∨
      (mk = .meMac ∧ op = 8) ∨ (mk = .macl ∧ op = 9) ∨ (mk = .mrow ∧ op = 10) ∨ (mk = .meLoad ∧ op = 1) ∨ (mk = .meStore ∧ op = 2))
    (c k : Nat) (v : W64) (s : State) : exec (mk c k v) s = .next (meRow op c k v s) := by
  rcases h with ⟨rfl, rfl⟩ | ⟨rfl, rfl⟩ | ⟨rfl, rfl⟩ | ⟨rfl, rfl⟩ | ⟨rfl, rfl⟩ | ⟨rfl, rfl⟩ | ⟨rfl, rfl⟩ | ⟨rfl, rfl⟩ | ⟨rfl, rfl⟩ | ⟨rfl, rfl⟩
  all_goals rfl

theorem meAsked_eq {s : State} {c op : Nat} {q : MeCmd} (h : q.op = op) (h1 : 1 ≤ op) : meAsked s c q = { q with
    order := (core s c).instret, since := s.time.ticks, unsent := s.pcie.d3hot, xfers := if op ≤ 2 then xferIds s q.len else [] } := by
  have hiff : (q.op = 1 ∨ q.op = 2) ↔ op ≤ 2 := by omega
  unfold meAsked
  simp only [hiff]

theorem meBegun_computes {s : State} {c k : Nat} (t : Ticket) {q : MeCmd} (h : 3 ≤ q.op) : meBegun s c k t q = meQueued s c k q := by
  unfold meBegun
  rw [if_neg (by simp; omega), if_neg (by simp; omega), if_neg (by omega)]

theorem meBegun_input {s : State} {c k : Nat} (t : Ticket) {q : MeCmd} (h : q.op = 1) (hs : q.space = 2) : meBegun s c k t q =
    beginXfer hubStop (ringOf c) q.len (some t.id) ((inputBytes t q.src q.len none).getD []) (askInput t q.src q.len (meQueued s c k q)) := by
  unfold meBegun meData
  rw [if_pos (by simp [h, hs]), if_neg (by omega), if_pos (by simp [h, hs])]

theorem meBegun_load {s : State} {c k : Nat} (t : Ticket) {q : MeCmd} {p : Place} (h : q.op = 1) (hs : q.space ≤ 1)
    (hp : rangePlace s c q.src q.len false = .ok p) : meBegun s c k t q =
    beginXfer (ringOf c) (ringOf c) q.len (some t.id) (readBytes (seenBeside s c) p q.len) (meQueued s c k q) := by
  unfold meBegun meData
  rw [if_neg (by simp; omega), if_neg (by simp; omega), if_pos (.inl h), if_neg (by omega), if_neg (by simp; omega), hp]

theorem meBegun_store {s : State} {c k : Nat} (t : Ticket) {q : MeCmd} (h : q.op = 2) : meBegun s c k t q =
    beginXfer (ringOf c) (if q.space = 3 then hubStop else ringOf c) q.len (some t.id) ((meWin s c k).read q.src q.len)
      (meQueued s c k q) := by
  unfold meBegun meData
  rw [if_neg (by simp; omega), if_pos h]
  by_cases hs : q.space = 3
  · rw [if_pos (by simp [h, hs]), if_pos hs]
  · rw [if_neg (by simp [hs]), if_pos (.inr h), if_neg hs]

theorem execMeCmdDone_live {s : State} {c k : Nat} (hl : Live s) (hk : k < 4) : Runs (.meCmdDone c k) s (meCmdDone c k s) :=
  congrArg Host.Outcome.next ((unlessLocked_live hl).trans (if_pos hk))

/-- Settles O35: claims by their checks and the head of the queue, commands by what is queued, and results by the arithmetic. -/
theorem maelhoavoClaimsAndCommands : Obligations.MaelhoavoClaimsAndCommands := by
  unfold Obligations.MaelhoavoClaimsAndCommands
  refine ⟨⟨?_, ?_, ?_, ?_, ?_⟩, ⟨?_, ?_⟩, ?_, ?_, ?_, ?_, ?_, ?_, ?_, ?_, ?_, ?_, ?_⟩
  · intro s c k v hi hk h1 h2 h3 h4 h5 h6 hh hp
    exact congrArg Host.Outcome.next ((if_pos ⟨hk, by omega⟩).trans (windowRow_ok hi (claimWrite_claims h1 h2 h3 h4 h5 h6 hh hp)))
  · intro s r e c k p l rest hl hq hr hp hpages hlimbs
    exact ⟨_, congrArg Host.Outcome.next (unlessLocked_live hl), claimGrant_grants hq hr hp hpages hlimbs⟩
  · intro s r e c k p l rest hl hq hp h
    exact congrArg Host.Outcome.next ((unlessLocked_live hl).trans (claimGrant_waits hq hp h))
  · intro s c k v hi hk h0 h6 hh hq
    have h5 : field v.toNat 0 5 = 0 := by
      simp only [field] at h0 ⊢
      omega
    exact congrArg Host.Outcome.next ((if_pos ⟨hk, h5⟩).trans (windowRow_ok hi (claimWrite_releases h0 h6 hh hq)))
  · intro s r e c p l i rest hl hq
    dsimp only
    refine ⟨?_, ?_⟩
    · rintro rfl
      refine congrArg Host.Outcome.next ((unlessLocked_live hl).trans ?_)
      dsimp only
      rw [hq]
    · rintro n rfl
      refine congrArg Host.Outcome.next ((unlessLocked_live hl).trans ?_)
      dsimp only
      rw [hq]
  · intro mk op hmk s c k v t hi hk hop ht
    dsimp only
    intro hh h5 h11 h36 h48 hlegal hr hlen h1 h2
    have hop1 : 1 ≤ op := by omega
    have hqop : (meCmdOf (meWin s c k) v).op = op := hop
    have hrun : Runs (mk c k v) s (after c s (meBegun s c k t (meCmdOf (meWin s c k) v)) ((core s c).pc + 4)) :=
      (meRow_runs hmk c k v s).trans (congrArg _ ((meRow_of hk hop).trans (windowRow_ok hi
        (meCommand_queues rfl ht hh h5 h11 h36 h48 hlegal hr hlen (fun h => h1 (hqop ▸ h)) (fun h => h2 (hqop ▸ h))))))
    rw [← meAsked_eq (s := s) (c := c) hqop hop1]
    refine ⟨fun h => ?_, fun h hs => ?_, fun h hs p hp => ?_, fun h => ?_⟩
    · rwa [meBegun_computes t (by omega)] at hrun
    · rwa [meBegun_input t (hqop.trans h) hs] at hrun
    · rwa [meBegun_load t (hqop.trans h) hs hp] at hrun
    · rwa [meBegun_store t (hqop.trans h)] at hrun
  · intro s c k v hi hs hk hop hh
    exact congrArg Host.Outcome.next ((meRow_of hk hop).trans (windowRow_exc hi hs (meCommand_unclaimed hop hh)))
  · intro s s' c k q l hl hk hq
    dsimp only
    intro he hx hp hr
    exact (execMeCmdDone_live hl hk).trans (congrArg _ (meCmdDone_completes hq he hx hp hr))
  · intro s c k hl hk
    dsimp only
    exact fun h => (execMeCmdDone_live hl hk).trans (congrArg _ (meCmdDone_waits h))
  · exact fun s r e hm hd => meServe_busy s r e hm hd
  · exact fun s c k q h => mePerform_computes h
  · exact fun s c k q t p hop hsp ht hp hl => mePerform_stores hop hsp ht hp hl
  · intro q w h
    unfold meCompute
    rw [h]
    rfl
  · intro q w h
    unfold meCompute
    rw [h]
    exact ⟨rfl, rfl, rfl⟩
  · exact fun q w h _ => meCompute_store h
  · exact fun q w h ha _ => meCompute_shift h ha
  · intro q w h hs _
    exact meCompute_add h hs rfl
  · intro q w h hs _ hw
    exact meCompute_sub h hs hw rfl

end Sys2Proof.Machine
end

section
/-!
SUPPORT. The block-cipher engines (R260–R266): which commands queue, and what each command leaves.
-/
namespace Sys2Proof.Machine

open Sys2Proof

theorem bcEng_setBcEng (c e : Nat) (g : BcEng) (s : State) : bcEng (setBcEng c e g s) c e = g := Table.get_set_same _ _ _ _

/-! ### A store to BC_CMD (R264) -/

/-- The command that a value stored to BC_CMD means. -/
def bcCmdOf (s : State) (c e : Nat) (v : W64) : BcCmd :=
  { op := field v.toNat 0 4, kr := field v.toNat 8 2, ks := field v.toNat 12 2, mode := field v.toNat 16 4,
    param := field v.toNat 20 4, src := (bcEng s c e).src.toNat, dst := (bcEng s c e).dst.toNat, len := (bcEng s c e).len.toNat,
    aux := (bcEng s c e).aux.toNat }

/-- A command whose bytes hold no share, whose fields are defined and whose registers fit passes the first checks. -/
structure BcFits (s : State) (c e : Nat) (v : W64) (q : BcCmd) : Prop where
  reserved : field v.toNat 4 4 = 0 ∧ field v.toNat 10 2 = 0 ∧ field v.toNat 14 2 = 0 ∧ field v.toNat 24 40 = 0
  defined : bcDefined e q.op q.mode q.param = true
  keys : bcKeysOk e q.op q.param (krAt (bcEng s c e).view q.kr) (krAt (bcEng s c e).view q.ks) = true
  blocks : (q.op = 4 ∨ q.op = 5) → q.len % blockBytes e = 0
  short : q.len ≤ 4194304
  pin : (q.op = 7 ∨ q.op = 8 ∨ q.op = 9) → q.len = 0
  load : q.op = 1 → (keyGrantAt s c q.src).isSome = true ∧ ∃ k, bcLoad s c q = some k ∧ (engineHas e k.alg = true ∨ k.kind = 2)
  src : q.op ≠ 1 → rangeFails s c q.src (bcSrcLen e q) false = none
  aux : rangeFails s c q.aux (bcAuxLen e q) false = none
  dst : rangeFails s c q.dst (bcDstLen e q (krAt (bcEng s c e).view q.ks)) true = none
  noShare : ∀ p, bcSrcLen e q ≠ 0 → rangePlace s c q.src (bcSrcLen e q) false = .ok p → anyShare s p (bcSrcLen e q) = false
  room : (bcEng s c e).queue.length < 4

/-- The length that R264 refuses. -/
def bcLenBad (e : Nat) (q : BcCmd) : Bool :=
  match q.op with
  | 4 | 5 => q.len % blockBytes e != 0 || 4194304 < q.len
  | 7 | 8 | 9 => q.len != 0
  | 6 | 10 | 11 => decide (4194304 < q.len)
  | _ => false

theorem bcLenBad_false {e : Nat} {q : BcCmd} (hb : (q.op = 4 ∨ q.op = 5) → q.len % blockBytes e = 0) (hs : q.len ≤ 4194304)
    (hp : (q.op = 7 ∨ q.op = 8 ∨ q.op = 9) → q.len = 0) : bcLenBad e q = false := by
  unfold bcLenBad
  split
  next h => simp [hb (.inl h), hs]
  next h => simp [hb (.inr h), hs]
  next h => simp [hp (.inl h)]
  next h => simp [hp (.inr (.inl h))]
  next h => simp [hp (.inr (.inr h))]
  next => simp [hs]
  next => simp [hs]
  next => simp [hs]
  next => rfl

theorem shareRange_false {s : State} {c a n : Nat} (h : ∀ p, n ≠ 0 → rangePlace s c a n false = .ok p → anyShare s p n = false) :
    shareRange s c a n = false := by
  unfold shareRange
  cases hp : rangePlace s c a n false with
  | error _ => exact Bool.and_false _
  | ok p =>
    by_cases hn : n = 0
    · simp [hn]
    · simp [h p hn hp]

/-- The address at which the source of a command fails: LDKEY's where no grant starts. -/
def bcSource (s : State) (c e : Nat) (q : BcCmd) : Option W64 :=
  if q.op = 1 then (if (keyGrantAt s c q.src).isSome then none else some (bcEng s c e).src)
  else rangeFails s c q.src (bcSrcLen e q) false

theorem bcSource_none {s : State} {c e : Nat} {q : BcCmd}
    (hl : q.op = 1 → (keyGrantAt s c q.src).isSome = true ∧ ∃ k, bcLoad s c q = some k ∧ (engineHas e k.alg = true ∨ k.kind = 2))
    (hs : q.op ≠ 1 → rangeFails s c q.src (bcSrcLen e q) false = none) : bcSource s c e q = none := by
  unfold bcSource
  split
  next ho => exact if_pos (hl ho).1
  next ho => exact hs ho

/-- LDKEY of a key that the engine cannot use. -/
def bcForeign (s : State) (c e : Nat) (q : BcCmd) : Bool :=
  q.op == 1 && (match bcLoad s c q with
    | none => true
    | some k => !engineHas e k.alg && k.kind != 2)

theorem bcForeign_false {s : State} {c e : Nat} {q : BcCmd}
    (hl : q.op = 1 → (keyGrantAt s c q.src).isSome = true ∧ ∃ k, bcLoad s c q = some k ∧ (engineHas e k.alg = true ∨ k.kind = 2)) :
    bcForeign s c e q = false := by
  unfold bcForeign
  by_cases ho : q.op = 1
  · obtain ⟨-, k, hk, hfit⟩ := hl ho
    rw [hk]
    rcases hfit with hfit | hfit
    · simp [hfit]
    · simp [hfit]
  · simp [ho]

theorem bcCommand_queues {s : State} {c e : Nat} {v : W64} {q : BcCmd} (hq : bcCmdOf s c e v = q) (h : BcFits s c e v q) :
    bcCommand c e v s = .ok (openGate (unitEngine (ringOf c) (6 + e)) (setBcEng c e { bcEng s c e with
      queue := (bcEng s c e).queue ++ [{ q with load := bcLoad s c q }],
      view := bcView { q with load := bcLoad s c q } (bcEng s c e).view } s)) := by
  have hshare := shareRange_false h.noShare
  have hlen := bcLenBad_false h.blocks h.short h.pin
  obtain ⟨h4, h10, h14, h24⟩ := h.reserved
  have hsource := bcSource_none h.load h.src
  have hforeign := bcForeign_false h.load
  have hdst := h.dst
  have haux := h.aux
  subst hq
  unfold bcCommand
  refine (if_neg ?_).trans ((if_neg ?_).trans ?_)
  · exact fun hbad => Bool.false_ne_true (hshare.symm.trans hbad.2)
  · rintro (hb | hb | hb | hb | hb | hb | hb)
    · exact hb h4
    · exact hb h10
    · exact hb h14
    · exact hb h24
    · exact Bool.false_ne_true (hb.symm.trans h.defined)
    · exact Bool.false_ne_true (hb.symm.trans h.keys)
    · exact Bool.false_ne_true (hlen.symm.trans hb)
  · dsimp only
    split
    next hb => cases hsource.symm.trans hb
    next _ hb => cases haux.symm.trans hb
    next _ _ hb => cases hdst.symm.trans hb
    refine (if_neg ?_).trans (if_neg (Nat.not_le.2 h.room))
    exact fun hbad => Bool.false_ne_true (hforeign.symm.trans hbad)

/-- ENC without a key in its register. -/
theorem bcCommand_keyless {s : State} {c e : Nat} {v : W64} (hop : field v.toNat 0 4 = 4)
    (hs : shareRange s c (bcEng s c e).src.toNat (bcEng s c e).len.toNat = false)
    (hk : krAt (bcEng s c e).view (field v.toNat 8 2) = none) : bcCommand c e v s = .exc cAccess 0 := by
  have hkeys : bcKeysOk e (field v.toNat 0 4) (field v.toNat 20 4) (krAt (bcEng s c e).view (field v.toNat 8 2))
      (krAt (bcEng s c e).view (field v.toNat 12 2)) = false := by
    rw [hop, hk]
    rfl
  have hlen : bcSrcLen e (bcCmdOf s c e v) = (bcEng s c e).len.toNat := by
    unfold bcSrcLen bcCmdOf
    rw [hop]
    rfl
  have hshare : shareRange s c (bcEng s c e).src.toNat (bcSrcLen e (bcCmdOf s c e v)) = false := by rw [hlen, hs]
  unfold bcCommand
  refine (if_neg ?_).trans (if_pos ?_)
  · exact fun hbad => Bool.false_ne_true (hshare.symm.trans hbad.2)
  · exact .inr (.inr (.inr (.inr (.inr (.inl hkeys)))))

theorem bcRow_of {s : State} {c e op : Nat} {v : W64} (he : e < 2) (hop : field v.toNat 0 4 = op) :
    bcRow op c e v s = windowRow c (bcCommand c e v) s := if_pos ⟨he, hop⟩

/-! ### The commands at their end (R263, R265) -/

theorem bcPerform_clrkey {s : State} {c e : Nat} {q : BcCmd} (h : q.op = 2) : bcPerform c e q s =
    some (setBcEng c e { bcEng s c e with kr := Table.set none (bcEng s c e).kr q.kr none } s) := by
  unfold bcPerform
  rw [h]
  rfl

theorem bcPerform_pinfmt_waits {s : State} {c e : Nat} {q : BcCmd} (h : q.op = 8) (ha : drbgAnswer s (.pinfmt c e) = none) :
    bcPerform c e q s = none := by
  unfold bcPerform
  rw [h, ha]
  rfl

/-- The class of what ENC and DEC write. -/
def bcTag (s : State) (c e : Nat) (q : BcCmd) : Tag :=
  bcClass q ((krAt (bcEng s c e).kr q.kr).getD { alg := 0, usage := 0 }) ((krAt (bcEng s c e).kr q.ks).getD { alg := 0, usage := 0 })
    (engineRead s c q.src (bcSrcLen e q)).2 (engineRead s c q.aux (bcAuxLen e q)).2

theorem blockOp_length (enc : Bool) (e : Nat) (key b : List Byte) : (blockOp enc e key b).length = blockBytes e :=
  bytesFrom_length _ _

theorem blockBytes_pos (e : Nat) : 0 < blockBytes e := by
  unfold blockBytes
  split
  all_goals decide

/-- A block of data is enciphered by itself. -/
theorem ecb_block (enc : Bool) (e : Nat) (key b : List Byte) (h : b.length = blockBytes e) : ecb enc e key b = blockOp enc e key b := by
  have hone : chunks (blockBytes e) b = [b] := by
    have hn : 0 < b.length := h ▸ blockBytes_pos e
    simp [chunks, ← h, Nat.div_self hn, slice]
  rw [ecb, hone]
  simp

/-- ENC or DEC of one block. -/
theorem bcPerform_block {s : State} {c e : Nat} {q : BcCmd} {k : KeyReg} {p : Place} {enc : Bool}
    (h : q.op = if enc then 4 else 5) (hm : q.mode = 0) (hk : krAt (bcEng s c e).kr q.kr = some k) (hn : q.len = blockBytes e)
    (hp : rangePlace s c q.src q.len false = .ok p) : bcPerform c e q s = some (engineWrite c (6 + e) q.dst
      (blockOp enc e k.key (readBytes (seenBeside s c) p q.len)) (bcTag s c e q) s) := by
  have hread : (engineRead s c q.src (bcSrcLen e q)).1 = readBytes (seenBeside s c) p q.len := by
    have hlen : bcSrcLen e q = q.len := by
      unfold bcSrcLen
      cases enc with
      | true => rw [h]; rfl
      | false => rw [h]; rfl
    rw [hlen, engineRead, hp]
  have hone := ecb_block enc e k.key (readBytes (seenBeside s c) p q.len) (by simp [readBytes, hn])
  have hkr : ((krAt (bcEng s c e).kr q.kr).getD { alg := 0, usage := 0 }).key = k.key := by rw [hk]; rfl
  rw [← hone, ← hread, ← hkr]
  unfold bcPerform
  cases enc with
  | true => rw [h]; exact congrArg some (by rw [if_pos hm]; rfl)
  | false => rw [h]; exact congrArg some (by rw [if_pos hm]; rfl)

theorem bcPerform_writes {s : State} {c e : Nat} {q : BcCmd} {k : KeyReg} {p r : Place} {enc : Bool} (he : e < 2)
    (h : q.op = if enc then 4 else 5) (hm : q.mode = 0) (hk : krAt (bcEng s c e).kr q.kr = some k) (hn : q.len = blockBytes e)
    (hp : rangePlace s c q.src q.len false = .ok p) (hr : rangePlace s c q.dst q.len true = .ok r)
    (hl : lastInTurn s (22 + e) r q.len = true) :
    ∃ t, bcPerform c e q s = some t ∧
      readBytes t r q.len = (List.range q.len).map (Config.cipher enc e k.key (readBytes (seenBeside s c) p q.len)) ∧
      (∀ x, Apart r q.len x → readByte t x = readByte s x) := by
  have hlen := (blockOp_length enc e k.key (readBytes (seenBeside s c) p q.len)).trans hn.symm
  have hport : enginePort (6 + e) = 22 + e := by unfold enginePort; omega
  have hperf := bcPerform_block h hm hk hn hp
  rw [engineWrite_at (by rw [hlen]; exact hr), hport, hlen] at hperf
  have hblock : blockOp enc e k.key (readBytes (seenBeside s c) p q.len) =
      (List.range q.len).map (Config.cipher enc e k.key (readBytes (seenBeside s c) p q.len)) := by rw [hn]; rfl
  refine ⟨_, hperf, ?_, fun x hx => ?_⟩
  · have hb := readBytes_bankWrite (22 + e) (blockOp enc e k.key (readBytes (seenBeside s c) p q.len)) (bcTag s c e q) r
      (dropOld c r q.len s) (by rw [hlen]; exact hl)
    rw [hlen] at hb
    exact hb.trans hblock
  · exact readByte_bankWrite_outside _ _ _ _ _ _ (by rw [hlen]; exact outside_of_apart hx)

/-- Only the rows of R181 and R265 give a class other than SECRET. -/
theorem bcClass_public {q : BcCmd} {kr ks : KeyReg} {src aux : Tag} (h : bcClass q kr ks src aux ≠ .secret) :
    (bcClass q kr ks src aux = .cipher ∧ 4 ≤ q.op ∧ q.op ≤ 6 ∧ src = .pub) ∨
    (bcClass q kr ks src aux = .pinf ∧ (q.op = 7 ∨ q.op = 8) ∧ kr.usage = 1) ∨
    (bcClass q kr ks src aux = .pinblk ∧ q.op = 9 ∧ kr.usage = 1 ∧ src = .pinf) ∨
    (bcClass q kr ks src aux = .wrapped ∧ q.op = 10 ∧ kr.usage = 6 ∧ src = .pub) := by
  unfold bcClass at h ⊢
  dsimp only at h ⊢
  split at h
  all_goals first | (exact absurd rfl h) | skip
  all_goals
    rename_i hop
    split at h
    next hc => simp [hc, hop]
    next => exact absurd rfl h

theorem bcCmdDone_completes {s s' : State} {c e : Nat} {q : BcCmd} {l : List BcCmd} (hl : Live s) (he : e < 2)
    (hq : (bcEng s c e).queue = q :: l) (hp : bcPerform c e q s = some s') :
    Runs (.bcCmdDone c e) s (raiseEvent c (7 + e) (setBcEng c e { bcEng s' c e with
      queue := l, done := (bcEng s' c e).done + 1 } s')) := by
  refine congrArg Host.Outcome.next ((unlessLocked_live hl).trans ?_)
  dsimp only
  rw [hq]
  dsimp only
  rw [if_pos he, hp]

/-- Settles O37: the store by its checks, each command by what it performs, and the class of its result by its OP. -/
theorem blockCipherCommandsQueueAndComplete : Obligations.BlockCipherCommandsQueueAndComplete := by
  unfold Obligations.BlockCipherCommandsQueueAndComplete
  refine ⟨⟨?_, ?_⟩, fun s s' c e q l hl he hq hp => bcCmdDone_completes hl he hq hp, ?_, ?_, ?_,
    fun s c e q h ha => bcPerform_pinfmt_waits h ha, fun q kr ks src aux h => bcClass_public h⟩
  · intro mk op hmk s c e v hi he hop
    subst hop
    dsimp only
    intro h4 h10 h14 h24 hdef hkeys hblk hshort hpin hload hsrc haux hdst hshare hroom
    have hrow : exec (mk c e v) s = .next (bcRow (field v.toNat 0 4) c e v s) := by
      rcases hmk with ⟨rfl, h⟩ | ⟨rfl, h⟩ | ⟨rfl, h⟩ | ⟨rfl, h⟩ | ⟨rfl, h⟩ | ⟨rfl, h⟩ | ⟨rfl, h⟩ | ⟨rfl, h⟩ | ⟨rfl, h⟩ | ⟨rfl, h⟩ | ⟨rfl, h⟩
      all_goals
        rw [h]
        rfl
    exact hrow.trans (congrArg _ ((bcRow_of he rfl).trans (windowRow_ok hi (bcCommand_queues rfl
      ⟨⟨h4, h10, h14, h24⟩, hdef, hkeys, hblk, hshort, hpin, hload, hsrc, haux, hdst, hshare, hroom⟩))))
  · intro s c e v hi hs he hop hshare hk
    exact congrArg Host.Outcome.next ((bcRow_of he hop).trans (windowRow_exc hi hs (bcCommand_keyless hop hshare hk)))
  · intro s c e q h
    refine ⟨_, bcPerform_clrkey h, ?_, fun k hk => ?_, rfl⟩
    · rw [bcEng_setBcEng]
      exact Table.get_set_same none (bcEng s c e).kr q.kr none
    · rw [bcEng_setBcEng]
      exact Table.get_set_other none (bcEng s c e).kr none hk
  · intro s c e q k p r he hop hm hk hn hp hr hl
    exact bcPerform_writes (enc := true) he hop hm hk hn hp hr hl
  · intro s c e q k p r he hop hm hk hn hp hr hl
    obtain ⟨t, ht, hb, -⟩ := bcPerform_writes (enc := false) he hop hm hk hn hp hr hl
    exact ⟨t, ht, hb⟩

end Sys2Proof.Machine
end

section
/-!
SUPPORT. The act store and the patches (R123–R128, R165–R172): what a load, an unload and a broadcast change.
-/
namespace Sys2Proof.Machine

open Sys2Proof

/-! ### The act store's frame -/

/-- The states differ in the act store and the memory alone. -/
def ActFrame (s t : State) : Prop := ∃ a m b, t = { s with acts := a, mem := m, fabric := b }

theorem MemFrame.actFrame {s t : State} (h : MemFrame s t) : ActFrame s t := by
  obtain ⟨m, b, rfl⟩ := h
  exact ⟨s.acts, m, b, rfl⟩

theorem ActFrame.trans {s t u : State} (h : ActFrame s t) (h' : ActFrame t u) : ActFrame s u := by
  obtain ⟨a, m, b, rfl⟩ := h
  obtain ⟨a', m', b', rfl⟩ := h'
  exact ⟨a', m', b', rfl⟩

theorem actFrame_setActs (s : State) (a : Acts) : ActFrame s { s with acts := a } := ⟨a, s.mem, s.fabric, rfl⟩

theorem sweepActs_actFrame (s : State) : ActFrame s (sweepActs s) :=
  (MemFrame.foldl (fun s _ => MemFrame.foldl (fun s _ => unwrite_memFrame _ _ s) _ s) _ s).actFrame.trans (actFrame_setActs _ _)

/-- The act's code in the act store of every ring that is up. -/
def storedInRings (a : Act) (s : State) : State :=
  (List.range (ringCount s)).foldl (fun s r => if bit s.boot.ringUp r then storeAct a r s else s) s

theorem storedInRings_memFrame (a : Act) (s : State) : MemFrame s (storedInRings a s) := by
  refine MemFrame.foldl (fun s r => ?_) _ _
  split
  · exact writeTagged_memFrame _ _ _ s
  · exact .refl s

theorem installAct_actFrame {h : ActHeader} {iid : Option Nat} {code : List Byte} {wish : Nat} {s t : State}
    (hi : installAct h iid code wish s = some t) : ActFrame s t := by
  unfold installAct at hi
  split at hi
  · cases hi
  · obtain ⟨off, -, rfl⟩ := Option.map_eq_some_iff.1 hi
    exact ((actFrame_setActs s _).trans (storedInRings_memFrame _ _).actFrame).trans (sweepActs_actFrame _)

/-! ### UNLOAD (R125) -/

/-- The device acts of a number are closed to admission. -/
def closeActs (n : Half) (l : List Act) : List Act := l.map (fun a => if a.number = n ∧ a.iid = none then { a with enabled := false } else a)

/-- The act of a device number that is open to admission. -/
def openAct (n : Half) (a : Act) : Bool := a.number == n && a.iid.isNone && a.enabled

theorem openAct_closed_same (n : Half) (l : List Act) : (closeActs n l).find? (openAct n) = none := by
  refine List.find?_eq_none.2 fun a ha => ?_
  obtain ⟨b, -, rfl⟩ := List.mem_map.1 ha
  split
  next h => simp [openAct]
  next h =>
    intro ho
    simp only [openAct, Bool.and_eq_true, beq_iff_eq, Option.isNone_iff_eq_none] at ho
    exact h ho.1

theorem openAct_closed_other {n m : Half} (hm : m ≠ n) (l : List Act) : (closeActs n l).find? (openAct m) = l.find? (openAct m) := by
  induction l with
  | nil => rfl
  | cons a l ih =>
    unfold closeActs at ih ⊢
    rw [List.map_cons]
    by_cases h : a.number = n ∧ a.iid = none
    · have hno : (a.number == m) = false := by simpa [h.1] using hm.symm
      rw [if_pos h, List.find?_cons_of_neg (by simp [openAct]), List.find?_cons_of_neg (by simp [openAct, hno]), ih]
    · rw [if_neg h, List.find?_cons, List.find?_cons, ih]

theorem unload_closes {s : State} (n : Half) (h : Writable s) (hb : s.acts.busy = false) :
    Runs (.unload n) s { s with
      acts := { s.acts with
        loadAct := n
        busy := true
        unloading := some n
        result := if (deviceAct s n).isSome then 0 else 6
        acts := closeActs n s.acts.acts } } :=
  congrArg Host.Outcome.next ((hostWrite_writable h).trans (if_neg (by simp [hb])))

/-! ### ACT_LOAD_DONE (R125, R452) -/

/-- The signer that the image in the load window names. -/
def windowSigner (s : State) : Nat := natOf (readWin s.mem.loadWin 35 1)

theorem leAt_readWin (t : Table Byte) {n k : Nat} (h : k < n) : leAt (readWin t 0 n) k 1 = natOf (readWin t k 1) := by
  simp [leAt, readWin, h]

/-- The header and the image as firmware reads them. -/
def windowImage (s : State) : List Byte :=
  let h := actHeader (readWin s.mem.loadWin 0 64)
  if h.code + h.ro ≤ 0x20000 then readWin s.mem.loadWin 0 (64 + h.code + h.ro + 4) else readWin s.mem.loadWin 0 64

theorem windowImage_signer (s : State) : (actHeader (windowImage s)).signer = windowSigner s := by
  unfold windowImage
  dsimp only
  split
  · exact leAt_readWin _ (by omega)
  · exact leAt_readWin _ (by omega)

/-- What a load leaves: a code of failure and nothing changed, or an act installed whose root is locked, permitted and verifies. -/
def LoadEnds (p v : Bool) (signer : Nat) (s : State) (r : Byte × State) : Prop :=
  r.1 ≠ 0 ∧ r.2 = s ∨ r.1 = 0 ∧ ActFrame s r.2 ∧ p = true ∧ v = true ∧ actRootLocked s signer = true

theorem loadEnds_fails {p v : Bool} {signer : Nat} {s : State} {r : Byte} (h : r ≠ 0) : LoadEnds p v signer s (r, s) := .inl ⟨h, rfl⟩

theorem actLoadOutcome_ends (p v : Bool) (off : Nat) (s : State) : LoadEnds p v (windowSigner s) s (actLoadOutcome p v off s) := by
  rw [← windowImage_signer]
  unfold actLoadOutcome windowImage
  dsimp only
  generalize (if (actHeader (readWin s.mem.loadWin 0 64)).code + (actHeader (readWin s.mem.loadWin 0 64)).ro ≤ 0x20000 then _ else _) = l
  split
  · exact loadEnds_fails (by decide)
  split
  · exact loadEnds_fails (by decide)
  split
  · exact loadEnds_fails (by decide)
  split
  · exact loadEnds_fails (by decide)
  split
  · exact loadEnds_fails (by decide)
  next hroot hver _ =>
    split
    · exact loadEnds_fails (by decide)
    next hi =>
      have hroot' := Bool.and_eq_true_iff.1 (eq_true_of_ne_false hroot)
      exact .inr ⟨rfl, installAct_actFrame hi, hroot'.2, eq_true_of_ne_false hver, hroot'.1⟩

theorem actLoadDone_loads {s : State} (p v : Bool) (off : Nat) (hl : Live s) (hb : s.acts.busy = true) (hm : s.mgmt.held = false)
    (hu : s.acts.unloading = none) : Runs (.actLoadDone p v off) s { (actLoadOutcome p v off s).2 with
      acts := { (actLoadOutcome p v off s).2.acts with busy := false, result := (actLoadOutcome p v off s).1 } } := by
  refine congrArg Host.Outcome.next ((unlessLocked_live hl).trans ?_)
  dsimp only
  rw [if_neg (by simp [hb, hm]), hu]

theorem actLoadDone_unloads {s : State} (p v : Bool) (off : Nat) {n : Half} (hl : Live s) (hb : s.acts.busy = true)
    (hm : s.mgmt.held = false) (hu : s.acts.unloading = some n) :
    Runs (.actLoadDone p v off) s (sweepActs { s with acts := { s.acts with busy := false, unloading := none } }) := by
  refine congrArg Host.Outcome.next ((unlessLocked_live hl).trans ?_)
  dsimp only
  rw [if_neg (by simp [hb, hm]), hu]

/-! ### Patches (R171, R172) -/

theorem loadBusy_iff (s : State) : loadBusy s = true ↔ s.acts.busy = true ∨ s.patch.busy = true := by simp [loadBusy]

theorem leAt_lt (l : List Byte) (off n : Nat) : leAt l off n < 2 ^ (8 * n) := by
  have h := natOf_lt ((List.range n).map (fun k => l.getD (off + k) 0))
  simpa [leAt] using h

/-- An accepted image passed every check of R171, and its version is above every earlier one. -/
theorem patchCheck_accepts {l : List Byte} {k v : Bool} {s : State} {n : Half} {ram : Table (BitVec 160)} {ms : Table W32}
    (h : patchCheck l k v s = .inr (n, ram, ms)) :
    k = true ∧ v = true ∧ patchRootLocked s = true ∧ s.patch.highest.toNat < n.toNat := by
  have hsmall : (patchHeader l).version < 2 ^ 16 := leAt_lt l 6 2
  unfold patchCheck at h
  dsimp only at h
  split at h
  · cases h
  split at h
  · cases h
  split at h
  · cases h
  split at h
  · cases h
  split at h
  · cases h
  split at h
  · cases h
  split at h
  · cases h
  next hroot hver hhigh _ _ =>
    cases h
    have hroot' := Bool.and_eq_true_iff.1 (eq_true_of_ne_false hroot)
    refine ⟨hroot'.2, eq_true_of_ne_false hver, hroot'.1, ?_⟩
    rw [BitVec.toNat_ofNat, Nat.mod_eq_of_lt hsmall]
    omega

theorem patchLoad_checks {s : State} (k v : Bool) (h : Writable s) (ha : s.acts.busy = false) (hp : s.patch.busy = false)
    (hs : s.fc.snet = false) {x : Byte ⊕ (Half × Table (BitVec 160) × Table W32)}
    (hx : patchCheck (readWin s.mem.loadWin 0 2708) k v s = x) :
    Runs (.patchLoad k v) s (match x with
      | .inl r => { s with patch := { s.patch with result := r } }
      | .inr (n, ram, ms) => { s with
          patch := { s.patch with busy := true, waiting := some (n, ram, ms), reverting := false }
          ush := { s.ush with paused := true } }) := by
  refine congrArg Host.Outcome.next ((hostWrite_writable h).trans ((if_neg (by simp [loadBusy, ha, hp])).trans ?_))
  refine (if_neg (by simp [hs])).trans ?_
  split
  next r hr =>
    obtain rfl := hr.symm.trans hx
    rfl
  next n ram ms hr =>
    obtain rfl := hr.symm.trans hx
    rfl

/-- Every usable core is idle. -/
def allIdle (s : State) : Bool := (List.range (coreCount s)).all (fun c => !coreUsable s c || (core s c).run == .idle)

theorem allIdle_iff (s : State) : allIdle s = true ↔ ∀ c, c < coreCount s → coreUsable s c = true → (core s c).run = .idle := by
  simp only [allIdle, List.all_eq_true, List.mem_range, Bool.or_eq_true, Bool.not_eq_true', beq_iff_eq]
  refine forall₂_congr fun c _ => ?_
  cases coreUsable s c
  all_goals simp

/-- The patch as the broadcast writes it. -/
def broadcastPatch (p : Patch) : Patch :=
  match p.waiting with
  | some (v, ram, entries) => p.take v ram entries
  | none => { p with version := 0, ram := [], ramParity := [], matchReg := [] }

theorem patchBroadcast_waits {s : State} (hl : Live s) (h : allIdle s = false) : Runs .patchBroadcast s s :=
  congrArg Host.Outcome.next ((unlessLocked_live hl).trans (if_pos (.inr (congrArg not h))))

theorem patchBroadcast_writes {s : State} (hl : Live s) (hb : s.patch.busy = true) (h : allIdle s = true) :
    Runs .patchBroadcast s { s with
      patch := { broadcastPatch s.patch with busy := false, waiting := none, reverting := false, result := 0 }
      ush := { s.ush with paused := false } } := by
  refine congrArg Host.Outcome.next ((unlessLocked_live hl).trans ((if_neg ?_).trans rfl))
  rintro (hf | hf)
  · rw [hb] at hf
    cases hf
  · exact Bool.false_ne_true ((congrArg not h).symm.trans hf)

theorem highest_take (p : Patch) (v : Half) (ram : Table (BitVec 160)) (ms : Table W32) :
    p.highest.toNat ≤ (p.take v ram ms).highest.toNat ∧ v.toNat ≤ (p.take v ram ms).highest.toNat := by
  unfold Patch.take
  dsimp only
  split
  · exact ⟨Nat.le_refl _, by assumption⟩
  · exact ⟨by omega, Nat.le_refl _⟩

/-- Settles O39: the two register writes by their guards, a load by its outcome, a patch by its checks and the broadcast. -/
theorem actsAndPatchesLoad : Obligations.ActsAndPatchesLoad := by
  unfold Obligations.ActsAndPatchesLoad
  refine ⟨⟨?_, ?_, ?_, ?_, ?_⟩, ?_, ?_, ?_, ?_, ?_⟩
  · intro s h ha hp hm
    exact congrArg Host.Outcome.next ((hostWrite_writable h).trans (if_neg (by simp [loadBusy, ha, hp, hm])))
  · intro s h hbusy
    refine congrArg Host.Outcome.next ((hostWrite_writable h).trans (if_pos ?_))
    rw [loadBusy_iff, or_assoc]
    exact hbusy
  · intro s n h hb
    refine ⟨_, unload_closes n h hb, rfl, rfl, ?_, fun hf => if_pos hf, fun hf => if_neg (by simp [hf]), fun m hm => ?_, rfl, rfl, rfl⟩
    · exact Option.isNone_iff_eq_none.2 (openAct_closed_same n s.acts.acts)
    · exact openAct_closed_other hm s.acts.acts
  · exact fun s p v off n hl hb hm hu => actLoadDone_unloads p v off hl hb hm hu
  · intro s p v off hl hb hm hu
    have hends := actLoadOutcome_ends p v off s
    have hruns := actLoadDone_loads p v off hl hb hm hu
    generalize actLoadOutcome p v off s = r at hends hruns ⊢
    refine ⟨_, hruns, rfl, rfl, ?_⟩
    rcases hends with ⟨hne, hsame⟩ | ⟨h0, ⟨a, m, b, hframe⟩, hp, hv, hroot⟩
    · rw [hsame]
      exact ⟨fun h0 => absurd h0 hne, fun _ => ⟨rfl, rfl⟩, rfl, rfl, rfl⟩
    · refine ⟨fun _ => ⟨hp, hv, hroot⟩, fun hne => absurd h0 hne, ?_⟩
      rw [hframe]
      exact ⟨rfl, rfl, rfl⟩
  · intro s k v h hbusy
    exact congrArg Host.Outcome.next ((hostWrite_writable h).trans (if_pos ((loadBusy_iff s).2 hbusy)))
  · intro s k v h ha hp hs
    exact congrArg Host.Outcome.next ((hostWrite_writable h).trans ((if_neg (by simp [loadBusy, ha, hp])).trans (if_pos hs)))
  · intro s k v h ha hp hs
    refine ⟨fun r hr => patchLoad_checks k v h ha hp hs hr, fun n ram ms hr => ?_⟩
    obtain ⟨hk, hv, hroot, hhigh⟩ := patchCheck_accepts hr
    exact ⟨hk, hv, hroot, hhigh, patchLoad_checks k v h ha hp hs hr⟩
  · intro s h hp
    exact congrArg Host.Outcome.next ((hostWrite_writable h).trans (if_neg (by simp [hp])))
  · intro s hl hb
    refine ⟨?_, fun hidle => ⟨_, patchBroadcast_writes hl hb ((allIdle_iff s).2 hidle), rfl, rfl, rfl, ?_, ?_, rfl, rfl, rfl⟩⟩
    · rintro ⟨c, hc, hu, hr⟩
      exact patchBroadcast_waits hl (Bool.eq_false_iff.2 fun hall => hr ((allIdle_iff s).1 hall c hc hu))
    · intro hw
      have hp : broadcastPatch s.patch = { s.patch with version := 0, ram := [], ramParity := [], matchReg := [] } := by
        unfold broadcastPatch
        split
        next h => cases hw.symm.trans h
        next => rfl
      rw [hp]
      exact ⟨rfl, rfl, rfl, rfl, rfl⟩
    · intro n ram ms hw
      have hp : broadcastPatch s.patch = s.patch.take n ram ms := by
        unfold broadcastPatch
        rw [hw]
      rw [hp]
      exact ⟨rfl, rfl, rfl, highest_take s.patch n ram ms⟩

end Sys2Proof.Machine
end

section
/-!
SUPPORT. The custodian ceremony (R308–R310, R313): which commands it takes and what each leaves.
-/
namespace Sys2Proof.Machine

open Sys2Proof

/-! ### Which commands are taken (R313, R442) -/

theorem cerCommand_takes {cmd : Nat} {ok : State → Bool} {f : State → State} {s : State} (hb : s.ks.cer.busy = false)
    (hn : s.fc.snet = false ∨ cmd = 4) (hok : ok s = true) : cerCommand cmd ok f s = f s := by
  refine (if_neg (by simp [hb])).trans (if_neg ?_)
  rintro (⟨hs, hc⟩ | hno)
  · rcases hn with hn | hn
    · exact Bool.false_ne_true (hn.symm.trans hs)
    · exact hc hn
  · exact Bool.false_ne_true (hno.symm.trans hok)

theorem cerCommand_refuses {cmd : Nat} {ok : State → Bool} (f : State → State) {s : State} (hb : s.ks.cer.busy = false)
    (hok : ok s = false) : cerCommand cmd ok f s = setCer { s.ks.cer with result := 1 } s :=
  (if_neg (by simp [hb])).trans (if_pos (.inr hok))

/-! ### The entries (R282) -/

theorem keyEntry_setKey (h : W32) (e : KeyEntry) (s : State) : keyEntry (setKey h e s) h = e := Table.get_set_same _ _ _ _

theorem keyEntry_setKey_other {h h' : W32} (hne : h' ≠ h) (e : KeyEntry) (s : State) : keyEntry (setKey h e s) h' = keyEntry s h' :=
  Table.get_set_other ({} : KeyEntry) s.ks.entries e (fun heq => hne (BitVec.eq_of_toNat_eq heq))

theorem keyEntry_noteHeld (h : W32) (x : LineHeld) (s : State) : keyEntry (noteHeld x s) h = keyEntry s h := rfl

/-! ### A component (R309) -/

theorem getElem?_xorBytes {a b : List Byte} {k : Nat} (h : k < b.length) : (xorBytes a b)[k]? = some (a.getD k 0 ^^^ b.getD k 0) := by
  simp [xorBytes, h]

/-- The ceremony after a step that ended with r and this component. -/
def Ceremony.afterStep (c : Ceremony) (r : Byte) (component : List Byte) : Ceremony :=
  if r ≠ 0 then { c with busy := false, result := r }
  else if some component.length ≠ dataLen c.word then { c with busy := false, result := 6 }
  else { c with busy := false, result := 0, step := c.step + 1, acc := xorBytes c.acc component }

theorem Ceremony.afterStep_busy (c : Ceremony) (r : Byte) (m : List Byte) : (c.afterStep r m).busy = false := by
  unfold Ceremony.afterStep
  split
  · rfl
  split
  all_goals rfl

theorem componentDone_runs {s : State} {n : Nat} {r : Byte} (hl : Live s) (hn : n = b2n s.ks.cer.reader) (ho : s.ks.cer.isOpen = true)
    (hb : s.ks.cer.busy = true) (hr : (slotOf s n).stepEnd = some r) :
    Runs .componentDone s (setCer (s.ks.cer.afterStep r (slotOf s n).component)
      (setSlot n { slotOf s n with stepEnd := none, component := [] } s)) := by
  subst hn
  refine congrArg Host.Outcome.next ((unlessLocked_live hl).trans ?_)
  dsimp only
  rw [hr]
  dsimp only
  rw [if_neg (by simp [ho, hb]), Ceremony.afterStep]
  split
  · rfl
  split
  all_goals rfl

/-- The key that CLOSE makes of the accumulator. -/
def cerKey (s : State) : KeyEntry :=
  { keyEntry s s.ks.cer.slot with
    st := .resident
    data := padTo s.ks.cer.acc ((dataLen s.ks.cer.word).getD 0)
    parity := wordsParity (padTo s.ks.cer.acc ((dataLen s.ks.cer.word).getD 0)) }

theorem cerClose_runs {s : State} (h : Writable s) (hb : s.ks.cer.busy = false) (hn : s.fc.snet = false) (ho : s.ks.cer.isOpen = true)
    (hstep : s.ks.cer.step = s.ks.cer.n.toNat) :
    Runs .cerClose s (setCer { s.ks.cer with isOpen := false, step := 0, acc := [], result := 0 }
      (setKey s.ks.cer.slot (cerKey s) (noteHeld (.keyEntry s.ks.cer.slot) s))) :=
  congrArg Host.Outcome.next ((hostWrite_writable h).trans (cerCommand_takes hb (.inl hn) (by simp [ho, hstep])))

theorem keyEntry_setCer (h : W32) (c : Ceremony) (s : State) : keyEntry (setCer c s) h = keyEntry s h := rfl

theorem slotOf_setSlot (n : Nat) (x : Slot) (s : State) : slotOf (setSlot n x s) n = x := Table.get_set_same _ _ _ _

/-- Settles O41: every command by its conditions, and the end of a step by its result and the component's length. -/
theorem custodianCeremonyAddsComponents : Obligations.CustodianCeremonyAddsComponents := by
  unfold Obligations.CustodianCeremonyAddsComponents
  refine ⟨?_, ?_, ?_, ?_, ?_, ?_, ?_, ?_⟩
  · intro s h hb hn ho hst hbusy hinst h2 h4 he hslot hplace hattr hfam
    refine congrArg Host.Outcome.next ((hostWrite_writable h).trans ((cerCommand_takes hb (.inl hn) ?_).trans ?_))
    · rcases hinst with hinst | hinst
      all_goals simp [ho, hst, hbusy, hinst, h2, h4]
    · refine (if_neg ?_).trans (if_neg ?_)
      · simp [he, hslot, hplace]
      · rcases hfam with hfam | hfam
        all_goals simp [hattr, hfam]
  · intro s h hb hn ho hstep hp
    exact congrArg Host.Outcome.next ((hostWrite_writable h).trans (cerCommand_takes hb (.inl hn) (by simp [ho, hstep, hp])))
  · intro s n r hl hn ho hb hr
    refine ⟨_, componentDone_runs hl hn ho hb hr, Ceremony.afterStep_busy _ _ _, ?_, ?_, rfl, ?_, ?_, ?_⟩
    · exact congrArg Slot.stepEnd (slotOf_setSlot n { slotOf s n with stepEnd := none, component := [] } s)
    · exact congrArg Slot.component (slotOf_setSlot n { slotOf s n with stepEnd := none, component := [] } s)
    · intro hr0
      have hc : s.ks.cer.afterStep r (slotOf s n).component = { s.ks.cer with busy := false, result := r } := if_pos hr0
      rw [hc]
      exact ⟨rfl, rfl, rfl⟩
    · intro hr0 hlen
      have hc : s.ks.cer.afterStep r (slotOf s n).component = { s.ks.cer with busy := false, result := 6 } :=
        (if_neg (not_not_intro hr0)).trans (if_pos hlen)
      rw [hc]
      exact ⟨rfl, rfl, rfl⟩
    · intro hr0 hlen
      have hc : s.ks.cer.afterStep r (slotOf s n).component = { s.ks.cer with
          busy := false, result := 0, step := s.ks.cer.step + 1, acc := xorBytes s.ks.cer.acc (slotOf s n).component } :=
        (if_neg (not_not_intro hr0)).trans (if_neg (not_not_intro hlen))
      rw [hc]
      exact ⟨rfl, rfl, xorBytes_length _ _, fun k hk => getElem?_xorBytes hk⟩
  · intro s h hb hn ho hstep
    refine ⟨_, cerClose_runs h hb hn ho hstep, rfl, rfl, rfl, rfl, ?_, fun k hk => ?_⟩
    · rw [keyEntry_setCer, keyEntry_setKey]
      rfl
    · rw [keyEntry_setCer, keyEntry_setKey_other hk, keyEntry_noteHeld]
  · intro s h hb ho
    exact congrArg Host.Outcome.next ((hostWrite_writable h).trans (cerCommand_takes hb (.inr rfl) ho))
  · intro s h hb hn ho hid hstep
    exact congrArg Host.Outcome.next ((hostWrite_writable h).trans ((cerCommand_takes hb (.inl hn) (by simp [resumeTaken, ho])).trans
      (if_pos ⟨ho, hid, hstep⟩)))
  · intro s h hb hn hbad
    refine congrArg Host.Outcome.next ((hostWrite_writable h).trans ((cerCommand_takes hb (.inl hn) ?_).trans (if_neg ?_)))
    · rcases hbad with ⟨ho, hh⟩ | ⟨ho, -⟩
      all_goals simp [resumeTaken, *]
    · rintro ⟨ho, hid, hstep⟩
      rcases hbad with ⟨hno, -⟩ | ⟨-, hno | hno⟩
      · exact Bool.false_ne_true (hno.symm.trans ho)
      · exact hno hid
      · exact hno hstep
  · intro s h hb _ ho hh
    exact congrArg Host.Outcome.next ((hostWrite_writable h).trans (cerCommand_refuses _ hb (by simp [resumeTaken, ho, hh])))

end Sys2Proof.Machine
end

section
/-!
SUPPORT. The network ports (R314–R322): what leaves a port's queue, its links and its neighbours.
-/
namespace Sys2Proof.Machine

open Sys2Proof

/-! ### Counters and lines -/

/-- The states differ in counters and in the Dolid block's record of lines alone. -/
def CountFrame (s t : State) : Prop := ∃ tm d, t = { s with time := tm, dol := d }

theorem CountFrame.refl (s : State) : CountFrame s s := ⟨s.time, s.dol, rfl⟩

theorem CountFrame.trans {s t u : State} (h : CountFrame s t) (h' : CountFrame t u) : CountFrame s u := by
  obtain ⟨tm, d, rfl⟩ := h
  obtain ⟨tm', d', rfl⟩ := h'
  exact ⟨tm', d', rfl⟩

theorem CountFrame.foldl {β : Type} {f : State → β → State} (h : ∀ s b, CountFrame s (f s b)) (l : List β) (s : State) :
    CountFrame s (l.foldl f s) := by
  induction l generalizing s with
  | nil => exact .refl s
  | cons b l ih => exact (h s b).trans (ih _)

theorem bump_countFrame (reg f w : Nat) (s : State) : CountFrame s (bump reg f w s) := ⟨_, s.dol, rfl⟩

theorem freeFrame_countFrame (f : TxFrame) (s : State) : CountFrame s (freeFrame f s) := by
  unfold freeFrame
  split
  · exact .refl s
  all_goals exact ⟨s.time, _, rfl⟩

theorem noResolve_countFrame (p : Nat) (f : TxFrame) (s : State) : CountFrame s (noResolve p f s) :=
  (bump_countFrame _ _ _ s).trans (freeFrame_countFrame f _)

theorem dropUnlinked_countFrame (p : Nat) (f : TxFrame) (s : State) : CountFrame s (dropUnlinked p f s) := by
  have h : CountFrame s (freeFrame f (portCount p 0x9C s)) := (bump_countFrame _ _ _ s).trans (freeFrame_countFrame f _)
  unfold dropUnlinked
  dsimp only
  split
  · exact h.trans (bump_countFrame _ _ _ _)
  · exact h

theorem CountFrame.netPort {s t : State} (h : CountFrame s t) (p : Nat) : netPort t p = netPort s p := by
  obtain ⟨tm, d, rfl⟩ := h
  rfl

/-! ### The ports -/

theorem netPort_setPort (p : Nat) (x : Port) (s : State) : netPort (setPort p x s) p = x := Table.get_set_same _ _ _ _

theorem netPort_setPort_other {p q : Nat} (h : q ≠ p) (x : Port) (s : State) : netPort (setPort p x s) q = netPort s q :=
  Table.get_set_other ({} : Port) s.net.port x h

theorem netPort_portNotice (p q : Nat) (s : State) : netPort (portNotice p s) q = netPort s q := by
  obtain ⟨k, f, h⟩ := report_frame { cls := .f0, source := 0x12, unit := unitPort p, cause := 0x0B
                                     detail0 := BitVec.ofNat 64 (netReg p 4), detail1 := (netPort s p).status } s
  rw [portNotice, stateNotice, h]
  rfl

/-- The ports, but for port p, which is x, the tickets and the memory are as before. -/
structure PortStep (p : Nat) (x : Port) (s t : State) : Prop where
  port : netPort t p = x
  others : ∀ q, q ≠ p → netPort t q = netPort s q
  tickets : t.tickets = s.tickets
  mem : t.mem = s.mem

theorem PortStep.trans {p : Nat} {x y : Port} {s t u : State} (h : PortStep p x s t) (h' : PortStep p y t u) : PortStep p y s u :=
  ⟨h'.port, fun q hq => (h'.others q hq).trans (h.others q hq), h'.tickets.trans h.tickets, h'.mem.trans h.mem⟩

theorem setPort_step (p : Nat) (x : Port) (s : State) : PortStep p x s (setPort p x s) :=
  ⟨netPort_setPort p x s, fun _ hq => netPort_setPort_other hq x s, rfl, rfl⟩

theorem CountFrame.portStep {s t : State} (h : CountFrame s t) (p : Nat) : PortStep p (Machine.netPort s p) s t := by
  refine ⟨h.netPort p, fun q _ => h.netPort q, ?_, ?_⟩
  all_goals
    obtain ⟨tm, d, rfl⟩ := h
    rfl

theorem portNotice_step (p : Nat) (s : State) : PortStep p (netPort s p) s (portNotice p s) := by
  refine ⟨netPort_portNotice p p s, fun q _ => netPort_portNotice p q s, ?_, ?_⟩
  all_goals
    obtain ⟨k, f, h⟩ := report_frame { cls := .f0, source := 0x12, unit := unitPort p, cause := 0x0B
                                       detail0 := BitVec.ofNat 64 (netReg p 4), detail1 := (netPort s p).status } s
    rw [portNotice, stateNotice, h]

/-- The port with one more frame in its queue. -/
def Port.sends (x : Port) (f : TxFrame) (order : Nat) : Port := { x with tx := x.tx ++ [{ f with order := order }] }

theorem enqueueTx_sends {s : State} {p : Nat} {f : TxFrame} (hu : fromUnusable (netPort s p) f = false)
    (hl : (netPort s p).link = true) : PortStep p ((netPort s p).sends f s.net.frames) s (enqueueTx p f s) := by
  have h : enqueueTx p f s = { noteHeld (.frame p false (netPort s p).tx.length)
      (setPort p ((netPort s p).sends f s.net.frames) s) with
        net := { (setPort p ((netPort s p).sends f s.net.frames) s).net with frames := s.net.frames + 1 } } :=
    (if_neg (by simp [hu])).trans (if_pos hl)
  rw [h]
  exact ⟨netPort_setPort _ _ _, fun q hq => netPort_setPort_other hq _ s, rfl, rfl⟩

theorem enqueueTx_unusable {s : State} {p : Nat} {f : TxFrame} (hu : fromUnusable (netPort s p) f = true) :
    PortStep p (netPort s p) s (enqueueTx p f s) := by
  have h : enqueueTx p f s = noResolve p f s := if_pos hu
  rw [h]
  exact (noResolve_countFrame p f s).portStep p

theorem mem_sends_self (x : Port) (f : TxFrame) (n : Nat) : ∃ g ∈ (x.sends f n).tx, g = { f with order := g.order } :=
  ⟨{ f with order := n }, by simp [Port.sends], rfl⟩

/-! ### Addresses that a port may not use (R322) -/

theorem beNat_be (n x : Nat) : beNat (be n x) = x % 2 ^ (8 * n) := by rw [beNat, be, List.reverse_reverse, natOf_bytesOf]

theorem ipAt_ip6Header (x : Port) (next len hop : Nat) (src dst : Ip) (l : List Byte) :
    ipAt (ip6Header x next len hop src dst ++ l) 8 = src := by
  have hslice : slice (ip6Header x next len hop src dst ++ l) 8 16 = be 16 src.toNat := by
    unfold ip6Header slice
    generalize hhead : be 4 (6 * 2 ^ 28 + 4 * x.dscp.toNat * 2 ^ 20) ++ be 2 len ++ [BitVec.ofNat 8 next, BitVec.ofNat 8 hop] = head
    have hlen : head.length = 8 := by simp [← hhead]
    rw [List.append_assoc, List.append_assoc, List.drop_left' hlen, List.take_left' (be_length _ _)]
  have hsmall : src.toNat % 2 ^ (8 * 16) = src.toNat := Nat.mod_eq_of_lt src.isLt
  rw [ipAt, hslice, beNat_be, hsmall, BitVec.ofNat_toNat, BitVec.setWidth_eq]

theorem linkLocal_ne_zero (mac : BitVec 48) : linkLocal mac ≠ 0 := by
  intro h
  have hx : Nat.xor (mac.toNat / 2 ^ 24) (2 ^ 17) < 2 ^ 24 := Nat.xor_lt_two_pow (by have := mac.isLt; omega) (by decide)
  have hm : mac.toNat % 2 ^ 24 < 2 ^ 24 := Nat.mod_lt _ (by decide)
  have h0 : (linkLocal mac).toNat = 0 := by rw [h]; rfl
  rw [linkLocal, BitVec.toNat_ofNat] at h0
  generalize Nat.xor (mac.toNat / 2 ^ 24) (2 ^ 17) = a at hx h0
  generalize mac.toNat % 2 ^ 24 = b at hm h0
  omega

/-- A solicitation of duplicate address detection comes from no address of the port. -/
theorem fromUnusable_dadFrame {x y : Port} (a : Ip) (h : y.ip6 ≠ 0) : fromUnusable y (dadFrame x a) = false := by
  have hsrc : ipAt (dadFrame x a).body 8 = 0 := ipAt_ip6Header _ _ _ _ _ _ _
  have hip : ((0 : Ip) == y.ip6) = false := beq_false_of_ne (Ne.symm h)
  have hll : ((0 : Ip) == linkLocal y.mac) = false := beq_false_of_ne (Ne.symm (linkLocal_ne_zero _))
  rw [fromUnusable, hsrc, hip, hll]
  exact Bool.and_false _

theorem fromUnusable_arpFrame (y x : Port) (op : Nat) (m m' : BitVec 48) (a : W32) : fromUnusable y (arpFrame x op m m' a) = false := rfl

theorem fromUnusable_dadFail {x : Port} {f : TxFrame} (hd : x.dadFail = true) (he : f.ethertype = 0x86DD)
    (ha : ipAt f.body 8 = x.ip6 ∨ ipAt f.body 8 = linkLocal x.mac) : fromUnusable x f = true := by
  rcases ha with ha | ha
  all_goals simp [fromUnusable, Port.v6Usable, hd, he, ha]

/-! ### Links (R316, R322) -/

/-- The port with more frames in its queue. -/
def Port.Grows (x y : Port) : Prop := ∃ l, y = { x with tx := x.tx ++ l }

theorem Port.Grows.refl (x : Port) : x.Grows x := ⟨[], by rw [List.append_nil]⟩

theorem Port.Grows.trans {x y z : Port} (h : x.Grows y) (h' : y.Grows z) : x.Grows z := by
  obtain ⟨l, rfl⟩ := h
  obtain ⟨m, rfl⟩ := h'
  exact ⟨l ++ m, by rw [← List.append_assoc]⟩

theorem Port.Grows.mem {x y : Port} (h : x.Grows y) {g : TxFrame} (hg : g ∈ x.tx) : g ∈ y.tx := by
  obtain ⟨l, rfl⟩ := h
  exact List.mem_append_left _ hg

/-- The queue holds the frame, in some place of the order. -/
def Port.Queues (x : Port) (f : TxFrame) : Prop := ∃ g ∈ x.tx, g = { f with order := g.order }

theorem Port.Queues.grows {x y : Port} {f : TxFrame} (h : x.Queues f) (hg : x.Grows y) : y.Queues f := by
  obtain ⟨g, hm, he⟩ := h
  exact ⟨g, hg.mem hm, he⟩

theorem enqueueTx_queues {s : State} {p : Nat} {x : Port} {f : TxFrame} (hx : netPort s p = x) (hu : fromUnusable x f = false)
    (hl : x.link = true) : ∃ y, PortStep p y s (enqueueTx p f s) ∧ x.Grows y ∧ y.Queues f := by
  subst hx
  exact ⟨_, enqueueTx_sends hu hl, ⟨_, rfl⟩, mem_sends_self _ _ _⟩

/-- The port as LINK_UP leaves it, but for its queue. -/
def Port.up (x : Port) : Port :=
  { x with link := true, anDone := x.an, ltDone := x.an || x.lt, fecLock := true, tentative := (x.ip6 != 0) && !x.dadFail }

/-- The announcement of the port's IPv4 address. -/
def announceIp4 (p : Nat) (x : Port) (s : State) : State :=
  if x.ip4 ≠ 0 then enqueueTx p (arpFrame x 1 0xFFFFFFFFFFFF 0 x.ip4) s else s

theorem announceIp4_queues {s : State} {p : Nat} {y : Port} (x : Port) (hy : netPort s p = y) (hl : y.link = true) :
    ∃ z, PortStep p z s (announceIp4 p x s) ∧ y.Grows z ∧ (x.ip4 ≠ 0 → z.Queues (arpFrame x 1 0xFFFFFFFFFFFF 0 x.ip4)) := by
  unfold announceIp4
  split
  · obtain ⟨z, hstep, hgrow, hq⟩ := enqueueTx_queues hy (fromUnusable_arpFrame y x 1 0xFFFFFFFFFFFF 0 x.ip4) hl
    exact ⟨z, hstep, hgrow, fun _ => hq⟩
  next h => exact ⟨y, ⟨hy, fun _ _ => rfl, rfl, rfl⟩, .refl y, fun hne => absurd hne h⟩

/-- The two solicitations that begin duplicate address detection. -/
def soliciting (p : Nat) (x : Port) (s : State) : State :=
  if (x.ip6 != 0) = true ∧ x.dadFail = false then
    enqueueTx p (dadFrame x x.ip6) (enqueueTx p (dadFrame x (linkLocal x.mac)) s)
  else s

theorem soliciting_queues {s : State} {p : Nat} {y : Port} (x : Port) (hy : netPort s p = y) (hl : y.link = true) (h6 : y.ip6 = x.ip6) :
    ∃ z, PortStep p z s (soliciting p x s) ∧ y.Grows z ∧
      (x.ip6 ≠ 0 → x.dadFail = false → z.Queues (dadFrame x x.ip6) ∧ z.Queues (dadFrame x (linkLocal x.mac))) := by
  unfold soliciting
  split
  next h =>
    have hne : y.ip6 ≠ 0 := h6 ▸ bne_iff_ne.1 h.1
    obtain ⟨z, hstep, hgrow, hq⟩ := enqueueTx_queues hy (fromUnusable_dadFrame (linkLocal x.mac) hne) hl
    obtain ⟨hlz, hnez⟩ : z.link = true ∧ z.ip6 ≠ 0 := by
      obtain ⟨l, rfl⟩ := hgrow
      exact ⟨hl, hne⟩
    obtain ⟨w, hstep', hgrow', hq'⟩ := enqueueTx_queues hstep.port (fromUnusable_dadFrame x.ip6 hnez) hlz
    exact ⟨w, hstep.trans hstep', hgrow.trans hgrow', fun _ _ => ⟨hq', hq.grows hgrow'⟩⟩
  next h =>
    exact ⟨y, ⟨hy, fun _ _ => rfl, rfl, rfl⟩, .refl y, fun hne hd => absurd ⟨bne_iff_ne.2 hne, hd⟩ h⟩

theorem linkUp_runs {s : State} {p : Nat} (he : (netPort s p).en = true) (hl : (netPort s p).link = false) (hn : netRuns s = true) :
    Runs (.linkUp p) s (soliciting p (netPort s p) (announceIp4 p (netPort s p) (portNotice p (setPort p (netPort s p).up s)))) :=
  congrArg Host.Outcome.next (if_neg (by simp [he, hl, hn]))

/-- LINK_UP: the port is up, its announcements are queued, and nothing else changed. -/
theorem linkUp_queues (s : State) (p : Nat) :
    ∃ z, PortStep p z s (soliciting p (netPort s p) (announceIp4 p (netPort s p) (portNotice p (setPort p (netPort s p).up s)))) ∧
      (netPort s p).up.Grows z ∧ ((netPort s p).ip4 ≠ 0 → z.Queues (arpFrame (netPort s p) 1 0xFFFFFFFFFFFF 0 (netPort s p).ip4)) ∧
      ((netPort s p).ip6 ≠ 0 → (netPort s p).dadFail = false →
        z.Queues (dadFrame (netPort s p) (netPort s p).ip6) ∧ z.Queues (dadFrame (netPort s p) (linkLocal (netPort s p).mac))) := by
  have hup : PortStep p (netPort s p).up s (portNotice p (setPort p (netPort s p).up s)) := by
    have h := portNotice_step p (setPort p (netPort s p).up s)
    rw [netPort_setPort] at h
    exact (setPort_step p _ s).trans h
  obtain ⟨y, hstep, hgrow, harp⟩ := announceIp4_queues (netPort s p) hup.port rfl
  obtain ⟨hly, h6⟩ : y.link = true ∧ y.ip6 = (netPort s p).ip6 := by
    obtain ⟨l, rfl⟩ := hgrow
    exact ⟨rfl, rfl⟩
  obtain ⟨z, hstep', hgrow', hdad⟩ := soliciting_queues (netPort s p) hstep.port hly h6
  exact ⟨z, (hup.trans hstep).trans hstep', hgrow.trans hgrow', fun h => (harp h).grows hgrow', hdad⟩

/-- The port as the loss of its link leaves it. -/
def Port.down (x : Port) : Port :=
  { x with link := false, anDone := false, ltDone := false, fecLock := false, tentative := false, tx := [] }

theorem linkLost_step {s : State} {p : Nat} (r : Bool) (hl : (netPort s p).link = true) :
    PortStep p (netPort s p).down s (linkLost p r s) := by
  have hcount : CountFrame s (if r then portCount p 0x90 s else s) := by
    split
    · exact bump_countFrame _ _ _ s
    · exact .refl s
  have hdrop := hcount.trans (CountFrame.foldl (fun s f => dropUnlinked_countFrame p f s) (netPort s p).tx _)
  have h : linkLost p r s = portNotice p (setPort p (netPort
      ((netPort s p).tx.foldl (fun s f => dropUnlinked p f s) (if r then portCount p 0x90 s else s)) p).down
      ((netPort s p).tx.foldl (fun s f => dropUnlinked p f s) (if r then portCount p 0x90 s else s))) := if_neg (by simp [hl])
  rw [h]
  generalize (netPort s p).tx.foldl (fun s f => dropUnlinked p f s) (if r then portCount p 0x90 s else s) = u at hdrop ⊢
  have hset := (hdrop.portStep p).trans (setPort_step p (netPort s p).down u)
  rw [hdrop.netPort p]
  have hnotice := portNotice_step p (setPort p (netPort s p).down u)
  rw [hset.port] at hnotice
  exact hset.trans hnotice

/-! ### Enabling (R317) -/

theorem enableBad_iff (x : Port) : x.enableBad = true ↔
    (x.mac = 0 ∨ bit x.mac 40 = true ∨ (x.tagged = true ∧ (x.vid = 0 ∨ x.vid = 0xFFF)) ∨ (x.ip4 = 0 ∧ x.ip6 = 0)) := by
  simp [Port.enableBad, or_assoc]

/-! ### Neighbours (R321) -/

/-- The port with one more try at the address. -/
def Port.asks (x : Port) (a : Ip) : Port := { x with neigh := modNeigh a (fun n => { n with tries := n.tries + 1 }) x.neigh }

theorem neighbourRetry_asks {s : State} {p : Nat} {a : Ip} {n : Neigh}
    (hf : (netPort s p).neigh.find? (fun n => n.addr == a && n.mac.isNone) = some n) (ht : n.tries < 3) :
    Runs (.neighbourRetry p a) s (enqueueTx p (askFrame (netPort s p) a none) (setPort p ((netPort s p).asks a) s)) := by
  refine congrArg Host.Outcome.next ?_
  dsimp only
  rw [hf]
  exact if_pos ht

theorem neighbourResolveFail_step {s : State} {p : Nat} {a : Ip} {n : Neigh}
    (hf : (netPort s p).neigh.find? (fun n => n.addr == a && n.mac.isNone) = some n) :
    ∃ t, Runs (.neighbourResolveFail p a) s t ∧
      PortStep p { netPort s p with neigh := (netPort s p).neigh.filter (fun n => n.addr != a) } s t := by
  refine ⟨n.held.foldl (fun s f => noResolve p f s)
    (setPort p { netPort s p with neigh := (netPort s p).neigh.filter (fun n => n.addr != a) } s), congrArg Host.Outcome.next ?_, ?_⟩
  · dsimp only
    rw [hf]
  · have hset := setPort_step p { netPort s p with neigh := (netPort s p).neigh.filter (fun n => n.addr != a) } s
    have hheld := (CountFrame.foldl (fun s f => noResolve_countFrame p f s) n.held
      (setPort p { netPort s p with neigh := (netPort s p).neigh.filter (fun n => n.addr != a) } s)).portStep p
    rw [hset.port] at hheld
    exact hset.trans hheld

/-- Settles O42: the register writes by their guards, a link's changes by the frames they queue or drop, and the tries at a neighbour. -/
theorem portsLinksAndNeighbours : Obligations.PortsLinksAndNeighbours := by
  unfold Obligations.PortsLinksAndNeighbours
  refine ⟨⟨?_, enableBad_iff, ?_, ?_, ?_, ?_, fun s p => rfl⟩, ?_, ?_, fun x f => fromUnusable_dadFail, ?_, ?_⟩
  · intro s p d h hp hpresent he
    refine ⟨fun hbad => ?_, fun hbad => ?_⟩
    · exact congrArg Host.Outcome.next ((hostWrite_writable h).trans ((if_neg (Nat.not_le.2 hp)).trans
        ((if_neg (by simp [hpresent])).trans ((if_neg (by simp [he])).trans (if_neg (by simp [hbad]))))))
    · exact congrArg Host.Outcome.next ((hostWrite_writable h).trans ((if_neg (Nat.not_le.2 hp)).trans
        ((if_neg (by simp [hpresent])).trans ((if_neg (by simp [he])).trans (if_pos hbad)))))
  · intro s p d h hp hpresent hl
    have hcut : linkCut p s = s := if_neg (by simp [hl])
    refine congrArg Host.Outcome.next ((hostWrite_writable h).trans ((if_neg (Nat.not_le.2 hp)).trans
        ((if_neg (by simp [hpresent])).trans ?_)))
    dsimp only
    rw [hcut]
  · intro s p h he hl
    exact congrArg Host.Outcome.next ((hostWrite_writable h).trans (if_pos ⟨he, hl⟩))
  · intro s p he hl hn
    obtain ⟨z, hstep, ⟨l, hz⟩, harp, hdad⟩ := linkUp_queues s p
    refine ⟨_, linkUp_runs he hl hn, ?_⟩
    rw [hstep.port]
    refine ⟨by rw [hz]; rfl, by rw [hz]; rfl, by rw [hz]; rfl, fun h6 => ?_, harp, fun h6 hd => ⟨?_, ?_⟩, hstep.others, hstep.tickets,
      hstep.mem⟩
    · rw [hz]
      simp [Port.up, h6]
    · rw [hz]
      simp [Port.up, hd]
      exact h6
    · rintro a (rfl | rfl)
      · exact (hdad h6 hd).1
      · exact (hdad h6 hd).2
  · intro s p r hl
    have hstep := linkLost_step r hl
    refine ⟨_, rfl, ?_⟩
    rw [hstep.port]
    exact ⟨rfl, rfl, rfl, rfl, hstep.others, hstep.tickets, hstep.mem⟩
  · intro s p a n hf ht hl hu
    have hset := setPort_step p ((netPort s p).asks a) s
    have hsend := enqueueTx_sends (s := setPort p ((netPort s p).asks a) s) (p := p) (f := askFrame (netPort s p) a none)
      (by rw [hset.port]; exact hu) (by rw [hset.port]; exact hl)
    refine ⟨_, neighbourRetry_asks hf ht, ?_⟩
    rw [hsend.port, hset.port]
    exact ⟨rfl, rfl⟩
  · intro s p a n hf ht hu
    have hset := setPort_step p ((netPort s p).asks a) s
    have hdrop := enqueueTx_unusable (s := setPort p ((netPort s p).asks a) s) (p := p) (f := askFrame (netPort s p) a none)
      (by rw [hset.port]; exact hu)
    refine ⟨_, neighbourRetry_asks hf ht, ?_⟩
    rw [hdrop.port, hset.port]
    exact ⟨rfl, rfl⟩
  · intro s p a n hf ht
    refine congrArg Host.Outcome.next ?_
    dsimp only
    rw [hf]
    exact if_neg (Nat.not_lt.2 ht)
  · intro s p a n hf
    obtain ⟨t, hruns, hstep⟩ := neighbourResolveFail_step hf
    refine ⟨t, hruns, ?_⟩
    rw [hstep.port]
    exact ⟨rfl, rfl, hstep.others⟩

end Sys2Proof.Machine
end

section
/-!
SUPPORT. Frames that arrive and frames that leave (R318–R328, R351–R353).
-/
namespace Sys2Proof.Machine

open Sys2Proof

/-! ### An ARP request for the port's address (R321, R322) -/

/-- Port p may change but keeps its link; the other ports, the tickets and the memory are as before. -/
def LinkKept (p : Nat) (s t : State) : Prop := ∃ y, PortStep p y s t ∧ y.link = (netPort s p).link

theorem LinkKept.refl (p : Nat) (s : State) : LinkKept p s s := ⟨_, ⟨rfl, fun _ _ => rfl, rfl, rfl⟩, rfl⟩

theorem LinkKept.trans {p : Nat} {s t u : State} (h : LinkKept p s t) (h' : LinkKept p t u) : LinkKept p s u := by
  obtain ⟨y, hy, hly⟩ := h
  obtain ⟨z, hz, hlz⟩ := h'
  exact ⟨z, hy.trans hz, by rw [hlz, hy.port, hly]⟩

theorem LinkKept.foldl {β : Type} {p : Nat} {f : State → β → State} (h : ∀ s b, LinkKept p s (f s b)) (l : List β) (s : State) :
    LinkKept p s (l.foldl f s) := by
  induction l generalizing s with
  | nil => exact .refl p s
  | cons b l ih => exact (h s b).trans (ih _)

theorem setPort_linkKept {p : Nat} {x : Port} {s : State} (h : x.link = (netPort s p).link) : LinkKept p s (setPort p x s) :=
  ⟨x, setPort_step p x s, h⟩

theorem CountFrame.linkKept {s t : State} (h : CountFrame s t) (p : Nat) : LinkKept p s t := ⟨_, h.portStep p, rfl⟩

theorem enqueueTx_linkKept (p : Nat) (f : TxFrame) (s : State) : LinkKept p s (enqueueTx p f s) := by
  by_cases hu : fromUnusable (netPort s p) f = true
  · exact ⟨_, enqueueTx_unusable hu, rfl⟩
  · cases hl : (netPort s p).link with
    | true => exact ⟨_, enqueueTx_sends (Bool.eq_false_iff.2 hu) hl, rfl⟩
    | false =>
      have h : enqueueTx p f s = dropUnlinked p f s := (if_neg hu).trans (if_neg (by simp [hl]))
      rw [h]
      exact (dropUnlinked_countFrame p f s).linkKept p

theorem learn_linkKept (p : Nat) (a : Ip) (m : BitVec 48) (s : State) : LinkKept p s (learn p a m s) := by
  unfold learn
  dsimp only
  split
  · refine LinkKept.trans ?_ (LinkKept.foldl (fun s f => enqueueTx_linkKept p _ s) _ _)
    exact setPort_linkKept rfl
  · split
    · exact .refl p s
    · exact setPort_linkKept rfl

/-- A request for the port's address, not from it, is learned from and answered. -/
theorem arpReceive_answers {s : State} {p : Nat} {m : List Byte} (h4 : (netPort s p).ip4 ≠ 0)
    (ht : ip4At m 24 = ip4Of (netPort s p).ip4) (hs : ip4At m 14 ≠ ip4Of (netPort s p).ip4) (ho : halfAt m 6 = 1) :
    arpReceive p m s = enqueueTx p (arpFrame (netPort s p) 2 (macOf m 8) (macOf m 8) (BitVec.ofNat 32 (ip4At m 14).toNat))
      (learn p (ip4At m 14) (macOf m 8) s) := by
  have hclaim : ¬ ((netPort s p).ip4 ≠ 0 ∧ ip4At m 14 = ip4Of (netPort s p).ip4 ∧ macOf m 8 ≠ (netPort s p).mac) := fun h => hs h.2.1
  have hasked : (netPort s p).ip4 ≠ 0 ∧ ip4At m 24 = ip4Of (netPort s p).ip4 ∧ (halfAt m 6 = 1 ∨ halfAt m 6 = 2) := ⟨h4, ht, .inl ho⟩
  unfold arpReceive
  dsimp only
  rw [if_neg hclaim, if_pos hasked, if_pos ho]

/-! ### The filters (R318) -/

/-- The tag of a frame is one that the port takes. -/
def tagTaken (x : Port) (b : List Byte) : Bool :=
  if x.tagged then halfAt b 12 == 0x8100 && halfAt b 14 % 4096 == x.vid.toNat
  else !(halfAt b 12 == 0x8100) || halfAt b 14 % 4096 == 0

/-- The longest frame that the port takes. -/
def longest (x : Port) (b : List Byte) : Nat := x.mtu.toNat + if (halfAt b 12 == 0x8100) = true then 22 else 18

/-- Where the Ethertype of a frame stands, and what it is. -/
def etherAt (b : List Byte) : Nat := if (halfAt b 12 == 0x8100) = true then 16 else 12
def etherOf (b : List Byte) : Nat := halfAt b (etherAt b)
/-- The bytes between the Ethertype and the FCS. -/
def frameBody (b : List Byte) : List Byte := slice b (etherAt b + 2) (b.length - etherAt b - 6)
def isBroadcast (b : List Byte) : Bool := macOf b 0 == 0xFFFFFFFFFFFF

/-- A frame of these bytes that passes the first filters goes on by its Ethertype. -/
def frameSorted (p : Nat) (x : Port) (b : List Byte) (l : Nat × Nat) (s : State) : State :=
  if etherOf b = 0x0806 then arpReceive p (frameBody b) (portCount p 0x80 s)
  else if etherOf b = 0x88F7 ∧ x.ptpEn ∧ x.l2 ∧ isBroadcast b = false then ptpReceive p (frameBody b) s
  else if etherOf b = 0x0800 then ipReceive p false (isBroadcast b) (frameBody b) l s
  else if etherOf b = 0x86DD then ipReceive p true (isBroadcast b) (frameBody b) l s
  else portCount p 0x88 s

section
variable {s : State} {p : Nat} {x : Port} {b : List Byte} {intact : Bool} (l : Nat × Nat)

theorem frameDecided_corrupt (h : intact = false) : frameDecided p x b intact l s = portCount p 0x84 s := if_pos h

theorem frameDecided_length (h : intact = true) (hlen : b.length < 64 ∨ longest x b < b.length) :
    frameDecided p x b intact l s = portCount p 0x90 s := (if_neg (by simp [h])).trans (if_pos hlen)

variable (h : intact = true) (h64 : 64 ≤ b.length) (hlong : b.length ≤ longest x b)
include h h64 hlong

theorem frameDecided_filtered (hbad : macAccepted x (macOf b 0) = false ∨ tagTaken x b = false) :
    frameDecided p x b intact l s = portCount p 0x88 s := by
  refine (if_neg (by simp [h])).trans ((if_neg (not_or.2 ⟨Nat.not_lt.2 h64, Nat.not_lt.2 hlong⟩)).trans ?_)
  rcases hbad with hbad | hbad
  · exact if_pos hbad
  · by_cases hm : macAccepted x (macOf b 0) = false
    · exact if_pos hm
    · exact (if_neg hm).trans (if_pos hbad)

theorem frameDecided_sorted (hm : macAccepted x (macOf b 0) = true) (ht : tagTaken x b = true) :
    frameDecided p x b intact l s = frameSorted p x b l s :=
  (if_neg (by simp [h])).trans ((if_neg (not_or.2 ⟨Nat.not_lt.2 h64, Nat.not_lt.2 hlong⟩)).trans
    ((if_neg (by simp [hm])).trans (if_neg (fun hf => Bool.false_ne_true (hf.symm.trans ht)))))

end

/-- A frame that finds no lines is dropped for want of them, any other is decided. -/
theorem frameReceive_runs {s : State} {p : Nat} (b : List Byte) (found : FrameRead) (he : (netPort s p).en = true)
    (hl : (netPort s p).link = true) (hn : netRuns s = true) :
    (takeLines s p (linesFor b.length) = none → Runs (.frameReceive p b found) s (portCount p 0x8C (fecCount p found s))) ∧
    (∀ l, takeLines s p (linesFor b.length) = some l →
      Runs (.frameReceive p b found) s (frameDecided p (netPort s p) b found.intact l (fecCount p found s))) := by
  have hup : ¬ ((netPort s p).en && (netPort s p).link && netRuns s) = false := by simp [he, hl, hn]
  refine ⟨fun h => congrArg Host.Outcome.next ((if_neg hup).trans ?_), fun l h => congrArg Host.Outcome.next ((if_neg hup).trans ?_)⟩
  all_goals rw [h]

/-! ### A frame that leaves (R320, R351–R353) -/

theorem firstReady_head {s : State} {x : Port} {f : TxFrame} {r : List TxFrame} (hb : heldBefore s f = false)
    (hg : gloveFrame s x f ≠ .held) : firstReady s x [] (f :: r) = some (f, r) := if_pos ⟨hb, hg⟩

theorem firstReady_held {s : State} {x : Port} {f : TxFrame} (h : heldBefore s f = true ∨ gloveFrame s x f = .held) :
    firstReady s x [] [f] = none := by
  refine (if_neg ?_).trans rfl
  rintro ⟨hb, hg⟩
  rcases h with h | h
  · exact Bool.false_ne_true (hb.symm.trans h)
  · exact hg h

/-- The Glove looks at the Dolid block's record alone. -/
theorem gloveFrame_setPort (p : Nat) (y x : Port) (f : TxFrame) (s : State) : gloveFrame (setPort p y s) x f = gloveFrame s x f := rfl

theorem frameTransmit_waits {s : State} {p : Nat} (h : firstReady s (netPort s p) [] (netPort s p).tx = none) :
    Runs (.frameTransmit p none) s s := by
  refine congrArg Host.Outcome.next ?_
  dsimp only
  rw [h]
  exact ite_self _

theorem frameTransmit_refused {s : State} {p k : Nat} {f : TxFrame} {r : List TxFrame} (hn : netRuns s = true)
    (h : firstReady s (netPort s p) [] (netPort s p).tx = some (f, r)) (hg : gloveFrame s (netPort s p) f = .refused k) :
    Runs (.frameTransmit p none) s (gloveDrop f k (setPort p { netPort s p with tx := r } s)) := by
  refine congrArg Host.Outcome.next ((if_neg (by simp [hn])).trans ?_)
  dsimp only
  rw [h]
  dsimp only
  rw [gloveFrame_setPort, hg]

theorem frameTransmit_leaves {s : State} {p : Nat} {f : TxFrame} {r : List TxFrame} (hn : netRuns s = true)
    (h : firstReady s (netPort s p) [] (netPort s p).tx = some (f, r)) (hg : gloveFrame s (netPort s p) f = .passes) :
    Runs (.frameTransmit p none) s (frameLeaves p f (setPort p { netPort s p with tx := r } s)) := by
  refine congrArg Host.Outcome.next ((if_neg (by simp [hn])).trans ?_)
  dsimp only
  rw [h]
  dsimp only
  rw [gloveFrame_setPort, hg]

/-- A frame of the device's own that is no PTP message leaves as its wire bytes. -/
theorem frameLeaves_plain {s : State} {p : Nat} {f : TxFrame} (hpool : f.pool = .none) (hi : f.iid = none) (hptp : f.ptp = none) :
    frameLeaves p f s = portCount p 0x94 { s with
      net := { s.net with sent := s.net.sent ++ [(p, wireBytes (netPort s p) f)] } } := by
  simp [frameLeaves, freeFrame, hi, hptp, hpool]

/-! ### Timestamps (R328) -/

theorem txtsPop_none {x : Port} {cycle : Nat} (h : ∀ e ∈ x.txtsMissed, e.cycle ≠ cycle) :
    x.txtsPop cycle = { x with txts := if x.txts.head?.any (fun e => e.cycle == cycle) then x.txts else x.txts.drop 1 } := by
  have hf : x.txtsMissed.filter (fun e => e.cycle == cycle) = none := by
    cases hm : x.txtsMissed with
    | none => rfl
    | some e => exact if_neg (by simp [h e hm])
  unfold Port.txtsPop
  dsimp only
  rw [hf]

theorem txtsPop_some {x : Port} {e : TxTs} {cycle : Nat} (hm : x.txtsMissed = some e) (he : e.cycle = cycle) :
    x.txtsPop cycle = { x with
      txts := (if x.txts.head?.any (fun e => e.cycle == cycle) then x.txts else x.txts.drop 1) ++ [e]
      txtsLost := false
      txtsMissed := none } := by
  have hf : x.txtsMissed.filter (fun e => e.cycle == cycle) = some e := by
    rw [hm]
    exact if_pos (by simp [he])
  unfold Port.txtsPop
  dsimp only
  rw [hf]

/-- The rest of the FIFO when its oldest entry is older than the hub cycle, and when it is not. -/
theorem txtsRest_old {l : List TxTs} {cycle : Nat} (h : ∀ e ∈ l.head?, e.cycle ≠ cycle) :
    (if l.head?.any (fun e => e.cycle == cycle) then l else l.drop 1) = l.drop 1 := by
  cases l with
  | nil => rfl
  | cons e l => exact if_neg (by simpa using h e rfl)

/-- Nothing moves where the oldest entry is of this hub cycle. -/
theorem txtsPop_new {x : Port} {cycle : Nat} (hm : ∀ e ∈ x.txtsMissed, e.cycle ≠ cycle) {e : TxTs} (hh : e ∈ x.txts.head?)
    (he : e.cycle = cycle) : x.txtsPop cycle = x := by
  have hrest : (if x.txts.head?.any (fun e => e.cycle == cycle) then x.txts else x.txts.drop 1) = x.txts := by
    refine if_pos ?_
    rw [Option.mem_def.1 hh]
    simpa using he
  rw [txtsPop_none hm, hrest]

theorem txtsPop_runs {s : State} {p : Nat} (h : Writable s) : Runs (.txtsPop p) s (setPort p ((netPort s p).txtsPop s.time.cycle) s) :=
  congrArg Host.Outcome.next (hostWrite_writable h)

/-- Settles O43: a frame's filters in the order of R318, its sender's by the Glove, and the timestamp FIFO. -/
theorem framesAreFilteredAndLeave : Obligations.FramesAreFilteredAndLeave := by
  unfold Obligations.FramesAreFilteredAndLeave
  refine ⟨⟨?_, ?_, ?_, ?_⟩, ?_, ?_, ?_, fun s x f hp => if_pos hp, ?_, ?_⟩
  · intro s p b found he hl hn
    obtain ⟨hnone, hsome⟩ := frameReceive_runs b found he hl hn
    dsimp only
    refine ⟨hnone, fun ht hi => ?_, fun ht hi hlen => ?_, fun ht hi h64 hlong hbad => ?_, fun ht hi h64 hlong hm htag ha hp h4 h6 => ?_,
      fun l ht hi h64 hlong hm htag => ?_⟩
    · obtain ⟨l, ht⟩ := Option.isSome_iff_exists.1 ht
      exact (hsome l ht).trans (congrArg _ (frameDecided_corrupt l hi))
    · obtain ⟨l, ht⟩ := Option.isSome_iff_exists.1 ht
      exact (hsome l ht).trans (congrArg _ (frameDecided_length l hi hlen))
    · obtain ⟨l, ht⟩ := Option.isSome_iff_exists.1 ht
      exact (hsome l ht).trans (congrArg _ (frameDecided_filtered l hi h64 hlong hbad))
    · obtain ⟨l, ht⟩ := Option.isSome_iff_exists.1 ht
      refine (hsome l ht).trans (congrArg _ ((frameDecided_sorted l hi h64 hlong hm htag).trans ?_))
      exact (if_neg ha).trans ((if_neg (fun hc => hp hc.1)).trans ((if_neg h4).trans (if_neg h6)))
    · have hsorted := (hsome l ht).trans (congrArg _ (frameDecided_sorted l hi h64 hlong hm htag))
      have hne {m n : Nat} (hmn : m ≠ n) (hety : etherOf b = m) : etherOf b ≠ n := fun h => hmn (hety.symm.trans h)
      refine ⟨fun hety => ?_, fun hety hen h2 hall => ?_, fun hety hno => ?_, fun hety => ?_, fun hety => ?_⟩
      · exact hsorted.trans (congrArg _ (if_pos hety))
      · exact hsorted.trans (congrArg _ ((if_neg (hne (by decide) hety)).trans (if_pos ⟨hety, hen, h2, hall⟩)))
      · refine hsorted.trans (congrArg _ ((if_neg (hne (by decide) hety)).trans ((if_neg ?_).trans
          ((if_neg (hne (by decide) hety)).trans (if_neg (hne (by decide) hety))))))
        rintro ⟨-, hen, h2, hall⟩
        rcases hno with hno | hno | hno
        · exact Bool.false_ne_true (hno.symm.trans hen)
        · exact Bool.false_ne_true (hno.symm.trans h2)
        · exact Bool.false_ne_true (hall.symm.trans hno)
      · exact hsorted.trans (congrArg _ ((if_neg (hne (by decide) hety)).trans ((if_neg (fun hc => hne (by decide) hety hc.1)).trans
          (if_pos hety))))
      · exact hsorted.trans (congrArg _ ((if_neg (hne (by decide) hety)).trans ((if_neg (fun hc => hne (by decide) hety hc.1)).trans
          ((if_neg (hne (by decide) hety)).trans (if_pos hety)))))
  · intro s p m hl h4 ht hs ho
    dsimp only
    rw [arpReceive_answers h4 ht hs ho]
    obtain ⟨y, hlearn, hly⟩ := learn_linkKept p (ip4At m 14) (macOf m 8) s
    obtain ⟨z, hsend, -, hq⟩ := enqueueTx_queues hlearn.port (fromUnusable_arpFrame y (netPort s p) 2 (macOf m 8) (macOf m 8)
      (BitVec.ofNat 32 (ip4At m 14).toNat)) (hly.trans hl)
    have hall := hlearn.trans hsend
    refine ⟨?_, hall.others, hall.tickets, hall.mem⟩
    rw [hall.port]
    exact hq
  · intro s p m hv
    refine ⟨{ port := p, msg := m, nt := BitVec.ofNat 64 (stampAt s (netPort s p).rxLat / 256)
              frac := BitVec.ofNat 8 (stampAt s (netPort s p).rxLat), stepped := false, unsync := !s.rm.established
              cycle := s.time.cycle }, rfl, rfl, ?_, rfl, rfl⟩
    rw [ptpReceive, if_pos hv]
    rfl
  · intro s p u a m l he hm
    have h : dolidReceive p a u m l s = _ := (if_neg (by simp [he])).trans (if_neg (by simp [hm]))
    rw [h]
    exact ⟨{ port := p, src := a, udp := u, bytes := m, cycle := s.time.cycle, reserved := l.1, shared := l.2 },
      rfl, rfl, rfl, rfl, rfl, rfl, rfl, rfl, rfl⟩
  · intro s p f r hn htx hg hpool hi hptp
    have hb : heldBefore s f = false := by simp [heldBefore, hi]
    have hready : firstReady s (netPort s p) [] (netPort s p).tx = some (f, r) := by
      rw [htx]
      exact firstReady_head hb (by rw [hg]; decide)
    have hruns := frameTransmit_leaves hn hready hg
    rw [frameLeaves_plain hpool hi hptp, netPort_setPort] at hruns
    exact ⟨_, hruns, rfl, congrArg Port.tx (netPort_setPort p { netPort s p with tx := r } s),
      fun q hq => netPort_setPort_other hq _ s, rfl, rfl⟩
  · intro s p f r k hn htx hb hg
    refine frameTransmit_refused hn ?_ hg
    rw [htx]
    exact firstReady_head hb (by rw [hg]; exact GloveSays.noConfusion)
  · intro s p f htx h
    refine frameTransmit_waits ?_
    rw [htx]
    exact firstReady_held h
  · intro s p h hm
    refine ⟨fun hh => ?_, fun e hh he => ?_⟩
    · have hpop := txtsPop_none hm
      rw [txtsRest_old hh] at hpop
      exact (txtsPop_runs h).trans (by rw [hpop])
    · exact (txtsPop_runs h).trans (by rw [txtsPop_new hm hh he])
  · intro s p e h hm he hh
    have hpop := txtsPop_some hm he
    rw [txtsRest_old hh] at hpop
    exact (txtsPop_runs h).trans (by rw [hpop])

end Sys2Proof.Machine
end

section
/-!
SUPPORT. Dolid's decisions (R334–R347): which message is taken, what an INIT meets, and which counter a dropped message counts in.
-/
namespace Sys2Proof.Machine

open Sys2Proof

/-! ### The oldest message (R334) -/

/-- The state once the oldest message has left the inbox. -/
def withInbox (r : List DolMsg) (s : State) : State := { s with dol := { s.dol with inbox := r } }

theorem takeMsg_takes {s : State} {m : DolMsg} {r : List DolMsg} {ty : Nat} (hl : Live s) (hw : s.boot.warm = false)
    (hi : s.dol.inbox = m :: r) (ht : byteAt m.bytes 1 = ty) : takeMsg ty m.port s = some (m, withInbox r s) := by
  unfold takeMsg
  rw [hi]
  refine if_neg ?_
  rintro (h | h | h | h)
  · exact Bool.false_ne_true (hl.symm.trans h)
  · exact Bool.false_ne_true (hw.symm.trans h)
  · exact h ht
  · exact h rfl

theorem takeMsg_otherPort {s : State} {m : DolMsg} {r : List DolMsg} {ty p : Nat} (hi : s.dol.inbox = m :: r) (hp : p ≠ m.port) :
    takeMsg ty p s = none := by
  unfold takeMsg
  rw [hi]
  exact if_pos (.inr (.inr (.inr (Ne.symm hp))))

/-! ### INIT (R335, R336) -/

/-- The peer that an INIT names. -/
def initPeer (m : DolMsg) : W64 := BitVec.ofNat 64 (beNat (slice m.bytes 20 8))

/-- An INIT for a tenant of the device that is enabled, in use and reached over this version of IP. -/
def initKnown (s : State) (m : DolMsg) : Bool :=
  halfAt m.bytes 16 < iidCount s && (dolInst s (halfAt m.bytes 16)).en && decide ((inst s (halfAt m.bytes 16)).st ≠ .free)
    && (if isV4 m.src then (dolInst s (halfAt m.bytes 16)).v4 else (dolInst s (halfAt m.bytes 16)).v6)

theorem initKnown_iff (s : State) (m : DolMsg) : initKnown s m = true ↔ halfAt m.bytes 16 < iidCount s ∧
    (dolInst s (halfAt m.bytes 16)).en = true ∧ (inst s (halfAt m.bytes 16)).st ≠ .free ∧
    (if isV4 m.src then !(dolInst s (halfAt m.bytes 16)).v4 else !(dolInst s (halfAt m.bytes 16)).v6) = false := by
  unfold initKnown
  cases isV4 m.src
  all_goals simp [and_assoc]

/-- The peer entry that admits an INIT. -/
def initEntry (s : State) (m : DolMsg) : Option (Nat × Peer) :=
  if initKnown s m = true then peerOf s (halfAt m.bytes 16) (initPeer m) else none

/-- The session that an INIT has already opened. -/
def initSession (s : State) (m : DolMsg) : Option Session :=
  s.dol.sessions.find? (fun x => x.iid == halfAt m.bytes 16 && x.peerId == initPeer m && x.cnonce.toNat == beNat (slice m.bytes 28 16))

/-- The COOKIE that answers an INIT. -/
def cookieSent (m : DolMsg) (s : State) : State :=
  dolSend m.port m.src m.udp (if halfAt m.bytes 16 < iidCount s then some (halfAt m.bytes 16) else none) true
    (dolHeader 2 32 0 0 ++ slice m.bytes 28 16 ++ cookieFor s m) s

/-- An INIT that has left the inbox, by the rows of R336. -/
def initDecided (m : DolMsg) (s : State) : State :=
  if s.dol.key.isSome = false then freeMsg m (bump (dolCnt 1) 0 32 s)
  else if cookieValid s m = false then freeMsg m (bump (dolCnt 0) 0 32 (cookieSent m s))
  else match initEntry s m with
    | none => freeMsg m (bump (dolCnt 2) 0 32 s)
    | some pe =>
      match initSession s m with
      | some x => freeMsg m (sendAccept x m.port s)
      | none => initAdmitted m (halfAt m.bytes 16) pe s

theorem dolidInit_decides {s : State} {m : DolMsg} {r : List DolMsg} (hl : Live s) (hw : s.boot.warm = false)
    (hi : s.dol.inbox = m :: r) (ht : byteAt m.bytes 1 = 1) : Runs (.dolidInit m.port) s (initDecided m (withInbox r s)) := by
  have htake := takeMsg_takes hl hw hi ht
  generalize withInbox r s = u at htake
  refine congrArg Host.Outcome.next ?_
  unfold dolidInit
  rw [htake]
  dsimp only
  have hentry : (if halfAt m.bytes 16 < iidCount u ∧ (dolInst u (halfAt m.bytes 16)).en = true ∧
      (inst u (halfAt m.bytes 16)).st ≠ .free ∧
      (if isV4 m.src then !(dolInst u (halfAt m.bytes 16)).v4 else !(dolInst u (halfAt m.bytes 16)).v6) = false then
      peerOf u (halfAt m.bytes 16) (BitVec.ofNat 64 (beNat (slice m.bytes 20 8))) else none) = initEntry u m := by
    unfold initEntry
    simp only [initKnown_iff, initPeer]
  unfold initDecided cookieReady
  rw [hentry]
  rfl

theorem initDecided_keyless {m : DolMsg} {s : State} (h : s.dol.key = none) :
    initDecided m s = freeMsg m (bump (dolCnt 1) 0 32 s) := if_pos (by rw [h]; rfl)

theorem initDecided_cookieless {m : DolMsg} {s : State} (h : s.dol.key.isSome = true) (hc : cookieValid s m = false) :
    initDecided m s = freeMsg m (bump (dolCnt 0) 0 32 (cookieSent m s)) := (if_neg (by simp [h])).trans (if_pos hc)

section
variable {m : DolMsg} {s : State} (h : s.dol.key.isSome = true) (hc : cookieValid s m = true)
include h hc

theorem initDecided_unknown (he : initEntry s m = none) : initDecided m s = freeMsg m (bump (dolCnt 2) 0 32 s) := by
  rw [initDecided, if_neg (by simp [h]), if_neg (by simp [hc]), he]

theorem initDecided_again {pe : Nat × Peer} {x : Session} (he : initEntry s m = some pe) (hx : initSession s m = some x) :
    initDecided m s = freeMsg m (sendAccept x m.port s) := by
  rw [initDecided, if_neg (by simp [h]), if_neg (by simp [hc]), he]
  dsimp only
  rw [hx]

theorem initDecided_admitted {pe : Nat × Peer} (he : initEntry s m = some pe) (hx : initSession s m = none) :
    initDecided m s = initAdmitted m (halfAt m.bytes 16) pe s := by
  rw [initDecided, if_neg (by simp [h]), if_neg (by simp [hc]), he]
  dsimp only
  rw [hx]

end

/-! ### Messages of a session (R334, R340) -/

theorem decideMsg_takes {s : State} {m : DolMsg} {r : List DolMsg} {ty : Nat} (f : List Byte → DolMsg → Session → State → State)
    (hl : Live s) (hw : s.boot.warm = false) (hi : s.dol.inbox = m :: r) (ht : byteAt m.bytes 1 = ty) :
    (∀ k, acceptMsg m (withInbox r s) = .inl k → decideMsg ty m.port m.sid f s = freeMsg m (bump (dolCnt k) 0 32 (withInbox r s))) ∧
    (∀ x pl, acceptMsg m (withInbox r s) = .inr (x, pl) →
      decideMsg ty m.port m.sid f s = f pl m x (modSession x.sid (fun _ => x) (withInbox r s))) := by
  have htake : (takeMsg ty m.port s).filter (fun q => q.1.sid == m.sid) = some (m, withInbox r s) := by
    rw [takeMsg_takes hl hw hi ht]
    exact if_pos (beq_self_eq_true _)
  refine ⟨fun k h => ?_, fun x pl h => ?_⟩
  all_goals
    unfold decideMsg
    rw [htake]
    dsimp only
    rw [h]

theorem acceptMsg_stray {m : DolMsg} {s : State} (h : dolSession? s m.sid = none) : acceptMsg m s = .inl 4 := by
  unfold acceptMsg
  rw [h]

theorem acceptMsg_foreign {m : DolMsg} {s : State} {x : Session} (h : dolSession? s m.sid = some x)
    (hbad : m.src ≠ x.addr ∨ m.udp ≠ x.udp ∨ opened x m = none) : acceptMsg m s = .inl 4 := by
  unfold acceptMsg
  rw [h]
  dsimp only
  split
  · rfl
  next hok =>
    rcases hbad with hbad | hbad | hbad
    · exact absurd (.inl hbad) hok
    · exact absurd (.inr (.inl hbad)) hok
    · rw [hbad]

section
variable {m : DolMsg} {s : State} {x : Session} {pl : List Byte} (h : dolSession? s m.sid = some x) (ha : m.src = x.addr)
  (hu : m.udp = x.udp) (hk : x.keyOk = true) (ho : opened x m = some pl)
include h ha hu hk ho

theorem acceptMsg_replayed (hr : replayed x (beNat (slice m.bytes 8 8)) = none) : acceptMsg m s = .inl 5 := by
  unfold acceptMsg
  rw [h]
  dsimp only
  rw [if_neg (by simp [ha, hu, hk]), ho, hr]

theorem acceptMsg_accepts {y : Session} (hr : replayed x (beNat (slice m.bytes 8 8)) = some y) :
    acceptMsg m s = .inr ({ y with last := s.time.ticks, port := m.port }, pl) := by
  unfold acceptMsg
  rw [h]
  dsimp only
  rw [if_neg (by simp [ha, hu, hk]), ho, hr]

end

/-- Settles O44: an INIT by its rows, every other message by whether its session accepts it. -/
theorem dolidMessagesAreDecidedInOrder : Obligations.DolidMessagesAreDecidedInOrder := by
  unfold Obligations.DolidMessagesAreDecidedInOrder
  refine ⟨?_, ?_, fun s m h => ?_, ?_, ?_, fun m s => acceptMsg_stray, fun m s x => acceptMsg_foreign,
    fun m s x pl => acceptMsg_replayed, fun m s x y pl h ha hu hk ho hr => acceptMsg_accepts h ha hu hk ho hr⟩
  · intro s m r hl hw hi ht
    have hruns := dolidInit_decides hl hw hi ht
    have hentry {pe : Nat × Peer} (hk : initKnown s m = true) (hp : peerOf s (halfAt m.bytes 16) (initPeer m) = some pe) :
        initEntry (withInbox r s) m = some pe := (if_pos hk).trans hp
    dsimp only
    refine ⟨fun hn => ?_, fun hk hc => ?_, fun hk hc hbad => ?_, fun pe x hk hc hknown hp hx => ?_,
      fun pe hk hc hknown hp hx => ?_, fun p hp => ?_⟩
    · exact hruns.trans (congrArg _ (initDecided_keyless hn))
    · exact hruns.trans (congrArg _ (initDecided_cookieless hk hc))
    · refine hruns.trans (congrArg _ (initDecided_unknown hk hc ?_))
      rcases hbad with hbad | hbad
      · exact if_neg (fun hknown => Bool.false_ne_true (hbad.symm.trans hknown))
      · by_cases hknown : initKnown s m = true
        · exact (if_pos hknown).trans hbad
        · exact if_neg hknown
    · exact hruns.trans (congrArg _ (initDecided_again (s := withInbox r s) hk hc (hentry hknown hp) hx))
    · exact hruns.trans (congrArg _ (initDecided_admitted (s := withInbox r s) hk hc (hentry hknown hp) hx))
    · refine congrArg Host.Outcome.next ?_
      unfold dolidInit
      rw [takeMsg_otherPort hi hp]
  · intro s m i pe
    dsimp only
    refine ⟨fun h => if_pos h, fun h hs => ?_, fun h hs ha => ?_, fun h hs ha hv => ?_, fun h hs ha hv hfull => ?_⟩
    · exact (if_neg (by simp [h])).trans (if_pos hs)
    · exact (if_neg (by simp [h])).trans ((if_neg (by simp [hs])).trans (if_pos ha))
    · exact (if_neg (by simp [h])).trans ((if_neg (by simp [hs])).trans ((if_neg (not_not_intro ha)).trans (if_pos hv)))
    · exact (if_neg (by simp [h])).trans ((if_neg (by simp [hs])).trans ((if_neg (not_not_intro ha)).trans
        ((if_neg (by simp [hv])).trans (if_pos hfull))))
  · simp [cookieValid, h]
  · intro s m r k hl hw hi hk
    dsimp only
    exact ⟨fun ht => congrArg Host.Outcome.next ((decideMsg_takes _ hl hw hi ht).1 k hk),
      fun ht => congrArg Host.Outcome.next ((decideMsg_takes _ hl hw hi ht).1 k hk),
      fun ht => congrArg Host.Outcome.next ((decideMsg_takes _ hl hw hi ht).1 k hk)⟩
  · intro s m r x pl hl hw hi hk
    dsimp only
    exact ⟨fun ht => congrArg Host.Outcome.next ((decideMsg_takes _ hl hw hi ht).2 x pl hk),
      fun ht => congrArg Host.Outcome.next ((decideMsg_takes _ hl hw hi ht).2 x pl hk),
      fun ht => congrArg Host.Outcome.next ((decideMsg_takes _ hl hw hi ht).2 x pl hk)⟩

end Sys2Proof.Machine
end

section
/-!
SUPPORT. Dolid's timers, the peer table and the refill of the Glove's buckets (R335, R339, R345, R353, R355).
-/
namespace Sys2Proof.Machine

open Sys2Proof

/-! ### What a frame of the block leaves alone -/

/-- The peer table, its error bit and the sessions. -/
def dolTable (s : State) : Table Peer × Bool × List Session := (s.dol.peers, s.dol.peerErr, s.dol.sessions)

theorem dolTable_freeFrame (f : TxFrame) (s : State) : dolTable (freeFrame f s) = dolTable s := by
  unfold freeFrame
  split
  all_goals rfl

theorem dolTable_noResolve (p : Nat) (f : TxFrame) (s : State) : dolTable (noResolve p f s) = dolTable s := dolTable_freeFrame f _

theorem dolTable_dropUnlinked (p : Nat) (f : TxFrame) (s : State) : dolTable (dropUnlinked p f s) = dolTable s := by
  have h : dolTable (freeFrame f (portCount p 0x9C s)) = dolTable s := dolTable_freeFrame f _
  unfold dropUnlinked
  dsimp only
  split
  · exact h
  · exact h

theorem dolTable_enqueueTx (p : Nat) (f : TxFrame) (s : State) : dolTable (enqueueTx p f s) = dolTable s := by
  unfold enqueueTx
  dsimp only
  split
  · exact dolTable_noResolve p f s
  split
  · rfl
  · exact dolTable_dropUnlinked p f s

theorem dolTable_resolveTx (p : Nat) (f : TxFrame) (s : State) : dolTable (resolveTx p f s) = dolTable s := by
  unfold resolveTx
  dsimp only
  split
  · exact dolTable_enqueueTx p _ s
  split
  · exact dolTable_noResolve p f s
  split
  · split
    · refine (dolTable_enqueueTx p _ _).trans ?_
      split
      · exact dolTable_enqueueTx p _ _
      · rfl
    · split
      · rfl
      · exact dolTable_noResolve p f s
  · split
    · exact dolTable_noResolve p f s
    · exact dolTable_enqueueTx p _ _

theorem dolTable_dolSend (p : Nat) (dst : Ip) (udp : Nat) (iid : Option Nat) (refusal : Bool) (m : List Byte) (s : State) :
    dolTable (dolSend p dst udp iid refusal m s) = dolTable s := by
  unfold dolSend sendIp
  dsimp only
  split
  · rfl
  split
  · rfl
  · split
    · refine (dolTable_noResolve p _ _).trans ?_
      split
      all_goals rfl
    · refine (dolTable_resolveTx p _ _).trans ?_
      split
      all_goals rfl

/-! ### The sessions of a peer entry close (R339, R355) -/

/-- The peer table is as before, and every session that is left was there before, for the same peer entry. -/
structure SessionsLeft (s t : State) : Prop where
  peers : t.dol.peers = s.dol.peers
  err : t.dol.peerErr = s.dol.peerErr
  left : ∀ y ∈ t.dol.sessions, ∃ x ∈ s.dol.sessions, y.sid = x.sid ∧ y.peer = x.peer

theorem SessionsLeft.trans {s t u : State} (h : SessionsLeft s t) (h' : SessionsLeft t u) : SessionsLeft s u := by
  refine ⟨h'.peers.trans h.peers, h'.err.trans h.err, fun y hy => ?_⟩
  obtain ⟨x, hx, hsid, hpeer⟩ := h'.left y hy
  obtain ⟨w, hw, hsid', hpeer'⟩ := h.left x hx
  exact ⟨w, hw, hsid.trans hsid', hpeer.trans hpeer'⟩

theorem SessionsLeft.of_table {s t : State} (h : dolTable t = dolTable s) : SessionsLeft s t := by
  obtain ⟨hp, he, hs⟩ : t.dol.peers = s.dol.peers ∧ t.dol.peerErr = s.dol.peerErr ∧ t.dol.sessions = s.dol.sessions := by
    simpa [dolTable] using h
  exact ⟨hp, he, fun y hy => ⟨y, hs ▸ hy, rfl, rfl⟩⟩

theorem sessionFrame_left (x : Session) (p ty : Nat) (refusal : Bool) (plain : List Byte) (s : State) :
    SessionsLeft s (sessionFrame x p ty refusal plain s) := by
  have hmod : SessionsLeft s (modSession x.sid (fun y => { y with seq := y.seq + 1 }) s) := by
    refine ⟨rfl, rfl, fun y hy => ?_⟩
    obtain ⟨z, hz, rfl⟩ := List.mem_map.1 hy
    refine ⟨z, hz, ?_⟩
    split
    all_goals exact ⟨rfl, rfl⟩
  exact hmod.trans (.of_table (dolTable_dolSend _ _ _ _ _ _ _))

/-- A session that closes is gone. -/
theorem closeSession_left (sid : W32) (reason : Option Nat) (s : State) :
    SessionsLeft s (closeSession sid reason s) ∧ ∀ y ∈ (closeSession sid reason s).dol.sessions, y.sid ≠ sid := by
  unfold closeSession
  split
  next h =>
    refine ⟨.of_table rfl, fun y hy he => ?_⟩
    have := List.find?_eq_none.1 h y hy
    simp [he] at this
  next x h =>
    have hframe : SessionsLeft s (match reason with
        | some r => sessionFrame x x.port 0x20 false ([BitVec.ofNat 8 r, 0, 0, 0] : List Byte) s
        | none => s) := by
      split
      · exact sessionFrame_left _ _ _ _ _ s
      · exact .of_table rfl
    refine ⟨hframe.trans ⟨rfl, rfl, fun y hy => ⟨y, (List.mem_filter.1 hy).1, rfl, rfl⟩⟩, fun y hy => ?_⟩
    simpa using (List.mem_filter.1 hy).2

theorem closeSessions_left (l : List Session) (s : State) :
    SessionsLeft s (l.foldl (fun s x => closeSession x.sid (some 4) s) s) ∧
      ∀ x ∈ l, ∀ y ∈ (l.foldl (fun s x => closeSession x.sid (some 4) s) s).dol.sessions, y.sid ≠ x.sid := by
  induction l generalizing s with
  | nil => exact ⟨.of_table rfl, fun x hx => absurd hx List.not_mem_nil⟩
  | cons a l ih =>
    obtain ⟨hleft, hgone⟩ := closeSession_left a.sid (some 4) s
    obtain ⟨hrest, hothers⟩ := ih (closeSession a.sid (some 4) s)
    refine ⟨hleft.trans hrest, fun x hx y hy => ?_⟩
    rcases List.mem_cons.1 hx with rfl | hx
    · obtain ⟨z, hz, hsid, -⟩ := hrest.left y hy
      exact hsid ▸ hgone z hz
    · exact hothers x hx y hy

/-- A peer entry is written: the entry alone changes, and no session of it is left. -/
theorem setPeer_writes (k : Nat) (p : Peer) (s : State) :
    peerAt (setPeer k p s) k = p ∧ (setPeer k p s).dol.peerErr = false ∧
      (∀ j, j ≠ k → peerAt (setPeer k p s) j = peerAt s j) ∧ ∀ x ∈ (setPeer k p s).dol.sessions, x.peer ≠ k := by
  obtain ⟨hleft, hgone⟩ := closeSessions_left (s.dol.sessions.filter (fun x => x.peer == k))
    { s with dol := { s.dol with peers := Table.set {} s.dol.peers k p, peerErr := false, peerIdx := BitVec.ofNat 13 k } }
  have ht : setPeer k p s = (s.dol.sessions.filter (fun x => x.peer == k)).foldl (fun s x => closeSession x.sid (some 4) s)
    { s with dol := { s.dol with peers := Table.set {} s.dol.peers k p, peerErr := false, peerIdx := BitVec.ofNat 13 k } } := rfl
  rw [← ht] at hleft hgone
  generalize setPeer k p s = t at hleft hgone ⊢
  have hpeers : t.dol.peers = Table.set {} s.dol.peers k p := hleft.peers
  refine ⟨?_, hleft.err, fun j hj => ?_, fun x hx hpeer => ?_⟩
  · rw [peerAt, hpeers]
    exact Table.get_set_same _ _ _ _
  · rw [peerAt, hpeers]
    exact Table.get_set_other _ _ _ hj
  · obtain ⟨y, hy, hsid, hp⟩ := hleft.left x hx
    exact hgone y (List.mem_filter.2 ⟨hy, by simp [← hp, hpeer]⟩) x hx hsid

/-! ### Buckets (R353) -/

theorem get_map_of_mem {α : Type} (d : α) (f : α → α) {l : Table α} {k : Nat} (h : ∃ v, (k, v) ∈ l) :
    Table.get d (l.map (fun e => (e.1, f e.2))) k = f (Table.get d l k) := by
  obtain ⟨v, hv⟩ := h
  induction l with
  | nil => exact absurd hv List.not_mem_nil
  | cons e l ih =>
    obtain ⟨a, w⟩ := e
    by_cases ha : a = k
    · simp [Table.get, ha]
    · have hv' : (k, v) ∈ l := by
        rcases List.mem_cons.1 hv with he | he
        · exact absurd (congrArg Prod.fst he).symm ha
        · exact he
      simpa [Table.get, ha] using ih hv'

/-- Settles O46: the timers by their conditions, the peer table by what `setPeer` writes, the buckets entry by entry. -/
theorem dolidTimersAndPeerTable : Obligations.DolidTimersAndPeerTable := by
  unfold Obligations.DolidTimersAndPeerTable
  refine ⟨?_, ?_, ?_, ?_, fun s d h => congrArg Host.Outcome.next (hostWrite_writable h), ?_, ?_, ?_, ?_⟩
  · intro s sid x hl hx hidle hno
    refine congrArg Host.Outcome.next ((unlessLocked_live hl).trans ?_)
    dsimp only
    rw [hx]
    refine if_pos ⟨hidle, List.any_eq_false.2 fun t ht => ?_⟩
    split
    next k n ho =>
      have hne : k ≠ sid.setWidth 64 := fun hk => hno t ht n (by rw [ho, hk])
      simpa using hne
    next => exact Bool.false_ne_true
  · exact fun s hl hk hd hr hw hep => congrArg Host.Outcome.next ((unlessLocked_live hl).trans (if_pos ⟨hk, hd, hr, hw, hep⟩))
  · exact fun s hl hr => congrArg Host.Outcome.next ((unlessLocked_live hl).trans (if_pos hr))
  · intro s i x r f hl hx hf
    have hruns : Runs (.txidHoldExpiry i x) s (if f.2 + s.dol.holdMs.toNat * 6000000 ≤ s.time.ticks then dropTxn r s else s) := by
      refine congrArg Host.Outcome.next ((unlessLocked_live hl).trans ?_)
      rw [hx]
      dsimp only
      rw [hf]
    refine ⟨fun h => ?_, fun h => ?_⟩
    · rw [if_pos h] at hruns
      exact hruns
    · rw [if_neg (Nat.not_le.2 h)] at hruns
      exact hruns
  · intro s d h hbad
    refine congrArg Host.Outcome.next ((hostWrite_writable h).trans (if_pos ?_))
    rcases hbad with hbad | ⟨e, he, hk, hv, hi, hid⟩
    · exact .inl hbad
    · exact .inr (List.any_eq_true.2 ⟨e, he, by simp [hk, hv, hi, hid]⟩)
  · intro s d h hi hno
    have hruns : Runs (.peerWrite d) s (setPeer (d.toNat % 8192) s.dol.peerReg s) := by
      refine congrArg Host.Outcome.next ((hostWrite_writable h).trans (if_neg ?_))
      rintro (hbad | hbad)
      · exact absurd hi (Nat.not_lt.2 hbad)
      · obtain ⟨e, he, hcond⟩ := List.any_eq_true.1 hbad
        simp only [Bool.and_eq_true, bne_iff_ne, beq_iff_eq] at hcond
        obtain ⟨⟨⟨hk, hv⟩, hiid⟩, hid⟩ := hcond
        exact hno e he hk hv hiid hid
    exact ⟨_, hruns, setPeer_writes _ _ s⟩
  · intro s d h
    obtain ⟨hk, -, hothers, hsessions⟩ := setPeer_writes (d.toNat % 8192) {} s
    exact ⟨_, congrArg Host.Outcome.next (hostWrite_writable h), hk, hothers, hsessions⟩
  · intro s i hl hi
    refine ⟨_, congrArg Host.Outcome.next (unlessLocked_live hl), ?_⟩
    have hget := get_map_of_mem ({} : DolInst) DolInst.refill hi
    refine ⟨congrArg DolInst.levelNet hget, congrArg DolInst.levelPcie hget, rfl, rfl, rfl⟩

end Sys2Proof.Machine
end

section
/-!
SUPPORT. Network time (R356–R363): what the sources, the corrections and holdover leave of NT.
-/
namespace Sys2Proof.Machine

open Sys2Proof

/-! ### What leaves the time alone -/

/-- The states agree in the network time's record, in the tickets, the memory and the time that passes. -/
structure TimeKept (s t : State) : Prop where
  rm : t.rm = s.rm
  tickets : t.tickets = s.tickets
  mem : t.mem = s.mem

theorem TimeKept.trans {s t u : State} (h : TimeKept s t) (h' : TimeKept t u) : TimeKept s u :=
  ⟨h'.rm.trans h.rm, h'.tickets.trans h.tickets, h'.mem.trans h.mem⟩

theorem report_timeKept (ev : Event) (s : State) : TimeKept s (report ev s) := by
  obtain ⟨k, q, h⟩ := report_frame ev s
  rw [h]
  exact ⟨rfl, rfl, rfl⟩

theorem ignoredWrite_timeKept (source : Byte) (off : Nat) (v : W64) (iid : Option Nat) (s : State) :
    TimeKept s (ignoredWrite source off v iid s) := report_timeKept _ s

theorem auditTrack_timeKept (s : State) : TimeKept s (auditTrack s) := ⟨rfl, rfl, rfl⟩

theorem trimTrack_timeKept (was : Nat) (s : State) : TimeKept s (trimTrack was s) := by
  unfold trimTrack
  split
  all_goals exact ⟨rfl, rfl, rfl⟩

theorem causeStep_timeKept (s : State) : TimeKept s (causeStep s) := by
  unfold causeStep
  split
  all_goals exact ⟨rfl, rfl, rfl⟩

/-! ### Holdover (R363) -/

/-- NT's record once holdover has begun. -/
def Ringmaster.held (r : Ringmaster) : Ringmaster := { r with holdover := true, holdFrom := r.nt }

theorem holdoverEntry_held (s : State) :
    (holdoverEntry s).rm = s.rm.held ∧ (holdoverEntry s).tickets = s.tickets ∧ (holdoverEntry s).mem = s.mem := by
  have h := (report_timeKept { cls := .f0, source := 0x16, unit := 0, cause := 0x0B, detail0 := BitVec.ofNat 64 (rmReg 4)
                               detail1 := BitVec.ofNat 64 (rmStatus { s with
                                 rm := s.rm.held, clk := { s.clk with trimLocked := s.clk.trimLocked && trimMode s != 2 } }) }
    (bump (rmReg 0x40) 0 8 { s with
      rm := s.rm.held, clk := { s.clk with trimLocked := s.clk.trimLocked && trimMode s != 2 } })).trans (auditTrack_timeKept _)
  exact ⟨h.rm, h.tickets, h.mem⟩

theorem enterHoldover_held (s : State) :
    (enterHoldover s).rm = (if s.rm.holdover then s.rm else s.rm.held) ∧ (enterHoldover s).tickets = s.tickets ∧
      (enterHoldover s).mem = s.mem := by
  unfold enterHoldover
  split
  · exact ⟨rfl, rfl, rfl⟩
  · exact holdoverEntry_held s

theorem enterHoldover_holds (s : State) : (enterHoldover s).rm.holdover = true ∧ (enterHoldover s).rm.nt = s.rm.nt ∧
    (s.rm.holdover = false → (enterHoldover s).rm.holdFrom = s.rm.nt) := by
  rw [(enterHoldover_held s).1]
  split
  next h => exact ⟨h, rfl, fun hf => absurd h (by simp [hf])⟩
  next => exact ⟨rfl, rfl, fun _ => rfl⟩

/-! ### The source and SET (R359) -/

/-- The record after a write of RM_CTRL, before holdover and SET. -/
def Ringmaster.ctrl (r : Ringmaster) (d : W32) : Ringmaster :=
  { r with
    src := d.setWidth 2
    stepEn := bit d 30
    slew := BitVec.ofNat 4 (field d.toNat 8 4)
    armed := r.armed && !((d.setWidth 2 : BitVec 2) != r.src) }

/-- The state after a write of RM_CTRL, before SET. -/
def ctrlTaken (d : W32) (s : State) : State :=
  let u := trimTrack (trimMode s) { s with rm := s.rm.ctrl d }
  if ((d.setWidth 2 : BitVec 2) != s.rm.src) = true ∧ u.rm.established = true then enterHoldover u else u

theorem rmCtrlWrite_taken {d : W32} {s : State} (h : (d.setWidth 2 : BitVec 2) ≠ 3) :
    rmCtrlWrite d s = if bit d 31 then ntSet d (ctrlTaken d s) else ctrlTaken d s := if_neg h

theorem ctrlTaken_keeps (d : W32) (s : State) : (ctrlTaken d s).tickets = s.tickets ∧ (ctrlTaken d s).mem = s.mem := by
  have htrim := trimTrack_timeKept (trimMode s) { s with rm := s.rm.ctrl d }
  unfold ctrlTaken
  dsimp only
  split
  · obtain ⟨-, ht, hm⟩ := enterHoldover_held (trimTrack (trimMode s) { s with rm := s.rm.ctrl d })
    exact ⟨ht.trans htrim.tickets, hm.trans htrim.mem⟩
  · exact ⟨htrim.tickets, htrim.mem⟩

theorem ctrlTaken_rm (d : W32) (s : State) : (ctrlTaken d s).rm = s.rm.ctrl d ∨ (ctrlTaken d s).rm = (s.rm.ctrl d).held := by
  have htrim := trimTrack_timeKept (trimMode s) { s with rm := s.rm.ctrl d }
  unfold ctrlTaken
  dsimp only
  split
  · rw [(enterHoldover_held _).1, htrim.rm]
    split
    · exact .inl rfl
    · exact .inr rfl
  · exact .inl htrim.rm

theorem ctrlTaken_same {d : W32} {s : State} (h : (d.setWidth 2 : BitVec 2) = s.rm.src) : (ctrlTaken d s).rm = s.rm.ctrl d := by
  have hno : ¬ (((d.setWidth 2 : BitVec 2) != s.rm.src) = true ∧
      (trimTrack (trimMode s) { s with rm := s.rm.ctrl d }).rm.established = true) := by simp [h]
  exact (congrArg State.rm (if_neg hno)).trans (trimTrack_timeKept _ _).rm

theorem ctrlTaken_changed {d : W32} {s : State} (h : (d.setWidth 2 : BitVec 2) ≠ s.rm.src) :
    (ctrlTaken d s).rm.armed = false ∧ (s.rm.established = true → (ctrlTaken d s).rm.holdover = true) := by
  have harmed : (s.rm.ctrl d).armed = false := by simp [Ringmaster.ctrl, h]
  refine ⟨?_, fun he => ?_⟩
  · rcases ctrlTaken_rm d s with hrm | hrm
    all_goals
      rw [hrm]
      exact harmed
  · have hyes : ((d.setWidth 2 : BitVec 2) != s.rm.src) = true ∧
        (trimTrack (trimMode s) { s with rm := s.rm.ctrl d }).rm.established = true :=
      ⟨bne_iff_ne.2 h, by rw [(trimTrack_timeKept _ _).rm]; exact he⟩
    have ht : ctrlTaken d s = enterHoldover (trimTrack (trimMode s) { s with rm := s.rm.ctrl d }) := if_pos hyes
    rw [ht]
    exact (enterHoldover_holds _).1

/-- The value that SET writes to RM_CTRL. -/
def setValue (d : W32) : W32 := d ||| 0x80000000

theorem setValue_src (d : W32) : ((setValue d).setWidth 2 : BitVec 2) = d.setWidth 2 := by simp [setValue]

theorem setValue_sets (d : W32) : bit (setValue d) 31 = true := by simp [setValue, bit]

theorem ntSet_command {d : W32} {s : State} (h : Writable s) (hsrc : (d.setWidth 2 : BitVec 2) ≠ 3) :
    Runs (.ntSet d) s (ntSet (setValue d) (ctrlTaken (setValue d) s)) := by
  refine congrArg Host.Outcome.next ((hostWrite_writable h).trans ((rmCtrlWrite_taken ?_).trans (if_pos (setValue_sets d))))
  exact fun h3 => hsrc ((setValue_src d).symm.trans h3)

/-- SET with no source: the correction to the seconds written, unless NT would go back. -/
theorem ntSet_free (d : W32) {s : State} (h : s.rm.src = 0) : ntSet d s =
    if setTarget s * 2 ^ 32 < ntFine s then ignoredWrite 0x16 (rmReg 0) (d.setWidth 64) none s
    else ntDue (.set ((setTarget s * 2 ^ 32 : Nat) - (ntFine s : Int))) { s with rm := { s.rm with uncSet := s.rm.uncBase } } :=
  (if_neg (by rw [h]; decide)).trans (if_neg (by rw [h]; decide))

/-- SET under the pulse: the next pulse carries it out. -/
theorem ntSet_arms {d : W32} {s : State} (h : s.rm.src = 2) (hl : (ntN s : Int) ≤ (setTarget s : Int) + s.rm.ppsLat.toInt) :
    ntSet d s = { s with rm := { s.rm with armed := true } } :=
  (if_neg (by rw [h]; decide)).trans ((if_pos h).trans (if_neg (Int.not_lt.2 hl)))

/-! ### Corrections (R360) -/

theorem correct_steps {s : State} {d : Int} (h : (s.rm.established = false ∧ 0 ≤ d) ∨
    (((s.rm.stepTh.toNat * 2 ^ 32 : Nat) : Int) ≤ d ∧ s.rm.stepEn = true)) : correct d s = ntStepBy d.toNat s := by
  unfold correct
  split
  · rfl
  next hno => exact if_pos (h.resolve_left hno)

theorem markStepped_rm (s : State) : (markStepped s).rm = s.rm := rfl

theorem setNtFine_rm (n : Nat) (s : State) :
    (setNtFine n s).rm = { s.rm with nt := BitVec.ofNat 64 (n / 2 ^ 32), ntFrac := BitVec.ofNat 32 n } := rfl

/-- The record once NT has stepped to n, in 2^-32 ns. -/
def Ringmaster.stepped (r : Ringmaster) (n : Nat) : Ringmaster :=
  { r with
    nt := BitVec.ofNat 64 (n / 2 ^ 32)
    ntFrac := BitVec.ofNat 32 n
    slewLeft := 0
    established := true
    moved := true }

theorem ntStepBy_eq (d : Nat) (s : State) : ntStepBy d s = causeStep (bump (rmReg 0x40) 2 16
    { markStepped (setNtFine (ntFine s + d) s) with
      rm := { (markStepped (setNtFine (ntFine s + d) s)).rm with slewLeft := 0, established := true, moved := true } }) := rfl

theorem ntStepBy_rm (d : Nat) (s : State) : (ntStepBy d s).rm = s.rm.stepped (ntFine s + d) := by
  rw [ntStepBy_eq, (causeStep_timeKept _).rm, bump_rm, markStepped_rm, setNtFine_rm]
  rfl

/-! ### Pulses (R361) -/

/-- The pulse comes at least 900 ms after the last accepted one. -/
def ppsTaken (s : State) : Prop := ∀ t0, s.rm.lastPps = some t0 → t0 + 5400000000 ≤ s.time.ticks

/-- The pulse is recorded as the last one. -/
def pulseSeen (s : State) : State := { s with rm := { s.rm with lastPps := some s.time.ticks } }

/-- What an accepted pulse does, before the end of holdover. -/
def ppsActs (s : State) : State :=
  if s.rm.armed then
    if ((setTarget s : Int) + s.rm.ppsLat.toInt) * 2 ^ 32 < ntFine s then
      ppsServo (ignoredWrite 0x16 (rmReg 0) 0x80000002 none { s with rm := { s.rm with armed := false } })
    else ntDue (.armed (((setTarget s : Int) + s.rm.ppsLat.toInt) * 2 ^ 32 - ntFine s)) { s with rm := { s.rm with armed := false } }
  else ppsServo s

/-- With REF10_IN a pulse ends holdover. -/
def pulseEnds (s : State) : State := if s.clk.ref10Ok then { s with rm := { s.rm with holdover := false } } else s

theorem pulseEnds_rm (s : State) : (pulseEnds s).rm = if s.clk.ref10Ok then { s.rm with holdover := false } else s.rm := by
  unfold pulseEnds
  split
  all_goals rfl

theorem ppsEdge_runs {s : State} (hsrc : s.rm.src = 2) (hp : ppsTaken s) :
    Runs .ppsEdge s (auditTrack (pulseEnds (ppsActs (pulseSeen s)))) := by
  refine congrArg Host.Outcome.next ((if_neg (not_not_intro hsrc)).trans (if_neg ?_))
  split
  next t0 ht =>
    have hlate := hp t0 ht
    simp only [decide_eq_true_eq]
    omega
  next => exact Bool.false_ne_true

theorem ppsServo_established {s : State} (h : s.rm.established = true) : ppsServo s = { s with
    rm := { s.rm with
      due := s.rm.due ++ [.servo (-ppsPhase s * 2 ^ 32)]
      freq := if s.clk.ref10Ok then clampFreq (s.rm.freq.toInt + -ppsPhase s * 65536 / 8000) else s.rm.freq
      ppsErr := ((-ppsPhase s).natAbs :: s.rm.ppsErr).take 16 } } :=
  if_neg (by simp [h])

theorem ppsActs_unarmed {s : State} (ha : s.rm.armed = false) (he : s.rm.established = true) : ppsActs s = { s with
    rm := { s.rm with
      due := s.rm.due ++ [.servo (-ppsPhase s * 2 ^ 32)]
      freq := if s.clk.ref10Ok then clampFreq (s.rm.freq.toInt + -ppsPhase s * 65536 / 8000) else s.rm.freq
      ppsErr := ((-ppsPhase s).natAbs :: s.rm.ppsErr).take 16 } } :=
  (if_neg (by simp [ha])).trans (ppsServo_established he)

theorem ppsActs_armed {s : State} (ha : s.rm.armed = true)
    (hlate : ((ntFine s : Nat) : Int) ≤ (((setTarget s : Nat) : Int) + s.rm.ppsLat.toInt) * 2 ^ 32) :
    ppsActs s = ntDue (.armed (((setTarget s : Int) + s.rm.ppsLat.toInt) * 2 ^ 32 - ntFine s))
      { s with rm := { s.rm with armed := false } } :=
  (if_pos ha).trans (if_neg (Int.not_lt.2 hlate))

/-! ### Silence (R363) -/

theorem sourceSilent_manager {s : State} (hsrc : s.rm.src = 1) (h : s.rm.lastApply + 24000000000 ≤ s.time.ticks) :
    sourceSilent s = true := by
  have hsecond : 4 * secondTicks = 24000000000 := rfl
  unfold sourceSilent
  split
  · exact decide_eq_true (by rw [hsecond]; exact h)
  next h2 => simp [hsrc] at h2
  next h1 _ => simp [hsrc] at h1

theorem sourceSilent_pulse {s : State} (hsrc : s.rm.src = 2)
    (h : ∀ t0, s.rm.lastPps = some t0 → t0 + 6600000000 ≤ s.time.ticks) : sourceSilent s = true := by
  unfold sourceSilent
  split
  next h1 => simp [hsrc] at h1
  · split
    next t0 ht =>
      have := h t0 ht
      exact decide_eq_true (by omega)
    next => rfl
  next _ h2 => simp [hsrc] at h2

/-- Settles O47: every write and event by the record it leaves, the cycle's end by the order of its corrections. -/
theorem networkTimeIsSetAndCorrected : Obligations.NetworkTimeIsSetAndCorrected := by
  unfold Obligations.NetworkTimeIsSetAndCorrected
  refine ⟨?_, ?_, ?_, ?_, ?_, ?_, fun s => rfl, ?_, ?_, ?_, ?_, ?_, ?_, ?_⟩
  · exact fun s d h hsrc => congrArg Host.Outcome.next ((hostWrite_writable h).trans (if_pos hsrc))
  · intro s d h hsrc hset
    refine ⟨ctrlTaken d s, congrArg Host.Outcome.next ((hostWrite_writable h).trans ((rmCtrlWrite_taken hsrc).trans
      (if_neg (by simp [hset])))), ?_, ?_, ?_, ?_, fun hchange => ctrlTaken_changed fun he => hchange ?_, ctrlTaken_keeps d s⟩
    all_goals
      rcases ctrlTaken_rm d s with hrm | hrm
      all_goals
        rw [hrm]
        first | rfl | exact he
  · intro s d h hsrc h0
    have hrm := ctrlTaken_same (d := setValue d) (s := s) (by rw [setValue_src, hsrc, h0])
    have hruns := ntSet_command h (by rw [hsrc]; decide)
    have hsrc0 : (ctrlTaken (setValue d) s).rm.src = 0 := by
      rw [hrm]
      exact (setValue_src d).trans hsrc
    have hset := ntSet_free (setValue d) hsrc0
    have hfine : ntFine (ctrlTaken (setValue d) s) = ntFine s := by rw [ntFine, hrm]; rfl
    have htarget : setTarget (ctrlTaken (setValue d) s) = setTarget s := by rw [setTarget, hrm]; rfl
    rw [hfine, htarget] at hset
    rw [hset] at hruns
    refine ⟨_, hruns, ?_⟩
    by_cases hlow : setTarget s * 2 ^ 32 < ntFine s
    · rw [if_pos hlow, (ignoredWrite_timeKept _ _ _ _ _).rm, hrm]
      exact ⟨rfl, rfl, fun hge => absurd hlow (Nat.not_lt.2 hge), fun _ => ⟨rfl, rfl⟩⟩
    · rw [if_neg hlow, hrm]
      exact ⟨rfl, rfl, fun _ => ⟨rfl, rfl⟩, fun hlt => absurd hlt hlow⟩
  · intro s d h hsrc h2 hlate
    have hrm := ctrlTaken_same (d := setValue d) (s := s) (by rw [setValue_src, hsrc, h2])
    have hruns := ntSet_command h (by rw [hsrc]; decide)
    have hsrc2 : (ctrlTaken (setValue d) s).rm.src = 2 := by
      rw [hrm]
      exact (setValue_src d).trans hsrc
    have hset := ntSet_arms (d := setValue d) hsrc2 (by
      rw [setTarget, ntN, hrm]
      exact hlate)
    rw [hset] at hruns
    refine ⟨_, hruns, rfl, ?_⟩
    dsimp only
    rw [hrm]
    rfl
  · intro s hm hsrc
    exact ⟨_, congrArg Host.Outcome.next ((if_neg (by simp [hm])).trans (if_neg (not_not_intro hsrc))), rfl, rfl, rfl, rfl⟩
  · exact fun s hm hsrc => congrArg Host.Outcome.next ((if_neg (by simp [hm])).trans (if_pos hsrc))
  · intro s a c hdue ha hc
    have hsorted : s.rm.due.filter (fun c => !c.isApply) ++ s.rm.due.filter NtCorrection.isApply = [c, a] := by simp [hdue, ha, hc]
    unfold ntClose
    rw [hsorted]
    rfl
  · intro s d h
    rw [correct_steps h, ntStepBy_rm]
    exact ⟨rfl, rfl, rfl, rfl⟩
  · intro s d hest hsmall
    refine (if_neg ?_).trans (if_neg ?_)
    · rintro ⟨he, hd⟩
      rcases hest with hest | hest
      · exact Bool.false_ne_true (he.symm.trans hest)
      · exact absurd hd (Int.not_le.2 hest)
    · rintro ⟨hth, hen⟩
      rcases hsmall with hsmall | hsmall
      · exact absurd hth (Int.not_le.2 hsmall)
      · exact Bool.false_ne_true (hsmall.symm.trans hen)
  · intro s t0 hsrc hlast hearly
    refine congrArg Host.Outcome.next ((if_neg (not_not_intro hsrc)).trans ?_)
    dsimp only
    rw [hlast]
    exact if_pos (decide_eq_true (by omega))
  · intro s hsrc hp harmed hest
    have hacts := ppsActs_unarmed (s := pulseSeen s) harmed hest
    have hphase : ppsPhase (pulseSeen s) = ppsPhase s := rfl
    refine ⟨_, ppsEdge_runs hsrc hp, ?_⟩
    rw [(auditTrack_timeKept _).rm, pulseEnds_rm, hacts, hphase]
    generalize ppsPhase s = w
    by_cases hok : (pulseSeen s).clk.ref10Ok = true
    · rw [if_pos hok]
      exact ⟨rfl, rfl, rfl, fun _ => ⟨rfl, if_pos hok⟩, fun hno => absurd (hno.symm.trans hok) Bool.false_ne_true⟩
    · rw [if_neg hok]
      exact ⟨rfl, rfl, rfl, fun hyes => absurd hyes hok, fun _ => ⟨rfl, if_neg hok⟩⟩
  · intro s hsrc hp harmed hlate
    have hacts := ppsActs_armed (s := pulseSeen s) harmed hlate
    refine ⟨_, ppsEdge_runs hsrc hp, ?_⟩
    rw [(auditTrack_timeKept _).rm, pulseEnds_rm, hacts]
    split
    all_goals exact ⟨rfl, rfl, rfl, rfl⟩
  · intro s h
    obtain ⟨hh, hn, hf⟩ := enterHoldover_holds s
    have hsilent : sourceSilent s = true := by
      rcases h with ⟨hsrc, hlate⟩ | ⟨hsrc, hlate⟩
      · exact sourceSilent_manager hsrc hlate
      · exact sourceSilent_pulse hsrc hlate
    exact ⟨_, congrArg Host.Outcome.next (if_pos hsilent), hh, hf, hn, (enterHoldover_held s).2.1⟩

end Sys2Proof.Machine
end

section
/-!
SUPPORT. The schedule (R365–R368): a write of an entry, a firing and what its action leaves of the table.
-/
namespace Sys2Proof.Machine

open Sys2Proof

/-! ### What leaves the Ringmaster's record alone -/

theorem renumber_rm (c : NowCommit) (e : W64) (k : Nat) (s : State) : (renumber c e k s).rm = s.rm := by
  unfold renumber
  dsimp only
  split
  all_goals rfl

theorem takeBoundary_rm (s : State) : (takeBoundary s).rm = s.rm := by
  have hmoved (l : List NowCommit) (e : W64) (f : NowCommit → Nat) (u : State) :
      (l.foldl (fun s c => renumber c e (f c) s) u).rm = u.rm := foldl_keeps State.rm (fun s c => renumber_rm c e (f c) s) l u
  unfold takeBoundary
  dsimp only
  split
  · exact hmoved _ _ _ s
  · refine (foldl_keeps State.rm ?_ _ _).trans (hmoved _ _ _ s)
    exact fun _ _ => rfl

theorem tryBoundary_rm (s : State) : (tryBoundary s).rm = s.rm := by
  unfold tryBoundary
  dsimp only
  split
  · rfl
  split
  · split
    · rfl
    · exact (report_timeKept _ _).rm
  · exact takeBoundary_rm s

theorem boundaryNow_rm (s : State) : (boundaryNow s).rm = s.rm := by
  unfold boundaryNow
  split
  · exact tryBoundary_rm s
  · rfl

theorem causeSeal_rm (s : State) : (causeSeal s).rm = s.rm := by
  unfold causeSeal
  split
  · exact boundaryNow_rm _
  · rfl

theorem drbgStart_rm (s : State) : (drbgStart s).rm = s.rm := by
  unfold drbgStart
  dsimp only
  repeat' split
  all_goals rfl

theorem sessionSend_rm (sid : W32) (p ty : Nat) (refusal : Bool) (plain : List Byte) (s : State) :
    (sessionSend sid p ty refusal plain s).rm = s.rm := by
  unfold sessionSend
  split
  · rfl
  · dsimp only
    split
    · exact (congrArg State.rm ((besideNet_closeSession _ _ _).trans (besideNet_sessionFrame _ _ _ _ _ _)) :)
    · exact (congrArg State.rm (besideNet_sessionFrame s p _ ty refusal plain) :)

theorem emit_rm (r : HostReq) (s : State) : (emit r s).rm = s.rm := by
  unfold emit
  repeat' split
  all_goals rfl

theorem msix_rm (v : Nat) (s : State) : (msix v s).rm = s.rm := by
  obtain ⟨p, h⟩ := msix_frame v s
  rw [h]

theorem writeEntry_rm (t : Ticket) (f : Final) (interim : Bool) (s : State) : (writeEntry t f interim s).rm = s.rm := by
  unfold writeEntry
  extract_lets x addr s₁ s₂ s₃ pcie s₄ s₅
  have h₂ : s₂.rm = s.rm := (emit_rm _ _).trans (emit_rm _ _)
  have h₄ : s₄.rm = s.rm := by
    unfold s₄
    split
    all_goals exact h₂
  have h₅ : s₅.rm = s.rm := by
    unfold s₅
    split
    all_goals exact h₄
  split
  · exact (msix_rm _ _).trans h₅
  · exact h₅

theorem deferEntry_rm (t : Ticket) (hint : Nat) (s : State) : (deferEntry t hint s).rm = s.rm := by
  unfold deferEntry
  split
  · rfl
  · dsimp only
    split
    · exact sessionSend_rm _ _ _ _ _ _
    · split
      · rfl
      · exact writeEntry_rm _ _ _ _

theorem deferIfLong_rm (tid : Nat) (s : State) : (deferIfLong tid s).rm = s.rm := by
  unfold deferIfLong
  split
  · rfl
  · dsimp only
    split
    · exact deferEntry_rm _ _ s
    · rfl

theorem evictFor_rm (r extra n : Nat) (s : State) : (evictFor r extra n s).rm = s.rm := by
  induction n generalizing s with
  | zero => rfl
  | succ n ih =>
    unfold evictFor
    split
    · rfl
    · split
      · rfl
      · exact ih _

theorem recompute_rm (s : State) : (recompute s).rm = s.rm := by
  unfold recompute
  dsimp only
  split
  · exact (report_timeKept _ _).rm
  · rfl

theorem shareBoundary_rm (s : State) : (shareBoundary s).rm = s.rm := by
  unfold shareBoundary
  dsimp only
  refine (foldl_keeps State.rm (fun s tid => deferIfLong_rm tid s) _ _).trans ?_
  refine (foldl_keeps State.rm (fun s r => evictFor_rm r 0 _ s) _ _).trans ?_
  exact recompute_rm _

/-! ### The table (R365) -/

theorem sched_of_rm {s t : State} (h : t.rm = s.rm) (j : Nat) : sched t j = sched s j := by
  unfold sched
  rw [h]

theorem sched_setSched {k : Nat} (x : Sched) (s : State) : sched (setSched k x s) k = x := by
  unfold sched setSched
  by_cases h : k = 0
  · simp only [h, if_true]
  · simp only [h, if_false]
    exact Table.get_set_same _ _ _ _

theorem sched_setSched_other {k j : Nat} (h : j ≠ k) (x : Sched) (s : State) : sched (setSched k x s) j = sched s j := by
  unfold sched setSched
  by_cases hj : j = 0
  · have hk : k ≠ 0 := fun hk => h (hj.trans hk.symm)
    simp only [hj, hk, if_true, if_false]
  · by_cases hk : k = 0
    · simp only [hj, hk, if_true, if_false]
    · simp only [hj, hk, if_false]
      exact Table.get_set_other _ _ _ h

theorem setSched_keeps (k : Nat) (x : Sched) (s : State) : (setSched k x s).tickets = s.tickets ∧ (setSched k x s).mem = s.mem ∧
    (setSched k x s).rm.pulses = s.rm.pulses := by
  unfold setSched
  split
  all_goals exact ⟨rfl, rfl, rfl⟩

/-- An entry as a write of its CTRL leaves it. -/
def Sched.staged (x : Sched) (d : W32) : Sched :=
  { x with
    syncOnly := bit d 30
    arg := d.setWidth 24
    fire := x.fireStaged
    period := periodOf x.periodStaged
    en := bit d 31
    action := BitVec.ofNat 4 (field d.toNat 24 4) }

theorem scheduleEntryWrite_stages {s : State} {k : Nat} {d : W32} (h : Writable s) (hk : 1 ≤ k) (hk' : k < 256)
    (hact : field d.toNat 24 4 < 8) (hone : field d.toNat 24 4 ≠ 1) :
    Runs (.scheduleEntryWrite k d) s (setSched k ((sched s k).staged d) s) :=
  congrArg Host.Outcome.next ((hostWrite_writable h).trans ((if_neg (Nat.not_le.2 hk')).trans ((if_neg (Nat.not_le.2 hact)).trans
    ((if_neg (Nat.ne_of_gt hk)).trans (if_neg hone)))))

/-! ### A firing (R366, R367) -/

/-- The action leaves the table, a WAKE's record apart. -/
theorem schedAction_sched {k : Nat} {x : Sched} (h : x.action ≠ 7) (s : State) (j : Nat) :
    sched (schedAction k x s) j = sched s j := by
  unfold schedAction
  split
  · exact sched_of_rm (causeSeal_rm s) j
  · exact sched_of_rm (drbgStart_rm _) j
  · rfl
  · exact sched_of_rm (shareBoundary_rm s) j
  · rfl
  · rfl
  next h7 => exact absurd (BitVec.eq_of_toNat_eq h7) h
  · rfl

theorem schedAction_pulse {k : Nat} {x : Sched} (h : x.action = 6) (s : State) :
    Table.get 0 (schedAction k x s).rm.pulses k = x.fire.toNat + 1000 * max 1 (min 500000 x.arg.toNat) := by
  unfold schedAction
  rw [h]
  exact Table.get_set_same _ _ _ _

theorem schedAction_sweep {k : Nat} {x : Sched} (h : x.action = 3) (s : State) : (schedAction k x s).ks.sweeping = true := by
  unfold schedAction
  rw [h]
  rfl

theorem bumpN_rm (reg f w n : Nat) (s : State) : (bumpN reg f w n s).rm = s.rm := by
  unfold bumpN
  dsimp only
  split
  all_goals rfl

/-- The state once entry k has fired, before its action. -/
def firedTable (k : Nat) (s : State) : State :=
  setSched k ((sched s k).fired (ntN s)) { s with rm := { s.rm with fired := s.rm.fired || !outsideOrder s k } }

/-- An entry that waits for NT to be established. -/
def Sched.skips (x : Sched) (established : Bool) : Bool := x.syncOnly && !established

/-- The firings that were passed over and the one skipped. -/
def passedOver (k : Nat) (s : State) : Nat :=
  (if (sched s k).period = 0 then 0 else periodsOver (sched s k) (ntN s) - 1) + b2n ((sched s k).skips s.rm.established)

theorem scheduleFire_fires {s : State} {k : Nat} (hl : Live s) (hk : 1 ≤ k) (hk' : k < 256) (hd : due s k = true)
    (hfirst : outsideOrder s k = true ∨ (firstDue s k = true ∧ s.rm.fired = false)) :
    Runs (.scheduleFire k) s (if (sched s k).skips s.rm.established then bumpN (schedReg k 0x14) 1 8 (passedOver k s) (firedTable k s)
      else schedAction k (sched s k) (bump (schedReg k 0x14) 0 16 (bumpN (schedReg k 0x14) 1 8 (passedOver k s) (firedTable k s)))) := by
  have h0 : k ≠ 0 := Nat.ne_of_gt hk
  have hready : ¬ (256 ≤ k ∨ due s k = false ∨ (outsideOrder s k = false ∧ (firstDue s k = false ∨ s.rm.fired = true))) := by
    rintro (h | h | ⟨ho, h⟩)
    · omega
    · exact Bool.false_ne_true (h.symm.trans hd)
    · rcases hfirst with hf | ⟨hf, hn⟩
      · exact Bool.false_ne_true (ho.symm.trans hf)
      · rcases h with h | h
        · exact Bool.false_ne_true (h.symm.trans hf)
        · exact Bool.false_ne_true (hn.symm.trans h)
  refine congrArg Host.Outcome.next ((unlessLocked_live hl).trans ((if_neg hready).trans ?_))
  dsimp only
  have hsched : sched { s with rm := { s.rm with fired := s.rm.fired || !outsideOrder s k } } k = sched s k := rfl
  simp only [hsched, if_neg h0]
  rfl

theorem passed_rm (k : Nat) (s : State) (reg f w n reg' f' w' : Nat) :
    (bump reg f w (bumpN reg' f' w' n (firedTable k s))).rm = (firedTable k s).rm := bumpN_rm _ _ _ _ _

/-- Whatever the entry does, the table is the one that the firing leaves. -/
theorem firedTable_sched {k : Nat} {s t : State} (h : ∀ j, sched t j = sched (firedTable k s) j) :
    sched t k = (sched s k).fired (ntN s) ∧ ∀ j, j ≠ k → sched t j = sched s j :=
  ⟨(h k).trans (sched_setSched _ _), fun j hj => (h j).trans (sched_setSched_other hj _ _)⟩

/-- What a firing leaves. -/
structure Fires (k : Nat) (s t : State) : Prop where
  table : ∀ j, sched t j = sched (firedTable k s) j
  pulse : (sched s k).syncOnly = false → (sched s k).action = 6 →
    Table.get 0 t.rm.pulses k = (sched s k).fire.toNat + 1000 * max 1 (min 500000 (sched s k).arg.toNat)
  sweep : (sched s k).syncOnly = false → (sched s k).action = 3 → t.ks.sweeping = true

theorem scheduleFire_leaves {s : State} {k : Nat} (hl : Live s) (hk : 1 ≤ k) (hk' : k < 256) (hd : due s k = true)
    (hfirst : outsideOrder s k = true ∨ (firstDue s k = true ∧ s.rm.fired = false)) (hw : (sched s k).action ≠ 7) :
    ∃ t, Runs (.scheduleFire k) s t ∧ Fires k s t := by
  refine ⟨_, scheduleFire_fires hl hk hk' hd hfirst, ?_⟩
  split
  next hskip =>
    have hno : (sched s k).syncOnly ≠ false := by
      intro hf
      simp [Sched.skips, hf] at hskip
    exact ⟨fun j => sched_of_rm (bumpN_rm _ _ _ _ _) j, fun hs => absurd hs hno, fun hs => absurd hs hno⟩
  next =>
    refine ⟨fun j => (schedAction_sched hw _ j).trans (sched_of_rm (passed_rm k s _ _ _ _ _ _ _) j), fun _ h6 => ?_, fun _ h3 => ?_⟩
    · exact schedAction_pulse h6 _
    · exact schedAction_sweep h3 _

/-- Settles O48: a write by its guards, a firing by its place in the order and its action, a pulse by its end. -/
theorem scheduleEntriesFire : Obligations.ScheduleEntriesFire := by
  unfold Obligations.ScheduleEntriesFire
  refine ⟨?_, ?_, ?_, ?_, ?_⟩
  · intro s k d h hk hk' hact hone
    obtain ⟨ht, hm, -⟩ := setSched_keeps k ((sched s k).staged d) s
    refine ⟨_, scheduleEntryWrite_stages h hk hk' hact hone, ?_⟩
    rw [sched_setSched]
    refine ⟨rfl, rfl, ?_, rfl, rfl, rfl, fun j hj => sched_setSched_other hj _ s, ht, hm⟩
    exact (BitVec.toNat_ofNat _ _).trans (Nat.mod_eq_of_lt (by omega))
  · intro s k d h hk hbad
    refine congrArg Host.Outcome.next ((hostWrite_writable h).trans ((if_neg (Nat.not_le.2 hk)).trans ?_))
    by_cases h8 : 8 ≤ field d.toNat 24 4
    · exact if_pos h8
    · obtain ⟨h1, hone⟩ := hbad.resolve_left h8
      exact (if_neg h8).trans ((if_neg (Nat.ne_of_gt h1)).trans (if_pos hone))
  · intro s k hl hk hk' hd hfirst hw
    obtain ⟨t, hruns, hleaves⟩ := scheduleFire_leaves hl hk hk' hd hfirst hw
    obtain ⟨hself, hothers⟩ := firedTable_sched hleaves.table
    have hen : (sched s k).en = true := ((Bool.and_eq_true _ _).mp hd).1
    refine ⟨t, hruns, fun hp => ?_, fun hp => ?_, hleaves.pulse, hleaves.sweep, hothers⟩
    · rw [hself, Sched.fired, if_pos hp]
      exact ⟨rfl, rfl⟩
    · rw [hself, Sched.fired, if_neg hp]
      exact ⟨hen, rfl⟩
  · intro s k hl hbad
    refine congrArg Host.Outcome.next ((unlessLocked_live hl).trans (if_pos ?_))
    exact .inr hbad
  · intro s k hl
    refine ⟨fun h => ?_, fun h => ?_⟩
    · exact congrArg Host.Outcome.next ((unlessLocked_live hl).trans (if_pos h))
    · exact congrArg Host.Outcome.next ((unlessLocked_live hl).trans (if_neg (Nat.not_le.2 h)))

end Sys2Proof.Machine
end

section
/-!
SUPPORT. The audit chain (R370–R378): the boundary of an epoch, its roots, its seal tickets and its record.
-/
namespace Sys2Proof.Machine

open Sys2Proof

/-! ### The boundary (R373) -/

theorem renumber_aud (c : NowCommit) (e : W64) (k : Nat) (s : State) : ∃ q, (renumber c e k s).aud = { s.aud with queue := q } := by
  unfold renumber
  dsimp only
  split
  all_goals exact ⟨_, rfl⟩

theorem renumbered_aud (l : List NowCommit) (e : W64) (f : NowCommit → Nat) (s : State) :
    ∃ q, (l.foldl (fun s c => renumber c e (f c) s) s).aud = { s.aud with queue := q } := by
  induction l generalizing s with
  | nil => exact ⟨s.aud.queue, rfl⟩
  | cons c l ih =>
    obtain ⟨q, hq⟩ := renumber_aud c e (f c) s
    obtain ⟨q', hq'⟩ := ih (renumber c e (f c) s)
    exact ⟨q', by rw [List.foldl_cons, hq', hq]⟩

/-- The record of the epoch that closes. -/
structure Closes (a : Audit) (nt : W64) (x : Sealing) : Prop where
  epoch : x.epoch = a.epoch
  ntStart : x.ntStart = a.ntStart
  ntEnd : x.ntEnd = nt
  trees : x.trees = a.trees

/-- The next epoch stands open, and the one before waits with its record. -/
structure Opens (a : Audit) (nt : W64) (b : Audit) : Prop where
  isOpen : b.isOpen = true
  epoch : b.epoch = a.epoch + 1
  ntStart : b.ntStart = nt
  pendEarly : b.pendEarly = []
  pendSeal : b.pendSeal = false
  trees : b.trees = []
  sealings : ∃ x, b.sealings = a.sealings ++ [x] ∧ Closes a nt x

theorem takeBoundary_opens {s : State} (hf : s.aud.pendFinal = false) : Opens s.aud s.rm.nt (takeBoundary s).aud := by
  unfold takeBoundary
  extract_lets a count ids closing isFinal moved s₁ src s₂ src₂ s₃
  obtain ⟨q, hq⟩ := renumbered_aud moved (a.epoch + 1)
    (fun c => (moved.filter (fun d => d.iid == c.iid && d.core < c.core)).length) s
  have hrm : s₁.rm = s.rm := foldl_keeps State.rm (fun s c => renumber_rm c _ _ s) _ _
  have hopen : Opens s.aud s.rm.nt s₃.aud :=
    ⟨rfl, rfl, congrArg Ringmaster.nt hrm, rfl, rfl, rfl, closing, (congrArg (fun b : Audit => b.sealings ++ [closing]) hq :),
      rfl, rfl, rfl, rfl⟩
  rw [if_neg (by simp [isFinal, a, hf])]
  refine foldl_inv (p := fun t : State => Opens s.aud s.rm.nt t.aud) (fun t c ht => ?_) _ hopen
  exact ⟨ht.isOpen, ht.epoch, ht.ntStart, ht.pendEarly, ht.pendSeal, ht.trees, ht.sealings⟩

theorem causeEarly_takes {s : State} {k : Nat} (ho : s.aud.isOpen = true) (hm : s.rm.moved = true) (hc : stagedCount s < 8) :
    causeEarly k s = takeBoundary { s with aud := { s.aud with pendEarly := s.aud.pendEarly ++ [k] } } := by
  refine (if_pos ho).trans ((if_pos hm).trans ((if_neg ?_).trans (if_neg (Nat.not_le.2 hc))))
  rintro (h | ⟨-, h, -⟩)
  · exact Bool.false_ne_true (h.symm.trans ho)
  · exact absurd h (List.append_ne_nil_of_right_ne_nil _ (List.cons_ne_nil _ _))

/-! ### Roots (R374) -/

/-- Without BOOT_ID no seal ticket is submitted. -/
theorem sealStart_waits {s : State} (h : s.aud.bootReady = false) : sealStart s = s := by
  unfold sealStart
  split
  · rfl
  · exact if_pos (.inr (.inr h))

/-- The trees of a closing epoch with its last receipts. -/
def lastTrees (s : State) (x : Sealing) : Table Tree :=
  (s.aud.queue.filter (fun r => r.epoch == x.epoch)).foldl (fun t r => absorbInto r t) x.trees

/-- The top leaf of place n. -/
def topLeaf (x : Sealing) (trees : Table Tree) (n : Nat) : Digest :=
  sha3Of (([2] : List Byte) ++ bytesOf x.epoch.toNat 8 ++ bytesOf n 2
    ++ bytesOf (if (Table.get {} trees n).lost then 0xFFFFFFFF else Table.get 0 x.counts n) 4
    ++ digestBytes (if (Table.get {} trees n).lost then 0 else frontierRoot (Table.get {} trees n).frontier))

/-- The closing epoch with its roots. -/
def Sealing.rooted (y : Sealing) (trees : Table Tree) (tops : List Digest) : Sealing :=
  { y with
    trees := trees
    tops := tops
    topRoot := some (treeRoot tops)
    flags := if trees.any (fun t => t.2.lost) then y.flags ||| 0x100 else y.flags }

/-- The state once the roots of an epoch are computed. -/
def epochRooted (x : Sealing) (s : State) : State :=
  let t := modSealing x.epoch (fun y => y.rooted (lastTrees s x) ((List.range (iidCount s)).map (topLeaf x (lastTrees s x)))) s
  { t with aud := { t.aud with queue := t.aud.queue.filter (fun r => r.epoch != x.epoch) } }

theorem epochRootsDone_runs {s : State} {x : Sealing} (hx : s.aud.sealings.find? (fun y => y.topRoot.isNone) = some x)
    (hb : s.aud.bootReady = false) : Runs .epochRootsDone s (epochRooted x s) := by
  have hstart : sealStart (epochRooted x s) = epochRooted x s := sealStart_waits hb
  refine congrArg Host.Outcome.next (Eq.trans ?_ hstart)
  rw [hx]
  rfl

theorem mem_modSealing {e : W64} {f : Sealing → Sealing} {s : State} {y : Sealing} (hy : y ∈ (modSealing e f s).aud.sealings) :
    ∃ z ∈ s.aud.sealings, y = if z.epoch = e then f z else z := by
  obtain ⟨z, hz, rfl⟩ := List.mem_map.1 hy
  exact ⟨z, hz, rfl⟩

/-! ### The record's slot (R377) -/

theorem emit_issues {r : HostReq} {s : State} (hl : Live s) (hr : s.pcie.inReset = false) (hd : s.pcie.d3hot = false) :
    (emit r s).pcie.issued = s.pcie.issued ++ r.split s := by
  unfold emit
  rw [if_neg (by simp [hr, show s.fc.lock = false from hl]), if_neg (by simp [hd])]

theorem emit_aud (r : HostReq) (s : State) : (emit r s).aud = s.aud := by
  unfold emit
  repeat' split
  all_goals rfl

/-- The record is written and HEAD advances. -/
def recordWritten (x : Sealing) (r : List Sealing) (s : State) : State :=
  let t := emit (.write none (s.aud.base + BitVec.ofNat 64 (s.aud.head.toNat % ringSize s * 0x6000)) (sealRecord x)) s
  { t with aud := { t.aud with sealings := r, head := t.aud.head + 1 } }

theorem sealRecordWrite_writes {s : State} {x : Sealing} {r : List Sealing} (hs : s.aud.sealings = x :: r) (hst : x.staged = true)
    (hirq : s.aud.irq = false) (hroom : (s.aud.head - s.aud.tail).toNat < ringSize s) (hm : s.rm.moved = false)
    (hd : s.pcie.d3hot = false) : Runs .sealRecordWrite s (recordWritten x r s) := by
  have hirq' : (recordWritten x r s).aud.irq = false := by
    rw [← hirq]
    exact (congrArg Audit.irq (emit_aud _ s) :)
  have hstill : boundaryNow (recordWritten x r s) = recordWritten x r s := by
    refine if_neg ?_
    rw [show (recordWritten x r s).rm = s.rm from emit_rm _ s, hm]
    exact Bool.false_ne_true
  have hgo : ¬ (x.staged = false ∨ s.pcie.d3hot = true ∨ ringSize s ≤ (s.aud.head - s.aud.tail).toNat) := by
    rintro (h | h | h)
    · exact Bool.false_ne_true (h.symm.trans hst)
    · exact Bool.false_ne_true (hd.symm.trans h)
    · exact Nat.not_le.2 hroom h
  refine congrArg Host.Outcome.next ?_
  rw [hs]
  refine (if_neg hgo).trans ?_
  change boundaryNow (if (recordWritten x r s).aud.irq = true then msix 512 (recordWritten x r s) else recordWritten x r s) = _
  rw [if_neg (by rw [hirq']; exact Bool.false_ne_true), hstill]

/-- A seal ticket (R374). -/
def sealTicket (tid kind : Nat) : Ticket :=
  { id := tid, iid := 0xFFFF, origin := .seal kind
    bytes := BitVec.ofNat 512 (pack [(if kind = 0 then 0x701 else 0x702, 0), (0xFFFFFFFF, 32)]), phase := .queued }

theorem submitSeal_ticket (e : W64) (kind : Nat) (s : State) :
    (submitSeal e kind s).tickets = s.tickets ++ [sealTicket s.nextTicket kind] := rfl

theorem sealTicket_act (tid : Nat) : (sealTicket tid 1).act = 0x702 := by
  have h : (sealTicket tid 1).act = (sealTicket 0 1).act := rfl
  rw [h]
  decide +kernel

/-- Settles O49: SEAL_NOW by the boundary it takes, the roots by the closing epoch's entry, tickets and record by their steps. -/
theorem auditEpochsAreSealedInOrder : Obligations.AuditEpochsAreSealedInOrder := by
  unfold Obligations.AuditEpochsAreSealedInOrder
  refine ⟨?_, ?_, ?_, ?_, ?_, ?_, ?_, ?_, ?_, ?_, ?_⟩
  · exact fun s h ho => congrArg Host.Outcome.next ((hostWrite_writable h).trans (if_neg (by simp [ho])))
  · intro s h ho hm
    exact congrArg Host.Outcome.next ((hostWrite_writable h).trans ((if_pos ho).trans (if_neg (by simp [hm]))))
  · intro s h ho hm hc hf
    have hopens := takeBoundary_opens (s := { s with aud := { s.aud with pendEarly := s.aud.pendEarly ++ [3] } }) hf
    refine ⟨_, congrArg Host.Outcome.next ((hostWrite_writable h).trans (causeEarly_takes ho hm hc)), hopens.isOpen, hopens.epoch,
      hopens.ntStart, hopens.pendEarly, hopens.pendSeal, hopens.trees, ?_, ?_⟩
    · obtain ⟨x, hx, -⟩ := hopens.sealings
      rw [hx]
      exact List.length_append
    · obtain ⟨x, hx, hcl⟩ := hopens.sealings
      exact ⟨x, hx, hcl.epoch, hcl.ntStart, hcl.ntEnd, hcl.trees⟩
  · intro s r q hq ho he
    refine congrArg Host.Outcome.next ?_
    rw [hq]
    exact if_pos ⟨ho, he⟩
  · intro s x hx hb
    refine ⟨_, epochRootsDone_runs hx hb, rfl, fun y hy he => ?_, rfl⟩
    obtain ⟨z, -, rfl⟩ := mem_modSealing hy
    split
    · exact ⟨rfl, by simp [Sealing.rooted]⟩
    next hz =>
      rw [if_neg hz] at he
      exact absurd he hz
  · intro s x hx he
    refine congrArg Host.Outcome.next ?_
    rw [hx]
    exact congrArg sealStart (if_pos he)
  · intro s x hx he
    refine congrArg Host.Outcome.next ?_
    rw [hx]
    exact congrArg sealStart (if_neg (by simp [he]))
  · intro s x hx
    refine ⟨submitSeal x.epoch 1 s, congrArg Host.Outcome.next (by rw [hx]), rfl,
      ⟨_, submitSeal_ticket x.epoch 1 s, sealTicket_act _, rfl, rfl⟩, fun y hy he => ?_⟩
    · obtain ⟨z, -, rfl⟩ := mem_modSealing hy
      split
      · exact ⟨rfl, rfl⟩
      next hz =>
        rw [if_neg hz] at he
        exact absurd he hz
  · intro s x r hs hst hirq hroom hm hd
    refine ⟨_, sealRecordWrite_writes hs hst hirq hroom hm hd, rfl, ?_, ?_, fun hl hr => emit_issues hl hr hd⟩
    · exact congrArg (fun a : Audit => a.head + 1) (emit_aud _ s)
    · exact (congrArg Audit.tail (emit_aud _ s) :)
  · intro s hd
    refine congrArg Host.Outcome.next ?_
    split
    · rfl
    · exact if_pos (.inr (.inl hd))
  · intro s d h
    exact ⟨fun hr => congrArg Host.Outcome.next ((hostWrite_writable h).trans (if_pos hr)),
      fun hr => congrArg Host.Outcome.next ((hostWrite_writable h).trans (if_neg (Nat.not_le.2 hr)))⟩

end Sys2Proof.Machine
end

section
/-!
SUPPORT. What the end of a ticket, a retired ring and a released one leave alone of the device around them (R54–R56, R439, R479).
-/
namespace Sys2Proof.Machine

open Sys2Proof

/-- The parts of the device that no ticket's end and no recomputation changes. -/
structure Plant where
  clk : Clocks
  rm : Ringmaster
  fc : Collector
  lcs : LifeCycle
  boot : Boot
  patch : Patch
  mgmt : Mgmt
  floor : Table Nat
  ringRet : Half
  coreRet : BitVec 256

def plant (s : State) : Plant :=
  { clk := s.clk, rm := s.rm, fc := s.fc, lcs := s.lcs, boot := s.boot, patch := s.patch, mgmt := s.mgmt, floor := s.acts.floor,
    ringRet := s.ush.ringRet, coreRet := s.ush.coreRet }

section
variable {s t : State} (h : plant s = plant t)
include h

theorem clk_of_plant : s.clk = t.clk := congrArg Plant.clk h
theorem rm_of_plant : s.rm = t.rm := congrArg Plant.rm h
theorem fc_of_plant : s.fc = t.fc := congrArg Plant.fc h
theorem boot_of_plant : s.boot = t.boot := congrArg Plant.boot h
theorem ringRet_of_plant : s.ush.ringRet = t.ush.ringRet := congrArg Plant.ringRet h

end

section
variable (s : State)

/-! ### Reports, requests and receipts -/

theorem plant_report (ev : Event) : plant (report ev s) = plant s := by
  obtain ⟨k, q, h⟩ := report_frame ev s
  rw [h]
  rfl

theorem plant_recompute : plant (recompute s) = plant s := by
  unfold recompute
  dsimp only
  split
  · exact plant_report _ _
  · rfl

theorem plant_emit (r : HostReq) : plant (emit r s) = plant s := by
  unfold emit
  repeat' split
  all_goals rfl

theorem plant_msix (v : Nat) : plant (msix v s) = plant s := by
  obtain ⟨p, h⟩ := msix_frame v s
  rw [h]
  rfl

theorem plant_attention (i : Nat) : plant (attention i s) = plant s := plant_msix _ _

theorem plant_renumber (c : NowCommit) (e : W64) (k : Nat) : plant (renumber c e k s) = plant s := by
  unfold renumber
  dsimp only
  split
  all_goals rfl

theorem plant_takeBoundary : plant (takeBoundary s) = plant s := by
  have hmoved (l : List NowCommit) (e : W64) (f : NowCommit → Nat) :
      plant (l.foldl (fun s c => renumber c e (f c) s) s) = plant s := foldl_keeps plant (fun s c => plant_renumber s c e (f c)) l s
  unfold takeBoundary
  dsimp only
  split
  · exact hmoved _ _ _
  · refine (foldl_keeps plant ?_ _ _).trans (hmoved _ _ _)
    exact fun _ _ => rfl

theorem plant_tryBoundary : plant (tryBoundary s) = plant s := by
  unfold tryBoundary
  dsimp only
  split
  · rfl
  split
  · split
    · rfl
    · exact plant_report _ _
  · exact plant_takeBoundary s

theorem plant_boundaryNow : plant (boundaryNow s) = plant s := by
  unfold boundaryNow
  split
  · exact plant_tryBoundary s
  · rfl

theorem plant_causeFinal : plant (causeFinal s) = plant s := by
  unfold causeFinal
  split
  · exact plant_boundaryNow _
  · rfl

theorem plant_causeEarly (k : Nat) : plant (causeEarly k s) = plant s := by
  unfold causeEarly
  split
  · exact plant_boundaryNow _
  · rfl

theorem plant_assignIndex (i c tid : Nat) : plant (assignIndex i c tid s).2 = plant s := by
  unfold assignIndex
  exact foldl_keeps plant (fun s d => plant_renumber s d _ _) _ s

theorem plant_openEpoch : plant { openEpoch s with boot := s.boot } = plant s := by
  unfold openEpoch
  repeat' split
  all_goals rfl

/-! ### Memory and engines -/

theorem plant_unwrite (p : Place) (n : Nat) : plant (unwrite p n s) = plant s := by cases p <;> rfl

theorem plant_evictFor (r extra n : Nat) : plant (evictFor r extra n s) = plant s := by
  induction n generalizing s with
  | zero => rfl
  | succ n ih =>
    unfold evictFor
    split
    · rfl
    · split
      · rfl
      · exact (ih _).trans (plant_unwrite _ _ _)

theorem plant_releaseUses (t : Ticket) : plant (releaseUses t s) = plant s := by
  unfold releaseUses
  refine foldl_keeps plant ?_ _ s
  intro s u
  exact plant_evictFor _ _ _ _

theorem plant_sweepActs : plant (sweepActs s) = plant s :=
  foldl_keeps plant (fun s _ => foldl_keeps plant (fun s _ => plant_unwrite s _ _) _ s) _ s

theorem plant_dropHeld (i c : Nat) : plant (dropHeld i c s) = plant s := by
  unfold dropHeld
  dsimp only
  split
  all_goals rfl

theorem plant_clearCore (c : Nat) : plant (clearCore c s) = plant s := by
  unfold clearCore
  extract_lets x y r s₁ s₂ s₃ s₄ s₅ s₆
  have h₁ : plant s₁ = plant s := by
    refine foldl_keeps plant ?_ _ s
    exact fun _ _ => rfl
  have h₂ : plant s₂ = plant s₁ := by
    refine foldl_keeps plant ?_ _ s₁
    exact fun _ _ => rfl
  clear_value s₂
  have h₃ : plant s₃ = plant s₂ := rfl
  have h₄ : plant s₄ = plant s₃ := by
    unfold s₄
    clear_value s₃
    rw [plant_unwrite, plant_unwrite]
  have h₅ : plant s₅ = plant s₄ := foldl_keeps plant (fun s g => plant_unwrite s _ _) _ s₄
  exact h₅.trans (h₄.trans (h₃.trans (h₂.trans h₁)))

theorem coreToReset_memFrame (c : Nat) : ∃ v, MemFrame s v ∧
    coreToReset c s = setCorex c { halted := (corex s c).halted } (setCore c { run := .inReset } v) :=
  ⟨unwrite (.loc c 0) 0x40000 s, unwrite_memFrame _ _ _, rfl⟩

theorem plant_coreToReset (c : Nat) : plant (coreToReset c s) = plant s := by
  obtain ⟨v, ⟨m, b, rfl⟩, h⟩ := coreToReset_memFrame s c
  rw [h]
  rfl

/-! ### The final entry -/

theorem plant_of_besideNet {s t : State} (h : besideNet s = besideNet t) : plant s = plant t := (congrArg plant h :)

theorem besideNet_sessionSend (sid : W32) (p ty : Nat) (refusal : Bool) (plain : List Byte) :
    besideNet (sessionSend sid p ty refusal plain s) = besideNet s := by
  unfold sessionSend
  split
  · rfl
  · dsimp only
    split
    · exact (besideNet_closeSession _ _ _).trans (besideNet_sessionFrame _ _ _ _ _ _)
    · exact besideNet_sessionFrame s p _ ty refusal plain

theorem plant_sessionSend (sid : W32) (p ty : Nat) (refusal : Bool) (plain : List Byte) :
    plant (sessionSend sid p ty refusal plain s) = plant s := plant_of_besideNet (besideNet_sessionSend s sid p ty refusal plain)

theorem plant_endRequest (t : Ticket) (txid : W64) (f : Final) : plant (endRequest t txid f s) = plant s := by
  unfold endRequest
  split
  · rfl
  · exact (foldl_keeps plant (fun s _ => plant_sessionSend s _ _ _ _ _) _ _).trans (plant_sessionSend _ _ _ _ _ _)

theorem plant_endHandshake (n : Nat) (f : Final) : plant (endHandshake n f s) = plant s := by
  unfold endHandshake
  split
  · rfl
  · dsimp only
    split
    · rfl
    · exact plant_of_besideNet (besideNet_dolSend _ _ _ _ _ _ _)

theorem plant_writeEntry (t : Ticket) (f : Final) (interim : Bool) : plant (writeEntry t f interim s) = plant s := by
  unfold writeEntry
  extract_lets x addr s₁ s₂ s₃ pcie s₄ s₅
  have h₂ : plant s₂ = plant s := (plant_emit _ _).trans (plant_emit _ _)
  have h₄ : plant s₄ = plant s := by
    unfold s₄
    split
    all_goals exact h₂
  have h₅ : plant s₅ = plant s := by
    unfold s₅
    split
    all_goals exact h₄
  split
  · exact (plant_msix _ _).trans h₅
  · exact h₅

theorem plant_countRefusal (i : Nat) (status : Byte) : plant (countRefusal i status s) = plant s := by
  unfold countRefusal
  dsimp only
  repeat' split
  all_goals rfl

theorem plant_checkDrained (i : Nat) : plant (checkDrained i s) = plant s := by
  unfold checkDrained
  dsimp only
  split
  · exact plant_attention _ _
  · rfl

theorem plant_checkFinal : plant (checkFinal s) = plant s := by
  unfold checkFinal
  split
  · exact plant_causeFinal s
  · rfl

theorem plant_finish (tid : Nat) (f : Final) : plant (finish tid f s) = plant s := by
  unfold finish
  split
  · rfl
  next t _ =>
  extract_lets s₁ s₂ x s₃ s₄ y s₅
  have h₁ : plant s₁ = plant s := by
    unfold s₁
    split
    · exact (plant_releaseUses _ _).trans ((plant_dropHeld _ _ _).trans (plant_clearCore _ _))
    · rfl
  have h₃ : plant s₃ = plant s₂ := by
    unfold s₃
    split
    · rfl
    · exact plant_endHandshake _ _ _
    · exact plant_endRequest _ _ _ _
    · exact plant_writeEntry _ _ _ _
  have h₄ : plant s₄ = plant s₃ := by
    unfold s₄
    split
    · exact plant_countRefusal _ _ _
    · rfl
  have h₅ : plant s₅ = plant s₄ := by
    unfold s₅
    split
    all_goals rfl
  have hs₃ : plant s₃ = plant s := h₃.trans h₁
  split
  · exact hs₃
  · exact (plant_sweepActs _).trans ((plant_checkFinal _).trans ((plant_checkDrained _ _).trans (h₅.trans (h₄.trans hs₃))))

theorem plant_commitFinal (tid : Nat) (status : Byte) (len : W32) (opened : Bool) :
    plant (commitFinal tid status len opened s) = plant s := by
  unfold commitFinal
  split
  · rfl
  · dsimp only
    split
    · exact plant_finish _ _ _
    · split
      · exact (plant_causeEarly _ _).trans ((plant_finish _ _ _).trans (plant_assignIndex s _ _ tid))
      · exact (plant_finish _ _ _).trans (plant_assignIndex s _ _ tid)

/-! ### Rings -/

theorem plant_withdraw (t : Ticket) : plant (withdraw t s) = plant s := by
  unfold withdraw
  split
  · rfl
  · dsimp only
    split
    all_goals exact plant_releaseUses _ _

theorem plant_endRetired (c : Nat) : plant (endRetired c s) = plant s := by
  unfold endRetired
  split
  · rfl
  extract_lets unit
  split
  · exact plant_finish _ _ _
  · exact plant_finish _ _ _
  generalize unit = st
  split
  · exact plant_withdraw _ _
  split
  · split
    · exact plant_commitFinal _ _ _ _ _
    · exact plant_finish _ _ _
  · exact plant_finish _ _ _

theorem plant_ringTicketsEnd (r : Nat) : plant (ringTicketsEnd r s) = plant s :=
  foldl_keeps plant (fun s _ => plant_endRetired s _) _ s

theorem plant_ringCleared (r : Nat) : plant (ringCleared r s) = plant s := by
  have hu : plant ((List.range 16).foldl (fun s y => coreToReset (16 * r + y) s) s) = plant s :=
    foldl_keeps plant (fun s _ => plant_coreToReset s _) _ s
  unfold ringCleared
  refine Eq.trans ?_ hu
  generalize (List.range 16).foldl (fun s y => coreToReset (16 * r + y) s) s = u
  have hv := unwrite_memFrame (.ring r 0) 0x380000 u
  dsimp only
  generalize unwrite (.ring r 0) 0x380000 u = v at hv ⊢
  obtain ⟨m, b, rfl⟩ := hv
  rfl

theorem plant_ringDown (r : Nat) : plant (ringDown r s) =
    { plant s with boot := { s.boot with ringUp := s.boot.ringUp &&& ~~~ BitVec.ofNat 16 (2 ^ r) } } := rfl

theorem plant_noteNoRing : plant (noteNoRing s) = plant s := by
  unfold noteNoRing
  split
  all_goals rfl

/-- What a ring's retirement leaves: clocks and time as they are, the ring out of the Usher's rings and in reset. -/
theorem plant_retireRing (r : Nat) (byClock : Bool) : plant (retireRing r byClock s) =
    { plant s with
      ringRet := s.ush.ringRet ||| BitVec.ofNat 16 (2 ^ r)
      boot := { s.boot with ringUp := s.boot.ringUp &&& ~~~ BitVec.ofNat 16 (2 ^ r) } } := by
  have h (u : State) : plant (ringCleared r (ringTicketsEnd r u)) = plant u := by
    rw [plant_ringCleared, plant_ringTicketsEnd]
  have hboot (u : State) : (ringCleared r (ringTicketsEnd r u)).boot = u.boot := boot_of_plant (h u)
  unfold retireRing
  rw [plant_recompute, plant_noteNoRing, plant_ringDown, h, hboot]
  rfl

theorem fillStore_memFrame (r : Nat) : MemFrame s (fillStore r s) := by
  unfold fillStore
  refine (unwrite_memFrame _ _ _).trans (MemFrame.foldl ?_ _ _)
  exact fun s _ => writeTagged_memFrame _ _ _ s

/-- What a ring's release leaves: all as it is but for the rings that are out of reset. -/
theorem plant_releaseRing (r : Nat) : plant (releaseRing r s) = { plant s with
    boot := { s.boot with
      ringUp := s.boot.ringUp ||| BitVec.ofNat 16 (2 ^ r), ringHeld := s.boot.ringHeld &&& ~~~ BitVec.ofNat 16 (2 ^ r) } } := by
  unfold releaseRing
  refine (plant_recompute _).trans ?_
  have hv := fillStore_memFrame { s with
    mrg := Table.clear s.mrg (8 * r) 8, mrgLast := Table.set 15 s.mrgLast r 15
    cores := s.cores.filter (fun c => !(c.1 / 16 == r && c.1 < 256 && !bit s.ush.coreRet c.1))
    boot := { s.boot with
      ringUp := s.boot.ringUp ||| BitVec.ofNat 16 (2 ^ r), ringHeld := s.boot.ringHeld &&& ~~~ BitVec.ofNat 16 (2 ^ r) } } r
  dsimp only
  generalize fillStore r _ = v at hv ⊢
  obtain ⟨m, b, rfl⟩ := hv
  rfl

end

end Sys2Proof.Machine
end

section
/-!
SUPPORT. Clock domains (R383–R392): gates, switches, lock, and the recovery of a retired domain.
-/
namespace Sys2Proof.Machine

open Sys2Proof

section
variable (s : State) (d : Nat) (x : Domain)

@[simp] theorem dom_setDom : dom (setDom d x s) d = x := Table.get_set_same _ _ _ _

theorem dom_setDom_other {k : Nat} (h : k ≠ d) : dom (setDom d x s) k = dom s k := Table.get_set_other ({} : Domain) s.clk.dom x h

theorem dom_of_clk {s t : State} (h : s.clk = t.clk) (d : Nat) : dom s d = dom t d := by
  unfold dom
  rw [h]

theorem ringCount_le : ringCount s ≤ 16 := by
  unfold ringCount
  cases s.dev.part
  all_goals decide

end

section
variable {s : State} {d : Nat} (hd : d < ringCount s)
include hd

theorem ring_ne_hub : d ≠ hubDom := Nat.ne_of_lt (Nat.lt_of_lt_of_le hd (ringCount_le s))

theorem domPresent_ring : domPresent s d = true := by simp [domPresent, hd]

/-- A trip under a recovery fails the attempt (R391). -/
theorem pllTrip_recovering (why : Nat) (hr : (dom s d).retired = true)
    (h : (dom s d).recovery = .locking ∨ (dom s d).recovery = .holding) :
    pllTrip d why s = setDom d (attemptFailed s (dom s d)) (bump (clkReg 0x20) 1 8 s) := by
  refine (if_neg ?_).trans (if_pos hr)
  rintro (hp | ⟨-, hl, hh⟩)
  · exact Bool.false_ne_true (hp.symm.trans (domPresent_ring hd))
  · exact h.elim hl hh

end

/-! ### Switches and lock -/

section
variable {s : State} {d : Nat} {b : Bool} (hs : (dom s d).switching = some b)
include hs

theorem clockSwitch_stops (hc : (dom s d).clocked = true) :
    Runs (.clockSwitch d) s (setDom d { dom s d with clocked := false } s) := by
  refine congrArg Host.Outcome.next ?_
  dsimp only
  rw [hs]
  exact if_pos hc

theorem clockSwitch_starts (hc : (dom s d).clocked = false) (hd : d ≠ 16)
    (hg : (if b then s.clk.tioStable else (dom s d).lock) = true) :
    Runs (.clockSwitch d) s (setDom d { dom s d with
      tio := b, clocked := true, switching := (dom s d).next, next := none, heldForTio := false } s) := by
  refine congrArg Host.Outcome.next ?_
  dsimp only
  rw [hs]
  exact (if_neg (Bool.not_eq_true _ ▸ hc)).trans ((if_neg (by simp [hg])).trans (if_pos hd))

end

section
variable {s : State} {d : Nat} (hd : d < ringCount s) (hg : s.boot.pwrGood = true) (hl : (dom s d).lock = false)
include hd hg hl

theorem pllLock_considered : ¬ (domPresent s d = false ∨ s.boot.pwrGood = false ∨ (dom s d).lock = true) := by
  simp [domPresent_ring hd, hg, hl]

theorem pllLock_holds (hr : (dom s d).recovery = .locking) :
    Runs (.pllLock d) s (setDom d { dom s d with lock := true, recovery := .holding } s) := by
  refine congrArg Host.Outcome.next ((if_neg (pllLock_considered hd hg hl)).trans ?_)
  rw [hr]
  dsimp only
  exact if_neg (ring_ne_hub hd)

theorem pllLock_starts (hr : (dom s d).recovery = .none) (ht : (dom s d).tio = false) (hc : (dom s d).clocked = false)
    (hs : (dom s d).switching = none) (hret : (dom s d).retired = false) :
    Runs (.pllLock d) s (setDom d { dom s d with lock := true, clocked := true } s) := by
  refine congrArg Host.Outcome.next ((if_neg (pllLock_considered hd hg hl)).trans ?_)
  rw [hr]
  refine (if_neg (by simp [ht, hc, hs, hret])).trans ?_
  dsimp only
  exact (if_neg (ring_ne_hub hd)).trans (by rw [hr])

end

/-! ### Recovery -/

theorem clk_openEpoch (s : State) : (openEpoch s).clk = s.clk := (clk_of_plant (plant_openEpoch s) :)

theorem clk_releaseRing (r : Nat) (s : State) : (releaseRing r s).clk = s.clk := congrArg Plant.clk (plant_releaseRing s r)

/-- A hold that ends leaves the domain as a domain that never tripped (R391). -/
theorem recoveryHoldDone_dom {s : State} {d : Nat} (hl : Live s) (h : (dom s d).recovery = .holding) :
    ∃ t, Runs (.recoveryHoldDone d) s t ∧ dom t d = { clocked := true, lock := true } := by
  refine ⟨_, congrArg Host.Outcome.next ((unlessLocked_live hl).trans (if_neg (Decidable.not_not.2 h))), ?_⟩
  dsimp only
  split
  · exact dom_setDom s d _
  · split
    · exact (dom_of_clk ((clk_openEpoch _).trans (clk_releaseRing d _)) d).trans (dom_setDom s d _)
    · exact (dom_of_clk (clk_of_plant (plant_recompute _)) d).trans (dom_setDom s d _)

/-- The sequence of a domain begins. -/
def beginRecovery (s : State) (d : Nat) : State := setDom d { dom s d with recovery := .waiting, failed := 0 } s

def Recovering (k : Nat) (s : State) : Prop := (dom s k).recovery = .waiting ∧ (dom s k).failed = 0

theorem beginRecovery_recovering (s : State) (k : Nat) : Recovering k (beginRecovery s k) := by
  simp [Recovering, beginRecovery]

theorem beginRecovery_keeps {s : State} {k : Nat} (d : Nat) (h : Recovering k s) : Recovering k (beginRecovery s d) := by
  by_cases hk : k = d
  · subst hk
    exact beginRecovery_recovering s k
  · unfold Recovering beginRecovery
    rw [dom_setDom_other _ _ _ hk]
    exact h

theorem clkRecover_begins {s : State} {w : W32} {k : Nat} (hw : Writable s) (hk : k < ringCount s) (hb : bit w k = true)
    (hret : (dom s k).retired = true) (hr : (dom s k).recovery = .none) :
    ∃ t, Runs (.clkRecover w) s t ∧ Recovering k t := by
  have hmem : k ∈ ((List.range 18).filter (fun d => bit w d && domPresent s d)).filter
      (fun d => d != hubDom && (dom s d).retired && (dom s d).recovery == .none) := by
    have hlt : k < 18 := Nat.lt_of_lt_of_le hk (Nat.le_trans (ringCount_le s) (by decide))
    simp [hlt, hb, domPresent_ring hk, ring_ne_hub hk, hret, hr]
  have hgood : Recovering k ((((List.range 18).filter (fun d => bit w d && domPresent s d)).filter
      (fun d => d != hubDom && (dom s d).retired && (dom s d).recovery == .none)).foldl beginRecovery s) :=
    foldl_reaches hmem (fun s => beginRecovery_recovering s k) (fun _ d h => beginRecovery_keeps d h) s
  refine ⟨_, congrArg Host.Outcome.next (hostWrite_writable hw), ?_⟩
  unfold clkRecoverWrite
  dsimp only
  split
  · exact hgood
  · unfold Recovering ignoredWrite
    rw [dom_of_clk (clk_of_plant (plant_report _ _)) k]
    exact hgood

/-- Settles O50, clause by clause: each names the branch its hypotheses decide. -/
theorem clockDomainsSwitchAndRecover : Obligations.ClockDomainsSwitchAndRecover := by
  unfold Obligations.ClockDomainsSwitchAndRecover
  refine ⟨?_, ?_, ?_, ?_, ?_, ?_, ?_, ?_, ?_, ?_, ?_, ?_⟩
  · exact fun s u hg hb => congrArg Host.Outcome.next (if_neg (by simp [hg, hb]))
  · exact fun s u h => congrArg Host.Outcome.next (if_pos h)
  · exact fun s d b hs hc => clockSwitch_stops hs hc
  · exact fun s d b hs hc hd hg => clockSwitch_starts hs hc hd hg
  · exact fun s d hd hg hl => ⟨pllLock_holds hd hg hl, pllLock_starts hd hg hl⟩
  · intro s d why hlive hd hret hrec
    have hrun : Runs (.pllTrip d why) s _ := congrArg Host.Outcome.next ((unlessLocked_live hlive).trans (pllTrip_recovering hd why hret hrec))
    refine ⟨_, hrun, ?_⟩
    rw [dom_setDom]
    exact ⟨rfl, rfl, fun h => if_pos h, fun h => if_neg (Nat.not_le.2 h)⟩
  · exact fun s d hret hrec => congrArg Host.Outcome.next (if_pos ⟨hret, hrec⟩)
  · intro s d hl h
    obtain ⟨t, hrun, ht⟩ := recoveryHoldDone_dom hl h
    refine ⟨t, hrun, ?_⟩
    rw [ht]
    exact ⟨rfl, rfl, rfl, rfl, rfl, rfl⟩
  · exact fun s w k hw hk hb hret hr => clkRecover_begins hw hk hb hret hr
  · exact fun s => rfl
  · exact fun s => rfl
  · intro s h
    refine ⟨_, congrArg Host.Outcome.next (if_neg (by simp [h])), ?_⟩
    unfold trimTrack
    split
    all_goals exact ⟨rfl, rfl, rfl, rfl, rfl⟩

end Sys2Proof.Machine
end

section
/-!
SUPPORT. Clock monitors and the trim of TIO (R388–R395): what a trip retires, what a step of CODE moves with it.
-/
namespace Sys2Proof.Machine

open Sys2Proof

/-! ### A link cut and a ring retired by a clock event -/

theorem bit_or_pow_same {w : Nat} (x : BitVec w) {k : Nat} (h : k < w) : bit (x ||| BitVec.ofNat w (2 ^ k)) k = true := by
  unfold bit
  rw [BitVec.getLsbD_or, BitVec.getLsbD_ofNat, Nat.testBit_two_pow_self]
  simp [h]

theorem plant_dropUnlinked (p : Nat) (f : TxFrame) (s : State) : plant (dropUnlinked p f s) = plant s :=
  plant_of_besideNet (besideNet_dropUnlinked s p f)

theorem plant_linkLost (p : Nat) (b : Bool) (s : State) : plant (linkLost p b s) = plant s := by
  unfold linkLost
  dsimp only
  split
  · rfl
  · refine (plant_report _ _).trans ((foldl_keeps plant (fun s f => plant_dropUnlinked p f s) _ _).trans ?_)
    split
    all_goals rfl

theorem plant_linkCut (p : Nat) (s : State) : plant (linkCut p s) = plant s := by
  unfold linkCut
  split
  · exact plant_linkLost p _ _
  · rfl

theorem clk_of_plantIs {s : State} {p : Plant} (h : plant s = p) : s.clk = p.clk := congrArg Plant.clk h

theorem ringRet_of_plantIs {s : State} {p : Plant} (h : plant s = p) : s.ush.ringRet = p.ringRet := congrArg Plant.ringRet h

theorem clk_retireRing (r : Nat) (b : Bool) (s : State) : (retireRing r b s).clk = s.clk := clk_of_plantIs (plant_retireRing s r b)

theorem ringRet_retireRing (r : Nat) (b : Bool) (s : State) :
    (retireRing r b s).ush.ringRet = s.ush.ringRet ||| BitVec.ofNat 16 (2 ^ r) := ringRet_of_plantIs (plant_retireRing s r b)

/-- What a clock event makes of a ring's domain. -/
def Domain.clockRetired (x : Domain) : Domain := { x with retired := true, inReset := true, recovery := .waiting, failed := 0 }

theorem clockRetire_ring {s : State} {d : Nat} (hd : d < 16) (hb : bit s.ush.ringRet d = false) :
    dom (clockRetire d s) d = (dom s d).clockRetired ∧ bit (clockRetire d s).ush.ringRet d = true := by
  have hrun : clockRetire d s = retireRing d true (setDom d (dom s d).clockRetired s) := by
    refine (if_neg ?_).trans (if_neg (by simp [hb]))
    exact Nat.ne_of_lt (Nat.lt_trans hd (by decide))
  rw [hrun]
  refine ⟨(dom_of_clk (clk_retireRing _ _ _) d).trans (dom_setDom _ _ _), ?_⟩
  rw [ringRet_retireRing]
  exact bit_or_pow_same _ hd

theorem requestSwitch_frame (d : Nat) (b : Bool) (s : State) : ∃ x : Domain, requestSwitch d b s = setDom d x s ∧
    x.lock = (dom s d).lock := by
  unfold requestSwitch
  dsimp only
  repeat' split
  all_goals exact ⟨_, rfl, rfl⟩

section
variable {s : State} {d : Nat} (hd : d < ringCount s) (hret : (dom s d).retired = false) (hb : bit s.ush.ringRet d = false)
include hd hret hb

theorem frozenTrip_ring (hl : Live s) : ∃ t, Runs (.frozenDomainTrip d) s t ∧
    dom t d = ({ dom s d with tio := true, clocked := true, switching := none, next := none, heldForTio := false } : Domain).clockRetired ∧
    bit t.ush.ringRet d = true := by
  refine ⟨_, congrArg Host.Outcome.next ((unlessLocked_live hl).trans ((if_neg ?_).trans (if_neg (ring_ne_hub hd)))), ?_⟩
  · simp [domPresent_ring hd]
  · have hd16 : d < 16 := Nat.lt_of_lt_of_le hd (ringCount_le s)
    have hforced := dom_setDom (bump (clkReg 0x20) 2 8 s) d { dom s d with
      tio := true, clocked := true, switching := none, next := none, heldForTio := false }
    dsimp only
    rw [if_neg (by rw [dom_setDom]; exact Bool.not_eq_true _ ▸ hret)]
    generalize hu : report _ _ = u
    have hp := (congrArg plant hu).symm.trans (plant_report _ _)
    obtain ⟨hdom, hbit⟩ := clockRetire_ring hd16 ((congrArg (fun r => bit r d) (ringRet_of_plant hp)).trans hb)
    exact ⟨hdom.trans (congrArg Domain.clockRetired ((dom_of_clk (clk_of_plant hp) d).trans hforced)), hbit⟩

theorem pllTrip_ring (why : Nat) (hl : Live s) : ∃ t, Runs (.pllTrip d why) s t ∧ (dom t d).retired = true ∧
    (dom t d).inReset = true ∧ (dom t d).lock = false ∧ bit t.ush.ringRet d = true := by
  refine ⟨_, congrArg Host.Outcome.next ((unlessLocked_live hl).trans ((if_neg ?_).trans
    ((if_neg (by simp [hret])).trans (if_neg (ring_ne_hub hd))))), ?_⟩
  · simp [domPresent_ring hd, hret]
  · have hd16 : d < 16 := Nat.lt_of_lt_of_le hd (ringCount_le s)
    dsimp only
    generalize hu : setDom d _ (report _ _) = u
    have hlock : (dom u d).lock = false := by rw [← hu, dom_setDom]
    have hring : bit u.ush.ringRet d = false := by
      rw [← hu]
      exact (congrArg (fun r => bit r d) (ringRet_of_plant (plant_report _ _)) :).trans hb
    split
    · obtain ⟨hdom, hbit⟩ := clockRetire_ring hd16 hring
      rw [hdom]
      exact ⟨rfl, rfl, hlock, hbit⟩
    · obtain ⟨x, hx, hxl⟩ := requestSwitch_frame d true u
      obtain ⟨hdom, hbit⟩ := clockRetire_ring (s := setDom d x u) hd16 hring
      rw [hx, hdom, dom_setDom]
      exact ⟨rfl, rfl, hxl.trans hlock, hbit⟩

end

/-! ### A lost reference clock -/

theorem refclkOk_hubClockOn (s : State) : (hubClockOn s).clk = s.clk := by
  unfold hubClockOn bootBegin
  dsimp only
  repeat' split
  all_goals rfl

theorem refclkOk_clockRetire (d : Nat) (s : State) : (clockRetire d s).clk.refclkOk = s.clk.refclkOk := by
  unfold clockRetire
  dsimp only
  split
  · exact (congrArg Clocks.refclkOk (clk_of_plant (foldl_keeps plant (fun s p => plant_linkCut p s) _ _)) :)
  split
  · rfl
  · exact (congrArg Clocks.refclkOk (clk_retireRing _ _ _) :)

theorem refclkOk_requestSwitch (d : Nat) (b : Bool) (s : State) : (requestSwitch d b s).clk.refclkOk = s.clk.refclkOk := by
  obtain ⟨x, hx, -⟩ := requestSwitch_frame d b s
  rw [hx]
  rfl

theorem refclkOk_pllTrip (d why : Nat) (s : State) : (pllTrip d why s).clk.refclkOk = s.clk.refclkOk := by
  have hrep (ev : Event) (u : State) : (report ev u).clk.refclkOk = u.clk.refclkOk :=
    congrArg Clocks.refclkOk (clk_of_plant (plant_report u ev))
  unfold pllTrip
  extract_lets x u ev relocking u₁ u₂ u₃ v
  split
  · rfl
  split
  · rfl
  split
  · have hv : v.clk.refclkOk = s.clk.refclkOk := by
      unfold v
      split
      · exact hrep _ _
      · exact (refclkOk_requestSwitch _ _ _).trans (hrep _ _)
    split
    · exact (congrArg Clocks.refclkOk (refclkOk_hubClockOn _)).trans hv
    · exact hv
  · refine (refclkOk_clockRetire _ _).trans ?_
    split
    · exact hrep _ _
    · exact (refclkOk_requestSwitch _ _ _).trans (hrep _ _)

/-! ### CODE and RM_FREQ (R393) -/

section
variable (c : BitVec 20) (s : State)

/-- RM_FREQ after a step of CODE to c. -/
def freqFor : Int := s.rm.freq.toInt - (c.toInt - s.clk.code.toInt) * 4096

def codeMoved : State :=
  { s with
    clk := { s.clk with code := c, codeWas := some (s.clk.codeWas.getD s.clk.code) }
    rm := { s.rm with freq := BitVec.ofInt 32 (freqFor c s) } }

variable {c s}

theorem setCode_moves (h : -32768000 ≤ freqFor c s) (h' : freqFor c s ≤ 32768000) : setCode c s = codeMoved c s :=
  if_neg (not_or.2 ⟨Int.not_lt.2 h, Int.not_lt.2 h'⟩)

theorem setCode_refused (h : freqFor c s < -32768000 ∨ 32768000 < freqFor c s) : setCode c s = s := if_pos h

end

/-- A step of CODE changes CODE and what goes with it, and counts. -/
theorem trimStep_frame (k : Int) (s : State) : ∃ c w f n m, trimStep k s =
    { s with clk := { s.clk with code := c, codeWas := w }, rm := { s.rm with freq := f }, time := n, fresh := m } := by
  have hcode : ∃ c m, codeAfter k s = (c, { s with fresh := m }) := by
    unfold codeAfter
    dsimp only
    split
    · exact ⟨_, s.fresh, rfl⟩
    · exact ⟨_, _, rfl⟩
  have hset (c : BitVec 20) (u : State) : ∃ c' w f, setCode c u =
      { u with clk := { u.clk with code := c', codeWas := w }, rm := { u.rm with freq := f } } := by
    unfold setCode
    dsimp only
    split
    · exact ⟨_, _, _, rfl⟩
    · exact ⟨_, _, _, rfl⟩
  obtain ⟨c, m, hc⟩ := hcode
  obtain ⟨c', w, f, hs⟩ := hset c { s with fresh := m }
  unfold trimStep
  rw [hc]
  dsimp only
  rw [hs]
  split
  all_goals exact ⟨_, _, _, _, _, rfl⟩

theorem toInt_code {x : Int} (h : -524288 ≤ x) (h' : x < 524288) : (BitVec.ofInt 20 x).toInt = x := by
  rw [BitVec.toInt_ofInt]
  exact Int.bmod_eq_of_le (by omega) (by omega)

theorem toInt_freq {x : Int} (h : -32768000 ≤ x) (h' : x ≤ 32768000) : (BitVec.ofInt 32 x).toInt = x := by
  rw [BitVec.toInt_ofInt]
  exact Int.bmod_eq_of_le (by omega) (by omega)

/-- A step within the ranges of CODE and RM_FREQ is taken (R393). -/
theorem trimStep_moves {k : Int} {s : State} (h : -524288 ≤ s.clk.code.toInt + k) (h' : s.clk.code.toInt + k < 524288)
    (hf : -32768000 ≤ s.rm.freq.toInt - k * 4096) (hf' : s.rm.freq.toInt - k * 4096 ≤ 32768000) :
    (trimStep k s).clk.code.toInt = s.clk.code.toInt + k ∧ (trimStep k s).rm.freq.toInt = s.rm.freq.toInt - k * 4096 := by
  have hcode : codeAfter k s = (BitVec.ofInt 20 (s.clk.code.toInt + k), s) := if_pos ⟨h, h'⟩
  have hfreq : freqFor (BitVec.ofInt 20 (s.clk.code.toInt + k)) s = s.rm.freq.toInt - k * 4096 := by
    unfold freqFor
    rw [toInt_code h h']
    omega
  have hset : setCode (BitVec.ofInt 20 (s.clk.code.toInt + k)) s = codeMoved (BitVec.ofInt 20 (s.clk.code.toInt + k)) s :=
    setCode_moves (by rwa [hfreq]) (by rwa [hfreq])
  have hmoved : (codeMoved (BitVec.ofInt 20 (s.clk.code.toInt + k)) s).clk.code.toInt = s.clk.code.toInt + k ∧
      (codeMoved (BitVec.ofInt 20 (s.clk.code.toInt + k)) s).rm.freq.toInt = s.rm.freq.toInt - k * 4096 := by
    refine ⟨toInt_code h h', ?_⟩
    change (BitVec.ofInt 32 (freqFor _ s)).toInt = _
    rw [hfreq, toInt_freq hf hf']
  unfold trimStep
  rw [hcode]
  dsimp only
  rw [hset]
  split
  all_goals exact hmoved

/-! ### The obligation -/

theorem lockdown_locks {s : State} (ev : Event) (whole : Bool) (h : Live s) : (lockdown ev whole s).fc.lock = true := by
  obtain ⟨k, f, q, b, p, x, heq, hlock, -⟩ := lockdownAs_live (stamped ev s) whole h
  exact (congrArg (fun u : State => u.fc.lock) heq :).trans hlock

theorem frozenHub_locks {s : State} (hl : Live s) : ∃ t, Runs (.frozenDomainTrip 16) s t ∧ t.fc.lock = true := by
  refine ⟨_, congrArg Host.Outcome.next ((unlessLocked_live hl).trans ((if_neg ?_).trans (if_pos rfl))), ?_⟩
  · simp [domPresent, hubDom]
  · exact lockdown_locks _ _ hl

/-- REF10_OK falls, and holdover begins where 1PPS was the source (R363, R388). -/
theorem ref10Loss_runs {s : State} (hl : Live s) (h : s.clk.ref10Ok = true) :
    ∃ t, Runs .ref10Loss s t ∧ t.clk.ref10Ok = false ∧ t.clk.dom = s.clk.dom ∧ (s.rm.src = 2 → t.rm.holdover = true) ∧
      t.rm.nt = s.rm.nt := by
  have htrack (u : State) (w : Nat) : (trimTrack w u).clk.ref10Ok = u.clk.ref10Ok ∧ (trimTrack w u).clk.dom = u.clk.dom ∧
      (trimTrack w u).rm = u.rm := by
    unfold trimTrack
    split
    all_goals exact ⟨rfl, rfl, rfl⟩
  have hhold (u : State) : (enterHoldover u).clk.ref10Ok = u.clk.ref10Ok ∧ (enterHoldover u).clk.dom = u.clk.dom := by
    unfold enterHoldover holdoverEntry auditTrack stateNotice
    split
    · exact ⟨rfl, rfl⟩
    · dsimp only
      rw [clk_of_plant (plant_report _ _)]
      exact ⟨rfl, rfl⟩
  obtain ⟨hok, hdom, hrm⟩ := htrack { s with clk := { s.clk with ref10Ok := false } } (trimMode s)
  refine ⟨_, congrArg Host.Outcome.next ((unlessLocked_live hl).trans (if_neg (by simp [h]))), ?_⟩
  dsimp only
  generalize trimTrack (trimMode s) { s with clk := { s.clk with ref10Ok := false } } = u at hok hdom hrm ⊢
  generalize hv : stateNotice _ _ _ _ _ = v
  have hp : plant v = plant u := (congrArg plant hv).symm.trans (plant_report _ _)
  have hclk := clk_of_plant hp
  have hrmv : v.rm = s.rm := (rm_of_plant hp).trans hrm
  have hok' : v.clk.ref10Ok = false := (congrArg Clocks.ref10Ok hclk).trans hok
  have hdom' : v.clk.dom = s.clk.dom := (congrArg Clocks.dom hclk).trans hdom
  split
  · obtain ⟨hh, hnt, -⟩ := enterHoldover_holds v
    exact ⟨(hhold v).1.trans hok', (hhold v).2.trans hdom', fun _ => hh, hnt.trans (congrArg Ringmaster.nt hrmv)⟩
  next hne => exact ⟨hok', hdom', fun hs => absurd (hrmv ▸ hs) hne, congrArg Ringmaster.nt hrmv⟩

def tripLocked (s : State) (d : Nat) : State := if (dom s d).lock then pllTrip d 2 s else s

theorem refclkOk_tripLocked (l : List Nat) (s : State) : (l.foldl tripLocked s).clk.refclkOk = s.clk.refclkOk := by
  refine foldl_keeps (fun u : State => u.clk.refclkOk) (fun u d => ?_) l s
  unfold tripLocked
  split
  · exact refclkOk_pllTrip d 2 u
  · rfl

def refclkLost (s : State) : State := { s with clk := { s.clk with refclkOk := false } }

theorem refclkLoss_runs {s : State} (hl : Live s) (h : s.clk.refclkOk = true) :
    ∃ t, Runs .refclkLoss s t ∧ t.clk.refclkOk = false := by
  have hlost (ev : Event) : (report ev (refclkLost s)).clk.refclkOk = false := by
    rw [clk_of_plant (plant_report _ _)]
    rfl
  refine ⟨(hubDom :: netDom :: List.range 16).foldl tripLocked
    (stateNotice 0x1D 0 (clkReg 4) (BitVec.ofNat 64 (clkStatus (refclkLost s))) (refclkLost s)),
    congrArg Host.Outcome.next ((unlessLocked_live hl).trans (if_neg (by simp [h]))), ?_⟩
  rw [refclkOk_tripLocked]
  exact hlost _

/-- A gate of mode 1 (R394). -/
theorem trimGate_runs {s : State} (n : Nat) (hl : Live s) (h : trimMode s = 1) :
    ∃ t, Runs (.trimGate n) s t ∧ t.clk.meas = BitVec.ofInt 32 ((n : Int) - 400000000) ∧ t.clk.firstGate = false ∧
      (((n : Int) - 400000000).natAbs ≤ 25 → t.clk.goodGates = s.clk.goodGates + 1 ∧
        (3 ≤ s.clk.goodGates → t.clk.trimLocked = true)) ∧
      (25 < ((n : Int) - 400000000).natAbs → t.clk.goodGates = 0) ∧ t.rm.nt = s.rm.nt ∧ t.tickets = s.tickets := by
  refine ⟨_, congrArg Host.Outcome.next ((unlessLocked_live hl).trans (if_neg (Decidable.not_not.2 h))), ?_⟩
  generalize (n : Int) - 400000000 = e
  dsimp only
  obtain ⟨c, w, f, m, q, hstep⟩ := trimStep_frame
    (if s.clk.firstGate then roundDiv (-e) 25 else max (-16) (min 16 (roundDiv (-e) 25))) s
  rw [hstep]
  refine ⟨rfl, rfl, fun hg => ⟨if_pos hg, fun h3 => ?_⟩, fun hb => if_neg (Nat.not_le.2 hb), rfl, rfl⟩
  dsimp only
  rw [if_pos hg]
  simp [h3]

/-- A step of mode 2 (R394). -/
theorem trimPtpStep_runs {s : State} (hl : Live s) (h : trimMode s = 2) (hf : 65536 < s.rm.freq.toInt.natAbs)
    (hlong : freqLongOver s = true) :
    ∃ t, Runs .trimPtpStep s t ∧ t.rm = (trimStep (roundDiv s.rm.freq.toInt 4096) s).rm ∧
      t.clk.code = (trimStep (roundDiv s.rm.freq.toInt 4096) s).clk.code ∧ t.rm.nt = s.rm.nt ∧ t.clk.meas = s.clk.meas ∧
      t.tickets = s.tickets := by
  have hgo : ¬ (trimMode s ≠ 2 ∨ s.rm.freq.toInt.natAbs ≤ 65536 ∨ freqLongOver s = false) := by
    rintro (hm | hle | hno)
    · exact hm h
    · exact absurd hf (Nat.not_lt.2 hle)
    · exact Bool.false_ne_true (hno.symm.trans hlong)
  refine ⟨_, congrArg Host.Outcome.next ((unlessLocked_live hl).trans (if_neg hgo)), ?_⟩
  dsimp only
  obtain ⟨c, w, f, m, q, hstep⟩ := trimStep_frame (roundDiv s.rm.freq.toInt 4096) s
  rw [hstep]
  split
  all_goals exact ⟨rfl, rfl, rfl, rfl, rfl⟩

/-- A write of RM_FREQ is compensated for the CODE that this hub cycle has moved (R393). -/
theorem writeFreq_compensated {s : State} {was : BitVec 20} (f : Int) (h : s.clk.codeWas = some was) :
    writeFreq f s = setCode s.clk.code { s with
      clk := { s.clk with code := was }, rm := { s.rm with freq := BitVec.ofInt 32 (clampFreq f).toInt } } := by
  unfold writeFreq
  dsimp only
  rw [h]

/-- Settles O51: the monitors' trips, then TRIM, CODE and RM_FREQ. -/
theorem clockMonitorsTripAndTrim : Obligations.ClockMonitorsTripAndTrim := by
  unfold Obligations.ClockMonitorsTripAndTrim
  refine ⟨⟨?_, ?_, ?_, ?_, ?_, ?_, ?_⟩, ?_, ?_, ?_, ?_, ?_, ?_, ?_⟩
  · exact fun s why h => ⟨_, rfl, lockdown_locks _ _ h⟩
  · exact fun s why h => ⟨_, rfl, lockdown_locks _ _ h⟩
  · exact fun s h => frozenHub_locks h
  · intro s d hl hd hret hb
    obtain ⟨t, hrun, hdom, hbit⟩ := frozenTrip_ring hd hret hb hl
    refine ⟨t, hrun, ?_⟩
    rw [hdom]
    exact ⟨rfl, rfl, rfl, rfl, rfl, hbit⟩
  · exact fun s d why hl hd hret hb => pllTrip_ring hd hret hb why hl
  · exact fun s hl h => ref10Loss_runs hl h
  · exact fun s hl h => refclkLoss_runs hl h
  · exact fun s d hw h => congrArg Host.Outcome.next ((hostWrite_writable hw).trans (if_neg h))
  · intro s d hw h
    have hrun : exec (.tioTrimWrite d) s = .next (setCode (d.setWidth 20) s) :=
      congrArg Host.Outcome.next ((hostWrite_writable hw).trans (if_pos h))
    exact ⟨fun hf hf' => hrun.trans (congrArg Host.Outcome.next (setCode_moves hf hf')),
      fun ho => hrun.trans (congrArg Host.Outcome.next (setCode_refused ho))⟩
  · exact fun s n hl h => trimGate_runs n hl h
  · exact fun s n hl h => congrArg Host.Outcome.next ((unlessLocked_live hl).trans (if_pos h))
  · intro s hl h hf hlong
    obtain ⟨t, hrun, hrm, hcode, hnt, hmeas, htick⟩ := trimPtpStep_runs hl h hf hlong
    refine ⟨t, hrun, hnt, hmeas, htick, fun h1 h2 h3 h4 => ?_⟩
    rw [hrm, hcode]
    exact trimStep_moves h1 h2 h3 h4
  · exact fun s hl h => congrArg Host.Outcome.next ((unlessLocked_live hl).trans (if_pos h))
  · intro s f was h
    dsimp only
    have hfreq : freqFor s.clk.code { s with
        clk := { s.clk with code := was }, rm := { s.rm with freq := BitVec.ofInt 32 (clampFreq f).toInt } } =
        (clampFreq f).toInt - (s.clk.code.toInt - was.toInt) * 4096 := by
      unfold freqFor
      dsimp only
      rw [BitVec.ofInt_toInt]
    rw [← hfreq, writeFreq_compensated f h]
    refine ⟨fun h1 h2 => ?_, fun ho => ?_⟩
    · rw [setCode_moves h1 h2]
      exact ⟨rfl, rfl⟩
    · rw [setCode_refused ho]
      exact ⟨rfl, rfl⟩

end Sys2Proof.Machine
end

section
/-!
SUPPORT. Hat-check slots (R396–R411): a cut exchange, an answer to reset, and the blocks of T=1.
-/
namespace Sys2Proof.Machine

open Sys2Proof

section
variable (n : Nat) (x : Slot) (s : State)

theorem slotOf_setSlot_other {m : Nat} (h : m ≠ n) : slotOf (setSlot n x s) m = slotOf s m := Table.get_set_other ({} : Slot) s.hc x h

theorem slotOf_hcCount (f m : Nat) : slotOf (hcCount n f s) m = slotOf s m := rfl

end

/-! ### A slot cut off (R407, R408) -/

section
variable (x : Slot) (o : BitVec 4)

/-- The slot as its step ends with a cut at point o, before the deactivation. -/
def Slot.cutAt (e : Byte) : Slot :=
  let x := if x.busy then { x with outcome := o } else x
  let x := x.stepOver (if x.busy ∧ o = 3 then 0x05 else 0x04)
  let x := if x.stepWaits then { x with stepWaits := false, stepEnd := some 0x04 } else x
  { x with err := e }

theorem stepOver_keeps (r : Byte) : (x.stepOver r).st = x.st ∧ (x.stepOver r).present = x.present ∧ (x.stepOver r).err = x.err ∧
    (x.stepOver r).outcome = x.outcome := by
  unfold Slot.stepOver
  split
  all_goals exact ⟨rfl, rfl, rfl, rfl⟩

theorem cutAt_keeps (e : Byte) : (x.cutAt o e).st = x.st ∧ (x.cutAt o e).present = x.present ∧ (x.cutAt o e).err = e ∧
    (x.cutAt o e).outcome = if x.busy then o else x.outcome := by
  unfold Slot.cutAt
  extract_lets y z w
  have hy : y.st = x.st ∧ y.present = x.present ∧ y.outcome = if x.busy then o else x.outcome := by
    unfold y
    split
    all_goals exact ⟨rfl, rfl, rfl⟩
  obtain ⟨hst, hp, ho⟩ := hy
  obtain ⟨hst', hp', -, ho'⟩ := stepOver_keeps y (if y.busy ∧ o = 3 then 0x05 else 0x04)
  have hw : w.st = z.st ∧ w.present = z.present ∧ w.outcome = z.outcome := by
    unfold w
    split
    all_goals exact ⟨rfl, rfl, rfl⟩
  obtain ⟨hst'', hp'', ho''⟩ := hw
  exact ⟨hst''.trans (hst'.trans hst), hp''.trans (hp'.trans hp), rfl, ho''.trans (ho'.trans ho)⟩

end

/-- The state whose slot a cut deactivates: an UNKNOWN outcome has been noticed (R408). -/
def cutNoticed (n : Nat) (s : State) : State :=
  if (slotOf s n).busy ∧ (slotOf s n).outcomeCut s.time.ticks = 3 then unknownOutcome n s else s

theorem hcCut_eq {n : Nat} {s : State} (after : BitVec 4) (e : Byte) (h : (slotOf s n).st ≠ hcEmpty) :
    hcCut n after (some e) s =
      setSlot n (((slotOf s n).cutAt ((slotOf s n).outcomeCut s.time.ticks) e).deactivate after) (cutNoticed n s) := by
  have hst := (cutAt_keeps (slotOf s n) ((slotOf s n).outcomeCut s.time.ticks) e).1
  have hst' : ((slotOf s n).cutAt ((slotOf s n).outcomeCut s.time.ticks) e).st ≠ hcEmpty := by rw [hst]; exact h
  refine (if_neg ?_).trans rfl
  exact hst'

/-- What a cut leaves of the slot. -/
theorem hcCut_slot {n : Nat} {s : State} (after : BitVec 4) (e : Byte) (h : (slotOf s n).st ≠ hcEmpty) :
    let t := hcCut n after (some e) s
    (slotOf t n).st = hcDeact ∧ (slotOf t n).after = after ∧ (slotOf t n).err = e ∧ (slotOf t n).present = (slotOf s n).present ∧
      (slotOf t n).outcome = (if (slotOf s n).busy then (slotOf s n).outcomeCut s.time.ticks else (slotOf s n).outcome) ∧
      (slotOf t n).rst = false ∧ (slotOf t n).clkOn = false ∧ (slotOf t n).eph = none ∧ (slotOf t n).cipher = [] := by
  obtain ⟨-, hp, he, ho⟩ := cutAt_keeps (slotOf s n) ((slotOf s n).outcomeCut s.time.ticks) e
  dsimp only
  rw [hcCut_eq after e h, slotOf_setSlot]
  exact ⟨rfl, rfl, he, hp, ho, rfl, rfl, rfl, rfl⟩

theorem cutNoticed_idle {n : Nat} {s : State} (h : (slotOf s n).busy = false) : cutNoticed n s = s := if_neg (by simp [h])

/-! ### Responses and refusals -/

theorem get_fill (f : Nat → Byte) (t : Table Byte) {n k : Nat} (h : k < n) :
    Table.get 0 ((List.range n).foldl (fun t k => Table.set 0 t k (f k)) t) k = f k := by
  induction n with
  | zero => exact absurd h (Nat.not_lt_zero k)
  | succ n ih =>
    rw [List.range_succ, List.foldl_append]
    dsimp only [List.foldl_cons, List.foldl_nil]
    rcases Nat.lt_succ_iff_lt_or_eq.1 h with hlt | rfl
    · rw [Table.get_set_other (0 : Byte) _ (f n) (Nat.ne_of_lt hlt)]
      exact ih hlt
    · exact Table.get_set_same _ _ _ _

/-- The slot once a manager's exchange is complete. -/
def Slot.answered (x : Slot) : Slot :=
  { x with
    st := hcReady, outcome := 1, wait := .none, rxLen := BitVec.ofNat 9 x.got.length,
    rx := (List.range x.got.length).foldl (fun t k => Table.set 0 t k (x.got.getD k 0)) ([] : Table Byte) }

theorem hcAnswered_eq {n : Nat} {s : State} (h : (slotOf s n).stepWaits = false) :
    hcAnswered n s = setSlot n (slotOf s n).answered s := if_neg (by simp [h])

/-- The first blocks of commands that fit one block (R400). -/
theorem apdu_whole {x : Slot} {l : List Byte} (now : Nat) (h : l.length ≤ x.ifsc.toNat) (hp : x.phase = .none) :
    (x.apdu l now).st = hcExchange ∧ (x.apdu l now).wait = .response ∧ (x.apdu l now).err = x.err ∧
      (x.apdu l now).sent = x.sent ++ [t1Block x.edc (b2n x.ns * 64) l] := by
  have hle : l.length ≤ max 1 x.ifsc.toNat := Nat.le_trans h (Nat.le_max_right _ _)
  unfold Slot.apdu Slot.sendNext
  dsimp only
  rw [List.take_of_length_le hle, decide_eq_false (Nat.not_lt.2 hle), if_neg (by simp [Slot.send, hp])]
  exact ⟨rfl, rfl, rfl, rfl⟩

/-- Any command sends one block first. -/
theorem apdu_sends (x : Slot) (l : List Byte) (now : Nat) : (x.apdu l now).cmd = x.cmd ∧
    (x.apdu l now).sent.length = x.sent.length + 1 := by
  unfold Slot.apdu Slot.sendNext
  dsimp only
  split
  all_goals exact ⟨rfl, by simp [Slot.send]⟩

/-! ### Received blocks -/

section
variable {s : State} {n : Nat} (ho : hcOperates s n = true)
include ho

theorem operates_not : ¬ hcOperates s n = false := by simp [ho]

/-- The slot as a block of an exchange is looked at. -/
def Slot.heard (x : Slot) : Slot := { x with wtx := 1, phase := if x.phase = .data ∧ x.left = [] then .gap else x.phase }

theorem blockReceive_damaged (b : List Byte) (v : Bool) (pl : List Byte) (ha : (slotOf s n).act = .none) (hw : (slotOf s n).wait = .response) :
    Runs (.t1BlockReceive n b false v pl) s (hcBlockError n 1 (setSlot n (slotOf s n).heard s)) := by
  refine congrArg Host.Outcome.next ((if_neg (operates_not ho)).trans ((if_neg ?_).trans ((if_neg ?_).trans ((if_neg ?_).trans (if_pos rfl)))))
  · simp [ha]
  · simp [ha]
  · simp [hw]

/-- The slot that has taken a last block in turn. -/
def Slot.took (x : Slot) (inf : List Byte) : Slot :=
  { x.heard with got := x.got ++ inf, nr := !x.nr, errors := 0, ns := if x.got = [] then !x.ns else x.ns }

theorem blockReceive_answers (b : List Byte) (v : Bool) (pl : List Byte) (ha : (slotOf s n).act = .none) (hw : (slotOf s n).wait = .response)
    (hstep : (slotOf s n).stepWaits = false) (hcmd : (slotOf s n).cmd = 0)
    (hlen : b.length = 3 + (b.getD 2 0).toNat + (if (slotOf s n).edc then 2 else 1)) (hmax : (b.getD 2 0).toNat ≤ 254)
    (hpcb : (b.getD 1 0).toNat < 128) (hseq : ((b.getD 1 0).toNat / 64 % 2 == 1) = (slotOf s n).nr)
    (hmore : (b.getD 1 0).toNat / 32 % 2 = 0) :
    ∃ u, Runs (.t1BlockReceive n b true v pl) s (setSlot n ((slotOf s n).took (slice b 3 (b.getD 2 0).toNat)).answered u) ∧
      (∀ m, m ≠ n → slotOf u m = slotOf s m) ∧ u.ks = s.ks ∧ u.tickets = s.tickets := by
  have hans := hcAnswered_eq (n := n) (s := setSlot n ((slotOf s n).took (slice b 3 (b.getD 2 0).toNat)) (setSlot n (slotOf s n).heard s))
    ((congrArg Slot.stepWaits (slotOf_setSlot _ _ _)).trans hstep)
  rw [slotOf_setSlot] at hans
  refine ⟨setSlot n ((slotOf s n).took (slice b 3 (b.getD 2 0).toNat)) (setSlot n (slotOf s n).heard s), ?_, ?_, rfl, rfl⟩
  · have hwhole : (b.length == 3 + (b.getD 2 0).toNat + (if (slotOf s n).edc then 2 else 1)) = true := beq_iff_eq.2 hlen
    refine congrArg Host.Outcome.next (Eq.trans ?_ hans)
    refine (if_neg (operates_not ho)).trans ?_
    refine (if_neg (by simp [ha])).trans ((if_neg (by simp [ha])).trans ((if_neg (by simp [hw])).trans ?_))
    refine (if_neg Bool.noConfusion).trans ((if_neg ?_).trans ((if_pos hpcb).trans ((if_neg ?_).trans ((if_neg ?_).trans (if_pos hcmd)))))
    · rintro (hf | hlong)
      · exact Bool.false_ne_true (hf.symm.trans hwhole)
      · exact absurd hmax (Nat.not_le.2 hlong)
    · rintro (hne | hne)
      · exact hne hw
      · exact hne hseq
    · rw [hmore]
      decide
  · intro m hm
    rw [slotOf_setSlot_other _ _ _ hm, slotOf_setSlot_other _ _ _ hm]

theorem blockReceive_ifs (b : List Byte) (v : Bool) (pl : List Byte) (ha : (slotOf s n).act = .ifs) :
    Runs (.t1BlockReceive n b true v pl) s
      (if b = t1Block (slotOf s n).edc 0xE1 [0xFE] then hcReadyNow n s else hcNegotiationError n s) := by
  refine congrArg Host.Outcome.next ((if_neg (operates_not ho)).trans ((if_neg ?_).trans ((if_pos ha).trans ?_)))
  · simp [ha]
  · by_cases hb : b = t1Block (slotOf s n).edc 0xE1 [0xFE]
    · exact (if_pos ⟨rfl, hb⟩).trans (if_pos hb).symm
    · exact (if_neg (fun h => hb h.2)).trans (if_neg hb).symm

theorem blockReceive_pps (v : Bool) (pl : List Byte) (ha : (slotOf s n).act = .pps) :
    Runs (.t1BlockReceive n (slotOf s n).lastBlock true v pl) s (setSlot n ({ slotOf s n with
      fi := BitVec.ofNat 4 (((slotOf s n).lastBlock.getD 2 0x11).toNat / 16)
      di := BitVec.ofNat 4 ((slotOf s n).lastBlock.getD 2 0x11).toNat } : Slot).askIfs s) :=
  congrArg Host.Outcome.next ((if_neg (operates_not ho)).trans ((if_pos ha).trans (if_pos ⟨rfl, rfl⟩)))

theorem blockReceive_badPps (b : List Byte) (v : Bool) (pl : List Byte) (ha : (slotOf s n).act = .pps) (hb : b ≠ (slotOf s n).lastBlock) :
    Runs (.t1BlockReceive n b true v pl) s
      (setSlot n { (slotOf s n).deactivate hcActivating with ppsFailed := true, nextA := (slotOf s n).clsA } s) :=
  congrArg Host.Outcome.next ((if_neg (operates_not ho)).trans ((if_pos ha).trans ((if_neg (fun h => hb h.2)).trans (if_pos ha))))

end

/-- An erroneous block of an exchange is asked for again (R401). -/
theorem blockError_repeats {u : State} {n : Nat} (code : Nat) (hw : (slotOf u n).wait = .response) (he : (slotOf u n).errors < 2) :
    hcBlockError n code u = hcCount n 2 (setSlot n { (slotOf u n).send
      (t1Block (slotOf u n).edc (0x80 + code + b2n (slotOf u n).nr * 16) []) with errors := (slotOf u n).errors + 1 } u) :=
  (if_neg (by simp [hw])).trans ((if_neg (by simp [hw])).trans (if_neg (Nat.not_le.2 he)))

theorem blockError_resynchs {s : State} {n : Nat} (code : Nat) (hw : (slotOf s n).wait = .response) (he : 2 ≤ (slotOf s n).errors) :
    hcBlockError n code s = hcResynch n (setSlot n { slotOf s n with errors := (slotOf s n).errors + 1 } s) :=
  (if_neg (by simp [hw])).trans ((if_neg (by simp [hw])).trans (if_pos he))

theorem negotiation_repeats {s : State} {n : Nat} (ha : (slotOf s n).act = .ifs) (he : (slotOf s n).errors < 2) :
    hcNegotiationError n s = hcCount n 2 (setSlot n { (slotOf s n).askIfs with errors := (slotOf s n).errors + 1 } s) :=
  (if_neg (by simp [ha])).trans (if_neg (Nat.not_le.2 he))

theorem negotiation_fails {s : State} {n : Nat} (ha : (slotOf s n).act = .ifs) (he : 2 ≤ (slotOf s n).errors) :
    hcNegotiationError n s = setSlot n ((({ slotOf s n with err := 0x05 } : Slot).stepOver 0x04).deactivate hcFault) s :=
  (if_neg (by simp [ha])).trans (if_pos he)

/-! ### The answer to reset (R397, R398) -/

/-- The slot with the parameters of an answer that offers T=1 and bars no class. -/
def Slot.atrTaken (x : Slot) (a : List Byte) (gs : List AtrGroup) : Slot :=
  let spec := (gs.drop 2).find? (fun g => g.t == 1)
  let b3 := (spec.bind (fun g => g.tb)).getD 0x4D
  { x with
    atr := a, inverse := a.head? == some 0x3F, xi := 0
    guardN := (gs.head?.bind (fun g => g.tc)).getD 0, ifsc := (spec.bind (fun g => g.ta)).getD 0x20,
    bwi := BitVec.ofNat 4 (b3.toNat / 16), cwi := BitVec.ofNat 4 b3.toNat,
    edc := ((spec.bind (fun g => g.tc)).getD 0).toNat % 2 == 1 }

/-- TA1 as the slot may use it by PPS. -/
def Slot.mayPps (x : Slot) (gs : List AtrGroup) : Bool :=
  let ta1 := gs.head?.bind (fun g => g.ta)
  let fi := (ta1.getD 0x11).toNat / 16
  let di := (ta1.getD 0x11).toNat % 16
  ta1.isSome && !x.ppsFailed && 4000 ≤ fmaxOf fi * x.clkdiv.toNat && fiOf fi != 0 && diOf di != 0

theorem atrReceive_good {s : State} {n : Nat} {a : List Byte} {gs : List AtrGroup} (hact : (slotOf s n).act = .atr)
    (hts : a.head? = some 0x3B ∨ a.head? = some 0x3F) (hparse : atrParse a = some gs) (h15 : gs.find? (fun g => g.t == 15) = none)
    (h1 : ∃ g ∈ gs, ∃ b : Byte, g.td = some b ∧ b.toNat % 16 = 1) (h2 : ((gs.drop 1).head?.bind (fun g => g.ta)) = none) :
    Runs (.atrReceive n a true) s
      (if (slotOf s n).mayPps gs then
        setSlot n { ((slotOf s n).atrTaken a gs).send ([0xFF, 0x11, (gs.head?.bind (fun g => g.ta)).getD 0x11] ++
          [lrc [0xFF, 0x11, (gs.head?.bind (fun g => g.ta)).getD 0x11]]) with act := .pps } s
      else setSlot n ((slotOf s n).atrTaken a gs).askIfs s) := by
  have hoffers : ((gs.filterMap (fun g => g.td)).map (fun b => b.toNat % 16)).contains 1 = true := by
    obtain ⟨g, hg, b, hb, hb1⟩ := h1
    rw [List.contains_iff_mem]
    exact List.mem_map.2 ⟨b, List.mem_filterMap.2 ⟨g, hg, hb⟩, hb1⟩
  refine congrArg Host.Outcome.next ((if_neg (Decidable.not_not.2 hact)).trans ?_)
  rw [if_pos ⟨rfl, hts⟩, hparse]
  dsimp only
  rw [h15, h2]
  dsimp only [Option.bind_none]
  rw [hoffers]
  exact (if_neg Bool.noConfusion).trans ((if_neg Bool.noConfusion).trans ((if_neg Bool.noConfusion).trans (if_neg Bool.noConfusion)))

/-! ### Commands of the manager (R409) -/

theorem owned_not {s : State} {n : Nat} (hk : (slotOf s n).ownerKs = false) : ¬ (slotOf s n).ownerKs = true := by simp [hk]

section
variable {s : State} {n : Nat} (ho : hcOperates s n = true)
include ho

theorem owned_refuses (h : (slotOf s n).ownerKs = true) :
    Runs (.hcActivate n) s (hcRefuse n 0x08 1 s) ∧ Runs (.hcDeactivate n) s (hcRefuse n 0x08 2 s) ∧
      Runs (.exchange n) s (hcRefuse n 0x08 3 s) ∧ Runs (.resynch n) s (hcRefuse n 0x08 4 s) :=
  ⟨congrArg Host.Outcome.next ((if_neg (operates_not ho)).trans (if_pos h)),
    congrArg Host.Outcome.next ((if_neg (operates_not ho)).trans (if_pos h)),
    congrArg Host.Outcome.next ((if_neg (operates_not ho)).trans (if_pos h)),
    congrArg Host.Outcome.next ((if_neg (operates_not ho)).trans (if_pos h))⟩

section
variable (hk : (slotOf s n).ownerKs = false)
include hk

theorem hcActivate_starts (hp : (slotOf s n).present = true) (hst : (slotOf s n).st = hcInserted)
    (hc : (slotOf s n).classA = true ∨ (slotOf s n).classB = true) :
    ∃ u, Runs (.hcActivate n) s (setSlot n (({ slotOf s n with err := 0, tried := [], ppsFailed := false } : Slot).start
        !(slotOf s n).classB) u) ∧ (∀ m, m ≠ n → slotOf u m = slotOf s m) ∧ u.ks = s.ks ∧ u.tickets = s.tickets := by
  refine ⟨setSlot n { slotOf s n with err := 0 } s, ?_, fun m hm => slotOf_setSlot_other _ _ _ hm, rfl, rfl⟩
  refine congrArg Host.Outcome.next ((if_neg (operates_not ho)).trans ((if_neg (owned_not hk)).trans
    ((if_neg (by simp [hp])).trans ((if_neg (Decidable.not_not.2 hst)).trans ?_))))
  unfold hcActivate
  dsimp only
  rw [slotOf_setSlot]
  dsimp only
  cases hb : (slotOf s n).classB with
  | true => rfl
  | false =>
    have ha : (slotOf s n).classA = true := hc.resolve_right (by simp [hb])
    rw [ha]
    rfl

theorem exchange_taken (h4 : 4 ≤ (slotOf s n).txLen.toNat) (h261 : (slotOf s n).txLen.toNat ≤ 261) (hst : (slotOf s n).st = hcReady)
    (hf : filtered (slotOf s n).command = false) : ∃ b, Runs (.exchange n) s (setSlot n (({ slotOf s n with
      err := 0, outcome := 0, rxLen := 0, cmd := 0, phase := .none, begun := some b } : Slot).apdu (slotOf s n).command s.time.ticks) s) := by
  refine ⟨_, congrArg Host.Outcome.next ((if_neg (operates_not ho)).trans ((if_neg (owned_not hk)).trans
    ((if_neg ?_).trans ((if_neg (Decidable.not_not.2 hst)).trans (if_neg (by simp [hf]))))))⟩
  rintro (h | h)
  · exact absurd h4 (Nat.not_le.2 h)
  · exact absurd h261 (Nat.not_le.2 h)

theorem exchange_filtered (h4 : 4 ≤ (slotOf s n).txLen.toNat) (h261 : (slotOf s n).txLen.toNat ≤ 261) (hst : (slotOf s n).st = hcReady)
    (hf : filtered (slotOf s n).command = true) : Runs (.exchange n) s (hcRefuse n 0x07 3 s) := by
  refine congrArg Host.Outcome.next ((if_neg (operates_not ho)).trans ((if_neg (owned_not hk)).trans
    ((if_neg ?_).trans ((if_neg (Decidable.not_not.2 hst)).trans (if_pos hf)))))
  rintro (h | h)
  · exact absurd h4 (Nat.not_le.2 h)
  · exact absurd h261 (Nat.not_le.2 h)

end

theorem hcDeactivate_cuts (hk : (slotOf s n).ownerKs = false) (hst : (slotOf s n).st = hcReady) :
    Runs (.hcDeactivate n) s (hcCut n hcInserted (some 0) s) := by
  refine congrArg Host.Outcome.next ((if_neg (operates_not ho)).trans ((if_neg (owned_not hk)).trans (if_neg ?_)))
  rw [hst]
  decide

theorem statusPoll_sends (hp : (slotOf s n).phase = .busy) (hpoll : (slotOf s n).poll = true) (hw : (slotOf s n).wait = .none) :
    Runs (.statusPoll n) s (setSlot n { ({ slotOf s n with cmd := 5 } : Slot).apdu
      (profileApdu s { slotOf s n with cmd := 5 } 5) s.time.ticks with st := hcBusy } s) :=
  congrArg Host.Outcome.next (if_pos ⟨ho, hp, hpoll, hw⟩)

theorem t1Timeout_errs (ha : (slotOf s n).act = .none) : Runs (.t1Timeout n) s (hcBlockError n 2 s) :=
  congrArg Host.Outcome.next ((if_pos ho).trans (if_neg (by simp [ha])))

end

theorem hcResynch_slot {n : Nat} {s : State} {x : Slot} : ∃ y, hcResynch n (setSlot n x s) = hcCount n 1 (setSlot n y (setSlot n x s)) ∧
    y.wait = .resynch ∧ y.st = hcExchange ∧ y.resynchs = x.resynchs + 1 ∧ y.sent = x.sent ++ [t1Block x.edc 0xC0 []] := by
  refine ⟨_, rfl, rfl, rfl, ?_, ?_⟩
  all_goals rw [slotOf_setSlot]
  rfl

/-- Settles O52, clause by clause: presence and activation, then the blocks of an exchange. -/
theorem cardSlotsActivateAndExchange : Obligations.CardSlotsActivateAndExchange := by
  unfold Obligations.CardSlotsActivateAndExchange
  refine ⟨⟨?_, ?_, ?_, ?_, ?_, ?_, ?_, ?_, ?_, ?_, ?_, ?_, ?_⟩, ⟨?_, ?_, ?_, ?_, ?_, ?_, ?_, ?_, ?_, ?_, ?_, ?_, ?_⟩⟩
  · intro s n ho hp hst ha
    refine congrArg Host.Outcome.next ((if_neg ?_).trans (if_neg (by simp [ha])))
    simp [ho, hp, hst]
  · exact fun s n ho h => owned_refuses ho h
  · intro s n ho hk hp hst hc
    obtain ⟨u, hrun, hother, hks, htick⟩ := hcActivate_starts ho hk hp hst hc
    refine ⟨_, hrun, ?_⟩
    rw [slotOf_setSlot]
    exact ⟨rfl, rfl, rfl, rfl, rfl, rfl, fun m hm => (slotOf_setSlot_other _ _ _ hm).trans (hother m hm), hks, htick⟩
  · intro s n ho hk hst hw
    have hne : (slotOf s n).st ≠ hcEmpty := by rw [hst]; decide
    have hidle : (slotOf s n).busy = false := by unfold Slot.busy; rw [hst]; decide
    obtain ⟨h1, h2, h3, -, h5, h6, h7, -, -⟩ := hcCut_slot hcInserted 0 hne
    refine ⟨_, hcDeactivate_cuts ho hk hst, h1, h2, h6, h7, h3, h5.trans (if_neg (by simp [hidle])), ?_⟩
    rw [hcCut_eq hcInserted 0 hne, cutNoticed_idle hidle]
    rfl
  · intro s n ho hp hne
    obtain ⟨h1, h2, h3, h4, -, -, -, h8, h9⟩ := hcCut_slot (n := n)
      (s := hcCount n 3 (setSlot n { slotOf s n with present := false } s)) hcEmpty 0x0A (by
        rw [slotOf_hcCount, slotOf_setSlot]
        exact hne)
    refine ⟨_, congrArg Host.Outcome.next (if_neg (by simp [ho, hp])), h4.trans ?_, h1, h2, h3, h8, h9⟩
    rw [slotOf_hcCount, slotOf_setSlot]
  · intro s n ho hv hd hne
    obtain ⟨h1, h2, h3, -⟩ := hcCut_slot hcFault 0x04 hne
    exact ⟨_, congrArg Host.Outcome.next (if_neg (by simp [ho, hv, hd])), h1, h2, h3⟩
  · intro s n hst
    refine ⟨fun hp => ?_, fun hp ha => ?_⟩
    · exact congrArg Host.Outcome.next ((if_neg (Decidable.not_not.2 hst)).trans (if_pos hp))
    · exact congrArg Host.Outcome.next ((if_neg (Decidable.not_not.2 hst)).trans ((if_neg (by simp [hp])).trans (if_neg ha)))
  · intro s n ha
    refine congrArg Host.Outcome.next ?_
    dsimp only
    rw [ha]
    rfl
  · intro s n v ha
    refine congrArg Host.Outcome.next ?_
    dsimp only
    rw [ha]
  · intro s n v h
    refine congrArg Host.Outcome.next ?_
    dsimp only
    rcases h with ⟨ha, rfl⟩ | ha
    all_goals
      rw [ha]
      rfl
  · intro s n e
    refine ⟨fun h1 h2 h3 => ?_, fun h => ?_⟩
    · have hrun : hcNoAtr n e s = setSlot n { (slotOf s n).deactivate hcActivating with nextA := true } s := if_pos ⟨h1, h2, h3⟩
      rw [hrun, slotOf_setSlot]
      exact ⟨rfl, rfl, rfl⟩
    · have hrun : hcNoAtr n e s = setSlot n ((({ slotOf s n with err := e } : Slot).stepOver 0x04).deactivate hcInserted) s :=
        if_neg (by rcases h with h | h <;> simp [h])
      rw [hrun, slotOf_setSlot]
      exact ⟨rfl, rfl, (stepOver_keeps { slotOf s n with err := e } 0x04).2.2.1⟩
  · intro s n a ha
    refine congrArg Host.Outcome.next ((if_neg (Decidable.not_not.2 ha)).trans ?_)
    rw [if_neg (by simp)]
  · intro s n a gs hact hts hparse h15 h1 h2
    have hrun := atrReceive_good hact hts hparse h15 h1 h2
    dsimp only
    cases hm : (slotOf s n).mayPps gs with
    | true =>
      rw [hm] at hrun
      have hta : (gs.head?.bind (fun g => g.ta)) ≠ none := by
        intro hn
        unfold Slot.mayPps at hm
        simp [hn] at hm
      refine ⟨_, hrun.trans (congrArg Host.Outcome.next (if_pos rfl)), ?_⟩
      rw [slotOf_setSlot]
      refine ⟨rfl, rfl, rfl, rfl, rfl, rfl, rfl, rfl, fun m hm => slotOf_setSlot_other _ _ _ hm, rfl, rfl,
        fun hn => absurd hn hta, fun v hv _ _ _ _ => ⟨rfl, ?_⟩⟩
      rw [hv]
      rfl
    | false =>
      rw [hm] at hrun
      refine ⟨_, hrun.trans (congrArg Host.Outcome.next (if_neg Bool.noConfusion)), ?_⟩
      rw [slotOf_setSlot]
      refine ⟨rfl, rfl, rfl, rfl, rfl, rfl, rfl, rfl, fun m hm => slotOf_setSlot_other _ _ _ hm, rfl, rfl,
        fun _ => ⟨rfl, rfl⟩, fun v hv hpf hfm hfi hdi => ?_⟩
      rw [hv] at hfm hfi hdi
      unfold Slot.mayPps at hm
      simp [hv, hpf] at hm
      exact absurd (hm hfm hfi) hdi
  · exact fun s n ho hk h => congrArg Host.Outcome.next ((if_neg (operates_not ho)).trans ((if_neg (owned_not hk)).trans (if_pos h)))
  · intro s n ho hk h4 h261 hst
    refine ⟨fun hf => exchange_filtered ho hk h4 h261 hst hf, fun hf hle => ?_⟩
    obtain ⟨b, hrun⟩ := exchange_taken ho hk h4 h261 hst hf
    refine ⟨_, hrun, ?_⟩
    rw [slotOf_setSlot]
    exact apdu_whole s.time.ticks hle rfl
  · intro s n ho hk hst
    obtain ⟨y, hrun, hw, hex, -, hsent⟩ := hcResynch_slot (n := n) (s := s)
      (x := { slotOf s n with err := 0, resynchCmd := true, resynchs := 0 })
    refine ⟨_, congrArg Host.Outcome.next ((if_neg (operates_not ho)).trans ((if_neg (owned_not hk)).trans
      ((if_neg (Decidable.not_not.2 hst)).trans hrun))), ?_⟩
    rw [slotOf_hcCount, slotOf_setSlot]
    exact ⟨hw, hex, hsent⟩
  · intro s n b v pl ho ha hw he
    have hslot := slotOf_setSlot n (slotOf s n).heard s
    have hrun := blockError_repeats (u := setSlot n (slotOf s n).heard s) (n := n) 1
      ((congrArg Slot.wait hslot).trans hw) (by rw [hslot]; exact he ▸ Nat.zero_lt_two)
    refine ⟨_, (blockReceive_damaged ho b v pl ha hw).trans (congrArg Host.Outcome.next hrun), ?_⟩
    rw [slotOf_hcCount, slotOf_setSlot, hslot]
    exact ⟨congrArg (· + 1) he, hw, rfl, rfl⟩
  · intro s n b v pl ho ha hw hstep hcmd hlen hmax hpcb hseq hmore
    obtain ⟨u, hrun, hother, hks, htick⟩ := blockReceive_answers ho b v pl ha hw hstep hcmd hlen hmax hpcb hseq hmore
    refine ⟨_, hrun, ?_⟩
    rw [slotOf_setSlot]
    exact ⟨rfl, rfl, rfl, rfl, rfl, fun k hk => get_fill _ _ hk, fun m hm => (slotOf_setSlot_other _ _ _ hm).trans (hother m hm), hks,
      htick⟩
  · intro s n b v pl ho ha
    have hrun := blockReceive_ifs ho b v pl ha
    refine ⟨fun hk hb => ?_, fun hb => ⟨fun he => ?_, fun he => ?_⟩⟩
    · refine hrun.trans (congrArg Host.Outcome.next ((if_pos hb).trans (if_neg ?_)))
      exact owned_not hk
    · refine ⟨_, hrun.trans (congrArg Host.Outcome.next ((if_neg hb).trans (negotiation_repeats ha he))), ?_⟩
      rw [slotOf_hcCount, slotOf_setSlot]
      exact ⟨rfl, rfl, rfl⟩
    · refine ⟨_, hrun.trans (congrArg Host.Outcome.next ((if_neg hb).trans (negotiation_fails ha he))), ?_⟩
      rw [slotOf_setSlot]
      exact ⟨rfl, rfl, (stepOver_keeps { slotOf s n with err := 0x05 } 0x04).2.2.1⟩
  · intro s n v pl ho ha
    refine ⟨_, blockReceive_pps ho v pl ha, ?_⟩
    rw [slotOf_setSlot]
    exact ⟨rfl, rfl, rfl, rfl⟩
  · intro s n b v pl ho ha hb
    refine ⟨_, blockReceive_badPps ho b v pl ha hb, ?_⟩
    rw [slotOf_setSlot]
    exact ⟨rfl, rfl, rfl, rfl⟩
  · intro s n ho ha hw he
    obtain ⟨y, hrun, hwait, -, hre, hsent⟩ := hcResynch_slot (n := n) (s := s)
      (x := { slotOf s n with errors := (slotOf s n).errors + 1 })
    refine ⟨_, (t1Timeout_errs ho ha).trans (congrArg Host.Outcome.next ((blockError_resynchs 2 hw (Nat.le_of_eq he.symm)).trans hrun)), ?_⟩
    rw [slotOf_hcCount, slotOf_setSlot]
    exact ⟨hwait, hre, hsent⟩
  · exact fun s n ho hc hp hl hd hph =>
      congrArg Host.Outcome.next ((if_neg (operates_not ho)).trans (if_pos ⟨hc, hp, hl, hd, .inr (.inl hph)⟩))
  · intro s n ho hph hp hw
    refine ⟨_, statusPoll_sends ho hph hp hw, ?_⟩
    obtain ⟨hcmd, hsent⟩ := apdu_sends { slotOf s n with cmd := 5 } (profileApdu s { slotOf s n with cmd := 5 } 5) s.time.ticks
    rw [slotOf_setSlot]
    exact ⟨hcmd, rfl, hsent⟩
  · intro s n ho hph hst
    have hne : (slotOf s n).st ≠ hcEmpty := by rw [hst]; decide
    have hbusy : (slotOf s n).busy = true := by unfold Slot.busy; rw [hst]; decide
    obtain ⟨h1, h2, h3, -, h5, -⟩ := hcCut_slot hcInserted 0x06 hne
    refine ⟨_, congrArg Host.Outcome.next (if_pos ⟨ho, hph⟩), h1, h2, h3, ?_⟩
    exact h5.trans ((if_pos hbusy).trans (if_pos (.inl hph)))
  · exact fun s n ho h1 h2 h3 h4 h5 => congrArg Host.Outcome.next (if_pos ⟨ho, h1, h2, h3, h4, h5⟩)

end Sys2Proof.Machine
end

section
/-!
SUPPORT. The generator (R420–R427): what a start of an instantiation or a reseed leaves, and what each step makes of the queue.
-/
namespace Sys2Proof.Machine

open Sys2Proof

/-! ### What begins, and what it leaves (R421, R423) -/

theorem drbgStart_frame (s : State) : ∃ a b c d e, drbgStart s = { s with rng := { s.rng with
    instRunning := a, reseedRunning := b, reseedPending := c, begun := d, forPr := e } } := by
  unfold drbgStart
  extract_lets g n headPr
  clear_value headPr
  split
  · exact ⟨_, _, _, _, _, rfl⟩
  split
  · exact ⟨_, _, _, _, _, rfl⟩
  split
  all_goals exact ⟨_, _, _, _, _, rfl⟩

/-- The parts of the generator that a start leaves alone. -/
structure Served (g h : Entropy) : Prop where
  queue : h.queue = g.queue
  keyV : h.keyV = g.keyV
  count : h.count = g.count
  pool : h.pool = g.pool
  answers : h.answers = g.answers
  completed : h.completed = g.completed

theorem drbgStart_served (s : State) : Served s.rng (drbgStart s).rng := by
  obtain ⟨a, b, c, d, e, h⟩ := drbgStart_frame s
  rw [h]
  exact ⟨rfl, rfl, rfl, rfl, rfl, rfl⟩

/-- Nothing begins without an entropy request that the pool can meet. -/
theorem drbgStart_rests {s : State} (h3 : (s.rng.ready = false ∨ s.rng.instPending = true ∨ s.rng.faulty = true) → s.rng.pool.length < 3)
    (h2 : s.rng.ready = true → s.rng.pool.length < 2 ∨ (s.rng.reseedPending = false ∧ ∀ r ∈ s.rng.queue, r.pr = false)) :
    drbgStart s = s := by
  unfold drbgStart
  dsimp only
  split
  · rfl
  rw [if_neg (fun h => absurd (h3 h.1) (Nat.not_lt.2 h.2)), if_neg]
  rintro ⟨hready, -, hpool, hcause⟩
  rcases h2 hready with hlt | ⟨hpend, hpr⟩
  · exact absurd hpool (Nat.not_le.2 hlt)
  · rcases hcause with hhead | hres
    · cases hq : s.rng.queue with
      | nil => simp [hq] at hhead
      | cons r q => simp [hq, hpr r (by simp [hq])] at hhead
    · exact Bool.false_ne_true (hpend.symm.trans hres)

theorem drbgStart_instantiates {s : State} (hi : s.rng.instRunning = false) (hr : s.rng.reseedRunning = false) (hk : s.rng.katPassed = true)
    (hready : s.rng.ready = false) (hp : 3 ≤ s.rng.pool.length) :
    drbgStart s = { s with rng := { s.rng with instRunning := true } } :=
  (if_neg (by simp [hi, hr, hk])).trans (if_pos ⟨.inl hready, hp⟩)

/-! ### A request that is told NOT_READY (R424) -/

theorem rng_report (ev : Event) (s : State) : (report ev s).rng = s.rng := by
  obtain ⟨k, q, h⟩ := report_frame ev s
  rw [h]

theorem rng_profileSend (n k : Nat) (s : State) : (profileSend n k s).rng = s.rng := by
  unfold profileSend
  dsimp only
  split
  all_goals rfl

theorem rng_hcBegin (n : Nat) (s : State) : (hcBegin n s).rng = s.rng := by
  unfold hcBegin
  dsimp only
  split
  · exact rng_profileSend _ _ _
  · rfl

theorem rng_hcFailed (n : Nat) (e : Option Byte) (s : State) (r : Byte) : (hcFailed n e s r).rng = s.rng := by
  unfold hcFailed
  dsimp only
  split
  · exact rng_hcBegin _ _
  · rfl

theorem drbgDeliver_none (u : DrbgUser) (s : State) : (drbgDeliver u none s).rng.queue = s.rng.queue ∧
    (drbgDeliver u none s).rng.keyV = s.rng.keyV := by
  cases u with
  | hatCheck n =>
    change (hcEphemeral n none s).rng.queue = _ ∧ (hcEphemeral n none s).rng.keyV = _
    have h : (hcEphemeral n none s).rng = s.rng := by
      unfold hcEphemeral
      dsimp only
      split
      · exact rng_hcFailed _ _ _ _
      · rfl
    rw [h]
    exact ⟨rfl, rfl⟩
  | hash c e => exact ⟨rfl, rfl⟩
  | pinfmt c e => exact ⟨rfl, rfl⟩
  | mrgSeed r k => exact ⟨rfl, rfl⟩
  | blob c => exact ⟨rfl, rfl⟩
  | cookie => exact ⟨rfl, rfl⟩
  | ceremony => exact ⟨rfl, rfl⟩
  | challenge => exact ⟨rfl, rfl⟩
  | bootId => exact ⟨rfl, rfl⟩

theorem drbgNotReady_keeps (u : DrbgUser) (s : State) : (drbgNotReady u s).rng.queue = s.rng.queue ∧
    (drbgNotReady u s).rng.keyV = s.rng.keyV := by
  unfold drbgNotReady
  dsimp only
  generalize hv : (if (bump (rngReg 0x18) 0 16 s).rng.noticed = true then _ else _) = v
  have hkeep : v.rng.queue = s.rng.queue ∧ v.rng.keyV = s.rng.keyV := by
    rw [← hv]
    split
    · exact ⟨rfl, rfl⟩
    · unfold stateNotice
      rw [rng_report]
      exact ⟨rfl, rfl⟩
  obtain ⟨h1, h2⟩ := drbgDeliver_none u v
  exact ⟨h1.trans hkeep.1, h2.trans hkeep.2⟩

/-! ### The steps -/

theorem anyBad_zero (n : Nat) : anyBad 0 n = false := by simp [anyBad, bit]

/-- The first instantiation's state, once BOOT_ID is drawn. -/
def instantiated (s : State) : State :=
  drbgStarved { s with rng := { s.rng with
    keyV := Config.drbgInstantiate (twoWindows s) (s.rng.pool.getD 2 0) (drbgPers s), count := 0, ready := true, faulty := false
    noticed := false, instRunning := false, instPending := false, pool := s.rng.pool.drop 3 } }

theorem instantiateDone_runs {s : State} (hi : s.rng.instRunning = true) (hp : 3 ≤ s.rng.pool.length) (hpend : s.rng.reseedPending = false)
    (hb : s.aud.bootReady = true) (hq : ∀ r ∈ s.rng.queue, r.pr = false) : Runs (.drbgInstantiateDone 0) s (instantiated s) := by
  have hrest : drbgStart (instantiated s) = instantiated s :=
    drbgStart_rests (by rintro (h | h | h) <;> exact absurd h Bool.noConfusion) (fun _ => .inr ⟨hpend, hq⟩)
  refine congrArg Host.Outcome.next (Eq.trans ?_ hrest)
  refine (if_neg ?_).trans ((if_neg (by rw [anyBad_zero]; exact Bool.noConfusion)).trans ?_)
  · rintro (h | h)
    · exact Bool.false_ne_true (h.symm.trans hi)
    · exact absurd hp (Nat.not_le.2 h)
  · dsimp only
    rw [if_pos (.inl hb)]
    rfl

/-- A reseed's end, before what it lets begin. -/
def reseeded (s : State) : State :=
  drbgStarved (bump (rngReg 0x18) 1 16 { s with rng := { s.rng with
    keyV := Config.drbgReseed s.rng.keyV (twoWindows s), count := 0, pool := s.rng.pool.drop 2, reseedRunning := false
    completed := s.rng.begun, prReady := s.rng.forPr, forPr := false, noticed := false } })

theorem reseedDone_runs {s : State} (hr : s.rng.reseedRunning = true) (hp : 2 ≤ s.rng.pool.length) :
    Runs (.drbgReseedDone 0) s (drbgStart (reseeded s)) := by
  refine congrArg Host.Outcome.next ((if_neg ?_).trans (if_neg (by rw [anyBad_zero]; exact Bool.noConfusion)))
  rintro (h | h)
  · exact Bool.false_ne_true (h.symm.trans hr)
  · exact absurd hp (Nat.not_le.2 h)

section
variable {s : State} {u : DrbgUser} {n : Nat} {p : Bool} (hq : ∀ r ∈ s.rng.queue, r.who ≠ u)
  (ha : drbgAnswer s u = none) (hl : s.rng.queue.length < 1024)
include hq ha hl

theorem request_arrives : ¬ (s.rng.queue.any (fun r => r.who == u) = true ∨ (drbgAnswer s u).isSome = true ∨ 1024 ≤ s.rng.queue.length) := by
  rintro (h | h | h)
  · obtain ⟨r, hr, he⟩ := List.any_eq_true.1 h
    exact hq r hr (eq_of_beq he)
  · simp [ha] at h
  · exact absurd hl (Nat.not_lt.2 h)

variable (hw : drbgWants s u = some (n, p))
include hw

theorem request_notReady (hr : s.rng.ready = false ∨ s.rng.katPassed = false) (hs : isSeed u = false) :
    Runs (.drbgRequest u) s (drbgNotReady u s) := by
  refine congrArg Host.Outcome.next ?_
  rw [hw]
  exact (if_neg (request_arrives hq ha hl)).trans (if_pos ⟨hr, hs⟩)

/-- The request as it enters the queue. -/
def requestNow (s : State) (u : DrbgUser) (n : Nat) (p : Bool) : DrbgReq :=
  { who := u, len := n, pr := p, since := s.time.ticks, after := if s.rng.completed < s.rng.blockUntil then s.rng.blockUntil else 0 }

theorem request_queues (hr : s.rng.ready = true) (hk : s.rng.katPassed = true) (hh : s.rng.holdUs ≠ 0) :
    Runs (.drbgRequest u) s (drbgStart (drbgStarved { s with rng := { s.rng with
      queue := insertReq (requestNow s u n p) s.rng.queue } })) := by
  refine congrArg Host.Outcome.next ?_
  rw [hw]
  exact (if_neg (request_arrives hq ha hl)).trans ((if_neg (by simp [hr, hk])).trans (if_neg (fun h => hh h.1)))

end

/-- The generator once the request r at the head of r :: q is served, before what that lets begin. -/
def requestServed (r : DrbgReq) (q : List DrbgReq) (s : State) : State :=
  drbgStarved (drbgDeliver r.who (some (bytesFrom (Config.drbgOut s.rng.keyV r.len) r.len)) { s with rng := { s.rng with
    keyV := Config.drbgNext s.rng.keyV r.len, count := s.rng.count + 1, queue := q
    prReady := if r.pr then false else s.rng.prReady
    reseedPending := s.rng.reseedPending || max 1 (min (2 ^ 20) s.rng.autoTh.toNat) ≤ s.rng.count + 1 } })

/-- A request at the head that need not wait is served (R422). -/
theorem requestServed_runs {s : State} {r : DrbgReq} {q : List DrbgReq} (hq : s.rng.queue = r :: q)
    (hr : s.rng.ready = true) (hk : s.rng.katPassed = true) (hs : s.rng.reseedRunning = false) (hm : drbgMustWait s r = false) :
    Runs (.drbgRequestServed true) s (drbgStart (requestServed r q s)) := by
  have hgo : ¬ (s.rng.ready = false ∨ s.rng.katPassed = false ∨ s.rng.reseedRunning = true ∨ drbgMustWait s r = true) := by
    simp [hr, hk, hs, hm]
  refine congrArg Host.Outcome.next ?_
  dsimp only
  rw [hq]
  exact (if_neg hgo).trans (if_neg Bool.noConfusion)

/-- Its bits are what a hash engine takes. -/
theorem requestServed_hash {s : State} {c e : Nat} {r : DrbgReq} (q : List DrbgReq) (hu : r.who = .hash c e) :
    (requestServed r q s).rng.queue = q ∧ (requestServed r q s).rng.count = s.rng.count + 1 ∧
      (requestServed r q s).rng.keyV = Config.drbgNext s.rng.keyV r.len ∧ (requestServed r q s).rng.answers =
        s.rng.answers ++ [(r.who, some (bytesFrom (Config.drbgOut s.rng.keyV r.len) r.len))] := by
  unfold requestServed
  rw [hu]
  exact ⟨rfl, rfl, rfl, rfl⟩

/-- A hold that expires takes its request out of the queue (R424, R425). -/
theorem holdExpiry_runs {s : State} {u : DrbgUser} {r : DrbgReq} (hf : s.rng.queue.find? (fun r => r.who == u) = some r)
    (hs : isSeed u = false) (hb : u ≠ .bootId) (hw : ∀ h ∈ s.rng.queue, drbgMustWait s h = true) :
    Runs (.drbgHoldExpiry u) s (drbgStart (drbgNotReady u (drbgStarved
      { s with rng := { s.rng with queue := s.rng.queue.filter (fun r => r.who != u) } }))) := by
  have hwaits : drbgWaits s r = true := by
    unfold drbgWaits
    rw [hw r (List.mem_of_find?_eq_some hf)]
    rfl
  refine congrArg Host.Outcome.next ?_
  rw [hf]
  exact (if_neg (by simp [hs, hb])).trans (if_pos hwaits)

/-- Settles O54: the known-answer test, the three triggers and their ends, and the queue of requests. -/
theorem generatorIsSeededAndServes : Obligations.GeneratorIsSeededAndServes := by
  unfold Obligations.GeneratorIsSeededAndServes
  refine ⟨?_, ?_, ?_, ?_, ?_, ?_, ?_, ?_, ?_, ?_⟩
  · intro s hk hl
    refine ⟨_, congrArg Host.Outcome.next ((if_neg (by simp [hk])).trans ((if_neg Bool.noConfusion).trans (if_pos rfl))), ?_⟩
    exact lockdown_locks _ _ hl
  · intro s hk hi hr hready hp
    refine ⟨_, congrArg Host.Outcome.next ((if_neg (by simp [hk])).trans ((if_pos rfl).trans
      (drbgStart_instantiates hi hr rfl hready hp))), rfl, rfl, rfl⟩
  · exact fun s hi hp _ hpend hb hq => ⟨_, instantiateDone_runs hi hp hpend hb hq, rfl, rfl, rfl, rfl, rfl, rfl⟩
  · intro s hw _ _ _ hp hr
    refine congrArg Host.Outcome.next ((hostWrite_writable hw).trans (drbgStart_rests (fun _ => hp) (fun h => ?_)))
    exact absurd (hr.symm.trans h) Bool.noConfusion
  · intro s hw hp
    refine ⟨congrArg Host.Outcome.next ((hostWrite_writable hw).trans (drbgStart_rests (fun _ => ?_) (fun _ => .inl hp))),
      congrArg Host.Outcome.next ((hostWrite_writable hw).trans (drbgStart_rests (fun _ => ?_) (fun _ => .inl hp)))⟩
    all_goals exact Nat.lt_succ_of_lt hp
  · intro s hr hp
    obtain ⟨-, hkeyV, hcount, hpool, -, hcomp⟩ := drbgStart_served (reseeded s)
    exact ⟨_, reseedDone_runs hr hp, hcount, hcomp, hpool, hkeyV⟩
  · exact fun s u n p hw hq ha hl hr hs => request_notReady hq ha hl hw hr hs
  · intro s u n p hw hq ha hl hr hk hh
    have hqueue := (drbgStart_served (drbgStarved { s with rng := { s.rng with
      queue := insertReq (requestNow s u n p) s.rng.queue } })).queue
    refine ⟨_, requestNow s u n p, request_queues hq ha hl hw hr hk hh, hqueue, rfl, rfl, rfl, fun hnow => ?_⟩
    exact hqueue.trans (insertReq_append _ _ hnow)
  · intro s c e r q hq hu hr hk hs hm
    obtain ⟨hqueue, hkeyV, hcount, -, hans, -⟩ := drbgStart_served (requestServed r q s)
    obtain ⟨h1, h2, h3, h4⟩ := requestServed_hash (s := s) q hu
    exact ⟨_, requestServed_runs hq hr hk hs hm, hqueue.trans h1, hcount.trans h2, hkeyV.trans h3, hans.trans h4⟩
  · intro s u r hf hs hb hw
    obtain ⟨hqueue, hkeyV, -⟩ := drbgStart_served (drbgNotReady u (drbgStarved
      { s with rng := { s.rng with queue := s.rng.queue.filter (fun r => r.who != u) } }))
    obtain ⟨hq, hk⟩ := drbgNotReady_keeps u (drbgStarved
      { s with rng := { s.rng with queue := s.rng.queue.filter (fun r => r.who != u) } })
    exact ⟨_, holdExpiry_runs hf hs hb hw, hqueue.trans hq, hkeyV.trans hk⟩

end Sys2Proof.Machine
end

section
/-!
SUPPORT. Resets of the device (R464–R468, R472): what a warm reset clears and what it keeps, and where boot begins.
-/
namespace Sys2Proof.Machine

open Sys2Proof

/-! ### What runs and waits, beside the plant -/

/-- The tenants' entries, the tickets, the cores and the hold on the PCIe block. -/
structure Roster where
  inReset : Bool
  inst : Table Inst
  tickets : List Ticket
  cores : Table Core

def roster (s : State) : Roster := { inReset := s.pcie.inReset, inst := s.inst, tickets := s.tickets, cores := s.cores }

section
variable (s : State)

theorem roster_report (ev : Event) : roster (report ev s) = roster s := by
  obtain ⟨k, q, h⟩ := report_frame ev s
  rw [h]
  rfl

theorem roster_recompute : roster (recompute s) = roster s := by
  unfold recompute
  dsimp only
  split
  · exact roster_report _ _
  · rfl

theorem roster_unwrite (p : Place) (n : Nat) : roster (unwrite p n s) = roster s := by cases p <;> rfl

theorem roster_sweepActs : roster (sweepActs s) = roster s :=
  foldl_keeps roster (fun s _ => foldl_keeps roster (fun s _ => roster_unwrite s _ _) _ s) _ s

theorem roster_renumber (c : NowCommit) (e : W64) (k : Nat) : roster (renumber c e k s) = roster s := by
  unfold renumber
  dsimp only
  split
  all_goals rfl

theorem roster_tryBoundary : roster (tryBoundary s) = roster s := by
  have htake : roster (takeBoundary s) = roster s := by
    have hmoved (l : List NowCommit) (e : W64) (f : NowCommit → Nat) :
        roster (l.foldl (fun s c => renumber c e (f c) s) s) = roster s :=
      foldl_keeps roster (fun s c => roster_renumber s c e (f c)) l s
    unfold takeBoundary
    dsimp only
    split
    · exact hmoved _ _ _
    · refine (foldl_keeps roster ?_ _ _).trans (hmoved _ _ _)
      exact fun _ _ => rfl
  unfold tryBoundary
  dsimp only
  split
  · rfl
  split
  · split
    · rfl
    · exact roster_report _ _
  · exact htake

theorem hcReset_notices (n : Nat) : ∃ x, hcReset n s = setSlot n x (cutNoticed n s) := ⟨_, rfl⟩

theorem plant_hcReset (n : Nat) : plant (hcReset n s) = plant s := by
  obtain ⟨x, hx⟩ := hcReset_notices s n
  rw [hx]
  unfold cutNoticed
  split
  · exact plant_report _ _
  · rfl

theorem roster_hcReset (n : Nat) : roster (hcReset n s) = roster s := by
  obtain ⟨x, hx⟩ := hcReset_notices s n
  rw [hx]
  unfold cutNoticed
  split
  · exact roster_report _ _
  · rfl

/-! ### A warm reset (R465–R467) -/

/-- Safety-net mode has ended. -/
def Plant.safetyOver (p : Plant) : Plant :=
  if p.fc.snet = false then p else { p with fc := { p.fc with snet := false, snetSource := 0 }, boot := { p.boot with reopen := true } }

/-- The plant in the first hub cycle of a warm reset. -/
def Plant.warmed (cause : BitVec 4) (p : Plant) : Plant :=
  { p with
    lcs := { p.lcs with granted := false, perm := 0, dbgHeld := false, dbgBusy := p.lcs.drawing, verifying := false }
    boot := { p.boot with
      warm := true, stage := stReset, slot := 0, resultA := 0, resultB := 0, bundleFailI := false, bundleFailV := false,
      trying := none, fails := 0, ringUp := 0, ringHeld := 0, cause := cause,
      warmCount := if 5 ≤ cause.toNat then BitVec.ofNat 16 (sat 16 (p.boot.warmCount.toNat + 1)) else p.boot.warmCount }
    patch := { p.patch with busy := false, waiting := none, reverting := false, result := 0 }
    mgmt := { held := true }, ringRet := 0, coreRet := 0 }

theorem plant_endSafetyNet : plant (endSafetyNet s) = (plant s).safetyOver := by
  unfold endSafetyNet Plant.safetyOver
  by_cases h : s.fc.snet = false
  · rw [if_pos h]
    exact (if_pos h).symm
  · rw [if_neg h]
    refine Eq.trans ?_ (if_neg h).symm
    dsimp only
    split
    · have hp := plant_tryBoundary { s with aud := { s.aud with pendFinal := true } }
      generalize tryBoundary { s with aud := { s.aud with pendFinal := true } } = u at hp ⊢
      exact congrArg (fun p : Plant => { p with
        fc := { p.fc with snet := false, snetSource := 0 }, boot := { p.boot with reopen := true } }) hp
    · rfl

theorem roster_endSafetyNet : roster (endSafetyNet s) = roster s := by
  unfold endSafetyNet
  split
  · rfl
  · dsimp only
    split
    · exact roster_tryBoundary { s with aud := { s.aud with pendFinal := true } }
    · rfl

/-- Hat-check slots and safety-net mode as a warm reset leaves them, before the rest. -/
def slotsReset (s : State) : State := hcReset 1 (hcReset 0 (endSafetyNet (clearTickets s)))

theorem plant_slotsReset : plant (slotsReset s) = (plant s).safetyOver :=
  (plant_hcReset _ _).trans ((plant_hcReset _ _).trans (plant_endSafetyNet _))

theorem roster_slotsReset : roster (slotsReset s) = roster (clearTickets s) :=
  (roster_hcReset _ _).trans ((roster_hcReset _ _).trans (roster_endSafetyNet _))

variable {s}

theorem plant_warmReset (cause : BitVec 4) (h : Live s) : plant (warmReset cause s) = (plant s).safetyOver.warmed cause := by
  have hp := plant_slotsReset s
  unfold slotsReset at hp
  unfold warmReset
  rw [if_neg (by simp [h])]
  dsimp only
  rw [plant_recompute, plant_sweepActs]
  generalize hcReset 1 (hcReset 0 (endSafetyNet (clearTickets s))) = w at hp ⊢
  exact congrArg (Plant.warmed cause) hp

theorem roster_warmReset (cause : BitVec 4) (h : Live s) : roster (warmReset cause s) = { roster (clearTickets s) with cores := [] } := by
  have hr := roster_slotsReset s
  unfold slotsReset at hr
  unfold warmReset
  rw [if_neg (by simp [h])]
  dsimp only
  rw [roster_recompute, roster_sweepActs]
  generalize hcReset 1 (hcReset 0 (endSafetyNet (clearTickets s))) = w at hr ⊢
  exact congrArg (fun r : Roster => { r with cores := [] }) hr

end

/-! ### What both say of a warm reset -/

theorem safetyOver_snet (p : Plant) : p.safetyOver.fc.snet = false := by
  unfold Plant.safetyOver
  split
  next h => exact h
  next => rfl

/-- The end of safety-net mode leaves all but its own flag and the note that an epoch is to open. -/
theorem safetyOver_keeps (p : Plant) : p.safetyOver.lcs = p.lcs ∧ p.safetyOver.patch = p.patch ∧ p.safetyOver.floor = p.floor ∧
    p.safetyOver.boot.warmCount = p.boot.warmCount ∧ p.safetyOver.boot.perstLow = p.boot.perstLow := by
  unfold Plant.safetyOver
  split
  all_goals exact ⟨rfl, rfl, rfl, rfl, rfl⟩

section
variable {s : State} (cause : BitVec 4) (h : Live s)
include h

theorem warmReset_boot : (warmReset cause s).boot = ((plant s).safetyOver.warmed cause).boot := congrArg Plant.boot (plant_warmReset cause h)
theorem warmReset_fc : (warmReset cause s).fc = (plant s).safetyOver.fc := congrArg Plant.fc (plant_warmReset cause h)
theorem warmReset_lcs : (warmReset cause s).lcs = ((plant s).safetyOver.warmed cause).lcs := congrArg Plant.lcs (plant_warmReset cause h)
theorem warmReset_patch : (warmReset cause s).patch = ((plant s).safetyOver.warmed cause).patch :=
  congrArg Plant.patch (plant_warmReset cause h)
theorem warmReset_mgmt : (warmReset cause s).mgmt = { held := true } := congrArg Plant.mgmt (plant_warmReset cause h)
theorem warmReset_floor : (warmReset cause s).acts.floor = (plant s).safetyOver.floor := congrArg Plant.floor (plant_warmReset cause h)
theorem warmReset_cores : (warmReset cause s).cores = [] := congrArg Roster.cores (roster_warmReset cause h)
theorem warmReset_inst : (warmReset cause s).inst = (clearTickets s).inst := congrArg Roster.inst (roster_warmReset cause h)
theorem warmReset_tickets : (warmReset cause s).tickets = (clearTickets s).tickets := congrArg Roster.tickets (roster_warmReset cause h)
theorem warmReset_inReset : (warmReset cause s).pcie.inReset = s.pcie.inReset := congrArg Roster.inReset (roster_warmReset cause h)

end

/-- What a change of every entry leaves of each, it leaves of the entry looked up. -/
theorem get_map_keeps {α β : Type} (d : α) {f : α → α} (g : α → β) (hg : ∀ v, g (f v) = g v) (t : Table α) (k : Nat) :
    g (Table.get d (t.map (fun e => (e.1, f e.2))) k) = g (Table.get d t k) := by
  induction t with
  | nil => rfl
  | cons e t ih =>
    obtain ⟨a, v⟩ := e
    by_cases ha : a = k
    · simp [Table.get, ha, hg]
    · simpa [Table.get, ha] using ih

theorem mem_of_get_ne {α : Type} {d : α} {t : Table α} {k : Nat} (h : Table.get d t k ≠ d) : ∃ v, (k, v) ∈ t := by
  induction t with
  | nil => exact absurd rfl h
  | cons e t ih =>
    obtain ⟨a, v⟩ := e
    by_cases ha : a = k
    · exact ⟨v, by simp [ha]⟩
    · obtain ⟨w, hw⟩ := ih (by simpa [Table.get, ha] using h)
      exact ⟨w, List.mem_cons_of_mem _ hw⟩

/-! ### Where boot begins (R472) -/

/-- What boot's begin leaves alone. -/
theorem bootBegin_keeps (s : State) : (bootBegin s).lcs = s.lcs ∧ (bootBegin s).mem = s.mem ∧ (bootBegin s).ks = s.ks ∧
    (bootBegin s).pcie = s.pcie ∧ (bootBegin s).inst = s.inst ∧ (bootBegin s).page = s.page ∧ (bootBegin s).tickets = s.tickets ∧
    (bootBegin s).boot.perstLow = s.boot.perstLow ∧ (bootBegin s).boot.warm = s.boot.warm := by
  unfold bootBegin
  split
  · exact ⟨rfl, rfl, rfl, rfl, rfl, rfl, rfl, rfl, rfl⟩
  split
  all_goals exact ⟨rfl, rfl, rfl, rfl, rfl, rfl, rfl, rfl, rfl⟩

theorem bootBegin_waits {s : State} (h : bootReady s = false) : bootBegin s = s := if_pos h

theorem core_bootBegin {s : State} (h : bootReady s = true) (hst : s.lcs.st ≠ lcScrapped) :
    core (bootBegin s) mgmtCore = { run := .running } ∧ (bootBegin s).mgmt = { held := false } ∧ (bootBegin s).boot = { s.boot with
      stage := stFlash, slot := 0, resultA := 0, resultB := 0, bundleFailI := false, bundleFailV := false, trying := none, fails := 0 } := by
  unfold bootBegin
  rw [if_neg (by simp [h]), if_neg hst]
  exact ⟨core_setCore s mgmtCore { run := .running }, rfl, rfl⟩

/-- The state at the end of a warm reset, before boot (R467). -/
def warmOver (s : State) : State :=
  let relock (d : Domain) : Domain := { d with recovery := .locking, failed := 0 }
  { s with
    inst := s.inst.map (fun e => (e.1, e.2.afterWarm)), page := [], dol := { s.dol with draw := true }
    clk := if s.clk.hubTripped then
        { s.clk with dom := Table.set {} s.clk.dom 16 (relock (Table.get {} s.clk.dom 16)) }
      else s.clk
    boot := { s.boot with warm := false } }

/-- Settles O57: power-on, PERST and warm reset, each by the records it leaves. -/
theorem resetsClearTheirScope : Obligations.ResetsClearTheirScope := by
  unfold Obligations.ResetsClearTheirScope
  refine ⟨?_, ?_, ?_, ?_, ?_, ?_, ?_, ?_, ?_, ?_, ?_, ?_⟩
  · exact fun s => rfl
  · exact fun s h => congrArg Host.Outcome.next (if_pos h)
  · exact fun s c => ⟨rfl, rfl, rfl, rfl, rfl, rfl, rfl, rfl⟩
  · intro s hp hl
    refine congrArg Host.Outcome.next ((if_pos hp).trans (bootBegin_waits ?_))
    simp [bootReady, hl]
  · intro s hp hst hc hb hper hw hl hd hr
    have hready : bootReady { s with boot := { s.boot with pwrGood := true } } = true := by
      unfold hubClocked at hc
      simp only [bootReady, hubClocked, hp, hc, hb, hper, hw, hd, hr, Bool.not_false, Bool.and_true, beq_self_eq_true]
      simpa [Live] using hl
    obtain ⟨hcore, hmgmt, hboot⟩ := core_bootBegin hready hst
    obtain ⟨hlcs, hmem, hks, -⟩ := bootBegin_keeps { s with boot := { s.boot with pwrGood := true } }
    refine ⟨_, congrArg Host.Outcome.next (if_pos hp), ?_⟩
    rw [hcore, hmgmt, hboot]
    exact ⟨rfl, rfl, rfl, rfl, rfl, rfl, hlcs, hmem, hks⟩
  · exact fun s h => ⟨congrArg Host.Outcome.next (if_neg (by simp [h])), congrArg Host.Outcome.next (if_neg (by simp [h]))⟩
  · intro s k hl hp
    have hl' : Live (pcieReset true { s with boot := { s.boot with perstLow := true } }) := hl
    refine ⟨_, congrArg Host.Outcome.next (if_neg (by simp [pcieReset, hp])), ?_⟩
    obtain ⟨-, -, -, hcount, hlow⟩ := safetyOver_keeps (plant (pcieReset true { s with boot := { s.boot with perstLow := true } }))
    have hno : ¬ 5 ≤ (if k = 0 then 3 else 4 : BitVec 4).toNat := by split <;> decide
    rw [warmReset_inReset _ hl', warmReset_boot _ hl', warmReset_cores _ hl', warmReset_mgmt _ hl']
    exact ⟨rfl, hlow, rfl, rfl, (if_neg hno).trans hcount, rfl, rfl⟩
  · intro s k hl
    refine congrArg Host.Outcome.next ?_
    dsimp only
    split
    · rfl
    · exact if_pos hl
  · intro s
    obtain ⟨hlcs, hmem, -, hpcie, -, -, -, hlow, -⟩ := bootBegin_keeps { s with
      pcie := { s.pcie with inReset := false }, boot := { s.boot with perstLow := false } }
    exact ⟨_, rfl, congrArg Pcie.inReset hpcie, hlow, hlcs, hmem⟩
  · exact fun s hw hb => congrArg Host.Outcome.next ((hostWrite_writable hw).trans (if_pos hb))
  · intro s hw hb
    obtain ⟨hlcs, hpatch, hfloor, hcount, -⟩ := safetyOver_keeps (plant s)
    have hl : Live s := hw.1
    refine ⟨_, congrArg Host.Outcome.next ((hostWrite_writable hw).trans (if_neg (by simp [hb]))), ?_⟩
    rw [warmReset_boot _ hl, warmReset_cores _ hl, warmReset_mgmt _ hl, warmReset_fc _ hl, warmReset_lcs _ hl, warmReset_tickets _ hl,
      warmReset_floor _ hl, warmReset_patch _ hl]
    refine ⟨rfl, rfl, rfl, rfl, rfl, rfl, safetyOver_snet _, rfl, ?_, ?_, hfloor, (congrArg Patch.version hpatch :),
      (congrArg Patch.ram hpatch :), (congrArg LifeCycle.st hlcs :), ?_⟩
    · intro k hk
      obtain ⟨u, hu, rfl⟩ := List.mem_map.1 hk
      exact (List.mem_filter.1 hu).2
    · intro i
      unfold inst
      rw [warmReset_inst _ hl]
      exact get_map_keeps ({} : Inst) (f := fun v => { v.takeShare with reads := [], reserved := 0 }) Inst.pasid (fun _ => rfl) s.inst i
    · have hfive : ((plant s).safetyOver.warmed 5).boot.warmCount =
          BitVec.ofNat 16 (sat 16 ((plant s).safetyOver.boot.warmCount.toNat + 1)) := rfl
      rw [hfive, hcount]
      rfl
  · intro s hl hw hp
    obtain ⟨-, -, -, -, hinst, hpage, htick, -, hwarm⟩ := bootBegin_keeps (warmOver s)
    refine ⟨bootBegin (warmOver s), congrArg Host.Outcome.next ((unlessLocked_live hl).trans (if_neg (by simp [hw, hp]))), hwarm, hpage,
      htick, fun i hi => ?_⟩
    have hmem : ∃ v, (i, v) ∈ s.inst := mem_of_get_ne (d := ({} : Inst)) (fun h => hi (congrArg Inst.st h))
    have hget : inst (bootBegin (warmOver s)) i = (inst s i).afterWarm := by
      unfold inst
      rw [hinst]
      exact get_map_of_mem _ _ hmem
    rw [hget]
    unfold Inst.afterWarm
    rw [if_neg hi]
    exact ⟨rfl, rfl, rfl, rfl⟩

end Sys2Proof.Machine
end

section
/-!
SUPPORT. Boot (R472–R479): what an image brings, a slot that fails, and the release of the rings.
-/
namespace Sys2Proof.Machine

open Sys2Proof

/-! ### What an image brings (R475, R478) -/

theorem boot_installBundle (k : Nat) (l : List Byte) (s : State) : (installBundle k l s).boot = s.boot := by
  unfold installBundle
  refine foldl_keeps State.boot (fun s l => ?_) _ s
  dsimp only
  split
  · cases h : installAct (actHeader l) none (actCode l (actHeader l)) 0 s with
    | none => rfl
    | some t =>
      obtain ⟨a, m, b, rfl⟩ := installAct_actFrame h
      rfl
  · rfl

theorem boot_bootPatch (l : List Byte) (v : BootVerdicts) (s : State) : (bootPatch l v s).boot = s.boot := by
  unfold bootPatch
  dsimp only
  split
  · rfl
  split
  · rfl
  split
  all_goals rfl

/-- Boot loads, from the slot named. -/
def Loading (k : Nat) (s : State) : Prop := s.boot.stage = stLoading ∧ s.boot.slot = BitVec.ofNat 2 k

theorem Loading.of_boot {k : Nat} {s t : State} (h : Loading k s) (hb : t.boot = s.boot) : Loading k t := by
  unfold Loading
  rw [hb]
  exact h

/-- The firmware of an image in working space (R472 step 5). -/
def firmwareTaken (k : Nat) (l : List Byte) (s : State) : State :=
  { writeBytes (.work 0) (section_ l (bootImage l).firmware) (clearWork s) with
    boot := { s.boot with
      slot := BitVec.ofNat 2 k, imgVersion := BitVec.ofNat 64 (bootImage l).version, stage := stLoading, trying := none } }

/-- A bundle of an image is installed, or its flag of failure is set. -/
def bundleTaken (n : Nat) (p : Nat × Nat) (ok : Bool) (l : List Byte) (fail : Boot → Boot) (s : State) : State :=
  if p.2 = 0 then s else if ok ∧ actRootLocked s n then installBundle n (section_ l p) s else { s with boot := fail s.boot }

theorem bundleTaken_loading {n : Nat} {p : Nat × Nat} {ok : Bool} {l : List Byte} {fail : Boot → Boot} {k : Nat} {s : State}
    (h : Loading k s) (hf : ∀ b, (fail b).stage = b.stage ∧ (fail b).slot = b.slot) : Loading k (bundleTaken n p ok l fail s) := by
  unfold bundleTaken
  split
  · exact h
  split
  · exact h.of_boot (boot_installBundle _ _ _)
  · exact ⟨(hf s.boot).1.trans h.1, (hf s.boot).2.trans h.2⟩

/-- The retained area holds the image's patch and acts (R478). -/
def imageKept (s : State) : State := { s with boot := { s.boot with retained := true } }

theorem imageKept_loading {k : Nat} {s : State} (h : Loading k s) : Loading k (imageKept s) := h

/-- The image's patch and acts in the cores and the store. -/
def imageInstalled (l : List Byte) (v : BootVerdicts) (s : State) : State :=
  imageKept (bundleTaken 1 (bootImage l).integrator v.integratorOk l (fun b => { b with bundleFailI := true })
    (bundleTaken 0 (bootImage l).vendor v.vendorOk l (fun b => { b with bundleFailV := true })
      (bootPatch (section_ l (bootImage l).patch) v { s with acts := { s.acts with acts := [] } })))

theorem imageInstalled_loading {k : Nat} {s : State} (l : List Byte) (v : BootVerdicts) (h : Loading k s) :
    Loading k (imageInstalled l v s) := by
  have hpatched : Loading k (bootPatch (section_ l (bootImage l).patch) v { s with acts := { s.acts with acts := [] } }) :=
    h.of_boot (boot_bootPatch _ _ _)
  exact imageKept_loading (bundleTaken_loading (bundleTaken_loading hpatched (fun _ => ⟨rfl, rfl⟩)) (fun _ => ⟨rfl, rfl⟩))

theorem bootLoad_eq (k : Nat) (l : List Byte) (v : BootVerdicts) (s : State) : bootLoad k l v s =
    if (firmwareTaken k l s).boot.retained then firmwareTaken k l s else imageInstalled l v (firmwareTaken k l s) := rfl

theorem bootLoad_loading (k : Nat) (l : List Byte) (v : BootVerdicts) (s : State) : Loading k (bootLoad k l v s) := by
  have htaken : Loading k (firmwareTaken k l s) := ⟨rfl, rfl⟩
  rw [bootLoad_eq]
  split
  · exact htaken
  · exact imageInstalled_loading l v htaken

/-! ### A slot that fails (R474, R476) -/

theorem slotFailed_boot (k : Nat) (r : Byte) (s : State) : (slotFailed k r s).boot.trying = some k ∧
    (slotFailed k r s).boot.fails = s.boot.fails + 1 ∧ (1 ≤ s.boot.fails → (slotFailed k r s).boot.stage = stRecovery) := by
  unfold slotFailed
  dsimp only
  split
  all_goals exact ⟨rfl, rfl, fun h => if_pos h⟩

/-- The slot that a directory names first, with what the checks say of it (R474). -/
theorem bootSlotCheck_first {s : State} {dir img : List Byte} {v : BootVerdicts} (hl : Live s) (hst : s.boot.stage = stFlash)
    (hm : s.mgmt.held = false) (hd : dirValid dir = true) (ht : s.boot.trying = none) :
    Runs (.bootSlotCheck dir img v) s (if slotResult img (flashSlot dir (firstSlot dir)).length v s = 0
      then bootLoad (firstSlot dir) img v s
      else slotFailed (firstSlot dir) (slotResult img (flashSlot dir (firstSlot dir)).length v s) s) := by
  refine congrArg Host.Outcome.next ((unlessLocked_live hl).trans ((if_neg (by simp [hst, hm])).trans ((if_neg (by simp [hd])).trans ?_)))
  dsimp only
  rw [ht]

/-! ### The release of the rings (R479) -/

theorem recompute_keeps (s : State) : (recompute s).aud = s.aud ∧ (recompute s).tickets = s.tickets := by
  have hrep (ev : Event) (u : State) : (report ev u).aud = u.aud ∧ (report ev u).tickets = u.tickets := by
    obtain ⟨k, q, h⟩ := report_frame ev u
    rw [h]
    exact ⟨rfl, rfl⟩
  unfold recompute
  dsimp only
  split
  · exact hrep _ _
  · exact ⟨rfl, rfl⟩

/-- What a ring's release leaves of the audit chain and the tickets. -/
theorem releaseRing_keeps (r : Nat) (s : State) : (releaseRing r s).aud = s.aud ∧ (releaseRing r s).tickets = s.tickets := by
  have hv := fillStore_memFrame { s with
    mrg := Table.clear s.mrg (8 * r) 8, mrgLast := Table.set 15 s.mrgLast r 15
    cores := s.cores.filter (fun c => !(c.1 / 16 == r && c.1 < 256 && !bit s.ush.coreRet c.1))
    boot := { s.boot with
      ringUp := s.boot.ringUp ||| BitVec.ofNat 16 (2 ^ r), ringHeld := s.boot.ringHeld &&& ~~~ BitVec.ofNat 16 (2 ^ r) } } r
  unfold releaseRing
  dsimp only
  generalize fillStore r _ = v at hv ⊢
  obtain ⟨haud, htick⟩ := recompute_keeps v
  obtain ⟨m, b, rfl⟩ := hv
  exact ⟨haud, htick⟩

theorem releaseRing_boot (r : Nat) (s : State) : (releaseRing r s).boot = { s.boot with
    ringUp := s.boot.ringUp ||| BitVec.ofNat 16 (2 ^ r), ringHeld := s.boot.ringHeld &&& ~~~ BitVec.ofNat 16 (2 ^ r) } :=
  congrArg Plant.boot (plant_releaseRing s r)

theorem openEpoch_boot (s : State) : (openEpoch s).boot.stage = s.boot.stage ∧ (openEpoch s).boot.ringUp = s.boot.ringUp ∧
    (openEpoch s).tickets = s.tickets := by
  unfold openEpoch
  split
  · exact ⟨rfl, rfl, rfl⟩
  split
  all_goals exact ⟨rfl, rfl, rfl⟩

/-- A ring that is up, with boot in its last stage. -/
theorem releaseRing_up {r : Nat} (s : State) (hr : r < 16) : bit (releaseRing r s).boot.ringUp r = true := by
  rw [releaseRing_boot]
  exact bit_or_pow_same _ hr

theorem releaseRing_stays_up (r : Nat) {k : Nat} {s : State} (h : bit s.boot.ringUp k = true) : bit (releaseRing r s).boot.ringUp k = true := by
  rw [releaseRing_boot]
  unfold bit at h ⊢
  simp [BitVec.getLsbD_or, h]

/-- The first release (R479). -/
def firstRelease (s : State) : State :=
  ((List.range (ringCount s)).filter (ringReady s)).foldl (fun s k => releaseRing k s) { s with boot := { s.boot with stage := stRunning } }

theorem firstRelease_keeps (s : State) : (firstRelease s).boot.stage = stRunning ∧ (firstRelease s).aud = s.aud := by
  refine ⟨(foldl_keeps (fun u : State => u.boot.stage) (fun u k => ?_) _ _).trans rfl,
    (foldl_keeps State.aud (fun u k => (releaseRing_keeps k u).1) _ _).trans rfl⟩
  rw [releaseRing_boot]

theorem firstRelease_up {s : State} {k : Nat} (hk : k < ringCount s) (hr : ringReady s k = true) :
    bit (firstRelease s).boot.ringUp k = true := by
  unfold firstRelease
  refine foldl_reaches (P := fun u : State => bit u.boot.ringUp k = true) (List.mem_filter.2 ⟨List.mem_range.2 hk, hr⟩) ?_ ?_ _
  · exact fun u => releaseRing_up u (Nat.lt_of_lt_of_le hk (ringCount_le s))
  · exact fun _ r h => releaseRing_stays_up r h

theorem openEpoch_first {s : State} (h : s.aud.begun = false) : (openEpoch s).aud.isOpen = true ∧ (openEpoch s).aud.epoch = 0 := by
  unfold openEpoch
  rw [if_pos h]
  exact ⟨rfl, rfl⟩

theorem ringRelease_first {s : State} (r : Nat) (hl : Live s) (hst : s.boot.stage = stLoading) :
    Runs (.ringRelease r) s (if (List.range (ringCount s)).filter (ringReady s) = [] then firstRelease s else openEpoch (firstRelease s)) :=
  congrArg Host.Outcome.next ((unlessLocked_live hl).trans (if_pos hst))

theorem ringRelease_later {s : State} {r : Nat} (hl : Live s) (hst : s.boot.stage = stRunning) (hr : ringReady s r = true) :
    Runs (.ringRelease r) s (openEpoch (releaseRing r s)) := by
  refine congrArg Host.Outcome.next ((unlessLocked_live hl).trans ((if_neg ?_).trans (if_pos ⟨hst, hr⟩)))
  rw [hst]
  decide

theorem ringReady_lt {s : State} {r : Nat} (h : ringReady s r = true) : r < ringCount s := by
  unfold ringReady ringPresent at h
  simp only [Bool.and_eq_true, decide_eq_true_eq] at h
  exact h.1.1.1.1

/-- Settles O58: the slots, the load window, and the rings that a release brings up. -/
theorem bootLoadsAndReleasesRings : Obligations.BootLoadsAndReleasesRings := by
  unfold Obligations.BootLoadsAndReleasesRings
  refine ⟨?_, ?_, ?_, ?_, ?_, ?_, ?_, ?_, ?_⟩
  · intro s dir img v hl hst hm
    refine ⟨fun hd => ?_, fun hd ht => ?_⟩
    · exact congrArg Host.Outcome.next ((unlessLocked_live hl).trans ((if_neg (by simp [hst, hm])).trans (if_pos hd)))
    · have hrun := bootSlotCheck_first (img := img) (v := v) hl hst hm hd ht
      exact ⟨fun h => hrun.trans (congrArg Host.Outcome.next (if_pos h)), fun h => hrun.trans (congrArg Host.Outcome.next (if_neg h))⟩
  · intro s k hl hst hm ht
    refine congrArg Host.Outcome.next ((unlessLocked_live hl).trans ((if_neg (by simp [hst, hm])).trans ?_))
    rw [ht]
  · exact fun s k r => slotFailed_boot k r s
  · exact fun s v hw h => congrArg Host.Outcome.next ((hostWrite_writable hw).trans (if_pos h))
  · intro s v hw h
    have hrun := (hostWrite_writable (f := bootCmdLoad v) hw).trans (if_neg (Decidable.not_not.2 h))
    refine ⟨fun hr => ⟨_, congrArg Host.Outcome.next (hrun.trans (if_pos hr)), ?_⟩,
      fun hr => congrArg Host.Outcome.next (hrun.trans (if_neg hr))⟩
    exact bootLoad_loading 2 _ v s
  · intro s r hl hst
    obtain ⟨hstage, haud⟩ := firstRelease_keeps s
    obtain ⟨hstage', hup', -⟩ := openEpoch_boot (firstRelease s)
    have hrun := ringRelease_first r hl hst
    by_cases hn : (List.range (ringCount s)).filter (ringReady s) = []
    · refine ⟨firstRelease s, hrun.trans (congrArg Host.Outcome.next (if_pos hn)), hstage, fun k hk hr => firstRelease_up hk hr,
        fun _ ⟨k, hk, hr⟩ => ?_⟩
      have hmem : k ∈ (List.range (ringCount s)).filter (ringReady s) := List.mem_filter.2 ⟨List.mem_range.2 hk, hr⟩
      exact absurd hmem (by rw [hn]; exact List.not_mem_nil)
    · refine ⟨openEpoch (firstRelease s), hrun.trans (congrArg Host.Outcome.next (if_neg hn)), hstage'.trans hstage,
        fun k hk hr => ?_, fun hb _ => openEpoch_first ((congrArg Audit.begun haud).trans hb)⟩
      rw [hup']
      exact firstRelease_up hk hr
  · intro s r hl hst hr
    obtain ⟨-, hup, htick⟩ := openEpoch_boot (releaseRing r s)
    refine ⟨_, ringRelease_later hl hst hr, ?_, htick.trans (releaseRing_keeps r s).2⟩
    rw [hup]
    exact releaseRing_up s (Nat.lt_of_lt_of_le (ringReady_lt hr) (ringCount_le s))
  · intro s r hw hp hret hup
    refine congrArg Host.Outcome.next ((hostWrite_writable hw).trans ((if_neg ?_).trans (if_pos hup)))
    rintro (h | h)
    · exact Bool.false_ne_true (h.symm.trans hp)
    · exact Bool.false_ne_true (hret.symm.trans h)
  · exact fun s r hw h => congrArg Host.Outcome.next ((hostWrite_writable hw).trans (if_pos h))

end Sys2Proof.Machine
end

section
/-!
SUPPORT. The entry checks of a ticket (R49, R75, R442).
-/
namespace Sys2Proof.Machine

open Sys2Proof

section
variable {s : State} {tid : Nat} {t : Ticket} (hl : Live s) (ht : ticket? s tid = some t) (hp : t.phase = .entering)
  (hd : t.device = false)

/-- The ticket is refused on entry. -/
def entryRefused (tid : Nat) (status : Byte) (hint : Nat) (s : State) : State :=
  finish tid { status := status, hint := hint, refused := true } s

/-- The ticket is admitted to the queue at a cost (R75). -/
def entryQueued (tid : Nat) (t : Ticket) (a : Act) (s : State) : State :=
  deferIfLong tid (setShare t.iid { share s t.iid with backlog := (share s t.iid).backlog + costOf s a }
    (modTicket tid (fun q => { q with phase := .queued, cost := costOf s a, version := a.version }) s))

/-- What the checks after the act is found make of the ticket. -/
def entryChecked (tid : Nat) (t : Ticket) (a : Act) (s : State) : State :=
  if t.handle ≠ 0xFFFFFFFF ∧ handleIid t.handle ≠ t.iid then entryRefused tid 0x41 0 s
  else if t.deadline ≠ 0 ∧ t.deadline ≤ s.rm.nt.toNat then entryRefused tid 0x15 0 s
  else
    match admission s t (costOf s a) with
    | some r => entryRefused tid r.1 r.2 s
    | none => entryQueued tid t a s

include hl ht hp hd

/-- The checks in their order. -/
theorem ticketEntry_runs : Runs (.ticketEntry tid) s (
    if s.fc.snet then entryRefused tid 0x60 0 s
    else if badTicket t then entryRefused tid 0x20 0 s
    else
      match actEnabled s t.iid t.act with
      | none => entryRefused tid 0x20 0 s
      | some a => entryChecked tid t a s) := by
  refine congrArg Host.Outcome.next ((unlessLocked_live hl).trans ?_)
  rw [ht]
  exact if_neg (by simp [hp, hd])

theorem ticketEntry_found {a : Act} (hs : s.fc.snet = false) (hb : badTicket t = false) (ha : actEnabled s t.iid t.act = some a) :
    Runs (.ticketEntry tid) s (entryChecked tid t a s) := by
  refine (ticketEntry_runs hl ht hp hd).trans (congrArg Host.Outcome.next ?_)
  rw [if_neg (by simp [hs]), if_neg (by simp [hb]), ha]

end

/-- Settles O7: the first check that fails decides. -/
theorem entryChecksInTheirOrder : Obligations.EntryChecksInTheirOrder := by
  intro s tid t hl ht hp hd
  have hrun := ticketEntry_runs hl ht hp hd
  refine ⟨fun hs => ?_, fun hs hb => ?_, fun hs hb => ⟨fun ha => ?_, fun a ha => ?_⟩⟩
  · exact hrun.trans (congrArg Host.Outcome.next (if_pos hs))
  · exact hrun.trans (congrArg Host.Outcome.next ((if_neg (by simp [hs])).trans (if_pos hb)))
  · refine hrun.trans (congrArg Host.Outcome.next ((if_neg (by simp [hs])).trans ((if_neg (by simp [hb])).trans ?_)))
    rw [ha]
    rfl
  · have hfound := ticketEntry_found hl ht hp hd hs hb ha
    refine ⟨fun hk hi => ?_, fun hk => ⟨fun hd0 hle => ?_, fun hdl => ?_⟩⟩
    · exact hfound.trans (congrArg Host.Outcome.next (if_pos ⟨hk, hi⟩))
    · refine hfound.trans (congrArg Host.Outcome.next ((if_neg ?_).trans (if_pos ⟨hd0, hle⟩)))
      exact fun h => hk.elim h.1 h.2
    · have hopen : entryChecked tid t a s = match admission s t (costOf s a) with
          | some r => entryRefused tid r.1 r.2 s
          | none => entryQueued tid t a s := by
        refine (if_neg ?_).trans (if_neg ?_)
        · exact fun h => hk.elim h.1 h.2
        · exact fun h => hdl.elim h.1 (Nat.not_lt.2 h.2)
      refine ⟨fun r hr => ?_, fun hr => ?_⟩
      · refine hfound.trans (congrArg Host.Outcome.next (hopen.trans ?_))
        rw [hr]
        rfl
      · refine hfound.trans (congrArg Host.Outcome.next (hopen.trans ?_))
        rw [hr]
        rfl

end Sys2Proof.Machine
end

section
/-!
SUPPORT. Completion entries as they travel (R38, R54, R55), and the end of a ticket that no core runs.
-/
namespace Sys2Proof.Machine

open Sys2Proof

/-! ### Requests in the form in which they travel (R38) -/

theorem maxPayload_pos (s : State) : 128 ≤ maxPayload s ∧ 128 ∣ maxPayload s :=
  ⟨Nat.le_mul_of_pos_right 128 (Nat.two_pow_pos _), Nat.dvd_mul_right _ _⟩

/-- A request that crosses no multiple of the limit travels whole. -/
theorem tlps_whole {m a n : Nat} (hn : 0 < n) (h : a % m + n ≤ m) : tlps m a n = [(0, n)] := by
  have hf : min n (m - a % m) = n := Nat.min_eq_left (by omega)
  have hr : (n - n + m - 1) / m = 0 := Nat.div_eq_of_lt (by omega)
  unfold tlps
  dsimp only
  rw [hf, hr, if_neg (Nat.pos_iff_ne_zero.1 hn)]
  rfl

theorem split_write {s : State} {p : Option (BitVec 20)} {a : W64} {d : List Byte} (hd : d ≠ [])
    (h : a.toNat % maxPayload s + d.length ≤ maxPayload s) : (HostReq.write p a d).split s = [.write p a d] := by
  unfold HostReq.split
  dsimp only
  rw [tlps_whole (List.length_pos_iff.2 hd) h]
  simp

theorem split_byte (s : State) (p : Option (BitVec 20)) (a : W64) (b : Byte) : (HostReq.write p a [b]).split s = [.write p a [b]] :=
  split_write (List.cons_ne_nil _ _) (Nat.mod_lt _ (Nat.lt_of_lt_of_le (by decide) (maxPayload_pos s).1))

theorem emit_leaves {s : State} (r : HostReq) (hl : Live s) (hr : s.pcie.inReset = false) (hd : s.pcie.d3hot = false) :
    emit r s = { s with pcie := { s.pcie with issued := s.pcie.issued ++ r.split s } } :=
  (if_neg (by simpa [Live, hr] using hl)).trans (if_neg (by simp [hd]))

/-! ### A completion entry (R54, R55) -/

theorem entryBytes_length (t : Ticket) (f : Final) (n : W64) : (entryBytes t f n).length = 31 := by
  simp [entryBytes, bytesOf_length]

/-- Where the next entry of the ticket's queue lies. -/
def entryAddr (t : Ticket) (s : State) : W64 := (inst s t.iid).cqBase + BitVec.ofNat 64 (32 * (inst s t.iid).cqTail)

def entryFirst (t : Ticket) (f : Final) (s : State) : HostReq :=
  .write (some (inst s t.iid).pasid) (entryAddr t s) (entryBytes t f s.rm.nt)

/-- The tenant's entry once an entry of its completion queue is written. -/
def Inst.entryWritten (x : Inst) : Inst := { x with cqTail := (x.cqTail + 1) % cqSize x, unreleased := x.unreleased + 1 }

theorem writeEntry_eq {s u : State} {t : Ticket} {f : Final} (hd : u.pcie.d3hot = false) (hi : t.irq = false) (hf : f.receipt = none)
    (hu : emit (.write (some (inst s t.iid).pasid) (entryAddr t s + 31) [0x80]) (emit (entryFirst t f s) s) = u) :
    writeEntry t f false s = setInst t.iid (inst s t.iid).entryWritten u := by
  subst hu
  have hd' : ∀ v, (setInst t.iid v (emit (.write (some (inst s t.iid).pasid) (entryAddr t s + 31) [0x80])
    (emit (entryFirst t f s) s))).pcie.d3hot = false := fun _ => hd
  refine (if_neg (by simp [hi])).trans ((if_neg (by simp [hf])).trans (if_neg ?_))
  rw [Bool.and_eq_true]
  exact fun h => Bool.noConfusion (h.1.symm.trans (hd' _))

/-- A final entry without receipt and interrupt is its two writes. -/
theorem writeEntry_leaves {s : State} (t : Ticket) (f : Final) (hl : Live s) (hr : s.pcie.inReset = false) (hd : s.pcie.d3hot = false)
    (hi : t.irq = false) (hf : f.receipt = none) : writeEntry t f false s = setInst t.iid (inst s t.iid).entryWritten { s with
      pcie := { s.pcie with issued := s.pcie.issued ++ (entryFirst t f s).split s ++
        [.write (some (inst s t.iid).pasid) (entryAddr t s + 31) [0x80]] } } := by
  refine writeEntry_eq (hd := by exact hd) hi hf ?_
  rw [emit_leaves (entryFirst t f s) hl hr hd]
  exact (emit_leaves (s := { s with pcie := { s.pcie with issued := s.pcie.issued ++ (entryFirst t f s).split s } }) _ hl hr hd).trans
    (by rw [split_byte])

/-- An entry at a multiple of 32 travels whole. -/
theorem entryFirst_whole {s : State} {t : Ticket} (f : Final) (h : (inst s t.iid).cqBase.toNat % 32 = 0) :
    (entryFirst t f s).split s = [entryFirst t f s] := by
  obtain ⟨hmin, k, hk⟩ := maxPayload_pos s
  have ha : (entryAddr t s).toNat % 32 = 0 := by
    unfold entryAddr
    rw [BitVec.toNat_add, BitVec.toNat_ofNat]
    omega
  refine split_write (List.ne_nil_of_length_pos (by rw [entryBytes_length]; decide)) ?_
  have hmod : (entryAddr t s).toNat % maxPayload s % 32 = 0 := by
    rw [hk, Nat.mod_mod_of_dvd _ (Nat.dvd_mul_right_of_dvd (by decide) k)]
    exact ha
  have hlt := Nat.mod_lt (entryAddr t s).toNat (Nat.lt_of_lt_of_le (by decide) hmin : 0 < maxPayload s)
  rw [entryBytes_length]
  omega

end Sys2Proof.Machine
end

section
/-!
SUPPORT. Entitlements, a ticket that expires, and the boundary of a share epoch (R73, R74, R79–R82).
-/
namespace Sys2Proof.Machine

open Sys2Proof

/-! ### Entitlements (R73, R74) -/

/-- A table filled from a function has the function's values at the places filled. -/
theorem get_filterMap {α : Type} [DecidableEq α] (d : α) (f : Nat → α) (l : List Nat) (k : Nat) :
    Table.get d (l.filterMap (fun i => if f i = d then none else some (i, f i))) k = if k ∈ l then f k else d := by
  induction l with
  | nil => rfl
  | cons i l ih =>
    by_cases hd : f i = d
    · rw [List.filterMap_cons_none (by simp [hd]), ih]
      by_cases hk : k = i
      · subst hk
        simp [hd]
      · simp [hk]
    · rw [List.filterMap_cons_some (b := (i, f i)) (by simp [hd]), Table.get, ih]
      by_cases hk : i = k
      · subst hk
        simp
      · simp [hk, Ne.symm hk]

/-- The instances with work, as R73 counts them for an entitlement. -/
def backloggedSet (s : State) : List Nat := (s.inst.map (fun e => e.1)).filter (backlogged s)

/-- What tenant i is entitled to now (R74). -/
def entitled (s : State) (i : Nat) : Rat :=
  let b := backloggedSet s
  let m := if b.contains i then (b.map (minOf s)).sum else (b.map (minOf s)).sum + minOf s i
  let w := if b.contains i then (b.map (fun j => (inst s j).weightEff.toNat)).sum
    else (b.map (fun j => (inst s j).weightEff.toNat)).sum + (inst s i).weightEff.toNat
  (minOf s i : Rat) + ((usableCores s - m : Nat) : Rat) * ((inst s i).weightEff.toNat : Rat) / (w : Rat)

def shareAnew (s : State) (i : Nat) : Share := { share s i with ent := entitled s i, minEff := minOf s i }

/-- The shares as a recomputation leaves them, before its notice. -/
def sharesAnew (s : State) : State :=
  { s with ush := { s.ush with
      share := (List.range (iidCount s)).filterMap (fun i => if shareAnew s i = {} then none else some (i, shareAnew s i))
      minOvercommit := decide (usableCores s < minSum s) } }

theorem recompute_eq (s : State) : recompute s =
    if decide (usableCores s < minSum s) = true ∧ s.ush.minOvercommit = false then
      stateNotice 0x14 0 ushStatusReg (BitVec.ofNat 64 (ushStatus (sharesAnew s))) (sharesAnew s)
    else sharesAnew s := rfl

theorem recompute_reports (s : State) : ∃ k q, recompute s = { sharesAnew s with time := k, fcq := q } := by
  rw [recompute_eq]
  split
  · exact report_frame _ _
  · exact ⟨_, _, rfl⟩

theorem share_sharesAnew {s : State} {i : Nat} (hi : i < iidCount s) : share (sharesAnew s) i = shareAnew s i :=
  (get_filterMap ({} : Share) (shareAnew s) _ i).trans (if_pos (List.mem_range.2 hi))

/-- A recomputation gives each tenant its new share. -/
theorem share_recompute {s : State} {i : Nat} (hi : i < iidCount s) : share (recompute s) i = shareAnew s i := by
  obtain ⟨k, q, h⟩ := recompute_reports s
  rw [h]
  exact share_sharesAnew hi

/-- R74, with the sums over the tenants with work and i. -/
theorem entitled_eq (s : State) (i : Nat) : entitled s i =
    (minOf s i : Rat) + ((usableCores s - (((backloggedSet s).map (minOf s)).sum + if i ∈ backloggedSet s then 0 else minOf s i) : Nat)
      : Rat) * ((inst s i).weightEff.toNat : Rat) /
      ((((backloggedSet s).map (fun j => (inst s j).weightEff.toNat)).sum
        + if i ∈ backloggedSet s then 0 else (inst s i).weightEff.toNat : Nat) : Rat) := by
  unfold entitled
  by_cases hi : i ∈ backloggedSet s <;> simp [hi]

/-! ### A ticket that expires in the buffer (R81) -/

/-- The ticket's slot is given back and it is gone. -/
def slotFreed (t : Ticket) (s : State) : State :=
  let v := dropKeyChanges t.id (dropTicket t.id s)
  setInst t.iid { inst v t.iid with reserved := (inst v t.iid).reserved - 1 } v

/-- Then its entry is written and its outcome counted. -/
def entryPassed (t : Ticket) (s : State) : State :=
  bump (0x201000 + 0x10 * t.iid + 12) 0 16 (writeEntry t { status := 0x15 } false (slotFreed t s))

theorem finish_passed {s : State} {t : Ticket} (ht : ticket? s t.id = some t) (hc : t.core? = none) (ho : t.origin = .queue)
    (hd : t.device = false) (ha : t.aborting = false) :
    finish t.id { status := 0x15 } s = sweepActs (checkFinal (checkDrained t.iid (entryPassed t s))) := by
  have hcount (v : State) : countRefusal t.iid 0x15 v = bump (0x201000 + 0x10 * t.iid + 12) 0 16 v := rfl
  have hcounted (v : State) : (if (false = true ∨ (0x15 : Byte) = stPassed) then countRefusal t.iid 0x15 v else v) =
    bump (0x201000 + 0x10 * t.iid + 12) 0 16 v := (if_pos (Or.inr rfl)).trans (hcount v)
  have hmark (v : State) : (if t.aborting = true ∧ (0x15 : Byte) = stAborted then
    setPage t.iid { page v t.iid with abortAny := true } v else v) = v := if_neg (by simp [ha])
  unfold finish
  rw [ht]
  dsimp only
  rw [hc, ho, hd]
  dsimp only
  rw [if_neg Bool.false_ne_true, hcounted, hmark]
  rfl

/-- The ticket's backlog and its slot are given back. -/
def givenBack (t : Ticket) (s : State) : State :=
  slotFreed t (setShare t.iid { share s t.iid with backlog := max 0 ((share s t.iid).backlog - t.cost) } s)

/-- The end of an expired ticket. -/
def expired (t : Ticket) (s : State) : State :=
  bump (0x201000 + 0x10 * t.iid + 12) 0 16 (writeEntry t { status := 0x15 } false (givenBack t s))

theorem finishQueued_expired {s : State} {t : Ticket} (ht : ticket? s t.id = some t) (ho : t.origin = .queue) (hp : t.phase = .queued)
    (hd : t.device = false) (ha : t.aborting = false) (hst : (inst (expired t s) t.iid).st = .active)
    (hsn : (expired t s).fc.snet = false) : finishQueued t.id { status := 0x15 } s = sweepActs (expired t s) := by
  have hdrain : checkDrained t.iid (expired t s) = expired t s := if_neg (by simp [hst])
  have hfinal : checkFinal (expired t s) = expired t s := if_neg (by simp [hsn])
  unfold finishQueued
  rw [ht]
  dsimp only
  rw [if_pos ⟨hp, hd⟩]
  refine (finish_passed (s := setShare _ _ s) ht (by simp [Ticket.core?, hp]) ho hd ha).trans ?_
  exact (congrArg sweepActs ((congrArg checkFinal hdrain).trans hfinal) :)

section
variable (t : Ticket) (s : State)

theorem inst_slotFreed : inst (slotFreed t s) t.iid = { inst s t.iid with reserved := (inst s t.iid).reserved - 1 } := by
  have h : inst (dropKeyChanges t.id (dropTicket t.id s)) t.iid = inst s t.iid := rfl
  rw [slotFreed, inst_setInst, h]

theorem inst_givenBack : inst (givenBack t s) t.iid = { inst s t.iid with reserved := (inst s t.iid).reserved - 1 } := by
  rw [givenBack, inst_slotFreed, inst_setShare]

theorem givenBack_frame : ∃ i k, givenBack t s = { setShare t.iid
    { share s t.iid with backlog := max 0 ((share s t.iid).backlog - t.cost) } s with
      tickets := (dropTicket t.id s).tickets, inst := i, ks := k } := by
  unfold givenBack slotFreed dropKeyChanges dropTicket setInst
  exact ⟨_, _, rfl⟩

theorem ticket_givenBack : ticket? (givenBack t s) t.id = none := by
  obtain ⟨i, k, h⟩ := givenBack_frame t s
  rw [h]
  exact ticket?_dropTicket_same s t.id

theorem share_givenBack : share (givenBack t s) t.iid = { share s t.iid with backlog := max 0 ((share s t.iid).backlog - t.cost) } := by
  obtain ⟨i, k, h⟩ := givenBack_frame t s
  rw [h]
  exact share_setShare s t.iid _

theorem givenBack_other {j : Nat} (hj : j ≠ t.iid) : inst (givenBack t s) j = inst s j ∧ share (givenBack t s) j = share s j := by
  constructor
  · rw [givenBack, slotFreed, inst_setInst_other _ _ _ _ hj]
    rfl
  · obtain ⟨i, k, h⟩ := givenBack_frame t s
    rw [h]
    exact share_setShare_other s _ _ _ hj

theorem givenBack_rest : (givenBack t s).cores = s.cores ∧ (givenBack t s).fc = s.fc ∧ (givenBack t s).pcie = s.pcie ∧
    (givenBack t s).rm = s.rm := by
  obtain ⟨i, k, h⟩ := givenBack_frame t s
  rw [h]
  exact ⟨rfl, rfl, rfl, rfl⟩

end

theorem expired_leaves {s : State} {t : Ticket} (hl : Live s) (hr : s.pcie.inReset = false) (hd : s.pcie.d3hot = false)
    (hi : t.irq = false) : expired t s = bump (0x201000 + 0x10 * t.iid + 12) 0 16
      (setInst t.iid (inst (givenBack t s) t.iid).entryWritten { givenBack t s with
        pcie := { s.pcie with issued := s.pcie.issued ++ (entryFirst t { status := 0x15 } s).split s ++
          [.write (some (inst s t.iid).pasid) (entryAddr t s + 31) [0x80]] } }) := by
  obtain ⟨-, hfc, hpcie, hrm⟩ := givenBack_rest t s
  have haddr : entryAddr t (givenBack t s) = entryAddr t s := by rw [entryAddr, inst_givenBack, entryAddr]
  have hfirst : entryFirst t { status := 0x15 } (givenBack t s) = entryFirst t { status := 0x15 } s := by
    rw [entryFirst, inst_givenBack, haddr, hrm, entryFirst]
  have hpasid : (inst (givenBack t s) t.iid).pasid = (inst s t.iid).pasid := by rw [inst_givenBack]
  have hsplit : (entryFirst t { status := 0x15 } s).split (givenBack t s) = (entryFirst t { status := 0x15 } s).split s := by
    unfold HostReq.split maxPayload maxRead
    rw [hpcie]
  have hw := writeEntry_leaves (s := givenBack t s) t { status := 0x15 } (by rw [Live, hfc]; exact hl) (by rw [hpcie]; exact hr)
    (by rw [hpcie]; exact hd) hi rfl
  rw [hfirst, haddr, hpcie, hpasid, hsplit] at hw
  rw [expired, hw]

/-- What is left of an expired ticket of a queue. -/
theorem expired_parts {s : State} {t : Ticket} (hl : Live s) (hr : s.pcie.inReset = false) (hd : s.pcie.d3hot = false)
    (hi : t.irq = false) :
    ticket? (expired t s) t.id = none ∧
    (expired t s).pcie.issued = s.pcie.issued ++ (entryFirst t { status := 0x15 } s).split s ++
      [.write (some (inst s t.iid).pasid) (entryAddr t s + 31) [0x80]] ∧
    inst (expired t s) t.iid = ({ inst s t.iid with reserved := (inst s t.iid).reserved - 1 } : Inst).entryWritten ∧
    (share (expired t s) t.iid).backlog = max 0 ((share s t.iid).backlog - t.cost) ∧
    (∀ j, j ≠ t.iid → inst (expired t s) j = inst s j ∧ share (expired t s) j = share s j) ∧
    (expired t s).cores = s.cores ∧ (expired t s).fc = s.fc := by
  have hgone := ticket_givenBack t s
  have hinst := inst_givenBack t s
  have hshare := share_givenBack t s
  have hother := fun j (hj : j ≠ t.iid) => givenBack_other t s hj
  obtain ⟨hcores, hfc, -, -⟩ := givenBack_rest t s
  rw [expired_leaves hl hr hd hi]
  generalize givenBack t s = v at hgone hinst hshare hother hcores hfc ⊢
  refine ⟨hgone, rfl, ?_, ?_, fun j hj => ⟨?_, ?_⟩, hcores, hfc⟩
  · rw [inst_bump, inst_setInst, hinst]
  · exact (congrArg Share.backlog hshare :)
  · rw [inst_bump, inst_setInst_other _ _ _ _ hj]
    exact (hother j hj).1
  · exact (hother j hj).2

/-! ### The boundary of a share epoch (R79, R80, R82) -/

/-- What a boundary puts into effect for a tenant. -/
structure Terms where
  weight : Half
  minCores : BitVec 9
  ceiling : BitVec 13
  pending : Bool

def Inst.terms (x : Inst) : Terms := ⟨x.weightEff, x.minCoresEff, x.ceilingEff, x.sharePend⟩

/-- What a boundary puts into effect, of tenants and Usher. -/
def settled (s : State) : (Nat → Terms) × Option W64 × Half × Half × BitVec 6 :=
  (fun i => (inst s i).terms, s.ush.epochAt, s.ush.epochCount, s.ush.horizonEff, s.ush.cacheEff)

section
variable (s : State)

theorem settled_of_besideNet {s t : State} (h : besideNet s = besideNet t) : settled s = settled t := (congrArg settled h :)

theorem settled_setInst (i : Nat) {x : Inst} (h : x.terms = (inst s i).terms) : settled (setInst i x s) = settled s := by
  have hterms : (fun j => (inst (setInst i x s) j).terms) = fun j => (inst s j).terms := by
    funext j
    by_cases hj : j = i
    · rw [hj, inst_setInst, h]
    · rw [inst_setInst_other _ _ _ _ hj]
  unfold settled
  rw [hterms]
  rfl

theorem settled_recompute : settled (recompute s) = settled s := by
  obtain ⟨k, q, h⟩ := recompute_reports s
  rw [h]
  rfl

theorem settled_evictFor (r extra n : Nat) : settled (evictFor r extra n s) = settled s := by
  induction n generalizing s with
  | zero => rfl
  | succ n ih =>
    unfold evictFor
    split
    · rfl
    · split
      · rfl
      · refine (ih _).trans ?_
        obtain ⟨m, b, h⟩ := unwrite_memFrame (.ring _ _) _ { s with ush := { s.ush with copies := _ } }
        rw [dropCopy, h]
        rfl

theorem emit_frame (r : HostReq) : ∃ p, emit r s = { s with pcie := p } := by
  unfold emit
  repeat' split
  all_goals exact ⟨_, rfl⟩

theorem settled_emit (r : HostReq) : settled (emit r s) = settled s := by
  obtain ⟨p, h⟩ := emit_frame s r
  rw [h]
  rfl

theorem inst_emit (r : HostReq) (i : Nat) : inst (emit r s) i = inst s i := by
  obtain ⟨p, h⟩ := emit_frame s r
  rw [h]
  rfl

theorem settled_msix (v : Nat) : settled (msix v s) = settled s := by
  obtain ⟨p, h⟩ := msix_frame v s
  rw [h]
  rfl

theorem settled_writeEntry (t : Ticket) (f : Final) (interim : Bool) : settled (writeEntry t f interim s) = settled s := by
  unfold writeEntry
  extract_lets x addr s₁ s₂ s₃ pcie s₄ s₅
  have h₂ : settled s₂ = settled s := (settled_emit _ _).trans (settled_emit _ _)
  have hinst : inst s₂ t.iid = x := (inst_emit _ _ _).trans (inst_emit _ _ _)
  have h₃ : settled s₃ = settled s := (settled_setInst _ _ (by rw [hinst]; rfl)).trans h₂
  have h₄ : settled s₄ = settled s := by
    unfold s₄
    split
    all_goals exact h₃
  have h₅ : settled s₅ = settled s := by
    unfold s₅
    split
    all_goals exact h₄
  split
  · exact (settled_msix _ _).trans h₅
  · exact h₅

theorem settled_deferEntry (t : Ticket) (hint : Nat) : settled (deferEntry t hint s) = settled s := by
  unfold deferEntry
  dsimp only
  split
  · rfl
  split
  · refine (settled_of_besideNet (besideNet_sessionSend _ _ _ _ _ _)).trans ?_
    rfl
  · split
    · rfl
    · exact settled_writeEntry _ _ _ _

theorem settled_deferIfLong (tid : Nat) : settled (deferIfLong tid s) = settled s := by
  unfold deferIfLong
  split
  · rfl
  · dsimp only
    split
    · exact settled_deferEntry _ _ _
    · rfl

end

/-- Pending values in effect and the count advanced, before entitlements, caches and DEFERRED entries follow. -/
def termsTaken (s : State) : State :=
  { s with
    inst := s.inst.map (fun e => (e.1, if e.2.sharePend ∧ e.2.st ≠ .free then e.2.takeShare else e.2))
    ush := { s.ush with
      epochCount := s.ush.epochCount + 1, horizonEff := s.ush.horizon, cacheEff := s.ush.cache }
    tickets := s.tickets.map (fun (t : Ticket) => { t with deferred := false }) }

theorem settled_shareBoundary (s : State) : settled (shareBoundary s) = settled (termsTaken s) := by
  have h : shareBoundary s = ((((List.range (ringCount (recompute (termsTaken s)))).foldl
      (fun s r => evictOver r s.ush.copies.length s) (recompute (termsTaken s))).tickets.map (fun t => t.id)).foldl
    (fun s tid => deferIfLong tid s) ((List.range (ringCount (recompute (termsTaken s)))).foldl
      (fun s r => evictOver r s.ush.copies.length s) (recompute (termsTaken s)))) := rfl
  rw [h]
  exact (foldl_keeps settled (fun s tid => settled_deferIfLong s tid) _ _).trans
    ((foldl_keeps settled (fun s r => settled_evictFor s r 0 _) _ _).trans (settled_recompute _))

/-- A function that keeps the default may be applied to all values of a table. -/
theorem get_map_default {α : Type} (d : α) {f : α → α} (hf : f d = d) (l : Table α) (k : Nat) :
    Table.get d (l.map (fun e => (e.1, f e.2))) k = f (Table.get d l k) := by
  induction l with
  | nil => exact hf.symm
  | cons e l ih =>
    obtain ⟨a, v⟩ := e
    by_cases ha : a = k
    · simp [Table.get, ha]
    · simpa [Table.get, ha] using ih

theorem inst_termsTaken (s : State) (i : Nat) :
    inst (termsTaken s) i = if (inst s i).sharePend = true ∧ (inst s i).st ≠ .free then (inst s i).takeShare else inst s i :=
  get_map_default ({} : Inst) (f := fun v => if v.sharePend = true ∧ v.st ≠ .free then v.takeShare else v) (if_neg (by simp)) s.inst i

/-- The boundary that comes at its time. -/
theorem shareEpochBoundary_runs {s : State} {a : W64} (hl : Live s) (ha : s.ush.epochAt = some a) (h : a.toNat ≤ s.rm.nt.toNat) :
    Runs .shareEpochBoundary s (shareBoundary { s with ush := { s.ush with epochAt := none } }) := by
  refine congrArg Host.Outcome.next ((unlessLocked_live hl).trans ?_)
  dsimp only
  rw [ha]
  exact if_neg (Nat.not_lt.2 h)

/-- Settles O10: a recomputation by the table it writes, an expired ticket by what its end writes, a boundary by what its later steps
leave of what it put into effect. -/
theorem entitlementsAndShareEpochs : Obligations.EntitlementsAndShareEpochs := by
  unfold Obligations.EntitlementsAndShareEpochs
  refine ⟨⟨?_, ?_⟩, ?_, ?_, fun s hw => congrArg Host.Outcome.next (hostWrite_writable hw), ?_, ?_, ?_⟩
  · intro s hl
    obtain ⟨k, q, h⟩ := recompute_reports s
    refine ⟨recompute s, congrArg Host.Outcome.next (unlessLocked_live hl), by rw [h]; rfl, fun i hi => ?_, by rw [h]; rfl,
      by rw [h]; rfl, by rw [h]; rfl, by rw [h]; rfl, by rw [h]; rfl⟩
    dsimp only
    rw [share_recompute hi]
    exact ⟨rfl, entitled_eq s i, rfl, rfl, rfl, rfl⟩
  · intro s h
    rw [recompute_eq, if_neg ?_]
    · rfl
    · rintro ⟨hmany, hwas⟩
      rcases h with h | h
      · rw [hwas] at h
        exact Bool.noConfusion h
      · exact absurd (of_decide_eq_true hmany) (Nat.not_lt.2 h)
  · intro s tid t hl ht hp hd
    refine ⟨fun hn => ?_, fun hn => ?_⟩
    all_goals
      refine congrArg Host.Outcome.next ((unlessLocked_live hl).trans ?_)
      rw [ht]
    · exact if_pos ⟨hp, hd, hn⟩
    · exact if_neg fun h => absurd h.2.2 (Nat.not_le.2 hn)
  · intro s tid t hl ht ho hp hdev hab hd hn hr hd3 hsn hirq hst
    have hid : tid = t.id := (ticket?_id ht).symm
    subst hid
    obtain ⟨hgone, hissued, hinst, hback, hother, hcores, hfc⟩ := expired_parts (t := t) hl hr hd3 hirq
    have hends := finishQueued_expired ht ho hp hdev hab (by rw [hinst]; exact hst) (by rw [hfc]; exact hsn)
    obtain ⟨a, m, b, hsweep⟩ := sweepActs_actFrame (expired t s)
    have hrun : Runs (.deadlineExpiry t.id) s (finishQueued t.id { status := 0x15 } s) := by
      refine congrArg Host.Outcome.next ((unlessLocked_live hl).trans ?_)
      rw [ht]
      exact if_pos ⟨hp, hd, hn⟩
    rw [hends, hsweep] at hrun
    generalize expired t s = u at hrun hgone hissued hinst hback hother hcores
    exact ⟨_, hrun, hgone, hissued, congrArg Inst.cqTail hinst, congrArg Inst.reserved hinst, congrArg Inst.unreleased hinst, hback,
      hother, hcores⟩
  · intro s a hl ha hn
    refine congrArg Host.Outcome.next ((unlessLocked_live hl).trans ?_)
    dsimp only
    rw [ha]
    exact if_pos hn
  · intro s hl ha
    refine congrArg Host.Outcome.next ((unlessLocked_live hl).trans ?_)
    dsimp only
    rw [ha]
  · intro s a hl ha hn
    have hset := settled_shareBoundary { s with ush := { s.ush with epochAt := none } }
    have hterms (i : Nat) : (inst (shareBoundary { s with ush := { s.ush with epochAt := none } }) i).terms =
        (if (inst s i).sharePend = true ∧ (inst s i).st ≠ .free then (inst s i).takeShare else inst s i).terms :=
      (congrFun (congrArg Prod.fst hset) i).trans (congrArg Inst.terms (inst_termsTaken _ i))
    have hush := congrArg Prod.snd hset
    generalize hu : shareBoundary { s with ush := { s.ush with epochAt := none } } = u at hterms hush
    refine ⟨u, hu ▸ shareEpochBoundary_runs hl ha hn, congrArg (·.1) hush, congrArg (·.2.1) hush, congrArg (·.2.2.1) hush,
      congrArg (·.2.2.2) hush, fun i hst hp => ?_, fun i hp => ?_⟩
    · have h := hterms i
      rw [if_pos ⟨hp, hst⟩] at h
      exact ⟨congrArg Terms.weight h, congrArg Terms.minCores h, congrArg Terms.ceiling h, congrArg Terms.pending h⟩
    · have h := hterms i
      rw [if_neg (by simp [hp])] at h
      exact ⟨congrArg Terms.weight h, congrArg Terms.minCores h, congrArg Terms.ceiling h⟩

end Sys2Proof.Machine
end

section
/-!
SUPPORT. What a final entry leaves of tickets, cores and keys, and the requests that wait for D0 (R41, R55, R98, R296, R373).
-/
namespace Sys2Proof.Machine

open Sys2Proof

/-! ### What audit, notices and requests to the host leave alone -/

/-- The state but for the audit chain, the notices and counters, and the link to the host. -/
def besideAudit (s : State) : State := { s with aud := {}, time := {}, fcq := {}, pcie := {} }

section
variable (s : State)

theorem besideAudit_report (ev : Event) : besideAudit (report ev s) = besideAudit s := by
  obtain ⟨k, q, h⟩ := report_frame ev s
  rw [h]
  rfl

theorem besideAudit_renumber (c : NowCommit) (e : W64) (k : Nat) : besideAudit (renumber c e k s) = besideAudit s := by
  unfold renumber
  dsimp only
  split
  all_goals rfl

theorem besideAudit_takeBoundary : besideAudit (takeBoundary s) = besideAudit s := by
  have hmoved (l : List NowCommit) (e : W64) (f : NowCommit → Nat) :
      besideAudit (l.foldl (fun s c => renumber c e (f c) s) s) = besideAudit s :=
    foldl_keeps besideAudit (fun s c => besideAudit_renumber s c e (f c)) l s
  unfold takeBoundary
  dsimp only
  split
  · exact hmoved _ _ _
  · refine (foldl_keeps besideAudit ?_ _ _).trans (hmoved _ _ _)
    exact fun _ _ => rfl

theorem besideAudit_tryBoundary : besideAudit (tryBoundary s) = besideAudit s := by
  unfold tryBoundary
  dsimp only
  split
  · rfl
  split
  · split
    · rfl
    · exact besideAudit_report _ _
  · exact besideAudit_takeBoundary s

theorem besideAudit_boundaryNow : besideAudit (boundaryNow s) = besideAudit s := by
  unfold boundaryNow
  split
  · exact besideAudit_tryBoundary s
  · rfl

theorem besideAudit_causeFinal : besideAudit (causeFinal s) = besideAudit s := by
  unfold causeFinal
  split
  · exact besideAudit_boundaryNow _
  · rfl

theorem besideAudit_causeEarly (k : Nat) : besideAudit (causeEarly k s) = besideAudit s := by
  unfold causeEarly
  split
  · exact besideAudit_boundaryNow _
  · rfl

theorem besideAudit_assignIndex (i c tid : Nat) : besideAudit (assignIndex i c tid s).2 = besideAudit s := by
  unfold assignIndex
  exact foldl_keeps besideAudit (fun s d => besideAudit_renumber s d _ _) _ s

theorem besideAudit_checkFinal : besideAudit (checkFinal s) = besideAudit s := by
  unfold checkFinal
  split
  · exact besideAudit_causeFinal s
  · rfl

end

/-! ### Tickets, cores and key entries at a ticket's end -/

/-- Tickets, cores and key entries. -/
structure Seats where
  tickets : List Ticket
  cores : Table Core
  entries : Table KeyEntry

def seats (s : State) : Seats := ⟨s.tickets, s.cores, s.ks.entries⟩

section
variable (s : State)

theorem seats_of_besideAudit {s t : State} (h : besideAudit s = besideAudit t) : seats s = seats t := (congrArg seats h :)

theorem seats_emit (r : HostReq) : seats (emit r s) = seats s := by
  obtain ⟨p, h⟩ := emit_frame s r
  rw [h]
  rfl

theorem seats_msix (v : Nat) : seats (msix v s) = seats s := by
  obtain ⟨p, h⟩ := msix_frame v s
  rw [h]
  rfl

theorem seats_writeEntry (t : Ticket) (f : Final) (interim : Bool) : seats (writeEntry t f interim s) = seats s := by
  unfold writeEntry
  extract_lets x addr s₁ s₂ s₃ pcie s₄ s₅
  have h₂ : seats s₂ = seats s := (seats_emit _ _).trans (seats_emit _ _)
  have h₄ : seats s₄ = seats s := by
    unfold s₄
    split
    all_goals exact h₂
  have h₅ : seats s₅ = seats s := by
    unfold s₅
    split
    all_goals exact h₄
  split
  · exact (seats_msix _ _).trans h₅
  · exact h₅

theorem seats_countRefusal (i : Nat) (status : Byte) : seats (countRefusal i status s) = seats s := by
  unfold countRefusal
  dsimp only
  repeat' split
  all_goals rfl

theorem seats_checkDrained (i : Nat) : seats (checkDrained i s) = seats s := by
  unfold checkDrained
  dsimp only
  split
  · exact seats_msix _ _
  · rfl

theorem seats_sweepActs : seats (sweepActs s) = seats s := by
  obtain ⟨a, m, b, h⟩ := sweepActs_actFrame s
  rw [h]
  rfl

theorem seats_evictFor (r extra n : Nat) : seats (evictFor r extra n s) = seats s := by
  induction n generalizing s with
  | zero => rfl
  | succ n ih =>
    unfold evictFor
    split
    · rfl
    · split
      · rfl
      · refine (ih _).trans ?_
        obtain ⟨m, b, h⟩ := unwrite_memFrame (.ring _ _) _ { s with ush := { s.ush with copies := _ } }
        rw [dropCopy, h]
        rfl

theorem seats_releaseUses (t : Ticket) : seats (releaseUses t s) = seats s := by
  unfold releaseUses
  refine foldl_keeps seats ?_ _ s
  intro s u
  exact seats_evictFor _ _ _ _

theorem seats_dropHeld (i c : Nat) : seats (dropHeld i c s) = seats s := by
  unfold dropHeld
  dsimp only
  split
  all_goals rfl

theorem seats_setCore {u v : State} (c : Nat) (z : Core) (h : seats u = seats v) :
    seats (setCore c z u) = seats (setCore c z v) := by
  have ht : u.tickets = v.tickets := congrArg Seats.tickets h
  have hc : u.cores = v.cores := congrArg Seats.cores h
  have he : u.ks.entries = v.ks.entries := congrArg Seats.entries h
  simp only [seats, setCore, ht, hc, he]

/-- Nothing but core c's own record changes of the cores, tickets and entries as it is cleared. -/
theorem seats_clearCore (c : Nat) : seats (clearCore c s) =
    seats (setCore c { run := if (core s c).run = .inReset then .inReset else .idle } s) := by
  unfold clearCore
  extract_lets x y r s₁ s₂ s₃ s₄ s₅ s₆
  have h₁ : seats s₁ = seats s := by
    refine foldl_keeps seats ?_ _ s
    exact fun _ _ => rfl
  have h₂ : seats s₂ = seats s₁ := by
    refine foldl_keeps seats ?_ _ s₁
    exact fun _ _ => rfl
  have hun (v : State) (p : Place) (n : Nat) : seats (unwrite p n v) = seats v := by
    obtain ⟨m, b, h⟩ := unwrite_memFrame p n v
    rw [h]
    rfl
  clear_value s₂
  have h₃ : seats s₃ = seats s₂ := rfl
  have h₄ : seats s₄ = seats s₃ := by
    unfold s₄
    clear_value s₃
    rw [hun, hun]
  have h₅ : seats s₅ = seats s₄ := foldl_keeps seats (fun s g => hun s _ _) _ s₄
  have h₆ : seats s₆ = seats s := h₅.trans (h₄.trans (h₃.trans (h₂.trans h₁)))
  clear_value s₆
  exact seats_setCore c _ h₆

theorem seats_dropped {u v : State} (tid : Nat) (h : seats u = seats v) :
    seats (dropKeyChanges tid (dropTicket tid u)) = seats (dropKeyChanges tid (dropTicket tid v)) := by
  have ht : u.tickets = v.tickets := congrArg Seats.tickets h
  have hc : u.cores = v.cores := congrArg Seats.cores h
  have he : u.ks.entries = v.ks.entries := congrArg Seats.entries h
  simp only [seats, dropKeyChanges, dropTicket, ht, hc, he]

/-- At a final entry the ticket and its reservations are gone, and its core is cleared. -/
theorem seats_finish {t : Ticket} {c : Nat} (f : Final) (ht : ticket? s t.id = some t) (hc : t.core? = some c) (ho : t.origin = .queue)
    (hd : t.device = false) : seats (finish t.id f s) =
      seats (dropKeyChanges t.id (dropTicket t.id (setCore c { run := if (core s c).run = .inReset then .inReset else .idle } s))) := by
  unfold finish
  split
  next h => exact absurd (h.symm.trans ht) (by simp)
  next t' h =>
  obtain rfl : t = t' := Option.some.inj (ht.symm.trans h)
  extract_lets s₁ s₂ x s₃ s₄ y s₅
  have h₁ : seats s₁ = seats (setCore c { run := if (core s c).run = .inReset then .inReset else .idle } s) := by
    unfold s₁
    rw [hc]
    exact (seats_releaseUses _ _).trans ((seats_dropHeld _ _ _).trans (seats_clearCore s c))
  have h₂ : seats s₂ = seats (dropKeyChanges t.id (dropTicket t.id
      (setCore c { run := if (core s c).run = .inReset then .inReset else .idle } s))) := seats_dropped t.id h₁
  have h₃ : seats s₃ = seats s₂ := by
    unfold s₃
    rw [ho]
    exact seats_writeEntry _ _ _ _
  have h₄ : seats s₄ = seats s₃ := by
    unfold s₄
    split
    · exact seats_countRefusal _ _ _
    · rfl
  have h₅ : seats s₅ = seats s₄ := by
    unfold s₅
    split
    all_goals rfl
  rw [if_neg (by simp [hd]), seats_sweepActs, seats_of_besideAudit (besideAudit_checkFinal _), seats_checkDrained, h₅, h₄, h₃, h₂]

/-- A committed ticket of a queue leaves as its final entry leaves it. -/
theorem seats_commitFinal {t : Ticket} {c : Nat} (st : Byte) (n : W32) (opened : Bool) (ht : ticket? s t.id = some t)
    (hc : t.core? = some c) (ho : t.origin = .queue) (hd : t.device = false) : seats (commitFinal t.id st n opened s) =
      seats (dropKeyChanges t.id (dropTicket t.id (setCore c { run := if (core s c).run = .inReset then .inReset else .idle } s))) := by
  unfold commitFinal
  split
  next h => exact absurd (h.symm.trans ht) (by simp)
  next t' h =>
  obtain rfl : t = t' := Option.some.inj (ht.symm.trans h)
  extract_lets f r s₁ s₂
  have h₁ : seats s₁ = seats s :=
    (seats_of_besideAudit rfl).trans (seats_of_besideAudit (besideAudit_assignIndex s t.iid ((t.core?).getD 0) t.id))
  clear_value s₁
  have hcore : core s₁ c = core s c := congrArg (fun q : Seats => Table.get ({} : Core) q.cores c) h₁
  have h₂ : seats s₂ =
      seats (dropKeyChanges t.id (dropTicket t.id (setCore c { run := if (core s c).run = .inReset then .inReset else .idle } s))) := by
    refine (seats_finish s₁ _ ((congrArg (fun q : Seats => q.tickets.find? (fun (x : Ticket) => x.id == t.id)) h₁).trans ht) hc ho hd).trans ?_
    rw [hcore]
    exact seats_dropped t.id (seats_setCore c _ h₁)
  rw [if_neg (by simp [hd])]
  split
  · exact (seats_of_besideAudit (besideAudit_causeEarly _ _)).trans h₂
  · exact h₂

end

/-! ### Requests that waited for D0 (R41, R60) -/

/-- Where the function is not in D3hot, requests only leave: what waits stays as it is. -/
def Sends (s t : State) : Prop := s.pcie.d3hot = false → t.pcie.d3hot = false ∧ t.pcie.held = s.pcie.held ∧
  t.pcie.heldEntries = s.pcie.heldEntries ∧ s.pcie.issued <+: t.pcie.issued

theorem Sends.refl (s : State) : Sends s s := fun h => ⟨h, rfl, rfl, List.prefix_refl _⟩

theorem Sends.trans {s t u : State} (h : Sends s t) (h' : Sends t u) : Sends s u := fun hd => by
  obtain ⟨ht, hheld, hent, hpre⟩ := h hd
  obtain ⟨hu, hheld', hent', hpre'⟩ := h' ht
  exact ⟨hu, hheld'.trans hheld, hent'.trans hent, hpre.trans hpre'⟩

theorem Sends.foldl {α : Type} {f : State → α → State} (h : ∀ s x, Sends s (f s x)) (l : List α) (s : State) :
    Sends s (l.foldl f s) := by
  induction l generalizing s with
  | nil => exact .refl s
  | cons x l ih => exact (h s x).trans (ih _)

theorem sends_of_pcie {s t : State} (h : t.pcie = s.pcie) : Sends s t := fun hd => by
  rw [h]
  exact ⟨hd, rfl, rfl, List.prefix_refl _⟩

theorem sends_emit (r : HostReq) (s : State) : Sends s (emit r s) := fun hd => by
  unfold emit
  split
  · exact Sends.refl s hd
  · rw [if_neg (by simp [hd])]
    exact ⟨hd, rfl, rfl, List.prefix_append _ _⟩

theorem sends_msix (v : Nat) (s : State) : Sends s (msix v s) := by
  unfold msix
  split
  · exact .refl s
  · split
    · exact fun hd => ⟨hd, rfl, rfl, List.prefix_refl _⟩
    · exact sends_emit _ s

theorem sends_checkDrained (s : State) (i : Nat) : Sends s (checkDrained i s) := by
  unfold checkDrained
  dsimp only
  split
  · unfold attention
    refine Sends.trans ?_ (sends_msix 512 _)
    exact sends_of_pcie rfl
  · exact .refl s

theorem sends_msixFlush (s : State) : Sends s (msixFlush s) := by
  unfold msixFlush
  refine Sends.foldl (fun s v => ?_) _ s
  split
  · refine Sends.trans ?_ (sends_emit _ _)
    exact fun hd => ⟨hd, rfl, rfl, List.prefix_refl _⟩
  · exact .refl s

/-! ### What a commit brings about besides its final entry (R54, R55, R73, R88) -/

/-- The state in which the final entry of a commit is made. -/
def committed (c : Nat) (t : Ticket) (st : Byte) (s : State) : State :=
  let u := if st = 0 then commitDone c t s else s
  let u := if st = 0 ∨ st = 1 then learnCost t u else u
  takeOffer c t ((List.range (core u c).grants.length).foldl (fun u k => keepGrant c k u) u)

theorem commitAs_eq (c : Nat) (t : Ticket) (st : Byte) (n : W32) (s : State) (ho : ∀ k, t.origin ≠ .handshake k) :
    commitAs c t st n s = commitFinal t.id st n false (committed c t st s) := by
  unfold commitAs committed stDone stSigInvalid
  dsimp only
  simp only [decide_eq_true_eq]

/-- An act that ends in neither DONE nor SIG_INVALID, with no offer and no grant, brings nothing else about. -/
theorem committed_plain {c : Nat} {t : Ticket} {st : Byte} {s : State} (hst : st ≠ 0 ∧ st ≠ 1) (ho : (core s c).offer = none)
    (hg : (core s c).grants = []) : committed c t st s = s := by
  unfold committed
  rw [if_neg hst.1]
  dsimp only
  rw [if_neg (not_or.2 hst), hg]
  unfold takeOffer
  simp [ho]

theorem commitAs_handshake {c k : Nat} {t : Ticket} (n : W32) (s : State) (ho : t.origin = .handshake k) :
    commitAs c t 0 n s = commitFinal t.id 0 n (sessionOpen t k (committed c t 0 s)).1 (sessionOpen t k (committed c t 0 s)).2 := by
  unfold commitAs committed stDone stSigInvalid
  rw [ho]
  simp only [decide_true, true_or, if_true]

section
variable {s : State} {c : Nat} {t : Ticket}

/-- A commit signal on its core goes to the commit point once nothing of the act is outstanding (R55, R113). -/
theorem commit_runs {st : Byte} {n : W32} (hl : Live s) (hr : (core s c).run = .exiting st n) (ht : ticketOn s c = some t)
    (hp : t.phase = .running c) (hw : workDone s c = true) (htr : (corex s c).micro.trapped = false)
    (hf : (corex s c).micro.faulted = false) (hc : controlReread s c = false) (ho : (corex s c).outPend = none)
    (hh : ¬ (t.device = false ∧ commitHeld s t.iid = true)) : Runs (.commit c) s (commitAs c t st n s) := by
  have hout : retryOutput c t s = s := by
    unfold retryOutput
    rw [ho]
  refine congrArg Host.Outcome.next ((unlessLocked_live hl).trans ?_)
  rw [ht]
  dsimp only
  rw [if_neg hh, hr]
  dsimp only
  rw [hout]
  exact if_neg (by simp [hp, hw, htr, hf, hc])

theorem commit_waits {st : Byte} {n : W32} (hl : Live s) (hr : (core s c).run = .exiting st n) (ht : ticketOn s c = some t)
    (hh : ¬ (t.device = false ∧ commitHeld s t.iid = true)) (hw : workDone (retryOutput c t s) c = false) :
    Runs (.commit c) s (retryOutput c t s) := by
  refine congrArg Host.Outcome.next ((unlessLocked_live hl).trans ?_)
  rw [ht]
  dsimp only
  rw [if_neg hh, hr]
  exact if_pos (.inr (.inl hw))

theorem commit_held (hl : Live s) (ht : ticketOn s c = some t) (hd : t.device = false) (hh : commitHeld s t.iid = true) :
    Runs (.commit c) s s := by
  refine congrArg Host.Outcome.next ((unlessLocked_live hl).trans ?_)
  rw [ht]
  exact if_pos ⟨hd, hh⟩

end

/-- Settles O8: aborts and commits by their guards, the entry by the two writes it is, D3hot by what only waits and what only leaves. -/
theorem ticketsEndAndTheirWritesLeave : Obligations.TicketsEndAndTheirWritesLeave := by
  unfold Obligations.TicketsEndAndTheirWritesLeave
  refine ⟨⟨?_, ?_, ?_, ?_, ?_, ?_⟩, ⟨?_, ?_, ?_, ?_, ?_, ?_⟩, ?_, ⟨fun s => rfl, ?_, ?_, ?_, ?_, ?_, ?_⟩⟩
  · intro s i h hw hp hb
    exact onInstance_next hw hp (if_neg (by simp [hb]))
  · intro s i h hw hp hb
    exact onInstance_next hw hp (if_pos hb)
  · intro s i hl hb ht hr he
    refine congrArg Host.Outcome.next ((unlessLocked_live hl).trans (if_neg ?_))
    rintro (h | h | h | h)
    · exact Bool.noConfusion (h.symm.trans hb)
    · obtain ⟨t, hmem, h⟩ := List.any_eq_true.1 h
      simp only [Bool.and_eq_true, beq_iff_eq] at h
      exact Bool.noConfusion ((ht t hmem h.1).symm.trans h.2)
    · obtain ⟨r, hmem, h⟩ := List.any_eq_true.1 h
      exact Bool.noConfusion ((hr r hmem).symm.trans h)
    · obtain ⟨e, hmem, h⟩ := List.any_eq_true.1 h
      simp only [Bool.and_eq_true, beq_iff_eq] at h
      exact Bool.noConfusion ((he e hmem h.1).symm.trans h.2)
  · intro s i n hl he
    refine congrArg Host.Outcome.next ((unlessLocked_live hl).trans (if_pos (.inr (.inr (.inr ?_)))))
    exact List.any_eq_true.2 ⟨_, he, by simp⟩
  · intro s tid c t st ht hp hr hw
    refine congrArg Host.Outcome.next ?_
    rw [ht]
    dsimp only
    rw [hp]
    exact if_neg (by simp [hr, hw])
  · intro s tid c t st ht hp h
    refine congrArg Host.Outcome.next ?_
    rw [ht]
    dsimp only
    rw [hp]
    exact if_pos h
  · intro s c t st n hl hr ht hp hw htr hf hc ho hh hk u v
    have hfree : ¬ (t.device = false ∧ commitHeld s t.iid = true) := by
      rcases hh with h | h <;> simp [h]
    exact (commit_runs hl hr ht hp hw htr hf hc ho hfree).trans (congrArg Host.Outcome.next (commitAs_eq c t st n s hk))
  · intro s c k t st n hl hr ht hp hw htr hf hc ho hh hk hst u v
    subst hst
    have hfree : ¬ (t.device = false ∧ commitHeld s t.iid = true) := by
      rcases hh with h | h <;> simp [h]
    exact (commit_runs hl hr ht hp hw htr hf hc ho hfree).trans (congrArg Host.Outcome.next (commitAs_handshake n s hk))
  · intro s c t st n hl hr ht h
    by_cases hh : t.device = false ∧ commitHeld s t.iid = true
    · exact commit_held hl ht hh.1 hh.2
    · obtain ⟨ho, hw⟩ := h.resolve_right hh
      have hout : retryOutput c t s = s := by
        unfold retryOutput
        rw [ho]
      have hrun := commit_waits hl hr ht hh (by rw [hout]; exact hw)
      rwa [hout] at hrun
  · intro s c off b t st n hl hr ht hh ho u hw
    have hfree : ¬ (t.device = false ∧ commitHeld s t.iid = true) := by
      rcases hh with h | h <;> simp [h]
    have hout : retryOutput c t s = u := by
      unfold retryOutput
      rw [ho]
    have hrun := commit_waits hl hr ht hfree (by rw [hout]; exact hw)
    rwa [hout] at hrun
  · intro s c t st n hl hr ht hp hw htr hf hc ho hh hd horig hst hsn hcount hoff hg
    have hrun := commit_runs hl hr ht hp hw htr hf hc ho (by simp [hh])
    rw [commitAs_eq c t st n s (by simp [horig]), committed_plain hst hoff hg] at hrun
    have hseats := seats_commitFinal s (c := c) st n false (ticketOn_ticket ht) (by simp [Ticket.core?, hp]) horig hd
    rw [hr, if_neg (by simp)] at hseats
    have hcore : core (commitFinal t.id st n false s) c = { run := .idle } :=
      (congrArg (fun q : Seats => Table.get ({} : Core) q.cores c) hseats).trans (core_setCore s c { run := .idle })
    refine ⟨_, hrun, by rw [hcore], ?_, congrArg Seats.entries hseats⟩
    exact (congrArg (fun q : Seats => q.tickets.find? (fun (x : Ticket) => x.id == t.id)) hseats).trans
      (ticket?_dropTicket_same (setCore c { run := .idle } s) t.id)
  · intro s c t g hl hr ht hg hh
    have hfree : ¬ (t.device = false ∧ commitHeld s t.iid = true) := by
      rcases hh with h | h <;> simp [h]
    refine ⟨fun hcyc => ?_, fun hcyc => ?_⟩
    all_goals
      refine congrArg Host.Outcome.next ((unlessLocked_live hl).trans ?_)
      rw [ht]
      dsimp only
      rw [if_neg hfree, hr, hg]
    · exact if_pos hcyc
    · exact if_neg hcyc
  · intro s t f hl hr hd hi hf a u first
    have hu : u = _ := writeEntry_leaves t f hl hr hd hi hf
    clear_value u
    subst hu
    refine ⟨rfl, entryFirst_whole f, entryBytes_length t f _, ?_, ?_, fun j hj => inst_setInst_other _ _ _ _ hj, rfl, rfl⟩
    · rw [inst_setInst]
      rfl
    · rw [inst_setInst]
      rfl
  · intro s r hl hr hd
    have h : emit r s = { s with pcie := { s.pcie with held := s.pcie.held ++ r.split s } } :=
      (if_neg (by simpa [Live, hr] using hl)).trans (if_pos hd)
    rw [h]
    exact ⟨rfl, rfl⟩
  · intro s e r he hr
    refine List.mem_flatMap.2 ⟨_, List.mem_filter.2 ⟨List.mem_map.2 ⟨e, he, rfl⟩, by simp⟩, List.mem_map.2 ⟨r, hr, rfl⟩⟩
  · intro s hd
    have hsends := Sends.trans (sends_msixFlush (readsIssued { s with pcie := { s.pcie with
        d3hot := false, issued := s.pcie.issued ++ s.pcie.held, held := [], heldEntries := [] } }))
      (Sends.foldl sends_checkDrained ((readsIssued { s with pcie := { s.pcie with
        d3hot := false, issued := s.pcie.issued ++ s.pcie.held, held := [], heldEntries := [] } }).inst.map (fun e => e.1)) _) rfl
    exact ⟨_, congrArg Host.Outcome.next (if_neg (by simp [hd])), hsends⟩
  · intro s hd
    exact congrArg Host.Outcome.next (if_pos hd)
  · intro s bar off d hr
    exact ⟨congrArg Host.Outcome.next (if_pos hr), fun n => congrArg Host.Outcome.next (if_pos hr)⟩
  · intro s bar off d hr hd hb
    have hleave (x y z : State) : (if s.pcie.inReset = true then s else if 8 ≤ bar then x else if s.pcie.d3hot = true then y else z) = y :=
      (if_neg (by simp [hr])).trans ((if_neg (Nat.not_le.2 hb)).trans (if_pos hd))
    exact ⟨congrArg Host.Outcome.next (hleave _ _ _), fun n => congrArg Host.Outcome.next (hleave _ _ _)⟩

end Sys2Proof.Machine
end

section
/-!
SUPPORT. A dispatch (R84, R85, R98): what making room and starting a copy leave alone, and how the core starts.
-/
namespace Sys2Proof.Machine

open Sys2Proof

/-! ### Room and cached copies (R86, R87, R91) -/

/-- Only the Usher's records, memory and fabric differ. -/
def CopyFrame (s t : State) : Prop := ∃ u m b, t = { s with ush := u, mem := m, fabric := b }

theorem CopyFrame.refl (s : State) : CopyFrame s s := ⟨_, _, _, rfl⟩

theorem CopyFrame.trans {s t u : State} (h : CopyFrame s t) (h' : CopyFrame t u) : CopyFrame s u := by
  obtain ⟨x, m, b, rfl⟩ := h
  obtain ⟨x', m', b', rfl⟩ := h'
  exact ⟨x', m', b', rfl⟩

theorem MemFrame.copyFrame {s t : State} (h : MemFrame s t) : CopyFrame s t := by
  obtain ⟨m, b, rfl⟩ := h
  exact ⟨s.ush, m, b, rfl⟩

theorem copyFrame_setUsh (s : State) (u : Usher) : CopyFrame s { s with ush := u } := ⟨u, s.mem, s.fabric, rfl⟩

theorem dropCopy_copyFrame (k : Copy) (s : State) : CopyFrame s (dropCopy k s) :=
  (copyFrame_setUsh s _).trans (unwrite_memFrame _ _ _).copyFrame

theorem evictFor_copyFrame (r extra n : Nat) (s : State) : CopyFrame s (evictFor r extra n s) := by
  induction n generalizing s with
  | zero => exact .refl s
  | succ n ih =>
    unfold evictFor
    split
    · exact .refl s
    · split
      · exact .refl s
      · exact (dropCopy_copyFrame _ s).trans (ih _)

theorem makeRoom_copyFrame {r n wish : Nat} {keep : Option (W32 × Nat)} {fuel : Nat} {s v : State} {off : Nat}
    (h : makeRoom r n wish keep fuel s = some (off, v)) : CopyFrame s v := by
  induction fuel generalizing s with
  | zero =>
    unfold makeRoom at h
    obtain ⟨a, -, hav⟩ := Option.map_eq_some_iff.1 h
    obtain ⟨-, rfl⟩ := Prod.mk.inj hav
    exact .refl s
  | succ fuel ih =>
    unfold makeRoom at h
    split at h
    · obtain ⟨-, rfl⟩ := Prod.mk.inj (Option.some.inj h)
      exact .refl s
    · obtain ⟨k, -, hk⟩ := Option.bind_eq_some_iff.1 h
      exact (dropCopy_copyFrame k s).trans (ih hk)

theorem inject_memFrame (n : Nat) (s : State) : MemFrame s (inject n s) := by
  unfold inject
  split
  · exact .refl s
  · exact ⟨_, _, rfl⟩

theorem beginXfer_memFrame (a b n : Nat) (owner : Option Nat) (d : List Byte) (s : State) : MemFrame s (beginXfer a b n owner d s) := by
  unfold beginXfer
  split
  · exact .refl s
  · exact MemFrame.trans ⟨_, _, rfl⟩ (inject_memFrame _ _)

theorem moveLines_memFrame (q p : Place) (n : Nat) (s : State) : MemFrame s (moveLines q p n s) :=
  MemFrame.trans (.foldl (fun s _ => writeTagged_memFrame _ _ _ s) _ s) (inTurn_memFrame _ _ _ _ _)

theorem startCopy_copyFrame (r : Nat) (h : W32) (kind ns : Nat) (s : State) : CopyFrame s (startCopy r h kind ns s) := by
  unfold startCopy
  dsimp only
  split
  · exact .refl s
  split
  · exact .refl s
  split
  · exact .refl s
  next a v hv =>
  refine ((evictFor_copyFrame r _ _ s).trans (makeRoom_copyFrame hv)).trans ?_
  refine CopyFrame.trans ?_ (moveLines_memFrame _ _ _ _).copyFrame
  exact (copyFrame_setUsh v _).trans (beginXfer_memFrame _ _ _ _ _ _).copyFrame

/-! ### The core that a ticket is sent to (R98) -/

/-- The core's state as the act starts on it. -/
def coreStart (s : State) (c tid off : Nat) (a : Act) : Core := {
  g := Table.set 0 (Table.set 0 [] 1 (BitVec.ofNat 64 (0x1000000 + off))) 30 0x40000
  pc := BitVec.ofNat 64 (0x1380000 + a.offset + a.entryOff)
  entry := coreNow s c, run := .running, ticket := some tid, wsBase := 0x1000000 + off, wsSize := a.wsSize
  compat := a.hdrVersion == 1, imgBase := 0x1380000 + a.offset, imgSize := a.codeSize + a.roSize }

/-- The ticket as it runs. -/
def Ticket.startedOn (q : Ticket) (c off size now : Nat) (further : Bool) (uses : List (Nat × W32 × Nat)) : Ticket :=
  { q with phase := .running c, pool := false, started := now, wsBase := 0x1000000 + off, wsSize := size, further := further, uses := uses }

/-- Ticket and core as a dispatch leaves them. -/
def sentTo (t : Ticket) (a : Act) (c off : Nat) (further : Bool) (uses : List (Nat × W32 × Nat)) (s : State) : State :=
  openGate (unitCore c) (setCorex c { rndBuf := (corex s c).rndBuf, halted := (corex s c).halted } (setCore c (coreStart s c t.id off a)
    (modTicket t.id (fun q => q.startedOn c off a.wsSize s.time.ticks further uses) s)))

/-- The copy of the form that the ticket needs, where its ring has none. -/
def formStarted (k used : Option (W32 × Nat)) (r ns : Nat) (further : Bool) (s : State) : State :=
  match k with
  | some f =>
    if used.isNone then
      let u := startCopy r f.1 f.2 (expandCost f.2 ns) s
      if further ∧ copyAt? s r f.1 f.2 = none ∧ copyAt? u r f.1 f.2 ≠ none then noteSpread f.1 f.2 u else u
    else s
  | none => s

theorem formStarted_copyFrame (k used : Option (W32 × Nat)) (r ns : Nat) (further : Bool) (s : State) :
    CopyFrame s (formStarted k used r ns further s) := by
  unfold formStarted
  cases k with
  | none => exact .refl s
  | some f =>
    dsimp only
    split
    · split
      · exact (startCopy_copyFrame _ _ _ _ _).trans (copyFrame_setUsh _ _)
      · exact startCopy_copyFrame _ _ _ _ _
    · exact .refl s

theorem dispatch_frame {s v : State} {t : Ticket} {a : Act} {r c b off : Nat} {further : Bool}
    (h : roomFor s r a.wsSize b (neededForm s t a) = some (off, v)) :
    ∃ u uses, CopyFrame (sentTo t a c off further uses { v with ush := u }) (dispatch t a r c further b s) := by
  unfold dispatch
  dsimp only
  rw [h]
  exact ⟨_, _, formStarted_copyFrame (neededForm s t a) _ r a.expandNs further _⟩

section
variable (s : State) (c tid off : Nat) (a : Act)

theorem coreStart_one : (coreStart s c tid off a).rg 1 = BitVec.ofNat 64 (0x1000000 + off) := by
  unfold Core.rg coreStart
  rw [if_neg (by decide), Table.get_set_other (0 : W64) _ _ (by decide), Table.get_set_same]

theorem coreStart_thirty : (coreStart s c tid off a).rg 30 = 0x40000 := by
  unfold Core.rg coreStart
  rw [if_neg (by decide), Table.get_set_same]

theorem coreStart_zero {k : Nat} (h₁ : k ≠ 1) (h₃₀ : k ≠ 30) : (coreStart s c tid off a).rg k = 0 := by
  unfold Core.rg coreStart
  rw [Table.get_set_other (0 : W64) _ _ h₃₀, Table.get_set_other (0 : W64) _ _ h₁]
  exact ite_self 0

theorem coreStart_pub (k : Nat) : (coreStart s c tid off a).tagG k = .pub := ite_self Tag.pub

end

section
variable (t : Ticket) (a : Act) (c off : Nat) (further : Bool) (uses : List (Nat × W32 × Nat)) (s : State)

theorem core_sentTo : core (sentTo t a c off further uses s) c = coreStart s c t.id off a := core_setCore _ _ _

theorem core_sentTo_other {d : Nat} (h : d ≠ c) : core (sentTo t a c off further uses s) d = core s d := core_setCore_other _ _ _ _ h

theorem ticket_sentTo {q : Ticket} (h : ticket? s t.id = some q) :
    ticket? (sentTo t a c off further uses s) t.id = some (q.startedOn c off a.wsSize s.time.ticks further uses) :=
  ticket?_modTicket_same (fun q : Ticket => q.startedOn c off a.wsSize s.time.ticks further uses) (fun _ => rfl) h

theorem ticket_sentTo_other {n : Nat} (h : n ≠ t.id) : ticket? (sentTo t a c off further uses s) n = ticket? s n :=
  ticket?_modTicket_other s (fun q : Ticket => q.startedOn c off a.wsSize s.time.ticks further uses) (fun _ => rfl) h

end

theorem ticket?_of_mem {s : State} {t : Ticket} (h : t ∈ s.tickets) : ∃ q, ticket? s t.id = some q :=
  Option.isSome_iff_exists.1 (List.find?_isSome.2 ⟨t, h, by simp⟩)

/-! ### A dispatch pass (R84) -/

theorem dispatchPass_runs {s : State} {b : Nat} (hl : Live s) (hp : s.ush.paused = false) (hw : s.boot.warm = false)
    (hi : ∃ k, k < coreCount s ∧ coreIdle s k = true) : exec (.dispatchPass b) s = .next (
      match placeDevice s b with
      | some (t, a, r, c) =>
        modTicket t.id (fun u => { u with sent := some { cycle := s.time.cycle, vt := 0, backlog := 0, pool := t.pool } })
          (dispatch t a r c false b s)
      | none =>
        match pickInstance s with
        | none => s
        | some i =>
          let vmin := match (readyInstances s).map (fun j => (share s j).vt) with
            | [] => 0
            | x :: l => l.foldl min x
          tryTickets i b vmin ((readyList s i).take 8) s) := by
  obtain ⟨k, hk, hidle⟩ := hi
  have hany : (List.range (coreCount s)).any (coreIdle s) = true := List.any_eq_true.2 ⟨k, List.mem_range.2 hk, hidle⟩
  exact congrArg Host.Outcome.next ((unlessLocked_live hl).trans (if_neg (by simp [hp, hw, hany])))

/-- Settles O9: which ticket goes by the pass's cases, how the core starts by the record that a dispatch writes, all else by what room and
copies leave alone. -/
theorem usherDispatchesThePickedTicket : Obligations.UsherDispatchesThePickedTicket := by
  unfold Obligations.UsherDispatchesThePickedTicket
  refine ⟨?_, ?_, ?_, ?_, ?_⟩
  · intro s b i r c t l a fu hl hp hw hi hdev hpick hready hdl hact hcore k u vmin
    refine (dispatchPass_runs hl hp hw hi).trans ?_
    rw [hdev, hpick]
    dsimp only
    rw [hready, List.take_succ_cons]
    unfold tryTickets
    have hlate : ¬ (t.deadline ≠ 0 ∧ t.deadline ≤ ntN s) := by
      rintro ⟨h0, hn⟩
      exact hdl.elim h0 (fun h => absurd hn (Nat.not_le.2 h))
    rw [if_neg hlate, hact]
    dsimp only
    rw [hcore]
    rfl
  · intro s b r c t a hl hp hw hi hdev
    refine (dispatchPass_runs hl hp hw hi).trans ?_
    rw [hdev]
  · intro s b r c t a fu off v ht hroom u
    obtain ⟨h, uses, x, m, f, hu⟩ := dispatch_frame (c := c) (further := fu) hroom
    obtain ⟨y, n, g, rfl⟩ := makeRoom_copyFrame hroom
    have hcore : core u c = coreStart s c t.id off a := (congrArg (fun w => core w c) hu).trans (core_sentTo t a c off fu uses _)
    obtain ⟨q, hq⟩ := ticket?_of_mem ht
    rw [hcore]
    refine ⟨rfl, rfl, rfl, rfl, rfl, coreStart_one .., coreStart_thirty .., fun k h₁ h₃₀ => coreStart_zero _ _ _ _ _ h₁ h₃₀,
      coreStart_pub _ _ _ _ _, fun d hd => ?_, ⟨q.startedOn c off a.wsSize s.time.ticks fu uses, ?_, rfl, rfl, rfl⟩, fun k hk => ?_⟩
    · exact (congrArg (fun w => core w d) hu).trans (core_sentTo_other t a c off fu uses _ hd)
    · exact (congrArg (fun w => ticket? w t.id) hu).trans (ticket_sentTo t a c off fu uses _ hq)
    · exact (congrArg (fun w => ticket? w k) hu).trans (ticket_sentTo_other t a c off fu uses _ hk)
  · intro s b i t l hl hp hw hi hdev hpick hready hd hn
    refine (dispatchPass_runs hl hp hw hi).trans ?_
    rw [hdev, hpick]
    dsimp only
    rw [hready, List.take_succ_cons]
    unfold tryTickets
    rw [if_pos ⟨hd, hn⟩]
    rfl
  · intro s b hl h
    refine congrArg Host.Outcome.next ((unlessLocked_live hl).trans (if_pos ?_))
    refine h.imp_right (Or.imp_right fun h => ?_)
    exact List.any_eq_false.2 fun k hk => by simp [h k (List.mem_range.1 hk)]

end Sys2Proof.Machine
end

section
/-!
SUPPORT. Events at the collector: the order of those that wait, their records, and their class actions (R429–R443).
-/
namespace Sys2Proof.Machine

open Sys2Proof

/-! ### The recording order (R434) -/

theorem ofCode_rank (a : FaultClass) : FaultClass.ofCode a.rank = a := by cases a <;> rfl

theorem rank_inj {a b : FaultClass} (h : a.rank = b.rank) : a = b := by rw [← ofCode_rank a, h, ofCode_rank]

/-- Earlier cycle, then graver class, lower source, lower unit. -/
theorem before_iff (a b : Waiting) : a.before b = true ↔ a.cycle < b.cycle ∨ (a.cycle = b.cycle ∧
    (b.ev.cls.rank < a.ev.cls.rank ∨ (a.ev.cls.rank = b.ev.cls.rank ∧ (a.ev.source.toNat < b.ev.source.toNat ∨
      (a.ev.source.toNat = b.ev.source.toNat ∧ a.ev.unit.toNat < b.ev.unit.toNat))))) := by
  have hcls : a.ev.cls = b.ev.cls ↔ a.ev.cls.rank = b.ev.cls.rank := ⟨congrArg _, rank_inj⟩
  have hsrc : a.ev.source = b.ev.source ↔ a.ev.source.toNat = b.ev.source.toNat := BitVec.toNat_eq
  simp only [Waiting.before, ne_eq, hcls, hsrc]
  repeat' split
  all_goals
    rw [decide_eq_true_eq]
    omega

theorem before_trans {a b c : Waiting} (h : a.before b = true) (h' : b.before c = true) : a.before c = true := by
  rw [before_iff] at *
  omega

theorem before_asymm {a b : Waiting} (h : a.before b = true) : b.before a = false := by
  rw [← Bool.not_eq_true, before_iff]
  rw [before_iff] at h
  omega

/-- No event stands after one that it is recorded before. -/
def Ordered (l : List Waiting) : Prop := l.Pairwise (fun a b => b.before a = false)

theorem mem_insertWaiting {w y : Waiting} {l : List Waiting} : y ∈ insertWaiting w l ↔ y = w ∨ y ∈ l := by
  induction l with
  | nil => simp [insertWaiting]
  | cons x l ih =>
    unfold insertWaiting
    split
    · simp
    · simp only [List.mem_cons, ih]
      exact or_left_comm

theorem insertWaiting_ordered (w : Waiting) {l : List Waiting} (h : Ordered l) : Ordered (insertWaiting w l) := by
  induction l with
  | nil => exact List.pairwise_singleton _ _
  | cons x l ih =>
    obtain ⟨hx, hl⟩ := List.pairwise_cons.1 h
    unfold insertWaiting
    split
    next hwx =>
      refine List.pairwise_cons.2 ⟨fun y hy => ?_, h⟩
      rcases List.mem_cons.1 hy with rfl | hy
      · exact before_asymm hwx
      · rw [← Bool.not_eq_true]
        exact fun hyw => Bool.noConfusion ((hx y hy).symm.trans (before_trans hyw hwx))
    next hwx =>
      refine List.pairwise_cons.2 ⟨fun y hy => ?_, ih hl⟩
      rcases mem_insertWaiting.1 hy with rfl | hy
      · exact Bool.eq_false_iff.2 hwx
      · exact hx y hy

theorem report_ordered {s : State} (ev : Event) (h : Ordered s.fcq.waiting) : Ordered (report ev s).fcq.waiting := by
  unfold report
  split
  · split
    all_goals exact h
  unfold enqueueEvent
  dsimp only
  split
  · exact insertWaiting_ordered _ (List.Pairwise.filter _ h)
  split
  · exact insertWaiting_ordered _ h
  split
  all_goals exact h

/-! ### Records (R431, R435) -/

theorem faultIrq_fc (cls : FaultClass) (s : State) : (faultIrq cls s).fc = s.fc := by
  obtain ⟨p, q, h⟩ := faultIrq_frame cls s
  rw [h]

/-- With MODE 0 a record sets the source's sticky bit and is FIRST if none was set. -/
theorem capture_sticky {s : State} (src : Byte) (r : BitVec 512) (h : s.fc.mode = false) : (capture src r s).fc =
    { s.fc with
      sticky := s.fc.sticky ||| BitVec.ofNat 64 (2 ^ (src.toNat % 64))
      first := if s.fc.sticky = 0 then r else s.fc.first
      firstValid := if s.fc.sticky = 0 then true else s.fc.firstValid } := by
  unfold capture
  simp only [h, Bool.false_and, Bool.false_eq_true, if_false, noteSet_fc]
  split
  next h0 => simp [h0]
  next h0 => simp

/-- With MODE 1 it goes to the history queue, if that has room. -/
theorem capture_history {s : State} (src : Byte) (r : BitVec 512) (h : s.fc.mode = true) : (capture src r s).fc =
    { s.fc with hq := if s.fc.hq.length < 16 then s.fc.hq ++ [r] else s.fc.hq } := by
  unfold capture
  simp only [h, Bool.true_and, decide_eq_true_eq, if_true]
  by_cases hfull : 16 ≤ s.fc.hq.length
  · rw [if_pos hfull, if_neg (Nat.not_lt.2 hfull), bump_fc, ← h]
  · rw [if_neg hfull, if_pos (Nat.lt_of_not_le hfull)]

theorem logRecord_fc (r : BitVec 512) (s : State) : (logRecord r s).fc = { s.fc with
    log := Table.set 0 s.fc.log (s.fc.logHead.toNat % 4096) r, logHead := s.fc.logHead + 1
    logParity := Table.set [] s.fc.logParity (s.fc.logHead.toNat % 4096) (valueParity 16 r) } := rfl

/-- The record that is made of the event. -/
def recordNow (w : Waiting) (s : State) : BitVec 512 :=
  recordOf s.fc.logHead w (s.fcq.lastGroup == some w.cycle) s.fc.snet s.fc.selfMark

/-- The event counted and captured. -/
def recorded (w : Waiting) (s : State) : State :=
  capture w.ev.source (recordNow w s) (bump (fcCnt w.ev.cls) 0 32
    { s with fc := { s.fc with selfMark := false }, fcq := { s.fcq with lastGroup := some w.cycle } })

theorem writeRecord_fc (w : Waiting) (s : State) : (writeRecord w s).fc =
    (if w.ev.cls = .f0 ∧ s.fc.logF0 = false then recorded w s else logRecord (recordNow w s) (recorded w s)).fc := by
  have h : (recorded w s).fc.logF0 = s.fc.logF0 := by
    cases hm : s.fc.mode with
    | false => rw [recorded, capture_sticky _ _ (by exact hm)]; rfl
    | true => rw [recorded, capture_history _ _ (by exact hm)]; rfl
  refine (faultIrq_fc _ _).trans ?_
  rw [← h]
  rfl

/-! ### Class actions (R438, R439, R441) -/

theorem report_retired (ev : Event) (s : State) : (report ev s).fcq.retired = s.fcq.retired := by
  unfold report enqueueEvent
  dsimp only
  repeat' split
  all_goals rfl

theorem recompute_retired (s : State) : (recompute s).fcq.retired = s.fcq.retired := by
  rw [recompute_eq]
  split
  · exact report_retired _ _
  · rfl

section
variable {s : State} {c : Nat} (hc : c < coreCount s)
include hc

theorem core_lt_256 : c < 256 := Nat.lt_of_lt_of_le hc (Nat.mul_le_mul_left 16 (ringCount_le s))

theorem unitCore_toNat : (unitCore c).toNat = 0x1000 + c := by
  have h := core_lt_256 hc
  unfold unitCore mgmtCore
  rw [if_neg (Nat.ne_of_lt h), BitVec.toNat_ofNat]
  omega

theorem unitKind_unitCore : unitKind (unitCore c) = 1 := by
  have h := core_lt_256 hc
  unfold unitKind field
  rw [unitCore_toNat hc]
  omega

theorem unitIdx_unitCore : unitIdx (unitCore c) = c := by
  have h := core_lt_256 hc
  unfold unitIdx field
  rw [unitCore_toNat hc]
  omega

theorem retireUnit_core {w : Waiting} (hu : w.ev.unit = unitCore c) (hr : unitRetired s (unitCore c) = false) :
    retireUnit w s = retireCore c s := by
  have hpres : unitPresent s (unitCore c) = true := by
    unfold unitPresent
    rw [unitKind_unitCore hc, unitIdx_unitCore hc]
    exact decide_eq_true hc
  unfold retireUnit
  dsimp only
  rw [hu, if_neg (by simp [hpres, hr]), unitKind_unitCore hc, unitIdx_unitCore hc]
  rfl

end

/-- The core marked as retired. -/
def coreMarked (c : Nat) (s : State) : State :=
  markRetired (unitCore c) false { s with ush := { s.ush with coreRet := s.ush.coreRet ||| BitVec.ofNat 256 (2 ^ c) } }

/-- The retirement of a core without a ticket: it is held in reset, and the Usher's books and the notices follow. -/
theorem retireCore_leaves {s : State} {c : Nat} (ht : ticketOn s c = none) : ∃ v, MemFrame (coreMarked c s) v ∧
    retireCore c s = recompute (noteNoRing (setCorex c { halted := (corex s c).halted } (setCore c { run := .inReset } v))) := by
  have hend : endRetired c (coreMarked c s) = coreMarked c s := by
    have h : ticketOn (coreMarked c s) c = none := ht
    unfold endRetired
    rw [h]
  obtain ⟨v, hv, hreset⟩ := coreToReset_memFrame (coreMarked c s) c
  refine ⟨v, hv, ?_⟩
  have h : retireCore c s = recompute (noteNoRing (coreToReset c (endRetired c (coreMarked c s)))) := rfl
  rw [h, hend, hreset]
  rfl

theorem noteNoRing_frame (s : State) : ∃ b, noteNoRing s = { s with fcq := { s.fcq with noRing := b } } := by
  unfold noteNoRing
  split
  all_goals exact ⟨_, rfl⟩

/-- The core's retirement in its parts. -/
theorem retireCore_parts {s : State} {c : Nat} (hc : c < 256) (ht : ticketOn s c = none) :
    bit (retireCore c s).ush.coreRet c = true ∧ core (retireCore c s) c = { run := .inReset } ∧
      (Table.get none (retireCore c s).fcq.retired (unitCore c).toNat).isSome = true ∧ (retireCore c s).tickets = s.tickets ∧
      (∀ d, d ≠ c → core (retireCore c s) d = core s d) := by
  obtain ⟨v, ⟨m, b, hv⟩, h⟩ := retireCore_leaves ht
  subst hv
  obtain ⟨n, hn⟩ := noteNoRing_frame (setCorex c { halted := (corex s c).halted }
    (setCore c { run := .inReset } { coreMarked c s with mem := m, fabric := b }))
  rw [hn] at h
  have hret : (retireCore c s).fcq.retired = (coreMarked c s).fcq.retired := by rw [h, recompute_retired]; rfl
  obtain ⟨k, q, hrec⟩ := recompute_reports { setCorex c { halted := (corex s c).halted }
    (setCore c { run := .inReset } { coreMarked c s with mem := m, fabric := b }) with
      fcq := { (coreMarked c s).fcq with noRing := n } }
  have hs : retireCore c s = _ := h.trans hrec
  refine ⟨?_, ?_, ?_, ?_, fun d hd => ?_⟩
  · rw [hs]
    exact bit_or_pow_same s.ush.coreRet hc
  · rw [hs]
    exact core_setCore s c { run := .inReset }
  · rw [hret]
    exact congrArg Option.isSome (Table.get_set_same (none : Option Bool) s.fcq.retired (unitCore c).toNat (some false))
  · rw [hs]
    rfl
  · rw [hs]
    exact core_setCore_other s c d { run := .inReset } hd

/-- Settles O14: events wait in their order by insertion, a record by what capture and log write, a class action by its class. -/
theorem eventsAreRecordedAndActedOn : Obligations.EventsAreRecordedAndActedOn := by
  unfold Obligations.EventsAreRecordedAndActedOn
  refine ⟨⟨?_, ?_, ?_⟩, fun s ev h => report_ordered ev h, ⟨?_, ?_, ?_, ?_⟩, ?_, ?_, ?_, ?_⟩
  · intro s ev hl hf hsh
    have hlive : ¬ s.fc.lock = true := by simpa [Live] using hl
    have hrun : exec (.faultEvent ev) s = .next (enqueueEvent (stamped ev s) s) :=
      congrArg Host.Outcome.next ((if_neg hf).trans (if_neg hlive))
    have hq : ¬ s.fcq.waiting.any (shadows (stamped ev s)) = true := by simp [hsh]
    refine ⟨fun h => ?_, fun h h0 => ?_, fun h h0 => ?_⟩
    all_goals refine hrun.trans (congrArg Host.Outcome.next ((if_neg hq).trans ?_))
    · exact if_pos h
    · exact (if_neg (Nat.not_lt.2 h)).trans (if_pos h0)
    · exact (if_neg (Nat.not_lt.2 h)).trans (if_neg h0)
  · intro s ev hl hf
    exact congrArg Host.Outcome.next ((if_neg hf).trans ((if_pos hl).trans (if_neg hf)))
  · intro s ev hl hf
    exact congrArg Host.Outcome.next ((if_pos hf).trans (if_pos hl))
  · intro s hl hq
    refine congrArg Host.Outcome.next ((unlessLocked_live hl).trans ?_)
    rw [hq]
  · intro s w r hl hq
    refine congrArg Host.Outcome.next ((unlessLocked_live hl).trans ?_)
    rw [hq]
  · intro s w hm hlog r t
    have hr : r = recordNow w s := rfl
    clear_value r
    subst hr
    have hfc : t.fc = (logRecord (recordNow w s) (recorded w s)).fc := by
      refine (writeRecord_fc w s).trans (congrArg State.fc (if_neg ?_))
      rintro ⟨h0, h1⟩
      exact hlog.elim (fun h => h h0) (fun h => Bool.noConfusion (h1.symm.trans h))
    rw [hfc, logRecord_fc, recorded, capture_sticky _ _ (by exact hm)]
    generalize recordNow w s = x
    exact ⟨rfl, Table.get_set_same (0 : BitVec 512) _ _ _, fun k hk => Table.get_set_other (0 : BitVec 512) _ _ hk, rfl, rfl, rfl, rfl⟩
  · intro s w hm r t
    have hr : r = recordNow w s := rfl
    clear_value r
    subst hr
    have hfc : t.fc = _ := writeRecord_fc w s
    have hcap := capture_history w.ev.source (recordNow w s) (s := bump (fcCnt w.ev.cls) 0 32
      { s with fc := { s.fc with selfMark := false }, fcq := { s.fcq with lastGroup := some w.cycle } }) hm
    rw [hfc]
    split
    · rw [recorded, hcap]
      exact ⟨rfl, rfl, rfl⟩
    · rw [logRecord_fc, recorded, hcap]
      exact ⟨rfl, rfl, rfl⟩
  · intro s w h
    unfold classAction
    split
    · rfl
    next ha =>
      rcases h with h | h | h | h
      · exact absurd h ha
      all_goals rw [h]
  · intro s w c ha hf hc hu hr ht t
    have hact : t = retireCore c s := by
      refine Eq.trans (b := retireUnit w s) ?_ (retireUnit_core hc hu hr)
      unfold t classAction
      rw [if_neg (by simp [ha]), hf]
    obtain ⟨hret, hcore, hmark, htick, hother⟩ := retireCore_parts (core_lt_256 hc) ht
    rw [hact]
    refine ⟨hret, by rw [hcore], ?_, htick, hother⟩
    unfold unitRetired
    rw [hmark]
    rfl
  · intro s w ha hf hsn ht t
    have hact : t = checkFinal { s with fc := { s.fc with snet := true, snetSource := w.ev.source.setWidth 6 } } := by
      unfold t classAction
      rw [if_neg (by simp [ha]), hf]
      dsimp only
      unfold enterSafetyNet
      rw [if_neg (by simp [hsn]), ht]
      rfl
    rw [hact, fc_of_plant (plant_checkFinal _)]
    exact ⟨rfl, rfl⟩
  · intro s w ha hf hsn
    unfold classAction
    rw [if_neg (by simp [ha]), hf]
    exact if_pos hsn

end Sys2Proof.Machine
end

section
/-!
SUPPORT. Accesses of registers over the bus (R9–R13, R443, R455).
-/
namespace Sys2Proof.Machine

open Sys2Proof

/-! ### A 32-bit access of BAR0 -/

section
variable {s : State} {off : Nat} (hd : s.pcie.d3hot = false) (hr : s.pcie.inReset = false) (ho : off % 4 = 0)
include hd hr ho

theorem registerWrite_runs {bar : Nat} {d : List Byte} (hb : bar < 8) (hb2 : bar ≠ 2) (hlen : d.length = 4) :
    Runs (.registerWrite bar off d) s (wrWord .host bar off (BitVec.ofNat 32 (natOf d)) s) := by
  have halign : aligned d.length 4 8 off = true := by
    have h4 : (4 : Nat).log2 = 2 := by decide
    simp [aligned, hlen, ho, h4]
  have hwin : ¬ (inWindow bar off d.length = true ∧ aligned d.length 4 256 off = true) := by
    simp [inWindow, hb2]
  have hbus : busWrite .host bar off d s = wrWord .host bar off (BitVec.ofNat 32 (natOf d)) s := by
    unfold busWrite
    rw [if_neg (by rw [hlen]; decide)]
  refine congrArg Host.Outcome.next ((if_neg (by simp [hr])).trans ((if_neg (Nat.not_le.2 hb)).trans ((if_neg (by simp [hd])).trans
    ((if_neg hwin).trans ((if_pos halign).trans hbus)))))

theorem rcRegisterRead_runs : Runs (.rcRegisterRead 0 off 4) s { readEffect .host 0 off s with
    pcie := { (readEffect .host 0 off s).pcie with readData := (rdWord 0 off s).setWidth 64 } } := by
  have halign : aligned 4 1 8 off = true := by
    have h4 : (4 : Nat).log2 = 2 := by decide
    simp [aligned, ho, h4]
  have hbus : busRead .host 0 off 4 s = ((rdWord 0 off s).setWidth 64, readEffect .host 0 off s) := by
    have hbase : off / 4 * 4 = off := by omega
    unfold busRead
    dsimp only
    rw [hbase, ho, if_neg (by decide)]
    congr 1
    apply BitVec.eq_of_toNat_eq
    have hlt := (rdWord 0 off s).isLt
    rw [field, BitVec.toNat_ofNat, BitVec.toNat_setWidth]
    simp only [Nat.mul_zero, Nat.pow_zero, Nat.div_one]
    rw [Nat.mod_eq_of_lt hlt]
  refine congrArg Host.Outcome.next ((if_neg (by simp [hr])).trans ((if_neg (by decide)).trans ((if_neg (by simp [hd])).trans
    ((if_pos halign).trans ?_))))
  rw [hbus]

end

theorem rdWord_writable {s : State} (h : Writable s) (off : Nat) : rdWord 0 off s = BitVec.ofNat 32 (rdBar0 off s) := by
  obtain ⟨hl, hst⟩ := h
  have hserved : readServed 0 off s = true := by
    unfold readServed lcScrapped
    rw [if_neg (by simp [hl]), if_neg (by simpa using hst)]
  unfold rdWord
  rw [hserved]
  rfl

/-- What a read of a register of BAR0 that is neither a noise source's status nor a timestamp brings about. -/
theorem readEffect_plain {s : State} {off : Nat} (h : Writable s) (hrng : rowAt 0x800100 0x40 4 off = none)
    (hport : rowAt 0x601000 0x200 8 off = none) : readEffect .host 0 off s =
      (List.range 4).foldl (fun s f => rcClear off f s) (openGate (BitVec.ofNat 16 (0x9000 + blockOf off)) s) := by
  obtain ⟨hl, hst⟩ := h
  have hserved : readServed 0 off s = true := by
    unfold readServed lcScrapped
    rw [if_neg (by simp [hl]), if_neg (by simpa using hst)]
  unfold readEffect
  rw [if_neg (by simp [hserved]), hrng, hport]

/-- Clearing counters moves the counters alone. -/
theorem rcClear_frame (off : Nat) (l : List Nat) (s : State) : ∃ k, l.foldl (fun s f => rcClear off f s) s = { s with time := k } := by
  induction l generalizing s with
  | nil => exact ⟨_, rfl⟩
  | cons f l ih =>
    obtain ⟨k, h⟩ := ih (rcClear off f s)
    exact ⟨k, h⟩

/-! ### Counters (R9, R13) -/

/-- The table once a counter's fields are cleared. -/
theorem rc_clear (off : Nat) (l : List Nat) (s : State) (r : Nat) : Table.get {} (l.foldl (fun s f => rcClear off f s) s).time.rc r =
    if ∃ f ∈ l, 4 * off + f = r then { Table.get {} s.time.rc r with base := 0 } else Table.get {} s.time.rc r := by
  induction l generalizing s with
  | nil => simp
  | cons f l ih =>
    rw [List.foldl_cons, ih]
    by_cases hf : 4 * off + f = r
    · have h : Table.get {} (rcClear off f s).time.rc r = { Table.get {} s.time.rc r with base := 0 } := by
        rw [← hf]
        exact Table.get_set_same ({} : RcCount) _ _ _
      have hex : ∃ f' ∈ f :: l, 4 * off + f' = r := ⟨f, List.mem_cons_self, hf⟩
      rw [h, if_pos hex]
      split
      all_goals rfl
    · have h : Table.get {} (rcClear off f s).time.rc r = Table.get {} s.time.rc r :=
        Table.get_set_other ({} : RcCount) _ _ (Ne.symm hf)
      rw [h]
      simp [hf]

theorem rc_closeCycle (s : State) (r : Nat) : Table.get {} (closeCycle s).time.rc r =
    if (Table.get {} s.time.rc r).now = 0 then Table.get {} s.time.rc r
    else { base := min ((Table.get {} s.time.rc r).base + (Table.get {} s.time.rc r).now) (Table.get {} s.time.rc r).cap } :=
  get_map_default ({} : RcCount) (f := fun v => if v.now = 0 then v else { base := min (v.base + v.now) v.cap }) (if_pos rfl) _ r

/-- A read of such a register: its value, its counters cleared, and nothing else of the blocks named. -/
theorem read_plain {s : State} {off : Nat} (hw : Writable s) (hd : s.pcie.d3hot = false) (hr : s.pcie.inReset = false)
    (ho : off % 4 = 0) (hrng : rowAt 0x800100 0x40 4 off = none) (hport : rowAt 0x601000 0x200 8 off = none) :
    ∃ u, Runs (.rcRegisterRead 0 off 4) s u ∧ u.pcie.readData = (BitVec.ofNat 32 (rdBar0 off s)).setWidth 64 ∧
      (∀ r, Table.get {} u.time.rc r = if ∃ f ∈ List.range 4, 4 * off + f = r then { Table.get {} s.time.rc r with base := 0 }
        else Table.get {} s.time.rc r) ∧ u.ks = s.ks ∧ u.ush = s.ush ∧ u.fc = s.fc ∧ u.mem = s.mem := by
  have hrun := rcRegisterRead_runs hd hr ho
  have hrc := rc_clear off (List.range 4) (openGate (BitVec.ofNat 16 (0x9000 + blockOf off)) s)
  obtain ⟨k, hk⟩ := rcClear_frame off (List.range 4) (openGate (BitVec.ofNat 16 (0x9000 + blockOf off)) s)
  rw [rdWord_writable hw, readEffect_plain hw hrng hport, hk] at hrun
  rw [hk] at hrc
  exact ⟨_, hrun, rfl, hrc, rfl, rfl, rfl, rfl⟩

/-- The register of a class's counter. -/
theorem rdBar0_fcCnt (c : FaultClass) (s : State) : rdBar0 (fcCnt c) s = (Table.get {} s.time.rc (4 * fcCnt c)).base := by
  cases c <;> rfl

theorem fcCnt_plain (c : FaultClass) : rowAt 0x800100 0x40 4 (fcCnt c) = none ∧ rowAt 0x601000 0x200 8 (fcCnt c) = none ∧
    fcCnt c % 4 = 0 := by
  cases c <;> decide

/-! ### Writes that are not taken (R443, R455) -/

theorem not_writable {s : State} (h : s.fc.lock = true ∨ s.lcs.st = 4) : ¬ Writable s := by
  rintro ⟨hl, hst⟩
  exact h.elim (fun h => Bool.noConfusion (hl.symm.trans h)) hst

theorem barred_runs {s : State} {f : State → State} (h : ¬ Writable s) : Host.Outcome.next (hostWrite f s) = (.next s : Out) :=
  congrArg Host.Outcome.next (hostWrite_barred h)

/-- Settles O12: writes and reads through the bus, counters through the table of their fields, ignored writes through their guard. -/
theorem registersReadWriteAndIgnore : Obligations.RegistersReadWriteAndIgnore := by
  unfold Obligations.RegistersReadWriteAndIgnore
  refine ⟨?_, ⟨?_, ?_⟩, ?_⟩
  · intro s v hw hd hr
    have hv : BitVec.ofNat 32 (natOf (bytesOf v.toNat 4)) = v := by
      rw [natOf_bytesOf, Nat.mod_eq_of_lt v.isLt, BitVec.ofNat_toNat, BitVec.setWidth_eq]
    constructor
    · have hwr := registerWrite_runs hd hr (off := 0x300008) (bar := 0) (by decide) (by decide) (by decide) (bytesOf_length v.toNat 4)
      rw [hv, wrWord, hostWrite_writable hw] at hwr
      have hks : wrBar0 .host 0x300008 v (openGate (BitVec.ofNat 16 (0x9000 + blockOf 0x300008)) s) =
          { openGate (BitVec.ofNat 16 (0x9000 + blockOf 0x300008)) s with ks := { s.ks with timeBound := v } } := rfl
      rw [if_pos rfl, hks] at hwr
      obtain ⟨u, hrun, hdata, -, hkeep, -, -, -⟩ := read_plain (s := { openGate (BitVec.ofNat 16 (0x9000 + blockOf 0x300008)) s with
        ks := { s.ks with timeBound := v } }) (off := 0x300008) hw hd hr (by decide) (by decide) (by decide)
      refine ⟨_, u, hwr, rfl, hrun, hdata.trans ?_, hkeep⟩
      exact congrArg (BitVec.setWidth 64) (BitVec.eq_of_toNat_eq ((BitVec.toNat_ofNat _ _).trans (Nat.mod_eq_of_lt v.isLt)))
    · have hwr := registerWrite_runs hd hr (off := 0x20000C) (bar := 0) (by decide) (by decide) (by decide) (bytesOf_length v.toNat 4)
      rw [hv, wrWord, hostWrite_writable hw] at hwr
      have hush : wrBar0 .host 0x20000C v (openGate (BitVec.ofNat 16 (0x9000 + blockOf 0x20000C)) s) =
          { openGate (BitVec.ofNat 16 (0x9000 + blockOf 0x20000C)) s with ush := { s.ush with deferTh := v.setWidth 24 } } := rfl
      rw [if_pos rfl, hush] at hwr
      obtain ⟨u, hrun, hdata, -, -, hkeep, -, -⟩ := read_plain (s := { openGate (BitVec.ofNat 16 (0x9000 + blockOf 0x20000C)) s with
        ush := { s.ush with deferTh := v.setWidth 24 } }) (off := 0x20000C) hw hd hr (by decide) (by decide) (by decide)
      refine ⟨_, u, hwr, rfl, hrun, hdata.trans (BitVec.eq_of_toNat_eq ?_), hkeep⟩
      have hread : rdBar0 0x20000C { openGate (BitVec.ofNat 16 (0x9000 + blockOf 0x20000C)) s with
          ush := { s.ush with deferTh := v.setWidth 24 } } = v.toNat % 2 ^ 24 := BitVec.toNat_setWidth _ _
      rw [hread, BitVec.toNat_setWidth, BitVec.toNat_ofNat, BitVec.toNat_ofNat]
      omega
  · intro s reg f w hw hnow t
    have hbump : Table.get {} (bump reg f w s).time.rc (4 * reg + f) =
        { Table.get {} s.time.rc (4 * reg + f) with
          now := min ((Table.get {} s.time.rc (4 * reg + f)).now + 1) (2 ^ w - 1), cap := 2 ^ w - 1 } :=
      Table.get_set_same ({} : RcCount) _ _ _
    have hone : min (0 + 1) (2 ^ w - 1) = 1 := by
      have := Nat.one_lt_two_pow (Nat.pos_iff_ne_zero.1 hw)
      omega
    refine (rc_closeCycle (bump reg f w s) _).trans ?_
    rw [hbump, hnow, hone]
    rfl
  · intro s c n hw hd hr hn hlt
    obtain ⟨hrng, hport, halign⟩ := fcCnt_plain c
    obtain ⟨u, hrun, hdata, hrc, -, -, hfc, hmem⟩ := read_plain hw hd hr halign hrng hport
    refine ⟨u, hrun, ?_, ?_, fun r hr => ?_, hfc, hmem⟩
    · rw [hdata, rdBar0_fcCnt, hn]
      refine BitVec.eq_of_toNat_eq ?_
      rw [BitVec.toNat_setWidth, BitVec.toNat_ofNat, BitVec.toNat_ofNat, Nat.mod_eq_of_lt hlt]
    · rw [hrc, if_pos ⟨0, by decide, rfl⟩, hn]
    · rw [hrc, if_neg ?_]
      rintro ⟨f, hf, rfl⟩
      have := List.mem_range.1 hf
      omega
  · intro s h
    have hb := not_writable h
    refine ⟨fun who bar off v => hostWrite_barred hb, fun i => ⟨barred_runs hb, barred_runs hb, barred_runs hb, barred_runs hb, barred_runs hb⟩,
      fun i d => ⟨barred_runs hb, barred_runs hb⟩, fun d => barred_runs hb, barred_runs hb, barred_runs hb, barred_runs hb, barred_runs hb,
      fun u => barred_runs hb, fun bar off d h8 h2 hlen ho hd => ?_⟩
    cases hr : s.pcie.inReset with
    | true => exact congrArg Host.Outcome.next (if_pos hr)
    | false =>
      have hrun := registerWrite_runs hd hr ho h8 h2 hlen
      rwa [wrWord, hostWrite_barred hb] at hrun

end Sys2Proof.Machine
end

section
/-!
SUPPORT. Parity over flits and stored words (R24): as written it is right, and one wrong bit is found.
-/
namespace Sys2Proof.Machine

open Sys2Proof

/-! ### The parity of a word -/

/-- The parity of n bits. -/
def parityOf (n : Nat) (f : Nat → Bool) : Bool := (List.range n).foldl (fun p k => xor p (f k)) false

theorem parityOf_succ (n : Nat) (f : Nat → Bool) : parityOf (n + 1) f = xor (parityOf n f) (f n) := by
  unfold parityOf
  rw [List.range_succ, List.foldl_append]
  rfl

/-- One bit turned turns the parity. -/
theorem parityOf_flip (k : Nat) (f : Nat → Bool) (n : Nat) :
    parityOf n (fun j => xor (f j) (decide (j = k))) = xor (parityOf n f) (decide (k < n)) := by
  induction n with
  | zero => rfl
  | succ n ih =>
    rw [parityOf_succ, parityOf_succ, ih]
    have hlt : decide (k < n + 1) = xor (decide (k < n)) (decide (n = k)) := by
      rcases Nat.lt_trichotomy k n with h | h | h
      · simp [h, Nat.lt_succ_of_lt h, Nat.ne_of_gt h]
      · simp [h]
      · simp [Nat.not_lt.2 (Nat.le_of_lt h), Nat.not_lt.2 h, Nat.ne_of_lt h]
    rw [hlt]
    rw [Bool.xor_assoc, Bool.xor_assoc, Bool.xor_left_comm (decide (k < n))]

theorem getLsbD_flip {w : Nat} (x : BitVec w) {k : Nat} (hk : k < w) :
    (x ^^^ BitVec.ofNat w (2 ^ k)).getLsbD = fun j => xor (x.getLsbD j) (decide (j = k)) := by
  funext j
  rw [BitVec.getLsbD_xor, BitVec.getLsbD_ofNat, Nat.testBit_two_pow]
  by_cases h : j = k
  · simp [h, hk]
  · simp [h, Ne.symm h]

theorem evenParity_flip {w : Nat} (x : BitVec w) {k : Nat} (hk : k < w) :
    evenParity (x ^^^ BitVec.ofNat w (2 ^ k)) = !evenParity x := by
  have h : parityOf w (x ^^^ BitVec.ofNat w (2 ^ k)).getLsbD = xor (parityOf w x.getLsbD) (decide (k < w)) := by
    rw [getLsbD_flip x hk]
    exact parityOf_flip k _ w
  rw [decide_eq_true hk, Bool.xor_true] at h
  exact h

theorem evenParity_flip_ne {w : Nat} (x : BitVec w) {k : Nat} (hk : k < w) :
    (evenParity x == evenParity (x ^^^ BitVec.ofNat w (2 ^ k))) = false := by
  rw [evenParity_flip x hk]
  cases evenParity x <;> rfl

/-! ### The parity bits of a flit's slices -/

/-- The number of these bits. -/
def bitSum (n : Nat) (f : Nat → Bool) : Nat := (List.range n).foldl (fun a k => a + if f k then 2 ^ k else 0) 0

theorem bitSum_succ (n : Nat) (f : Nat → Bool) : bitSum (n + 1) f = bitSum n f + if f n then 2 ^ n else 0 := by
  unfold bitSum
  rw [List.range_succ, List.foldl_append]
  rfl

theorem bitSum_lt (n : Nat) (f : Nat → Bool) : bitSum n f < 2 ^ n := by
  induction n with
  | zero => exact Nat.one_pos
  | succ n ih =>
    rw [bitSum_succ, Nat.pow_succ]
    split <;> omega

theorem testBit_bitSum {n j : Nat} (f : Nat → Bool) (hj : j < n) : (bitSum n f).testBit j = f j := by
  induction n with
  | zero => exact absurd hj (Nat.not_lt_zero j)
  | succ n ih =>
    rw [bitSum_succ]
    rcases Nat.lt_succ_iff_lt_or_eq.1 hj with h | rfl
    · split
      · rw [Nat.add_comm, Nat.testBit_two_pow_add_gt h, ih h]
      · exact ih h
    · split
      next hf => rw [Nat.add_comm, Nat.testBit_two_pow_add_eq, Nat.testBit_lt_two_pow (bitSum_lt j f), hf]; rfl
      next hf => rw [Nat.add_zero, Nat.testBit_lt_two_pow (bitSum_lt j f), Bool.eq_false_iff.2 hf]

theorem sliceParity_bit (d : BitVec 512) {j : Nat} (hj : j < 16) :
    (sliceParity d).getLsbD j = evenParity (d.extractLsb' (32 * j) 32) := by
  have h : sliceParity d = BitVec.ofNat 16 (bitSum 16 (fun j => evenParity (d.extractLsb' (32 * j) 32))) := rfl
  rw [h, BitVec.getLsbD_ofNat, testBit_bitSum _ hj, decide_eq_true hj, Bool.true_and]

theorem slice_flip (d : BitVec 512) {k : Nat} (hk : k < 512) : (d ^^^ BitVec.ofNat 512 (2 ^ k)).extractLsb' (32 * (k / 32)) 32 =
    d.extractLsb' (32 * (k / 32)) 32 ^^^ BitVec.ofNat 32 (2 ^ (k % 32)) := by
  apply BitVec.eq_of_getLsbD_eq
  intro i hi
  rw [getLsbD_flip _ (Nat.mod_lt k (by decide)), BitVec.getLsbD_extractLsb', getLsbD_flip d hk]
  dsimp only
  rw [BitVec.getLsbD_extractLsb']
  have h : (32 * (k / 32) + i = k) ↔ i = k % 32 := by omega
  simp [hi, h]

theorem sliceParity_flip_ne (d : BitVec 512) {k : Nat} (hk : k < 512) : (sliceParity d == sliceParity (d ^^^ BitVec.ofNat 512 (2 ^ k))) = false := by
  have hj : k / 32 < 16 := by omega
  refine beq_false_of_ne fun h => ?_
  have hbit := congrArg (fun x : BitVec 16 => x.getLsbD (k / 32)) h
  rw [sliceParity_bit d hj, sliceParity_bit _ hj, slice_flip d hk, evenParity_flip _ (Nat.mod_lt k (by decide))] at hbit
  exact (Bool.eq_not_self _).1 hbit

/-! ### Flits and stored words -/

theorem flit_intact (d : BitVec 512) (h : W64) : (Flit.of d h).intact = true := by simp [Flit.of, Flit.intact]

theorem flit_data_found (d : BitVec 512) (h : W64) {k : Nat} (hk : k < 512) :
    ({ Flit.of d h with data := d ^^^ BitVec.ofNat 512 (2 ^ k) } : Flit).intact = false := by
  unfold Flit.intact Flit.of
  dsimp only
  rw [sliceParity_flip_ne d hk, Bool.false_and]

theorem flit_header_found (d : BitVec 512) (h : W64) {k : Nat} (hk : k < 64) :
    ({ Flit.of d h with header := h ^^^ BitVec.ofNat 64 (2 ^ k) } : Flit).intact = false := by
  unfold Flit.intact Flit.of
  dsimp only
  rw [evenParity_flip_ne h hk, Bool.and_false]

theorem storedWord_intact (w : W32) : (StoredWord.of w).intact = true := by simp [StoredWord.of, StoredWord.intact]

theorem storedWord_found (w : W32) {k : Nat} (hk : k < 32) :
    ({ StoredWord.of w with word := w ^^^ BitVec.ofNat 32 (2 ^ k) } : StoredWord).intact = false := evenParity_flip_ne w hk

end Sys2Proof.Machine
end

section
/-!
SUPPORT. Replays, credits and re-reads on the fabric (R20–R31).
-/
namespace Sys2Proof.Machine

open Sys2Proof

/-! ### A flit at its receiver (R25) -/

section
variable {s : State} {u lost : Half} {src : Byte} {x : Nat} {n : W64} {f : FlitRead} (hl : Live s)
  (hu : flitUnit u = some (src, lost)) (hp : unitPresent s lost = true) (hr : unitRetired s lost = false)
include hl hu hp hr

theorem flitReceive_runs : exec (.flitReceive u x n f) s = .next (
    if f.flit.intact then
      if failsOf s u x n = 0 then s
      else
        report (namedBy (setRetry u none s) { cls := .f1, source := src, unit := u, cause := 0x01, addr := n,
                                              detail0 := BitVec.ofNat 64 (failsOf s u x n) } (ownerAt s u x f.core))
          (match ownerAt s u x f.core with
          | some tid => touch tid .f1 (setRetry u none s)
          | none => setRetry u none s)
    else if failsOf s u x n < 3 then
      replayDelay u x f.core
        (setRetry u (some { xfer := x, flit := n, fails := failsOf s u x n + 1, buffer := retryBuffer s x n.toNat }) s)
    else
      report (namedBy s { cls := .f3, source := src, unit := lost, cause := 0x02, addr := n } (ownerAt s u x f.core))
        (match ownerAt s u x f.core with
        | some tid =>
          if unitKind lost == 3 && unitIdx lost % 16 < 4 then opDies tid .f3 (dropXfer x (setRetry u none s))
          else opFails tid .f3 (dropXfer x (setRetry u none s))
        | none => dropXfer x (setRetry u none s))) := by
  refine congrArg Host.Outcome.next ((unlessLocked_live hl).trans ?_)
  unfold flitReceive
  rw [hu]
  exact if_neg (by simp [hp, hr])

theorem flitReceive_replayed (hf : f.flit.intact = false) (hn : failsOf s u x n < 3) : Runs (.flitReceive u x n f) s
    (replayDelay u x f.core
      (setRetry u (some { xfer := x, flit := n, fails := failsOf s u x n + 1, buffer := retryBuffer s x n.toNat }) s)) :=
  (flitReceive_runs hl hu hp hr).trans (congrArg Host.Outcome.next ((if_neg (by simp [hf])).trans (if_pos hn)))

theorem flitReceive_lost (hf : f.flit.intact = false) (hn : 3 ≤ failsOf s u x n) : Runs (.flitReceive u x n f) s
    (report (namedBy s { cls := .f3, source := src, unit := lost, cause := 0x02, addr := n } (ownerAt s u x f.core))
      (match ownerAt s u x f.core with
      | some tid =>
        if unitKind lost == 3 && unitIdx lost % 16 < 4 then opDies tid .f3 (dropXfer x (setRetry u none s))
        else opFails tid .f3 (dropXfer x (setRetry u none s))
      | none => dropXfer x (setRetry u none s))) :=
  (flitReceive_runs hl hu hp hr).trans (congrArg Host.Outcome.next ((if_neg (by simp [hf])).trans (if_neg (Nat.not_lt.2 hn))))

end

/-! ### An abandoned transfer (R25) -/

section
variable (s : State) (x : Nat)

theorem corex_dropXfer (c : Nat) : corex (dropXfer x s) c =
    { corex s c with dma := { (corex s c).dma with queue := (corex s c).dma.queue.filter (fun y => !y.xfers.contains x) } } :=
  get_map_default ({} : CoreX) (f := fun v => { v with dma := { v.dma with queue := v.dma.queue.filter (fun y => !y.xfers.contains x) } })
    rfl s.corex c

theorem meWin_dropXfer (c k : Nat) : meWin (dropXfer x s) c k =
    { meWin s c k with queue := (meWin s c k).queue.filter (fun y => !y.xfers.contains x) } :=
  get_map_default ({} : MeWin) (f := fun v => { v with queue := v.queue.filter (fun y => !y.xfers.contains x) }) rfl s.mewin (4 * c + k)

end

/-! ### Credits (R20, R22) -/

/-- What an injection of n flits makes of the transfer. -/
def Xfer.sent (x : Xfer) (n : Nat) : Xfer := { x with held := x.held - n, flying := x.flying + n }

/-- A transfer that holds nothing injects nothing: only the table of credits is written, with what it says. -/
theorem inject_idle {s : State} (h : ∀ x ∈ s.fabric.xfers, x.held = 0) (id : Nat) :
    (inject id s).fabric.xfers = s.fabric.xfers ∧ (∀ a b, creditsUsed (inject id s) a b = creditsUsed s a b) ∧
      ∃ b, inject id s = { s with fabric := b } := by
  unfold inject
  split
  · exact ⟨rfl, fun _ _ => rfl, _, rfl⟩
  next x hx =>
    have h0 : min x.held (Config.credits - creditsUsed s x.src x.dst) = 0 := by rw [h x (List.mem_of_find?_eq_some hx), Nat.zero_min]
    dsimp only
    rw [h0]
    refine ⟨?_, fun a b => ?_, _, rfl⟩
    · refine (List.map_congr_left fun y _ => ?_).trans (List.map_id _)
      split
      all_goals rfl
    · unfold creditsUsed
      dsimp only
      by_cases hk : creditKey a b = creditKey x.src x.dst
      · rw [hk, Table.get_set_same]
        rfl
      · rw [Table.get_set_other _ _ _ hk]

theorem forward_direct {s : State} (h : ∀ x ∈ s.fabric.xfers, x.relay = none) (id : Nat) : forward id s = s := by
  unfold forward
  have hnone : (s.fabric.xfers.find? (fun x => x.id == id)).bind (fun x => x.relay) = none := by
    cases hf : s.fabric.xfers.find? (fun x => x.id == id) with
    | none => rfl
    | some x => exact h x (List.mem_of_find?_eq_some hf)
  rw [hnone]

/-- Where nothing is held and nothing relayed, a credit that returns lets nothing go. -/
theorem letGo_idle (l : List Nat) {s : State} (hh : ∀ x ∈ s.fabric.xfers, x.held = 0) (hr : ∀ x ∈ s.fabric.xfers, x.relay = none) :
    (l.foldl (fun s id => forward id (inject id s)) s).fabric.xfers = s.fabric.xfers ∧
      (∀ a b, creditsUsed (l.foldl (fun s id => forward id (inject id s)) s) a b = creditsUsed s a b) ∧
      ∃ b, l.foldl (fun s id => forward id (inject id s)) s = { s with fabric := b } := by
  induction l generalizing s with
  | nil => exact ⟨rfl, fun _ _ => rfl, _, rfl⟩
  | cons id l ih =>
    obtain ⟨hx, hc, b, hb⟩ := inject_idle hh id
    have hf : forward id (inject id s) = inject id s := forward_direct (by rw [hx]; exact hr) id
    rw [List.foldl_cons, hf]
    obtain ⟨hx', hc', b', hb'⟩ := ih (s := inject id s) (by rw [hx]; exact hh) (by rw [hx]; exact hr)
    refine ⟨hx'.trans hx, fun a c => (hc' a c).trans (hc a c), b', ?_⟩
    rw [hb', hb]

/-- The one transfer of the fabric injects what its credits allow. -/
theorem inject_only {s : State} {x : Xfer} (h : s.fabric.xfers = [x]) : inject x.id s = { s with fabric := { s.fabric with
    xfers := [x.sent (min x.held (Config.credits - creditsUsed s x.src x.dst))]
    creditsUsed := Table.set 0 s.fabric.creditsUsed (creditKey x.src x.dst)
      (creditsUsed s x.src x.dst + min x.held (Config.credits - creditsUsed s x.src x.dst)) } } := by
  unfold inject
  rw [h, List.find?_cons_of_pos (by simp)]
  simp [Xfer.sent]

theorem forward_only {s : State} {x : Xfer} {l : Leg} (h : s.fabric.xfers = [x]) (hl : x.relay = some l) :
    forward x.id s = { s with fabric := { s.fabric with
      xfers := [{ x with relay := some { l with
        held := l.held - min l.held (Config.credits - creditsUsed s hubStop l.dst)
        flying := l.flying + min l.held (Config.credits - creditsUsed s hubStop l.dst) } }]
      creditsUsed := Table.set 0 s.fabric.creditsUsed (creditKey hubStop l.dst)
        (creditsUsed s hubStop l.dst + min l.held (Config.credits - creditsUsed s hubStop l.dst)) } } := by
  unfold forward
  rw [h, List.find?_cons_of_pos (by simp), Option.bind_some, hl]
  simp

/-- The credit is free, and the flit that gave it is noted at its transfer. -/
def creditFreed (a b : Nat) (s : State) : State :=
  let first := (s.fabric.xfers.find? (fun x => x.flies a b)).map (fun x => x.id)
  { s with fabric := { s.fabric with
    creditsUsed := Table.set 0 s.fabric.creditsUsed (creditKey a b) (creditsUsed s a b - 1)
    xfers := s.fabric.xfers.map (fun (x : Xfer) => if first = some x.id then x.consumed a b else x) } }

theorem creditReturn_runs {s : State} {a b : Nat} (hl : Live s) (hc : creditsUsed s a b ≠ 0) : Runs (.creditReturn a b) s
    (((creditFreed a b s).fabric.xfers.map (fun (x : Xfer) => x.id)).foldl (fun s id => forward id (inject id s)) (creditFreed a b s)) :=
  congrArg Host.Outcome.next ((unlessLocked_live hl).trans (if_neg hc))

theorem creditsUsed_creditFreed (a b : Nat) (s : State) : creditsUsed (creditFreed a b s) a b = creditsUsed s a b - 1 :=
  Table.get_set_same (0 : Nat) _ _ _

theorem creditsUsed_creditFreed_other {a b c d : Nat} (s : State) (h : creditKey c d ≠ creditKey a b) :
    creditsUsed (creditFreed a b s) c d = creditsUsed s c d := Table.get_set_other (0 : Nat) _ _ h

/-- With one transfer under way, whose flit it was. -/
theorem creditFreed_only {s : State} {a b : Nat} {x : Xfer} (h : s.fabric.xfers = [x]) (hf : x.flies a b = true) :
    (creditFreed a b s).fabric.xfers = [x.consumed a b] := by
  have hfind : [x].find? (fun y => y.flies a b) = some x := List.find?_cons_of_pos hf
  unfold creditFreed
  rw [h, hfind]
  simp

theorem Xfer.consumed_direct {x : Xfer} {a b : Nat} (hs : x.src = a) (hd : x.dst = b) (hf : 1 ≤ x.flying) :
    x.consumed a b = { x with flying := x.flying - 1, relay := x.relay.map (fun l => { l with held := l.held + 1 }) } :=
  if_pos ⟨hs, hd, by omega⟩

/-- The credit goes to the transfer that waits for it. -/
theorem creditReturn_injects {s : State} {a b : Nat} {x : Xfer} (hl : Live s) (hc : creditsUsed s a b = Config.credits)
    (hpos : Config.credits ≠ 0) (hone : s.fabric.xfers = [x]) (hsrc : x.src = a) (hdst : x.dst = b) (hrel : x.relay = none)
    (hheld : 1 ≤ x.held) (hfly : 1 ≤ x.flying) : Runs (.creditReturn a b) s { s with fabric := { s.fabric with
      xfers := [{ x with held := x.held - 1 }]
      creditsUsed := Table.set 0 s.fabric.creditsUsed (creditKey a b) Config.credits } } := by
  subst hsrc hdst
  have hflies : x.flies x.src x.dst = true := by
    have : x.flying ≠ 0 := by omega
    simp [Xfer.flies, this]
  have hcons : x.consumed x.src x.dst = { x with flying := x.flying - 1 } := by
    rw [Xfer.consumed_direct rfl rfl hfly, hrel]
    rfl
  have hxs := creditFreed_only hone hflies
  rw [hcons] at hxs
  have hused := creditsUsed_creditFreed x.src x.dst s
  have hrun := creditReturn_runs hl (hc ▸ hpos)
  have hinj := inject_only hxs
  have hmin : min x.held (Config.credits - (Config.credits - 1)) = 1 := by omega
  simp only [hused, hc, hmin] at hinj
  have hdirect := forward_direct (s := inject x.id (creditFreed x.src x.dst s)) (by rw [hinj]; simp [Xfer.sent, hrel]) x.id
  rw [hxs] at hrun
  simp only [List.map_cons, List.map_nil, List.foldl_cons, List.foldl_nil, hdirect] at hrun
  have hback : ({ x with flying := x.flying - 1 } : Xfer).sent 1 = { x with held := x.held - 1 } := by
    unfold Xfer.sent
    rw [Nat.sub_add_cancel hfly]
  have htable : (creditFreed x.src x.dst s).fabric.creditsUsed = Table.set 0 s.fabric.creditsUsed (creditKey x.src x.dst) (creditsUsed s x.src x.dst - 1) := rfl
  refine hrun.trans (congrArg Host.Outcome.next (hinj.trans ?_))
  rw [hback, htable, Table.set_set, Nat.sub_add_cancel (Nat.pos_of_ne_zero hpos)]
  rfl

/-- A flit of a relayed transfer goes on with the hub's credit. -/
theorem creditReturn_relays {s : State} {a : Nat} {x : Xfer} {l : Leg} (hl : Live s) (ha : a < 16) (hc : creditsUsed s a hubStop ≠ 0)
    (hone : s.fabric.xfers = [x]) (hsrc : x.src = a) (hdst : x.dst = hubStop) (hrel : x.relay = some l) (hheld : x.held = 0)
    (hfly : 1 ≤ x.flying) (hlh : l.held = 0) (hcred : creditsUsed s hubStop l.dst < Config.credits) :
    ∃ t, Runs (.creditReturn a hubStop) s t ∧
      t.fabric.xfers = [{ x with flying := x.flying - 1, relay := some { l with flying := l.flying + 1 } }] ∧
      creditsUsed t a hubStop = creditsUsed s a hubStop - 1 ∧ creditsUsed t hubStop l.dst = creditsUsed s hubStop l.dst + 1 := by
  have hflies : x.flies a hubStop = true := by
    have : x.flying ≠ 0 := by omega
    simp [Xfer.flies, hsrc, hdst, this]
  have hcons : x.consumed a hubStop = { x with flying := x.flying - 1, relay := some { l with held := l.held + 1 } } := by
    rw [Xfer.consumed_direct hsrc hdst hfly, hrel]
    rfl
  have hkey : creditKey hubStop l.dst ≠ creditKey a hubStop := by
    unfold creditKey hubStop
    omega
  have hxs := creditFreed_only hone hflies
  rw [hcons] at hxs
  have hused := creditsUsed_creditFreed a hubStop s
  have hon := creditsUsed_creditFreed_other s hkey
  have hrun := creditReturn_runs hl hc
  rw [hxs] at hrun
  generalize creditFreed a hubStop s = u at hxs hused hon hrun
  obtain ⟨hxi, hci, g, -⟩ := inject_idle (s := u) (by rw [hxs]; simp [hheld]) x.id
  have hfwd := forward_only (hxi.trans hxs) rfl
  have hmin : min (l.held + 1) (Config.credits - creditsUsed (inject x.id u) hubStop l.dst) = 1 := by
    rw [hci, hon]
    omega
  simp only [hmin] at hfwd
  simp only [List.map_cons, List.map_nil, List.foldl_cons, List.foldl_nil, hfwd] at hrun
  refine ⟨_, hrun, ?_, ?_, ?_⟩
  · simp [hlh]
  · rw [← hused, ← hci a hubStop]
    unfold creditsUsed
    dsimp only
    rw [Table.get_set_other _ _ _ hkey.symm]
  · rw [← hon, ← hci hubStop l.dst]
    unfold creditsUsed
    dsimp only
    rw [Table.get_set_same]

/-! ### Words that are read again (R27–R31) -/

/-- The one read that waits is of this line. -/
theorem rereads_only {s : State} {m : MemName} {a : W64} {q : Reread} (h : s.fabric.rereads = [q]) (hm : q.mem = m)
    (ha : q.line.toNat / 64 = a.toNat / 64) : s.fabric.rereads.filter (sameLine m a) = [q] ∧
      s.fabric.rereads.filter (fun r => !sameLine m a r) = [] := by
  have hsame : sameLine m a q = true := by simp [sameLine, hm, ha]
  rw [h]
  simp [hsame]

/-- The state in which the re-read of a control word of core k waits. -/
def controlReadAgain (k : Nat) (a : W64) (h : LineHeld) (n : Option (List Byte × Tag)) (s : State) : State :=
  { s with fabric := { s.fabric with rereads := s.fabric.rereads ++
    [{ mem := .controlStore k, line := a, held := h, core := some k, narrow := n, cycle := s.time.cycle }] } }

theorem controlReread_begun (k : Nat) (a : W64) (h : LineHeld) (n : Option (List Byte × Tag)) (s : State) :
    controlReread (stallBegin k (controlReadAgain k a h n s)) k = true :=
  List.any_eq_true.2 ⟨_, List.mem_append_right _ (List.mem_singleton.2 rfl), beq_self_eq_true _⟩

/-- A core whose control word is read again issues nothing meanwhile. -/
theorem controlWord_stalls {s : State} {k : Nat} {a : W64} {h : LineHeld} {c : Option Nat} {f : StoredWord}
    {n : Option (List Byte × Tag)} (hl : Live s) (hf : f.intact = false) (hw : writtenNow (.controlStore k) a h s = false) :
    ∃ t, Runs (.memoryParityError (.controlStore k) a h ⟨c, f, n⟩) s t ∧ fetchReread t k = true ∧ t.mem = s.mem ∧
      t.tickets = s.tickets ∧ (core t k).g = (core s k).g := by
  have hregs : (core (stallBegin k (controlReadAgain k a h n s)) k).g = (core s k).g := by
    unfold stallBegin
    rw [core_setCore]
    rfl
  have hrun : Runs (.memoryParityError (.controlStore k) a h ⟨c, f, n⟩) s (stallBegin k (controlReadAgain k a h n s)) :=
    congrArg Host.Outcome.next ((unlessLocked_live hl).trans ((if_neg (by simp [hf])).trans (if_neg (by simp [hw]))))
  refine ⟨_, hrun, ?_, rfl, rfl, hregs⟩
  exact (Bool.or_eq_true _ _).mpr (.inl (controlReread_begun k a h n s))

section
variable {s : State} {m : MemName} {a : W64} {h : LineHeld} {q : Reread} (hl : Live s) (hq : s.fabric.rereads = [q]) (hm : q.mem = m)
  (ha : q.line.toNat / 64 = a.toNat / 64)
include hl hq hm ha

theorem reread_good {f : StoredWord} (hc : q.core = none) (hh : q.held = h) (hn : readerOf s h none = none) (hf : f.intact = true) : Runs (.rereadComplete m a f) s (mergeNarrow m q.line q.narrow (report
    { cls := .f1, source := (memSource m).1, unit := (memSource m).2, cause := 0x01, addr := a,
      detail0 := BitVec.ofNat 64 (q.fails + 1) } { s with fabric := { s.fabric with rereads := [] } })) := by
  obtain ⟨hone, hgone⟩ := rereads_only hq hm ha
  refine congrArg Host.Outcome.next ((unlessLocked_live hl).trans ?_)
  unfold rereadComplete
  rw [hone]
  dsimp only
  rw [if_pos hf, hgone, hc, hh, hn]
  simp only [List.filterMap_cons_none hc, List.filterMap_nil, List.foldl_nil, List.foldl_cons]
  rfl

theorem reread_bad {f : StoredWord} (hf : f.intact = false) (h0 : q.fails = 0) : Runs (.rereadComplete m a f) s
    { s with fabric := { s.fabric with rereads := [{ q with fails := 1 }] } } := by
  obtain ⟨hone, hgone⟩ := rereads_only hq hm ha
  have hsame : sameLine m a q = true := by simp [sameLine, hm, ha]
  refine congrArg Host.Outcome.next ((unlessLocked_live hl).trans ?_)
  unfold rereadComplete
  rw [hone]
  dsimp only
  rw [if_neg (by simp [hf]), if_pos h0, hq]
  simp [hsame]

theorem reread_retires {f : StoredWord} (hc : q.core = none) (hf : f.intact = false) (h0 : q.fails ≠ 0) : Runs (.rereadComplete m a f) s
    (mergeNarrow m q.line q.narrow (retireLine q { s with fabric := { s.fabric with rereads := [] } })) := by
  obtain ⟨hone, hgone⟩ := rereads_only hq hm ha
  refine congrArg Host.Outcome.next ((unlessLocked_live hl).trans ?_)
  unfold rereadComplete
  rw [hone]
  dsimp only
  rw [if_neg (by simp [hf]), if_neg h0, hgone]
  simp only [List.filterMap_cons_none hc, List.filterMap_nil, List.filter_nil, List.foldl_nil, List.foldl_cons]

end

/-! ### The rewrite of an act store line (R29) -/

theorem writeBytes_coreMem (r o : Nat) (l : List Byte) (s : State) : (writeBytes (.ring r o) l s).mem.coreMem = s.mem.coreMem := by
  induction l generalizing o s with
  | nil => rfl
  | cons b l ih => exact ih (o + 1) _

theorem padTo_full {b : List Byte} (h : b.length = 64) : padTo (b.take 64) 64 = b := by
  rw [← h, List.take_length, padTo, Nat.sub_self]
  exact List.append_nil b

/-- The line rewritten holds the bytes, every other byte of the rings as before. -/
theorem readByte_line {s : State} {r a : Nat} {b : List Byte} (hb : b.length = 64) :
    (∀ k, k < 64 → readByte (writeBytes (.ring r a) b s) (.ring r (a + k)) = b.getD k 0) ∧
    (∀ q, (∀ k, k < 64 → q ≠ r * 2 ^ 22 + a + k) →
      Table.get 0 (writeBytes (.ring r a) b s).mem.ringMem q = Table.get 0 s.mem.ringMem q) := by
  refine ⟨fun k hk => ?_, fun q hq => ?_⟩
  · have h : (readBytes (writeBytes (.ring r a) b s) (.ring r a) b.length)[k]? = b[k]? := by rw [readBytes_writeBytes]
    have hkl : k < b.length := by omega
    rw [readBytes, List.getElem?_map, List.getElem?_range hkl, Option.map_some] at h
    rw [List.getD_eq_getElem?_getD, ← h]
    rfl
  · have hkey : (Place.ring 0 q).key = q := by simp [Place.key]
    have h := readByte_writeBytes_outside b (.ring r a) (.ring 0 q) s fun k hk => by
      have := hq k (hb ▸ hk)
      simp only [Place.apart, Place.add, Place.key, Nat.zero_mul, Nat.zero_add, Nat.add_assoc] at this ⊢
      simpa using this
    simp only [readByte, hkey] at h
    exact h

theorem writeBytes_rewrite (p : Place) (l : List Byte) (s : State) : (writeBytes p l s).fabric.rewrite = s.fabric.rewrite := by
  induction l generalizing p s with
  | nil => rfl
  | cons b l ih => exact ih _ _

/-- The line that waited for firmware is written and no longer held. -/
theorem lineRewrite_settles {s : State} {r : Nat} {a : W64} {b : List Byte} (hl : Live s)
    (hmem : (r, BitVec.ofNat 64 (a.toNat / 64 * 64)) ∈ s.fabric.rewrite) (hb : b.length = 64) :
    ∃ t, Runs (.actStoreLineRewrite r a b) s t ∧
      (∀ k, k < 64 → readByte t (.ring r (a.toNat / 64 * 64 + k)) = b.getD k 0) ∧
      (∀ q, (∀ k, k < 64 → q ≠ r * 2 ^ 22 + a.toNat / 64 * 64 + k) → Table.get 0 t.mem.ringMem q = Table.get 0 s.mem.ringMem q) ∧
      (r, BitVec.ofNat 64 (a.toNat / 64 * 64)) ∉ t.fabric.rewrite ∧ t.mem.coreMem = s.mem.coreMem ∧
      t.cores = s.cores ∧ t.tickets = s.tickets := by
  have ha : (BitVec.ofNat 64 (a.toNat / 64 * 64)).toNat = a.toNat / 64 * 64 := by
    rw [BitVec.toNat_ofNat]
    omega
  have hheld : s.fabric.rewrite.any (fun q => q.1 == r && q.2.toNat == a.toNat / 64 * 64) = true :=
    List.any_eq_true.2 ⟨_, hmem, by simp [ha]⟩
  refine ⟨_, congrArg Host.Outcome.next ((unlessLocked_live hl).trans (if_pos hheld)), ?_⟩
  rw [padTo_full hb]
  obtain ⟨hin, hout⟩ := readByte_line (r := r) (a := a.toNat / 64 * 64) hb
    (s := { s with fabric := { s.fabric with rewrite := s.fabric.rewrite.filter (fun q => !(q.1 == r && q.2.toNat == a.toNat / 64 * 64)) } })
  refine ⟨hin, hout, ?_, writeBytes_coreMem _ _ _ _, ?_⟩
  · rw [writeBytes_rewrite, List.mem_filter]
    simp [ha]
  · obtain ⟨m, g, hframe⟩ := writeBytes_memFrame (.ring r (a.toNat / 64 * 64)) b
      { s with fabric := { s.fabric with rewrite := s.fabric.rewrite.filter (fun q => !(q.1 == r && q.2.toNat == a.toNat / 64 * 64)) } }
    rw [hframe]
    exact ⟨rfl, rfl⟩

/-- Settles O13: replays by their count, credits by the one table they move, parity by the bit that turns it, re-reads by their count. -/
theorem fabricReplaysAndRetires : Obligations.FabricReplaysAndRetires := by
  unfold Obligations.FabricReplaysAndRetires
  refine ⟨⟨?_, ?_, ?_, ?_⟩, ⟨?_, ?_, ?_, ?_, ?_, ?_⟩, ?_, ?_, ?_, ?_, ?_, ?_, ?_, ?_⟩
  · intro s u lost src x n f hl hu hp hr
    refine ⟨fun hf h0 => ?_, ?_, fun hf h0 ho => ?_, fun hf hn ho => ?_, fun tid t hf hn ho ht => ?_⟩
    · exact (flitReceive_runs hl hu hp hr).trans (congrArg Host.Outcome.next ((if_pos hf).trans (if_pos h0)))
    · intro hf hn w
      refine ⟨fun c hc hx => ?_, fun h => ?_⟩
      all_goals refine (flitReceive_replayed hl hu hp hr hf hn).trans (congrArg Host.Outcome.next ?_)
      · unfold replayDelay
        rw [hc]
        exact if_pos (List.all_eq_true.2 fun y hy => by simpa using hx y hy)
      · unfold replayDelay
        rcases h with h | ⟨y, hy, hid⟩
        · rw [h]
        · split
          · refine if_neg fun hall => ?_
            simpa [hid] using List.all_eq_true.1 hall y hy
          · rfl
    · have hrun := flitReceive_runs (x := x) (n := n) (f := f) hl hu hp hr
      rw [if_pos hf, if_neg h0, ho] at hrun
      exact hrun
    · have hrun := flitReceive_lost hl hu hp hr hf hn
      rw [ho] at hrun
      exact hrun
    · have hrun := flitReceive_lost hl hu hp hr hf hn
      rw [ho] at hrun
      have hname (ev : Event) : namedBy s ev (some tid) = Event.naming ev t := by
        unfold namedBy
        dsimp only
        rw [ht]
      rw [hname] at hrun
      refine hrun.trans (congrArg (fun w => Host.Outcome.next (report _ w)) ?_)
      by_cases he : unitKind lost = 3 ∧ unitIdx lost % 16 < 4
      · rw [if_pos he]
        exact if_pos (by simp [he])
      · rw [if_neg he]
        exact if_neg (by simpa using he)
  · intro s x
    refine ⟨fun y hy => by simpa using (List.mem_filter.1 hy).2, fun c y hy => ?_, fun c k y hy => ?_, fun k hk hx => ?_, fun e he hx => ?_⟩
    · rw [corex_dropXfer] at hy
      simpa using (List.mem_filter.1 hy).2
    · rw [meWin_dropXfer] at hy
      simpa using (List.mem_filter.1 hy).2
    · obtain ⟨k', -, rfl⟩ := List.mem_map.1 hk
      by_cases h : k'.xfer = some x ∧ k'.st = .filling
      · rw [if_pos h]
        exact CopyState.noConfusion
      · rw [if_neg h] at hx ⊢
        exact fun hst => h ⟨hx, hst⟩
    · obtain ⟨e', -, rfl⟩ := List.mem_map.1 he
      by_cases h : e'.2.xfer = some x ∧ e'.2.st = .filling
      · rw [if_pos h]
        exact KeyState.noConfusion
      · rw [if_neg h] at hx ⊢
        exact fun hst => h ⟨hx, hst⟩
  · intro s x k
    unfold retryBuffer
    split
    · refine ⟨?_, fun f hf => ?_⟩
      · rw [List.length_map, List.length_range]
        exact Nat.min_le_left _ _
      · obtain ⟨j, -, rfl⟩ := List.mem_map.1 hf
        exact flit_intact _ _
    · exact ⟨Nat.zero_le _, fun f hf => absurd hf List.not_mem_nil⟩
  · intro d h
    exact ⟨flit_intact d h, fun k hk => flit_data_found d h hk, fun k hk => flit_header_found d h hk⟩
  · intro s a b hl hc
    exact congrArg Host.Outcome.next ((unlessLocked_live hl).trans (if_pos hc))
  · intro s a b hl hc hx
    have hfirst : s.fabric.xfers.find? (fun x => x.flies a b) = none :=
      List.find?_eq_none.2 fun x hmem => by simp [(hx x hmem).1]
    have hxs : (creditFreed a b s).fabric.xfers = s.fabric.xfers := by
      unfold creditFreed
      rw [hfirst]
      exact (List.map_congr_left fun y _ => if_neg (by simp)).trans (List.map_id _)
    obtain ⟨hkeep, hcred, g, hg⟩ := letGo_idle ((creditFreed a b s).fabric.xfers.map (fun (x : Xfer) => x.id)) (s := creditFreed a b s)
      (by rw [hxs]; exact fun x h => (hx x h).2.1) (by rw [hxs]; exact fun x h => (hx x h).2.2)
    refine ⟨_, creditReturn_runs hl hc, (hcred a b).trans (creditsUsed_creditFreed a b s),
      fun c d h => (hcred c d).trans (creditsUsed_creditFreed_other s h), hkeep.trans hxs, ?_, ?_, ?_, ?_⟩
    all_goals
      rw [hg]
      rfl
  · intro s a b x hl hc hpos hone hsrc hdst hrel hheld hfly
    exact creditReturn_injects hl hc hpos hone hsrc hdst hrel hheld hfly
  · intro s a x l hl ha hc hone hsrc hdst hrel hheld hfly hlh hcred
    exact creditReturn_relays hl ha hc hone hsrc hdst hrel hheld hfly hlh hcred
  · intro s x hl hx hi
    exact congrArg Host.Outcome.next ((unlessLocked_live hl).trans (if_pos (List.any_eq_true.2 ⟨x, hx, by simp [hi]⟩)))
  · intro s n hl hx
    refine congrArg Host.Outcome.next ((unlessLocked_live hl).trans (if_neg fun h => ?_))
    obtain ⟨x, hmem, h⟩ := List.any_eq_true.1 h
    rw [Bool.and_eq_true, beq_iff_eq] at h
    exact Bool.noConfusion ((hx x hmem h.1).symm.trans h.2)
  · intro s m a h c f n hl
    refine ⟨fun hf => ?_, fun hf hw => ?_⟩
    · exact congrArg Host.Outcome.next ((unlessLocked_live hl).trans (if_pos hf))
    · exact congrArg Host.Outcome.next ((unlessLocked_live hl).trans ((if_neg (by simp [hf])).trans (if_pos hw)))
  · intro s m a h f n hl hf hw hm
    refine congrArg Host.Outcome.next ((unlessLocked_live hl).trans ((if_neg (by simp [hf])).trans ((if_neg (by simp [hw])).trans ?_)))
    cases m
    case accumulator e => exact absurd rfl (hm e).1
    case keyRegister e => exact absurd rfl (hm e).2.1
    case controlStore e => exact absurd rfl (hm e).2.2
    all_goals rfl
  · intro s m a h c f n hl hf hw hm
    refine congrArg Host.Outcome.next ((unlessLocked_live hl).trans ((if_neg (by simp [hf])).trans ((if_neg (by simp [hw])).trans ?_)))
    rcases hm with rfl | rfl
    all_goals rfl
  · intro s k a h c f n hl hf hw
    exact controlWord_stalls hl hf hw
  · intro s e a f hl hf hw
    exact congrArg Host.Outcome.next ((unlessLocked_live hl).trans ((if_neg (by simp [hf])).trans (if_neg (by simp [hw]))))
  · intro s m a h q f hl hq hm ha hc hh hn gone
    exact ⟨fun hf => reread_good hl hq hm ha hc hh hn hf, fun hf h0 => reread_bad hl hq hm ha hf h0,
      fun hf h0 => reread_retires hl hq hm ha hc hf h0⟩
  · exact fun w => ⟨storedWord_intact w, fun k hk => storedWord_found w hk⟩
  · intro s r a b hl hmem hb
    exact lineRewrite_settles hl hmem hb

end Sys2Proof.Machine
end

section
/-!
SUPPORT. Ticket reads and inline tickets on their way into the buffer (R50–R52, R59, R60).
-/
namespace Sys2Proof.Machine

open Sys2Proof

/-! ### The one outcome of several completions (R59) -/

/-- The failure with the lowest address, the first of them where several have it. -/
def lowestEnd : List HostEnd → HostEnd
  | [] => .ok
  | e :: r => r.foldl (fun a b => if lowerEnd b a then b else a) e

theorem lowest_fold (e : HostEnd) (r : List HostEnd) :
    r.foldl (fun a b => if lowerEnd b a then b else a) e ∈ e :: r ∧
      ∀ g ∈ e :: r, (hostIova (r.foldl (fun a b => if lowerEnd b a then b else a) e)).toNat ≤ (hostIova g).toNat := by
  induction r generalizing e with
  | nil => simp
  | cons b r ih =>
    rw [List.foldl_cons]
    obtain ⟨hmem, hle⟩ := ih (if lowerEnd b e then b else e)
    have hmin : (hostIova (if lowerEnd b e then b else e)).toNat ≤ (hostIova e).toNat ∧
        (hostIova (if lowerEnd b e then b else e)).toNat ≤ (hostIova b).toNat := by
      by_cases h : lowerEnd b e = true
      · rw [if_pos h]
        rw [lowerEnd, decide_eq_true_iff] at h
        exact ⟨Nat.le_of_lt h, Nat.le_refl _⟩
      · rw [if_neg h]
        rw [lowerEnd, decide_eq_true_iff] at h
        exact ⟨Nat.le_refl _, Nat.not_lt.1 h⟩
    have hfirst := hle _ List.mem_cons_self
    refine ⟨?_, fun g hg => ?_⟩
    · rcases List.mem_cons.1 hmem with h | h
      · rw [h]
        split
        all_goals simp
      · exact List.mem_cons_of_mem _ (List.mem_cons_of_mem _ h)
    · rcases List.mem_cons.1 hg with rfl | hg
      · exact Nat.le_trans hfirst hmin.1
      · rcases List.mem_cons.1 hg with rfl | hg
        · exact Nat.le_trans hfirst hmin.2
        · exact hle g (List.mem_cons_of_mem _ hg)

theorem lowestEnd_spec {l : List HostEnd} {e : HostEnd} (h : e ∈ l) :
    lowestEnd l ∈ l ∧ ∀ g ∈ l, (hostIova (lowestEnd l)).toNat ≤ (hostIova g).toNat := by
  cases l with
  | nil => exact absurd h List.not_mem_nil
  | cons a r => exact lowest_fold a r

/-- The completions among which the lowest address decides. -/
def gravest (f : List HostEnd) : List HostEnd :=
  let l := f.filter (fun e => e != .ok)
  if l.any isPoisoned then l.filter isPoisoned else l

theorem outcomeOf_eq (f : List HostEnd) : outcomeOf f = lowestEnd (gravest f) := rfl

theorem mem_failed {f : List HostEnd} {e : HostEnd} : e ∈ f.filter (fun e => e != .ok) ↔ e ∈ f ∧ e ≠ .ok := by
  simp

theorem mem_of_gravest {f : List HostEnd} {e : HostEnd} (h : e ∈ gravest f) : e ∈ f ∧ e ≠ .ok := by
  unfold gravest at h
  dsimp only at h
  split at h
  · exact mem_failed.1 (List.mem_filter.1 h).1
  · exact mem_failed.1 h

theorem gravest_poisoned {f : List HostEnd} {e : HostEnd} (hf : e ∈ f) (he : e ≠ .ok) (hp : isPoisoned e = true) :
    gravest f = (f.filter (fun e => e != .ok)).filter isPoisoned :=
  if_pos (List.any_eq_true.2 ⟨e, mem_failed.2 ⟨hf, he⟩, hp⟩)

theorem gravest_clean {f : List HostEnd} (h : ∀ g ∈ f, isPoisoned g = false) : gravest f = f.filter (fun e => e != .ok) :=
  if_neg fun hany => by
    obtain ⟨g, hg, hp⟩ := List.any_eq_true.1 hany
    rw [h g (mem_failed.1 hg).1] at hp
    exact Bool.noConfusion hp

theorem exists_gravest {f : List HostEnd} {e : HostEnd} (hf : e ∈ f) (he : e ≠ .ok) : ∃ g, g ∈ gravest f := by
  by_cases h : (f.filter (fun e => e != .ok)).any isPoisoned = true
  · obtain ⟨g, hg, hp⟩ := List.any_eq_true.1 h
    obtain ⟨hgf, hg0⟩ := mem_failed.1 hg
    exact ⟨g, by rw [gravest_poisoned hgf hg0 hp]; exact List.mem_filter.2 ⟨hg, hp⟩⟩
  · exact ⟨e, by unfold gravest; dsimp only; rw [if_neg h]; exact mem_failed.2 ⟨hf, he⟩⟩

theorem outcomeOf_ok {f : List HostEnd} (h : ∀ e ∈ f, e = .ok) : outcomeOf f = .ok := by
  have hnone : f.filter (fun e => e != .ok) = [] := List.filter_eq_nil_iff.2 fun e he => by simp [h e he]
  unfold outcomeOf
  rw [hnone]
  rfl

theorem outcomeOf_failed {f : List HostEnd} {e : HostEnd} (hf : e ∈ f) (he : e ≠ .ok) : outcomeOf f ∈ f ∧ outcomeOf f ≠ .ok := by
  obtain ⟨g, hg⟩ := exists_gravest hf he
  exact mem_of_gravest (lowestEnd_spec hg).1

theorem outcomeOf_poisoned {f : List HostEnd} {e : HostEnd} (hf : e ∈ f) (he : e ≠ .ok) (hp : isPoisoned e = true) :
    isPoisoned (outcomeOf f) = true ∧ (hostIova (outcomeOf f)).toNat ≤ (hostIova e).toNat := by
  have hmem : e ∈ gravest f := by
    rw [gravest_poisoned hf he hp]
    exact List.mem_filter.2 ⟨mem_failed.2 ⟨hf, he⟩, hp⟩
  obtain ⟨hin, hle⟩ := lowestEnd_spec hmem
  refine ⟨?_, hle e hmem⟩
  rw [← outcomeOf_eq, gravest_poisoned hf he hp] at hin
  exact (List.mem_filter.1 hin).2

theorem outcomeOf_clean {f : List HostEnd} {e : HostEnd} (hf : e ∈ f) (he : e ≠ .ok) (h : ∀ g ∈ f, isPoisoned g = false) :
    (hostIova (outcomeOf f)).toNat ≤ (hostIova e).toNat := by
  have hmem : e ∈ gravest f := by
    rw [gravest_clean h]
    exact mem_failed.2 ⟨hf, he⟩
  exact (lowestEnd_spec hmem).2 e hmem

theorem outcomeOf_timeout (f : List HostEnd) (a : W64) : outcomeOf (f ++ [.timeout a]) ≠ .ok :=
  (outcomeOf_failed (List.mem_append_right f (List.mem_singleton.2 rfl)) HostEnd.noConfusion).2

theorem noteTimeouts_frame (f : List HostEnd) (s : State) : ∃ p, noteTimeouts f s = { s with pcie := p } := by
  unfold noteTimeouts
  split
  · exact ⟨_, rfl⟩
  · exact ⟨s.pcie, rfl⟩

theorem noteTimeouts_timeout (f : List HostEnd) (a : W64) (s : State) :
    noteTimeouts (f ++ [.timeout a]) s = { s with pcie := { s.pcie with aerTimeout := true } } := by
  unfold noteTimeouts
  exact if_pos (by simp)

/-! ### Ticket reads (R51) -/

section
variable {s : State} {i : Nat} {f : List HostEnd} {l : List (BitVec 512)} {r : TicketRead} {q : List TicketRead}

theorem ticketRead_arrives (hl : Live s) : Runs (.ticketReadCompletion i [] l) s (ticketsArrive i l s) :=
  congrArg Host.Outcome.next (unlessLocked_live hl)

theorem ticketRead_fails (hl : Live s) (hf : outcomeOf f ≠ .ok) :
    Runs (.ticketReadCompletion i f l) s (ticketReadFailed i (outcomeOf f) (noteTimeouts f s)) :=
  congrArg Host.Outcome.next ((unlessLocked_live hl).trans (if_pos hf))

theorem hostRead_ticketRead (i : Nat) (f : List HostEnd) (d : List Byte) (s : State) :
    hostRead (.ticketRead i) (outcomeOf f) d (noteTimeouts f s) =
      if outcomeOf f ≠ .ok then ticketReadFailed i (outcomeOf f) (noteTimeouts f s)
      else ticketsArrive i (readTickets d) (noteTimeouts f s) := by
  unfold hostRead
  exact (ite_not _ _ _).symm

theorem ticketsArrive_void (hr : (inst s i).reads = r :: q) (hv : r.void = true) :
    ticketsArrive i l s = checkDrained i (setInst i { inst s i with reads := q } s) := by
  unfold ticketsArrive
  dsimp only
  rw [hr]
  exact if_pos hv

theorem ticketsArrive_resetting (hr : (inst s i).reads = r :: q) (hv : r.void = false) (hst : (inst s i).st = .resetting) :
    ticketsArrive i l s = setInst i { inst s i with reserved := (inst s i).reserved - r.count, reads := q } s := by
  unfold ticketsArrive
  dsimp only
  rw [hr]
  exact (if_neg (by simp [hv])).trans (if_pos hst)

theorem ticketReadFailed_void {e : HostEnd} (hr : (inst s i).reads = r :: q) (hv : r.void = true) :
    ticketReadFailed i e s = checkDrained i (report
      { cls := .f0, source := 0x13, cause := 0x0D, iid := BitVec.ofNat 16 i, addr := hostIova e, detail0 := BitVec.ofNat 64 (hostDetail e) }
      (setInst i { inst s i with reads := q } s)) := by
  unfold ticketReadFailed
  dsimp only
  rw [hr]
  exact if_pos hv

theorem ticketReadFailed_stops {e : HostEnd} (hr : (inst s i).reads = r :: q) (hv : r.void = false) (hst : (inst s i).st = .active) :
    ticketReadFailed i e s = checkDrained i (attention i (report
      { cls := .f0, source := 0x13, cause := 0x0D, iid := BitVec.ofNat 16 i, addr := hostIova e, detail0 := BitVec.ofNat 64 (hostDetail e) }
      (setInst i { inst s i with
        reserved := (inst s i).reserved - (inst s i).coming (fun r => r.count)
        reads := q.map (fun r => { r with void := true }), err := 5, st := .stopped } s))) := by
  unfold ticketReadFailed
  dsimp only
  rw [hr]
  refine (if_neg (by simp [hv])).trans ?_
  rw [if_pos hst]
  rfl

end

/-! ### Tickets that enter (R51, R78) -/

/-- The ticket with number id that a queue read brings; it lies in the pool once the read's own entries are used up. -/
def queueTicket (i own id k : Nat) (b : BitVec 512) : Ticket :=
  { id := id + k, iid := i, origin := .queue, bytes := b, pool := own - k == 0 }

theorem queueTicket_pool (i own id k : Nat) (b : BitVec 512) : (queueTicket i own id k b).pool = decide (own ≤ k) :=
  decide_eq_decide.2 Nat.sub_eq_zero_iff_le

theorem enterTickets_eq (i n : Nat) (l : List (BitVec 512)) (s : State) : enterTickets i n l s = { s with
    nextTicket := s.nextTicket + l.length, tickets := s.tickets ++ l.mapIdx (queueTicket i n s.nextTicket) } := by
  induction l generalizing n s with
  | nil =>
    rw [enterTickets, List.mapIdx_nil, List.append_nil]
    rfl
  | cons b l ih =>
    have hrest : (fun k => queueTicket i n s.nextTicket (k + 1)) = queueTicket i (n - 1) (s.nextTicket + 1) := by
      funext k b
      unfold queueTicket
      rw [Nat.sub_sub, Nat.add_comm 1 k, Nat.add_right_comm, Nat.add_assoc]
    rw [enterTickets, ih, List.mapIdx_cons, hrest, List.append_assoc, List.length_cons, Nat.add_comm l.length 1, ← Nat.add_assoc]
    rfl

/-- What a read brings stands at the end of the buffer, in queue order. -/
theorem queueTicket_at (i own id : Nat) (old : List Ticket) (l : List (BitVec 512)) {n k : Nat} (hk : k < n) :
    (old ++ ((List.range n).map (fun k => l.getD k 0)).mapIdx (queueTicket i own id))[old.length + k]? =
      some (queueTicket i own id k (l.getD k 0)) := by
  rw [List.getElem?_append_right (Nat.le_add_right _ _), Nat.add_sub_cancel_left, List.getElem?_mapIdx, List.getElem?_map,
    List.getElem?_range hk]
  rfl

theorem ticketsArrive_enter {s : State} {i : Nat} {l : List (BitVec 512)} {r : TicketRead} {q : List TicketRead}
    (hr : (inst s i).reads = r :: q) (hv : r.void = false) (hst : (inst s i).st ≠ .resetting)
    (ha : r.abort = false ∨ (page s i).abortBusy = false) :
    ticketsArrive i l s = enterTickets i (r.count - r.pool) ((List.range r.count).map (fun k => l.getD k 0))
      (setInst i { inst s i with reads := q, sqHead := (r.slot + r.count) % sqSize (inst s i) } s) := by
  have hpage : page (enterTickets i (r.count - r.pool) ((List.range r.count).map (fun k => l.getD k 0))
      (setInst i { inst s i with reads := q, sqHead := (r.slot + r.count) % sqSize (inst s i) } s)) i = page s i := by
    rw [enterTickets_eq]
    rfl
  unfold ticketsArrive
  dsimp only
  rw [hr]
  refine (if_neg (by simp [hv])).trans ((if_neg hst).trans (if_neg fun h => ?_))
  obtain ⟨habort, hbusy⟩ := h
  rw [hpage] at hbusy
  rcases ha with ha | ha
  · exact Bool.noConfusion (ha.symm.trans habort)
  · exact Bool.noConfusion (ha.symm.trans hbusy)

/-! ### Reads of a transfer or command (R59, R60) -/

theorem atFirst_append {α : Type} {p : α → Bool} (f : α → Option α) {l r : List α} {x : α} (hl : ∀ y ∈ l, p y = false) (hx : p x = true) :
    atFirst p f (l ++ x :: r) = l ++ (f x).toList ++ r := by
  induction l with
  | nil =>
    rw [List.nil_append, atFirst, if_pos hx]
    cases f x
    all_goals rfl
  | cons y l ih =>
    rw [List.cons_append, atFirst, if_neg (by simp [hl y List.mem_cons_self]), ih fun z hz => hl z (List.mem_cons_of_mem _ hz)]
    rfl

theorem find?_first {α : Type} {p : α → Bool} {l r : List α} {x : α} (hl : ∀ y ∈ l, p y = false) (hx : p x = true) :
    (l ++ x :: r).find? p = some x := by
  rw [List.find?_append, List.find?_eq_none.2 fun y hy => by simp [hl y hy], List.find?_cons_of_pos hx]
  rfl

theorem any_first {α : Type} {p : α → Bool} {l r : List α} {x : α} (hx : p x = true) : (l ++ x :: r).any p = true :=
  List.any_eq_true.2 ⟨x, List.mem_append_right _ List.mem_cons_self, hx⟩

section
variable {s : State} {c : Nat} {t : Ticket} (ht : ticketOn s c = some t)
include ht

theorem dmaRead_loaded {l r : List DmaXfer} {x : DmaXfer} {d : List Byte} (hrun : t.phase = .running c)
    (hq : (corex s c).dma.queue = l ++ x :: r) (hl : ∀ y ∈ l, y.awaits t = false) (hx : x.awaits t = true) :
    inputRead c none .ok d s = xferLoaded x.xfers d (setCorex c { corex s c with
      dma := { (corex s c).dma with queue := l ++ { x with data := some d } :: r } } s) := by
  unfold inputRead
  rw [ht]
  refine (if_pos (by unfold dma; rw [hq]; exact any_first hx)).trans ((if_pos rfl).trans ?_)
  unfold setDma dma
  rw [hq, find?_first hl hx, atFirst_append _ hl hx, hrun]
  simp

theorem engineRead_loaded {k : Nat} {l r : List MeCmd} {x : MeCmd} {d : List Byte} (hrun : t.phase = .running c)
    (hq : (meWin s c k).queue = l ++ x :: r) (hl : ∀ y ∈ l, y.awaits t = false) (hx : x.awaits t = true) :
    inputRead c (some k) .ok d s = xferLoaded x.xfers d (setMeWin c k { meWin s c k with
      queue := l ++ { x with data := some d } :: r } s) := by
  unfold inputRead
  rw [ht]
  refine (if_pos (by rw [hq]; exact any_first hx)).trans ((if_pos rfl).trans ?_)
  rw [hq, find?_first hl hx, atFirst_append _ hl hx, hrun]
  simp

theorem dmaRead_fails {l r : List DmaXfer} {x : DmaXfer} {d : List Byte} {e : HostEnd} (he : e ≠ .ok)
    (hq : (corex s c).dma.queue = l ++ x :: r) (hl : ∀ y ∈ l, y.awaits t = false) (hx : x.awaits t = true) :
    inputRead c none e d s = inputReadFails c e (xferLoaded x.xfers d (setCorex c { corex s c with
      dma := { (corex s c).dma with queue := l ++ r } } s)) := by
  unfold inputRead
  rw [ht]
  refine (if_pos (by unfold dma; rw [hq]; exact any_first hx)).trans ((if_neg he).trans ?_)
  unfold setDma dma
  rw [hq, find?_first hl hx, atFirst_append _ hl hx]
  simp [he]

theorem readSince_dma {l r : List DmaXfer} {x : DmaXfer} (hq : (corex s c).dma.queue = l ++ x :: r)
    (hl : ∀ y ∈ l, y.awaits t = false) (hx : x.awaits t = true) :
    readSince s (.dma c) = if x.unsent then none else some x.since := by
  unfold readSince dma
  dsimp only
  rw [ht, hq, Option.bind_some, find?_first hl hx]
  cases h : x.unsent
  all_goals simp [Option.filter, h]

end

theorem readSince_ticketRead {s : State} {i : Nat} {r : TicketRead} {q : List TicketRead} (hr : (inst s i).reads = r :: q) :
    readSince s (.ticketRead i) = if r.unsent then none else some r.since := by
  unfold readSince
  dsimp only
  rw [hr]
  cases h : r.unsent
  all_goals simp [Option.filter, h]

theorem timeout_due {s : State} {ref : ReadRef} {f : List HostEnd} {a : W64} {n : Nat} (hl : Live s) (hs : readSince s ref = some n)
    (hn : n + timeoutTicks s.pcie.timeoutValue ≤ s.time.ticks) :
    Runs (.completionTimeout ref ⟨f, a⟩) s (hostRead ref (outcomeOf (f ++ [.timeout a])) [] (noteTimeouts (f ++ [.timeout a]) s)) :=
  congrArg Host.Outcome.next ((unlessLocked_live hl).trans (if_pos (by rw [hs]; simpa using hn)))

theorem timeout_early {s : State} {ref : ReadRef} {f : List HostEnd} {a : W64} {u : Bool} {n : Nat} (hl : Live s)
    (hs : readSince s ref = if u then none else some n) (h : u = true ∨ s.time.ticks < n + timeoutTicks s.pcie.timeoutValue) :
    Runs (.completionTimeout ref ⟨f, a⟩) s s := by
  refine congrArg Host.Outcome.next ((unlessLocked_live hl).trans (if_neg ?_))
  rw [hs]
  rcases h with rfl | h
  · simp
  · cases u
    · simpa using h
    · simp

/-! ### Inline tickets (R52, R78) -/

section
variable {s : State} {i : Nat}

/-- A ticket with a free entry of its own takes that. -/
theorem enterOne_own (o : Origin) (b : BitVec 512) (d : List Byte) (p : Phase) (h : 0 < ownFree s i) :
    enterOne i o b d p s = { s with nextTicket := s.nextTicket + 1, tickets := s.tickets ++ [
      { id := s.nextTicket, iid := i, origin := o, bytes := b, input := d, phase := p }] } := by
  unfold enterOne
  simp only [h, decide_true, Bool.true_or, if_true, Bool.not_true, Bool.false_and]

theorem ownFree_setInst (n : Nat) : ownFree (setInst i { inst s i with reserved := n } s) i = ownFree s i := by
  unfold ownFree ownUsed
  rw [inst_setInst]
  rfl

theorem inlineGo_copies (hst : (inst s i).st = .active) (hslot : freeSlots (inst s i) ≠ 0) (hw : s.boot.warm = false)
    (hfree : 0 < ownFree s i) :
    inlineGo i s = setPage i { page s i with inlineStatus := 0, copying := true }
      { setInst i { inst s i with reserved := (inst s i).reserved + 1 } s with
        nextTicket := s.nextTicket + 1
        tickets := s.tickets ++ [{
          id := s.nextTicket, iid := i, origin := .inline, bytes := windowTicket (page s i), input := windowInput (page s i),
          phase := .copying }] } := by
  have hcopy : ∀ l : List Ticket, ∀ t : Ticket, t.iid = i → t.phase = .copying →
      (l ++ [t]).any (fun t => t.iid == i && t.phase == .copying) = true :=
    fun l t hi hp => List.any_eq_true.2 ⟨t, List.mem_append_right l (List.mem_singleton.2 rfl), by simp [hi, hp]⟩
  unfold inlineGo
  refine (if_neg (by simp [hst, hslot, hw])).trans ?_
  dsimp only
  rw [enterOne_own _ _ _ _ (by rw [ownFree_setInst]; exact hfree)]
  dsimp only
  rw [hcopy _ _ rfl rfl]
  rfl

theorem inlineGo_refused (h : (inst s i).st ≠ .active ∨ freeSlots (inst s i) = 0 ∨ s.boot.warm = true) :
    inlineGo i s = setPage i { page s i with inlineStatus := if s.fc.snet then 0x60 else 0x11 } s :=
  if_pos h

variable (hw : Writable s) (hp : iidPresent s i = true)
include hw hp

theorem inlineGo_runs (hc : (page s i).copying = false) : Runs (.inlineGo i) s (inlineGo i s) :=
  congrArg Host.Outcome.next ((onInstance_present hw hp).trans ((if_neg (by simp [hc])).trans (if_pos rfl)))

theorem inlineGo_held (hc : (page s i).copying = true) :
    Runs (.inlineGo i) s (setPage i { page s i with heldWrites := (page s i).heldWrites ++ [(0x18, [0, 0, 0, 0])] } s) :=
  congrArg Host.Outcome.next ((onInstance_present hw hp).trans (if_pos hc))

end

/-- A request goes to the requests that wait or to those that left; the power state of the function stays. -/
theorem emit_queues (r : HostReq) (s : State) : ∃ a b, emit r s = { s with pcie := { s.pcie with issued := a, held := b } } := by
  unfold emit
  split
  · exact ⟨_, _, rfl⟩
  · split
    · exact ⟨_, _, rfl⟩
    · exact ⟨_, _, rfl⟩

theorem ticketFetch_reads {s : State} {i : Nat} (hl : Live s) (hp : iidPresent s i = true) (hw : s.boot.warm = false)
    (hst : (inst s i).st = .active) (hn : fetchCount s i ≠ 0) :
    Runs (.ticketFetch i) s (setInst i { inst s i with
        reserved := (inst s i).reserved + fetchCount s i,
        reads := (inst s i).reads ++ [{ slot := fetchHead (inst s i), count := fetchCount s i,
                                        pool := fetchCount s i - min (fetchCount s i) (ownFree s i), since := s.time.ticks,
                                        unsent := s.pcie.d3hot }] }
      (emit (.read (some (inst s i).pasid)
        ((inst s i).sqBase + BitVec.ofNat 64 (64 * fetchHead (inst s i))) (64 * fetchCount s i)) s)) := by
  refine congrArg Host.Outcome.next ((unlessLocked_live hl).trans ((if_neg (by simp [hp, hw, hst, hn])).trans ?_))
  obtain ⟨a, b, h⟩ := emit_queues (.read (some (inst s i).pasid)
    ((inst s i).sqBase + BitVec.ofNat 64 (64 * fetchHead (inst s i))) (64 * fetchCount s i)) s
  dsimp only
  rw [h]
  rfl

/-- Settles O6: reads complete oldest first, the gravest of the failures names the outcome, and a free entry of its own takes an inline ticket. -/
theorem ticketsEnterTheBuffer : Obligations.TicketsEnterTheBuffer := by
  unfold Obligations.TicketsEnterTheBuffer
  refine ⟨⟨fun s i => ticketFetch_reads, ?_, ?_, ?_, ?_, ?_, ?_, ?_, ?_⟩, ⟨?_, ?_, ?_, ?_, rfl, rfl, rfl, rfl, rfl, ?_⟩, ?_, ?_, ?_, ?_⟩
  · intro s i r q l hl hr hv ha hst
    refine ⟨_, (ticketRead_arrives hl).trans (congrArg Host.Outcome.next ((ticketsArrive_enter hr hv hst ha).trans (enterTickets_eq _ _ _ _))),
      congrArg Inst.reads (inst_setInst s i _), congrArg Inst.sqHead (inst_setInst s i _), ?_, ?_, fun k hk => ?_, fun k hk => ?_⟩
    · exact congrArg (s.nextTicket + ·) (by simp)
    · exact List.length_append.trans (congrArg (s.tickets.length + ·) (by simp))
    · exact List.getElem?_append_left hk
    · exact ⟨_, queueTicket_at i _ _ _ _ hk, rfl, rfl, rfl, rfl, rfl, queueTicket_pool _ _ _ _ _⟩
  · intro s i r q l hl hr
    exact ⟨fun hv hst => (ticketRead_arrives hl).trans (congrArg Host.Outcome.next (ticketsArrive_resetting hr hv hst)),
      fun hv => (ticketRead_arrives hl).trans (congrArg Host.Outcome.next (ticketsArrive_void hr hv))⟩
  · intro s i f d
    exact congrArg (fun g => Host.Outcome.next (unlessLocked g s)) (funext fun s => hostRead_ticketRead i f d s)
  · intro s i r q f l hl hr hv hf hst
    obtain ⟨p, hnote⟩ := noteTimeouts_frame f s
    refine (ticketRead_fails hl hf).trans ?_
    rw [hnote]
    exact congrArg Host.Outcome.next (ticketReadFailed_stops hr hv hst)
  · intro s i r q f a hl hr
    have hs := readSince_ticketRead hr
    refine ⟨fun hsent hdue => ?_, timeout_early hl hs⟩
    rw [hsent] at hs
    refine (timeout_due hl hs hdue).trans ((congrArg Host.Outcome.next ?_).trans (ticketRead_fails hl (outcomeOf_timeout f a)).symm)
    exact if_neg (outcomeOf_timeout f a)
  · intro s i r q f l hl hr hv hf
    obtain ⟨p, hnote⟩ := noteTimeouts_frame f s
    refine (ticketRead_fails hl hf).trans ?_
    rw [hnote]
    exact congrArg Host.Outcome.next (ticketReadFailed_void hr hv)
  · exact fun f => outcomeOf_ok
  · intro f e hf he
    obtain ⟨hin, hne⟩ := outcomeOf_failed hf he
    exact ⟨hin, hne, outcomeOf_poisoned hf he, outcomeOf_clean hf he⟩
  · intro s c t l r x d hl ht hrun hq hfirst hx
    exact congrArg Host.Outcome.next ((unlessLocked_live hl).trans (dmaRead_loaded ht hrun hq hfirst hx))
  · intro s c k t l r x d hl ht hrun hq hfirst hx
    exact congrArg Host.Outcome.next ((unlessLocked_live hl).trans (engineRead_loaded ht hrun hq hfirst hx))
  · intro s c t l r x f d hl ht hq hfirst hx hf
    obtain ⟨p, hnote⟩ := noteTimeouts_frame f s
    refine congrArg Host.Outcome.next ((unlessLocked_live hl).trans ?_)
    dsimp only [hostRead]
    rw [hnote]
    exact dmaRead_fails (s := { s with pcie := p }) ht hf hq hfirst hx
  · intro s c t l r x f a hl ht hq hfirst hx
    have hs := readSince_dma ht hq hfirst hx
    refine ⟨fun hsent hdue => ?_, timeout_early hl hs⟩
    rw [hsent] at hs
    refine (timeout_due hl hs hdue).trans (congrArg Host.Outcome.next ?_)
    rw [noteTimeouts_timeout]
    exact dmaRead_fails (s := { s with pcie := { s.pcie with aerTimeout := true } }) ht (outcomeOf_timeout f a) hq hfirst hx
  · decide
  · intro s i hw hp hc hst hslot hwarm hfree
    rw [← inlineGo_copies hst hslot hwarm hfree]
    exact inlineGo_runs hw hp hc
  · intro s i hw hp hc h
    rw [← inlineGo_refused h]
    exact inlineGo_runs hw hp hc
  · exact fun s i hw hp hc => inlineGo_held hw hp hc
  · intro s i hl hc
    exact congrArg Host.Outcome.next ((unlessLocked_live hl).trans (if_neg (by simp [hc])))

end Sys2Proof.Machine
end
